-- ==== Sys2Proof/Word.lean ====
section
/-! DEFINITION. The word types of the tile and of the device. -/

namespace Sys2Proof

/-- A 32-bit word (R4, R145). -/
abbrev Word := BitVec 32

/-- A byte (R4). -/
abbrev Byte := BitVec 8

/-- A 64-bit value: bulk addresses, host registers (R254, R390). -/
abbrev DWord := BitVec 64

/-- A logical tile coordinate, each 0 to 999 (R10, R81). -/
structure Coord where
  row : Nat
  col : Nat
  deriving DecidableEq, Repr

/-- A physical position of a region: region, local physical row, local position (R8). -/
structure Pos where
  region : Nat
  prow : Nat
  pos : Nat
  deriving DecidableEq, Repr

end Sys2Proof
end

