-- ==== Sys2Proof/Machine/Types.lean ====
section
/-! DEFINITION. The small types that instructions and state are made of: operand forms, causes, requests. -/

namespace Sys2Proof

/-- What every slot but a Y slot carries beside its operands (Table 09-1): E, the last slot of its bundle, and G,
the guard predicate. With a Y slot, `last` is the E bit of the Y slot. -/
structure Hdr where
  last : Bool
  guard : BitVec 3
  deriving DecidableEq, Repr

/-- An immediate-bearing field (Table 09-2): the owner's field of `n` bits, or the `m`-bit value that the owner's low
bits and its Y slot form (R195). -/
inductive Imm (n m : Nat) where
  | short (i : BitVec n)
  | long (i : BitVec m)
  deriving DecidableEq, Repr

/-- A field of an E or LT slot that names a tile register, or a ring where its ring flag is set (R279, R242). -/
inductive TileRef where
  | tile (t : BitVec 4)
  | ring (n : BitVec 3)
  deriving DecidableEq, Repr

/-- The 96 trap and fault causes (Table 16-5, R336), in the order of their codes. -/
inductive Cause where
  | trapi | brkpt | illcls | illop | illfld | illbnd | illy | fetch | fetchecc | stkov | stkun | loopnest
  | fmtres | ctlro | ctlnx | dbltrap | sprange | spalign | specc | feempty | fefull | fetmo | apert | atomop
  | barovr | bartxu | bartmo | baraln | spillov | carve | spwro | sppoison | bxnomap | bxperm | bxalign
  | bxkey | bxtag | bxecc | bxlocktmo | bxrepl | bxhost | bxpeer | bxfull | guardtmo | guarderr | templerr
  | cestall | saveerr | chnoroute | chdead | chwtmo | chrxovf | chlen | chpoison | chcrc | rdtmo | rdtype
  | rdtree | lnkdn | migfail | pairmis | routejog | chbind | remarr | opfmt | tshape | ringerr | mxres
  | mxstate | mxspare | vxlink | vxfpe | vxbud | xperr | uperr | rnerr | engecc | tagov | tagdead | shadowrep
  | cbabort | cbfull | cbnest | preempt | quarant | lichenfail | pfthresh | inject | rlcstag | rlcdiv
  | rlcmax | ibdepth | qbroken | hearthadopt | ringlost | security
  deriving DecidableEq, Repr

/-- The code of a cause (Table 16-5). -/
def Cause.code (c : Cause) : Nat := c.ctorIdx

/-- Every cause in the order of the codes (Table 16-5). -/
def Cause.all : List Cause :=
  [.trapi, .brkpt, .illcls, .illop, .illfld, .illbnd, .illy, .fetch, .fetchecc, .stkov, .stkun, .loopnest, .fmtres,
   .ctlro, .ctlnx, .dbltrap, .sprange, .spalign, .specc, .feempty, .fefull, .fetmo, .apert, .atomop, .barovr,
   .bartxu, .bartmo, .baraln, .spillov, .carve, .spwro, .sppoison, .bxnomap, .bxperm, .bxalign, .bxkey, .bxtag,
   .bxecc, .bxlocktmo, .bxrepl, .bxhost, .bxpeer, .bxfull, .guardtmo, .guarderr, .templerr, .cestall, .saveerr,
   .chnoroute, .chdead, .chwtmo, .chrxovf, .chlen, .chpoison, .chcrc, .rdtmo, .rdtype, .rdtree, .lnkdn, .migfail,
   .pairmis, .routejog, .chbind, .remarr, .opfmt, .tshape, .ringerr, .mxres, .mxstate, .mxspare, .vxlink, .vxfpe,
   .vxbud, .xperr, .uperr, .rnerr, .engecc, .tagov, .tagdead, .shadowrep, .cbabort, .cbfull, .cbnest, .preempt,
   .quarant, .lichenfail, .pfthresh, .inject, .rlcstag, .rlcdiv, .rlcmax, .ibdepth, .qbroken, .hearthadopt,
   .ringlost, .security]

/-- The cause of a code; codes above 0x5F name none, and stand for the last. -/
def Cause.ofCode (n : Nat) : Cause := (Cause.all[n]?).getD .security

/-- The engines of a tile in the order of their INFO codes, VX included (R325). -/
inductive Engine where
  | mx | xp | up | rn | vx
  deriving DecidableEq, Repr

/-- The eight units that acknowledge a stop (R338). -/
inductive TUnit where
  | core | mx | vx | xp | up | rn | copy | channels
  deriving DecidableEq, Repr

/-- A link direction (R81), in the order of the PARENT codes (Table 04-7). -/
inductive Dir where
  | w | n | e | s
  deriving DecidableEq, Repr

/-- An input port of a router's combine entry in the fixed order of R101. -/
inductive Port where
  | loc | w | n | e | s
  deriving DecidableEq, Repr

/-- Where a write to a device register comes from: a host port, the management port, or the Kiln itself (R374, R390, R393). -/
inductive Requester where
  | host (port : Nat)
  | mgmt
  | kiln
  deriving DecidableEq, Repr

/-- Why a link to the outside drops (R77). -/
inductive ExtLink where
  | hostPort (n : Nat)
  | optical (n : Nat)
  deriving DecidableEq, Repr

/-- The end of a link whose frames the receiver checks: a tile's router, which has one in each direction, or the ring node of an
optical port, which has one link (R83, R401). -/
inductive LinkEnd where
  | tile (c : Coord)
  | optical (p : Nat)
  deriving DecidableEq, Repr

/-- What the two Kilns report to each other over an optical link (R401): the peer's wafer ID, the port it answers
from and the digests of its firmware and configuration. -/
structure PeerReport where
  wafer : Nat
  port : Nat
  firmware : List Byte
  config : List Byte
  deriving DecidableEq, Repr

/-- One access through BAR2 (R390). -/
inductive Bar2Op where
  | read (len : Nat)
  | write (bytes : List Byte)
  deriving DecidableEq, Repr

/-- What the Kiln's verification of a container or configuration finds (R397, R400): both signatures good, the SVN
carried, the digest carried. The Kiln computes them from the bytes by algorithms outside the model (entry 12). -/
structure Verdict where
  ecdsa : Bool
  lms : Bool
  svn : Nat
  digest : List Byte
  /-- the image's digest is the one that the manifest carries -/
  imageOk : Bool
  deriving DecidableEq, Repr, Inhabited

/-- The contents of a configuration (R399): per queue QPORT and PRIV, per port SYSW and RSTOK, MGMTW, the accepted
peer digests, and its enrolment part if it has one (R400). -/
structure KConfig where
  queues : List (Nat × Nat × Bool)
  sysw : List Nat
  rstok : List Nat
  mgmtw : Bool
  peers : List (List Byte)
  digest : List Byte
  deriving DecidableEq, Repr, Inhabited

/-- An enrolment token and the checks of R400 on it. -/
structure Enrol where
  tokenEcdsa : Bool
  tokenLms : Bool
  serial : DWord
  keyDigest : List Byte
  carriedDigest : List Byte
  count : Nat
  oldEcdsa : Bool
  oldLms : Bool
  deriving DecidableEq, Repr, Inhabited

end Sys2Proof
end

