-- ==== Sys2Proof/Machine/Bits.lean ====
section
/-! DEFINITION. Bit fields, byte order and sign extension: the helpers that instructions, records and the decoder
share. Every multi-byte value is little-endian (R4). -/

namespace Sys2Proof.Machine

/-- The `len` bits of `w` from bit `lo` upward, as a number. -/
def bitsOf (w : Nat) (lo len : Nat) : Nat := w / 2 ^ lo % 2 ^ len

/-- One bit of a number. -/
def bitOf (w : Nat) (i : Nat) : Bool := w / 2 ^ i % 2 == 1

/-- A truth value as 1 or 0. -/
def b2n (b : Bool) : Nat := if b then 1 else 0

/-- The number with `w` in the `len` bits from `lo`, for building records: `len` cuts `w`. -/
def atBits (lo len w : Nat) : Nat := w % 2 ^ len * 2 ^ lo

/-- A number of `n` bits read as two's complement (SXT). -/
def sxt (n : Nat) (w : Nat) : Int := if w % 2 ^ n < 2 ^ (n - 1) then (w % 2 ^ n : Nat) else (w % 2 ^ n : Nat) - (2 ^ n : Nat)

/-- A word from an integer, modulo 2^32. -/
def wordOfInt (i : Int) : Word := BitVec.ofInt 32 i

/-- A truth value as a word, 1 or 0. -/
def wordOfBool (b : Bool) : Word := if b then 1#32 else 0#32

/-- The value of bytes in little-endian order (R4). -/
def bytesVal : List Byte → Nat
  | [] => 0
  | b :: bs => b.toNat + 256 * bytesVal bs

/-- `n` bytes of a number in little-endian order (R4). -/
def valBytes : Nat → Nat → List Byte
  | 0, _ => []
  | n + 1, v => BitVec.ofNat 8 v :: valBytes n (v / 256)

/-- A word as its four bytes. -/
def wordBytes (w : Word) : List Byte := valBytes 4 w.toNat

/-- The numbers 0 to n - 1. -/
def upTo (n : Nat) : List Nat := List.range n

/-- Whether every granule or item of a list passes. -/
def firstFail (l : List Nat) (ok : Nat → Bool) : Option Nat := l.find? (fun x => !ok x)

/-- Rounding up a quotient. -/
def ceilDiv (a b : Nat) : Nat := (a + b - 1) / b

/-- The element of a list at an index, replaced; beyond the end nothing changes. -/
def setAt {α : Type} (l : List α) (i : Nat) (x : α) : List α := l.set i x

/-- Splits bytes into pieces of `n` bytes, the last one shorter; `fuel` bounds the pieces. -/
def chunks (n : Nat) : Nat → List Byte → List (List Byte)
  | 0, _ => []
  | fuel + 1, l => if l.isEmpty then [] else l.take n :: chunks n fuel (l.drop n)

/-- The words of a byte string, four bytes each. -/
def bytesWords (l : List Byte) : List Word :=
  (chunks 4 (l.length / 4 + 1) l).map fun c => BitVec.ofNat 32 (bytesVal c)

/-- Leading zero bits of a word (R210). -/
def clz32 (w : Word) : Nat := if w = 0#32 then 32 else 31 - Nat.log2 w.toNat

/-- Trailing zero bits, looked for from bit `i` on with `fuel` bits left. -/
def ctzFrom (w : Word) : Nat → Nat → Nat
  | 0, i => i
  | fuel + 1, i => if w.getLsbD i then i else ctzFrom w fuel (i + 1)

/-- Trailing zero bits of a word (R210). -/
def ctz32 (w : Word) : Nat := ctzFrom w 32 0

/-- The number of set bits of a word (R210). -/
def popc32 (w : Word) : Nat := ((upTo 32).filter fun i => w.getLsbD i).length

/-- The word with its bits in the opposite order (R210). -/
def brev32 (w : Word) : Word := w.reverse

end Sys2Proof.Machine
end

