-- ==== Sys2Proof/Syntax.lean ====
section
/-! DEFINITION. The instructions: one constructor per row of the operation table. A slot instruction carries its
header (E and guard) and the operand fields of its format (Table 09-3), under the names of the format; a device step
carries what it happens to. -/

namespace Sys2Proof

/-- Every instruction slot and every whole step of the device. Slot fields name logical registers (R149). -/
inductive Instr where
  /- X class: scalar arithmetic, compares and copies (Table 09-4). -/
  /-- Does nothing; every operand field is zero. (R217) -/
  | nop (h : Hdr)
  /-- Writes sA + sB modulo 2^32 to sD. (R210) -/
  | add (h : Hdr) (d a b : BitVec 5)
  /-- Writes sA − sB modulo 2^32 to sD. (R210) -/
  | sub (h : Hdr) (d a b : BitVec 5)
  /-- Writes the bitwise AND of sA and sB to sD. (R210) -/
  | and (h : Hdr) (d a b : BitVec 5)
  /-- Writes the bitwise OR of sA and sB to sD. (R210) -/
  | or (h : Hdr) (d a b : BitVec 5)
  /-- Writes the bitwise XOR of sA and sB to sD. (R210) -/
  | xor (h : Hdr) (d a b : BitVec 5)
  /-- Writes sA AND NOT sB to sD. (R210) -/
  | andn (h : Hdr) (d a b : BitVec 5)
  /-- Shifts sA left by sB[4:0] into sD. (R210) -/
  | shl (h : Hdr) (d a b : BitVec 5)
  /-- Shifts sA right logically by sB[4:0] into sD. (R210) -/
  | shr (h : Hdr) (d a b : BitVec 5)
  /-- Shifts sA right arithmetically by sB[4:0] into sD. (R210) -/
  | sar (h : Hdr) (d a b : BitVec 5)
  /-- Rotates sA left by sB[4:0] into sD. (R210) -/
  | rotl (h : Hdr) (d a b : BitVec 5)
  /-- Writes the low 32 bits of sA·sB to sD with latency 3. (R210) -/
  | mul (h : Hdr) (d a b : BitVec 5) (u : Bool)
  /-- Writes the high 32 bits of the signed or unsigned product to sD. (R210) -/
  | mulh (h : Hdr) (d a b : BitVec 5) (u : Bool)
  /-- Writes the lesser of sA and sB, signed or unsigned, to sD. (R210) -/
  | min (h : Hdr) (d a b : BitVec 5) (u : Bool)
  /-- Writes the greater of sA and sB, signed or unsigned, to sD. (R210) -/
  | max (h : Hdr) (d a b : BitVec 5) (u : Bool)
  /-- Writes to a predicate the comparison of sA and sB under the condition in F. (R215) -/
  | cmp (h : Hdr) (p : BitVec 3) (a b : BitVec 5) (cond : BitVec 4)
  /-- Writes sA to sD when the named predicate is true, else sB. (R216) -/
  | sel (h : Hdr) (d a b : BitVec 5) (p : BitVec 3)
  /-- Writes the count of leading zero bits of sA to sD. (R210) -/
  | clz (h : Hdr) (d a : BitVec 5)
  /-- Writes the count of trailing zero bits of sA to sD. (R210) -/
  | ctz (h : Hdr) (d a : BitVec 5)
  /-- Writes the number of set bits of sA to sD. (R210) -/
  | popc (h : Hdr) (d a : BitVec 5)
  /-- Writes sA bit-reversed to sD. (R210) -/
  | brev (h : Hdr) (d a : BitVec 5)
  /-- Extracts a bit field of sA described by sB, optionally sign-extended, into sD. (R211) -/
  | bfx (h : Hdr) (d a b : BitVec 5) (sx : Bool)
  /-- Inserts the low bits of sA into the field of sD described by sB. (R211) -/
  | bfi (h : Hdr) (d a b : BitVec 5)
  /-- Divides sA by sB, signed or unsigned, writing the quotient to sD after 18 cycles. (R212) -/
  | div (h : Hdr) (d a b : BitVec 5) (t : BitVec 3) (u : Bool)
  /-- Divides sA by sB, signed or unsigned, writing the remainder to sD after 18 cycles. (R212) -/
  | rem (h : Hdr) (d a b : BitVec 5) (t : BitVec 3) (u : Bool)
  /-- Writes sA plus the immediate to sD. (R213) -/
  | addi (h : Hdr) (d a : BitVec 5) (i : Imm 9 32)
  /-- Writes sA AND the immediate to sD. (R213) -/
  | andi (h : Hdr) (d a : BitVec 5) (i : Imm 9 32)
  /-- Writes sA OR the immediate to sD. (R213) -/
  | ori (h : Hdr) (d a : BitVec 5) (i : Imm 9 32)
  /-- Writes sA XOR the immediate to sD. (R213) -/
  | xori (h : Hdr) (d a : BitVec 5) (i : Imm 9 32)
  /-- Shifts sA left by an immediate amount into sD. (R213) -/
  | shli (h : Hdr) (d a k : BitVec 5)
  /-- Shifts sA right logically by an immediate amount into sD. (R213) -/
  | shri (h : Hdr) (d a k : BitVec 5)
  /-- Shifts sA right arithmetically by an immediate amount into sD. (R213) -/
  | sari (h : Hdr) (d a k : BitVec 5)
  /-- Writes to a predicate whether sA equals the immediate. (R213) -/
  | cmpeqi (h : Hdr) (p : BitVec 3) (a : BitVec 5) (i : Imm 9 32)
  /-- Writes to a predicate whether sA is less than the immediate, signed. (R213) -/
  | cmplti (h : Hdr) (p : BitVec 3) (a : BitVec 5) (i : Imm 9 32)
  /-- Writes to a predicate whether sA is less than the immediate, unsigned. (R213) -/
  | cmpltui (h : Hdr) (p : BitVec 3) (a : BitVec 5) (i : Imm 9 32)
  /-- Writes sA times the immediate modulo 2^32 to sD with latency 3. (R213) -/
  | muli (h : Hdr) (d a : BitVec 5) (i : Imm 9 32)
  /-- Writes a sign-extended 14-bit immediate, or IMM32, to sD. (R214) -/
  | movi (h : Hdr) (d : BitVec 5) (i : Imm 14 32)
  /-- Writes a 14-bit immediate into sD[31:18], keeping the low bits. (R214) -/
  | movhi (h : Hdr) (d : BitVec 5) (i : BitVec 14)
  /-- Copies an s register into an a register. (R217) -/
  | xtoa (h : Hdr) (d : BitVec 4) (a : BitVec 5)
  /-- Copies an a register into an s register. (R217) -/
  | atox (h : Hdr) (d : BitVec 5) (a : BitVec 4)
  /-- Copies an s register into one lane of a v register. (R217) -/
  | xtov (h : Hdr) (d a : BitVec 5) (lane : BitVec 4)
  /-- Copies one lane of a v register into an s register. (R217) -/
  | vtox (h : Hdr) (d a : BitVec 5) (lane : BitVec 4)
  /-- Copies bit 0 of an s register into a predicate. (R217) -/
  | xtop (h : Hdr) (p : BitVec 3) (a : BitVec 5)
  /-- Copies a predicate into an s register as 0 or 1. (R217) -/
  | ptox (h : Hdr) (d : BitVec 5) (p : BitVec 3)
  /- L class: scratchpad, barrier and bulk accesses (Table 09-5). -/
  /-- Loads a sign-extended byte from scratchpad into an s register. (R239) -/
  | ldb (h : Hdr) (s : BitVec 5) (bs : BitVec 4) (o : Imm 5 32) (q : BitVec 2) (t : BitVec 3)
  /-- Loads a zero-extended byte from scratchpad into an s register. (R239) -/
  | ldbu (h : Hdr) (s : BitVec 5) (bs : BitVec 4) (o : Imm 5 32) (q : BitVec 2) (t : BitVec 3)
  /-- Loads a sign-extended half-word from scratchpad into an s register. (R239) -/
  | ldh (h : Hdr) (s : BitVec 5) (bs : BitVec 4) (o : Imm 5 32) (q : BitVec 2) (t : BitVec 3)
  /-- Loads a zero-extended half-word from scratchpad into an s register. (R239) -/
  | ldhu (h : Hdr) (s : BitVec 5) (bs : BitVec 4) (o : Imm 5 32) (q : BitVec 2) (t : BitVec 3)
  /-- Loads a word from scratchpad or a window into an s register. (R239) -/
  | ldw (h : Hdr) (s : BitVec 5) (bs : BitVec 4) (o : Imm 5 32) (q : BitVec 2) (t : BitVec 3)
  /-- Queues a byte store to scratchpad. (R239) -/
  | stb (h : Hdr) (s : BitVec 5) (bs : BitVec 4) (o : Imm 5 32) (q : BitVec 2)
  /-- Queues a half-word store to scratchpad. (R239) -/
  | sth (h : Hdr) (s : BitVec 5) (bs : BitVec 4) (o : Imm 5 32) (q : BitVec 2)
  /-- Queues a word store to scratchpad or, at offset 0 of the copy aperture, a copy start. (R239) -/
  | stw (h : Hdr) (s : BitVec 5) (bs : BitVec 4) (o : Imm 5 32) (q : BitVec 2)
  /-- Loads 64 bytes into a v register. (R239) -/
  | ldv (h : Hdr) (s : BitVec 5) (bs : BitVec 4) (o : Imm 5 32) (q : BitVec 2) (t : BitVec 3)
  /-- Queues a 64-byte store of a v register. (R239) -/
  | stv (h : Hdr) (s : BitVec 5) (bs : BitVec 4) (o : Imm 5 32) (q : BitVec 2)
  /-- Loads 32 BF16 elements widened to FP32 into a v register pair. (R239) -/
  | ldvb (h : Hdr) (s : BitVec 5) (bs : BitVec 4) (o : Imm 5 32) (q : BitVec 2) (t : BitVec 3)
  /-- Gathers 16 words at per-lane offsets into the active lanes of a v register. (R240) -/
  | ldvg (h : Hdr) (s : BitVec 5) (bs : BitVec 4) (o : BitVec 5) (q : BitVec 2) (t : BitVec 3)
  /-- Scatters the active lanes of a v register to per-lane addresses. (R240) -/
  | stvg (h : Hdr) (s : BitVec 5) (bs : BitVec 4) (o : BitVec 5) (q : BitVec 2)
  /-- Loads a swizzled tile image into a tile register or ring slot. (R241) -/
  | ldt (h : Hdr) (r : TileRef) (bs : BitVec 4) (o : Imm 4 32) (col : Bool) (q : BitVec 2) (t : BitVec 3)
  /-- Stores a tile register or landed ring slot as a swizzled tile image. (R241) -/
  | stt (h : Hdr) (r : TileRef) (bs : BitVec 4) (o : Imm 4 32) (col : Bool) (q : BitVec 2)
  /-- Stores a list of consecutive registers into the spill space, overflowing to bulk memory. (R243) -/
  | spill (h : Hdr) (f : BitVec 5) (bs n : BitVec 4) (c : BitVec 2) (t : BitVec 3)
  /-- Loads a list of consecutive registers from the spill space. (R243) -/
  | fill (h : Hdr) (f : BitVec 5) (bs n : BitVec 4) (c : BitVec 2) (t : BitVec 3)
  /-- Atomically adds sA to a scratchpad word, returning the old word. (R246) -/
  | aadd (h : Hdr) (d : BitVec 5) (bs : BitVec 4) (a : BitVec 5) (o : Imm 2 30) (t : BitVec 3)
  /-- Atomically ANDs sA into a scratchpad word, returning the old word. (R246) -/
  | aand (h : Hdr) (d : BitVec 5) (bs : BitVec 4) (a : BitVec 5) (o : Imm 2 30) (t : BitVec 3)
  /-- Atomically ORs sA into a scratchpad word, returning the old word. (R246) -/
  | aor (h : Hdr) (d : BitVec 5) (bs : BitVec 4) (a : BitVec 5) (o : Imm 2 30) (t : BitVec 3)
  /-- Atomically XORs sA into a scratchpad word, returning the old word. (R246) -/
  | axor (h : Hdr) (d : BitVec 5) (bs : BitVec 4) (a : BitVec 5) (o : Imm 2 30) (t : BitVec 3)
  /-- Atomically takes the signed minimum with a scratchpad word. (R246) -/
  | amin (h : Hdr) (d : BitVec 5) (bs : BitVec 4) (a : BitVec 5) (o : Imm 2 30) (t : BitVec 3)
  /-- Atomically takes the signed maximum with a scratchpad word. (R246) -/
  | amax (h : Hdr) (d : BitVec 5) (bs : BitVec 4) (a : BitVec 5) (o : Imm 2 30) (t : BitVec 3)
  /-- Atomically takes the unsigned minimum with a scratchpad word. (R246) -/
  | aminu (h : Hdr) (d : BitVec 5) (bs : BitVec 4) (a : BitVec 5) (o : Imm 2 30) (t : BitVec 3)
  /-- Atomically takes the unsigned maximum with a scratchpad word. (R246) -/
  | amaxu (h : Hdr) (d : BitVec 5) (bs : BitVec 4) (a : BitVec 5) (o : Imm 2 30) (t : BitVec 3)
  /-- Atomically adds sA as binary32 to a scratchpad word. (R246) -/
  | afadd (h : Hdr) (d : BitVec 5) (bs : BitVec 4) (a : BitVec 5) (o : Imm 2 30) (t : BitVec 3)
  /-- Atomically swaps sA with a scratchpad word. (R246) -/
  | aswap (h : Hdr) (d : BitVec 5) (bs : BitVec 4) (a : BitVec 5) (o : Imm 2 30) (t : BitVec 3)
  /-- Atomically replaces a scratchpad word with sA when it equals sD. (R246) -/
  | acas (h : Hdr) (d : BitVec 5) (bs : BitVec 4) (a : BitVec 5) (o : Imm 2 30) (t : BitVec 3)
  /-- Initialises a barrier object with EXPECT and TXRELOAD in one bank evaluation. (R248) -/
  | barinit (h : Hdr) (s : BitVec 5) (bs : BitVec 4) (o : Imm 5 32)
  /-- Arrives at a local barrier object with a count. (R249) -/
  | bararr (h : Hdr) (s : BitVec 5) (bs : BitVec 4) (o : Imm 5 32) (t : BitVec 3)
  /-- Adds a count to TXPEND of a barrier object. (R250) -/
  | bartxAdd (h : Hdr) (s : BitVec 5) (bs : BitVec 4) (o : Imm 5 32)
  /-- Performs TXDEC on a barrier object with a count. (R250) -/
  | bartxDec (h : Hdr) (s : BitVec 5) (bs : BitVec 4) (o : Imm 5 32)
  /-- Stalls until a barrier object's phase differs from the one given. (R251) -/
  | barwait (h : Hdr) (s : BitVec 5) (bs : BitVec 4) (o : Imm 5 32)
  /-- Reads one field of a barrier object in one evaluation. (R252) -/
  | barrd (h : Hdr) (s : BitVec 5) (bs : BitVec 4) (o : Imm 5 32) (k : BitVec 2) (t : BitVec 3)
  /-- Sets a run of full/empty bits full in one evaluation. (R253) -/
  | feset (h : Hdr) (s : BitVec 5) (bs : BitVec 4) (o : Imm 5 32)
  /-- Sets a run of full/empty bits empty in one evaluation. (R253) -/
  | feclr (h : Hdr) (s : BitVec 5) (bs : BitVec 4) (o : Imm 5 32)
  /-- Reads 16 full/empty bits into an s register. (R253) -/
  | ferd (h : Hdr) (s : BitVec 5) (bs : BitVec 4) (o : Imm 5 32) (t : BitVec 3)
  /-- Issues a 4-byte bulk load. (R254) -/
  | bldw (h : Hdr) (s : BitVec 5) (bs : BitVec 4) (bb t : BitVec 3)
  /-- Issues an 8-byte bulk load into a register pair. (R254) -/
  | bldd (h : Hdr) (s : BitVec 5) (bs : BitVec 4) (bb t : BitVec 3)
  /-- Issues a 4-byte bulk store. (R254) -/
  | bstw (h : Hdr) (s : BitVec 5) (bs : BitVec 4) (bb t : BitVec 3)
  /-- Issues an 8-byte bulk store from a register pair. (R254) -/
  | bstd (h : Hdr) (s : BitVec 5) (bs : BitVec 4) (bb t : BitVec 3)
  /-- Writes aA plus a scaled immediate to aD. (R258) -/
  | lea (h : Hdr) (d a : BitVec 4) (i : Imm 11 32)
  /-- Writes aA plus sS shifted by 0–3 to aD. (R258) -/
  | adda (h : Hdr) (d a : BitVec 4) (s : BitVec 5) (sh : BitVec 2)
  /- V class: online vector operations (Table 09-6). `t` is the tag, `n` the budget bit. -/
  /-- Adds two vectors on the digit path. (R263) -/
  | vadd (h : Hdr) (d a b : BitVec 5) (t : BitVec 3) (n : Bool)
  /-- Subtracts two vectors on the digit path. (R263) -/
  | vsub (h : Hdr) (d a b : BitVec 5) (t : BitVec 3) (n : Bool)
  /-- Multiplies two vectors on the digit path. (R263) -/
  | vmul (h : Hdr) (d a b : BitVec 5) (t : BitVec 3) (n : Bool)
  /-- Computes A·B + D with one rounding. (R263) -/
  | vfma (h : Hdr) (d a b : BitVec 5) (t : BitVec 3) (n : Bool)
  /-- Computes A·B − D with one rounding. (R263) -/
  | vfms (h : Hdr) (d a b : BitVec 5) (t : BitVec 3) (n : Bool)
  /-- Computes D − A·B with one rounding. (R263) -/
  | vfnma (h : Hdr) (d a b : BitVec 5) (t : BitVec 3) (n : Bool)
  /-- Divides two vectors on the digit path. (R263) -/
  | vdiv (h : Hdr) (d a b : BitVec 5) (t : BitVec 3) (n : Bool)
  /-- Takes the square root of a vector. (R263) -/
  | vsqrt (h : Hdr) (d a : BitVec 5) (t : BitVec 3) (n : Bool)
  /-- Takes the reciprocal square root of a vector. (R263) -/
  | vrsqrt (h : Hdr) (d a : BitVec 5) (t : BitVec 3) (n : Bool)
  /-- Takes the reciprocal of a vector. (R263) -/
  | vrcp (h : Hdr) (d a : BitVec 5) (t : BitVec 3) (n : Bool)
  /-- Takes the lesser of two vectors per lane. (R264) -/
  | vmin (h : Hdr) (d a b : BitVec 5) (t : BitVec 3) (n : Bool)
  /-- Takes the greater of two vectors per lane. (R264) -/
  | vmax (h : Hdr) (d a b : BitVec 5) (t : BitVec 3) (n : Bool)
  /-- Takes the magnitude of a vector. (R264) -/
  | vabs (h : Hdr) (d a : BitVec 5) (t : BitVec 3) (n : Bool)
  /-- Negates a vector. (R264) -/
  | vneg (h : Hdr) (d a : BitVec 5) (t : BitVec 3) (n : Bool)
  /-- Takes the greater magnitude of two vectors per lane. (R264) -/
  | vmaxa (h : Hdr) (d a b : BitVec 5) (t : BitVec 3) (n : Bool)
  /-- Compares two vectors and writes a mask, possibly deciding early. (R269) -/
  | vcmp (h : Hdr) (d a b : BitVec 5) (cond : BitVec 3)
  /-- Writes a predicate from the sign test of a vector over any or all lanes. (R270) -/
  | vsgn (h : Hdr) (p : BitVec 3) (all pos : Bool) (a : BitVec 5) (t : BitVec 3)
  /-- Writes a predicate from a threshold test of A against B over any or all lanes. (R270) -/
  | vthr (h : Hdr) (p : BitVec 3) (all ge : Bool) (a b : BitVec 5) (t : BitVec 3)
  /-- Selects lanes of vB or vD by a mask. (R275) -/
  | vsel (h : Hdr) (d a b : BitVec 5) (t : BitVec 3)
  /-- Copies a v register, or the value of a link, into a v register. (R275) -/
  | vmov (h : Hdr) (d a : BitVec 5) (t : BitVec 3)
  /-- Converts each lane between formats as its code selects. (R274) -/
  | vcvt (h : Hdr) (d a : BitVec 5) (code : BitVec 6) (t : BitVec 3)
  /-- Sums the 16 lanes exactly and rounds once into every lane. (R273) -/
  | vred (h : Hdr) (d a : BitVec 5) (t : BitVec 3) (n : Bool)
  /-- Forms the exact dot product of two vectors and rounds once into every lane. (R273) -/
  | vdot (h : Hdr) (d a b : BitVec 5) (t : BitVec 3) (n : Bool)
  /-- Adds two vectors as 32-bit integers. (R275) -/
  | viadd (h : Hdr) (d a b : BitVec 5) (t : BitVec 3)
  /-- Subtracts two vectors as 32-bit integers. (R275) -/
  | visub (h : Hdr) (d a b : BitVec 5) (t : BitVec 3)
  /-- Multiplies two vectors as 32-bit integers. (R275) -/
  | vimul (h : Hdr) (d a b : BitVec 5) (t : BitVec 3)
  /-- Bitwise AND of two vectors. (R275) -/
  | vand (h : Hdr) (d a b : BitVec 5) (t : BitVec 3)
  /-- Bitwise OR of two vectors. (R275) -/
  | vor (h : Hdr) (d a b : BitVec 5) (t : BitVec 3)
  /-- Bitwise XOR of two vectors. (R275) -/
  | vxor (h : Hdr) (d a b : BitVec 5) (t : BitVec 3)
  /-- Shifts each lane left by an immediate amount. (R275) -/
  | vshli (h : Hdr) (d a k : BitVec 5) (t : BitVec 3)
  /-- Shifts each lane right logically by an immediate amount. (R275) -/
  | vshri (h : Hdr) (d a k : BitVec 5) (t : BitVec 3)
  /-- Shifts each lane right arithmetically by an immediate amount. (R275) -/
  | vsari (h : Hdr) (d a k : BitVec 5) (t : BitVec 3)
  /-- Permutes the lanes of vA by the indices in vB. (R275) -/
  | vshuf (h : Hdr) (d a b : BitVec 5) (t : BitVec 3)
  /-- Broadcasts one lane of vA to every lane. (R275) -/
  | vbcst (h : Hdr) (d a : BitVec 5) (lane : BitVec 4) (t : BitVec 3)
  /-- Writes vA[0] + i into lane i. (R275) -/
  | viota (h : Hdr) (d a : BitVec 5) (t : BitVec 3)
  /-- Clamps vD between vA and vB per lane. (R265) -/
  | vclamp (h : Hdr) (d a b : BitVec 5) (t : BitVec 3)
  /-- Rounds vA to the precision of the digit budget. (R265) -/
  | vrndb (h : Hdr) (d a : BitVec 5) (t : BitVec 3)
  /-- Takes the signed or unsigned integer minimum per lane. (R275) -/
  | vimin (h : Hdr) (d a b : BitVec 5) (t : BitVec 3) (u : Bool)
  /-- Takes the signed or unsigned integer maximum per lane. (R275) -/
  | vimax (h : Hdr) (d a b : BitVec 5) (t : BitVec 3) (u : Bool)
  /-- Writes a mask of an integer comparison of each lane with an immediate. (R275) -/
  | vcmpi (h : Hdr) (d a : BitVec 5) (i : Imm 6 32) (cond : BitVec 3)
  /- E class: rings, engines, channels, containment (Table 09-7). -/
  /-- Declares a tile ring over consecutive tile registers. (R285) -/
  | ringdef (h : Hdr) (r : BitVec 3) (f n : BitVec 4)
  /-- Waits for the ring's users, then undeclares it. (R285) -/
  | ringrst (h : Hdr) (r : BitVec 3)
  /-- Queues a load of the shadow weight block. (R289) -/
  | mxw (h : Hdr) (src : TileRef) (t : BitVec 3)
  /-- Queues a stream of activation rows through the array into an accumulator. (R290) -/
  | mxf (h : Hdr) (z : BitVec 2) (src : TileRef) (t : BitVec 3)
  /-- Queues a transposed stream through the array into an accumulator. (R290) -/
  | mxr (h : Hdr) (z : BitVec 2) (src : TileRef) (t : BitVec 3)
  /-- Queues a checked promotion of an accumulator's K-block. (R291) -/
  | mxp (h : Hdr) (z : BitVec 2) (va sb : BitVec 5) (t : BitVec 3)
  /-- Queues a clear or load of an accumulator. (R292) -/
  | mxz (h : Hdr) (z : BitVec 2) (src : Option TileRef) (t : BitVec 3)
  /-- Queues a conversion of an accumulator into a tile register. (R293) -/
  | mxo (h : Hdr) (dst : TileRef) (z : BitVec 2) (t : BitVec 3)
  /-- Queues a row-maximum of an accumulator into a tile register. (R294) -/
  | mxq (h : Hdr) (dst : TileRef) (z : BitVec 2) (t : BitVec 3)
  /-- Queues a transpose of a tile register. (R296) -/
  | xpt (h : Hdr) (dst src : TileRef) (t : BitVec 3)
  /-- Queues an element conversion between tile registers. (R297) -/
  | xpc (h : Hdr) (dst src : TileRef) (code : BitVec 4) (t : BitVec 3)
  /-- Queues an Adam update over four tile registers. (R298) -/
  | upadm (h : Hdr) (w g m v : BitVec 4) (t : BitVec 3)
  /-- Queues an SGD-with-momentum update over three tile registers. (R298) -/
  | upsgd (h : Hdr) (w g m : BitVec 4) (t : BitVec 3)
  /-- Queues y := αx + y over two tile registers. (R298) -/
  | upaxp (h : Hdr) (y x : BitVec 4) (t : BitVec 3)
  /-- Queues generation of a Spore keep mask by tensor coordinates. (R299) -/
  | rnmask (h : Hdr) (dst : TileRef) (sr sc : BitVec 5) (t : BitVec 3)
  /-- Queues generation of Spore uniform FP32 values by tensor coordinates. (R299) -/
  | rnuni (h : Hdr) (dst : TileRef) (sr sc : BitVec 5) (t : BitVec 3)
  /-- Sends 1–4 v registers as one packet on an outbound channel. (R305) -/
  | chsendv (h : Hdr) (c v : BitVec 5) (k : BitVec 2) (t : BitVec 3)
  /-- Sends a tile register or ring slot as packets on an outbound channel. (R305) -/
  | chsendt (h : Hdr) (c : BitVec 5) (src : TileRef) (t : BitVec 3)
  /-- Sends scratchpad bytes through port B as packets on an outbound channel. (R306) -/
  | chsendm (h : Hdr) (c : BitVec 5) (bs : BitVec 4) (l : BitVec 5) (k : BitVec 2) (t : BitVec 3)
  /-- Binds an inbound channel to a receive ring or sink and sends the grant. (R307) -/
  | chrecv (h : Hdr) (c : BitVec 5) (bs : BitVec 4) (sink : Bool)
  /-- Hands a reduction contribution for the current round to the local router. (R309) -/
  | chred (h : Hdr) (j : BitVec 3) (v : BitVec 5) (cnt32 int : Bool) (t : BitVec 3)
  /-- Sends a remote arrival to a barrier in the receiver's scratchpad. (R310) -/
  | charr (h : Hdr) (c : BitVec 5) (bs : BitVec 4) (l : BitVec 5) (t : BitVec 3)
  /-- Reads a channel's credit, RCNT or FREE into an s register. (R311) -/
  | chwin (h : Hdr) (c l : BitVec 5) (k : BitVec 2)
  /-- Reads an outbound channel's SEQ into an s register. (R311) -/
  | chseq (h : Hdr) (c l : BitVec 5)
  /-- Opens a containment block: checkpoints registers and records handler and cause register. (R313) -/
  | cbopen (h : Hdr) (sc : BitVec 5) (handler : Word)
  /-- Waits for the block's instructions, then hands over or passes on its staged effects. (R315) -/
  | cbclose (h : Hdr)
  /-- Sends a value to the entry port to complete a parked bulk load. (R318) -/
  | portw (h : Hdr) (l : BitVec 5) (t : BitVec 3)
  /- B class: control transfers, loops, control registers (Table 09-8). -/
  /-- Branch-unit no-operation. (R218) -/
  | bnop (h : Hdr)
  /-- Transfers control to a bundle-relative target, conditionally under its guard. (R218) -/
  | br (h : Hdr) (o : Imm 16 32) (hint : Bool)
  /-- Pushes the return address and transfers control. (R218) -/
  | call (h : Hdr) (o : Imm 16 32) (hint : Bool)
  /-- Pops the return stack and transfers control there. (R218) -/
  | ret (h : Hdr)
  /-- Transfers control to the address in an a register. (R218) -/
  | jr (h : Hdr) (a : BitVec 4)
  /-- Pushes lc and ec, then sets lc, ec and rrb, optionally the stage predicates. (R220) -/
  | loopset (h : Hdr) (d : BitVec 5) (n : BitVec 9) (mod : Bool)
  /-- Pops the saved lc and ec from the loop stack. (R220) -/
  | loopsetPop (h : Hdr)
  /-- Counts down lc or ec, rotates registers and writes the stage predicate, branching back. (R221) -/
  | loop (h : Hdr) (o : Imm 16 32) (hint : Bool)
  /-- Counts down lc and branches back without rotation. (R221) -/
  | loopc (h : Hdr) (o : Imm 16 32) (hint : Bool)
  /-- Writes fmt, in force from 4 cycles after issue. (R225) -/
  | setfmt (h : Hdr) (d : BitVec 5)
  /-- Writes a control register under its checks. (R225) -/
  | setc (h : Hdr) (d : BitVec 5) (n : BitVec 9)
  /-- Reads a control register into an s register. (R225) -/
  | getc (h : Hdr) (d : BitVec 5) (n : BitVec 9)
  /-- ANDs two predicates. (R224) -/
  | pand (h : Hdr) (d a b : BitVec 3)
  /-- ORs two predicates. (R224) -/
  | por (h : Hdr) (d a b : BitVec 3)
  /-- XORs two predicates. (R224) -/
  | pxor (h : Hdr) (d a b : BitVec 3)
  /-- ANDs a predicate with the inverse of another. (R224) -/
  | pandn (h : Hdr) (d a b : BitVec 3)
  /-- Copies a predicate. (R224) -/
  | pmov (h : Hdr) (d a : BitVec 3)
  /-- Waits for all producers, checks tags, guards and blocks, then ends the tile task. (R227) -/
  | endTask (h : Hdr)
  /-- Issues, then raises TRAPI at the following boundary with the given number. (R228) -/
  | trap (h : Hdr) (n : BitVec 9)
  /-- Checks and reloads the trap frame, re-injects the replay queue and returns from the handler. (R229) -/
  | rft (h : Hdr)
  /-- Raises BRKPT at issue. (R228) -/
  | bkpt (h : Hdr) (n : BitVec 9)
  /- K class: waits, fences and guards (Table 09-9). -/
  /-- Stalls until the named tags are free or faulted, then holds. (R230) -/
  | wait (h : Hdr) (m : BitVec 7) (hold : BitVec 3)
  /-- Stalls until the named scopes' earlier effects are done. (R231) -/
  | fence (h : Hdr) (s : BitVec 5)
  /-- Enters a guard in the hold table and sends an acquire to its home port. (R232) -/
  | acq (h : Hdr) (bs : BitVec 4) (bb : BitVec 3) (shared : Bool) (t : BitVec 3)
  /-- Removes a guard from the hold table and sends its release once earlier accesses are performed. (R232) -/
  | rel (h : Hdr) (bs : BitVec 4) (bb t : BitVec 3)
  /-- Stalls until a run of granules is all full or all empty. (R233) -/
  | waitfe (h : Hdr) (s : BitVec 5) (bs : BitVec 4)
  /-- Stalls until a copy channel's cedone has passed a transfer ID. (R234) -/
  | cewait (h : Hdr) (s : BitVec 5) (ch : BitVec 3)
  /-- Stalls until every tag, untagged producer and link is done, then acts as a WAIT on all tags. (R230) -/
  | waitall (h : Hdr) (hold : BitVec 3)
  /- The device steps: they have no encoding; the agenda of the state, or the machine itself, brings them. -/
  /-- A fetched bundle fails the slot or bundle checks and raises its encoding cause at issue. (R201) -/
  | invalidBundle (cause : Cause) (slot : BitVec 3)
  /-- A queued port A store is performed at its bank in program order. (R108) -/
  | storePerform (c : Coord)
  /-- A row of an accepted copy is performed at scratchpad or Flue port. (R50) -/
  | copyRow (c : Coord) (ch : BitVec 3)
  /-- A copy's last row is performed; cedone advances and its barrier decrement follows. (R50) -/
  | copyComplete (c : Coord) (ch : BitVec 3)
  /-- febound expires on a full/empty or copy wait, raising FETMO. (R39) -/
  | feWaitTimeout (c : Coord)
  /-- febound expires on a send waiting for credit, raising CHWTMO. (R90) -/
  | sendWaitTimeout (c : Coord)
  /-- barbound expires on BARWAIT, setting TMO and raising BARTMO. (R251) -/
  | barwaitTimeout (c : Coord)
  /-- A core or V producer's result lands in its register and its tag is released. (R153) -/
  | producerLand (c : Coord)
  /-- A decider reaches its decision cycle and writes its result. (R271) -/
  | vDecide (c : Coord)
  /-- A queued engine operation fires when its conditions hold and reads its sources. (R281) -/
  | engineFire (c : Coord) (e : Engine)
  /-- An engine operation completes and writes its destinations whole. (R300) -/
  | engineComplete (c : Coord) (e : Engine)
  /-- A router accepts a flit and forwards it by dimension order, or discards it at a down link. (R82) -/
  | routeFlit (k : Nat)
  /-- A flit arrives with a bad link CRC and is resent. (R83) -/
  | linkResend (c : LinkEnd) (d : Dir)
  /-- The 16th consecutive failed resend marks a link down and reports LNKDN. (R83) -/
  | linkDown (c : LinkEnd) (d : Dir)
  /-- A packet arrives at an inbound channel and is written into its slot or discarded. (R92) -/
  | receive (c : Coord) (ich : BitVec 5)
  /-- A credit or grant reaches the sender and raises CREDIT. (R91) -/
  | creditArrive (c : Coord) (och : BitVec 5)
  /-- A ctl notice reaches the sender, raising a send fault and perhaps setting DEAD. (R94) -/
  | sendFaultNotice (c : Coord) (och : BitVec 5)
  /-- A remote arrival is evaluated at the receiver after earlier packets of its channel. (R95) -/
  | remoteArrival (c : Coord) (ich : BitVec 5)
  /-- The result of a remote arrival returns and releases or faults the sender's tag. (R95) -/
  | arrivalResult (c : Coord) (och : BitVec 5)
  /-- A contribution or partial reaches a router input of a tree. (R100) -/
  | reductionInput (c : Coord) (j : BitVec 3) (p : Port)
  /-- A held root result is written once the sink is bound and its slot free. (R101) -/
  | heldResultDeliver (c : Coord) (j : BitVec 3)
  /-- A tree's time-out expires and the round is abandoned with a flooded notice. (R102) -/
  | roundAbandon (c : Coord) (j : BitVec 3)
  /-- An abandon notice reaches a router or tile, discarding inputs and raising RDTMO. (R102) -/
  | abandonNotice (c : Coord) (j : BitVec 3)
  /-- A bulk access reaches its entry Flue port and is translated, parked or forwarded. (R64) -/
  | bulkRequest (id : Nat)
  /-- A held fault record is written once the host frees ring space. (R73) -/
  | faultRecordRelease (ctx : BitVec 8)
  /-- A retry word with ABORT = 0 replays the parked access. (R74) -/
  | retryReplay (port : Nat) (word : DWord)
  /-- A retry word with ABORT = 1 fails the parked access. (R74) -/
  | retryAbort (port : Nat) (word : DWord)
  /-- A PORTW value reaches the entry port and completes or is discarded. (R318) -/
  | portwAtPort (id : Nat)
  /-- The target port performs an access to its line, in arrival order. (R70) -/
  | bulkPerform (id : Nat)
  /-- The home port locks, writes and unlocks every replica of a line. (R78) -/
  | replicaCommit (id : Nat)
  /-- A read stalled on a locked replica line is served when it unlocks. (R79) -/
  | lockedReadResume (id : Nat)
  /-- A stalled read reaches 2 µs and fails with BXLOCKTMO. (R79) -/
  | lockedReadTimeout (id : Nat)
  /-- Surviving ports release a failed home port's locks. (R79) -/
  | homeLockRelease (port : Nat)
  /-- A host access gets no completion in 50 µs and fails with BXHOST. (R77) -/
  | hostTimeout (id : Nat)
  /-- A host or peer does not accept a request in 50 µs; BXFULL. (R77) -/
  | requestAcceptTimeout (id : Nat)
  /-- A host or optical link drops and every access in flight to it fails. (R77) -/
  | externalLinkDrop (l : ExtLink)
  /-- A bulk response or park notice reaches the tile, writing data and releasing or faulting its tag. (R75) -/
  | bulkResponse (id : Nat)
  /-- An acquire reaches the guard's home port and is granted, queued or failed. (R116) -/
  | acqAtHome (id : Nat)
  /-- WAITUS expires for a queued acquire, which fails with GUARDTMO. (R116) -/
  | guardWaitTimeout (id : Nat)
  /-- A REL leaves the tile once earlier accesses to its ranges are performed. (R118) -/
  | relDepart (id : Nat)
  /-- A release is evaluated at the guard's home port. (R118) -/
  | relAtHome (id : Nat)
  /-- A grant, release or failure returns to the tile, invalidating the buffer on grant and releasing the tag. (R116) -/
  | guardResponse (id : Nat)
  /-- After a failed node's accesses are performed, the Hearth releases its holds and sets ERR. (R120) -/
  | hearthGuardRelease (node : Nat)
  /-- A shadow CRC or primary item arrives at the primary's router and is compared. (R143) -/
  | pairCompare (c : Coord)
  /-- An item's partner does not arrive within 65,536 cycles; PAIRMIS. (R143) -/
  | pairTimeout (c : Coord)
  /-- A trap is taken at a bundle boundary: producers drain or are captured and the frame written. (R322) -/
  | trapTake (c : Coord)
  /-- Held records are written, RINGLOST first, once ring space frees. (R335) -/
  | trapRecordRelease (ctx : BitVec 8)
  /-- A containment error aborts the innermost block and resumes at its handler. (R316) -/
  | containmentAbort (c : Coord)
  /-- A stop reaches a tile and each unit stops at its pre-emption point. (R337) -/
  | preemptStop (c : Coord)
  /-- A unit's stop acknowledgement reaches its region collector. (R338) -/
  | stopAck (c : Coord) (u : TUnit)
  /-- All regions report stopped and the tiles' save images are written. (R338) -/
  | savePhase (node : Nat)
  /-- Every region reports saved and the placement is free. (R338) -/
  | preemptComplete (node : Nat)
  /-- A node's images are restored by logical coordinate and started. (R341) -/
  | restore (node : Nat)
  /-- The leading Hearth reads, checks and multicasts a node's images. (R134) -/
  | launchNode (node : Nat)
  /-- Once every tile reports loaded, the start multicast is sent. (R134) -/
  | startMulticast (node : Nat)
  /-- The start multicast reaches a tile, which issues its first bundle. (R134) -/
  | tileStart (c : Coord)
  /-- Every tile has ended and R124 holds; dependants are counted. (R138) -/
  | nodeComplete (node : Nat)
  /-- A node fails; its tiles are stopped and its state discarded. (R139) -/
  | nodeFail (node : Nat)
  /-- A migration starts its Stop step for the moved tiles. (R21) -/
  | shiftMigration (c : Coord)
  /-- After saves, the map is changed, state restored by coordinate and tiles resumed. (R21) -/
  | migrationRemap (k : Nat)
  /-- The 500 µs bound expires and the migration fails. (R22) -/
  | migrationTimeout (k : Nat)
  /-- A 2 µs Hearth frame runs its polls and housekeeping. (R344) -/
  | hearthFrame (h : Nat)
  /-- An uncorrectable error in Hearth instruction memory stops the Hearth. (R361) -/
  | hearthStop (h : Nat)
  /-- An uncorrectable error in a queue table rebuilds or halts the queue. (R362) -/
  | qbroken (q : Nat)
  /-- A NOP packet starts and completes at once. (R353) -/
  | nopPacket (q : Nat)
  /-- A LAUNCH packet checks the graph, writes its status and readies root nodes. (R354) -/
  | launch (q : Nat)
  /-- Takes an indirect buffer's packets as if they followed in the ring. (R355) -/
  | ibcall (q : Nat)
  /-- After earlier packets complete, writes a value to a fence word. (R353) -/
  | signal (q : Nat)
  /-- Stalls the queue until a fence word meets its condition. (R353) -/
  | waitv (q : Nat)
  /-- The Flue ports copy 64-byte lines between bulk addresses. (R353) -/
  | copy (q : Nat)
  /-- Starts the refinement loop controller on a REFINE block. (R363) -/
  | refine (q : Nat)
  /-- A graph of the refinement loop ends and the controller tests and runs the next graph. (R365) -/
  | refineStep (q : Nat)
  /-- Pre-empts every running node of a context meeting a rectangle. (R353) -/
  | preemptPacket (q : Nat)
  /-- Makes nodes held by PREEMPT packets ready again. (R353) -/
  | resume (q : Nat)
  /-- Adds one Lichen pass on each tile of a rectangle. (R376) -/
  | lichen (q : Nat)
  /-- Discards cached translations of the named contexts at every port. (R68) -/
  | mapsync (q : Nat)
  /-- A 1 ms window ends; the Hearth writes the RAS line and applies the threshold. (R372) -/
  | rasWindow (r : Nat)
  /-- A shadow latch catches a late transition and replays its stage. (R370) -/
  | shadowReplay (c : Coord) (e : Engine)
  /-- A Lichen pass is placed on an idle tile. (R376) -/
  | lichenPassStart (c : Coord)
  /-- A pass ends; the tile passes, remaps its spare row, or fails. (R377) -/
  | lichenPassEnd (c : Coord)
  /-- An exposure report is written into a free slot and LICHENFAIL records sent. (R381) -/
  | exposureReportWrite (q : Nat)
  /-- Arms or disarms error injection on a target tile. (R374) -/
  | injctlWrite (req : Requester) (r : Nat) (v : DWord)
  /-- With input voltage in range, the Kiln verifies firmware and bring-up starts. (R394) -/
  | bringUp
  /-- A Flue port march-tests its stack, zeroes its system window and reports ready. (R394) -/
  | fluePortBringUp (port : Nat)
  /-- A region loads its Hearth and march-tests its tiles. (R394) -/
  | regionBringUp (r : Nat)
  /-- After march tests the Hearth builds the region map. (R12) -/
  | mapBuild (r : Nat)
  /-- A host port's link comes up and it reports ready. (R394) -/
  | hostLinkUp (port : Nat)
  /-- An optical port's transceiver and ring node pass bring-up. (R394) -/
  | opticalPortReady (port : Nat)
  /-- An optical port trains its link and sets LINKUP. (R401) -/
  | opticalLinkTrain (port : Nat)
  /-- The Kilns exchange attestation and the link becomes SECURE or is refused. (R401) -/
  | opticalAttestExchange (port : Nat) (peer : PeerReport)
  /-- A PCIe reset resets one port's link and mailbox. (R391) -/
  | hostPortReset (port : Nat)
  /-- Resets the device if the port holds RSTOK. (R392) -/
  | devrst (req : Requester) (v : DWord)
  /-- Resets one idle region and reruns its bring-up. (R396) -/
  | rreset (req : Requester) (v : DWord)
  /-- Sets the wafer ID, ignored while any optical link is up. (R401) -/
  | waferidWrite (req : Requester) (v : DWord)
  /-- A host or management write to a register without a row of its own. (R390) -/
  | registerWrite (req : Requester) (addr : Nat) (v : DWord)
  /-- A host access through the BAR2 aperture to device physical memory. (R390) -/
  | bar2Access (port : Nat) (addr : Nat) (op : Bar2Op)
  /-- Returns a signed attestation report. (R398) -/
  | kattest (port : Nat)
  /-- Generates keys into a slot bound to a context. (R399) -/
  | kgen (port : Nat)
  /-- Unwraps imported key material into a slot bound to a context. (R407) -/
  | kunwrap (port : Nat)
  /-- Requests clearing of a key slot after the ports drain. (R399) -/
  | kunload (port : Nat)
  /-- Once every port has drained, the slot is cleared. (R76) -/
  | keySlotClear (slot : Nat)
  /-- Applies a signed configuration, enrolling the operator key if first. (R399) -/
  | kcfg (port : Nat)
  /-- Raises the anti-rollback counter to the running SVN. (R397) -/
  | kcommit (port : Nat)
  /-- Verifies a firmware container and resets the device with it. (R397) -/
  | kfwload (port : Nat)
  /-- A management-port write starts KATTEST with the written nonce. (R393) -/
  | mgmtKattest
  /-- Sets the index and writes data from it upward. (R393) -/
  | i3cPrivateWrite (bytes : List Byte)
  /-- Returns data from the index, advancing it. (R393) -/
  | i3cPrivateRead (n : Nat)
  /-- I3C CCC assigning a dynamic address. (R393) -/
  | entdaa (addr : BitVec 7)
  /-- I3C CCC setting the dynamic address from the static one. (R393) -/
  | setdasa (addr : BitVec 7)
  /-- I3C CCC resetting the dynamic address. (R393) -/
  | rstdaa
  /-- I3C CCC enabling events. (R393) -/
  | enec (mask : Byte)
  /-- I3C CCC disabling events. (R393) -/
  | disec (mask : Byte)
  /-- I3C CCC returning the provisioned ID. (R393) -/
  | getpid
  /-- I3C CCC returning the bus characteristics register. (R393) -/
  | getbcr
  /-- I3C CCC returning the device characteristics register. (R393) -/
  | getdcr
  /-- I3C CCC returning target status. (R393) -/
  | getstatus
  /-- I3C CCC returning the maximum write length, 258. (R393) -/
  | getmwl
  /-- I3C CCC returning the maximum read length, 64. (R393) -/
  | getmrl
  /-- Every 100 µs the Damper computes and applies region grants. (R402) -/
  | damperStep
  /-- Input voltage leaves 50–56 V but stays within 48–58 V; grants are capped. (R403) -/
  | voltageWarning
  /-- Input outside 48–58 V for 1 ms removes wafer power. (R403) -/
  | powerRemoval
  /-- A junction crosses a threshold; the grant is halved or the clock stepped down. (R404) -/
  | thermalLimit (r : Nat)
  /-- Flow below 65 L/min for 1 s shuts the module down. (R404) -/
  | coolantFlowShutdown
  /-- A Flue port fails or is retired. Guard requests waiting there fail with GUARDERR, its replica write leaves the replica poisoned, later accesses to its stack fail with BXECC, and surviving ports begin releasing its locks. (R120) -/
  | fluePortFailure (port : Nat)
  /-- A CCC not in the supported list, an HDR entry included, arrives at the management port and is not acknowledged, or is answered as a target without HDR support. (R393) -/
  | unsupportedCcc (code : Byte)
  deriving DecidableEq, Repr

end Sys2Proof
end

