-- ==== Sys2Proof/WellFormed.lean ====
section
/-! DEFINITION. Which instructions are well formed: what R197 and the entries ask of the fields of one slot, beyond
the widths that the types already fix. A slot that breaks one of these checks raises ILLFLD (R199). -/

namespace Sys2Proof

open Machine (b2n)

namespace Wf

/-- A code of the v file, 0 to 27 (R145). -/
def vreg (c : BitVec 5) : Bool := decide (c.toNat ≤ 27)

/-- An even code, as a register pair wants (R146, R239). -/
def even (c : BitVec 5) : Bool := c.getLsbD 0 == false

/-- A list of `n` + 1 v registers stays in its file (Table 14-1). -/
def vlist (c : BitVec 5) (n : Nat) : Bool := decide (c.toNat + n ≤ 27)

/-- A code below a bound: conditions, conversion codes, selectors. -/
def condOk {n : Nat} (c : BitVec n) (bound : Nat) : Bool := decide (c.toNat < bound)

/-- A mandatory tag (R156). -/
def tagged (t : BitVec 3) : Bool := t != 0#3

/-- A register that is the first of a pair, at most 30 (R247, R254, Table 14-1). -/
def pairOk (c : BitVec 5) : Bool := decide (c.toNat ≤ 30)

/-- The list of a SPILL or FILL lies inside its file (R243). -/
def listOk (f : BitVec 5) (n : BitVec 4) (c : BitVec 2) : Bool :=
  match c.toNat with
  | 0 => decide (f.toNat + n.toNat ≤ 31)
  | 1 => decide (f.toNat + n.toNat ≤ 27)
  | 2 => decide (f.toNat + n.toNat ≤ 15)
  | _ => decide (f.toNat + n.toNat ≤ 7)

/-- A and B do not name one link (Table 12-2). -/
def linksApart (a b : BitVec 5) : Bool := decide (a.toNat ≤ 27) || a != b

/-- A conversion code and its parity rule (R274). -/
def cvtOk (code : BitVec 6) (d a : BitVec 5) : Bool :=
  match code.toNat with
  | 4 | 6 => even d
  | 5 | 7 => even a
  | n => decide (n ≤ 11)

/-- A handler address: a multiple of 4 below 0x4000 (R312). -/
def handlerOk (w : Word) : Bool := decide (w.toNat % 4 = 0) && decide (w.toNat < 0x4000)

/-- A branch offset under a Y slot is a multiple of 4 (R195). -/
def offsetOk (o : Imm 16 32) : Bool :=
  match o with
  | .short _ => true
  | .long v => decide (v.toNat % 4 = 0)

end Wf

open Wf

/-- Whether every field of a slot satisfies R195 to R197 and the instruction's entry. A device step is always well
formed. -/
def Instr.wf : Instr → Bool
  | .nop _ => true
  | .add _ _ _ _ => true
  | .sub _ _ _ _ => true
  | .and _ _ _ _ => true
  | .or _ _ _ _ => true
  | .xor _ _ _ _ => true
  | .andn _ _ _ _ => true
  | .shl _ _ _ _ => true
  | .shr _ _ _ _ => true
  | .sar _ _ _ _ => true
  | .rotl _ _ _ _ => true
  | .mul _ _ _ _ _ => true
  | .mulh _ _ _ _ _ => true
  | .min _ _ _ _ _ => true
  | .max _ _ _ _ _ => true
  | .cmp _ _ _ _ cond => condOk cond 10
  | .sel _ _ _ _ _ => true
  | .clz _ _ _ => true
  | .ctz _ _ _ => true
  | .popc _ _ _ => true
  | .brev _ _ _ => true
  | .bfx _ _ _ _ _ => true
  | .bfi _ _ _ _ => true
  | .div _ _ _ _ _ _ => true
  | .rem _ _ _ _ _ _ => true
  | .addi _ _ _ _ => true
  | .andi _ _ _ _ => true
  | .ori _ _ _ _ => true
  | .xori _ _ _ _ => true
  | .shli _ _ _ _ => true
  | .shri _ _ _ _ => true
  | .sari _ _ _ _ => true
  | .cmpeqi _ _ _ _ => true
  | .cmplti _ _ _ _ => true
  | .cmpltui _ _ _ _ => true
  | .muli _ _ _ _ => true
  | .movi _ _ _ => true
  | .movhi _ _ _ => true
  | .xtoa _ _ _ => true
  | .atox _ _ _ => true
  | .xtov _ d _ _ => vreg d
  | .vtox _ _ a _ => vreg a
  | .xtop _ _ _ => true
  | .ptox _ _ _ => true
  | .ldb _ _ _ _ _ _ => true
  | .ldbu _ _ _ _ _ _ => true
  | .ldh _ _ _ _ _ _ => true
  | .ldhu _ _ _ _ _ _ => true
  | .ldw _ _ _ _ _ _ => true
  | .stb _ _ _ _ _ => true
  | .sth _ _ _ _ _ => true
  | .stw _ _ _ _ _ => true
  | .ldv _ s _ _ _ _ => vreg s
  | .stv _ s _ _ _ => vreg s
  | .ldvb _ s _ _ _ _ => vreg s && even s
  | .ldvg _ s _ o _ _ => vreg s && vreg o
  | .stvg _ s _ o _ => vreg s && vreg o
  | .ldt _ _ _ _ _ _ _ => true
  | .stt _ _ _ _ _ _ => true
  | .spill _ f _ n c _ => listOk f n c
  | .fill _ f _ n c _ => listOk f n c
  | .aadd _ _ _ _ _ _ => true
  | .aand _ _ _ _ _ _ => true
  | .aor _ _ _ _ _ _ => true
  | .axor _ _ _ _ _ _ => true
  | .amin _ _ _ _ _ _ => true
  | .amax _ _ _ _ _ _ => true
  | .aminu _ _ _ _ _ _ => true
  | .amaxu _ _ _ _ _ _ => true
  | .afadd _ _ _ _ _ _ => true
  | .aswap _ _ _ _ _ _ => true
  | .acas _ _ _ _ _ _ => true
  | .barinit _ s _ _ => pairOk s
  | .bararr _ _ _ _ _ => true
  | .bartxAdd _ _ _ _ => true
  | .bartxDec _ _ _ _ => true
  | .barwait _ _ _ _ => true
  | .barrd _ _ _ _ _ _ => true
  | .feset _ _ _ _ => true
  | .feclr _ _ _ _ => true
  | .ferd _ _ _ _ _ => true
  | .bldw _ _ _ _ t => tagged t
  | .bldd _ s _ _ t => pairOk s && tagged t
  | .bstw _ _ _ _ t => tagged t
  | .bstd _ s _ _ t => pairOk s && tagged t
  | .lea _ _ _ _ => true
  | .adda _ _ _ _ _ => true
  | .vadd _ _ a b _ _ => linksApart a b
  | .vsub _ _ a b _ _ => linksApart a b
  | .vmul _ _ a b _ _ => linksApart a b
  | .vfma _ d a b _ _ => linksApart a b && vreg d
  | .vfms _ d a b _ _ => linksApart a b && vreg d
  | .vfnma _ d a b _ _ => linksApart a b && vreg d
  | .vdiv _ _ a b _ _ => linksApart a b
  | .vsqrt _ _ _ _ _ => true
  | .vrsqrt _ _ _ _ _ => true
  | .vrcp _ _ _ _ _ => true
  | .vmin _ _ a b _ _ => linksApart a b
  | .vmax _ _ a b _ _ => linksApart a b
  | .vabs _ _ _ _ _ => true
  | .vneg _ _ _ _ _ => true
  | .vmaxa _ _ a b _ _ => linksApart a b
  | .vcmp _ d a b _ => linksApart a b && vreg d
  | .vsgn _ _ _ _ _ _ => true
  | .vthr _ _ _ _ a b _ => linksApart a b
  | .vsel _ d a b _ => vreg d && vreg a && vreg b
  | .vmov _ d _ _ => vreg d
  | .vcvt _ d a code _ => vreg d && vreg a && cvtOk code d a
  | .vred _ d a _ _ => vreg d && vreg a
  | .vdot _ d a b _ _ => vreg d && vreg a && vreg b
  | .viadd _ d a b _ => vreg d && vreg a && vreg b
  | .visub _ d a b _ => vreg d && vreg a && vreg b
  | .vimul _ d a b _ => vreg d && vreg a && vreg b
  | .vand _ d a b _ => vreg d && vreg a && vreg b
  | .vor _ d a b _ => vreg d && vreg a && vreg b
  | .vxor _ d a b _ => vreg d && vreg a && vreg b
  | .vshli _ d a _ _ => vreg d && vreg a
  | .vshri _ d a _ _ => vreg d && vreg a
  | .vsari _ d a _ _ => vreg d && vreg a
  | .vshuf _ d a b _ => vreg d && vreg a && vreg b
  | .vbcst _ d a _ _ => vreg d && vreg a
  | .viota _ d a _ => vreg d && vreg a
  | .vclamp _ d a b _ => vreg d && vreg a && vreg b
  | .vrndb _ d a _ => vreg d && vreg a
  | .vimin _ d a b _ _ => vreg d && vreg a && vreg b
  | .vimax _ d a b _ _ => vreg d && vreg a && vreg b
  | .vcmpi _ d a _ cond => vreg d && vreg a && condOk cond 6
  | .ringdef _ _ _ _ => true
  | .ringrst _ _ => true
  | .mxw _ _ _ => true
  | .mxf _ _ _ t => tagged t
  | .mxr _ _ _ t => tagged t
  | .mxp _ _ va _ t => tagged t && vreg va
  | .mxz _ _ _ t => tagged t
  | .mxo _ _ _ t => tagged t
  | .mxq _ _ _ t => tagged t
  | .xpt _ _ _ t => tagged t
  | .xpc _ _ _ code t => tagged t && condOk code 6
  | .upadm _ w g m v t => tagged t && w != g && w != m && w != v && g != m && g != v && m != v
  | .upsgd _ w g m t => tagged t && w != g && w != m && g != m
  | .upaxp _ y x t => tagged t && y != x
  | .rnmask _ _ _ _ t => tagged t
  | .rnuni _ _ _ _ t => tagged t
  | .chsendv _ _ v k _ => vlist v k.toNat
  | .chsendt _ _ _ _ => true
  | .chsendm _ _ _ _ k _ => condOk k 3
  | .chrecv _ _ _ _ => true
  | .chred _ _ v cnt32 _ _ => vlist v (b2n cnt32)
  | .charr _ _ _ _ t => tagged t
  | .chwin _ _ _ k => condOk k 3
  | .chseq _ _ _ => true
  | .cbopen _ _ handler => handlerOk handler
  | .cbclose _ => true
  | .portw _ l t => tagged t && pairOk l
  | .bnop _ => true
  | .br _ o _ => offsetOk o
  | .call _ o _ => offsetOk o
  | .ret _ => true
  | .jr _ _ => true
  | .loopset _ _ _ _ => true
  | .loopsetPop _ => true
  | .loop _ o _ => offsetOk o
  | .loopc _ o _ => offsetOk o
  | .setfmt _ _ => true
  | .setc _ _ _ => true
  | .getc _ _ _ => true
  | .pand _ _ _ _ => true
  | .por _ _ _ _ => true
  | .pxor _ _ _ _ => true
  | .pandn _ _ _ _ => true
  | .pmov _ _ _ => true
  | .endTask _ => true
  | .trap _ _ => true
  | .rft _ => true
  | .bkpt _ _ => true
  | .wait _ _ _ => true
  | .fence _ s => s != 0#5
  | .acq _ _ _ _ t => tagged t
  | .rel _ _ _ t => tagged t
  | .waitfe _ _ _ => true
  | .cewait _ _ _ => true
  | .waitall _ _ => true
  | .invalidBundle _ _ => true
  | .storePerform _ => true
  | .copyRow _ _ => true
  | .copyComplete _ _ => true
  | .feWaitTimeout _ => true
  | .sendWaitTimeout _ => true
  | .barwaitTimeout _ => true
  | .producerLand _ => true
  | .vDecide _ => true
  | .engineFire _ _ => true
  | .engineComplete _ _ => true
  | .routeFlit _ => true
  | .linkResend _ _ => true
  | .linkDown _ _ => true
  | .receive _ _ => true
  | .creditArrive _ _ => true
  | .sendFaultNotice _ _ => true
  | .remoteArrival _ _ => true
  | .arrivalResult _ _ => true
  | .reductionInput _ _ _ => true
  | .heldResultDeliver _ _ => true
  | .roundAbandon _ _ => true
  | .abandonNotice _ _ => true
  | .bulkRequest _ => true
  | .faultRecordRelease _ => true
  | .retryReplay _ _ => true
  | .retryAbort _ _ => true
  | .portwAtPort _ => true
  | .bulkPerform _ => true
  | .replicaCommit _ => true
  | .lockedReadResume _ => true
  | .lockedReadTimeout _ => true
  | .homeLockRelease _ => true
  | .hostTimeout _ => true
  | .requestAcceptTimeout _ => true
  | .externalLinkDrop _ => true
  | .bulkResponse _ => true
  | .acqAtHome _ => true
  | .guardWaitTimeout _ => true
  | .relDepart _ => true
  | .relAtHome _ => true
  | .guardResponse _ => true
  | .hearthGuardRelease _ => true
  | .pairCompare _ => true
  | .pairTimeout _ => true
  | .trapTake _ => true
  | .trapRecordRelease _ => true
  | .containmentAbort _ => true
  | .preemptStop _ => true
  | .stopAck _ _ => true
  | .savePhase _ => true
  | .preemptComplete _ => true
  | .restore _ => true
  | .launchNode _ => true
  | .startMulticast _ => true
  | .tileStart _ => true
  | .nodeComplete _ => true
  | .nodeFail _ => true
  | .shiftMigration _ => true
  | .migrationRemap _ => true
  | .migrationTimeout _ => true
  | .hearthFrame _ => true
  | .hearthStop _ => true
  | .qbroken _ => true
  | .nopPacket _ => true
  | .launch _ => true
  | .ibcall _ => true
  | .signal _ => true
  | .waitv _ => true
  | .copy _ => true
  | .refine _ => true
  | .refineStep _ => true
  | .preemptPacket _ => true
  | .resume _ => true
  | .lichen _ => true
  | .mapsync _ => true
  | .rasWindow _ => true
  | .shadowReplay _ _ => true
  | .lichenPassStart _ => true
  | .lichenPassEnd _ => true
  | .exposureReportWrite _ => true
  | .injctlWrite _ _ _ => true
  | .bringUp => true
  | .fluePortBringUp _ => true
  | .regionBringUp _ => true
  | .mapBuild _ => true
  | .hostLinkUp _ => true
  | .opticalPortReady _ => true
  | .opticalLinkTrain _ => true
  | .opticalAttestExchange _ _ => true
  | .hostPortReset _ => true
  | .devrst _ _ => true
  | .rreset _ _ => true
  | .waferidWrite _ _ => true
  | .registerWrite _ _ _ => true
  | .bar2Access _ _ _ => true
  | .kattest _ => true
  | .kgen _ => true
  | .kunwrap _ => true
  | .kunload _ => true
  | .keySlotClear _ => true
  | .kcfg _ => true
  | .kcommit _ => true
  | .kfwload _ => true
  | .mgmtKattest => true
  | .i3cPrivateWrite _ => true
  | .i3cPrivateRead _ => true
  | .entdaa _ => true
  | .setdasa _ => true
  | .rstdaa => true
  | .enec _ => true
  | .disec _ => true
  | .getpid => true
  | .getbcr => true
  | .getdcr => true
  | .getstatus => true
  | .getmwl => true
  | .getmrl => true
  | .damperStep => true
  | .voltageWarning => true
  | .powerRemoval => true
  | .thermalLimit _ => true
  | .coolantFlowShutdown => true
  | .fluePortFailure _ => true
  | .unsupportedCcc _ => true

end Sys2Proof
end

