-- ==== Sys2Proof/Decode.lean ====
section
/-! DEFINITION. Decoding a slot word, and encoding an instruction as its words, both from Tables 09-1 to 09-9. A slot
is refused with its cause (R199): ILLCLS, ILLOP or ILLFLD. Which owner accepts a Y slot is said beside; a Y slot that
no owner accepts is ILLY (R196). -/

namespace Sys2Proof

/-- The field of a slot word at bit `lo`, `n` bits wide. -/
def fld (w : Word) (lo n : Nat) : BitVec n := w.extractLsb' lo n

/-- A one-bit field. -/
def flg (w : Word) (lo : Nat) : Bool := fld w lo 1 == 1#1

/-- Whether a field that the instruction does not use is zero (R197). -/
def zeroAt (w : Word) (lo n : Nat) : Bool := fld w lo n == 0

/-- A field put at its place in a slot word. -/
def at19 (lo : Nat) {n : Nat} (x : BitVec n) : Word := x.setWidth 32 <<< lo

/-- The low four bits of a word: the owner's part of an extended immediate (R195). -/
def lo4 (v : Word) : BitVec 4 := v.extractLsb' 0 4

/-- The fourth bit of a 5-bit register code whose low bits lie in another field (Table 13-1). -/
def fld5hi (c : BitVec 5) : BitVec 1 := c.extractLsb' 4 1

/-- The low four bits of such a code. -/
def fld5lo (c : BitVec 5) : BitVec 4 := c.extractLsb' 0 4

/-- The owner's field of an immediate-bearing instruction: the field itself, or the low bits of the extended value with
zeros above them (R195). -/
def Imm.low {n m : Nat} : Imm n m → BitVec n
  | .short i => i
  | .long v => (v.setWidth (min n 4)).setWidth n

/-- The immediate of the Y slot that an extended 32-bit value needs (R195). -/
def Imm.yW {n : Nat} : Imm n 32 → Option (BitVec 28)
  | .short _ => none
  | .long v => some (v.extractLsb' 4 28)

/-- The immediate of the Y slot that an extended LA offset needs (R195). -/
def Imm.yA : Imm 2 30 → Option (BitVec 28)
  | .short _ => none
  | .long v => some (v.extractLsb' 2 28)

/-- The immediate of an owner: its field, or with a Y slot IMM32, whose owner field has zeros above bit 3 (R195). -/
def immW {n : Nat} (f : BitVec n) (y : Option (BitVec 28)) : Option (Imm n 32) :=
  match y with
  | none => some (.short f)
  | some v => if f.toNat < 16 then some (.long (v ++ f.setWidth 4)) else none

/-- The offset of an LA owner: its field, or with a Y slot the signed 30-bit value (R195). -/
def immA (f : BitVec 2) (y : Option (BitVec 28)) : Option (Imm 2 30) :=
  match y with
  | none => some (.short f)
  | some v => some (.long (v ++ f))

/-- The handler address of CBOPEN, whose Y slot is mandatory (R312). -/
def immReq (f : BitVec 4) (y : Option (BitVec 28)) : Option Word := y.map fun v => v ++ f

/-- A tile register, or with the ring flag a ring, whose bit 3 must be zero (R279). -/
def tileRef (c : BitVec 4) (ring : Bool) : Option TileRef :=
  if ring then (if c.toNat < 8 then some (.ring (c.setWidth 3)) else none) else some (.tile c)

/-- The 4-bit field of a tile register or ring. -/
def TileRef.code : TileRef → BitVec 4
  | .tile t => t
  | .ring n => n.setWidth 4

/-- The ring flag. -/
def TileRef.isRing : TileRef → Bool
  | .tile _ => false
  | .ring _ => true

/-- The source of MXZ: none unless W[0] is set, and then every other field of it zero (R279). -/
def tileRefOpt (c : BitVec 4) (load ring : Bool) : Option (Option TileRef) :=
  if load then (tileRef c ring).map some else if c = 0#4 && !ring then some none else none

/-- The field of an optional source. -/
def TileRef.optCode : Option TileRef → BitVec 4
  | none => 0#4
  | some r => r.code

/-- The ring flag of an optional source. -/
def TileRef.optRing : Option TileRef → Bool
  | none => false
  | some r => r.isRing

/-- The class of a slot word: bits [30:28] (R190). -/
def slotClass (w : Word) : Nat := (fld w 28 3).toNat

/-- Whether a slot word is the last of its bundle: bit [31] (R190). -/
def slotLast (w : Word) : Bool := flg w 31

/-- Whether a slot word is a Y slot (R190). -/
def isY (w : Word) : Bool := slotClass w == 7

/-- The immediate of a Y slot (R190). -/
def yImm (w : Word) : BitVec 28 := fld w 0 28

/-- The class and opcode of a slot word: bits [30:22]. -/
def slotKey (w : Word) : Nat := (fld w 22 9).toNat

/-- The header of a slot with the E bit of its last word. -/
def slotHdr (w : Word) (last : Bool) : Hdr := ⟨last, fld w 19 3⟩

/-- A slot whose fields pass, or ILLFLD. -/
def fieldOk (ok : Bool) (i : Option Instr) : Except Cause Instr :=
  match i with
  | some i => if ok && i.wf then .ok i else .error .illfld
  | none => .error .illfld

/-- Class X: the scalar opcodes (Table 09-4), by the word, its header and its Y slot. -/
def decodeX (w : Word) (h : Hdr) (y : Option (BitVec 28)) : Except Cause Instr :=
  match (fld w 22 6).toNat with
  | 0x00 => fieldOk (zeroAt w 0 19) (some (.nop h))
  | 0x01 => fieldOk (zeroAt w 0 4) (some (.add h (fld w 14 5) (fld w 9 5) (fld w 4 5)))
  | 0x02 => fieldOk (zeroAt w 0 4) (some (.sub h (fld w 14 5) (fld w 9 5) (fld w 4 5)))
  | 0x03 => fieldOk (zeroAt w 0 4) (some (.and h (fld w 14 5) (fld w 9 5) (fld w 4 5)))
  | 0x04 => fieldOk (zeroAt w 0 4) (some (.or h (fld w 14 5) (fld w 9 5) (fld w 4 5)))
  | 0x05 => fieldOk (zeroAt w 0 4) (some (.xor h (fld w 14 5) (fld w 9 5) (fld w 4 5)))
  | 0x06 => fieldOk (zeroAt w 0 4) (some (.andn h (fld w 14 5) (fld w 9 5) (fld w 4 5)))
  | 0x07 => fieldOk (zeroAt w 0 4) (some (.shl h (fld w 14 5) (fld w 9 5) (fld w 4 5)))
  | 0x08 => fieldOk (zeroAt w 0 4) (some (.shr h (fld w 14 5) (fld w 9 5) (fld w 4 5)))
  | 0x09 => fieldOk (zeroAt w 0 4) (some (.sar h (fld w 14 5) (fld w 9 5) (fld w 4 5)))
  | 0x0A => fieldOk (zeroAt w 0 4) (some (.rotl h (fld w 14 5) (fld w 9 5) (fld w 4 5)))
  | 0x0B => fieldOk (zeroAt w 1 3) (some (.mul h (fld w 14 5) (fld w 9 5) (fld w 4 5) (flg w 0)))
  | 0x0C => fieldOk (zeroAt w 1 3) (some (.mulh h (fld w 14 5) (fld w 9 5) (fld w 4 5) (flg w 0)))
  | 0x0D => fieldOk (zeroAt w 1 3) (some (.min h (fld w 14 5) (fld w 9 5) (fld w 4 5) (flg w 0)))
  | 0x0E => fieldOk (zeroAt w 1 3) (some (.max h (fld w 14 5) (fld w 9 5) (fld w 4 5) (flg w 0)))
  | 0x0F => fieldOk (zeroAt w 17 2) (some (.cmp h (fld w 14 3) (fld w 9 5) (fld w 4 5) (fld w 0 4)))
  | 0x10 => fieldOk (zeroAt w 3 1) (some (.sel h (fld w 14 5) (fld w 9 5) (fld w 4 5) (fld w 0 3)))
  | 0x11 => fieldOk (zeroAt w 0 9) (some (.clz h (fld w 14 5) (fld w 9 5)))
  | 0x12 => fieldOk (zeroAt w 0 9) (some (.ctz h (fld w 14 5) (fld w 9 5)))
  | 0x13 => fieldOk (zeroAt w 0 9) (some (.popc h (fld w 14 5) (fld w 9 5)))
  | 0x14 => fieldOk (zeroAt w 0 9) (some (.brev h (fld w 14 5) (fld w 9 5)))
  | 0x15 => fieldOk (zeroAt w 1 3) (some (.bfx h (fld w 14 5) (fld w 9 5) (fld w 4 5) (flg w 0)))
  | 0x16 => fieldOk (zeroAt w 0 4) (some (.bfi h (fld w 14 5) (fld w 9 5) (fld w 4 5)))
  | 0x17 => fieldOk true (some (.div h (fld w 14 5) (fld w 9 5) (fld w 4 5) (fld w 1 3) (flg w 0)))
  | 0x18 => fieldOk true (some (.rem h (fld w 14 5) (fld w 9 5) (fld w 4 5) (fld w 1 3) (flg w 0)))
  | 0x19 => fieldOk true ((immW (fld w 0 9) y).map fun i => .addi h (fld w 14 5) (fld w 9 5) i)
  | 0x1A => fieldOk true ((immW (fld w 0 9) y).map fun i => .andi h (fld w 14 5) (fld w 9 5) i)
  | 0x1B => fieldOk true ((immW (fld w 0 9) y).map fun i => .ori h (fld w 14 5) (fld w 9 5) i)
  | 0x1C => fieldOk true ((immW (fld w 0 9) y).map fun i => .xori h (fld w 14 5) (fld w 9 5) i)
  | 0x1D => fieldOk (zeroAt w 5 4) (some (.shli h (fld w 14 5) (fld w 9 5) (fld w 0 5)))
  | 0x1E => fieldOk (zeroAt w 5 4) (some (.shri h (fld w 14 5) (fld w 9 5) (fld w 0 5)))
  | 0x1F => fieldOk (zeroAt w 5 4) (some (.sari h (fld w 14 5) (fld w 9 5) (fld w 0 5)))
  | 0x20 => fieldOk (zeroAt w 17 2) ((immW (fld w 0 9) y).map fun i => .cmpeqi h (fld w 14 3) (fld w 9 5) i)
  | 0x21 => fieldOk (zeroAt w 17 2) ((immW (fld w 0 9) y).map fun i => .cmplti h (fld w 14 3) (fld w 9 5) i)
  | 0x22 => fieldOk (zeroAt w 17 2) ((immW (fld w 0 9) y).map fun i => .cmpltui h (fld w 14 3) (fld w 9 5) i)
  | 0x23 => fieldOk true ((immW (fld w 0 9) y).map fun i => .muli h (fld w 14 5) (fld w 9 5) i)
  | 0x24 => fieldOk true ((immW (fld w 0 14) y).map fun i => .movi h (fld w 14 5) i)
  | 0x25 => fieldOk true (some (.movhi h (fld w 14 5) (fld w 0 14)))
  | 0x26 => fieldOk (zeroAt w 0 9 && zeroAt w 18 1) (some (.xtoa h (fld w 14 4) (fld w 9 5)))
  | 0x27 => fieldOk (zeroAt w 0 9 && zeroAt w 13 1) (some (.atox h (fld w 14 5) (fld w 9 4)))
  | 0x28 => fieldOk (zeroAt w 4 5) (some (.xtov h (fld w 14 5) (fld w 9 5) (fld w 0 4)))
  | 0x29 => fieldOk (zeroAt w 4 5) (some (.vtox h (fld w 14 5) (fld w 9 5) (fld w 0 4)))
  | 0x2A => fieldOk (zeroAt w 0 9 && zeroAt w 17 2) (some (.xtop h (fld w 14 3) (fld w 9 5)))
  | 0x2B => fieldOk (zeroAt w 0 9 && zeroAt w 12 2) (some (.ptox h (fld w 14 5) (fld w 9 3)))
  | _ => .error .illop

/-- Class L: the scratchpad, barrier and bulk opcodes (Table 09-5), by the word, its header and its Y slot. -/
def decodeL (w : Word) (h : Hdr) (y : Option (BitVec 28)) : Except Cause Instr :=
  match (fld w 22 6).toNat with
  | 0x00 => fieldOk true ((immW (fld w 5 5) y).map fun o => .ldb h (fld w 14 5) (fld w 10 4) o (fld w 3 2) (fld w 0 3))
  | 0x01 => fieldOk true ((immW (fld w 5 5) y).map fun o => .ldbu h (fld w 14 5) (fld w 10 4) o (fld w 3 2) (fld w 0 3))
  | 0x02 => fieldOk true ((immW (fld w 5 5) y).map fun o => .ldh h (fld w 14 5) (fld w 10 4) o (fld w 3 2) (fld w 0 3))
  | 0x03 => fieldOk true ((immW (fld w 5 5) y).map fun o => .ldhu h (fld w 14 5) (fld w 10 4) o (fld w 3 2) (fld w 0 3))
  | 0x04 => fieldOk true ((immW (fld w 5 5) y).map fun o => .ldw h (fld w 14 5) (fld w 10 4) o (fld w 3 2) (fld w 0 3))
  | 0x05 => fieldOk (zeroAt w 0 3) ((immW (fld w 5 5) y).map fun o => .stb h (fld w 14 5) (fld w 10 4) o (fld w 3 2))
  | 0x06 => fieldOk (zeroAt w 0 3) ((immW (fld w 5 5) y).map fun o => .sth h (fld w 14 5) (fld w 10 4) o (fld w 3 2))
  | 0x07 => fieldOk (zeroAt w 0 3) ((immW (fld w 5 5) y).map fun o => .stw h (fld w 14 5) (fld w 10 4) o (fld w 3 2))
  | 0x08 => fieldOk true ((immW (fld w 5 5) y).map fun o => .ldv h (fld w 14 5) (fld w 10 4) o (fld w 3 2) (fld w 0 3))
  | 0x09 => fieldOk (zeroAt w 0 3) ((immW (fld w 5 5) y).map fun o => .stv h (fld w 14 5) (fld w 10 4) o (fld w 3 2))
  | 0x0A => fieldOk true ((immW (fld w 5 5) y).map fun o => .ldvb h (fld w 14 5) (fld w 10 4) o (fld w 3 2) (fld w 0 3))
  | 0x0B => fieldOk true (some (.ldvg h (fld w 14 5) (fld w 10 4) (fld w 5 5) (fld w 3 2) (fld w 0 3)))
  | 0x0C => fieldOk (zeroAt w 0 3) (some (.stvg h (fld w 14 5) (fld w 10 4) (fld w 5 5) (fld w 3 2)))
  | 0x0D => fieldOk true ((tileRef (fld w 15 4) (flg w 5)).bind fun r => (immW (fld w 7 4) y).bind fun o => some (.ldt h r (fld w 11 4) o (flg w 6) (fld w 3 2) (fld w 0 3)))
  | 0x0E => fieldOk (zeroAt w 0 3) ((tileRef (fld w 15 4) (flg w 5)).bind fun r => (immW (fld w 7 4) y).bind fun o => some (.stt h r (fld w 11 4) o (flg w 6) (fld w 3 2)))
  | 0x0F => fieldOk (zeroAt w 3 1) (some (.spill h (fld w 14 5) (fld w 10 4) (fld w 6 4) (fld w 4 2) (fld w 0 3)))
  | 0x10 => fieldOk (zeroAt w 3 1) (some (.fill h (fld w 14 5) (fld w 10 4) (fld w 6 4) (fld w 4 2) (fld w 0 3)))
  | 0x11 => fieldOk true ((immA (fld w 3 2) y).map fun o => .aadd h (fld w 14 5) (fld w 10 4) (fld w 5 5) o (fld w 0 3))
  | 0x12 => fieldOk true ((immA (fld w 3 2) y).map fun o => .aand h (fld w 14 5) (fld w 10 4) (fld w 5 5) o (fld w 0 3))
  | 0x13 => fieldOk true ((immA (fld w 3 2) y).map fun o => .aor h (fld w 14 5) (fld w 10 4) (fld w 5 5) o (fld w 0 3))
  | 0x14 => fieldOk true ((immA (fld w 3 2) y).map fun o => .axor h (fld w 14 5) (fld w 10 4) (fld w 5 5) o (fld w 0 3))
  | 0x15 => fieldOk true ((immA (fld w 3 2) y).map fun o => .amin h (fld w 14 5) (fld w 10 4) (fld w 5 5) o (fld w 0 3))
  | 0x16 => fieldOk true ((immA (fld w 3 2) y).map fun o => .amax h (fld w 14 5) (fld w 10 4) (fld w 5 5) o (fld w 0 3))
  | 0x17 => fieldOk true ((immA (fld w 3 2) y).map fun o => .aminu h (fld w 14 5) (fld w 10 4) (fld w 5 5) o (fld w 0 3))
  | 0x18 => fieldOk true ((immA (fld w 3 2) y).map fun o => .amaxu h (fld w 14 5) (fld w 10 4) (fld w 5 5) o (fld w 0 3))
  | 0x19 => fieldOk true ((immA (fld w 3 2) y).map fun o => .afadd h (fld w 14 5) (fld w 10 4) (fld w 5 5) o (fld w 0 3))
  | 0x1A => fieldOk true ((immA (fld w 3 2) y).map fun o => .aswap h (fld w 14 5) (fld w 10 4) (fld w 5 5) o (fld w 0 3))
  | 0x1B => fieldOk true ((immA (fld w 3 2) y).map fun o => .acas h (fld w 14 5) (fld w 10 4) (fld w 5 5) o (fld w 0 3))
  | 0x1C => fieldOk (zeroAt w 0 5) ((immW (fld w 5 5) y).map fun o => .barinit h (fld w 14 5) (fld w 10 4) o)
  | 0x1D => fieldOk (zeroAt w 3 2) ((immW (fld w 5 5) y).map fun o => .bararr h (fld w 14 5) (fld w 10 4) o (fld w 0 3))
  | 0x1E =>
    if flg w 3 then fieldOk (fld w 0 5 == 8#5) ((immW (fld w 5 5) y).map fun o => .bartxDec h (fld w 14 5) (fld w 10 4) o)
    else fieldOk (zeroAt w 0 5) ((immW (fld w 5 5) y).map fun o => .bartxAdd h (fld w 14 5) (fld w 10 4) o)
  | 0x1F => fieldOk (zeroAt w 0 5) ((immW (fld w 5 5) y).map fun o => .barwait h (fld w 14 5) (fld w 10 4) o)
  | 0x20 => fieldOk true ((immW (fld w 5 5) y).map fun o => .barrd h (fld w 14 5) (fld w 10 4) o (fld w 3 2) (fld w 0 3))
  | 0x21 => fieldOk (zeroAt w 0 5) ((immW (fld w 5 5) y).map fun o => .feset h (fld w 14 5) (fld w 10 4) o)
  | 0x22 => fieldOk (zeroAt w 0 5) ((immW (fld w 5 5) y).map fun o => .feclr h (fld w 14 5) (fld w 10 4) o)
  | 0x23 => fieldOk (zeroAt w 3 2) ((immW (fld w 5 5) y).map fun o => .ferd h (fld w 14 5) (fld w 10 4) o (fld w 0 3))
  | 0x24 => fieldOk (zeroAt w 3 4) (some (.bldw h (fld w 14 5) (fld w 10 4) (fld w 7 3) (fld w 0 3)))
  | 0x25 => fieldOk (zeroAt w 3 4) (some (.bldd h (fld w 14 5) (fld w 10 4) (fld w 7 3) (fld w 0 3)))
  | 0x26 => fieldOk (zeroAt w 3 4) (some (.bstw h (fld w 14 5) (fld w 10 4) (fld w 7 3) (fld w 0 3)))
  | 0x27 => fieldOk (zeroAt w 3 4) (some (.bstd h (fld w 14 5) (fld w 10 4) (fld w 7 3) (fld w 0 3)))
  | 0x28 => fieldOk true ((immW (fld w 0 11) y).map fun i => .lea h (fld w 15 4) (fld w 11 4) i)
  | 0x29 => fieldOk (zeroAt w 0 4) (some (.adda h (fld w 15 4) (fld w 11 4) (fld w 6 5) (fld w 4 2)))
  | _ => .error .illop

/-- Class V: the online vector opcodes (Table 09-6), by the word, its header and its Y slot. -/
def decodeV (w : Word) (h : Hdr) (y : Option (BitVec 28)) : Except Cause Instr :=
  match (fld w 22 6).toNat with
  | 0x00 => fieldOk true (some (.vadd h (fld w 14 5) (fld w 9 5) (fld w 4 5) (fld w 1 3) (flg w 0)))
  | 0x01 => fieldOk true (some (.vsub h (fld w 14 5) (fld w 9 5) (fld w 4 5) (fld w 1 3) (flg w 0)))
  | 0x02 => fieldOk true (some (.vmul h (fld w 14 5) (fld w 9 5) (fld w 4 5) (fld w 1 3) (flg w 0)))
  | 0x03 => fieldOk true (some (.vfma h (fld w 14 5) (fld w 9 5) (fld w 4 5) (fld w 1 3) (flg w 0)))
  | 0x04 => fieldOk true (some (.vfms h (fld w 14 5) (fld w 9 5) (fld w 4 5) (fld w 1 3) (flg w 0)))
  | 0x05 => fieldOk true (some (.vfnma h (fld w 14 5) (fld w 9 5) (fld w 4 5) (fld w 1 3) (flg w 0)))
  | 0x06 => fieldOk true (some (.vdiv h (fld w 14 5) (fld w 9 5) (fld w 4 5) (fld w 1 3) (flg w 0)))
  | 0x07 => fieldOk (zeroAt w 4 5) (some (.vsqrt h (fld w 14 5) (fld w 9 5) (fld w 1 3) (flg w 0)))
  | 0x08 => fieldOk (zeroAt w 4 5) (some (.vrsqrt h (fld w 14 5) (fld w 9 5) (fld w 1 3) (flg w 0)))
  | 0x09 => fieldOk (zeroAt w 4 5) (some (.vrcp h (fld w 14 5) (fld w 9 5) (fld w 1 3) (flg w 0)))
  | 0x0A => fieldOk true (some (.vmin h (fld w 14 5) (fld w 9 5) (fld w 4 5) (fld w 1 3) (flg w 0)))
  | 0x0B => fieldOk true (some (.vmax h (fld w 14 5) (fld w 9 5) (fld w 4 5) (fld w 1 3) (flg w 0)))
  | 0x0C => fieldOk (zeroAt w 4 5) (some (.vabs h (fld w 14 5) (fld w 9 5) (fld w 1 3) (flg w 0)))
  | 0x0D => fieldOk (zeroAt w 4 5) (some (.vneg h (fld w 14 5) (fld w 9 5) (fld w 1 3) (flg w 0)))
  | 0x0E => fieldOk true (some (.vmaxa h (fld w 14 5) (fld w 9 5) (fld w 4 5) (fld w 1 3) (flg w 0)))
  | 0x0F => fieldOk (zeroAt w 0 1) (some (.vcmp h (fld w 14 5) (fld w 9 5) (fld w 4 5) (fld w 1 3)))
  | 0x10 => fieldOk (zeroAt w 0 1 && zeroAt w 4 5) (some (.vsgn h (fld w 14 3) (flg w 17) (flg w 18) (fld w 9 5) (fld w 1 3)))
  | 0x11 => fieldOk (zeroAt w 0 1) (some (.vthr h (fld w 14 3) (flg w 17) (flg w 18) (fld w 9 5) (fld w 4 5) (fld w 1 3)))
  | 0x12 => fieldOk (zeroAt w 0 1) (some (.vsel h (fld w 14 5) (fld w 9 5) (fld w 4 5) (fld w 1 3)))
  | 0x13 => fieldOk (zeroAt w 0 1 && zeroAt w 4 5) (some (.vmov h (fld w 14 5) (fld w 9 5) (fld w 1 3)))
  | 0x14 => fieldOk true (some (.vcvt h (fld w 14 5) (fld w 9 5) (fld w 3 6) (fld w 0 3)))
  | 0x15 => fieldOk (zeroAt w 4 5) (some (.vred h (fld w 14 5) (fld w 9 5) (fld w 1 3) (flg w 0)))
  | 0x16 => fieldOk true (some (.vdot h (fld w 14 5) (fld w 9 5) (fld w 4 5) (fld w 1 3) (flg w 0)))
  | 0x17 => fieldOk (zeroAt w 0 1) (some (.viadd h (fld w 14 5) (fld w 9 5) (fld w 4 5) (fld w 1 3)))
  | 0x18 => fieldOk (zeroAt w 0 1) (some (.visub h (fld w 14 5) (fld w 9 5) (fld w 4 5) (fld w 1 3)))
  | 0x19 => fieldOk (zeroAt w 0 1) (some (.vimul h (fld w 14 5) (fld w 9 5) (fld w 4 5) (fld w 1 3)))
  | 0x1A => fieldOk (zeroAt w 0 1) (some (.vand h (fld w 14 5) (fld w 9 5) (fld w 4 5) (fld w 1 3)))
  | 0x1B => fieldOk (zeroAt w 0 1) (some (.vor h (fld w 14 5) (fld w 9 5) (fld w 4 5) (fld w 1 3)))
  | 0x1C => fieldOk (zeroAt w 0 1) (some (.vxor h (fld w 14 5) (fld w 9 5) (fld w 4 5) (fld w 1 3)))
  | 0x1D => fieldOk (zeroAt w 8 1) (some (.vshli h (fld w 14 5) (fld w 9 5) (fld w 3 5) (fld w 0 3)))
  | 0x1E => fieldOk (zeroAt w 8 1) (some (.vshri h (fld w 14 5) (fld w 9 5) (fld w 3 5) (fld w 0 3)))
  | 0x1F => fieldOk (zeroAt w 8 1) (some (.vsari h (fld w 14 5) (fld w 9 5) (fld w 3 5) (fld w 0 3)))
  | 0x20 => fieldOk (zeroAt w 0 1) (some (.vshuf h (fld w 14 5) (fld w 9 5) (fld w 4 5) (fld w 1 3)))
  | 0x21 => fieldOk (zeroAt w 0 1 && zeroAt w 8 1) (some (.vbcst h (fld w 14 5) (fld w 9 5) (fld w 4 4) (fld w 1 3)))
  | 0x22 => fieldOk (zeroAt w 0 1 && zeroAt w 4 5) (some (.viota h (fld w 14 5) (fld w 9 5) (fld w 1 3)))
  | 0x23 => fieldOk (zeroAt w 0 1) (some (.vclamp h (fld w 14 5) (fld w 9 5) (fld w 4 5) (fld w 1 3)))
  | 0x24 => fieldOk (zeroAt w 0 1 && zeroAt w 4 5) (some (.vrndb h (fld w 14 5) (fld w 9 5) (fld w 1 3)))
  | 0x25 => fieldOk true (some (.vimin h (fld w 14 5) (fld w 9 5) (fld w 4 5) (fld w 1 3) (flg w 0)))
  | 0x26 => fieldOk true (some (.vimax h (fld w 14 5) (fld w 9 5) (fld w 4 5) (fld w 1 3) (flg w 0)))
  | 0x27 => fieldOk true ((immW (fld w 3 6) y).map fun i => .vcmpi h (fld w 14 5) (fld w 9 5) i (fld w 0 3))
  | _ => .error .illop

/-- Class E: the engine, channel and containment opcodes (Table 09-7), by the word, its header and its Y slot. -/
def decodeE (w : Word) (h : Hdr) (y : Option (BitVec 28)) : Except Cause Instr :=
  match (fld w 22 6).toNat with
  | 0x00 => fieldOk (zeroAt w 0 7 && zeroAt w 18 1) (some (.ringdef h (fld w 15 3) (fld w 11 4) (fld w 7 4)))
  | 0x01 => fieldOk (zeroAt w 0 15 && zeroAt w 18 1) (some (.ringrst h (fld w 15 3)))
  | 0x02 => fieldOk (zeroAt w 4 7 && zeroAt w 15 4) ((tileRef (fld w 11 4) (flg w 3)).map fun src => .mxw h src (fld w 0 3))
  | 0x03 => fieldOk (zeroAt w 4 7 && zeroAt w 17 2) ((tileRef (fld w 11 4) (flg w 3)).map fun src => .mxf h (fld w 15 2) src (fld w 0 3))
  | 0x04 => fieldOk (zeroAt w 4 7 && zeroAt w 17 2) ((tileRef (fld w 11 4) (flg w 3)).map fun src => .mxr h (fld w 15 2) src (fld w 0 3))
  | 0x05 => fieldOk (zeroAt w 5 2 && zeroAt w 17 2) (some (.mxp h (fld w 15 2) (fld w 3 1 ++ fld w 11 4) (fld w 4 1 ++ fld w 7 4) (fld w 0 3)))
  | 0x06 => fieldOk (zeroAt w 5 6 && zeroAt w 17 2) ((tileRefOpt (fld w 11 4) (flg w 3) (flg w 4)).map fun src => .mxz h (fld w 15 2) src (fld w 0 3))
  | 0x07 => fieldOk (zeroAt w 3 2 && zeroAt w 6 5 && zeroAt w 13 2) ((tileRef (fld w 15 4) (flg w 5)).map fun dst => .mxo h dst (fld w 11 2) (fld w 0 3))
  | 0x08 => fieldOk (zeroAt w 3 2 && zeroAt w 6 5 && zeroAt w 13 2) ((tileRef (fld w 15 4) (flg w 5)).map fun dst => .mxq h dst (fld w 11 2) (fld w 0 3))
  | 0x09 => fieldOk (zeroAt w 4 1 && zeroAt w 6 5) ((tileRef (fld w 15 4) (flg w 5)).bind fun dst => (tileRef (fld w 11 4) (flg w 3)).bind fun src => some (.xpt h dst src (fld w 0 3)))
  | 0x0A => fieldOk (zeroAt w 4 1 && zeroAt w 6 1) ((tileRef (fld w 15 4) (flg w 5)).bind fun dst => (tileRef (fld w 11 4) (flg w 3)).bind fun src => some (.xpc h dst src (fld w 7 4) (fld w 0 3)))
  | 0x0B => fieldOk true (some (.upadm h (fld w 15 4) (fld w 11 4) (fld w 7 4) (fld w 3 4) (fld w 0 3)))
  | 0x0C => fieldOk (zeroAt w 3 4) (some (.upsgd h (fld w 15 4) (fld w 11 4) (fld w 7 4) (fld w 0 3)))
  | 0x0D => fieldOk (zeroAt w 3 8) (some (.upaxp h (fld w 15 4) (fld w 11 4) (fld w 0 3)))
  | 0x0E => fieldOk (zeroAt w 6 1) ((tileRef (fld w 15 4) (flg w 5)).map fun dst => .rnmask h dst (fld w 3 1 ++ fld w 11 4) (fld w 4 1 ++ fld w 7 4) (fld w 0 3))
  | 0x0F => fieldOk (zeroAt w 6 1) ((tileRef (fld w 15 4) (flg w 5)).map fun dst => .rnuni h dst (fld w 3 1 ++ fld w 11 4) (fld w 4 1 ++ fld w 7 4) (fld w 0 3))
  | 0x10 => fieldOk (zeroAt w 10 4) (some (.chsendv h (fld w 14 5) (fld w 5 5) (fld w 3 2) (fld w 0 3)))
  | 0x11 => fieldOk (zeroAt w 4 1 && zeroAt w 9 5) ((tileRef (fld w 5 4) (flg w 3)).map fun src => .chsendt h (fld w 14 5) src (fld w 0 3))
  | 0x12 => fieldOk true (some (.chsendm h (fld w 14 5) (fld w 10 4) (fld w 5 5) (fld w 3 2) (fld w 0 3)))
  | 0x13 => fieldOk (zeroAt w 0 3 && zeroAt w 4 6) (some (.chrecv h (fld w 14 5) (fld w 10 4) (flg w 3)))
  | 0x14 => fieldOk (zeroAt w 10 4 && zeroAt w 17 2) (some (.chred h (fld w 14 3) (fld w 5 5) (flg w 3) (flg w 4) (fld w 0 3)))
  | 0x15 => fieldOk (zeroAt w 3 2) (some (.charr h (fld w 14 5) (fld w 10 4) (fld w 5 5) (fld w 0 3)))
  | 0x16 => fieldOk (zeroAt w 0 3 && zeroAt w 10 4) (some (.chwin h (fld w 14 5) (fld w 5 5) (fld w 3 2)))
  | 0x17 => fieldOk (zeroAt w 0 5 && zeroAt w 10 4) (some (.chseq h (fld w 14 5) (fld w 5 5)))
  | 0x18 => fieldOk (zeroAt w 0 3 && zeroAt w 7 4 && zeroAt w 12 3) ((immReq (fld w 3 4) y).map fun handler => .cbopen h (fld w 11 1 ++ fld w 15 4) handler)
  | 0x19 => fieldOk (zeroAt w 0 19) (some (.cbclose h))
  | 0x1A => fieldOk (zeroAt w 3 2 && zeroAt w 10 9) (some (.portw h (fld w 5 5) (fld w 0 3)))
  | _ => .error .illop

/-- Class B: the branch and control opcodes (Table 09-8), by the word, its header and its Y slot. -/
def decodeB (w : Word) (h : Hdr) (y : Option (BitVec 28)) : Except Cause Instr :=
  match (fld w 22 6).toNat with
  | 0x00 => fieldOk (zeroAt w 0 19) (some (.bnop h))
  | 0x01 => fieldOk (zeroAt w 1 2) ((immW (fld w 3 16) y).map fun o => .br h o (flg w 0))
  | 0x02 => fieldOk (zeroAt w 1 2) ((immW (fld w 3 16) y).map fun o => .call h o (flg w 0))
  | 0x03 => fieldOk (zeroAt w 0 19) (some (.ret h))
  | 0x04 => fieldOk (zeroAt w 0 14 && zeroAt w 18 1) (some (.jr h (fld w 14 4)))
  | 0x05 =>
    if flg w 0 then fieldOk (fld w 0 19 == 1#19) (some (.loopsetPop h))
    else fieldOk (zeroAt w 0 1 && zeroAt w 2 3) (some (.loopset h (fld w 14 5) (fld w 5 9) (flg w 1)))
  | 0x06 => fieldOk (zeroAt w 1 2) ((immW (fld w 3 16) y).map fun o => .loop h o (flg w 0))
  | 0x07 => fieldOk (zeroAt w 1 2) ((immW (fld w 3 16) y).map fun o => .loopc h o (flg w 0))
  | 0x08 => fieldOk (zeroAt w 0 14) (some (.setfmt h (fld w 14 5)))
  | 0x09 => fieldOk (zeroAt w 0 5) (some (.setc h (fld w 14 5) (fld w 5 9)))
  | 0x0A => fieldOk (zeroAt w 0 5) (some (.getc h (fld w 14 5) (fld w 5 9)))
  | 0x0B => fieldOk (zeroAt w 0 10) (some (.pand h (fld w 16 3) (fld w 13 3) (fld w 10 3)))
  | 0x0C => fieldOk (zeroAt w 0 10) (some (.por h (fld w 16 3) (fld w 13 3) (fld w 10 3)))
  | 0x0D => fieldOk (zeroAt w 0 10) (some (.pxor h (fld w 16 3) (fld w 13 3) (fld w 10 3)))
  | 0x0E => fieldOk (zeroAt w 0 10) (some (.pandn h (fld w 16 3) (fld w 13 3) (fld w 10 3)))
  | 0x0F => fieldOk (zeroAt w 0 13) (some (.pmov h (fld w 16 3) (fld w 13 3)))
  | 0x10 => fieldOk (zeroAt w 0 19) (some (.endTask h))
  | 0x11 => fieldOk (zeroAt w 0 5 && zeroAt w 14 5) (some (.trap h (fld w 5 9)))
  | 0x12 => fieldOk (zeroAt w 0 19) (some (.rft h))
  | 0x13 => fieldOk (zeroAt w 0 5 && zeroAt w 14 5) (some (.bkpt h (fld w 5 9)))
  | _ => .error .illop

/-- Class K: the synchronisation opcodes (Table 09-9), by the word, its header and its Y slot. -/
def decodeK (w : Word) (h : Hdr) (_ : Option (BitVec 28)) : Except Cause Instr :=
  match (fld w 22 6).toNat with
  | 0x00 => fieldOk (zeroAt w 0 9) (some (.wait h (fld w 12 7) (fld w 9 3)))
  | 0x01 => fieldOk (zeroAt w 0 13 && zeroAt w 18 1) (some (.fence h (fld w 13 5)))
  | 0x02 => fieldOk (zeroAt w 3 7 && zeroAt w 11 1) (some (.acq h (fld w 15 4) (fld w 12 3) (flg w 10) (fld w 0 3)))
  | 0x03 => fieldOk (zeroAt w 3 9) (some (.rel h (fld w 15 4) (fld w 12 3) (fld w 0 3)))
  | 0x04 => fieldOk (zeroAt w 0 10) (some (.waitfe h (fld w 14 5) (fld w 10 4)))
  | 0x05 => fieldOk (zeroAt w 0 7 && zeroAt w 10 4) (some (.cewait h (fld w 14 5) (fld w 7 3)))
  | 0x06 => fieldOk (zeroAt w 0 9 && zeroAt w 12 7) (some (.waitall h (fld w 9 3)))
  | _ => .error .illop

/-- Which opcodes accept a Y slot: the Y columns of Tables 09-4 to 09-9. -/
def acceptsY (w : Word) : Bool :=
  match slotClass w with
  | 0 => [0x19, 0x1A, 0x1B, 0x1C, 0x20, 0x21, 0x22, 0x23, 0x24].elem (fld w 22 6).toNat
  | 1 => [0x00, 0x01, 0x02, 0x03, 0x04, 0x05, 0x06, 0x07, 0x08, 0x09, 0x0A, 0x0D, 0x0E, 0x11, 0x12, 0x13, 0x14, 0x15, 0x16, 0x17, 0x18, 0x19, 0x1A, 0x1B, 0x1C, 0x1D, 0x1E, 0x1F, 0x20, 0x21, 0x22, 0x23, 0x28].elem (fld w 22 6).toNat
  | 2 => [0x27].elem (fld w 22 6).toNat
  | 3 => [0x18].elem (fld w 22 6).toNat
  | 4 => [0x01, 0x02, 0x06, 0x07].elem (fld w 22 6).toNat
  | _ => false

/-- One slot that is no Y slot, with the immediate of the Y slot after it: checks 3, 4 and 6 of Table 09-10. A Y slot
is given only where the opcode accepts one. -/
def decodeSlot (w : Word) (last : Bool) (y : Option (BitVec 28)) : Except Cause Instr :=
  match slotClass w with
  | 0 => decodeX w (slotHdr w last) y
  | 1 => decodeL w (slotHdr w last) y
  | 2 => decodeV w (slotHdr w last) y
  | 3 => decodeE w (slotHdr w last) y
  | 4 => decodeB w (slotHdr w last) y
  | 5 => decodeK w (slotHdr w last) y
  | 6 => .error .illcls
  | _ => .error .illy

/-- The slot at the head of a word list, with its Y slot if it accepts the word after it as one; the words it takes
and the words left. -/
def decodeHead : List Word → Except Cause (Instr × List Word)
  | [] => .error .fetch
  | w :: rest =>
    match rest with
    | y :: rest' =>
      if !slotLast w && isY y && acceptsY w then
        (decodeSlot w (slotLast y) (some (yImm y))).map fun i => (i, rest')
      else (decodeSlot w (slotLast w) none).map fun i => (i, rest)
    | [] => (decodeSlot w (slotLast w) none).map fun i => (i, [])

/-- A slot word from its E bit, class and opcode, guard and operand fields (R190). -/
def slotWord (last : Bool) (key : BitVec 9) (g : BitVec 3) (body : Word) : Word :=
  at19 31 (BitVec.ofBool last) ||| at19 22 key ||| at19 19 g ||| body

/-- A Y slot word (R190). -/
def yWord (last : Bool) (v : BitVec 28) : Word := at19 31 (BitVec.ofBool last) ||| at19 28 7#3 ||| at19 0 v

/-- The words of a slot: its own, and its Y slot's, which then carries E. -/
def slotWords (h : Hdr) (key : BitVec 9) (y : Option (BitVec 28)) (body : Word) : List Word :=
  match y with
  | none => [slotWord h.last key h.guard body]
  | some v => [slotWord false key h.guard body, yWord h.last v]

/-- The words of an instruction: none for a device step, which has no encoding. -/
def encode : Instr → List Word
  | .nop h => slotWords h 0x000#9 none (0#32)
  | .add h d a b => slotWords h 0x001#9 none (at19 14 d ||| at19 9 a ||| at19 4 b)
  | .sub h d a b => slotWords h 0x002#9 none (at19 14 d ||| at19 9 a ||| at19 4 b)
  | .and h d a b => slotWords h 0x003#9 none (at19 14 d ||| at19 9 a ||| at19 4 b)
  | .or h d a b => slotWords h 0x004#9 none (at19 14 d ||| at19 9 a ||| at19 4 b)
  | .xor h d a b => slotWords h 0x005#9 none (at19 14 d ||| at19 9 a ||| at19 4 b)
  | .andn h d a b => slotWords h 0x006#9 none (at19 14 d ||| at19 9 a ||| at19 4 b)
  | .shl h d a b => slotWords h 0x007#9 none (at19 14 d ||| at19 9 a ||| at19 4 b)
  | .shr h d a b => slotWords h 0x008#9 none (at19 14 d ||| at19 9 a ||| at19 4 b)
  | .sar h d a b => slotWords h 0x009#9 none (at19 14 d ||| at19 9 a ||| at19 4 b)
  | .rotl h d a b => slotWords h 0x00A#9 none (at19 14 d ||| at19 9 a ||| at19 4 b)
  | .mul h d a b u => slotWords h 0x00B#9 none (at19 14 d ||| at19 9 a ||| at19 4 b ||| at19 0 (BitVec.ofBool u))
  | .mulh h d a b u => slotWords h 0x00C#9 none (at19 14 d ||| at19 9 a ||| at19 4 b ||| at19 0 (BitVec.ofBool u))
  | .min h d a b u => slotWords h 0x00D#9 none (at19 14 d ||| at19 9 a ||| at19 4 b ||| at19 0 (BitVec.ofBool u))
  | .max h d a b u => slotWords h 0x00E#9 none (at19 14 d ||| at19 9 a ||| at19 4 b ||| at19 0 (BitVec.ofBool u))
  | .cmp h p a b cond => slotWords h 0x00F#9 none (at19 14 p ||| at19 9 a ||| at19 4 b ||| at19 0 cond)
  | .sel h d a b p => slotWords h 0x010#9 none (at19 14 d ||| at19 9 a ||| at19 4 b ||| at19 0 p)
  | .clz h d a => slotWords h 0x011#9 none (at19 14 d ||| at19 9 a)
  | .ctz h d a => slotWords h 0x012#9 none (at19 14 d ||| at19 9 a)
  | .popc h d a => slotWords h 0x013#9 none (at19 14 d ||| at19 9 a)
  | .brev h d a => slotWords h 0x014#9 none (at19 14 d ||| at19 9 a)
  | .bfx h d a b sx => slotWords h 0x015#9 none (at19 14 d ||| at19 9 a ||| at19 4 b ||| at19 0 (BitVec.ofBool sx))
  | .bfi h d a b => slotWords h 0x016#9 none (at19 14 d ||| at19 9 a ||| at19 4 b)
  | .div h d a b t u =>
    slotWords h 0x017#9 none (at19 14 d ||| at19 9 a ||| at19 4 b ||| at19 1 t ||| at19 0 (BitVec.ofBool u))
  | .rem h d a b t u =>
    slotWords h 0x018#9 none (at19 14 d ||| at19 9 a ||| at19 4 b ||| at19 1 t ||| at19 0 (BitVec.ofBool u))
  | .addi h d a i => slotWords h 0x019#9 i.yW (at19 14 d ||| at19 9 a ||| at19 0 i.low)
  | .andi h d a i => slotWords h 0x01A#9 i.yW (at19 14 d ||| at19 9 a ||| at19 0 i.low)
  | .ori h d a i => slotWords h 0x01B#9 i.yW (at19 14 d ||| at19 9 a ||| at19 0 i.low)
  | .xori h d a i => slotWords h 0x01C#9 i.yW (at19 14 d ||| at19 9 a ||| at19 0 i.low)
  | .shli h d a k => slotWords h 0x01D#9 none (at19 14 d ||| at19 9 a ||| at19 0 k)
  | .shri h d a k => slotWords h 0x01E#9 none (at19 14 d ||| at19 9 a ||| at19 0 k)
  | .sari h d a k => slotWords h 0x01F#9 none (at19 14 d ||| at19 9 a ||| at19 0 k)
  | .cmpeqi h p a i => slotWords h 0x020#9 i.yW (at19 14 p ||| at19 9 a ||| at19 0 i.low)
  | .cmplti h p a i => slotWords h 0x021#9 i.yW (at19 14 p ||| at19 9 a ||| at19 0 i.low)
  | .cmpltui h p a i => slotWords h 0x022#9 i.yW (at19 14 p ||| at19 9 a ||| at19 0 i.low)
  | .muli h d a i => slotWords h 0x023#9 i.yW (at19 14 d ||| at19 9 a ||| at19 0 i.low)
  | .movi h d i => slotWords h 0x024#9 i.yW (at19 14 d ||| at19 0 i.low)
  | .movhi h d i => slotWords h 0x025#9 none (at19 14 d ||| at19 0 i)
  | .xtoa h d a => slotWords h 0x026#9 none (at19 14 d ||| at19 9 a)
  | .atox h d a => slotWords h 0x027#9 none (at19 14 d ||| at19 9 a)
  | .xtov h d a lane => slotWords h 0x028#9 none (at19 14 d ||| at19 9 a ||| at19 0 lane)
  | .vtox h d a lane => slotWords h 0x029#9 none (at19 14 d ||| at19 9 a ||| at19 0 lane)
  | .xtop h p a => slotWords h 0x02A#9 none (at19 14 p ||| at19 9 a)
  | .ptox h d p => slotWords h 0x02B#9 none (at19 14 d ||| at19 9 p)
  | .ldb h s bs o q t =>
    slotWords h 0x040#9 o.yW (at19 14 s ||| at19 10 bs ||| at19 5 o.low ||| at19 3 q ||| at19 0 t)
  | .ldbu h s bs o q t =>
    slotWords h 0x041#9 o.yW (at19 14 s ||| at19 10 bs ||| at19 5 o.low ||| at19 3 q ||| at19 0 t)
  | .ldh h s bs o q t =>
    slotWords h 0x042#9 o.yW (at19 14 s ||| at19 10 bs ||| at19 5 o.low ||| at19 3 q ||| at19 0 t)
  | .ldhu h s bs o q t =>
    slotWords h 0x043#9 o.yW (at19 14 s ||| at19 10 bs ||| at19 5 o.low ||| at19 3 q ||| at19 0 t)
  | .ldw h s bs o q t =>
    slotWords h 0x044#9 o.yW (at19 14 s ||| at19 10 bs ||| at19 5 o.low ||| at19 3 q ||| at19 0 t)
  | .stb h s bs o q => slotWords h 0x045#9 o.yW (at19 14 s ||| at19 10 bs ||| at19 5 o.low ||| at19 3 q)
  | .sth h s bs o q => slotWords h 0x046#9 o.yW (at19 14 s ||| at19 10 bs ||| at19 5 o.low ||| at19 3 q)
  | .stw h s bs o q => slotWords h 0x047#9 o.yW (at19 14 s ||| at19 10 bs ||| at19 5 o.low ||| at19 3 q)
  | .ldv h s bs o q t =>
    slotWords h 0x048#9 o.yW (at19 14 s ||| at19 10 bs ||| at19 5 o.low ||| at19 3 q ||| at19 0 t)
  | .stv h s bs o q => slotWords h 0x049#9 o.yW (at19 14 s ||| at19 10 bs ||| at19 5 o.low ||| at19 3 q)
  | .ldvb h s bs o q t =>
    slotWords h 0x04A#9 o.yW (at19 14 s ||| at19 10 bs ||| at19 5 o.low ||| at19 3 q ||| at19 0 t)
  | .ldvg h s bs o q t => slotWords h 0x04B#9 none (at19 14 s ||| at19 10 bs ||| at19 5 o ||| at19 3 q ||| at19 0 t)
  | .stvg h s bs o q => slotWords h 0x04C#9 none (at19 14 s ||| at19 10 bs ||| at19 5 o ||| at19 3 q)
  | .ldt h r bs o col q t =>
    slotWords h 0x04D#9 o.yW (at19 15 r.code ||| at19 5 (BitVec.ofBool r.isRing) ||| at19 11 bs ||| at19 7 o.low ||| at19 6 (BitVec.ofBool col) ||| at19 3 q ||| at19 0 t)
  | .stt h r bs o col q =>
    slotWords h 0x04E#9 o.yW (at19 15 r.code ||| at19 5 (BitVec.ofBool r.isRing) ||| at19 11 bs ||| at19 7 o.low ||| at19 6 (BitVec.ofBool col) ||| at19 3 q)
  | .spill h f bs n c t => slotWords h 0x04F#9 none (at19 14 f ||| at19 10 bs ||| at19 6 n ||| at19 4 c ||| at19 0 t)
  | .fill h f bs n c t => slotWords h 0x050#9 none (at19 14 f ||| at19 10 bs ||| at19 6 n ||| at19 4 c ||| at19 0 t)
  | .aadd h d bs a o t =>
    slotWords h 0x051#9 o.yA (at19 14 d ||| at19 10 bs ||| at19 5 a ||| at19 3 o.low ||| at19 0 t)
  | .aand h d bs a o t =>
    slotWords h 0x052#9 o.yA (at19 14 d ||| at19 10 bs ||| at19 5 a ||| at19 3 o.low ||| at19 0 t)
  | .aor h d bs a o t =>
    slotWords h 0x053#9 o.yA (at19 14 d ||| at19 10 bs ||| at19 5 a ||| at19 3 o.low ||| at19 0 t)
  | .axor h d bs a o t =>
    slotWords h 0x054#9 o.yA (at19 14 d ||| at19 10 bs ||| at19 5 a ||| at19 3 o.low ||| at19 0 t)
  | .amin h d bs a o t =>
    slotWords h 0x055#9 o.yA (at19 14 d ||| at19 10 bs ||| at19 5 a ||| at19 3 o.low ||| at19 0 t)
  | .amax h d bs a o t =>
    slotWords h 0x056#9 o.yA (at19 14 d ||| at19 10 bs ||| at19 5 a ||| at19 3 o.low ||| at19 0 t)
  | .aminu h d bs a o t =>
    slotWords h 0x057#9 o.yA (at19 14 d ||| at19 10 bs ||| at19 5 a ||| at19 3 o.low ||| at19 0 t)
  | .amaxu h d bs a o t =>
    slotWords h 0x058#9 o.yA (at19 14 d ||| at19 10 bs ||| at19 5 a ||| at19 3 o.low ||| at19 0 t)
  | .afadd h d bs a o t =>
    slotWords h 0x059#9 o.yA (at19 14 d ||| at19 10 bs ||| at19 5 a ||| at19 3 o.low ||| at19 0 t)
  | .aswap h d bs a o t =>
    slotWords h 0x05A#9 o.yA (at19 14 d ||| at19 10 bs ||| at19 5 a ||| at19 3 o.low ||| at19 0 t)
  | .acas h d bs a o t =>
    slotWords h 0x05B#9 o.yA (at19 14 d ||| at19 10 bs ||| at19 5 a ||| at19 3 o.low ||| at19 0 t)
  | .barinit h s bs o => slotWords h 0x05C#9 o.yW (at19 14 s ||| at19 10 bs ||| at19 5 o.low)
  | .bararr h s bs o t => slotWords h 0x05D#9 o.yW (at19 14 s ||| at19 10 bs ||| at19 5 o.low ||| at19 0 t)
  | .bartxAdd h s bs o => slotWords h 0x05E#9 o.yW (at19 14 s ||| at19 10 bs ||| at19 5 o.low)
  | .bartxDec h s bs o => slotWords h 0x05E#9 o.yW (at19 14 s ||| at19 10 bs ||| at19 5 o.low ||| 8#32)
  | .barwait h s bs o => slotWords h 0x05F#9 o.yW (at19 14 s ||| at19 10 bs ||| at19 5 o.low)
  | .barrd h s bs o k t =>
    slotWords h 0x060#9 o.yW (at19 14 s ||| at19 10 bs ||| at19 5 o.low ||| at19 3 k ||| at19 0 t)
  | .feset h s bs o => slotWords h 0x061#9 o.yW (at19 14 s ||| at19 10 bs ||| at19 5 o.low)
  | .feclr h s bs o => slotWords h 0x062#9 o.yW (at19 14 s ||| at19 10 bs ||| at19 5 o.low)
  | .ferd h s bs o t => slotWords h 0x063#9 o.yW (at19 14 s ||| at19 10 bs ||| at19 5 o.low ||| at19 0 t)
  | .bldw h s bs bb t => slotWords h 0x064#9 none (at19 14 s ||| at19 10 bs ||| at19 7 bb ||| at19 0 t)
  | .bldd h s bs bb t => slotWords h 0x065#9 none (at19 14 s ||| at19 10 bs ||| at19 7 bb ||| at19 0 t)
  | .bstw h s bs bb t => slotWords h 0x066#9 none (at19 14 s ||| at19 10 bs ||| at19 7 bb ||| at19 0 t)
  | .bstd h s bs bb t => slotWords h 0x067#9 none (at19 14 s ||| at19 10 bs ||| at19 7 bb ||| at19 0 t)
  | .lea h d a i => slotWords h 0x068#9 i.yW (at19 15 d ||| at19 11 a ||| at19 0 i.low)
  | .adda h d a s sh => slotWords h 0x069#9 none (at19 15 d ||| at19 11 a ||| at19 6 s ||| at19 4 sh)
  | .vadd h d a b t n =>
    slotWords h 0x080#9 none (at19 14 d ||| at19 9 a ||| at19 4 b ||| at19 1 t ||| at19 0 (BitVec.ofBool n))
  | .vsub h d a b t n =>
    slotWords h 0x081#9 none (at19 14 d ||| at19 9 a ||| at19 4 b ||| at19 1 t ||| at19 0 (BitVec.ofBool n))
  | .vmul h d a b t n =>
    slotWords h 0x082#9 none (at19 14 d ||| at19 9 a ||| at19 4 b ||| at19 1 t ||| at19 0 (BitVec.ofBool n))
  | .vfma h d a b t n =>
    slotWords h 0x083#9 none (at19 14 d ||| at19 9 a ||| at19 4 b ||| at19 1 t ||| at19 0 (BitVec.ofBool n))
  | .vfms h d a b t n =>
    slotWords h 0x084#9 none (at19 14 d ||| at19 9 a ||| at19 4 b ||| at19 1 t ||| at19 0 (BitVec.ofBool n))
  | .vfnma h d a b t n =>
    slotWords h 0x085#9 none (at19 14 d ||| at19 9 a ||| at19 4 b ||| at19 1 t ||| at19 0 (BitVec.ofBool n))
  | .vdiv h d a b t n =>
    slotWords h 0x086#9 none (at19 14 d ||| at19 9 a ||| at19 4 b ||| at19 1 t ||| at19 0 (BitVec.ofBool n))
  | .vsqrt h d a t n => slotWords h 0x087#9 none (at19 14 d ||| at19 9 a ||| at19 1 t ||| at19 0 (BitVec.ofBool n))
  | .vrsqrt h d a t n => slotWords h 0x088#9 none (at19 14 d ||| at19 9 a ||| at19 1 t ||| at19 0 (BitVec.ofBool n))
  | .vrcp h d a t n => slotWords h 0x089#9 none (at19 14 d ||| at19 9 a ||| at19 1 t ||| at19 0 (BitVec.ofBool n))
  | .vmin h d a b t n =>
    slotWords h 0x08A#9 none (at19 14 d ||| at19 9 a ||| at19 4 b ||| at19 1 t ||| at19 0 (BitVec.ofBool n))
  | .vmax h d a b t n =>
    slotWords h 0x08B#9 none (at19 14 d ||| at19 9 a ||| at19 4 b ||| at19 1 t ||| at19 0 (BitVec.ofBool n))
  | .vabs h d a t n => slotWords h 0x08C#9 none (at19 14 d ||| at19 9 a ||| at19 1 t ||| at19 0 (BitVec.ofBool n))
  | .vneg h d a t n => slotWords h 0x08D#9 none (at19 14 d ||| at19 9 a ||| at19 1 t ||| at19 0 (BitVec.ofBool n))
  | .vmaxa h d a b t n =>
    slotWords h 0x08E#9 none (at19 14 d ||| at19 9 a ||| at19 4 b ||| at19 1 t ||| at19 0 (BitVec.ofBool n))
  | .vcmp h d a b cond => slotWords h 0x08F#9 none (at19 14 d ||| at19 9 a ||| at19 4 b ||| at19 1 cond)
  | .vsgn h p all pos a t =>
    slotWords h 0x090#9 none (at19 14 p ||| at19 17 (BitVec.ofBool all) ||| at19 18 (BitVec.ofBool pos) ||| at19 9 a ||| at19 1 t)
  | .vthr h p all ge a b t =>
    slotWords h 0x091#9 none (at19 14 p ||| at19 17 (BitVec.ofBool all) ||| at19 18 (BitVec.ofBool ge) ||| at19 9 a ||| at19 4 b ||| at19 1 t)
  | .vsel h d a b t => slotWords h 0x092#9 none (at19 14 d ||| at19 9 a ||| at19 4 b ||| at19 1 t)
  | .vmov h d a t => slotWords h 0x093#9 none (at19 14 d ||| at19 9 a ||| at19 1 t)
  | .vcvt h d a code t => slotWords h 0x094#9 none (at19 14 d ||| at19 9 a ||| at19 3 code ||| at19 0 t)
  | .vred h d a t n => slotWords h 0x095#9 none (at19 14 d ||| at19 9 a ||| at19 1 t ||| at19 0 (BitVec.ofBool n))
  | .vdot h d a b t n =>
    slotWords h 0x096#9 none (at19 14 d ||| at19 9 a ||| at19 4 b ||| at19 1 t ||| at19 0 (BitVec.ofBool n))
  | .viadd h d a b t => slotWords h 0x097#9 none (at19 14 d ||| at19 9 a ||| at19 4 b ||| at19 1 t)
  | .visub h d a b t => slotWords h 0x098#9 none (at19 14 d ||| at19 9 a ||| at19 4 b ||| at19 1 t)
  | .vimul h d a b t => slotWords h 0x099#9 none (at19 14 d ||| at19 9 a ||| at19 4 b ||| at19 1 t)
  | .vand h d a b t => slotWords h 0x09A#9 none (at19 14 d ||| at19 9 a ||| at19 4 b ||| at19 1 t)
  | .vor h d a b t => slotWords h 0x09B#9 none (at19 14 d ||| at19 9 a ||| at19 4 b ||| at19 1 t)
  | .vxor h d a b t => slotWords h 0x09C#9 none (at19 14 d ||| at19 9 a ||| at19 4 b ||| at19 1 t)
  | .vshli h d a k t => slotWords h 0x09D#9 none (at19 14 d ||| at19 9 a ||| at19 3 k ||| at19 0 t)
  | .vshri h d a k t => slotWords h 0x09E#9 none (at19 14 d ||| at19 9 a ||| at19 3 k ||| at19 0 t)
  | .vsari h d a k t => slotWords h 0x09F#9 none (at19 14 d ||| at19 9 a ||| at19 3 k ||| at19 0 t)
  | .vshuf h d a b t => slotWords h 0x0A0#9 none (at19 14 d ||| at19 9 a ||| at19 4 b ||| at19 1 t)
  | .vbcst h d a lane t => slotWords h 0x0A1#9 none (at19 14 d ||| at19 9 a ||| at19 4 lane ||| at19 1 t)
  | .viota h d a t => slotWords h 0x0A2#9 none (at19 14 d ||| at19 9 a ||| at19 1 t)
  | .vclamp h d a b t => slotWords h 0x0A3#9 none (at19 14 d ||| at19 9 a ||| at19 4 b ||| at19 1 t)
  | .vrndb h d a t => slotWords h 0x0A4#9 none (at19 14 d ||| at19 9 a ||| at19 1 t)
  | .vimin h d a b t u =>
    slotWords h 0x0A5#9 none (at19 14 d ||| at19 9 a ||| at19 4 b ||| at19 1 t ||| at19 0 (BitVec.ofBool u))
  | .vimax h d a b t u =>
    slotWords h 0x0A6#9 none (at19 14 d ||| at19 9 a ||| at19 4 b ||| at19 1 t ||| at19 0 (BitVec.ofBool u))
  | .vcmpi h d a i cond => slotWords h 0x0A7#9 i.yW (at19 14 d ||| at19 9 a ||| at19 3 i.low ||| at19 0 cond)
  | .ringdef h r f n => slotWords h 0x0C0#9 none (at19 15 r ||| at19 11 f ||| at19 7 n)
  | .ringrst h r => slotWords h 0x0C1#9 none (at19 15 r)
  | .mxw h src t => slotWords h 0x0C2#9 none (at19 11 src.code ||| at19 3 (BitVec.ofBool src.isRing) ||| at19 0 t)
  | .mxf h z src t =>
    slotWords h 0x0C3#9 none (at19 15 z ||| at19 11 src.code ||| at19 3 (BitVec.ofBool src.isRing) ||| at19 0 t)
  | .mxr h z src t =>
    slotWords h 0x0C4#9 none (at19 15 z ||| at19 11 src.code ||| at19 3 (BitVec.ofBool src.isRing) ||| at19 0 t)
  | .mxp h z va sb t =>
    slotWords h 0x0C5#9 none (at19 15 z ||| at19 11 (fld5lo va) ||| at19 3 (fld5hi va) ||| at19 7 (fld5lo sb) ||| at19 4 (fld5hi sb) ||| at19 0 t)
  | .mxz h z src t =>
    slotWords h 0x0C6#9 none (at19 15 z ||| at19 11 (TileRef.optCode src) ||| at19 3 (BitVec.ofBool src.isSome) ||| at19 4 (BitVec.ofBool (TileRef.optRing src)) ||| at19 0 t)
  | .mxo h dst z t =>
    slotWords h 0x0C7#9 none (at19 15 dst.code ||| at19 5 (BitVec.ofBool dst.isRing) ||| at19 11 z ||| at19 0 t)
  | .mxq h dst z t =>
    slotWords h 0x0C8#9 none (at19 15 dst.code ||| at19 5 (BitVec.ofBool dst.isRing) ||| at19 11 z ||| at19 0 t)
  | .xpt h dst src t =>
    slotWords h 0x0C9#9 none (at19 15 dst.code ||| at19 5 (BitVec.ofBool dst.isRing) ||| at19 11 src.code ||| at19 3 (BitVec.ofBool src.isRing) ||| at19 0 t)
  | .xpc h dst src code t =>
    slotWords h 0x0CA#9 none (at19 15 dst.code ||| at19 5 (BitVec.ofBool dst.isRing) ||| at19 11 src.code ||| at19 3 (BitVec.ofBool src.isRing) ||| at19 7 code ||| at19 0 t)
  | .upadm h w g m v t => slotWords h 0x0CB#9 none (at19 15 w ||| at19 11 g ||| at19 7 m ||| at19 3 v ||| at19 0 t)
  | .upsgd h w g m t => slotWords h 0x0CC#9 none (at19 15 w ||| at19 11 g ||| at19 7 m ||| at19 0 t)
  | .upaxp h y x t => slotWords h 0x0CD#9 none (at19 15 y ||| at19 11 x ||| at19 0 t)
  | .rnmask h dst sr sc t =>
    slotWords h 0x0CE#9 none (at19 15 dst.code ||| at19 5 (BitVec.ofBool dst.isRing) ||| at19 11 (fld5lo sr) ||| at19 3 (fld5hi sr) ||| at19 7 (fld5lo sc) ||| at19 4 (fld5hi sc) ||| at19 0 t)
  | .rnuni h dst sr sc t =>
    slotWords h 0x0CF#9 none (at19 15 dst.code ||| at19 5 (BitVec.ofBool dst.isRing) ||| at19 11 (fld5lo sr) ||| at19 3 (fld5hi sr) ||| at19 7 (fld5lo sc) ||| at19 4 (fld5hi sc) ||| at19 0 t)
  | .chsendv h c v k t => slotWords h 0x0D0#9 none (at19 14 c ||| at19 5 v ||| at19 3 k ||| at19 0 t)
  | .chsendt h c src t =>
    slotWords h 0x0D1#9 none (at19 14 c ||| at19 5 src.code ||| at19 3 (BitVec.ofBool src.isRing) ||| at19 0 t)
  | .chsendm h c bs l k t =>
    slotWords h 0x0D2#9 none (at19 14 c ||| at19 10 bs ||| at19 5 l ||| at19 3 k ||| at19 0 t)
  | .chrecv h c bs sink => slotWords h 0x0D3#9 none (at19 14 c ||| at19 10 bs ||| at19 3 (BitVec.ofBool sink))
  | .chred h j v cnt32 int t =>
    slotWords h 0x0D4#9 none (at19 14 j ||| at19 5 v ||| at19 3 (BitVec.ofBool cnt32) ||| at19 4 (BitVec.ofBool int) ||| at19 0 t)
  | .charr h c bs l t => slotWords h 0x0D5#9 none (at19 14 c ||| at19 10 bs ||| at19 5 l ||| at19 0 t)
  | .chwin h c l k => slotWords h 0x0D6#9 none (at19 14 c ||| at19 5 l ||| at19 3 k)
  | .chseq h c l => slotWords h 0x0D7#9 none (at19 14 c ||| at19 5 l)
  | .cbopen h sc handler =>
    slotWords h 0x0D8#9 (some (handler.extractLsb' 4 28)) (at19 15 (fld5lo sc) ||| at19 11 (fld5hi sc) ||| at19 3 (lo4 handler))
  | .cbclose h => slotWords h 0x0D9#9 none (0#32)
  | .portw h l t => slotWords h 0x0DA#9 none (at19 5 l ||| at19 0 t)
  | .bnop h => slotWords h 0x100#9 none (0#32)
  | .br h o hint => slotWords h 0x101#9 o.yW (at19 3 o.low ||| at19 0 (BitVec.ofBool hint))
  | .call h o hint => slotWords h 0x102#9 o.yW (at19 3 o.low ||| at19 0 (BitVec.ofBool hint))
  | .ret h => slotWords h 0x103#9 none (0#32)
  | .jr h a => slotWords h 0x104#9 none (at19 14 a)
  | .loopset h d n mod => slotWords h 0x105#9 none (at19 14 d ||| at19 5 n ||| at19 1 (BitVec.ofBool mod))
  | .loopsetPop h => slotWords h 0x105#9 none (1#32)
  | .loop h o hint => slotWords h 0x106#9 o.yW (at19 3 o.low ||| at19 0 (BitVec.ofBool hint))
  | .loopc h o hint => slotWords h 0x107#9 o.yW (at19 3 o.low ||| at19 0 (BitVec.ofBool hint))
  | .setfmt h d => slotWords h 0x108#9 none (at19 14 d)
  | .setc h d n => slotWords h 0x109#9 none (at19 14 d ||| at19 5 n)
  | .getc h d n => slotWords h 0x10A#9 none (at19 14 d ||| at19 5 n)
  | .pand h d a b => slotWords h 0x10B#9 none (at19 16 d ||| at19 13 a ||| at19 10 b)
  | .por h d a b => slotWords h 0x10C#9 none (at19 16 d ||| at19 13 a ||| at19 10 b)
  | .pxor h d a b => slotWords h 0x10D#9 none (at19 16 d ||| at19 13 a ||| at19 10 b)
  | .pandn h d a b => slotWords h 0x10E#9 none (at19 16 d ||| at19 13 a ||| at19 10 b)
  | .pmov h d a => slotWords h 0x10F#9 none (at19 16 d ||| at19 13 a)
  | .endTask h => slotWords h 0x110#9 none (0#32)
  | .trap h n => slotWords h 0x111#9 none (at19 5 n)
  | .rft h => slotWords h 0x112#9 none (0#32)
  | .bkpt h n => slotWords h 0x113#9 none (at19 5 n)
  | .wait h m hold => slotWords h 0x140#9 none (at19 12 m ||| at19 9 hold)
  | .fence h s => slotWords h 0x141#9 none (at19 13 s)
  | .acq h bs bb shared t =>
    slotWords h 0x142#9 none (at19 15 bs ||| at19 12 bb ||| at19 10 (BitVec.ofBool shared) ||| at19 0 t)
  | .rel h bs bb t => slotWords h 0x143#9 none (at19 15 bs ||| at19 12 bb ||| at19 0 t)
  | .waitfe h s bs => slotWords h 0x144#9 none (at19 14 s ||| at19 10 bs)
  | .cewait h s ch => slotWords h 0x145#9 none (at19 14 s ||| at19 7 ch)
  | .waitall h hold => slotWords h 0x146#9 none (at19 9 hold)
  | .invalidBundle _ _ => []
  | .storePerform _ => []
  | .copyRow _ _ => []
  | .copyComplete _ _ => []
  | .feWaitTimeout _ => []
  | .sendWaitTimeout _ => []
  | .barwaitTimeout _ => []
  | .producerLand _ => []
  | .vDecide _ => []
  | .engineFire _ _ => []
  | .engineComplete _ _ => []
  | .routeFlit _ => []
  | .linkResend _ _ => []
  | .linkDown _ _ => []
  | .receive _ _ => []
  | .creditArrive _ _ => []
  | .sendFaultNotice _ _ => []
  | .remoteArrival _ _ => []
  | .arrivalResult _ _ => []
  | .reductionInput _ _ _ => []
  | .heldResultDeliver _ _ => []
  | .roundAbandon _ _ => []
  | .abandonNotice _ _ => []
  | .bulkRequest _ => []
  | .faultRecordRelease _ => []
  | .retryReplay _ _ => []
  | .retryAbort _ _ => []
  | .portwAtPort _ => []
  | .bulkPerform _ => []
  | .replicaCommit _ => []
  | .lockedReadResume _ => []
  | .lockedReadTimeout _ => []
  | .homeLockRelease _ => []
  | .hostTimeout _ => []
  | .requestAcceptTimeout _ => []
  | .externalLinkDrop _ => []
  | .bulkResponse _ => []
  | .acqAtHome _ => []
  | .guardWaitTimeout _ => []
  | .relDepart _ => []
  | .relAtHome _ => []
  | .guardResponse _ => []
  | .hearthGuardRelease _ => []
  | .pairCompare _ => []
  | .pairTimeout _ => []
  | .trapTake _ => []
  | .trapRecordRelease _ => []
  | .containmentAbort _ => []
  | .preemptStop _ => []
  | .stopAck _ _ => []
  | .savePhase _ => []
  | .preemptComplete _ => []
  | .restore _ => []
  | .launchNode _ => []
  | .startMulticast _ => []
  | .tileStart _ => []
  | .nodeComplete _ => []
  | .nodeFail _ => []
  | .shiftMigration _ => []
  | .migrationRemap _ => []
  | .migrationTimeout _ => []
  | .hearthFrame _ => []
  | .hearthStop _ => []
  | .qbroken _ => []
  | .nopPacket _ => []
  | .launch _ => []
  | .ibcall _ => []
  | .signal _ => []
  | .waitv _ => []
  | .copy _ => []
  | .refine _ => []
  | .refineStep _ => []
  | .preemptPacket _ => []
  | .resume _ => []
  | .lichen _ => []
  | .mapsync _ => []
  | .rasWindow _ => []
  | .shadowReplay _ _ => []
  | .lichenPassStart _ => []
  | .lichenPassEnd _ => []
  | .exposureReportWrite _ => []
  | .injctlWrite _ _ _ => []
  | .bringUp => []
  | .fluePortBringUp _ => []
  | .regionBringUp _ => []
  | .mapBuild _ => []
  | .hostLinkUp _ => []
  | .opticalPortReady _ => []
  | .opticalLinkTrain _ => []
  | .opticalAttestExchange _ _ => []
  | .hostPortReset _ => []
  | .devrst _ _ => []
  | .rreset _ _ => []
  | .waferidWrite _ _ => []
  | .registerWrite _ _ _ => []
  | .bar2Access _ _ _ => []
  | .kattest _ => []
  | .kgen _ => []
  | .kunwrap _ => []
  | .kunload _ => []
  | .keySlotClear _ => []
  | .kcfg _ => []
  | .kcommit _ => []
  | .kfwload _ => []
  | .mgmtKattest => []
  | .i3cPrivateWrite _ => []
  | .i3cPrivateRead _ => []
  | .entdaa _ => []
  | .setdasa _ => []
  | .rstdaa => []
  | .enec _ => []
  | .disec _ => []
  | .getpid => []
  | .getbcr => []
  | .getdcr => []
  | .getstatus => []
  | .getmwl => []
  | .getmrl => []
  | .damperStep => []
  | .voltageWarning => []
  | .powerRemoval => []
  | .thermalLimit _ => []
  | .coolantFlowShutdown => []
  | .fluePortFailure _ => []
  | .unsupportedCcc _ => []

/-- The words of a table row's bits, the first word lowest: a word is `n` 32-bit pieces. -/
def tableWords : Nat → Nat → List Word
  | 0, _ => []
  | n + 1, w => BitVec.ofNat 32 w :: tableWords n (w / 2 ^ 32)

/-- The instruction the decoder reads from bits numbered as the operation table numbers them: its first word and, when
it goes on with a Y slot, that word; none where the decoder refuses, and none for a row without an encoding. -/
def decodeTableWord (nbits w : Nat) : Option Instr :=
  if nbits = 0 then none
  else match decodeHead (tableWords ((nbits + 31) / 32) w) with
    | .ok (i, _) => some i
    | .error _ => none

end Sys2Proof
end

