-- ==== Sys2Proof/Machine/Flags.lean ====
section
/-! DEFINITION. The number formats and the exact arithmetic behind every rounding (R167 to R175, R180 to R185), and the
five IEEE exceptions. A value is unpacked to an exact number, computed exactly and rounded once. -/

namespace Sys2Proof.Machine

/-- The five exceptions in the order of fmt.FLAGS: invalid 4, divide by zero 3, overflow 2, underflow 1, inexact 0
(Table 07-6). -/
abbrev Flags5 := BitVec 5

/-- Invalid. -/
def flInvalid : Flags5 := 0b10000#5
/-- Divide by zero. -/
def flDivZero : Flags5 := 0b01000#5
/-- Overflow and inexact. -/
def flOverflow : Flags5 := 0b00101#5
/-- Underflow and inexact. -/
def flUnderflow : Flags5 := 0b00011#5
/-- Inexact. -/
def flInexact : Flags5 := 0b00001#5

/-- Rounding modes in the order of fmt.VRND (Table 07-6). -/
inductive Rnd where
  | rne | rtz | rup | rdn
  deriving DecidableEq, Repr

/-- The mode of a VRND code. -/
def Rnd.ofCode (n : Nat) : Rnd :=
  match n with
  | 0 => .rne
  | 1 => .rtz
  | 2 => .rup
  | _ => .rdn

/-- A binary format: precision, the exponent of its subnormal quantum, its largest exponent, its fraction and exponent
widths (R169). -/
structure FFmt where
  p : Nat
  qmin : Int
  emax : Int
  fw : Nat
  ew : Nat
  deriving DecidableEq, Repr

/-- binary32. -/
def f32 : FFmt := ⟨24, -149, 127, 23, 8⟩
/-- binary64. -/
def f64 : FFmt := ⟨53, -1074, 1023, 52, 11⟩
/-- BF16 (R169). -/
def bf16 : FFmt := ⟨8, -133, 127, 7, 8⟩

/-- The number of bits of the format. -/
def FFmt.width (f : FFmt) : Nat := 1 + f.ew + f.fw

/-- A value of a format, unpacked: a finite non-zero value is m · 2^e with its sign. -/
inductive FVal where
  | nan
  | inf (neg : Bool)
  | zero (neg : Bool)
  | fin (neg : Bool) (m : Nat) (e : Int)
  deriving DecidableEq, Repr

/-- Unpacks the bits of a value (R169). A NaN is recognised in any of its encodings. -/
def FFmt.unpack (f : FFmt) (w : Nat) : FVal :=
  let neg := bitOf w (f.ew + f.fw)
  let e := bitsOf w f.fw f.ew
  let m := bitsOf w 0 f.fw
  if e = 2 ^ f.ew - 1 then (if m = 0 then .inf neg else .nan)
  else if e = 0 then (if m = 0 then .zero neg else .fin neg m f.qmin)
  else .fin neg (2 ^ f.fw + m) (f.qmin + (e : Int) - 1)

/-- The bits of an infinity. -/
def FFmt.infBits (f : FFmt) (neg : Bool) : Nat := b2n neg * 2 ^ (f.ew + f.fw) + (2 ^ f.ew - 1) * 2 ^ f.fw

/-- The bits of a zero. -/
def FFmt.zeroBits (f : FFmt) (neg : Bool) : Nat := b2n neg * 2 ^ (f.ew + f.fw)

/-- The default NaN: the only NaN a unit produces (R169). -/
def FFmt.nanBits (f : FFmt) : Nat := (2 ^ f.ew - 1) * 2 ^ f.fw + 2 ^ (f.fw - 1)

/-- The largest finite value. -/
def FFmt.maxBits (f : FFmt) (neg : Bool) : Nat := f.infBits neg - 1

/-- The bits of n · 2^q, a value of the format whose quantum is at least the subnormal one and that does not overflow;
`n` is not zero. -/
def FFmt.pack (f : FFmt) (neg : Bool) (n : Nat) (q : Int) : Nat :=
  let k := (q - f.qmin).toNat
  let len := Nat.log2 n + 1
  -- bring n to the quantum of its binade
  if k + len ≤ f.p then b2n neg * 2 ^ (f.ew + f.fw) + n * 2 ^ k
  else
    -- a carry out of the significand leaves one bit too many, and that bit is zero
    let sig := if len ≤ f.p then n * 2 ^ (f.p - len) else n / 2 ^ (len - f.p)
    let e := k + len - f.p + 1
    b2n neg * 2 ^ (f.ew + f.fw) + e * 2 ^ f.fw + (sig - 2 ^ f.fw)

/-- Whether a rounding goes up in magnitude: the quotient's last bit, the remainder against half, the mode and the
sign. -/
def roundUp (mode : Rnd) (neg odd : Bool) (exact above half : Bool) : Bool :=
  if exact then false
  else match mode with
    | .rne => above || (half && odd)
    | .rtz => false
    | .rup => !neg
    | .rdn => neg

/-- m · 2^e with a sticky bit, divided by the quantum 2^q and rounded to an integer; whether that was exact. -/
def roundAt (mode : Rnd) (neg : Bool) (m : Nat) (e : Int) (sticky : Bool) (q : Int) : Nat × Bool :=
  if q ≤ e then (m * 2 ^ (e - q).toNat, !sticky)
  else
    let sh := (q - e).toNat
    let n := m / 2 ^ sh
    let r := m % 2 ^ sh
    let half := 2 ^ (sh - 1)
    let exact := r == 0 && !sticky
    let above := decide (r > half) || (r == half && sticky)
    let isHalf := r == half && !sticky
    (if roundUp mode neg (n % 2 == 1) exact above isHalf then n + 1 else n, exact)

/-- Rounds the exact value m · 2^e (plus less than one unit of m when `sticky`), m not zero, once to `prec` significand
bits of the format, the quantum never finer than the subnormal one; tininess is detected after rounding (R171, R182). -/
def FFmt.round (f : FFmt) (prec : Nat) (mode : Rnd) (neg : Bool) (m : Nat) (e : Int) (sticky : Bool) :
    Nat × Flags5 :=
  let top : Int := e + (Nat.log2 m : Int)
  let qfree : Int := top - (prec : Int) + 1
  let q := if qfree < f.qmin then f.qmin else qfree
  let r := roundAt mode neg m e sticky q
  let emin : Int := f.qmin + (f.p : Int) - 1
  let free := roundAt mode neg m e sticky qfree
  let tiny := decide (top < emin) && !(top == emin - 1 && free.1 == 2 ^ prec)
  if r.1 = 0 then (f.zeroBits neg, flUnderflow)
  else if q + (Nat.log2 r.1 : Int) > f.emax then
    (match mode with
      | .rne => f.infBits neg
      | .rtz => f.maxBits neg
      | .rup => if neg then f.maxBits neg else f.infBits neg
      | .rdn => if neg then f.infBits neg else f.maxBits neg, flOverflow)
  else (f.pack neg r.1 q, if r.2 then 0#5 else if tiny then flUnderflow else flInexact)

/-- How a unit rounds: format, precision and mode (R182). -/
structure RCtx where
  f : FFmt
  prec : Nat
  mode : Rnd
  /-- the sign of an exact zero from cancellation: minus under RDN (R171), whatever the budget -/
  zneg : Bool
  deriving DecidableEq, Repr

/-- Correct rounding in a mode. -/
def RCtx.full (f : FFmt) (mode : Rnd) : RCtx := ⟨f, f.p, mode, mode == .rdn⟩

/-- The rounding of budget `b`: correct rounding when 2b - 2 reaches the precision, else nearest-even at 2b - 2 bits,
the rounding mode ignored (R182).
A zero has no digits to round: its sign keeps to R171. -/
def RCtx.budget (f : FFmt) (mode : Rnd) (b : Nat) : RCtx :=
  if 2 * b - 2 ≥ f.p then RCtx.full f mode else ⟨f, 2 * b - 2, .rne, mode == .rdn⟩

/-- Rounds an exact value. -/
def RCtx.rnd (c : RCtx) (neg : Bool) (m : Nat) (e : Int) (sticky : Bool := false) : Nat × Flags5 :=
  c.f.round c.prec c.mode neg m e sticky

/-- The default NaN with invalid. -/
def RCtx.invalid (c : RCtx) : Nat × Flags5 := (c.f.nanBits, flInvalid)

/-- The default NaN of a NaN operand (R262). -/
def RCtx.nan (c : RCtx) : Nat × Flags5 := (c.f.nanBits, 0#5)

/-- An exact number: a signed multiple of a power of two. -/
structure Dyad where
  m : Int
  e : Int
  deriving DecidableEq, Repr

/-- The exact value of a finite operand. -/
def FVal.dyad : FVal → Dyad
  | .fin neg m e => ⟨if neg then -(m : Int) else m, e⟩
  | _ => ⟨0, 0⟩

/-- Exact sum. -/
def Dyad.add (x y : Dyad) : Dyad :=
  if x.e ≤ y.e then ⟨x.m + y.m * 2 ^ (y.e - x.e).toNat, x.e⟩ else ⟨x.m * 2 ^ (x.e - y.e).toNat + y.m, y.e⟩

/-- Exact product. -/
def Dyad.mul (x y : Dyad) : Dyad := ⟨x.m * y.m, x.e + y.e⟩

/-- Negation. -/
def Dyad.neg (x : Dyad) : Dyad := ⟨-x.m, x.e⟩

/-- Whether x is less than y. -/
def Dyad.lt (x y : Dyad) : Bool := decide ((x.add y.neg).m < 0)

/-- Rounds an exact number; an exact zero is +0, and -0 under RDN (R171). -/
def RCtx.dyad (c : RCtx) (x : Dyad) : Nat × Flags5 :=
  if x.m = 0 then (c.f.zeroBits c.zneg, 0#5) else c.rnd (decide (x.m < 0)) x.m.natAbs x.e

/-- The sign of a value; a NaN counts as positive. -/
def FVal.neg : FVal → Bool
  | .nan => false
  | .inf s => s
  | .zero s => s
  | .fin s _ _ => s

/-- The value with its sign replaced. -/
def FVal.withSign (s : Bool) : FVal → FVal
  | .nan => .nan
  | .inf _ => .inf s
  | .zero _ => .zero s
  | .fin _ m e => .fin s m e

/-- The value with the opposite sign. -/
def FVal.flip (v : FVal) : FVal := v.withSign (!v.neg)

/-- Whether a value is NaN. -/
def FVal.isNan : FVal → Bool
  | .nan => true
  | _ => false

/-- Whether a value is a number. -/
def FVal.finite : FVal → Bool
  | .zero _ | .fin _ _ _ => true
  | _ => false

/-- Whether a value takes the bypass path: NaN, infinity or zero (R183). -/
def FVal.special : FVal → Bool
  | .fin _ _ _ => false
  | _ => true

/-- A value as it stands, rounded (R264): exact unless the precision is a budget's. -/
def RCtx.val (c : RCtx) : FVal → Nat × Flags5
  | .nan => c.nan
  | .inf s => (c.f.infBits s, 0#5)
  | .zero s => (c.f.zeroBits s, 0#5)
  | .fin s m e => c.rnd s m e

/-- Sum (R171). -/
def RCtx.add (c : RCtx) (x y : FVal) : Nat × Flags5 :=
  match x, y with
  | .nan, _ => c.nan
  | _, .nan => c.nan
  | .inf s, .inf s' => if s = s' then (c.f.infBits s, 0#5) else c.invalid
  | .inf s, _ => (c.f.infBits s, 0#5)
  | _, .inf s => (c.f.infBits s, 0#5)
  | .zero s, .zero s' => (c.f.zeroBits (if s = s' then s else c.zneg), 0#5)
  | .zero _, y => c.val y
  | x, .zero _ => c.val x
  | x, y => c.dyad (x.dyad.add y.dyad)

/-- Product (R171). -/
def RCtx.mul (c : RCtx) (x y : FVal) : Nat × Flags5 :=
  match x, y with
  | .nan, _ => c.nan
  | _, .nan => c.nan
  | .inf _, .zero _ => c.invalid
  | .zero _, .inf _ => c.invalid
  | .inf s, y => (c.f.infBits (s != y.neg), 0#5)
  | x, .inf s => (c.f.infBits (x.neg != s), 0#5)
  | .zero s, y => (c.f.zeroBits (s != y.neg), 0#5)
  | x, .zero s => (c.f.zeroBits (x.neg != s), 0#5)
  | .fin s m e, .fin s' m' e' => c.rnd (s != s') (m * m') (e + e')

/-- x · y + z with one rounding (R263). -/
def RCtx.fma (c : RCtx) (x y z : FVal) : Nat × Flags5 :=
  match x, y with
  | .nan, _ => c.nan
  | _, .nan => c.nan
  | .inf _, .zero _ => if z.isNan then c.nan else c.invalid
  | .zero _, .inf _ => if z.isNan then c.nan else c.invalid
  | .inf s, y => c.add (.inf (s != y.neg)) z
  | x, .inf s => c.add (.inf (x.neg != s)) z
  | .zero s, y => c.add (.zero (s != y.neg)) z
  | x, .zero s => c.add (.zero (x.neg != s)) z
  | .fin s m e, .fin s' m' e' => c.add (.fin (s != s') (m * m') (e + e')) z

/-- Guard bits for a quotient or a root: more than any precision needs. -/
def guardBits : Nat := 120

/-- Quotient (R171): x / 0 is an infinity with divide by zero. -/
def RCtx.div (c : RCtx) (x y : FVal) : Nat × Flags5 :=
  match x, y with
  | .nan, _ => c.nan
  | _, .nan => c.nan
  | .inf _, .inf _ => c.invalid
  | .zero _, .zero _ => c.invalid
  | .inf s, y => (c.f.infBits (s != y.neg), 0#5)
  | x, .inf s => (c.f.zeroBits (x.neg != s), 0#5)
  | .zero s, y => (c.f.zeroBits (s != y.neg), 0#5)
  | .fin s _ _, .zero s' => (c.f.infBits (s != s'), flDivZero)
  | .fin s m e, .fin s' m' e' =>
    let n := m * 2 ^ guardBits
    c.rnd (s != s') (n / m') (e - e' - guardBits) (n % m' != 0)

/-- The integer square root by binary digits, from digit `fuel - 1` down. -/
def isqrtFrom (n : Nat) : Nat → Nat → Nat
  | 0, r => r
  | i + 1, r => if (r + 2 ^ i) * (r + 2 ^ i) ≤ n then isqrtFrom n i (r + 2 ^ i) else isqrtFrom n i r

/-- The integer square root of a number below 2^256. -/
def isqrt (n : Nat) : Nat := isqrtFrom n 128 0

/-- m · 2^e with an even exponent and at least `guardBits` bits for a root. -/
def evenScale (m : Nat) (e : Int) : Nat × Int :=
  if (e - guardBits) % 2 = 0 then (m * 2 ^ guardBits, e - guardBits) else (m * 2 ^ (guardBits + 1), e - guardBits - 1)

/-- Square root (R171, R183). -/
def RCtx.sqrt (c : RCtx) : FVal → Nat × Flags5
  | .nan => c.nan
  | .zero s => (c.f.zeroBits s, 0#5)
  | .inf false => (c.f.infBits false, 0#5)
  | .inf true => c.invalid
  | .fin true _ _ => c.invalid
  | .fin false m e =>
    let s := evenScale m e
    let r := isqrt s.1
    c.rnd false r (s.2 / 2) (r * r != s.1)

/-- Reciprocal square root, rounded once (R263): rsqrt of a zero is an infinity of its sign, with divide by zero. -/
def RCtx.rsqrt (c : RCtx) : FVal → Nat × Flags5
  | .nan => c.nan
  | .zero s => (c.f.infBits s, flDivZero)
  | .inf false => (c.f.zeroBits false, 0#5)
  | .inf true => c.invalid
  | .fin true _ _ => c.invalid
  | .fin false m e =>
    -- 1 / sqrt(m 2^e) = sqrt(2^-e / m): an even exponent, then a quotient, then a root
    let k : Int := if e % 2 = 0 then e else e - 1
    let m' := if e % 2 = 0 then m else 2 * m
    let q := 2 ^ (2 * guardBits) / m'
    let r := isqrt q
    c.rnd false r (-(k / 2) - guardBits) (r * r * m' != 2 ^ (2 * guardBits))

/-- Reciprocal, rounded once (R263). -/
def RCtx.rcp (c : RCtx) (x : FVal) : Nat × Flags5 := c.div (.fin false 1 0) x

/-- Whether x orders before y, neither NaN; -0 orders before +0 (R264). -/
def FVal.before (x y : FVal) : Bool :=
  match x, y with
  | .inf s, .inf s' => s && !s'
  | .inf s, _ => s
  | _, .inf s => !s
  | .zero s, .zero s' => s && !s'
  | x, y => x.dyad.lt y.dyad

/-- The lesser (R264). -/
def RCtx.min (c : RCtx) (x y : FVal) : Nat × Flags5 :=
  if x.isNan || y.isNan then c.nan else c.val (if y.before x then y else x)

/-- The greater (R264). -/
def RCtx.max (c : RCtx) (x y : FVal) : Nat × Flags5 :=
  if x.isNan || y.isNan then c.nan else c.val (if x.before y then y else x)

/-- The greater magnitude (R264). -/
def RCtx.maxa (c : RCtx) (x y : FVal) : Nat × Flags5 := c.max (x.withSign false) (y.withSign false)

/-- Numeric comparison of two values, neither NaN: less, with +0 equal to -0 (R269). -/
def FVal.numLt (x y : FVal) : Bool :=
  match x, y with
  | .zero _, .zero _ => false
  | x, y => x.before y

/-- The condition of VCMP (R269): 0 eq, 1 ne, 2 lt, 3 le, 4 gt, 5 ge, 6 un, 7 ord. -/
def fcmp (cond : Nat) (x y : FVal) : Bool :=
  let un := x.isNan || y.isNan
  let lt := !un && x.numLt y
  let gt := !un && y.numLt x
  match cond with
  | 0 => !un && !lt && !gt
  | 1 => un || lt || gt
  | 2 => lt
  | 3 => !un && !gt
  | 4 => gt
  | 5 => !un && !lt
  | 6 => un
  | _ => !un

/-- The exact sum of finite terms. -/
def sumDyad (l : List Dyad) : Dyad := l.foldl Dyad.add ⟨0, 0⟩

/-- The product of two values as an exact term, or its special value (R184). -/
def FVal.times (x y : FVal) : FVal :=
  match x, y with
  | .nan, _ => .nan
  | _, .nan => .nan
  | .inf _, .zero _ => .nan
  | .zero _, .inf _ => .nan
  | .inf s, y => .inf (s != y.neg)
  | x, .inf s => .inf (x.neg != s)
  | .zero s, y => .zero (s != y.neg)
  | x, .zero s => .zero (x.neg != s)
  | .fin s m e, .fin s' m' e' => .fin (s != s') (m * m') (e + e')

/-- Whether a product creates a NaN from operands that are none: 0 times an infinity (R262). -/
def FVal.badTimes (x y : FVal) : Bool :=
  match x, y with
  | .inf _, .zero _ => true
  | .zero _, .inf _ => true
  | _, _ => false

/-- The sum of terms, exact, rounded once (R184, R273): NaN terms give the default NaN, infinities of both signs are
invalid; a sum of zeros only has their sign when they agree. -/
def RCtx.sum (c : RCtx) (l : List FVal) : Nat × Flags5 :=
  if l.any FVal.isNan then c.nan
  else
    let pos := l.any fun v => v == .inf false
    let neg := l.any fun v => v == .inf true
    if pos && neg then c.invalid
    else if pos then (c.f.infBits false, 0#5)
    else if neg then (c.f.infBits true, 0#5)
    else if l.all (fun v => v == .zero true) then (c.f.zeroBits true, 0#5)
    else if l.all (fun v => v == .zero false) then (c.f.zeroBits false, 0#5)
    else c.dyad (sumDyad (l.map FVal.dyad))

/-- Rounds to an integer in a mode, with whether the value was an integer. -/
def FVal.toInt (mode : Rnd) : FVal → Int × Bool
  | .fin s m e =>
    let r := roundAt mode s m e false 0
    (if s then -(r.1 : Int) else r.1, r.2)
  | _ => (0, true)

/-- Conversion to INT32, saturating (R274): a NaN gives 0; NaN and range errors are invalid. -/
def toInt32 (mode : Rnd) (v : FVal) : Word × Flags5 :=
  match v with
  | .nan => (0#32, flInvalid)
  | .inf s => (if s then 0x80000000#32 else 0x7FFFFFFF#32, flInvalid)
  | v =>
    let r := v.toInt mode
    if r.1 > 0x7FFFFFFF then (0x7FFFFFFF#32, flInvalid)
    else if r.1 < -0x80000000 then (0x80000000#32, flInvalid)
    else (wordOfInt r.1, if r.2 then 0#5 else flInexact)

/-- An integer, rounded to a format. -/
def RCtx.ofInt (c : RCtx) (i : Int) : Nat × Flags5 :=
  if i = 0 then (0, 0#5) else c.rnd (decide (i < 0)) i.natAbs 0

/-- Decodes an FP8 E4M3 byte (R168). -/
def decE4M3 (b : Nat) : FVal :=
  let s := bitOf b 7
  let e := bitsOf b 3 4
  let m := bitsOf b 0 3
  if e = 15 ∧ m = 7 then .nan
  else if e = 0 then (if m = 0 then .zero s else .fin s m (-9))
  else .fin s (8 + m) (e - 10)

/-- The integer image X of an E4M3 byte that is no NaN (R168). -/
def imgE4M3 (b : Nat) : Int :=
  let e := bitsOf b 3 4
  let m := bitsOf b 0 3
  let v : Int := if e = 0 then m else ((8 + m) * 2 ^ (e - 1) : Nat)
  if bitOf b 7 then -v else v

/-- CVTBF16 of a binary32 word (R172). -/
def cvtBf16 (w : Nat) : Nat :=
  match f32.unpack w with
  | .nan => 0x7FC0
  | v => ((RCtx.full bf16 .rne).val v).1

/-- CVTE4M3 of a binary32 word (R172): saturating at 448, the sign of a zero kept. -/
def cvtE4M3 (w : Nat) : Nat :=
  let sgn (s : Bool) : Nat := b2n s * 128
  match f32.unpack w with
  | .nan => 0x7F
  | .inf s => sgn s + 0x7E
  | .zero s => sgn s
  | .fin s m e =>
    let top : Int := e + (Nat.log2 m : Int)
    let q : Int := if top - 3 < -9 then -9 else top - 3
    let r := (roundAt .rne s m e false q).1
    if r = 0 then sgn s
    else
      let topr : Int := q + (Nat.log2 r : Int)
      -- at least 448 saturates
      if topr > 8 ∨ (topr = 8 ∧ r * 2 ^ (q + 9).toNat ≥ 448 * 2 ^ 9) then sgn s + 0x7E
      else if topr < -6 then sgn s + r
      else
        let m3 := if q + 3 = topr then r else r / 2
        sgn s + (topr + 7).toNat * 8 + (m3 - 8)

/-- BF16 bits widened to binary32: exact, a NaN gives the default NaN (R169). -/
def widenBf16 (h : Nat) : Nat :=
  match bf16.unpack h with
  | .nan => f32.nanBits
  | _ => h % 2 ^ 16 * 2 ^ 16

/-- An E4M3 byte widened to binary32 (R169). -/
def widenE4M3 (b : Nat) : Nat := ((RCtx.full f32 .rne).val (decE4M3 b)).1

/-- RNE32 of x + y (R171), for the units that record nothing. -/
def add32 (x y : Nat) : Nat := ((RCtx.full f32 .rne).add (f32.unpack x) (f32.unpack y)).1

/-- RNE32 of x · y (R171). -/
def mul32 (x y : Nat) : Nat := ((RCtx.full f32 .rne).mul (f32.unpack x) (f32.unpack y)).1

/-- RNE32 of x · y + z, one rounding (R171). -/
def fma32 (x y z : Nat) : Nat := ((RCtx.full f32 .rne).fma (f32.unpack x) (f32.unpack y) (f32.unpack z)).1

/-- RNE32 of x / y (R171). -/
def div32 (x y : Nat) : Nat := ((RCtx.full f32 .rne).div (f32.unpack x) (f32.unpack y)).1

/-- RNE32 of the square root of x (R171). -/
def sqrt32 (x : Nat) : Nat := ((RCtx.full f32 .rne).sqrt (f32.unpack x)).1

/-- The bits of -x; the default NaN for a NaN. -/
def neg32 (x : Nat) : Nat := ((RCtx.full f32 .rne).val (f32.unpack x).flip).1

end Sys2Proof.Machine
end

