-- ==== Sys2Proof/Machine/Memory.lean ====
section
/-! DEFINITION. Byte memories as sorted lists of cells in one canonical form, and sets of numbers in the same way. An
unlisted address reads as zero: the contents the manual gives a tile's scratchpad at launch (R134); entry 5 for the
bulk memory and the host memories. -/

namespace Sys2Proof.Machine

/-- A byte memory: cells at strictly rising addresses, none of them zero. -/
abbrev Memory := List Host.Cell

/-- The canonical form, with every address at least `lo`. -/
def Memory.wfFrom : Nat → Memory → Bool
  | _, [] => true
  | lo, (a, b) :: m => decide (lo ≤ a) && b != 0#8 && Memory.wfFrom (a + 1) m

/-- The canonical form: addresses strictly rising, no cell equal to what an unlisted address reads as. -/
def Memory.wf (m : Memory) : Bool := Memory.wfFrom 0 m

/-- The byte at an address. -/
def Memory.read : Memory → Nat → Byte
  | [], _ => 0#8
  | (a, b) :: m, x => if a = x then b else if x < a then 0#8 else Memory.read m x

/-- Writes one byte, keeping the canonical form. -/
def Memory.write : Memory → Nat → Byte → Memory
  | [], x, v => if v = 0#8 then [] else [(x, v)]
  | (a, b) :: m, x, v =>
    if x < a then (if v = 0#8 then (a, b) :: m else (x, v) :: (a, b) :: m)
    else if x = a then (if v = 0#8 then m else (x, v) :: m)
    else (a, b) :: Memory.write m x v

/-- The `n` bytes from an address upward. -/
def Memory.bytes (m : Memory) : Nat → Nat → List Byte
  | _, 0 => []
  | a, n + 1 => m.read a :: Memory.bytes m (a + 1) n

/-- Writes bytes from an address upward. -/
def Memory.put (m : Memory) : Nat → List Byte → Memory
  | _, [] => m
  | a, b :: bs => Memory.put (m.write a b) (a + 1) bs

/-- The little-endian value of `n` bytes at an address (R4). -/
def Memory.val (m : Memory) (a n : Nat) : Nat := bytesVal (m.bytes a n)

/-- The little-endian word at an address (R4). -/
def Memory.word (m : Memory) (a : Nat) : Word := BitVec.ofNat 32 (m.val a 4)

/-- Writes the little-endian value of `n` bytes at an address (R4). -/
def Memory.putVal (m : Memory) (a n v : Nat) : Memory := m.put a (valBytes n v)

/-- A set of numbers: strictly rising. -/
abbrev NatSet := List Nat

/-- The canonical form of a set, with every member at least `lo`. -/
def NatSet.wfFrom : Nat → NatSet → Bool
  | _, [] => true
  | lo, a :: l => decide (lo ≤ a) && NatSet.wfFrom (a + 1) l

/-- The canonical form of a set. -/
def NatSet.wf (l : NatSet) : Bool := NatSet.wfFrom 0 l

/-- Membership. -/
def NatSet.has : NatSet → Nat → Bool
  | [], _ => false
  | a :: l, x => if a = x then true else if x < a then false else NatSet.has l x

/-- Puts a number in. -/
def NatSet.add : NatSet → Nat → NatSet
  | [], x => [x]
  | a :: l, x => if x < a then x :: a :: l else if x = a then a :: l else a :: NatSet.add l x

/-- Takes a number out. -/
def NatSet.del : NatSet → Nat → NatSet
  | [], _ => []
  | a :: l, x => if x < a then a :: l else if x = a then l else a :: NatSet.del l x

/-- Puts every number of a list in. -/
def NatSet.addAll (s : NatSet) (l : List Nat) : NatSet := l.foldl NatSet.add s

/-- Takes every number of a list out. -/
def NatSet.delAll (s : NatSet) (l : List Nat) : NatSet := l.foldl NatSet.del s

end Sys2Proof.Machine
end

