-- ==== Sys2Proof/Machine/Tile.lean ====
section
/-! DEFINITION. The state of one tile: its register files, its control registers, what it has in progress, its
scratchpad, engines, channels, copy channels, containment blocks and router. The fields that are the model's own are
listed in entry 1. -/

namespace Sys2Proof.Machine

/-- A vector register: 16 lanes of 32 bits (R145). -/
abbrev VReg := Vector Word 16

/-- The register files by physical register (R145, R149). -/
structure Files where
  /-- s0 to s31 -/
  s : Vector Word 32
  /-- a0 to a15 -/
  a : Vector Word 16
  /-- p0 to p7 -/
  p : Vector Bool 8
  /-- v0 to v27 -/
  v : Vector VReg 28
  /-- t0 to t15, 2 KiB each (R57) -/
  t : Vector Memory 16
  deriving DecidableEq, Repr

/-- One accumulator element: exact partial, value, NaN flag (R161) and residue (R288). -/
structure ZElem where
  p : BitVec 56
  acc : Word
  nan : Bool
  res : Nat
  deriving DecidableEq, Repr

/-- One accumulator: 256 elements, row by row, PEND and PTYPE (R288). -/
structure ZAcc where
  el : Vector ZElem 256
  pend : Bool
  ptype : Nat
  deriving DecidableEq, Repr

/-- A write to a physical register. A lane write changes one lane of a v register, a masked write the lanes of its mask
(R217, R240). -/
inductive RegWrite where
  | s (r : Nat) (x : Word)
  | a (r : Nat) (x : Word)
  | p (r : Nat) (x : Bool)
  | v (r : Nat) (x : VReg)
  | vLane (r : Nat) (lane : Nat) (x : Word)
  | vMask (r : Nat) (mask : BitVec 16) (x : VReg)
  | t (r : Nat) (image : List Byte)
  deriving DecidableEq, Repr

/-- What identifies an issued slot: its words, its address and the rrb at its issue (R326). -/
structure SlotInfo where
  word : Word
  yimm : Option (BitVec 28)
  addr : Nat
  rrb : Nat
  deriving DecidableEq, Repr

/-- A core producer that has issued and not landed (R151 to R155). -/
structure Flight where
  /-- its place in issue order -/
  seq : Nat
  /-- the first cycle in which a bundle reads the new value -/
  due : Nat
  tag : BitVec 3
  writes : List RegWrite
  /-- the ring whose slot becomes landed with it (R242), with the slot -/
  ring : Option (Nat × Nat)
  /-- the replay kind a trap captures it under, 0 when it is not captured (Table 16-1) -/
  kind : Nat
  opx : DWord
  opy : Word
  /-- the data of a vector load, for its operand block -/
  data : List Byte
  info : SlotInfo
  deriving DecidableEq, Repr

/-- A decider's window and what it waits for (R271). -/
structure Decider where
  lo : Nat
  hi : Nat
  deriving DecidableEq, Repr

/-- A V operation that has issued and not completed (R263 to R276); `vbud` as it stood at issue. -/
structure VOp where
  seq : Nat
  /-- completion cycle; for a decider the last cycle of its window -/
  due : Nat
  issued : Nat
  tag : BitVec 3
  writes : List RegWrite
  /-- the exceptions it records, and those enabled at its issue (R185) -/
  flags : Flags5
  trapen : Flags5
  /-- the link it produces, and the links it consumes -/
  dest : Option Nat
  srcs : List Nat
  decider : Option Decider
  /-- digits of its result, and whether it is bypassed (R268) -/
  dr : Nat
  bypass : Bool
  /-- isolated latency and chain increment, for resumption (R276) -/
  lat : Nat
  chain : Nat
  /-- what it sampled at issue: fmt, the budget, and its operands A, B and third source, 16 lanes each (R261, R325) -/
  fmt : Word
  vbud : Nat
  operands : List (List DWord)
  inst : Instr
  info : SlotInfo
  deriving DecidableEq, Repr

/-- A live digit link (R162, R266): its value per lane, the exact results that its digits converge to (R180), where the free
values that choose among its digits begin and who drew them (entry 7), the precision its producer sampled, when its digits
come, its producer and its consumer by issue order. -/
structure Link where
  value : Vector DWord 16
  exact : Vector FVal 16
  seed : Nat
  who : Nat
  prec64 : Bool
  done : Nat
  dr : Nat
  bypass : Bool
  /-- whether the producer, or one upstream of it, is bypassed (R186) -/
  chained : Bool
  producer : Nat
  consumer : Option Nat
  deriving DecidableEq, Repr

/-- The states of a tag (R157). -/
inductive TagSt where
  | free | outstanding | faulted
  deriving DecidableEq, Repr

/-- A cause that waits for an unmasked boundary, or a fault found after issue (R323). -/
structure Pending where
  cause : Cause
  faddr : DWord
  info : DWord
  /-- cycle of detection, and the unit's place in the order of R323 -/
  at_ : Nat
  unit : Nat
  /-- issue order of the instruction that raised it; none for another party -/
  seq : Option Nat
  deriving DecidableEq, Repr

/-- Why a bundle stalls with a bound (R39, R90, R251), or without one. -/
inductive StallKind where
  | plain | fe | send | bar | pairClose
  deriving DecidableEq, Repr

/-- A bundle that waits at issue: which slot, why, and the fault address its time-out would carry. -/
structure Stall where
  kind : StallKind
  slot : Nat
  faddr : DWord
  info : DWord
  /-- the bound has expired: the time-out comes next -/
  expired : Bool
  /-- BARWAIT: the object's address (R251) -/
  obj : Nat
  /-- the cycles that each wait of the bundle has waited so far, by slot and kind (R39) -/
  counts : List (Nat × StallKind × Nat)
  deriving DecidableEq, Repr

/-- The status of the tile and its task (R134, R137, R331, R337, R341, R376). -/
inductive TStatus where
  | idle | loaded | running | stopped | saved | ended | halted | testing | absent
  deriving DecidableEq, Repr

/-- A SPILL or FILL in progress over bulk elements (R243 to R245). -/
structure ListOp where
  seq : Nat
  fill : Bool
  tag : BitVec 3
  ea : Nat
  /-- element size, the physical registers in list order with their file code, and the transfer order -/
  size : Nat
  file : Nat
  regs : List Nat
  order : List Nat
  /-- elements transferred -/
  k : Nat
  /-- data of a SPILL read at issue, by list position -/
  data : List (List Byte)
  /-- what the element of a FILL's own base register read at the FILL's place in port A's order, where it moves later (R31, R245) -/
  early : Option (Except Cause (List Byte))
  /-- the element in flight: its bulk access by issue order -/
  waiting : Bool
  /-- re-injected unparked: the bundle after RFT waits for it (R328) -/
  hold : Bool
  info : SlotInfo
  deriving DecidableEq, Repr

/-- A captured operation of the trap frame: what the frame's digit buffers and blocks do not hold (R276, R326; entry
7). -/
inductive Captured where
  | flight (f : Flight)
  | vop (o : VOp)
  | list (l : ListOp)
  | link (n : Nat)
  deriving DecidableEq, Repr

/-- What a slot does when its bundle closes, with what it read at issue: SETC's value (R163), CALL's return address (R218), the
handler and the physical cause register of CBOPEN (R149, R313), CBCLOSE, END, RFT. -/
inductive Closing where
  | setc (n : Nat) (v : Word)
  | call
  | cbopen (handler : Word) (creg : Nat)
  | cbclose
  | endTask
  | rft
  deriving DecidableEq, Repr

/-- Sequencing: pc, issue timing, scoreboard, stacks, traps. -/
structure Sched where
  /-- the address of the bundle issued next (R191) -/
  pc : Word
  /-- cycles of the tile since its first bundle -/
  cycle : Nat
  /-- the earliest cycle of the next issue: holds, transfer costs, trap entry (R159, R219, R322) -/
  ready : Nat
  /-- cycles the bundle at pc has waited (R39), those of an injected replay among them (R375) -/
  waited : Nat
  stall : Option Stall
  /-- issue order of the next instruction -/
  seq : Nat
  tags : Vector TagSt 8
  flights : List Flight
  vops : List VOp
  links : Vector (Option Link) 4
  /-- return stack and loop stack, the bottom first (R218, R220) -/
  rstk : List Word
  lstk : List (Word × Word)
  /-- traps masked (Table 07-8), issue order at trap entry, tags the handler allocated (R160) -/
  tm : Bool
  tmSeq : Nat
  pend : List Pending
  /-- operations of the interrupted program captured at the trap, by replay entry, with its captured links -/
  captured : List Captured
  capLinks : Vector (Option Link) 4
  /-- the cycle in which the units stopped for the trap: what was captured stood as it was then (R276) -/
  capFin : Nat
  /-- tags the handler has allocated and not yet released (R160) -/
  own : List Nat
  /-- CBD at trap entry (R328) -/
  cbdAtTrap : Nat
  /-- what the bundle in issue does when it closes: the transfer target and the hold or cost -/
  xfer : Option Word
  cost : Nat
  /-- tags the bundle in issue allocates -/
  alloc : List Nat
  /-- slots whose effect comes when the bundle closes -/
  closing : List Closing
  /-- registers written by the bundle issued last, which land in cycle `freshAt` after every older result of that
  cycle (R154) -/
  freshAt : Nat
  fresh : List RegWrite
  status : TStatus
  deriving DecidableEq, Repr

/-- Control registers that are plain words, and the fields of the others (Table 07-5). -/
structure Ctl where
  fmt : Word
  /-- SETFMT values not yet in force, with the cycle from which they are (R165) -/
  fmtNext : List (Nat × Word)
  vbud : Nat
  rrb : Nat
  lc : Word
  ec : Word
  tvec : Word
  febound : Word
  ovflo : Word
  ovfhi : Word
  spcarve : Word
  ctbase : Word
  barbound : Word
  tsh : Vector Word 16
  coordrow : Word
  coordcol : Word
  rank : Word
  nodeid : Word
  ctxid : Word
  bb : Vector DWord 8
  rnseed : Word
  rnstep : Word
  rnstream : Word
  rnkeep : Word
  hy : Vector Word 8
  /-- the count that cyclelo shows is `cycle` of the sequencing state; this is the latch of cyclehi (R163) -/
  cyclehi : Word
  deriving DecidableEq, Repr

/-- The shape of a tile register: element width in bytes, rows, columns (R166). -/
structure Shape where
  ew : Nat
  rows : Nat
  cols : Nat
  deriving DecidableEq, Repr

/-- The bank atomics in the order of Table 02-7. -/
inductive AtomOp where
  | add | and | or | xor | min | max | minu | maxu | fadd | swap | cas
  deriving DecidableEq, Repr

/-- What a port A load reads and where it goes: physical registers, byte addresses (R239 to R242). -/
inductive LoadPlan where
  | scalar (addr size : Nat) (signed : Bool) (dest : Nat)
  | vec (addr : Nat) (dest : Nat)
  | vecB (addr : Nat) (d0 d1 : Nat)
  | gather (lanes : List (Nat × Nat)) (dest : Nat)
  | tile (addr : Nat) (sh : Shape) (col : Bool) (dest : Nat) (ring : Option (Nat × Nat))
  deriving DecidableEq, Repr

/-- One port A access that has issued (R108): stores wait in the store queue, the others are performed as soon as
every earlier access has been. -/
inductive PortAct where
  /-- bytes to write and granules to set full -/
  | store (bytes : List (Nat × Byte)) (full : List Nat)
  /-- a copy start: channel, template index, whether staging room was taken for it (R255, R314) -/
  | start (ch : Nat) (index : Nat) (staged : Bool)
  /-- a load with its tag, latency and the granules it sets empty -/
  | load (tag : BitVec 3) (lat : Nat) (plan : LoadPlan) (take : List Nat)
  | atom (tag : BitVec 3) (op : AtomOp) (addr : Nat) (v c : Word) (dest : Nat)
  | arrive (obj : Nat) (n : Nat) (tag : BitVec 3)
  | barInit (obj : Nat) (expect : Nat) (reload : Word)
  | txAdd (obj : Nat) (n : Nat)
  | txDec (obj : Nat) (n : Nat)
  | barRd (tag : BitVec 3) (obj : Nat) (field : Nat) (dest : Nat)
  | fe (set : Bool) (grans : List Nat)
  | feRd (tag : BitVec 3) (gran : Nat) (dest : Nat)
  /-- a SPILL or FILL comes to its place in port A's order: the list operation of its issue order goes on (R31, R243) -/
  | list
  deriving DecidableEq, Repr

/-- One entry of the queue of port A: issue order, issue cycle, the first cycle it may be performed in, the slot. -/
structure PortQ where
  seq : Nat
  issued : Nat
  at_ : Nat
  act : PortAct
  info : SlotInfo
  deriving DecidableEq, Repr

/-- A line of the bulk read buffer: virtual line address and bytes, the most recently used first (R80). -/
structure BufLine where
  line : Nat
  bytes : List Byte
  deriving DecidableEq, Repr

/-- Detectors armed by INJCTL that have not reported yet, whether they report at every event, and the reports made and not
yet counted (R374, R375). -/
structure Inject where
  armed : Nat
  again : Bool
  hits : List Nat
  deriving DecidableEq, Repr

/-- Whether a detector is armed. -/
def Inject.has (j : Inject) (u : Nat) : Bool := j.armed / 2 ^ u % 2 == 1

/-- An injected report: unless it repeats, the first one ends the arming. -/
def Inject.hit (j : Inject) (u : Nat) : Inject := { j with armed := if j.again then j.armed else 0, hits := j.hits ++ [u] }

/-- Scratchpad, its bits, and what stands before it. -/
structure Pad where
  /-- scratchpad bytes, trap-frame carve-out included (R27) -/
  mem : Memory
  /-- full granules (R37), poisoned granules (R41) -/
  full : NatSet
  poison : NatSet
  /-- words with an uncorrectable error not yet found (R41), by word address, and words with a correctable one -/
  bad : NatSet
  soft : NatSet
  /-- instruction SRAM (R56), its words with an uncorrectable error and those with a correctable one -/
  code : Memory
  codeBad : NatSet
  codeSoft : NatSet
  queue : List PortQ
  buf : List BufLine
  /-- the scratchpad's own detectors under injection -/
  inj : Inject
  deriving DecidableEq, Repr

/-- A bulk access's kind: its code in fault records (R73) follows Table 03-7. -/
inductive AccKind where
  | bldw | bldd | bstw | bstd | copyIn | copyOut | spill | fill | acq | rel
  deriving DecidableEq, Repr

/-- A translated access (R64, R70): target 0 HBM, 1 host memory, 2 a peer wafer; the address there (HBM: in the direct
window), the key slot, the stacks of replicas 1 to 3, the optical port and peer wafer, the host port. -/
structure Xlat where
  tgt : Nat
  pa : Nat
  key : Nat
  reps : List Nat
  oport : Nat
  peer : Nat
  hport : Nat
  deriving DecidableEq, Repr

/-- Where a bulk access is: still in the tile, translated and on its way to its target, stalled at a locked replica
line since a time, parked in a retry ring, answered (R64 to R79). An answer carries the cause it failed with, its data
(for a failure, the SEQ of its fault record if it had one), and the line it was served from when one is to be placed in
the read buffer (R80). -/
inductive AccStage where
  | inTile
  | atTarget (x : Xlat)
  | locked (x : Xlat) (since : Nat)
  | parked (port : Nat) (idx : Nat) (seqn : Nat) (cause : Cause)
  | answered (cause : Option Cause) (data : List Byte) (line : Option (List Byte))
  deriving DecidableEq, Repr

/-- One bulk access of a tile in progress. -/
structure BulkAcc where
  seq : Nat
  kind : AccKind
  va : Nat
  len : Nat
  data : List Byte
  tag : BitVec 3
  /-- physical s registers of a load -/
  dest : List Nat
  stage : AccStage
  /-- a park notice has been delivered for it (R75) -/
  noticed : Bool
  /-- a notice waits to be delivered -/
  notice : Bool
  /-- discarded by an abort: its answer writes nothing (R316) -/
  dropped : Bool
  /-- staged until an outer CBCLOSE (R314) -/
  staged : Bool
  deriving DecidableEq, Repr

/-- Where a guard request is (R115 to R120): in the tile, parked at its entry port, translated and on its way to its
home port, in the FIFO there, answered with a cause or, for a grant, the translation that granted it. -/
inductive GuardStage where
  | inTile
  | parked (port : Nat) (idx : Nat) (seqn : Nat) (cause : Cause)
  | sent (x : Xlat)
  | queued (x : Xlat)
  | answered (cause : Option Cause) (x : Option Xlat)
  deriving DecidableEq, Repr

/-- One ACQ or REL of a tile: guard address, the guard line a REL carries once its hold was granted, with its key slot
(R118), mode, tag, stage; a park notice delivered, or waiting to be (R75). -/
structure GuardReq where
  seq : Nat
  rel : Bool
  va : Nat
  pa : Option Xlat
  shared : Bool
  tag : BitVec 3
  stage : GuardStage
  notice : Bool
  noticed : Bool
  deriving DecidableEq, Repr

/-- An entry of the hold table (R115): guard address, mode, and once granted the physical guard line, with its key
slot. -/
structure Hold where
  va : Nat
  shared : Bool
  pa : Option Xlat
  deriving DecidableEq, Repr

/-- A copy template's fields as read at acceptance (Table 02-6). -/
structure Template where
  cursor : Nat
  ringln : Nat
  baraddr : Nat
  bar : Bool
  ring : Bool
  setf : Bool
  swz : Bool
  out : Bool
  sstride : Nat
  bstride : Int
  rowbytes : Nat
  rows : Nat
  spaddr : Nat
  vaddr : Nat
  rsvd : Nat
  deriving DecidableEq, Repr

/-- A copy in progress (R50, R256): its ID, template, rows performed and lines of the next one performed; the bytes and
poisoned granules of an outbound row, read once before its first line leaves. -/
structure CopyJob where
  id : Word
  seq : Nat
  tpl : Template
  row : Nat
  line : Nat
  data : List Byte
  poison : NatSet
  /-- since when its inbound line has stalled at a locked replica, and its translation (R79) -/
  lock : Option (Nat × Xlat)
  /-- parked access: port, retry index, sequence number -/
  parked : Option (Nat × Nat × Nat)
  /-- every row performed; the barrier decrement is still to come -/
  rowsDone : Bool
  complete : Bool
  /-- accepted while an ACQ issued before it was open: no row leaves until that has been answered (R117) -/
  held : Bool
  deriving DecidableEq, Repr

/-- One copy channel (R46, R47, R256). -/
structure CopyCh where
  issued : Word
  done : Word
  /-- the ID of the earliest faulting copy, while the channel is halted -/
  halted : Option Word
  jobs : List CopyJob
  deriving DecidableEq, Repr

/-- The copy engine and ceerr's report of the first halt (R257). -/
structure CopyEng where
  ch : Vector CopyCh 8
  fvalid : Bool
  fch : Nat
  fcause : Nat
  deriving DecidableEq, Repr

/-- A ring slot: free, reserved by an issued producer, or landed (R286). -/
inductive SlotSt where
  | free | reserved | landed
  deriving DecidableEq, Repr

/-- A tile ring (R285, R287). -/
structure Ring where
  defd : Bool
  first : Nat
  sizem1 : Nat
  pptr : Nat
  cptr : Nat
  slots : List SlotSt
  deriving DecidableEq, Repr

/-- An operation in an engine's queue with everything it sampled at issue (R280). -/
structure EOp where
  seq : Nat
  /-- its issue cycle -/
  issued : Nat
  inst : Instr
  tag : BitVec 3
  fmt : Word
  /-- shapes of t0 to t15 as sampled, for the directly named registers -/
  tsh : Vector Word 16
  /-- the v and s operands: scales, bases -/
  vec : VReg
  sc0 : Word
  sc1 : Word
  /-- hy0 to hy7; rnseed, rnstep, rnstream, rnkeep -/
  hy : Vector Word 8
  rn : List Word
  info : SlotInfo
  deriving DecidableEq, Repr

/-- What a fired operation writes when it completes. -/
inductive EWrite where
  | tile (r : Nat) (bytes : List Byte)
  | ring (n : Nat) (slot : Nat) (r : Nat) (bytes : List Byte)
  | acc (z : Nat) (x : ZAcc)
  deriving DecidableEq, Repr

/-- A fired operation (R282, R300): when its resource is free again, when it completes, when its tag is released, and
what it writes. `block` is the containment block's issue order it was discarded from (R316). -/
structure EFired where
  op : EOp
  fired : Nat
  busyTo : Nat
  done : Nat
  tagAt : Nat
  writes : List EWrite
  /-- z registers it writes or reads, for the scoreboard -/
  zs : List Nat
  fault : Option Cause
  dropped : Bool
  deriving DecidableEq, Repr

/-- One engine: its queue of 8 and its fired operations (R280, R281). -/
structure Eng where
  queue : List EOp
  fired : List EFired
  deriving DecidableEq, Repr

/-- The matrix array's own state (R288, R295). -/
structure Mx where
  active : Vector (BitVec 16) 256
  shadow : Vector (BitVec 16) 256
  wvalid : Bool
  /-- a shadow block is loaded and not yet active; the cycle its loader is done (R289) -/
  loaded : Bool
  loadDone : Nat
  /-- spare row in use; a logical row has failed beyond it (R295) -/
  spareUsed : Bool
  failed : Bool
  z : Vector ZAcc 4
  deriving DecidableEq, Repr

/-- The four engines, the array, the rings and the detector strikes waiting to be found (R301). -/
structure Engines where
  mx : Eng
  xp : Eng
  up : Eng
  rn : Eng
  arr : Mx
  rings : Vector Ring 8
  strikes : List (Engine × Cause)
  deriving DecidableEq, Repr

/-- Outbound channel state (Table 04-3) with its route entry (R84). -/
structure OutCh where
  entry : DWord
  credit : Nat
  seq : Word
  dead : Bool
  deriving DecidableEq, Repr

/-- Inbound channel state (Table 04-4) with its route entry (R86): `once` is set by the first binding of the task
(R308), `broken` by a receive error (R94). -/
structure InCh where
  entry : DWord
  bound : Bool
  binding : BitVec 128
  rcnt : Word
  free : Word
  once : Bool
  broken : Bool
  /-- the optical port that the sender's traffic comes by, once something has come (R97) -/
  port : Option Nat
  deriving DecidableEq, Repr

/-- A tree at this router: its entry (R99), the tile's round counter (R100), the router's round, inputs and timer
(R101, R102), and the held root result. -/
structure Tree where
  entry : DWord
  count : Nat
  round : Nat
  /-- inputs held, by port in the order local, W, N, E, S -/
  inputs : List (Port × List Word)
  timer : Nat
  held : Option (List Word)
  /-- rounds whose abandonment reached the tile before its CHRED (R102, R309) -/
  abandoned : List Nat
  deriving DecidableEq, Repr

/-- A tile as the end of a channel: on this wafer, or on a peer wafer through an optical port (R84, R97). -/
structure Dest where
  /-- optical port and wafer ID of a remote end -/
  remote : Option (Nat × Nat)
  coord : Coord
  deriving DecidableEq, Repr

/-- The header of a packet or remote arrival (R88): its ends, channels, sequence number, virtual channel, order of
dimensions. -/
structure PHead where
  src : Dest
  dst : Dest
  och : Nat
  ich : Nat
  seq : Word
  vc : Nat
  yx : Bool
  deriving DecidableEq, Repr

/-- What the tile and its router exchange with other parties. A `bad` packet fails its end-to-end CRC (R94). -/
inductive Msg where
  | packet (h : PHead) (payload : List Byte) (poison : NatSet) (bad : Bool)
  | arrival (h : PHead) (addr : Word) (count : Nat) (tag : BitVec 3)
  | credit (dst : Dest) (och : Nat) (n : Nat)
  | notice (dst : Dest) (och : Nat) (seq : Word) (cause : Cause) (tag : BitVec 3)
  | result (dst : Dest) (och : Nat) (seq : Word) (tag : BitVec 3) (cause : Option Cause)
  | partial_ (dst : Coord) (tree : Nat) (port : Port) (round : Nat) (data : List Word)
  | abandon (dst : Coord) (tree : Nat) (port : Option Port) (round : Nat)
  | portw (src : Coord) (acc : Nat) (data : List Byte)
  | crc (dst : Coord) (key : Nat) (crc : Word)
  | ack (src : Coord) (u : TUnit)
  | token (key : Nat)
  deriving DecidableEq, Repr

/-- A message on its way: where it is, whether it has arrived, the hops left in each dimension, its virtual channel. -/
structure Flit where
  msg : Msg
  at_ : Coord
  arrived : Bool
  dx : Int
  dy : Int
  yx : Bool
  resends : Nat
  deriving DecidableEq, Repr

/-- An effect held back by a containment block (Table 14-4). -/
inductive Staged where
  | packet (och : Nat) (payload : List Byte) (poison : NatSet)
  | arrival (och : Nat) (addr : Word) (count : Nat) (tag : BitVec 3)
  | store (acc : Nat)
  | start (ch : Nat) (index : Nat)
  deriving DecidableEq, Repr

/-- A CHSENDM whose source port B still reads, or whose hand-off is still to come (R305, R306): its issue order and cycle, its
channel, its source, whether a granule becomes empty as it is read, what has been read, the headers of its packets (none when
they are staged); or messages and staged effects of later sends of its channel, which wait behind it (`len` 0). -/
structure SendOp where
  seq : Nat
  issued : Nat
  ch : Nat
  addr : Nat
  len : Nat
  take : Bool
  data : List Byte
  poison : NatSet
  heads : Option (List PHead)
  msgs : List Msg
  effs : List Staged
  /-- handed to the router or staged; the cycle of its hand-off (R90) -/
  gone : Bool
  done : Nat
  deriving DecidableEq, Repr

/-- The checkpoint of CBOPEN (R313): physical registers, rrb, lc, ec, stacks. -/
structure Checkpoint where
  s : Vector Word 32
  a : Vector Word 16
  p : Vector Bool 8
  rrb : Nat
  lc : Word
  ec : Word
  rstk : List Word
  lstk : List (Word × Word)
  deriving DecidableEq, Repr

/-- An open containment block: handler, physical cause register, checkpoint, issue order of the CBOPEN, staged effects
with their order. -/
structure Block where
  handler : Word
  creg : Nat
  chk : Checkpoint
  seq : Nat
  staged : List Staged
  /-- its effects have gone to the pair's comparison (R315), and how many of them -/
  submitted : Bool
  sub : Nat := 0
  deriving DecidableEq, Repr

/-- A held item or a shadow CRC of a paired tile (R143): its key, the CRC, the item when it is one, and when it was
formed. -/
structure PairItem where
  key : Nat
  crc : Word
  item : Option Msg
  at_ : Nat
  /-- matched, and held back until every item of its block's close has matched (R315) -/
  matched : Bool
  group : Bool
  deriving DecidableEq, Repr

/-- Pairing of a tile (R142): whether it is the primary or the shadow, its partner, what its router holds, the keys of
requests that have matched and may leave, and per inbound channel the credits sent for both. -/
structure Pair where
  primary : Bool
  partner : Coord
  held : List PairItem
  ok : List Nat
  sent : List (Nat × Nat)
  deriving DecidableEq, Repr

/-- A stint of a node on a physical tile (R379): context, nodeid, Hearth FRAME at its start, FRAME and HOW at its end;
per outbound channel and per copy channel the first and the last number (the last as it stood at the start while the stint
is open); the optical ports of remote channels that sent. -/
structure Stint where
  ctx : Nat
  nodeid : Nat
  start : Nat
  fin : Option (Nat × Nat)
  ch : List (Nat × Nat)
  copy : List (Nat × Nat)
  oports : Nat
  deriving DecidableEq, Repr

/-- The reliability record of a physical tile (R295, R369, R370, R376 to R379). -/
structure Health where
  /-- stints since the last pass, the oldest first; an older one was dropped -/
  stints : List Stint
  dropped : Bool
  /-- Hearth FRAME of the last pass -/
  lastPass : Nat
  suspect : Bool
  /-- its stage replays, each by the cycle of the tile's task in which it counts no more, 2^20 cycles later (R370); while no task is
  there by the cycles that are left to it; a SHADOWREP since the last pass -/
  replays : List Nat
  reported : Bool
  /-- the matrix array uses its spare row; a row has failed beyond it -/
  spareUsed : Bool
  rowsFailed : Bool
  deriving DecidableEq, Repr

/-- A tile that has never been tested (R377). -/
def Health.zero : Health := ⟨[], false, 0, false, [], false, false, false⟩

/-- A trap record a tile or a Hearth has to write (R334): source, causes, fault address, INFO, pc ÷ 4, cycle count,
whether the node fails. -/
structure TRec where
  src : Nat
  cause : Cause
  cause2 : Nat
  faddr : DWord
  info : DWord
  pc : Nat
  cycle : Nat
  fatal : Bool
  /-- the cause code as a handler has written it (R332) -/
  raw : Option Nat := none
  deriving DecidableEq, Repr

/-- One tile. -/
structure Tile where
  /-- logical coordinate and physical position (R8, R10) -/
  coord : Coord
  pos : Pos
  files : Files
  ctl : Ctl
  sch : Sched
  pad : Pad
  copy : CopyEng
  eng : Engines
  outs : Vector OutCh 32
  ins : Vector InCh 32
  trees : Vector Tree 8
  accs : List BulkAcc
  guards : List GuardReq
  holds : List Hold
  lists : List ListOp
  blocks : List Block
  /-- memory sends in progress, the oldest first -/
  sends : List SendOp
  pair : Option Pair
  health : Health
  acks : List TUnit
  /-- messages handed to the router, oldest first -/
  out : List Msg
  /-- trap records the tile has to report (R330, R332) -/
  recs : List TRec
  /-- errors counted since the region took the counts (R367), by cause; none: corrected errors -/
  counts : List (Option Cause × Nat)
  /-- its other detectors under injection (R374, R375) -/
  inj : Inject
  /-- errors in the core's files not yet met: how many correctable ones, and whether an uncorrectable one (R366) -/
  fileSoft : Nat
  fileBad : Bool
  /-- how many free values the tile has drawn -/
  free : Nat
  deriving DecidableEq, Repr

/-- Register files at launch: all zero (R135). -/
def Files.zero : Files :=
  { s := Vector.replicate 32 0#32
    a := Vector.replicate 16 0#32
    p := Vector.replicate 8 false
    v := Vector.replicate 28 (Vector.replicate 16 0#32)
    t := Vector.replicate 16 [] }

/-- A clear accumulator (R161). -/
def ZAcc.zero : ZAcc := ⟨Vector.replicate 256 ⟨0#56, 0#32, false, 0⟩, false, 0⟩

/-- Sequencing at launch: nothing in progress, traps unmasked (R135). -/
def Sched.zero : Sched :=
  { pc := 0#32, cycle := 0, ready := 0, waited := 0, stall := none, seq := 0
    tags := Vector.replicate 8 .free, flights := [], vops := [], links := Vector.replicate 4 none
    rstk := [], lstk := [], tm := false, tmSeq := 0, pend := [], captured := []
    capLinks := Vector.replicate 4 none, capFin := 0, own := [], cbdAtTrap := 0, xfer := none, cost := 0, alloc := []
    closing := [], freshAt := 0, fresh := [], status := .idle }

/-- Control registers at launch without presets (Table 07-5, R135). -/
def Ctl.zero : Ctl :=
  { fmt := 0#32, fmtNext := [], vbud := 28, rrb := 0, lc := 0#32, ec := 0#32, tvec := 0#32, febound := 0#32
    ovflo := 0#32, ovfhi := 0#32, spcarve := 0#32, ctbase := 0#32, barbound := 0#32
    tsh := Vector.replicate 16 0#32, coordrow := 0#32, coordcol := 0#32, rank := 0#32, nodeid := 0#32
    ctxid := 0#32, bb := Vector.replicate 8 0#64, rnseed := 0#32, rnstep := 0#32, rnstream := 0#32
    rnkeep := 0#32, hy := Vector.replicate 8 0#32, cyclehi := 0#32 }

/-- Scratchpad at launch: zero, empty, clean (R134, R135). -/
def Pad.zero : Pad :=
  { mem := [], full := [], poison := [], bad := [], soft := [], code := [], codeBad := [], codeSoft := [], queue := [], buf := [], inj := ⟨0, false, []⟩ }

/-- The copy engine at launch (R47). -/
def CopyEng.zero : CopyEng := ⟨Vector.replicate 8 ⟨0#32, 1#32, none, []⟩, false, 0, 0⟩

/-- The engines at launch (R288, R287; entry 3). -/
def Engines.zero : Engines :=
  { mx := ⟨[], []⟩, xp := ⟨[], []⟩, up := ⟨[], []⟩, rn := ⟨[], []⟩
    arr := { active := Vector.replicate 256 0#16, shadow := Vector.replicate 256 0#16, wvalid := false
             loaded := false, loadDone := 0, spareUsed := false, failed := false, z := Vector.replicate 4 ZAcc.zero }
    rings := Vector.replicate 8 ⟨false, 0, 0, 0, 0, []⟩
    strikes := [] }

/-- A tile that nothing has been launched on, at a coordinate and a position. -/
def Tile.zero (c : Coord) (p : Pos) : Tile :=
  { coord := c, pos := p, files := Files.zero, ctl := Ctl.zero, sch := Sched.zero, pad := Pad.zero
    copy := CopyEng.zero, eng := Engines.zero
    outs := Vector.replicate 32 ⟨0#64, 0, 0#32, false⟩
    ins := Vector.replicate 32 ⟨0#64, false, 0#128, 0#32, 0#32, false, false, none⟩
    trees := Vector.replicate 8 ⟨0#64, 0, 0, [], 0, none, []⟩
    accs := [], guards := [], holds := [], lists := [], blocks := [], sends := [], pair := none
    health := Health.zero
    acks := [], out := [], recs := [], counts := [], inj := ⟨0, false, []⟩, fileSoft := 0, fileBad := false, free := 0 }

end Sys2Proof.Machine
end

