-- ==== Sys2Proof/Machine/Device.lean ====
section
/-! DEFINITION. The state of the device around its tiles: bulk memory, Flue ports, Hearths, queues, graphs and nodes,
regions, host ports, Kiln, management port, optical ports and power. -/

namespace Sys2Proof.Machine

/-- A loaded key slot: its number, the context it is bound to, its key material (which generation), and whether a KUNLOAD
waits for the ports to drain (R76, R399). -/
structure KeySlot where
  slot : Nat
  ctx : Nat
  material : Nat
  unloading : Bool
  deriving DecidableEq, Repr

/-- A line of host memory that was written under a key: port, line address, key material, its plain bytes and the
ciphertext the host holds (R76). -/
structure HostSeal where
  port : Nat
  line : Nat
  material : Nat
  plain : List Byte
  cipher : List Byte
  deriving DecidableEq, Repr

/-- An entry of a port's retry ring (R72): its index and SEQ, the tile, the access by issue order or the copy channel,
the cause. -/
structure RetryEntry where
  idx : Nat
  seqn : Nat
  who : Coord
  acc : Nat
  copy : Option Nat
  cause : Cause
  deriving DecidableEq, Repr

/-- One Flue port (R58, R62, R72). -/
structure FluePort where
  seqn : Nat
  retry : List RetryEntry
  deriving DecidableEq, Repr

/-- A table word a port has cached: port, context, address, value (R68). -/
structure Cached where
  port : Nat
  ctx : Nat
  addr : Nat
  val : Nat
  deriving DecidableEq, Repr

/-- A lock a failed home port has left on a replica line (R79). -/
structure LineLock where
  home : Nat
  line : Nat
  deriving DecidableEq, Repr

/-- A fault record that waits for ring space: context, port and the record as a number (R73). -/
structure HeldFault where
  ctx : Nat
  port : Nat
  bits : Nat
  deriving DecidableEq, Repr

/-- A trap record on its way to its context's ring (R334, R335): everything but RSEQ, which the ring gives; and the
graph node whose failure it belongs to. -/
structure TrapRec where
  ctx : Nat
  src : Nat
  cause : Cause
  cause2 : Nat
  fatal : Bool
  region : Nat
  coord : Coord
  nodeid : Nat
  queue : Nat
  pc : Nat
  faddr : DWord
  info : DWord
  cycle : Nat
  /-- the cause code as a handler has written it (R332) -/
  raw : Option Nat
  deriving DecidableEq, Repr

/-- A trap ring of a context (R335): how many records it has taken, the records that wait, whether RINGLOST is due. -/
structure TrapRing where
  ctx : Nat
  count : Nat
  held : List TrapRec
  deriving DecidableEq, Repr

/-- A waiting acquire at its home port (R116): guard line, tile, issue order there, mode, who, deadline in µs. -/
structure GuardWait where
  line : Nat
  who : Coord
  seq : Nat
  shared : Bool
  ctx : Nat
  nodeid : Nat
  deadline : Option Nat
  deriving DecidableEq, Repr

/-- A packet in a queue's table (R344, R351): a number of its own, its 64 bytes as a number, its index in the ring or none
for one from an indirect buffer, the IBCALLs it came by, the innermost first (R355); whether it has started and completed,
the frame it was taken in, what it waits for (graphs, nodes or requests), and for a started IBCALL the address and number of
the packets of its buffer still to be taken. -/
structure Packet where
  uid : Nat
  bits : Nat
  ix : Option Nat
  calls : List Nat
  started : Bool
  done : Bool
  frame : Nat
  waits : List Nat
  rest : Nat × Nat
  deriving DecidableEq, Repr

/-- A submission queue that a Hearth serves (R346 to R353): its count of packets taken and the one published, state (Table
17-2), the descriptor as read last, its packets not yet complete, whether a publication is due; whether the count has still to be read from RDPUB (R346); packets
to be passed over when they are met again, for they have been taken before (R362; entry 72). -/
structure Queue where
  q : Nat
  rd : Nat
  rdpub : Nat
  state : Nat
  en : Bool
  desc : Nat
  packets : List Packet
  pubDue : Bool
  fresh : Bool
  skip : List Nat
  deriving DecidableEq, Repr

/-- What has become of a node (R134 to R141, R337). -/
inductive NodeSt where
  | waiting | ready | claimed | loading | running | stopping | saving | saved | complete | failed
  deriving DecidableEq, Repr

/-- A rectangle of logical tiles, by its bounds. -/
structure Rect where
  rowlo : Nat
  rowhi : Nat
  collo : Nat
  colhi : Nat
  deriving DecidableEq, Repr

/-- A node of a graph (R129 to R141). -/
structure Node where
  id : Nat
  graph : Nat
  index : Nat
  /-- the 128-byte record as a number (Table 06-1), and the address it is read from -/
  bits : Nat
  va : Nat
  succ : List Nat
  left : Nat
  st : NodeSt
  place : Rect
  shadow : Option Rect
  aged : Nat
  lent : Nat
  /-- frame of the last ageing step -/
  agedAt : Nat
  /-- held unplaced by a PREEMPT packet until a RESUME (R353); stopped again once running (R140) -/
  held : Bool
  stopDue : Bool
  /-- regions that have reported stopped -/
  stoppedRegions : List Nat
  /-- its save image, messages that were on their way to its tiles, and its run of save-pool slots (R96, R339, R340) -/
  image : List Tile
  kept : List Flit
  slots : Option (Nat × Nat)
  /-- the placement and shadow placement it was saved at (R96, R341) -/
  home : Rect
  homeShadow : Option Rect
  /-- one more than the code of the cause of its failure, for the graph status (R139) -/
  cause : Nat
  deriving DecidableEq, Repr

/-- A task graph taken from a queue (R354). -/
structure Graph where
  id : Nat
  queue : Nat
  ctx : Nat
  gseq : Nat
  statva : Option Nat
  nfail : Nat
  ndone : Nat
  fcause : Nat
  fnode : Nat
  ended : Bool
  /-- the fmt preset that a refinement loop appends (R364) -/
  ladder : Option Word
  deriving DecidableEq, Repr

/-- The steps of the refinement loop (R365). -/
inductive LoopAt where
  | fact | solv | res | corr
  deriving DecidableEq, Repr

/-- A refinement loop in progress (R363 to R365): its packet's queue and the block's address and value, the graph that
runs, and the loop's variables. -/
structure LoopCtl where
  queue : Nat
  /-- its packet's own number -/
  uid : Nat
  ctx : Nat
  blkva : Nat
  blk : Nat
  graph : Nat
  at_ : LoopAt
  lvl : Nat
  iter : Nat
  k : Nat
  prev : Option Nat
  norm : Nat
  /-- the byte of the block that holds EXIT and LEVEL, as last read or written -/
  shown : Nat
  deriving DecidableEq, Repr

/-- A row record of a region map (Table 01-1). -/
structure RowRec where
  state : Nat
  lrow : Nat
  qmask : Nat
  posmap : Nat
  deriving DecidableEq, Repr

/-- A Hearth's checkpoint (R345): its queue tables; the graph state of the graphs that they run, with their nodes' states,
predecessors left and ages, and the refinement loops; and how far the launches that it leads have come, which the nodes' states
say. -/
structure HearthCheck where
  queues : List Queue
  graphs : List Graph
  nodes : List (Nat × NodeSt × Nat × Nat)
  loops : List LoopCtl
  deriving DecidableEq, Repr

/-- A shift migration (R20 to R24): its number, row segment, failing and spare positions, the moved tiles' coordinates,
whether it has started its Stop step, and when; the nodes whose tiles it stops. -/
structure Migration where
  k : Nat
  region : Nat
  prow : Nat
  fail : Nat
  spare : Nat
  moved : List Coord
  started : Bool
  since : Nat
  nodes : List Nat
  /-- one of the tiles it moves has failed (R24) -/
  failed : Bool
  deriving DecidableEq, Repr

/-- An exposure report that waits for a slot or has just been formed (R380, R381). -/
structure Exposure where
  region : Nat
  bytes : List Byte
  ctxs : List Nat
  deriving DecidableEq, Repr

/-- One region: map, Hearth, counters, power (R12, R345, R371, R374, R402). -/
structure Region where
  gen : Nat
  rows : List RowRec
  holes : List Coord
  frame : Nat
  hstate : Nat
  adopter : Nat
  missed : Nat
  /-- its Hearth's last checkpoint (R345) -/
  check : HearthCheck
  /-- correctable errors in its Hearth's memory not yet met (R366) -/
  hearthSoft : Nat
  injcnt : Nat
  cbaborts : Nat
  shrepl : Nat
  linkrty : Nat
  uecnt : Nat
  cecnt : Nat
  /-- CECNT + SHREPL when the window began -/
  atWindow : Nat
  rate : Nat
  pft : Nat
  quar : Nat
  retire : Bool
  forcenom : Bool
  pftset : Nat
  /-- the last window was over the threshold at nominal voltage; windows in a row at most half of it -/
  above : Bool
  calm : Nat
  /-- below nominal voltage -/
  under : Bool
  injctl : DWord
  ceil : Nat
  req : Nat
  grant : Nat
  fstep : Nat
  therm : Bool
  gated : Bool
  /-- the threshold that its hottest junction has reached, in degrees Celsius; 0 below 95 (R404) -/
  junction : Nat
  /-- tiles that carry nothing now and their reliability records; suspects first in Lichen's rotation -/
  idle : List (Pos × Health)
  /-- positions with a failed unit and positions whose bypass failed, as the march tests would find them (R12) -/
  defects : List Pos
  bypassBad : List Pos
  /-- the march tests of its tiles are done and its map is still to be built (R12) -/
  tested : Bool
  /-- Lichen passes in progress, and passes asked for by packets, the oldest first: position and the packet's own number (R376) -/
  passes : List Pos
  wanted : List (Pos × Nat)
  /-- where Lichen's rotation stands: local row times 128 and position -/
  rot : Nat
  deriving DecidableEq, Repr

/-- One ready record (Table 21-2); its other fields follow from the state. -/
structure Ready where
  ready : Bool
  busy : Bool
  failed : Bool
  retired : Bool
  /-- a region's map state, a host port's link width, an optical port's LINKUP and SECURE -/
  kstate : Nat
  entry : Nat
  pcount : Nat
  uecnt : Nat
  peer : Nat
  rframe : Nat
  deriving DecidableEq, Repr

/-- The BAR0 registers of the device that are not of one port (Table 21-1). -/
structure Bar0 where
  ctxbase : Nat
  qtbase : Nat
  apbase : Nat
  modcap : Nat
  waferid : Nat
  seccnt : Nat
  deriving DecidableEq, Repr

/-- The mailbox of a port (R399): request, status, response. -/
structure Mailbox where
  kreq : Memory
  kstat : Nat
  kresp : List Byte
  deriving DecidableEq, Repr

/-- The management port (R393): index, dynamic address, whether in-band interrupts are enabled, the nonce, the status and
response of its KATTEST, interrupts raised and not yet taken. -/
structure Mgmt where
  index : Nat
  dyn : Option Nat
  events : Bool
  nonce : Memory
  kstat : Nat
  kresp : List Byte
  ibi : List Byte
  /-- what the last command returned on the bus; none for one not acknowledged -/
  answer : Option (List Byte)
  deriving DecidableEq, Repr

/-- Firmware and key state of the Kiln (R397 to R400). -/
structure Kiln where
  /-- commands in the order of their doorbells: port (4 the management port) and code -/
  pending : List (Nat × Nat)
  keys : List KeySlot
  /-- key material there has been so far; number 0 is that of key slot 0 (R76) -/
  material : Nat
  config : Option KConfig
  operator : Option (List Byte)
  enrolCount : Nat
  svn : Nat
  rollback : Nat
  firmware : List Byte
  firmwareOk : Bool
  leaf : Nat
  /-- what verification finds in the container that bring-up starts from (entry 12) -/
  boot : Verdict
  deriving DecidableEq, Repr

/-- Power input and coolant (R403, R404). -/
structure Power where
  on : Bool
  capped : Bool
  shutdown : Bool
  mv : Nat
  deriving DecidableEq, Repr

/-- The device around the tiles. -/
structure Device where
  /-- µs since the device was last reset -/
  now : Nat
  /-- free values drawn by the device -/
  free : Nat
  /-- messages in the fabric, and what left for peer wafers -/
  net : List Flit
  remoteOut : List Msg
  down : List (Coord × Dir)
  /-- the virtual channel below ctl that a link end served last (R82) -/
  turns : List (Coord × Dir × Nat)
  /-- consecutive failed resends by link end -/
  resends : List (Coord × Dir × Nat)
  /-- consecutive frames of an optical port's link whose tag failed (R401) -/
  frames : List (Nat × Nat)
  /-- routers whose buffer holds a correctable and an uncorrectable error that the next flit to leave meets (R366) -/
  bufSoft : List Coord
  bufBad : List Coord
  /-- HBM by direct-window address; what seals each line; poisoned lines, lines with an uncorrectable and with a correctable
  error (R59, R76, R77) -/
  hbm : Memory
  seals : List (Nat × Nat)
  poison : NatSet
  bad : NatSet
  soft : NatSet
  hosts : Vector Memory 4
  hostSeals : List HostSeal
  ports : List FluePort
  cache : List Cached
  locks : List LineLock
  faults : List HeldFault
  rings : List TrapRing
  waits : List GuardWait
  queues : List Queue
  graphs : List Graph
  nodes : List Node
  nextId : Nat
  loops : List LoopCtl
  /-- PTR[0..23] (R359) -/
  ptr : List Nat
  regions : List Region
  migrations : List Migration
  exposures : List Exposure
  /-- ready records 0 to 139 (R395) -/
  ready : List Ready
  bar0 : Bar0
  boxes : Vector Mailbox 4
  /-- MSI-X messages sent: port and vector -/
  msix : List (Nat × Nat)
  /-- how the last BAR2 access completed: the data returned, and whether as Unsupported Request -/
  bar2 : Option (List Byte × Bool)
  mgmt : Mgmt
  kiln : Kiln
  power : Power
  deriving DecidableEq, Repr

/-- A row record that was never written (Table 01-1). -/
def RowRec.zero : RowRec := ⟨0, 0x7F, 0, 0⟩

/-- A region after device reset (Tables 17-1, 18-2, 18-3, 21-5). -/
def Region.zero (r : Nat) : Region :=
  { gen := 0, rows := List.replicate 128 RowRec.zero, holes := [], frame := 0, hstate := 0, adopter := r, missed := 0
    check := ⟨[], [], [], []⟩, hearthSoft := 0, injcnt := 0, cbaborts := 0, shrepl := 0, linkrty := 0, uecnt := 0, cecnt := 0, atWindow := 0, rate := 0, pft := 256
    quar := 0, retire := false, forcenom := false, pftset := 256, above := false, calm := 0, under := false
    injctl := 0#64, ceil := 160, req := 0, grant := 0, fstep := 12, therm := false, gated := false, junction := 0
    idle := [], defects := [], bypassBad := [], tested := false, passes := [], wanted := [], rot := 0 }

/-- A ready record at reset (Table 21-2). -/
def Ready.zero : Ready := ⟨false, false, false, false, 0, 0, 0, 0, 0, 0⟩

/-- A mailbox at reset (entry 6). -/
def Mailbox.zero : Mailbox := ⟨[], 0, []⟩

/-- The Kiln as it leaves manufacture (R400; entry 6). -/
def Kiln.zero : Kiln :=
  { pending := [], keys := [], material := 1, config := none, operator := none, enrolCount := 0, svn := 0, rollback := 0
    firmware := [], firmwareOk := false, leaf := 0, boot := ⟨true, true, 0, [], true⟩ }

/-- The device before power comes (entries 5 and 6; Table 21-1). -/
def Device.zero : Device :=
  { now := 0, free := 0, net := [], remoteOut := [], down := [], turns := [], resends := [], frames := [], bufSoft := [], bufBad := [], hbm := [], seals := [], poison := []
    bad := [], soft := [], hosts := Vector.replicate 4 [], hostSeals := [], ports := List.replicate 40 ⟨0, []⟩, cache := []
    locks := [], faults := [], rings := [], waits := [], queues := [], graphs := [], nodes := [], nextId := 0
    loops := [], ptr := List.replicate 24 0, regions := (upTo 64).map Region.zero, migrations := []
    exposures := [], ready := List.replicate 140 Ready.zero
    bar0 := ⟨0, 0, 0, 8000, 0, 0⟩, boxes := Vector.replicate 4 Mailbox.zero, msix := [], bar2 := none
    mgmt := ⟨0, none, false, [], 0, [], [], none⟩, kiln := Kiln.zero, power := ⟨false, false, false, 0⟩ }

end Sys2Proof.Machine
end

