-- ==== Sys2Proof/Machine/Due.lean ====
section
/-! DEFINITION. The steps of the device as they wait to be run: one for each row of the opcode table that is not a slot of a
bundle (entry 1). -/

namespace Sys2Proof

/-- A step of the device that waits on the agenda, with what it names: a tile by its coordinate, an access by its number
(entry 13), a node, queue, region, port or key slot by its number. -/
inductive Due where
  | invalidBundle (cause : Cause) (slot : BitVec 3)
  | storePerform (c : Coord)
  | copyRow (c : Coord) (ch : BitVec 3)
  | copyComplete (c : Coord) (ch : BitVec 3)
  | feWaitTimeout (c : Coord)
  | sendWaitTimeout (c : Coord)
  | barwaitTimeout (c : Coord)
  | producerLand (c : Coord)
  | vDecide (c : Coord)
  | engineFire (c : Coord) (e : Engine)
  | engineComplete (c : Coord) (e : Engine)
  | routeFlit (k : Nat)
  | linkResend (c : LinkEnd) (d : Dir)
  | linkDown (c : LinkEnd) (d : Dir)
  | receive (c : Coord) (ich : BitVec 5)
  | creditArrive (c : Coord) (och : BitVec 5)
  | sendFaultNotice (c : Coord) (och : BitVec 5)
  | remoteArrival (c : Coord) (ich : BitVec 5)
  | arrivalResult (c : Coord) (och : BitVec 5)
  | reductionInput (c : Coord) (j : BitVec 3) (p : Port)
  | heldResultDeliver (c : Coord) (j : BitVec 3)
  | roundAbandon (c : Coord) (j : BitVec 3)
  | abandonNotice (c : Coord) (j : BitVec 3)
  | bulkRequest (id : Nat)
  | faultRecordRelease (ctx : BitVec 8)
  | retryReplay (port : Nat) (word : DWord)
  | retryAbort (port : Nat) (word : DWord)
  | portwAtPort (id : Nat)
  | bulkPerform (id : Nat)
  | replicaCommit (id : Nat)
  | lockedReadResume (id : Nat)
  | lockedReadTimeout (id : Nat)
  | homeLockRelease (port : Nat)
  | hostTimeout (id : Nat)
  | requestAcceptTimeout (id : Nat)
  | externalLinkDrop (l : ExtLink)
  | bulkResponse (id : Nat)
  | acqAtHome (id : Nat)
  | guardWaitTimeout (id : Nat)
  | relDepart (id : Nat)
  | relAtHome (id : Nat)
  | guardResponse (id : Nat)
  | hearthGuardRelease (node : Nat)
  | pairCompare (c : Coord)
  | pairTimeout (c : Coord)
  | trapTake (c : Coord)
  | trapRecordRelease (ctx : BitVec 8)
  | containmentAbort (c : Coord)
  | preemptStop (c : Coord)
  | stopAck (c : Coord) (u : TUnit)
  | savePhase (node : Nat)
  | preemptComplete (node : Nat)
  | restore (node : Nat)
  | launchNode (node : Nat)
  | startMulticast (node : Nat)
  | tileStart (c : Coord)
  | nodeComplete (node : Nat)
  | nodeFail (node : Nat)
  | shiftMigration (c : Coord)
  | migrationRemap (k : Nat)
  | migrationTimeout (k : Nat)
  | hearthFrame (h : Nat)
  | hearthStop (h : Nat)
  | qbroken (q : Nat)
  | nopPacket (q : Nat)
  | launch (q : Nat)
  | ibcall (q : Nat)
  | signal (q : Nat)
  | waitv (q : Nat)
  | copy (q : Nat)
  | refine (q : Nat)
  | refineStep (q : Nat)
  | preemptPacket (q : Nat)
  | resume (q : Nat)
  | lichen (q : Nat)
  | mapsync (q : Nat)
  | rasWindow (r : Nat)
  | shadowReplay (c : Coord) (e : Engine)
  | lichenPassStart (c : Coord)
  | lichenPassEnd (c : Coord)
  | exposureReportWrite (q : Nat)
  | injctlWrite (req : Requester) (r : Nat) (v : DWord)
  | bringUp
  | fluePortBringUp (port : Nat)
  | regionBringUp (r : Nat)
  | mapBuild (r : Nat)
  | hostLinkUp (port : Nat)
  | opticalPortReady (port : Nat)
  | opticalLinkTrain (port : Nat)
  | opticalAttestExchange (port : Nat) (peer : PeerReport)
  | hostPortReset (port : Nat)
  | devrst (req : Requester) (v : DWord)
  | rreset (req : Requester) (v : DWord)
  | waferidWrite (req : Requester) (v : DWord)
  | registerWrite (req : Requester) (addr : Nat) (v : DWord)
  | bar2Access (port : Nat) (addr : Nat) (op : Bar2Op)
  | kattest (port : Nat)
  | kgen (port : Nat)
  | kunwrap (port : Nat)
  | kunload (port : Nat)
  | keySlotClear (slot : Nat)
  | kcfg (port : Nat)
  | kcommit (port : Nat)
  | kfwload (port : Nat)
  | mgmtKattest
  | i3cPrivateWrite (bytes : List Byte)
  | i3cPrivateRead (n : Nat)
  | entdaa (addr : BitVec 7)
  | setdasa (addr : BitVec 7)
  | rstdaa
  | enec (mask : Byte)
  | disec (mask : Byte)
  | getpid
  | getbcr
  | getdcr
  | getstatus
  | getmwl
  | getmrl
  | damperStep
  | voltageWarning
  | powerRemoval
  | thermalLimit (r : Nat)
  | coolantFlowShutdown
  | fluePortFailure (port : Nat)
  | unsupportedCcc (code : Byte)
  deriving DecidableEq, Repr

end Sys2Proof
end

