-- ==== Sys2Proof/Config.lean ====
section
/-! DEFINITION. The free values: what the manual leaves open. Each is a constant with no body, so nothing can be
proved of its value; the log entries name where each is used. -/

namespace Sys2Proof.Config

/-- A fresh 32-bit free value: who draws it (0 the device, else a tile by its position), and the counter `free` of the
state that draws it (entry 7). -/
opaque freeWord : Nat → Nat → Word

/-- A fresh free choice: timing, ordering or outcome the manual leaves open (entry 7). -/
opaque freeBit : Nat → Bool

/-- A fresh free byte string of the length asked for: ciphertext, keys, signatures, digests (entry 8). -/
opaque freeByte : Nat → Nat → Byte

/-- What the bytes of an encrypted line read as where no key opens them (R76): ciphertext by key material, line
address and byte (entry 8). -/
opaque cipherByte : Nat → Nat → Nat → Byte

/-- Whether a line that was not written under the key now used still passes its tag check (R76, entry 8). -/
opaque tagPasses : Nat → Nat → Bool

/-- The device serial number (R398, R400; entry 8). -/
opaque serial : DWord

/-- The silicon stepping of DEVID (Table 21-1; entry 8). -/
opaque stepping : Byte

/-- The answers of GETPID, GETBCR, GETDCR and GETSTATUS, which MIPI I3C fixes outside the manual (R393; entry 9):
the command code and the byte asked for. -/
opaque i3cAnswer : Nat → Nat → Byte

/-- The 32-bit CRC a shadow tile sends (R142; entry 10): the manual names no polynomial. -/
opaque crc32 : List Byte → Word

/-- The Damper's estimate: the highest clock step of a region that fits a grant, `none` when not even step 0 fits
(R402; entry 11). -/
opaque clockStep : Nat → Nat → Option (Fin 17)

/-- Where the device keeps what the ready records point to: the address, in units of 64 bytes, of item `k` of a region in its
system window: 0 the map, 1 the heartbeat line, 2 the RAS line, 3 the exposure reports (R17, R345, R371, R380; entry 15). -/
opaque windowAt : Nat → Nat → Nat

/-- What the Kiln finds in the firmware container at an address of bulk memory: its address and what bulk memory holds (R397;
entry 12). -/
opaque containerVerdict : Nat → List (Nat × Byte) → Verdict

/-- Whether a configuration bears both signatures of a pair of public keys: the digest of the pair, the configuration's bytes
(R399, R400; entry 12). -/
opaque configVerdict : List Byte → List Byte → Verdict

/-- What a configuration says, and the enrolment it carries, by its bytes: the manual gives no layout (R399, R400; entry
12). -/
opaque configOf : List Byte → KConfig

/-- The enrolment part of a configuration (R400; entry 12). -/
opaque enrolOf : List Byte → Option Enrol

/-- The digest of the Kiln's import key and the key itself, uncompressed (R398; entry 8). -/
opaque importByte : Nat → Byte

end Sys2Proof.Config
end

