-- ==== Sys2Proof/Machine/Regs.lean ====
section
/-! DEFINITION. Register files and control fields of a tile: rotation, reads, writes, tags, pending causes. The
hard-wired registers s0 and p0 live here (R146). -/

namespace Sys2Proof.Machine

/-- The physical register of a logical one: R149, for a rotating part of `n` registers from `f`. -/
def rotate (rrb f n r : Nat) : Nat := if r < f then r else f + (r - f + rrb) % n

/-- The physical s register (R149). -/
def rotS (rrb : Nat) (r : BitVec 5) : Nat := rotate rrb 16 16 r.toNat

/-- The physical v register (R149). -/
def rotV (rrb : Nat) (r : Nat) : Nat := rotate rrb 12 16 r

/-- The physical p register (R149). -/
def rotP (rrb : Nat) (r : BitVec 3) : Nat := rotate rrb 4 4 r.toNat

/-- A physical s register; s0 reads zero (R146). -/
def Files.getS (f : Files) (r : Nat) : Word := if r = 0 then 0#32 else (f.s[r]?).getD 0#32

/-- A physical p register; p0 reads true (R146). -/
def Files.getP (f : Files) (r : Nat) : Bool := if r = 0 then true else (f.p[r]?).getD false

/-- A physical a register. -/
def Files.getA (f : Files) (r : Nat) : Word := (f.a[r]?).getD 0#32

/-- A v register that holds zeros. -/
def vzero : VReg := Vector.replicate 16 0#32

/-- A physical v register. -/
def Files.getV (f : Files) (r : Nat) : VReg := (f.v[r]?).getD vzero

/-- A lane of a v register. -/
def lane (v : VReg) (i : Nat) : Word := (v[i]?).getD 0#32

/-- The `n` bytes of a tile register from its start. -/
def Files.getT (f : Files) (r n : Nat) : List Byte := ((f.t[r]?).getD []).bytes 0 n

/-- Performs a register write; writes to s0 and p0 are discarded (R146), and a write replaces the whole register but
for lane and masked writes (R153). -/
def Files.put (f : Files) (w : RegWrite) : Files :=
  match w with
  | .s r x => if r = 0 then f else { f with s := f.s.setIfInBounds r x }
  | .a r x => { f with a := f.a.setIfInBounds r x }
  | .p r x => if r = 0 then f else { f with p := f.p.setIfInBounds r x }
  | .v r x => { f with v := f.v.setIfInBounds r x }
  | .vLane r l x => { f with v := f.v.setIfInBounds r ((f.getV r).setIfInBounds l x) }
  | .vMask r m x =>
    { f with v := f.v.setIfInBounds r (Vector.ofFn fun i => if m.getLsbD i then x[i] else lane (f.getV r) i) }
  | .t r bytes => { f with t := f.t.setIfInBounds r (Memory.put ((f.t[r]?).getD []) 0 bytes) }

/-- Performs register writes in order. -/
def Files.putAll (f : Files) (l : List RegWrite) : Files := l.foldl Files.put f

/-- Whether two writes name one register. -/
def RegWrite.same : RegWrite → RegWrite → Bool
  | .s r _, .s r' _ => r == r'
  | .a r _, .a r' _ => r == r'
  | .p r _, .p r' _ => r == r'
  | _, _ => false

/-- The s register a field names, with the rrb in force. -/
def Tile.rs (t : Tile) (r : BitVec 5) : Word := t.files.getS (rotS t.ctl.rrb r)

/-- The a register a field names. -/
def Tile.ra (t : Tile) (r : BitVec 4) : Word := t.files.getA r.toNat

/-- The p register a field names. -/
def Tile.rp (t : Tile) (r : BitVec 3) : Bool := t.files.getP (rotP t.ctl.rrb r)

/-- The v register a field names. -/
def Tile.rv (t : Tile) (r : Nat) : VReg := t.files.getV (rotV t.ctl.rrb r)

/-- The write of an s register by name. -/
def Tile.ws (t : Tile) (r : BitVec 5) (x : Word) : RegWrite := .s (rotS t.ctl.rrb r) x

/-- The write of a p register by name. -/
def Tile.wp (t : Tile) (r : BitVec 3) (x : Bool) : RegWrite := .p (rotP t.ctl.rrb r) x

/-- The write of a v register by name. -/
def Tile.wv (t : Tile) (r : Nat) (x : VReg) : RegWrite := .v (rotV t.ctl.rrb r) x

/-- Replaces the sequencing state. -/
def Tile.withSch (t : Tile) (f : Sched → Sched) : Tile := { t with sch := f t.sch }

/-- Replaces the control registers. -/
def Tile.withCtl (t : Tile) (f : Ctl → Ctl) : Tile := { t with ctl := f t.ctl }

/-- Replaces the scratchpad state. -/
def Tile.withPad (t : Tile) (f : Pad → Pad) : Tile := { t with pad := f t.pad }

/-- Replaces the engines. -/
def Tile.withEng (t : Tile) (f : Engines → Engines) : Tile := { t with eng := f t.eng }

/-- A result of latency 1: the next bundle reads it, and no older result that lands in the same cycle replaces it
(R153, R154). -/
def Tile.write1 (t : Tile) (w : RegWrite) : Tile :=
  { t with
    files := t.files.put w
    sch := { t.sch with
      fresh := if t.sch.freshAt = t.sch.cycle + 1 then w :: t.sch.fresh else [w]
      freshAt := t.sch.cycle + 1 } }

/-- The writes of an older result that lands now: those to a register that a later bundle's result of this cycle has
already written are lost (R154). -/
def Tile.surviving (t : Tile) (l : List RegWrite) : List RegWrite :=
  if t.sch.freshAt = t.sch.cycle then l.filter fun w => !(t.sch.fresh.any fun f => f.same w) else l

/-- The write of a landing result made to the checkpoints of the blocks opened after its issue too (R313). -/
def Block.land (seq : Nat) (l : List RegWrite) (b : Block) : Block :=
  if seq < b.seq then
    let f := Files.putAll { Files.zero with s := b.chk.s, a := b.chk.a, p := b.chk.p } l
    { b with chk := { b.chk with s := f.s, a := f.a, p := f.p } }
  else b

/-- A result lands in its registers: whole registers in one cycle (R153). -/
def Tile.landWrites (t : Tile) (seq : Nat) (l : List RegWrite) : Tile :=
  { t with
    files := t.files.putAll (t.surviving l)
    blocks := t.blocks.map (Block.land seq l) }

/-- The state of a tag. -/
def Tile.tagSt (t : Tile) (n : Nat) : TagSt := (t.sch.tags[n]?).getD .free

/-- Whether a tag may be named: tag 0 always, another unless it is outstanding (R157). -/
def Tile.tagFree (t : Tile) (n : BitVec 3) : Bool := n == 0#3 || t.tagSt n.toNat != .outstanding

/-- Sets a tag's state; tag 0 is no tag. -/
def Tile.setTag (t : Tile) (n : Nat) (st : TagSt) : Tile :=
  if n = 0 then t
  else
    { t with sch := { t.sch with
        tags := t.sch.tags.setIfInBounds n st
        alloc := t.sch.alloc.filter (· != n)
        own := t.sch.own.filter (· != n) } }

/-- The bundle in issue allocates a tag (R157). -/
def Tile.allocTag (t : Tile) (n : BitVec 3) : Tile :=
  if n = 0#3 then t else { t with sch := { t.sch with alloc := n.toNat :: t.sch.alloc } }

/-- The tags the bundle in issue has allocated become outstanding. -/
def Sched.commitTags (c : Sched) : Sched :=
  { c with
    tags := c.alloc.foldl (fun v n => v.setIfInBounds n .outstanding) c.tags
    own := if c.tm then c.alloc ++ c.own else c.own
    alloc := [] }

/-- Whether a cause is a containment error (Table 14-5). -/
def isContainment (c : Cause) : Bool :=
  [Cause.specc, .sppoison, .bxtag, .bxecc, .chpoison, .engecc, .mxres, .mxspare, .xperr, .uperr, .rnerr, .pairmis,
    .rdtmo, .cbfull].elem c

/-- Adds to the tile's error counts (R367). -/
def addCount (c : Option Cause) (n : Nat) : List (Option Cause × Nat) → List (Option Cause × Nat)
  | [] => if n = 0 then [] else [(c, n)]
  | (x, m) :: l => if x = c then (x, m + n) :: l else (x, m) :: addCount c n l

/-- Counts an error (R367). -/
def Tile.count (t : Tile) (c : Cause) : Tile := { t with counts := addCount (some c) 1 t.counts }

/-- The tile halts and reports (R330, R331). -/
def Tile.halt (t : Tile) (r : TRec) : Tile :=
  { t with recs := t.recs ++ [r], sch := { t.sch with status := .halted, pend := [] } }

/-- A double trap: the tile halts with DBLTRAP, the carve-out keeps the first frame (R330). -/
def Tile.doubleTrap (t : Tile) (second : Cause) : Tile :=
  t.halt { src := 2, cause := .dbltrap, cause2 := second.code
           faddr := BitVec.ofNat 64 (t.pad.mem.val 0x2F028 8), info := BitVec.ofNat 64 (t.pad.mem.val 0x2F030 8)
           pc := bitsOf (t.pad.mem.val 0x2F000 8) 20 12, cycle := t.pad.mem.val 0x2F008 8, fatal := true }

/-- Inserts a cause behind every cause detected before it: by cycle of detection, then unit (R323). -/
def insertPending (p : Pending) : List Pending → List Pending
  | [] => [p]
  | q :: l => if p.at_ < q.at_ ∨ (p.at_ = q.at_ ∧ p.unit < q.unit) then p :: q :: l else q :: insertPending p l

/-- The events of a tile's own detectors that are counted when they are raised (Table 18-1, R367); the scratchpad's errors are
counted where an access finds them, and a pair's mismatch where the comparison is made. -/
def isDetected (c : Cause) : Bool :=
  [Cause.engecc, .mxres, .xperr, .uperr, .rnerr, .chcrc].elem c

/-- The events that mark a tile suspect (R369). -/
def isSuspect (c : Cause) : Bool := [Cause.mxres, .xperr, .uperr, .rnerr, .engecc, .pairmis].elem c

/-- A detector of the tile finds an event: it is counted, and may mark the tile suspect (R367, R369). -/
def Tile.detect (t : Tile) (c : Cause) : Tile :=
  let t := if isDetected c then t.count c else t
  if isSuspect c then { t with health := { t.health with suspect := true } } else t

/-- A cause found after issue waits for an unmasked boundary (R323). Raised by an instruction of the handler it is a
double trap, and so is a 33rd pending cause (R330). -/
def Tile.await (t : Tile) (c : Cause) (seq : Option Nat) (unit : Nat) (faddr info : DWord) : Tile :=
  if t.sch.tm && (match seq with
      | some n => decide (t.sch.tmSeq ≤ n)
      | none => false) then t.doubleTrap c
  else if t.sch.pend.length ≥ 32 then t.doubleTrap c
  else t.withSch fun s => { s with pend := insertPending ⟨c, faddr, info, s.cycle, unit, seq⟩ s.pend }

/-- A cause is found after issue, and its detector with it. -/
def Tile.raise (t : Tile) (c : Cause) (seq : Option Nat) (unit : Nat := 0) (faddr info : DWord := 0#64) : Tile :=
  (t.detect c).await c seq unit faddr info

/-- fmt in force: the value of the last SETFMT issued four cycles or more ago (R165). -/
def Ctl.settleFmt (c : Ctl) (cycle : Nat) : Ctl :=
  { c with
    fmt := (c.fmtNext.filter fun x => x.1 ≤ cycle).foldl (fun _ x => x.2) c.fmt
    fmtNext := c.fmtNext.filter fun x => cycle < x.1 }

/-- fmt.VPREC: whether V operations work in FP64 (Table 07-6). -/
def fmtPrec64 (f : Word) : Bool := f.getLsbD 2
/-- fmt.VRND. -/
def fmtRnd (f : Word) : Rnd := Rnd.ofCode (bitsOf f.toNat 3 2)
/-- fmt.MXIN. -/
def fmtMxin (f : Word) : Nat := bitsOf f.toNat 0 2
/-- fmt.MXO. -/
def fmtMxo (f : Word) : Nat := bitsOf f.toNat 5 3
/-- fmt.TRAPEN. -/
def fmtTrapen (f : Word) : Flags5 := BitVec.ofNat 5 (bitsOf f.toNat 8 5)

/-- The writable bits of a register; the others are reserved and ignore what is written (R5). -/
def ctlMask (n : Nat) : Word :=
  if n = 0x002 then 0xF#32
  else if n = 0x005 then 0x3FFC#32
  else if n = 0x008 then 0xFFFFFFC0#32
  else if n = 0x00A then 0x3FFFFFC0#32
  else if n = 0x00B then 0x3FFC0#32
  else if 0x010 ≤ n ∧ n < 0x020 then 0x00FF0F03#32
  else if n = 0x052 then 0xFF#32
  else 0xFFFFFFFF#32

/-- Writes a register that is held as a control field; the value is already accepted. -/
def Ctl.set (c : Ctl) (n : Nat) (x : Word) : Ctl :=
  let v := x &&& ctlMask n
  if n = 0x000 then { c with fmt := v }
  else if n = 0x001 then { c with vbud := v.toNat }
  else if n = 0x002 then { c with rrb := v.toNat }
  else if n = 0x003 then { c with lc := v }
  else if n = 0x004 then { c with ec := v }
  else if n = 0x005 then { c with tvec := v }
  else if n = 0x007 then { c with febound := v }
  else if n = 0x008 then { c with ovflo := v }
  else if n = 0x009 then { c with ovfhi := v }
  else if n = 0x00A then { c with spcarve := v }
  else if n = 0x00B then { c with ctbase := v }
  else if n = 0x00C then { c with barbound := v }
  else if 0x010 ≤ n ∧ n < 0x020 then { c with tsh := c.tsh.setIfInBounds (n - 0x010) v }
  else if 0x040 ≤ n ∧ n < 0x050 then
    let k := (n - 0x040) / 2
    let b := (c.bb[k]?).getD 0#64
    let y : DWord := if n % 2 = 0 then b.extractLsb' 32 32 ++ v else v ++ b.setWidth 32
    { c with bb := c.bb.setIfInBounds k y }
  else if n = 0x050 then { c with rnseed := v }
  else if n = 0x051 then { c with rnstep := v }
  else if n = 0x052 then { c with rnstream := v }
  else if n = 0x053 then { c with rnkeep := v }
  else if 0x058 ≤ n ∧ n < 0x060 then { c with hy := c.hy.setIfInBounds (n - 0x058) v }
  else c

/-- A halted channel starts anew: its stopped copies, the faulting one and every later one, are discarded, and cedone
passes every ID (R256). -/
def CopyCh.clear (c : CopyCh) : CopyCh :=
  { c with
    done := c.issued + 1#32
    halted := none
    jobs := match c.halted with
      | some f => c.jobs.filter fun j => decide (2 ^ 31 ≤ (j.id - f).toNat)
      | none => c.jobs }

/-- A write to ceerr: each bit written as 1 (R256, R257). -/
def CopyEng.clear (e : CopyEng) (v : Word) : CopyEng :=
  let e := if v.getLsbD 19 then { e with fvalid := false, fch := 0, fcause := 0 } else e
  { e with ch := Vector.ofFn fun i => if v.getLsbD i then e.ch[i].clear else e.ch[i] }

/-- SETC's write (R163, R225). -/
def Tile.setCtl (t : Tile) (n : Nat) (v : Word) : Tile :=
  if n = 0x038 then { t with copy := t.copy.clear v } else t.withCtl fun c => c.set n v

/-- Whether SETFMT refuses a value with FMTRES (R225). -/
def fmtRefused (w : Word) : Bool :=
  bitsOf w.toNat 21 11 != 0 || bitsOf w.toNat 13 3 != 0 || fmtMxin w == 3 || decide (fmtMxo w ≥ 4)
    || (fmtMxo w == 3 && fmtMxin w != 2)

/-- ORs exceptions into fmt.FLAGS (R165, R185). -/
def Ctl.orFlags (c : Ctl) (f : Flags5) : Ctl := { c with fmt := c.fmt ||| (f.setWidth 32 <<< 16) }

/-- The shape a shape register holds (Table 07-7). -/
def shapeOf (w : Word) : Shape := ⟨2 ^ bitsOf w.toNat 0 2, bitsOf w.toNat 8 4 + 1, bitsOf w.toNat 16 8⟩

/-- The bytes of a row. -/
def Shape.rowBytes (s : Shape) : Nat := s.ew * s.cols

/-- Whether a shape register's value is valid (R166). -/
def shapeValid (w : Word) : Bool :=
  let b := (shapeOf w).rowBytes
  bitsOf w.toNat 0 2 != 3 && b % 4 == 0 && decide (4 ≤ b) && decide (b ≤ 128) && bitsOf w.toNat 2 6 == 0
    && bitsOf w.toNat 12 4 == 0 && bitsOf w.toNat 24 8 == 0 && decide (1 ≤ (shapeOf w).cols)
    && decide ((shapeOf w).cols ≤ 128)

/-- The shape register of a tile register. -/
def Tile.tshOf (t : Tile) (r : Nat) : Word := (t.ctl.tsh[r]?).getD 0#32

/-- A free word (entry 7), of this tile. -/
def Tile.freeWord (t : Tile) : Word := 
  Config.freeWord (t.pos.region * 2 ^ 32 + t.pos.prow * 2 ^ 16 + t.pos.pos + 1) t.free

/-- Draws a free value. -/
def Tile.drawFree (t : Tile) : Tile := { t with free := t.free + 1 }

end Sys2Proof.Machine
end

