-- ==== Sys2Proof/Machine/VArith.lean ====
section
/-! DEFINITION. What each V instruction computes from its operands, lane by lane, and its latencies (R182 to R186, R263
to R275). Nothing here reads the tile: an operation keeps what it sampled at issue. -/

namespace Sys2Proof.Machine

/-- Sixteen lane values; an FP64 lane uses all 64 bits, any other lane the low 32. -/
abbrev Lanes := Vector DWord 16

/-- What a V operation delivers: lanes, a predicate for a decider, exceptions, whether it takes the bypass path (R183). -/
structure VOut where
  lanes : Lanes
  pred : Bool
  flags : Flags5
  bypass : Bool
  deriving DecidableEq, Repr

/-- The operands of a V instruction that are registers or links: codes A and B, and whether D is a third source; with the
flag that selects the budget vbud (R182). -/
structure VShape where
  a : Option (BitVec 5)
  b : Option (BitVec 5)
  third : Bool
  budgeted : Bool
  deriving DecidableEq, Repr

/-- The operands of a V instruction (R263 to R275). -/
def vShape : Instr → VShape
  | .vadd _ _ a b _ n | .vsub _ _ a b _ n | .vmul _ _ a b _ n | .vdiv _ _ a b _ n | .vmin _ _ a b _ n | .vmax _ _ a b _ n
  | .vmaxa _ _ a b _ n | .vdot _ _ a b _ n => ⟨some a, some b, false, n⟩
  | .vfma _ _ a b _ n | .vfms _ _ a b _ n | .vfnma _ _ a b _ n => ⟨some a, some b, true, n⟩
  | .vsqrt _ _ a _ n | .vrsqrt _ _ a _ n | .vrcp _ _ a _ n | .vabs _ _ a _ n | .vneg _ _ a _ n | .vred _ _ a _ n =>
    ⟨some a, none, false, n⟩
  | .vcmp _ _ a b _ => ⟨some a, some b, false, false⟩
  | .vthr _ _ _ _ a b _ => ⟨some a, some b, false, false⟩
  | .vsgn _ _ _ _ a _ => ⟨some a, none, false, false⟩
  | .vsel _ _ a b _ | .vclamp _ _ a b _ => ⟨some a, some b, true, false⟩
  | .viadd _ _ a b _ | .visub _ _ a b _ | .vimul _ _ a b _ | .vand _ _ a b _ | .vor _ _ a b _ | .vxor _ _ a b _
  | .vshuf _ _ a b _ => ⟨some a, some b, false, false⟩
  | .vimin _ _ a b _ _ | .vimax _ _ a b _ _ => ⟨some a, some b, false, false⟩
  | .vmov _ _ a _ | .viota _ _ a _ | .vrndb _ _ a _ => ⟨some a, none, false, false⟩
  | .vcvt _ _ a _ _ | .vshli _ _ a _ _ | .vshri _ _ a _ _ | .vsari _ _ a _ _ | .vbcst _ _ a _ _ | .vcmpi _ _ a _ _ =>
    ⟨some a, none, false, false⟩
  | _ => ⟨none, none, false, false⟩

/-- The budget of an operation, for its result and its latency: vbud where it asks for it, else 28 (R182). -/
def vFull (i : Instr) (vbud : Nat) : Nat := if (vShape i).budgeted then vbud else 28

/-- The budget that rounds: VRNDB always takes vbud (R265). -/
def vBudget (i : Instr) (vbud : Nat) : Nat :=
  match i with
  | .vrndb _ _ _ _ => vbud
  | i => vFull i vbud

/-- The kinds of the digit path, for latency and chaining (Table 07-3, R152). -/
inductive VKind where
  | add | mul | div | red | dot | clamp | cvt | int | move | decide
  deriving DecidableEq, Repr

/-- The kind of a V instruction. -/
def vKind : Instr → VKind
  | .vadd _ _ _ _ _ _ | .vsub _ _ _ _ _ _ | .vmin _ _ _ _ _ _ | .vmax _ _ _ _ _ _ | .vmaxa _ _ _ _ _ _ => .add
  | .vabs _ _ _ _ _ | .vneg _ _ _ _ _ => .add
  | .vmul _ _ _ _ _ _ | .vfma _ _ _ _ _ _ | .vfms _ _ _ _ _ _ | .vfnma _ _ _ _ _ _ => .mul
  | .vdiv _ _ _ _ _ _ => .div
  | .vsqrt _ _ _ _ _ | .vrsqrt _ _ _ _ _ | .vrcp _ _ _ _ _ => .div
  | .vred _ _ _ _ _ => .red
  | .vdot _ _ _ _ _ _ => .dot
  | .vclamp _ _ _ _ _ | .vrndb _ _ _ _ => .clamp
  | .vcvt _ _ _ _ _ => .cvt
  | .vmov _ _ _ _ => .move
  | .vcmp _ _ _ _ _ | .vsgn _ _ _ _ _ _ | .vthr _ _ _ _ _ _ _ => .decide
  | _ => .int

/-- The isolated latency (Table 07-3, Table 12-1, R265, R271, R273 to R275). -/
def VKind.latency (k : VKind) (prec64 : Bool) : Nat :=
  match k, prec64 with
  | .add, false => 5
  | .add, true => 9
  | .mul, false => 6
  | .mul, true => 10
  | .div, false => 9
  | .div, true => 16
  | .red, false => 7
  | .red, true => 11
  | .dot, false => 8
  | .dot, true => 12
  | .clamp, false => 3
  | .clamp, true => 4
  | .cvt, _ => 4
  | .int, _ => 2
  | .move, _ => 2
  | .decide, false => 3
  | .decide, true => 4

/-- The chain increment (R152, R275). -/
def VKind.chain : VKind → Nat
  | .mul => 2
  | .div => 3
  | _ => 1

/-- The full digit count D (Table 08-6). -/
def fullDigits (prec64 : Bool) : Nat := if prec64 then 28 else 13

/-- Latency under a budget: the isolated latency, shortened unless an operand is special (R152, R183). -/
def vLatency (k : VKind) (prec64 : Bool) (b : Nat) (bypass : Bool) : Nat :=
  let d := fullDigits prec64
  k.latency prec64 - if bypass then 0 else (d - Nat.min b d) / 4

/-- The format of a precision. -/
def precFmt (prec64 : Bool) : FFmt := if prec64 then f64 else f32

/-- A lane. -/
def ln (v : List DWord) (i : Nat) : Nat := (v.getD i 0#64).toNat

/-- Lanes and exceptions from a lane function. -/
def lanesOf (bypass : Bool) (f : Nat → Nat × Flags5) : VOut :=
  { lanes := Vector.ofFn fun i => BitVec.ofNat 64 (f i.val).1
    pred := false
    flags := (upTo 16).foldl (fun x i => x ||| (f i).2) 0#5
    bypass := bypass }

/-- Lanes of an operation that records no exception. -/
def plainLanes (f : Nat → Nat) : VOut := lanesOf false fun i => (f i, 0#5)

/-- Whether an operand holds a special value in any lane (R183). -/
def anySpecial (f : FFmt) (v : List DWord) : Bool := v.any fun x => (f.unpack x.toNat).special

/-- A VCVT lane (Table 12-5). -/
def cvtLane (code : Nat) (mode : Rnd) (x : Nat) : Nat × Flags5 :=
  match code with
  | 0 => let r := toInt32 mode (f32.unpack x); (r.1.toNat, r.2)
  | 1 => let r := toInt32 .rtz (f32.unpack x); (r.1.toNat, r.2)
  | 2 => (RCtx.full f32 mode).ofInt (sxt 32 x)
  | 3 => (RCtx.full f32 mode).ofInt (x % 2 ^ 32 : Nat)
  | 4 => (((RCtx.full f64 .rne).val (f32.unpack x)).1, 0#5)
  | 5 => (RCtx.full f32 mode).val (f64.unpack x)
  | 6 => (((RCtx.full f64 .rne).ofInt (sxt 32 x)).1, 0#5)
  | 7 => let r := toInt32 mode (f64.unpack x); (r.1.toNat, r.2)
  | 8 => (cvtBf16 x, 0#5)
  | 9 => (widenBf16 x, 0#5)
  | 10 => (cvtE4M3 x, 0#5)
  | _ => (widenE4M3 (x % 256), 0#5)

/-- Whether a VCVT code reads an FP64 pair, and whether it writes one (Table 12-5). -/
def cvtFrom64 (code : Nat) : Bool := code == 5 || code == 7
/-- Whether a VCVT code writes an FP64 pair. -/
def cvtTo64 (code : Nat) : Bool := code == 4 || code == 6

/-- An integer compare of VCMPI (R275): 0 eq, 1 ne, 2 lt, 3 ge, 4 ltu, 5 geu. -/
def icmp (cond : Nat) (x y : Word) : Bool :=
  match cond with
  | 0 => x == y
  | 1 => x != y
  | 2 => x.slt y
  | 3 => !x.slt y
  | 4 => x.ult y
  | _ => !x.ult y

/-- The immediate of VCMPI (R275). -/
def cmpImm : Imm 6 32 → Word
  | .short i => i.signExtend 32
  | .long v => v

/-- A mask lane (R260). -/
def maskLane (b : Bool) : Nat := if b then 0xFFFFFFFF else 0

/-- The test of VSGN and VTHR on one lane (R270). -/
def laneTest (i : Instr) (x y : FVal) : Bool :=
  match i with
  | .vsgn _ _ _ pos _ _ => if x.isNan then false else if pos then FVal.numLt (.zero false) x else x.numLt (.zero false)
  | .vthr _ _ _ ge _ _ _ => if ge then fcmp 5 x y else fcmp 4 x y
  | _ => false

/-- Whether a decider's mode is `all` (R270). -/
def isAll : Instr → Bool
  | .vsgn _ _ all _ _ _ => all
  | .vthr _ _ all _ _ _ _ => all
  | _ => false

/-- A word operation on lanes A and B. -/
def wordLanes (f : Word → Word → Word) (a b : List DWord) : VOut :=
  plainLanes fun i => (f ((a.getD i 0#64).setWidth 32) ((b.getD i 0#64).setWidth 32)).toNat

/-- Whether an instruction is of Table 12-1. -/
def isArith : Instr → Bool
  | .vadd _ _ _ _ _ _ | .vsub _ _ _ _ _ _ | .vmul _ _ _ _ _ _ | .vfma _ _ _ _ _ _ | .vfms _ _ _ _ _ _
  | .vfnma _ _ _ _ _ _ | .vdiv _ _ _ _ _ _ | .vsqrt _ _ _ _ _ | .vrsqrt _ _ _ _ _ | .vrcp _ _ _ _ _
  | .vmin _ _ _ _ _ _ | .vmax _ _ _ _ _ _ | .vabs _ _ _ _ _ | .vneg _ _ _ _ _ | .vmaxa _ _ _ _ _ _ => true
  | _ => false

/-- A lane of an instruction of Table 12-1 under a rounding: operands A, B and third source. A lane with a special operand
gives the IEEE result of R171, which no budget rounds (R183): its rounding is the caller's. -/
def vFpLane (i : Instr) (c : RCtx) (x y z : FVal) : Nat × Flags5 :=
  match i with
  | .vadd _ _ _ _ _ _ => c.add x y
  | .vsub _ _ _ _ _ _ => c.add x y.flip
  | .vmul _ _ _ _ _ _ => c.mul x y
  | .vfma _ _ _ _ _ _ => c.fma x y z
  | .vfms _ _ _ _ _ _ => c.fma x y z.flip
  | .vfnma _ _ _ _ _ _ => c.fma x.flip y z
  | .vdiv _ _ _ _ _ _ => c.div x y
  | .vsqrt _ _ _ _ _ => c.sqrt x
  | .vrsqrt _ _ _ _ _ => c.rsqrt x
  | .vrcp _ _ _ _ _ => c.rcp x
  | .vmin _ _ _ _ _ _ => c.min x y
  | .vmax _ _ _ _ _ _ => c.max x y
  | .vabs _ _ _ _ _ => c.val (x.withSign false)
  | .vneg _ _ _ _ _ => c.val x.flip
  | .vmaxa _ _ _ _ _ _ => c.maxa x y
  | _ => (0, 0#5)

/-- The format in which exact results are kept: far wider than any result of FP64 operands. -/
def exactFmt : FFmt := ⟨240, -8192, 8192, 239, 20⟩

/-- The exact result of a lane of Table 12-1 (R180), as a number of 240 bits: where those do not hold it, its last bit is 1 and
stands for what follows, so that it compares with every number of fewer bits as the exact result does. -/
def vExactLane (i : Instr) (x y z : FVal) : FVal :=
  let r := vFpLane i (RCtx.full exactFmt .rtz) x y z
  match exactFmt.unpack r.1 with
  | .fin s m e => .fin s (if r.2.getLsbD 0 then m ||| 1 else m) e
  | v => v

/-- The exact results of the lanes of an instruction of Table 12-1. -/
def vExact (i : Instr) (fmt : Word) (ops : List (List DWord)) : Vector FVal 16 :=
  let f := precFmt (fmtPrec64 fmt)
  let v (p k : Nat) : FVal := f.unpack (ln (ops.getD p []) k)
  Vector.ofFn fun k => vExactLane i (v 0 k) (v 1 k) (v 2 k)

/-- What a V instruction computes from the fmt and budget it sampled and its operands A, B and third source. -/
def vCompute (i : Instr) (fmt : Word) (bud : Nat) (ops : List (List DWord)) : VOut :=
  let p64 := fmtPrec64 fmt
  let f := precFmt p64
  let mode := fmtRnd fmt
  let a := ops.getD 0 []
  let b := ops.getD 1 []
  let d := ops.getD 2 []
  let c := RCtx.budget f mode bud
  let sp (l : List DWord) (k : Nat) : Bool := !l.isEmpty && (f.unpack (ln l k)).special
  let cx (k : Nat) := if sp a k || sp b k || sp d k then RCtx.full f mode else c
  let x (k : Nat) := f.unpack (ln a k)
  let y (k : Nat) := f.unpack (ln b k)
  let z (k : Nat) := f.unpack (ln d k)
  let by2 := anySpecial f a || anySpecial f b
  let by3 := by2 || anySpecial f d
  -- a sum with a special term gives the IEEE result of R171 (R183, R184)
  let cs := if by2 then RCtx.full f mode else c
  if isArith i then lanesOf by3 fun k => vFpLane i (cx k) (x k) (y k) (z k)
  else match i with
  | .vcmp _ _ _ _ cond =>
    { lanesOf by2 (fun k => (maskLane (fcmp cond.toNat (x k) (y k)), 0#5)) with bypass := by2 }
  | .vsgn _ _ _ _ _ _ | .vthr _ _ _ _ _ _ _ =>
    { lanes := Vector.replicate 16 0#64
      pred := if isAll i then (upTo 16).all fun k => laneTest i (x k) (y k)
              else (upTo 16).any fun k => laneTest i (x k) (y k)
      flags := 0#5
      bypass := by2 }
  | .vsel _ _ _ _ _ => plainLanes fun k => if bitOf (ln a k) 31 then ln b k else ln d k
  | .vmov _ _ _ _ => plainLanes fun k => ln a k
  | .vcvt _ _ _ code _ => lanesOf false fun k => cvtLane code.toNat mode (ln a k)
  | .vred _ _ _ _ _ => lanesOf by2 fun _ => cs.sum ((upTo 16).map x)
  | .vdot _ _ _ _ _ _ =>
    let r := cs.sum ((upTo 16).map fun k => (x k).times (y k))
    let bad := (upTo 16).any fun k => (x k).badTimes (y k)
    lanesOf by2 fun _ => (r.1, if bad then r.2 ||| flInvalid else r.2)
  | .vclamp _ _ _ _ _ =>
    let e := RCtx.full f .rne
    lanesOf by3 fun k =>
      if (x k).isNan || (y k).isNan || (z k).isNan then e.nan
      else e.max (x k) (f.unpack (e.min (z k) (y k)).1)
  | .vrndb _ _ _ _ => lanesOf by2 fun k => (RCtx.budget f .rne bud).val (x k)
  | .viadd _ _ _ _ _ => wordLanes (· + ·) a b
  | .visub _ _ _ _ _ => wordLanes (· - ·) a b
  | .vimul _ _ _ _ _ => wordLanes (· * ·) a b
  | .vand _ _ _ _ _ => wordLanes (· &&& ·) a b
  | .vor _ _ _ _ _ => wordLanes (· ||| ·) a b
  | .vxor _ _ _ _ _ => wordLanes (· ^^^ ·) a b
  | .vshli _ _ _ k _ => wordLanes (fun u _ => u <<< k.toNat) a b
  | .vshri _ _ _ k _ => wordLanes (fun u _ => u >>> k.toNat) a b
  | .vsari _ _ _ k _ => wordLanes (fun u _ => u.sshiftRight k.toNat) a b
  | .vshuf _ _ _ _ _ => plainLanes fun k => if bitOf (ln b k) 31 then 0 else ln a (ln b k % 16)
  | .vbcst _ _ _ l _ => plainLanes fun _ => ln a l.toNat
  | .viota _ _ _ _ => plainLanes fun k => (ln a 0 + k) % 2 ^ 32
  | .vimin _ _ _ _ _ u =>
    wordLanes (fun p q => if (if u then p.ult q else p.slt q) then p else q) a b
  | .vimax _ _ _ _ _ u =>
    wordLanes (fun p q => if (if u then p.ult q else p.slt q) then q else p) a b
  | .vcmpi _ _ _ imm cond =>
    plainLanes fun k => maskLane (icmp cond.toNat (BitVec.ofNat 32 (ln a k)) (cmpImm imm))
  | _ => plainLanes fun _ => 0

/-- Whether an instruction's A and B are FP values in VPREC (R261). -/
def vIsFp : Instr → Bool
  | i => match vKind i with
    | .int | .cvt | .move => false
    | _ => true

/-- The cycle a link producer makes digit `k` available: R268. -/
def Link.avail (l : Link) (k : Nat) : Nat := if l.bypass then l.done else l.done - (l.dr - k) / 4

/-- Three times a dyadic number. -/
def Dyad.scale3 (x : Dyad) : Dyad := ⟨3 * x.m, x.e⟩

/-- Four times 2^Emax · 4^-k of a value, Emax = ⌊log2 |x|⌋ + 2 (R271): three times the margin of its prefix. -/
def margin3 (x : Dyad) (k : Nat) : Dyad := ⟨4, x.e + (Nat.log2 x.m.natAbs : Int) + 2 - 2 * k⟩

/-- Whether a comparison of a lane is settled, for an operand known to k digits when it comes by a link: `lt`, `gt`,
`le`, `ge` hold over the whole of both ranges (R271). -/
structure Settled where
  lt : Bool
  gt : Bool
  le : Bool
  ge : Bool
  deriving DecidableEq, Repr

/-- The settled comparisons of two exact values within the margins of their prefixes; a value of zero never settles. -/
def settled (x y : Dyad) (ax ay : Bool) (k : Nat) : Settled :=
  let ux := x.scale3
  let uy := y.scale3
  let mx : Dyad := if ax then margin3 x k else ⟨0, 0⟩
  let my : Dyad := if ay then margin3 y k else ⟨0, 0⟩
  let ok := !(ax && x.m == 0) && !(ay && y.m == 0)
  let hiX := ux.add mx
  let loX := ux.add mx.neg
  let hiY := uy.add my
  let loY := uy.add my.neg
  ⟨ok && hiX.lt loY, ok && hiY.lt loX, ok && !loY.lt hiX, ok && !loX.lt hiY⟩

/-- Whether one lane of a decider is settled to its outcome at prefix k (R271). -/
def laneSettled (i : Instr) (x y : Dyad) (ax ay : Bool) (k : Nat) : Bool :=
  match i with
  | .vcmp _ _ _ _ cond =>
    let s := settled x y ax ay k
    match cond.toNat with
    | 0 | 1 => s.lt || s.gt || (!ax && !ay)
    | 2 => s.lt || s.ge
    | 3 => s.le || s.gt
    | 4 => s.gt || s.le
    | 5 => s.ge || s.lt
    | _ => true
  | .vsgn _ _ _ pos _ _ =>
    let s := settled x ⟨0, 0⟩ ax false k
    if pos then s.gt || s.le else s.lt || s.ge
  | .vthr _ _ _ ge _ _ _ =>
    let s := settled x y ax ay k
    if ge then s.ge || s.lt else s.gt || s.le
  | _ => false

/-- Whether the decision is settled at prefix k: the lanes that R271 needs for its outcome. `ex` and `ey` are the exact
results that the links of A and B carry (R180); the outcome is that of the values their producers write (R186). Against a NaN or
an infinity in a register every finite value gives the same outcome. -/
def decisionSettled (i : Instr) (f : FFmt) (ops : List (List DWord)) (ex ey : Option (Vector FVal 16)) (k : Nat) : Bool :=
  let x (j : Nat) := f.unpack (ln (ops.getD 0 []) j)
  let y (j : Nat) := f.unpack (ln (ops.getD 1 []) j)
  let exact (l : Option (Vector FVal 16)) (v : FVal) (j : Nat) : Dyad := ((l.bind fun w => w[j]?).getD v).dyad
  let fixed (l : Option (Vector FVal 16)) (v : FVal) : Bool := l.isNone && !v.finite
  let st (j : Nat) := fixed ex (x j) || fixed ey (y j) || laneSettled i (exact ex (x j) j) (exact ey (y j) j) ex.isSome ey.isSome k
  match i with
  | .vcmp _ _ _ _ _ => (upTo 16).all st
  | _ =>
    let pos := (upTo 16).any fun j => laneTest i (x j) (y j) && st j
    let neg := (upTo 16).any fun j => !laneTest i (x j) (y j) && st j
    let out := if isAll i then (upTo 16).all fun j => laneTest i (x j) (y j)
               else (upTo 16).any fun j => laneTest i (x j) (y j)
    if isAll i then (if out then (upTo 16).all st else neg)
    else if out then pos else (upTo 16).all st

/-- The least prefix length at which the decision is settled, looked for from `k` on (R271). -/
def leastPrefix (i : Instr) (f : FFmt) (ops : List (List DWord)) (ex ey : Option (Vector FVal 16)) : Nat → Nat → Option Nat
  | 0, _ => none
  | fuel + 1, k => if decisionSettled i f ops ex ey k then some k else leastPrefix i f ops ex ey fuel (k + 1)

/-- The window of a decider with link operands (R271): at least issue + 2; at most the full-length bound and the bound
of the least settling prefix; under bypass exactly the full-length bound. The bypass is that of what comes by the links: a zero
in the register that VTHR tests against leaves the window as it is (R388). -/
def deciderWindow (i : Instr) (prec64 : Bool) (issue : Nat) (links : List Link) (ops : List (List DWord))
    (ex ey : Option (Vector FVal 16)) : Decider :=
  let cP := links.foldl (fun m l => Nat.max m l.done) 0
  let full := Nat.max (issue + VKind.decide.latency prec64) (cP + 1)
  let special (e : Option (Vector FVal 16)) (p : Nat) : Bool := e.isSome && anySpecial (precFmt prec64) (ops.getD p [])
  if special ex 0 || special ey 1 || links.any (·.chained) then ⟨full, full⟩
  else
    match leastPrefix i (precFmt prec64) ops ex ey 29 1 with
    | none => ⟨issue + 2, full⟩
    | some k =>
      let av := links.foldl (fun m l => Nat.max m (l.avail k)) 0
      ⟨issue + 2, Nat.min full (Nat.max (issue + 2) (av + 1))⟩

end Sys2Proof.Machine
end

