-- ==== Sys2Proof/Machine/Digits.lean ====
section
/-! DEFINITION. The digits of a link (R180): what a digit buffer of the trap frame holds, and what a link carries when a
handler has edited its buffer (R325, R329; entry 7). -/

namespace Sys2Proof.Machine

/-- The free values a link draws: 64 for each lane. -/
def linkDraws : Nat := 1024

/-- Who draws the tile's free values. -/
def Tile.who (t : Tile) : Nat := t.pos.region * 2 ^ 32 + t.pos.prow * 2 ^ 16 + t.pos.pos + 1

/-- The exponent of a lane (R180): at most ⌊log2 |x|⌋ + 2 (R271), and one less where (2/3) · 2^E still bounds |x|, which is a
free choice (entry 7). -/
def laneExp (x : Dyad) (choice : Bool) : Int :=
  let l := Nat.log2 x.m.natAbs
  if choice && decide (3 * x.m.natAbs ≤ 4 * 2 ^ l) then x.e + l + 1 else x.e + l + 2

/-- The digits that keep the bound of R180 next to a rest of `num / den`, the lesser first. -/
def digitsNear (den num : Int) : List Int := [-2, -1, 0, 1, 2].filter fun d => decide (3 * (4 * num - d * den).natAbs ≤ 2 * den.natAbs)

/-- Digits of a rest of `num / den` (R180); where two keep the bound, `choice` takes the greater (entry 7). -/
def digitsFrom (den : Int) (choice : Nat → Bool) : Nat → Nat → Int → List Int
  | 0, _, _ => []
  | fuel + 1, j, num =>
    let d := match digitsNear den num with
      | [] => 0
      | [d] => d
      | d :: e :: _ => if choice j then e else d
    d :: digitsFrom den choice fuel (j + 1) (4 * num - d * den)

/-- A digit in 3 bits (R325). -/
def digitCode (d : Int) : Nat := (d % 8).toNat

/-- A valid digit code from a free value (entry 7). -/
def freeDigit (w : Word) : Nat := (w.toNat % 5 + 6) % 8

/-- A free value of a lane of a link. It belongs to the link: the tile that drew it may have moved since (R188). -/
def Link.draw (l : Link) (lane j : Nat) : Word := Config.freeWord l.who (l.seed + 64 * lane + j)

/-- The exponent and the 28 digits of a lane; none for a NaN or an infinity, which has no digits that R180 binds (R183). The
bound leaves a zero no digit but 0, under any exponent. -/
def Link.lane (l : Link) (k : Nat) : Option (Int × List Int) :=
  match (l.exact[k]?).getD .nan with
  | .fin s m e =>
    let x : Dyad := ⟨if s then -(m : Int) else m, e⟩
    let ex := laneExp x ((l.draw k 56).getLsbD 0)
    some (ex, digitsFrom (2 ^ (ex - e).toNat) (fun j => (l.draw k j).getLsbD 0) 28 0 x.m)
  | .zero _ => some (sxt 12 ((l.draw k 57).toNat % 2 ^ 12), List.replicate 28 0)
  | _ => none

/-- The digit buffer of a link of which `n` digits are there (R325): the others, and what a lane without digits shows, are
free values within their codes (entry 7). -/
def Link.buffer (l : Link) (n : Nat) : Nat :=
  (upTo 16).foldl (fun x k =>
    let v := l.lane k
    let code (j : Nat) : Nat := match v with
      | some (_, ds) => if j < n then digitCode (ds.getD j 0) else freeDigit (l.draw k (28 + j))
      | none => freeDigit (l.draw k (28 + j))
    let ex : Nat := match v with
      | some (e, _) => (e % 2 ^ 12).toNat
      | none => (l.draw k 57).toNat % 2 ^ 12
    (upTo 28).foldl (fun x j => x + code j * 2 ^ (3 * (28 * k + j))) (x + ex * 2 ^ (1344 + 12 * k))) 0

/-- The number that `n` digits stand for under an exponent: X_n of R180. -/
def prefixValue (e : Int) (ds : List Int) (n : Nat) : Dyad := ⟨(ds.take n).foldl (fun x d => 4 * x + d) 0, e - 2 * n⟩

/-- The exponent and the digits that a digit buffer's bits show for a lane. -/
def bufferLane (w k : Nat) : Int × List Int :=
  (sxt 12 (bitsOf w (1344 + 12 * k) 12), (upTo 28).map fun j => sxt 3 (bitsOf w (3 * (28 * k + j)) 3))

/-- The link of a lane after an edit of its first `n` digits or its exponent: the value moves by as much as the prefix
(entry 7). The buffer shows the exponent modulo 2^12 (R325): one equal to it there is the exponent itself. -/
def Link.editLane (l : Link) (n w k : Nat) : DWord × FVal :=
  let f := precFmt l.prec64
  let v := (l.value[k]?).getD 0#64
  let x := (l.exact[k]?).getD .nan
  match l.lane k with
  | none => (v, x)
  | some (e, ds) =>
    let b := bufferLane w k
    let by_ := (prefixValue (if (b.1 - e) % 2 ^ 12 = 0 then e else b.1) b.2 n).add (prefixValue e ds n).neg
    if by_.m = 0 then (v, x)
    else
      let y := x.dyad.add by_
      (BitVec.ofNat 64 ((RCtx.full f .rne).dyad ((f.unpack v.toNat).dyad.add by_)).1,
        if y.m = 0 then .zero false else .fin (decide (y.m < 0)) y.m.natAbs y.e)

/-- A link whose digit buffer now holds `w`, its first `n` digits being the program's (R329). -/
def Link.edited (l : Link) (n w : Nat) : Link :=
  { l with value := Vector.ofFn fun k => (l.editLane n w k).1, exact := Vector.ofFn fun k => (l.editLane n w k).2 }

end Sys2Proof.Machine
end

