-- ==== Sys2Proof/Machine/PortA.lean ====
section
/-! DEFINITION. The scratchpad seen through its ports: bytes and windows, errors and poison, full/empty bits, bank
evaluations, and performing the accesses of port A in program order (ch. 2, R108, R237). -/

namespace Sys2Proof.Machine

/-- Bytes of the scratchpad (R27). -/
def padSize : Nat := 0x30000
/-- First byte of the trap-frame carve-out (Table 02-1). -/
def carveOut : Nat := 0x2F000

/-- Whether every byte of a run lies in the general scratchpad. -/
def inGeneral (a n : Nat) : Bool := decide (a + n ≤ carveOut)

/-- The granules that a run of bytes touches, the lowest first. -/
def granules (a n : Nat) : List Nat := if n = 0 then [] else (upTo ((a + n - 1) / 16 - a / 16 + 1)).map (a / 16 + ·)

/-- The set of granules that addresses touch. -/
def granSet (l : List Nat) : List Nat := NatSet.addAll [] (l.map (· / 16))

/-- A byte of the full/empty window: bit g at byte ⌊g/8⌋ (R37). -/
def Pad.feByte (p : Pad) (k : Nat) : Byte :=
  BitVec.ofNat 8 ((upTo 8).foldl (fun x i => x + b2n (p.full.has (8 * k + i)) * 2 ^ i) 0)

/-- A byte of a 64-bit route entry (R51). -/
def Tile.routeByte (t : Tile) (k : Nat) : Byte :=
  BitVec.ofNat 8 (((t.outs[k / 8]?).map fun o => o.entry.toNat).getD 0 / 256 ^ (k % 8))

/-- A byte of the copy aperture: ceissued at +0 of a channel, cedone at +4 (R46). -/
def Tile.apertureByte (t : Tile) (k : Nat) : Byte :=
  let c := (t.copy.ch[k / 8]?).getD ⟨0#32, 1#32, none, []⟩
  BitVec.ofNat 8 ((if k % 8 < 4 then c.issued else c.done).toNat / 256 ^ (k % 4))

/-- A byte of the data space as the performed accesses have left it (Table 02-1). -/
def Tile.byteAt (t : Tile) (a : Nat) : Byte :=
  if a < padSize then t.pad.mem.read a
  else if 0x40000 ≤ a ∧ a < 0x40600 then t.pad.feByte (a - 0x40000)
  else if 0x50000 ≤ a ∧ a < 0x50040 then t.apertureByte (a - 0x50000)
  else if 0x60000 ≤ a ∧ a < 0x60100 then t.routeByte (a - 0x60000)
  else 0#8

/-- The little-endian value of `n` bytes of the data space. -/
def Tile.valAt (t : Tile) (a n : Nat) : Nat := bytesVal ((upTo n).map fun i => t.byteAt (a + i))

/-- Whether a list of written cells covers a run of bytes. -/
def covers (cells : List (Nat × Byte)) (a n : Nat) : Bool := (upTo n).all fun i => cells.any fun c => c.1 == a + i

/-- Writes cells: data, and with whole words the end of their errors, with whole granules the end of their poison
(R41). Full/empty bits stay as they are. -/
def Pad.writeCells (p : Pad) (cells : List (Nat × Byte)) : Pad :=
  { p with
    mem := cells.foldl (fun m c => m.write c.1 c.2) p.mem
    bad := p.bad.filter fun w => !covers cells (4 * w) 4
    soft := p.soft.filter fun w => !covers cells (4 * w) 4
    poison := p.poison.filter fun g => !covers cells (16 * g) 16 }

/-- Cells of a run of bytes. -/
def runCells (a : Nat) (bytes : List Byte) : List (Nat × Byte) := (upTo bytes.length).zip bytes |>.map fun x => (a + x.1, x.2)

/-- Writes a run of bytes. -/
def Pad.writeRun (p : Pad) (a : Nat) (bytes : List Byte) : Pad := p.writeCells (runCells a bytes)

/-- The errors of the words that a read meets: an uncorrectable one poisons its granule, a correctable one is corrected and
written back; each is counted when it is found (R41, R367). -/
def Tile.meetErrors (t : Tile) (hit : Nat → Bool) : Tile :=
  let ws := t.pad.bad.filter hit
  let cs := t.pad.soft.filter hit
  if ws.isEmpty && cs.isEmpty then t
  else
    { t with
      pad := { t.pad with
        bad := t.pad.bad.filter (!hit ·), soft := t.pad.soft.filter (!hit ·)
        poison := NatSet.addAll t.pad.poison (ws.map (· / 4)) }
      counts := addCount none cs.length (addCount (some .specc) ws.length t.counts) }

/-- What a read of addresses by port A meets: SPECC where it finds an uncorrectable error, SPPOISON for a poisoned granule
(R41). An injected report poisons and corrects nothing (R375). -/
def Pad.readCause (p : Pad) (addrs : List Nat) : Option Cause :=
  if p.bad.any (fun w => addrs.any fun a => a / 4 == w) || (p.inj.has 1 && !addrs.isEmpty) then some .specc
  else if p.poison.any fun g => addrs.any fun a => a / 16 == g then some .sppoison
  else none

/-- An armed detector of the scratchpad reports at a read that finds no error of its own kind; at one that does, the real event
counts and the injection stays armed (R375, R382). -/
def Pad.report (real soft : Bool) (p : Pad) : Pad :=
  { p with inj := if p.inj.has 1 && !real then p.inj.hit 1 else if p.inj.has 0 && !soft then p.inj.hit 0 else p.inj }

/-- Words are read: their errors are found, and an armed detector reports (R41, R375). `some_` says that there is one. -/
def Tile.readWords (t : Tile) (some_ : Bool) (hit : Nat → Bool) : Tile :=
  let real := t.pad.bad.any hit
  let soft := t.pad.soft.any hit
  if some_ then (t.meetErrors hit).withPad (Pad.report real soft) else t

/-- A read of addresses by port A: its cause, and the tile with what it has found (R41, R375). -/
def Tile.readPad (t : Tile) (addrs : List Nat) : Option Cause × Tile :=
  (t.pad.readCause addrs, t.readWords (!addrs.isEmpty) fun w => addrs.any fun a => a / 4 == w)

/-- A read of granules by port B: it finds their errors, and raises nothing (R41). -/
def Tile.findErrors (t : Tile) (gs : List Nat) : Tile := t.readWords (!gs.isEmpty) fun w => gs.elem (w / 4)

/-- The first address of a read that a fault names (R236). -/
def firstOf (addrs : List Nat) : DWord := BitVec.ofNat 64 (addrs.headD 0)

/-- The address of byte `j` of row `r` in a swizzled image of `l` lines a row (R35). -/
def swizzle (base l r j : Nat) : Nat := base + (r * l + j / 64) * 64 + 4 * Nat.xor (j % 64 / 4) (r % 16) + j % 4

/-- The image address of byte `k` of a tile register, in row or column order (R35, R241). -/
def imageAddr (base : Nat) (sh : Shape) (col : Bool) (k : Nat) : Nat :=
  let l := ceilDiv sh.rowBytes 64
  if col then
    let e := k / sh.ew
    swizzle base l (e % sh.rows) (e / sh.rows * sh.ew + k % sh.ew)
  else swizzle base l (k / sh.rowBytes) (k % sh.rowBytes)

/-- Every address of an image, in register order. -/
def imageAddrs (base : Nat) (sh : Shape) (col : Bool) : List Nat :=
  (upTo (sh.rows * sh.rowBytes)).map (imageAddr base sh col)

/-- The addresses a load reads. -/
def LoadPlan.addrs : LoadPlan → List Nat
  | .scalar a n _ _ => (upTo n).map (a + ·)
  | .vec a _ => (upTo 64).map (a + ·)
  | .vecB a _ _ => (upTo 64).map (a + ·)
  | .gather l _ => l.flatMap fun x => (upTo 4).map (x.2 + ·)
  | .tile a sh col _ _ => imageAddrs a sh col

/-- A v register from a function of its lanes. -/
def vreg (f : Nat → Word) : VReg := Vector.ofFn fun i => f i.val

/-- The lanes of a gather as a mask. -/
def laneMask (l : List (Nat × Nat)) : BitVec 16 :=
  BitVec.ofNat 16 (l.foldl (fun x p => x + 2 ^ p.1) 0)

/-- The value of a scalar load. -/
def scalarLoad (v size : Nat) (signed : Bool) : Word :=
  if signed then wordOfInt (sxt (8 * size) v) else BitVec.ofNat 32 v

/-- The register writes of a load from the bytes it sees, its replay kind, and the data for an operand block (R239 to
R241, R326). -/
def LoadPlan.writes (t : Tile) : LoadPlan → List RegWrite × Nat × List Byte
  | .scalar a n sg d => ([.s d (scalarLoad (t.valAt a n) n sg)], 1, [])
  | .vec a d =>
    ([.v d (vreg fun i => BitVec.ofNat 32 (t.valAt (a + 4 * i) 4))], 2, (upTo 64).map fun i => t.byteAt (a + i))
  | .vecB a d0 d1 =>
    let w (k : Nat) : Word := BitVec.ofNat 32 (widenBf16 (t.valAt (a + 2 * k) 2))
    ([.v d0 (vreg w), .v d1 (vreg fun i => w (16 + i))], 2, (upTo 32).flatMap fun k => wordBytes (w k))
  | .gather l d =>
    let x := vreg fun i => ((l.find? fun p => p.1 == i).map fun p => BitVec.ofNat 32 (t.valAt p.2 4)).getD 0#32
    ([.vMask d (laneMask l) x], 2, (upTo 16).flatMap fun i => wordBytes (lane x i))
  | .tile a sh col d _ => ([.t d ((imageAddrs a sh col).map t.byteAt)], 0, [])

/-- The ring slot a load fills. -/
def LoadPlan.ringSlot : LoadPlan → Option (Nat × Nat)
  | .tile _ _ _ _ r => r
  | _ => none

/-- The new word of a bank atomic (Table 02-7). -/
def AtomOp.new (o : AtomOp) (old v c : Word) : Word :=
  match o with
  | .add => old + v
  | .and => old &&& v
  | .or => old ||| v
  | .xor => old ^^^ v
  | .min => if old.slt v then old else v
  | .max => if old.slt v then v else old
  | .minu => if old.ult v then old else v
  | .maxu => if old.ult v then v else old
  | .fadd => BitVec.ofNat 32 (add32 old.toNat v.toNat)
  | .swap => v
  | .cas => if old = c then v else old

/-- A barrier object's fields (Table 02-8). -/
structure Bar where
  phase : Nat
  ovr : Bool
  txu : Bool
  tmo : Bool
  bit7 : Bool
  expect : Nat
  pend : Nat
  txpend : Nat
  reload : Nat
  arrseq : Nat
  deriving DecidableEq, Repr

/-- The object whose 16 bytes have value `w`. -/
def Bar.ofVal (w : Nat) : Bar :=
  ⟨bitsOf w 0 4, bitOf w 4, bitOf w 5, bitOf w 6, bitOf w 7, bitsOf w 8 16, bitsOf w 24 16, bitsOf w 40 32,
    bitsOf w 72 32, bitsOf w 104 24⟩

/-- The value of an object's 16 bytes. -/
def Bar.toVal (o : Bar) : Nat :=
  atBits 0 4 o.phase + atBits 4 1 (b2n o.ovr) + atBits 5 1 (b2n o.txu) + atBits 6 1 (b2n o.tmo)
    + atBits 7 1 (b2n o.bit7) + atBits 8 16 o.expect + atBits 24 16 o.pend + atBits 40 32 o.txpend
    + atBits 72 32 o.reload + atBits 104 24 o.arrseq

/-- ADVANCE (R54). -/
def Bar.advance (o : Bar) : Bar :=
  if o.pend = 0 ∧ o.txpend = 0 then
    { o with phase := (o.phase + 1) % 16, pend := o.expect, txpend := o.reload }
  else o

/-- ARRIVE (R54): the object after it, and whether it was accepted. -/
def Bar.arrive (o : Bar) (n : Nat) : Bar × Bool :=
  if n > o.pend then ({ o with ovr := true }, false)
  else (Bar.advance { o with pend := o.pend - n, arrseq := (o.arrseq + n) % 2 ^ 24 }, true)

/-- TXDEC (R54). -/
def Bar.txdec (o : Bar) (n : Nat) : Bar :=
  if n > o.txpend then { o with txu := true } else Bar.advance { o with txpend := o.txpend - n }

/-- BARINIT (R55). -/
def Bar.init (expect reload : Nat) : Bar := ⟨0, false, false, false, false, expect, expect, reload, reload, 0⟩

/-- The object at an address. -/
def Pad.bar (p : Pad) (a : Nat) : Bar := Bar.ofVal (p.mem.val a 16)

/-- Writes an object: its data only; poison and full/empty bits stay as they are (R37, R41). -/
def Pad.putBar (p : Pad) (a : Nat) (o : Bar) : Pad := { p with mem := p.mem.putVal a 16 o.toVal }

/-- A transaction decrement through port B (R54): an object with an uncorrectable error or poison is left unchanged (R41). -/
def Tile.txdec (t : Tile) (a n : Nat) : Tile :=
  let t := t.findErrors [a / 16]
  if t.pad.poison.has (a / 16) then t else t.withPad fun p => p.putBar a ((p.bar a).txdec n)

/-- The slots of a bound channel and their size in granules (Table 04-5). -/
def InCh.slots (c : InCh) : Nat := bitsOf c.binding.toNat 32 8
/-- Granules of a slot. -/
def InCh.slotG (c : InCh) : Nat := bitsOf c.binding.toNat 40 5 + 1
/-- The ring's base address. -/
def InCh.rbase (c : InCh) : Nat := bitsOf c.binding.toNat 0 32
/-- The address of slot k of the ring (R91). -/
def InCh.slotAddr (c : InCh) (k : Nat) : Nat := c.rbase + 16 * c.slotG * (k % c.slots)
/-- Whether an entry of 64 bits is valid, remote, a sink (R84, R86). -/
def entryV (e : DWord) : Bool := e.getLsbD 63
/-- RMT (Table 04-2). -/
def entryRmt (e : DWord) : Bool := e.getLsbD 62
/-- RSINK (R86). -/
def entrySink (e : DWord) : Bool := e.getLsbD 61
/-- ICH of an outbound entry, SOCH of an inbound one: bits [58:54]. -/
def entryCh (e : DWord) : Nat := bitsOf e.toNat 54 5

/-- The coordinate at an offset, on the torus (R85). -/
def offsetCoord (c : Coord) (dx dy : Int) : Coord :=
  ⟨((c.row + dy) % 1000).toNat, ((c.col + dx) % 1000).toNat⟩

/-- The other end a route entry names (R85, R86, R97). An inbound entry's OPORT is zero: its sender answers through the
port the message came by, here the wafer's. -/
def entryDest (at_ : Coord) (e : DWord) : Dest :=
  let w := e.toNat
  if entryRmt e then ⟨some (bitsOf w 47 5, bitsOf w 39 8), ⟨bitsOf w 29 10, bitsOf w 19 10⟩⟩
  else ⟨none, offsetCoord at_ (sxt 10 (bitsOf w 10 10)) (sxt 10 (bitsOf w 0 10))⟩

/-- The far end of an inbound channel, whose entry names no optical port (R86): by the port that its traffic has come by, 32 where
nothing has come yet (entry 69). -/
def Dest.by_ (d : Dest) (port : Option Nat) : Dest := { d with remote := d.remote.map fun x => (port.getD 32, x.2) }

/-- How many slots are freed in ring order from FREE on (R92), at most `fuel`. -/
def InCh.freed (p : Pad) (c : InCh) : Nat → Nat → Nat
  | 0, n => n
  | fuel + 1, n =>
    if c.free + BitVec.ofNat 32 n = c.rcnt then n
    else if (granules (c.slotAddr (c.free + BitVec.ofNat 32 n).toNat) (16 * c.slotG)).all fun g => !p.full.has g then
      InCh.freed p c fuel (n + 1)
    else n

/-- Hands a message to the router: at once, or held for comparison at a primary under a key; a shadow sends only its CRC
(R142). -/
def Tile.emitAs (t : Tile) (group : Bool) (key : Nat) (crc : Word) (m : Msg) : Tile :=
  match t.pair with
  | none => { t with out := t.out ++ [m] }
  | some p =>
    if p.primary then { t with pair := some { p with held := p.held ++ [⟨key, crc, some m, t.sch.cycle, false, group⟩] } }
    else { t with out := t.out ++ [.crc p.partner key crc] }

/-- Whether a key is a credit's or a grant's: these are held until both tiles of a pair have given them, without the bound
of R143 (Table 06-7). -/
def keyUnbounded (key : Nat) : Bool := decide (3 * 2 ^ 48 ≤ key) && decide (key < 5 * 2 ^ 48)

/-- Sends `n` credits for inbound channel `ch` whose freed slots count from `first`; in a paired tile one by one, each once
both tiles have freed the slot (R92, Table 06-7). They return by the port that the channel's packets came by (R97). -/
def Tile.credit (t : Tile) (ch : Nat) (entry : DWord) (first n : Nat) : Tile :=
  let d := (entryDest t.coord entry).by_ ((t.ins[ch]?).bind (·.port))
  match t.pair with
  | none => { t with out := t.out ++ [.credit d (entryCh entry) n] }
  | some _ => (upTo n).foldl (fun t i =>
      t.emitAs false (3 * 2 ^ 48 + ch * 2 ^ 32 + (first + i) % 2 ^ 32) 0#32 (.credit d (entryCh entry) 1)) t

/-- Freed slots of every bound channel are credited to their senders, in ring order (R92). A sink takes no credit
(R307). -/
def Tile.returnCredits (t : Tile) : Tile :=
  (upTo 32).foldl (fun t i =>
    match t.ins[i]? with
    | some c =>
      let n := if c.bound then InCh.freed t.pad c 64 0 else 0
      if n = 0 then t
      else
        let u := { t with ins := t.ins.setIfInBounds i { c with free := c.free + BitVec.ofNat 32 n } }
        if entrySink c.entry then u else u.credit i c.entry c.free.toNat n
    | none => t) t

/-- Sets granules full. -/
def Tile.setFull (t : Tile) (gs : List Nat) : Tile := t.withPad fun p => { p with full := NatSet.addAll p.full gs }

/-- Sets granules empty, and credits the slots that this frees (R92). -/
def Tile.setEmpty (t : Tile) (gs : List Nat) : Tile :=
  if gs.isEmpty then t else (t.withPad fun p => { p with full := NatSet.delAll p.full gs }).returnCredits

/-- A ring slot becomes landed (R242, R286). -/
def Ring.land (r : Ring) (k : Nat) : Ring := { r with slots := r.slots.set k .landed }

/-- Replaces a ring. -/
def Tile.withRing (t : Tile) (n : Nat) (f : Ring → Ring) : Tile :=
  match t.eng.rings[n]? with
  | some r => t.withEng fun e => { e with rings := e.rings.setIfInBounds n (f r) }
  | none => t

/-- The slot of a faulted or discarded producer lands unwritten in its place (R242, R283). -/
def Tile.landSlot (t : Tile) (slot : Option (Nat × Nat)) : Tile :=
  match slot with
  | some (n, k) => t.withRing n fun r => r.land k
  | none => t

/-- A port A access that is a load puts its result in flight, to land at its latency (R151). -/
def Tile.launchFlight (t : Tile) (q : PortQ) (tag : BitVec 3) (lat kind : Nat) (ws : List RegWrite) (opy : Word)
    (data : List Byte) (ring : Option (Nat × Nat)) (opx : DWord) : Tile :=
  t.withSch fun s =>
    { s with flights := s.flights ++
        [⟨q.seq, Nat.max (q.issued + lat) (s.cycle + 1), tag, ws, ring, kind, opx, opy, data, q.info⟩] }

/-- A port A access that faults: nothing is written, its tag is left faulted, its cause waits for a boundary (R237). -/
def Tile.portFault (t : Tile) (q : PortQ) (c : Cause) (addr : DWord) (tag : BitVec 3) (ring : Option (Nat × Nat)) :
    Tile :=
  ((t.setTag tag.toNat .faulted).landSlot ring).raise c (some q.seq) 0 addr

/-- The word a first write of a load delivers, for its replay entry (R326). -/
def firstWord : List RegWrite → Word
  | .s _ x :: _ => x
  | _ => 0#32

/-- The template at an address (Table 02-6). -/
def Template.ofVal (w : Nat) : Template :=
  ⟨bitsOf w 240 16, bitsOf w 224 16, bitsOf w 192 32, bitOf w 180, bitOf w 179, bitOf w 178, bitOf w 177, bitOf w 176,
    bitsOf w 160 16, sxt 32 (bitsOf w 128 32), bitsOf w 112 16, bitsOf w 96 16, bitsOf w 64 32, bitsOf w 0 64,
    bitsOf w 181 11⟩

/-- Whether a template is refused with TEMPLERR (R49). One with SWZ = 1 whose SPADDR is a multiple of 16 and not of 64 is not
(entry 57). -/
def Template.refused (p : Template) : Bool :=
  p.rsvd != 0 || p.rows == 0 || p.rowbytes % 16 != 0 || p.rowbytes == 0 || p.sstride % 16 != 0
    || p.bstride % 16 != 0 || p.spaddr % 16 != 0 || p.vaddr % 16 != 0
    || (decide (p.rows > 1) && decide (p.sstride < p.rowbytes))
    || (p.swz && p.rowbytes % 64 != 0) || (p.swz && p.ring)
    || (p.ring && (p.ringln == 0 || decide (p.rows * p.sstride > 64 * p.ringln)))
    || (p.bar && (p.baraddr % 16 != 0 || !inGeneral p.baraddr 16))
    || (if p.ring then !inGeneral p.spaddr (64 * p.ringln)
        else !inGeneral p.spaddr ((p.rows - 1) * p.sstride + p.rowbytes))

/-- The address of template `i` (R44). -/
def Tile.templateAt (t : Tile) (i : Nat) : Nat := 64 * bitsOf t.ctl.ctbase.toNat 6 12 + 32 * i

/-- Whether an ACQ of the tile has neither been granted nor failed (R117). -/
def Tile.acqOpen (t : Tile) (before : Nat) : Bool :=
  t.guards.any fun g => !g.rel && decide (g.seq < before) && (match g.stage with
    | .answered _ _ => false
    | _ => true)

/-- Acceptance of a copy (R47, R48, R50, R255): the template is read and checked, an ID assigned, the cursor of a ring
copy advanced through port B. The read finds the template's errors (R41); what a template in a granule that has one or is poisoned
does, no rule states: its bytes count as they stand (entry 83). A halted channel raises CESTALL, which the model tests first
(entry 83), a refused template TEMPLERR; neither takes an ID. -/
def Tile.acceptCopy (t : Tile) (ch index : Nat) (seq : Nat) : Tile :=
  match t.copy.ch[ch]? with
  | none => t
  | some c =>
    let t := t.findErrors (granules (t.templateAt index) 32)
    let p := Template.ofVal (t.pad.mem.val (t.templateAt index) 32)
    if c.halted.isSome then t.raise .cestall (some seq) 0 (BitVec.ofNat 64 (0x50000 + 8 * ch))
    else if p.refused then t.raise .templerr (some seq) 0 (BitVec.ofNat 64 (0x50000 + 8 * ch))
    else
      let id := c.issued + 1#32
      let job : CopyJob := ⟨id, seq, p, 0, 0, [], [], none, none, false, false, t.acqOpen seq⟩
      let t := { t with copy := { t.copy with ch := t.copy.ch.setIfInBounds ch { c with issued := id, jobs := c.jobs ++ [job] } } }
      if p.ring then
        t.withPad fun m =>
          m.writeRun (t.templateAt index + 30) (valBytes 2 ((p.cursor + p.rows * p.sstride / 16) % (4 * p.ringln)))
      else t

/-- Adds an effect to the innermost block's staging (R314). -/
def Tile.stage (t : Tile) (x : Staged) : Tile :=
  match t.blocks with
  | b :: bs => { t with blocks := { b with staged := b.staged ++ [x] } :: bs }
  | [] => t

/-- Adds an effect to the staging of the innermost block that was open when its instruction, `seq` in issue order, issued
(R314). -/
def stageIn (seq : Nat) (x : Staged) : List Block → List Block
  | [] => []
  | b :: bs => if b.seq ≤ seq then { b with staged := b.staged ++ [x] } :: bs else b :: stageIn seq x bs

/-- A copy start store is performed: outside a block the copy is accepted; inside one, an outbound start is staged and
an inbound one accepted at once (R255, R314). The read of DIR finds the errors of its granule (R41). -/
def Tile.performStart (t : Tile) (ch index : Nat) (staged : Bool) (seq : Nat) : Tile :=
  let t := if staged && !t.blocks.isEmpty then t.findErrors (granules (t.templateAt index + 22) 1) else t
  if staged && !t.blocks.isEmpty && (Template.ofVal (t.pad.mem.val (t.templateAt index) 32)).out then
    { t with blocks := stageIn seq (.start ch index) t.blocks }
  else t.acceptCopy ch index seq

/-- The words that a store writes only in part: it reads the rest of them (R41, R237). -/
def partWords (cells : List (Nat × Byte)) (w : Nat) : Bool := (cells.any fun c => c.1 / 4 == w) && !covers cells (4 * w) 4

/-- A word that a store writes only in part and whose error it cannot repair (R237), or that an armed detector reports so (R375). -/
def badPartial (p : Pad) (cells : List (Nat × Byte)) : Option Nat :=
  (p.bad.find? (partWords cells)).or
    (if p.inj.has 1 then (cells.map fun c => c.1 / 4).find? (partWords cells) else none)

/-- The fault address of a load that fails when it is performed: its first byte, or of a gather the lowest active lane's that
fails (R236). -/
def LoadPlan.faultAddr (p : Pad) (plan : LoadPlan) : DWord :=
  match plan with
  | .gather l _ =>
    BitVec.ofNat 64 (((l.find? fun x => (p.readCause ((upTo 4).map (x.2 + ·))).isSome).map (·.2)).getD 0)
  | plan => firstOf plan.addrs

/-- The 64-bit overflow address of the spill space (Table 07-5). -/
def Ctl.ovf (c : Ctl) : Nat := c.ovfhi.toNat * 2 ^ 32 + c.ovflo.toNat

/-- The end of the spill carve-out and its base, in bytes (R244). -/
def Ctl.carveBase (c : Ctl) : Nat := 64 * bitsOf c.spcarve.toNat 6 12
/-- The end of the spill carve-out. -/
def Ctl.carveEnd (c : Ctl) : Nat := c.carveBase + 64 * bitsOf c.spcarve.toNat 18 12

/-- Where an element of the spill space lies: none in scratchpad, or its bulk address (R244). -/
def Ctl.spillBulk (c : Ctl) (x size : Nat) : Option Nat :=
  if x + size ≤ c.carveEnd then none else some ((c.ovf + (x - c.carveEnd)) % 2 ^ 64)

/-- The register write of an element by its file code: s, v, a, p (R243). -/
def elementWrite (file r : Nat) (bytes : List Byte) : RegWrite :=
  match file with
  | 0 => .s r (BitVec.ofNat 32 (bytesVal bytes))
  | 1 => .v r (vreg fun i => BitVec.ofNat 32 (bytesVal (bytes.drop (4 * i) |>.take 4)))
  | 2 => .a r (BitVec.ofNat 32 (bytesVal bytes))
  | _ => .p r (bitOf (bytesVal bytes) 0)

/-- A register of a file as an element: a predicate is stored as 0 or 1 (R243). -/
def elementBytes (f : Files) (file r : Nat) : List Byte :=
  match file with
  | 0 => wordBytes (f.getS r)
  | 1 => (f.getV r).toList.flatMap wordBytes
  | 2 => wordBytes (f.getA r)
  | _ => valBytes 4 (b2n (f.getP r))

/-- Replaces a list operation. -/
def Tile.setList (t : Tile) (l : ListOp) : Tile :=
  { t with lists := t.lists.map fun x => if x.seq = l.seq then l else x }

/-- What a SPILL stores: its registers as they stand when it issues (R31, R243). -/
def ListOp.sources (l : ListOp) (f : Files) : List (List Byte) := if l.fill then [] else l.regs.map (elementBytes f l.file)

/-- Whether element `i` of a list lies in bulk memory (R244). -/
def ListOp.bulkAt (l : ListOp) (c : Ctl) (i : Nat) : Bool := (c.spillBulk (l.ea + l.size * i) l.size).isSome

/-- Whether any element of a list operation lies in bulk memory: then, untagged, it holds the next bundle (R244). -/
def ListOp.bulk (l : ListOp) (c : Ctl) : Bool := l.order.any (l.bulkAt c)

/-- The scratchpad element of a FILL that moves behind a bulk one, its own base register's (R245): it is read at the FILL's place
in port A's order (R31). -/
def ListOp.laterBase (l : ListOp) (c : Ctl) : Option Nat :=
  if l.fill && (l.order.drop l.k).any (l.bulkAt c) then l.order.getLast?.filter fun i => !l.bulkAt c i else none

/-- A list operation goes on, element by element in transfer order (R245): scratchpad elements move one a cycle from cycle `next`
on, a bulk element leaves as an access of its own, a fault holds the operation at its element. `fin` is the cycle in which all
that has moved stands in its place, and in which its tag becomes free when nothing is left (R243). -/
def Tile.runList (next fin : Nat) : Nat → Tile → ListOp → Tile
  | 0, t, _ => t
  | fuel + 1, t, l =>
    match l.order[l.k]? with
    | none =>
      let f : Flight := ⟨l.seq, fin, l.tag, [], none, if l.fill then 7 else 6, 0#64, 0#32, [], l.info⟩
      ({ t with lists := t.lists.filter (·.seq != l.seq) }).withSch fun s =>
        { s with
          flights := s.flights ++ [f]
          ready := if l.hold || (l.tag == 0#3 && l.bulk t.ctl) then Nat.max s.ready fin else s.ready }
    | some i =>
      let x := l.ea + l.size * i
      match t.ctl.spillBulk x l.size with
      | some va =>
        let acc : BulkAcc := ⟨l.seq, if l.fill then .fill else .spill, va, l.size, (l.data[i]?).getD [], l.tag, [], .inTile,
          false, false, false, false⟩
        { (t.setList { l with waiting := true }) with accs := t.accs ++ [acc] }
      | none =>
        let l' := { l with k := l.k + 1 }
        if l.fill then
          let r := match (if l.order.getLast? = some i then l.early else none) with
            | some e => (e, t)
            | none =>
              let f := t.readPad ((upTo l.size).map (x + ·))
              (match f.1 with
                | some c => .error c
                | none => .ok (f.2.pad.mem.bytes x l.size), f.2)
          match r.1 with
          | .error c => (r.2.setList l).raise c (some l.seq) 0 (BitVec.ofNat 64 x)
          | .ok bs =>
            let t := r.2.withSch fun s => { s with flights := s.flights ++
              [⟨l.seq, next + 4, 0#3, [elementWrite l.file ((l.regs[i]?).getD 0) bs], none, 0, 0#64, 0#32, [], l.info⟩] }
            Tile.runList (next + 1) (next + 4) fuel (t.setList l') l'
        else
          let t := t.withPad fun p => p.writeRun x ((l.data[i]?).getD [])
          Tile.runList (next + 1) (next + 1) fuel (t.setList l') l'

/-- A SPILL or FILL comes to its place in port A's order (R31, R243): it reads what it moves later, and goes on. -/
def Tile.listTurn (t : Tile) (q : PortQ) : Tile :=
  match t.lists.find? (·.seq == q.seq) with
  | none => t
  | some l =>
    let c := Nat.max q.issued t.sch.cycle
    let r := match l.laterBase t.ctl with
      | some i =>
        let x := l.ea + l.size * i
        let f := t.readPad ((upTo l.size).map (x + ·))
        (f.2, { l with early := some (match f.1 with
          | some c => .error c
          | none => .ok (f.2.pad.mem.bytes x l.size)) })
      | none => (t, l)
    Tile.runList c c (l.order.length + 1) (r.1.setList r.2) r.2

/-- Performs one access of port A (R108, R237). -/
def Tile.perform (t : Tile) (q : PortQ) : Tile :=
  match q.act with
  | .store cells full =>
    match badPartial t.pad cells with
    | some w => (t.readWords true (· == w)).raise .specc (some q.seq) 0 (firstOf (cells.map (·.1)))
    | none => ((t.readWords (cells.any fun c => partWords cells (c.1 / 4)) (partWords cells)).withPad fun p =>
        p.writeCells cells).setFull full
  | .start ch index staged => t.performStart ch index staged q.seq
  | .load tag lat plan take =>
    let p0 := t.pad
    let r := t.readPad (plan.addrs.filter (· < padSize))
    let t := r.2
    match r.1 with
    | some c => t.portFault q c (plan.faultAddr p0) tag plan.ringSlot
    | none =>
      let w := plan.writes t
      (t.launchFlight q tag lat w.2.1 w.1 (firstWord w.1) w.2.2 plan.ringSlot
        (match plan with
          | .gather l _ => BitVec.ofNat 64 (laneMask l).toNat
          | _ => 0#64)).setEmpty take
  | .atom tag op a v c dest =>
    let r := t.readPad ((upTo 4).map (a + ·))
    let t := r.2
    match r.1 with
    | some cz => t.portFault q cz (BitVec.ofNat 64 a) tag none
    | none =>
      let old := t.pad.mem.word a
      (t.withPad fun p => { p with mem := p.mem.putVal a 4 (op.new old v c).toNat }).launchFlight q tag 6 3
        [.s dest old] old [] none 0#64
  | .arrive obj n tag =>
    let r := t.readPad ((upTo 16).map (obj + ·))
    let t := r.2
    match r.1 with
    | some cz => t.portFault q cz (BitVec.ofNat 64 obj) tag none
    | none =>
      let x := (t.pad.bar obj).arrive n
      let t := t.withPad fun p => p.putBar obj x.1
      if x.2 then t.setTag tag.toNat .free
      else t.portFault q .barovr (BitVec.ofNat 64 obj) tag none
  | .barInit obj e rl =>
    let r := t.readPad ((upTo 16).map (obj + ·))
    let t := r.2
    match r.1 with
    | some cz => t.portFault q cz (BitVec.ofNat 64 obj) 0#3 none
    | none => t.withPad fun p => p.putBar obj (Bar.init e rl.toNat)
  | .txAdd obj n =>
    let r := t.readPad ((upTo 16).map (obj + ·))
    let t := r.2
    match r.1 with
    | some cz => t.portFault q cz (BitVec.ofNat 64 obj) 0#3 none
    | none =>
      let o := t.pad.bar obj
      if o.txpend + n ≥ 2 ^ 32 then t.portFault q .atomop (BitVec.ofNat 64 obj) 0#3 none
      else t.withPad fun p => p.putBar obj { o with txpend := o.txpend + n }
  | .txDec obj n =>
    let r := t.readPad ((upTo 16).map (obj + ·))
    let t := r.2
    match r.1 with
    | some cz => t.portFault q cz (BitVec.ofNat 64 obj) 0#3 none
    | none => t.withPad fun p => p.putBar obj ((p.bar obj).txdec n)
  | .barRd tag obj field dest =>
    let r := t.readPad ((upTo 16).map (obj + ·))
    let t := r.2
    match r.1 with
    | some cz => t.portFault q cz (BitVec.ofNat 64 obj) tag none
    | none =>
      let o := t.pad.bar obj
      let x : Word := match field with
        | 0 => t.pad.mem.word obj
        | 1 => BitVec.ofNat 32 o.pend
        | 2 => BitVec.ofNat 32 o.txpend
        | _ => BitVec.ofNat 32 o.arrseq
      t.launchFlight q tag 4 1 [.s dest x] x [] none 0#64
  | .fe set gs => if set then t.setFull gs else t.setEmpty gs
  | .feRd tag g dest =>
    let x : Word := BitVec.ofNat 32 ((upTo 16).foldl (fun x j => x + b2n (t.pad.full.has (g + j)) * 2 ^ j) 0)
    t.launchFlight q tag 4 1 [.s dest x] x [] none 0#64
  | .list => t.listTurn q

/-- Whether an access waits in the store queue until something makes it perform. -/
def PortAct.isStore : PortAct → Bool
  | .store _ _ => true
  | .start _ _ _ => true
  | _ => false

/-- Whether an access of port A may be performed now: its cycle has come, and a copy start waits for every ACQ issued
before it (R117, R255). -/
def Tile.mayPerform (t : Tile) (q : PortQ) : Bool :=
  decide (q.at_ ≤ t.sch.cycle) && (match q.act with
    | .start _ _ _ => !t.acqOpen q.seq
    | _ => true)

/-- Performs the oldest access of port A if it may be performed. -/
def Tile.performHead (t : Tile) : Tile :=
  match t.pad.queue with
  | [] => t
  | q :: l => if t.mayPerform q then ({ t with pad := { t.pad with queue := l } }).perform q else t

/-- Performs accesses of port A in program order while their cycles have come, at most `fuel`. -/
def Tile.drainReady : Nat → Tile → Tile
  | 0, t => t
  | fuel + 1, t =>
    match t.pad.queue with
    | [] => t
    | q :: _ => if t.mayPerform q then Tile.drainReady fuel t.performHead else t

/-- Performs every access of port A in program order, whatever its cycle (R322, step 3). -/
def Tile.drainAll : Nat → Tile → Tile
  | 0, t => t
  | fuel + 1, t =>
    match t.pad.queue with
    | [] => t
    | q :: l => Tile.drainAll fuel (({ t with pad := { t.pad with queue := l } }).perform q)

/-- An L instruction's access enters port A. A store waits in the store queue; any other access is performed as soon as
every earlier one has been, so it sees them all (R108, R238). -/
def Tile.portA (t : Tile) (seq : Nat) (act : PortAct) (delay : Nat) (info : SlotInfo) : Tile :=
  let c := t.sch.cycle
  let t := { t with pad := { t.pad with queue := t.pad.queue ++ [⟨seq, c, c + delay, act, info⟩] } }
  if act.isStore || delay != 0 then t else t.drainReady t.pad.queue.length

/-- Before port B touches granules, the accesses that have tested full/empty bits among them are performed: the test, the access
and the change of a bit are one evaluation, and nothing of port B falls between them (R38). -/
def Tile.beforeB (t : Tile) (gs : List Nat) : Tile :=
  if t.pad.queue.any fun q => match q.act with
      | .store _ full => full.any gs.elem
      | .load _ _ _ take => take.any gs.elem
      | _ => false
  then t.drainReady t.pad.queue.length else t

/-- What a byte of the data space reads as once every queued store has been performed: the view of later accesses of
the same tile (R238). -/
def Tile.peek (t : Tile) (a : Nat) : Byte :=
  t.pad.queue.foldl (fun b q => match q.act with
    | .store cells _ => cells.foldl (fun b c => if c.1 = a then c.2 else b) b
    | _ => b) (t.byteAt a)

end Sys2Proof.Machine
end

