-- ==== Sys2Proof/Machine/Landing.lean ====
section
/-! DEFINITION. Results come in: core producers land (R151 to R157), V operations complete, deciders decide and cancel
(R185, R268 to R272). -/

namespace Sys2Proof.Machine

/-- The destination field of a V instruction; 0 for one that has none. -/
def vDest : Instr → BitVec 5
  | .vadd _ d _ _ _ _ => d
  | .vsub _ d _ _ _ _ => d
  | .vmul _ d _ _ _ _ => d
  | .vfma _ d _ _ _ _ => d
  | .vfms _ d _ _ _ _ => d
  | .vfnma _ d _ _ _ _ => d
  | .vdiv _ d _ _ _ _ => d
  | .vsqrt _ d _ _ _ => d
  | .vrsqrt _ d _ _ _ => d
  | .vrcp _ d _ _ _ => d
  | .vmin _ d _ _ _ _ => d
  | .vmax _ d _ _ _ _ => d
  | .vabs _ d _ _ _ => d
  | .vneg _ d _ _ _ => d
  | .vmaxa _ d _ _ _ _ => d
  | .vcmp _ d _ _ _ => d
  | .vsel _ d _ _ _ => d
  | .vmov _ d _ _ => d
  | .vcvt _ d _ _ _ => d
  | .vred _ d _ _ _ => d
  | .vdot _ d _ _ _ _ => d
  | .viadd _ d _ _ _ => d
  | .visub _ d _ _ _ => d
  | .vimul _ d _ _ _ => d
  | .vand _ d _ _ _ => d
  | .vor _ d _ _ _ => d
  | .vxor _ d _ _ _ => d
  | .vshli _ d _ _ _ => d
  | .vshri _ d _ _ _ => d
  | .vsari _ d _ _ _ => d
  | .vshuf _ d _ _ _ => d
  | .vbcst _ d _ _ _ => d
  | .viota _ d _ _ => d
  | .vclamp _ d _ _ _ => d
  | .vrndb _ d _ _ => d
  | .vimin _ d _ _ _ _ => d
  | .vimax _ d _ _ _ _ => d
  | .vcmpi _ d _ _ _ => d
  | _ => 0#5

/-- Whether the destination is an FP64 pair (R261, R274): `link64` says that VMOV reads an FP64 link. -/
def vDest64 (i : Instr) (fmt : Word) (link64 : Bool) : Bool :=
  match i with
  | .vcvt _ _ _ code _ => cvtTo64 code.toNat
  | .vmov _ _ _ _ => link64
  | .vcmp _ _ _ _ _ => false
  | i => vIsFp i && fmtPrec64 fmt

/-- The low words of lanes, and the high words. -/
def lowWords (l : Lanes) : VReg := l.map fun x => x.setWidth 32
/-- The high words of FP64 lanes (R146). -/
def highWords (l : Lanes) : VReg := l.map fun x => x.extractLsb' 32 32

/-- The register writes of a V operation: a predicate, one register or a pair; none when it feeds a link. -/
def vWrites (i : Instr) (rrb : Nat) (wide : Bool) (o : VOut) : List RegWrite :=
  match i with
  | .vsgn _ p _ _ _ _ => [.p (rotP rrb p) o.pred]
  | .vthr _ p _ _ _ _ _ => [.p (rotP rrb p) o.pred]
  | i =>
    let d := (vDest i).toNat
    if d ≥ 28 then []
    else if wide then [.v (rotV rrb d) (lowWords o.lanes), .v (rotV rrb (d + 1)) (highWords o.lanes)]
    else [.v (rotV rrb d) (lowWords o.lanes)]

/-- A core producer's result lands: its registers are written, its ring slot is landed, its tag released (R153, R157,
R242). -/
def Tile.landFlight (t : Tile) (f : Flight) : Tile :=
  (((t.withSch fun s => { s with flights := s.flights.erase f }).landWrites f.seq f.writes).landSlot
    f.ring).setTag f.tag.toNat .free

/-- Kills links. -/
def Sched.killLinks (s : Sched) (l : List Nat) : Sched :=
  { s with links := l.foldl (fun v n => v.setIfInBounds n none) s.links }

/-- INFO of an engine fault: the unit's code and the slot word (Table 16-3). -/
def engInfo (code : Nat) (i : SlotInfo) : DWord := BitVec.ofNat 64 (code * 2 ^ 32 + i.word.toNat)

/-- The links that a V operation consumes and holds: of those it named, the ones it still claims. A link that RFT has restored under
the same number belongs to another consumer (R266, R277). -/
def Sched.ownSrcs (s : Sched) (o : VOp) : List Nat :=
  o.srcs.filter fun n => (((s.links[n]?).getD none).bind (·.consumer)) == some o.seq

/-- A V operation leaves the unit, and the links it consumes die (R266). -/
def Sched.leaveV (s : Sched) (o : VOp) : Sched :=
  { s with vops := s.vops.filter (·.seq != o.seq) }.killLinks (s.ownSrcs o)

/-- A V operation completes: it writes its registers and FLAGS, its consumed links die, its tag is released, and an
enabled exception raises VXFPE (R185, R266, R272). That its tag is free and not faulted although VXFPE comes after issue is
the model's choice: R185 says that the result is written (entry 58). -/
def Tile.completeV (t : Tile) (o : VOp) : Tile :=
  let t := t.withSch fun s => s.leaveV o
  let t := ((t.landWrites o.seq o.writes).withCtl fun c => c.orFlags o.flags).setTag o.tag.toNat .free
  if o.flags &&& o.trapen != 0#5 then t.raise .vxfpe (some o.seq) 7 (BitVec.ofNat 64 o.info.addr) (engInfo 5 o.info)
  else t

/-- The producers upstream of links, along links, whose completion is later than `e`: at most `fuel` links deep. -/
def upstreamAfter (s : Sched) (e : Nat) : Nat → List Nat → List VOp
  | 0, _ => []
  | fuel + 1, l =>
    let ps := s.vops.filter fun o => match o.dest with
      | some n => l.elem n && decide (e < o.due) && (match (s.links[n]?).getD none with
        | some k => k.producer == o.seq
        | none => false)
      | none => false
    ps ++ ps.flatMap fun o => upstreamAfter s e fuel (s.ownSrcs o)

/-- A decider decides in cycle `e`: it writes its result and releases its tag, and every upstream producer not complete
by then is cancelled: it writes and records nothing, its tag becomes free, and the links of the chain die (R271, R272,
R187). -/
def Tile.decideV (t : Tile) (o : VOp) (e : Nat) : Tile :=
  let ups := upstreamAfter t.sch e 4 (t.sch.ownSrcs o)
  let t := ups.foldl (fun (t : Tile) u => (t.withSch fun s => s.leaveV u).setTag u.tag.toNat .free) t
  t.completeV o

/-- What a V operation's completion is: a decider decides, any other completes. -/
def Tile.finishV (t : Tile) (o : VOp) : Tile :=
  match o.decider with
  | some _ => t.decideV o t.sch.cycle
  | none => t.completeV o

/-- The earlier of two results by landing cycle, then issue order (R154). -/
def earlier (a b : Nat × Nat) : Bool := decide (a.1 < b.1) || (a.1 == b.1 && decide (a.2 < b.2))

/-- The first flight to land. -/
def firstFlight : List Flight → Option Flight
  | [] => none
  | f :: l => match firstFlight l with
    | some g => if earlier (g.due, g.seq) (f.due, f.seq) then some g else some f
    | none => some f

/-- The first V operation to complete. -/
def firstVOp : List VOp → Option VOp
  | [] => none
  | f :: l => match firstVOp l with
    | some g => if earlier (g.due, g.seq) (f.due, f.seq) then some g else some f
    | none => some f

/-- The landing cycle and issue order of the result that comes in next, if its cycle has come. -/
def Tile.nextLanding (t : Tile) : Option (Nat × Nat) :=
  let c := t.sch.cycle
  let key (x : Option (Nat × Nat)) (y : Option (Nat × Nat)) : Option (Nat × Nat) := match x, y with
    | some a, some b => some (if earlier a b then a else b)
    | some a, none => some a
    | none, y => y
  key ((firstFlight (t.sch.flights.filter (·.due ≤ c))).map fun f => (f.due, f.seq))
    ((firstVOp (t.sch.vops.filter fun o => o.due ≤ c && o.decider.isNone)).map fun o => (o.due, o.seq))

/-- The result that comes in next, if its cycle has come: the one step PRODUCER_LAND takes (R151 to R154). -/
def Tile.landNext (t : Tile) : Tile :=
  let c := t.sch.cycle
  match firstFlight (t.sch.flights.filter (·.due ≤ c)),
      firstVOp (t.sch.vops.filter fun o => o.due ≤ c && o.decider.isNone) with
  | some f, some o => if earlier (f.due, f.seq) (o.due, o.seq) then t.landFlight f else t.completeV o
  | some f, none => t.landFlight f
  | none, some o => t.completeV o
  | none, none => t

/-- The deciders that decide in the tile's cycle: those whose window ends, and of those whose window is open any, each by a free
choice in each cycle (R271, entry 7). -/
def Tile.deciding (t : Tile) : List VOp :=
  t.sch.vops.filter fun o => match o.decider with
    | some d => d.hi ≤ t.sch.cycle
      || (d.lo ≤ t.sch.cycle && Config.freeBit ((t.who * 2 ^ 64 + t.sch.cycle) * 2 ^ 64 + o.seq))
    | none => false

/-- The decider that decides next: the first in issue order. -/
def Tile.nextDecider (t : Tile) : Option VOp :=
  t.deciding.foldl (fun m o => match m with
    | some x => if o.seq < x.seq then some o else some x
    | none => some o) none

/-- Whether what comes in next is a result: one that is due in an earlier cycle than this one, or issued before the decider that
decides in it. Of two writes that land in one cycle the later-issued instruction's remains (R154). -/
def Tile.landDue (t : Tile) : Bool :=
  match t.nextLanding, t.nextDecider with
  | some l, some o => earlier l (t.sch.cycle, o.seq)
  | some _, none => true
  | none, _ => false

/-- Whether a decider decides in this cycle. -/
def Tile.decidesNow (t : Tile) : Bool := t.nextDecider.isSome

end Sys2Proof.Machine
end

