-- ==== Sys2Proof/Machine/Ops.lean ====
section
/-! DEFINITION. The shared operations of the core: taking a trap, the one operation of R322, and the return from it
(R328). With them the trap frame: its header, replay entries, digit buffers and operand blocks, written and read
back (R325, R326), and the tstat register. Register operations stand in Regs.lean, scratchpad operations in PortA.lean. -/

namespace Sys2Proof.Machine

/-- tstat as the handler sees it (Table 07-8). -/
def Tile.tstat (t : Tile) : Nat :=
  atBits 31 1 (b2n t.sch.tm) + atBits 29 2 t.blocks.length + atBits 24 5 t.sch.rstk.length
    + atBits 20 3 t.sch.lstk.length
    + (upTo 7).foldl (fun x i => x + b2n (t.tagSt (i + 1) == .faulted) * 2 ^ (9 + i)
        + b2n (t.tagSt (i + 1) == .outstanding) * 2 ^ (1 + i)) 0

/-- The header of a trap frame as a 1024-bit number (Table 16-3); `tstat` and `fmt` are those of the boundary. -/
def Tile.frameHeader (t : Tile) (tstat : Nat) (fmt : Word) (cause : Cause) (after : Bool) (slot nrep : Nat) (faddr info : DWord)
    (resume : Word) : Nat :=
  atBits 0 8 cause.code + atBits 8 4 t.ctl.rrb + atBits 12 5 nrep + atBits 17 3 slot
    + atBits 20 12 (resume.toNat / 4) + atBits 32 5 t.ctl.vbud + atBits 37 3 t.sch.lstk.length
    + atBits 40 5 t.sch.rstk.length + atBits 46 1 (b2n after) + atBits 64 64 t.sch.cycle
    + atBits 320 64 faddr.toNat + atBits 384 64 info.toNat + atBits 448 32 tstat + atBits 480 32 fmt.toNat
    + atBits 512 32 t.ctl.lc.toNat + atBits 544 32 t.ctl.ec.toNat
    + ((upTo 4).zip t.sch.lstk).foldl (fun x e => x + atBits (576 + 64 * e.1) 64 (e.2.2.toNat * 2 ^ 32 + e.2.1.toNat)) 0
    + ((upTo 16).zip t.sch.rstk).foldl (fun x e => x + atBits (832 + 12 * e.1) 12 (e.2.toNat / 4)) 0

/-- A replay entry as a 256-bit number (Table 16-4). -/
def replayEntry (kind : Nat) (tag : Nat) (i : SlotInfo) (pdest prog cura curb : Nat) (parked : Bool) (opx : Nat)
    (opy : Nat) : Nat :=
  atBits 0 5 kind + atBits 5 3 tag + atBits 32 4 i.rrb + atBits 52 12 (i.addr / 4) + atBits 64 8 curb
    + atBits 72 8 cura + atBits 80 8 prog + atBits 88 8 pdest + atBits 96 1 (b2n i.yimm.isSome)
    + atBits 97 1 (b2n parked) + atBits 100 28 (match i.yimm with
      | some y => y.toNat
      | none => 0) + atBits 128 32 i.word.toNat + atBits 160 32 opy + atBits 192 64 opx

/-- The physical destination code of writes (R326). -/
def pdestOf : List RegWrite → Nat
  | .s r _ :: _ => r
  | .a r _ :: _ => r
  | .p r _ :: _ => r
  | .v r _ :: _ => r
  | .vLane r _ _ :: _ => r
  | .vMask r _ _ :: _ => r
  | .t r _ :: _ => r
  | [] => 0

/-- Digits of a result that its consumer can have had by cycle `c` (R268). -/
def digitsBy (due dr c : Nat) (bypass : Bool) : Nat :=
  if due ≤ c then dr else if bypass then 0 else dr - 4 * (due - c)

/-- The issue order of a captured operation. -/
def Captured.order (links : Vector (Option Link) 4) : Captured → Nat
  | .flight f => f.seq
  | .vop o => o.seq
  | .list l => l.seq
  | .link n => (((links[n]?).getD none).map (·.producer)).getD 0

/-- Sorts captured operations by issue order: insertion. -/
def insertCaptured (links : Vector (Option Link) 4) (x : Captured) : List Captured → List Captured
  | [] => [x]
  | y :: l =>
    if x.order links < y.order links then x :: y :: l else y :: insertCaptured links x l

/-- Captured operations in issue order. -/
def sortCaptured (links : Vector (Option Link) 4) (l : List Captured) : List Captured :=
  l.foldl (fun acc x => insertCaptured links x acc) []

/-- Whether a result lands before a frame is written although it is tagged: an LDT's, and the end of a SPILL or FILL
whose elements have all moved (R322, step 4). -/
def Flight.isTile (f : Flight) : Bool := decide (f.kind ≥ 6) || f.writes.any fun w => match w with
  | .t _ _ => true
  | _ => false

/-- Whether the current bulk element of a list operation is in flight or parked (R324). -/
def ListOp.parkedAt (l : ListOp) : Bool := l.waiting

/-- The operand block address of a tag (Table 16-2). -/
def blockAddr (tag : Nat) : Nat := 0x2F580 + 384 * (tag - 1)

/-- The bytes of an operand: an FP32 register, or the low and the high register of an FP64 pair (R325). -/
def operandBytes (wide : Bool) (l : List DWord) : List Byte :=
  let lo := l.flatMap fun x => valBytes 4 x.toNat
  if wide then lo ++ l.flatMap fun x => valBytes 4 (x.toNat / 2 ^ 32) else lo

/-- An operand read back from its bytes. -/
def operandOf (wide : Bool) (m : Memory) (a : Nat) : List DWord :=
  (upTo 16).map fun i =>
    BitVec.ofNat 64 (m.val (a + 4 * i) 4 + if wide then m.val (a + 64 + 4 * i) 4 * 2 ^ 32 else 0)

/-- The operand fields of a V instruction that name links, by position A, B. -/
def linkOperands : Instr → List (Nat × Nat)
  | i =>
    let f (p : Nat) (c : BitVec 5) : List (Nat × Nat) := if c.toNat ≥ 28 then [(p, c.toNat - 28)] else []
    match i with
    | .vadd _ _ a b _ _ | .vsub _ _ a b _ _ | .vmul _ _ a b _ _ | .vfma _ _ a b _ _ | .vfms _ _ a b _ _
    | .vfnma _ _ a b _ _ | .vdiv _ _ a b _ _ | .vmin _ _ a b _ _ | .vmax _ _ a b _ _ | .vmaxa _ _ a b _ _
    | .vcmp _ _ a b _ => f 0 a ++ f 1 b
    | .vthr _ _ _ _ a b _ => f 0 a ++ f 1 b
    | .vsqrt _ _ a _ _ | .vrsqrt _ _ a _ _ | .vrcp _ _ a _ _ | .vabs _ _ a _ _ | .vneg _ _ a _ _ => f 0 a
    | .vsgn _ _ _ _ a _ => f 0 a
    | .vmov _ _ a _ => f 0 a
    | _ => []

/-- Whether an operand of a V operation is an FP64 pair. -/
def wideOperand (o : VOp) : Bool :=
  match o.inst with
  | .vcvt _ _ _ code _ => cvtFrom64 code.toNat
  | i => vIsFp i && fmtPrec64 o.fmt

/-- The cells of the operand block of a captured V operation: its register operands (R325). -/
def VOp.blockCells (o : VOp) : List (Nat × List Byte) :=
  ((upTo 3).zip o.operands).filterMap fun x =>
    if (linkOperands o.inst).any (·.1 == x.1) || x.2.isEmpty then none
    else some (blockAddr o.tag.toNat + 128 * x.1, operandBytes (wideOperand o) x.2)

/-- Writes the digit buffers of the live links (R325): each is in use by a captured producer or consumer or by an entry of its
own (R162, R276), and holds the digits there by cycle `fin`. -/
def Tile.writeDigits (t : Tile) (fin : Nat) : Tile :=
  (upTo 4).foldl (fun (t : Tile) n => match (t.sch.links[n]?).getD none with
    | some l => t.withPad fun p =>
        p.writeRun (0x2F280 + 192 * n) (valBytes 192 (l.buffer (digitsBy l.done l.dr fin l.bypass)))
    | none => t) t

/-- The replay entry of a captured operation (Table 16-1): the units stopped in cycle `fin`. -/
def Tile.entryOf (t : Tile) (fin : Nat) : Captured → Nat
  | .flight f => replayEntry f.kind f.tag.toNat f.info (pdestOf f.writes) 0 0 0 false f.opx.toNat f.opy.toNat
  | .vop o =>
    let cur (p : Nat) : Nat := match (linkOperands o.inst).find? (·.1 == p) with
      | some x => match (t.sch.links[x.2]?).getD none with
        | some l => digitsBy l.done l.dr fin l.bypass
        | none => 0
      | none => 0
    let pd := match o.dest with
      | some n => 28 + n
      | none => pdestOf o.writes
    replayEntry 5 o.tag.toNat o.info pd (digitsBy o.due o.dr fin o.bypass) (cur 0) (cur 1) false 0 0
  | .list l => replayEntry (if l.fill then 7 else 6) l.tag.toNat l.info (l.regs.headD 0) l.k 0 0 l.parkedAt l.ea 0
  | .link n => match (t.sch.links[n]?).getD none with
    | some l => replayEntry 10 0 ⟨0#32, none, 0, t.ctl.rrb⟩ (28 + n) l.dr 0 0 false 0 0
    | none => 0

/-- What a trap captures: tagged loads, atomics and divisions not landed, tagged V operations, list operations, and
live links that nothing has claimed and whose producer has completed (R324, R276). -/
def Tile.toCapture (t : Tile) : List Captured :=
  sortCaptured t.sch.links
    ((t.sch.flights.filter fun f => f.tag != 0#3 && f.kind != 0 && decide (f.kind ≤ 4)).map Captured.flight
      ++ t.sch.vops.map (Captured.vop)
      ++ t.lists.map Captured.list
      ++ (upTo 4).filterMap fun n => match (t.sch.links[n]?).getD none with
        | some l => if l.consumer.isNone && !(t.sch.vops.any fun o => o.dest == some n) then some (.link n) else none
        | none => none)

/-- The tag a captured operation holds; a list operation whose bulk element is under way keeps its tag outstanding
(R324). -/
def Captured.tag : Captured → Nat
  | .flight f => f.tag.toNat
  | .vop o => o.tag.toNat
  | .list l => if l.parkedAt then 0 else l.tag.toNat
  | .link _ => 0

/-- Writes the operand blocks of captured operations. -/
def Tile.writeBlocks (t : Tile) (l : List Captured) : Tile :=
  l.foldl (fun t x => match x with
    | .flight f =>
      if f.kind = 2 then { t with pad := t.pad.writeRun (blockAddr f.tag.toNat) f.data } else t
    | .vop o => o.blockCells.foldl (fun (t : Tile) c => { t with pad := t.pad.writeRun c.1 c.2 }) t
    | _ => t) t

/-- The producers upstream of operations along links, the operations included, by issue order. -/
def withUpstream (s : Sched) : Nat → List Nat → List Nat
  | 0, l => l
  | fuel + 1, l =>
    let ups := (s.vops.filter fun o => l.elem o.seq).flatMap fun o => (s.ownSrcs o).filterMap fun n =>
      ((s.links[n]?).getD none).map (·.producer)
    withUpstream s fuel (l ++ ups.filter fun x => !l.elem x)

/-- The last cycle of steps 1 to 4 of R322: in which the last exposed or untagged producer completes, with the producers
upstream of it along links, the last LDT and the last element of a FILL lands, and a BARARR evaluates. -/
def Tile.settleCycle (t : Tile) : Nat :=
  let vs := withUpstream t.sch 4 ((t.sch.vops.filter (·.tag == 0#3)).map (·.seq))
  let m := t.pad.queue.foldl (fun m q => Nat.max m q.at_) t.sch.cycle
  let m := (t.sch.flights.filter fun f => f.tag == 0#3 || f.isTile).foldl (fun m f => Nat.max m f.due) m
  (t.sch.vops.filter fun o => vs.elem o.seq).foldl (fun m o => Nat.max m o.due) m

/-- What comes in during the tile's cycle: the results that are due and the decisions, in issue order (R153, R154, R271), at most
`fuel`. -/
def Tile.comeIn : Nat → Tile → Tile
  | 0, t => t
  | fuel + 1, t =>
    if t.landDue then Tile.comeIn fuel t.landNext
    else if t.decidesNow then
      match t.nextDecider with
      | some o => Tile.comeIn fuel (t.decideV o t.sch.cycle)
      | none => t
    else t

/-- What comes in from the tile's cycle on, cycle by cycle, for `n` cycles more: nothing issues, and everything that is due
completes, tagged or not, and fmt values come into force (R154, R165, R276, R322). -/
def Tile.runOn : Nat → Tile → Tile
  | 0, t => Tile.comeIn (t.sch.flights.length + t.sch.vops.length) t
  | n + 1, t =>
    let t := Tile.comeIn (t.sch.flights.length + t.sch.vops.length) t
    Tile.runOn n { t with sch := { t.sch with cycle := t.sch.cycle + 1 }, ctl := t.ctl.settleFmt (t.sch.cycle + 1) }

/-- Steps 1 to 4 of R322: port A performs every access already issued, and the units run on to the last cycle in which
something must complete. What comes after the boundary is brought forward to it: the tile's cycle stays the boundary's. -/
def Tile.settleForTrap (t : Tile) : Tile × Nat :=
  let first := t.settleCycle
  let u := t.drainAll t.pad.queue.length
  let fin := Nat.max first u.settleCycle
  ((Tile.runOn (fin - u.sch.cycle) u).withSch fun s => { s with cycle := t.sch.cycle }, fin)

/-- A trap record from what a frame would hold (R332). -/
def Tile.escalate (t : Tile) (src : Nat) (cause : Cause) (faddr info : DWord) (resume : Word) : Tile :=
  t.halt { src := src, cause := cause, cause2 := 0, faddr := faddr, info := info, pc := resume.toNat / 4 % 2 ^ 12
           cycle := t.sch.cycle, fatal := true }

/-- Steps 5 and 6 of R322, the units having stopped in cycle `fin`: what is unfinished is captured and the frame written,
with the tstat and fmt of the boundary; captured tags become free for the handler and its links read as dead (R160, R277). That
replay entries at and above NREP stay as they are is the model's choice (entry 83). -/
def Tile.writeFrame (t : Tile) (fin tstat : Nat) (fmt : Word) (cause : Cause) (after : Bool) (slot : Nat) (faddr info : DWord)
    (resume : Word) : Tile :=
  let caps := t.toCapture.take 16
  let hdr := t.frameHeader tstat fmt cause after slot caps.length faddr info resume
  let entries := caps.map (t.entryOf fin)
  let tags := caps.map Captured.tag
  let t1 := { t with pad := t.pad.writeRun 0x2F000 (valBytes 128 hdr ++ entries.flatMap (valBytes 32)) }
  let t2 := (t1.writeBlocks caps).writeDigits fin
  let t3 := tags.foldl (fun (t : Tile) n => t.setTag n .free) t2
  let t4 : Tile := { t3 with lists := [] }
  t4.withSch fun (s : Sched) =>
    { s with
      captured := caps
      capLinks := s.links
      capFin := fin
      links := Vector.replicate 4 none
      flights := s.flights.filter fun f => f.tag == 0#3 || f.kind == 0
      vops := [] }

/-- Taking a trap: the one operation of R322. The frame is written into the carve-out, traps become masked, and the
handler at tvec issues next, 12 cycles and 4 for each replay entry later; without a handler the trap escalates (R332).
`resume` is the bundle PC names. A tile that halts as it settles (R323, R330) takes no trap. -/
def Tile.takeTrap (t : Tile) (cause : Cause) (after : Bool) (slot : Nat) (faddr info : DWord) (resume : Word) : Tile :=
  let r := t.settleForTrap
  if r.1.sch.status == .halted && t.sch.status != .halted then r.1
  else
    let t := r.1.writeFrame r.2 t.tstat t.ctl.fmt cause after slot faddr info resume
    if t.ctl.tvec = 0#32 then t.escalate 1 cause faddr info resume
    else
      t.withSch fun s =>
        { s with
          tm := true
          tmSeq := s.seq
          own := []
          cbdAtTrap := t.blocks.length
          pc := t.ctl.tvec
          ready := r.2 + 12 + 4 * s.captured.length
          waited := 0
          stall := none
          alloc := []
          xfer := none
          cost := 0
          closing := [] }

/-- A cause raised at issue (R323): taken at the boundary before its bundle, or, raised by the handler, a double trap
(R330). A fetch that meets an uncorrectable error is counted (R367). -/
def Tile.issueTrap (t : Tile) (cause : Cause) (slot : Nat) (faddr info : DWord) : Tile :=
  let t := if cause = .fetchecc then t.count cause else t
  if t.sch.tm then t.doubleTrap cause else t.takeTrap cause false slot faddr info t.sch.pc

/-- The oldest pending cause is taken at a boundary with traps unmasked (R323). -/
def Tile.takePending (t : Tile) : Tile :=
  match t.sch.pend with
  | [] => t
  | p :: l => if t.sch.tm then t
    else (t.withSch fun s => { s with pend := l }).takeTrap p.cause true 0 p.faddr p.info t.sch.pc

/-- Quotient and remainder of DIV and REM (R212). -/
def divide (a b : Word) (unsigned : Bool) : Word × Word :=
  if b = 0#32 then (0xFFFFFFFF#32, a)
  else if unsigned then (a / b, a % b)
  else if a = 0x80000000#32 ∧ b = 0xFFFFFFFF#32 then (0x80000000#32, 0#32)
  else (wordOfInt (a.toInt.tdiv b.toInt), wordOfInt (a.toInt.tmod b.toInt))

/-- The result of a DIV or REM slot from its operands. -/
def divSlot (i : Instr) (a b : Word) : Word :=
  match i with
  | .div _ _ _ _ _ u => (divide a b u).1
  | .rem _ _ _ _ _ u => (divide a b u).2
  | _ => 0#32

/-- The instruction a replay entry's SLOT and YIMM hold. -/
def entryInstr (e : Nat) : Option Instr :=
  let w := BitVec.ofNat 32 (bitsOf e 128 32)
  match decodeSlot w true (if bitOf e 96 then some (BitVec.ofNat 28 (bitsOf e 100 28)) else none) with
  | .ok i => some i
  | .error _ => none

/-- The class of a replay entry's slot (R190). -/
def entryIsV (e : Nat) : Bool := bitsOf e 156 3 == 2

/-- The highest PDEST of a V operation: a predicate, a register, or a link where it may feed one (Table 12-1). -/
def vTop : Instr → Nat
  | .vsgn _ _ _ _ _ _ | .vthr _ _ _ _ _ _ _ => 7
  | .vfma _ _ _ _ _ _ | .vfms _ _ _ _ _ _ | .vfnma _ _ _ _ _ _ => 27
  | i => if isArith i then 31 else 27

/-- What RFT asks of an entry's PDEST and PROG by its kind and the instruction that its SLOT holds (R328). -/
def entryRange (kind pd prog : Nat) (i : Option Instr) : Bool :=
  match kind, i with
  | 5, some i => decide (pd ≤ vTop i) && decide (prog ≤ 28)
  | 6, some (.spill _ _ _ n c _) | 7, some (.fill _ _ _ n c _) =>
    decide (pd ≤ [31, 27, 15, 7].getD c.toNat 0) && decide (prog ≤ n.toNat + 1)
  | 6, _ | 7, _ => decide (pd ≤ 31) && decide (prog ≤ 16)
  | 2, _ => decide (pd ≤ 27) && decide (prog ≤ 28)
  | 10, _ => decide (28 ≤ pd) && decide (pd ≤ 31) && decide (prog ≤ 28)
  | _, _ => decide (pd ≤ 31) && decide (prog ≤ 28)

/-- Whether RFT accepts a replay entry: a known KIND, zero fields zero, PDEST, TAG and PROG in range (R328). A SPILL or FILL may
have no tag (R243); a field that Table 16-4 gives a kind no meaning in has the whole range of its kind of value (entry 60). -/
def entryOk (e : Nat) : Bool :=
  let kind := bitsOf e 0 5
  let tag := bitsOf e 5 3
  bitsOf e 8 24 == 0 && bitsOf e 36 16 == 0 && bitsOf e 98 2 == 0 && (bitOf e 96 || bitsOf e 100 28 == 0) &&
    (if kind = 0 then true
      else decide (kind ≤ 10) && (if kind = 10 then tag == 0 else tag != 0 || kind == 6 || kind == 7)
        && entryRange kind (bitsOf e 88 8) (bitsOf e 80 8) (entryInstr e))

/-- Whether a digit buffer holds a reserved digit code (R325, R328). -/
def badDigits (m : Memory) (n : Nat) : Bool :=
  let w := m.val (0x2F280 + 192 * n) 192
  (upTo 448).any fun i => let d := bitsOf w (3 * i) 3; d == 3 || d == 4 || d == 5

/-- The scratchpad as RFT reads it: every access of port A issued before has been performed (R108). -/
def Tile.frameMem (t : Tile) : Memory := (t.drainAll t.pad.queue.length).pad.mem

/-- The replay entries of the frame. -/
def frameEntries (m : Memory) : List Nat :=
  (upTo (bitsOf (m.val 0x2F000 8) 12 5)).map fun i => m.val (0x2F080 + 32 * i) 32

/-- The digit buffers that an entry uses: a captured link's, and those of a V operation's destination and operands (R325). -/
def entryLinks (e : Nat) : List Nat :=
  let dest := if decide (28 ≤ bitsOf e 88 8) then [bitsOf e 88 8 - 28] else []
  if bitsOf e 0 5 == 10 then dest
  else if bitsOf e 0 5 == 5 then dest ++ ((entryInstr e).map fun i => (linkOperands i).map (·.2)).getD []
  else []

/-- Whether the frame is malformed (R328). -/
def Tile.frameBad (t : Tile) : Bool :=
  let m := t.frameMem
  let h := m.val 0x2F000 8
  let nrep := bitsOf h 12 5
  decide (nrep > 16) || decide (bitsOf h 40 5 > 16) || decide (bitsOf h 37 3 > 4) || decide (bitsOf h 32 5 < 4)
    || decide (bitsOf h 32 5 > 28) || fmtRefused (m.word 0x2F03C)
    || (frameEntries m).any (fun e => !entryOk e)
    || (frameEntries m).any (fun e => (entryLinks e).any (badDigits m))
    || t.blocks.length != t.sch.cbdAtTrap

/-- The logical register of a physical one: the inverse of R149's rotation. -/
def unrotate (rrb f n p : Nat) : Nat := if p < f then p else f + (p - f + n - rrb % n) % n

/-- The physical register `k` after physical register `p` in the order of their names under `rrb`. -/
def stepReg (rrb f n p k : Nat) : Nat := rotate rrb f n (unrotate rrb f n p + k)

/-- The words and address of a replay entry's instruction. -/
def entryInfo (e : Nat) : SlotInfo :=
  ⟨BitVec.ofNat 32 (bitsOf e 128 32), if bitOf e 96 then some (BitVec.ofNat 28 (bitsOf e 100 28)) else none,
    4 * bitsOf e 52 12, bitsOf e 32 4⟩

/-- The issue order of a re-injected operation: the captured one's, or a new one for an entry that captures nothing. -/
def Tile.seqOf (t : Tile) (x : Option Captured) : Nat :=
  match x with
  | some (.flight f) => f.seq
  | some (.vop o) => o.seq
  | some (.list l) => l.seq
  | _ => t.sch.seq

/-- A core producer re-injected: its result lands `lat` cycles after RFT's issue cycle `c` (R326). -/
def Tile.reinjectFlight (c : Nat) (t : Tile) (e : Nat) (x : Option Captured) (lat : Nat) (ws : List RegWrite)
    (data : List Byte) : Tile :=
  (t.withSch fun s =>
    { s with
      seq := s.seq + 1
      flights := s.flights ++ [⟨t.seqOf x, c + lat, BitVec.ofNat 3 (bitsOf e 5 3), ws, none, bitsOf e 0 5,
        BitVec.ofNat 64 (bitsOf e 192 64), BitVec.ofNat 32 (bitsOf e 160 32), data, entryInfo e⟩] }).setTag (bitsOf e 5 3)
    .outstanding

/-- The writes of a vector load from the data in its operand block (R325, R326). -/
def vLoadWrites (m : Memory) (e : Nat) : List RegWrite :=
  let a := blockAddr (bitsOf e 5 3)
  let pd := bitsOf e 88 8
  let v (k : Nat) : VReg := vreg fun i => m.word (a + 64 * k + 4 * i)
  match entryInstr e with
  | some (.ldvb _ _ _ _ _ _) => [.v pd (v 0), .v (stepReg (bitsOf e 32 4) 12 16 pd 1) (v 1)]
  | some (.ldvg _ _ _ _ _ _) => [.vMask pd (BitVec.ofNat 16 (bitsOf e 192 16)) (v 0)]
  | _ => [.v pd (v 0)]

/-- A captured link with what its digit buffer now holds (R277, R329): its producer has completed. -/
def Tile.capLink (t : Tile) (m : Memory) (c n k : Nat) : Option Link :=
  ((t.sch.capLinks[n]?).getD none).map fun l =>
    { l.edited k (m.val (0x2F280 + 192 * n) 192) with done := Nat.min l.done c, consumer := none }

/-- A link that only its digit buffer gives: its value is what `k` digits stand for (entry 60). -/
def bufferLink (m : Memory) (c n k seed who : Nat) : Link :=
  let p64 := fmtPrec64 (m.word 0x2F03C)
  let w := m.val (0x2F280 + 192 * n) 192
  let x (j : Nat) : Dyad := prefixValue (bufferLane w j).1 (bufferLane w j).2 k
  { value := Vector.ofFn fun j => BitVec.ofNat 64 ((RCtx.full (precFmt p64) .rne).dyad (x j)).1
    exact := Vector.ofFn fun j => if (x j).m = 0 then .zero false else .fin (decide ((x j).m < 0)) (x j).m.natAbs (x j).e
    seed := seed, who := who, prec64 := p64, done := c, dr := k, bypass := false, chained := false, producer := 0, consumer := none }

/-- A link is live again, unclaimed (R277). -/
def Tile.reviveLink (t : Tile) (m : Memory) (c n : Nat) (k : Option Nat) : Tile :=
  match (t.sch.links[n]?).getD none with
  | some _ => t
  | none =>
    match (t.sch.capLinks[n]?).getD none, k with
    | some l, k => t.withSch fun s => { s with links := s.links.setIfInBounds n (t.capLink m c n (k.getD l.dr)) }
    | none, some k =>
      { t with sch := { t.sch with links := t.sch.links.setIfInBounds n (some (bufferLink m c n k t.free t.who)) }, free := t.free + linkDraws }
    | none, none => t

/-- Claims links for a consumer (R266). -/
def Sched.claim (s : Sched) (seq : Nat) (l : List Nat) : Sched :=
  { s with links := l.foldl (fun v n => match (v[n]?).getD none with
      | some k => v.setIfInBounds n (some { k with consumer := some seq })
      | none => v) s.links }

/-- A V operation resumes (R188, R276, R277, R329): the instruction, its destination and its register operands are the
frame's, fmt and vbud those it sampled, or the frame's for an entry that captures nothing; its links are live again and it
claims them. An operation whose operands stand as they were captured goes on where it stopped, in the cycle after RFT issues: its
completion and its decision come as they would have come (R276); one that the frame changes starts anew in that cycle. -/
def Tile.reinjectV (c : Nat) (m : Memory) (t : Tile) (e : Nat) (x : Option Captured) (i : Instr) : Tile :=
  let tag := bitsOf e 5 3
  let pd := bitsOf e 88 8
  let info := entryInfo e
  let seq := t.seqOf x
  let w := vShape i
  let sampled : Word × Nat := match x with
    | some (.vop o) => (o.fmt, o.vbud)
    | _ => (m.word 0x2F03C, bitsOf (m.val 0x2F000 8) 32 5)
  let fmt := sampled.1
  let p64 := fmtPrec64 fmt
  let wide := match i with
    | .vcvt _ _ _ code _ => cvtFrom64 code.toNat
    | i => vIsFp i && p64
  let srcs := (linkOperands i).map (·.2)
  let t := srcs.foldl (fun (t : Tile) n => t.reviveLink m c n none) t
  let links := srcs.filterMap fun n => (t.sch.links[n]?).getD none
  let operand (p : Nat) (code : Option (BitVec 5)) : List DWord := match code with
    | none => []
    | some k =>
      if k.toNat ≥ 28 then (((t.sch.links[k.toNat - 28]?).getD none).map (·.value.toList)).getD []
      else operandOf wide m (blockAddr tag + 128 * p)
  let ops := [operand 0 w.a, operand 1 w.b, operand 2 (if w.third then some (vDest i) else none)]
  let full := vFull i sampled.2
  let out := vCompute i fmt (vBudget i sampled.2) ops
  let k := vKind i
  let lat := vLatency k p64 full out.bypass
  let rest : Option (Nat × Option Decider) := match x with
    | some (.vop o) => if o.inst = i ∧ o.operands = ops then some (o.due + c - t.sch.capFin, o.decider.map fun d =>
        ⟨Nat.max d.lo (t.sch.capFin + 1) + c - t.sch.capFin, d.hi + c - t.sch.capFin⟩) else none
    | _ => none
  let exact (code : Option (BitVec 5)) : Option (Vector FVal 16) :=
    code.bind fun k => if k.toNat ≥ 28 then ((t.sch.links[k.toNat - 28]?).getD none).map (·.exact) else none
  let dec : Option Decider := if k = .decide ∧ srcs ≠ [] then
      some ((rest.bind (·.2)).getD (deciderWindow i p64 (c + 1) links ops (exact w.a) (exact w.b)))
    else none
  let due := match dec with
    | some d => d.hi
    | none => links.foldl (fun m l => Nat.max m (l.done + k.chain)) ((rest.map (·.1)).getD (c + 1 + lat))
  let dest := if isArith i && decide (28 ≤ pd) then some (pd - 28) else none
  let writes : List RegWrite := match i with
    | .vsgn _ _ _ _ _ _ | .vthr _ _ _ _ _ _ _ => [.p pd out.pred]
    | i =>
      if dest.isSome then []
      else if vDest64 i fmt (p64 && (linkOperands i).any (·.1 == 0)) then
        [.v pd (lowWords out.lanes), .v (stepReg info.rrb 12 16 pd 1) (highWords out.lanes)]
      else [.v pd (lowWords out.lanes)]
  let dr := Nat.min full (fullDigits p64)
  let op : VOp :=
    { seq := seq, due := due, issued := c + 1, tag := BitVec.ofNat 3 tag, writes := writes
      flags := if vIsFp i || k == .cvt then out.flags else 0#5
      trapen := fmtTrapen fmt, dest := dest, srcs := srcs
      decider := dec, dr := dr, bypass := out.bypass, lat := lat, chain := k.chain, fmt := fmt, vbud := sampled.2, operands := ops
      inst := i, info := info }
  let t := (t.withSch fun s => { s.claim seq srcs with vops := s.vops ++ [op], seq := s.seq + 1 }).setTag tag .outstanding
  match dest with
  | none => t
  | some n =>
    let from_ := (((t.sch.capLinks[n]?).getD none).map fun l => (l.seed, l.who)).getD (t.free, t.who)
    let l : Link := { value := out.lanes, exact := vExact i fmt ops, seed := from_.1, who := from_.2, prec64 := p64, done := due, dr := dr
                      bypass := out.bypass, chained := out.bypass || links.any (·.chained), producer := seq, consumer := none }
    let l := if ((t.sch.capLinks[n]?).getD none).isSome then l.edited (bitsOf e 80 8) (m.val (0x2F280 + 192 * n) 192) else l
    { t with sch := { t.sch with links := t.sch.links.setIfInBounds n (some l) }, free := t.free + linkDraws }

/-- The rotating part of a file by SPILL's code (R149, R243). -/
def fileRot (c : Nat) : Nat × Nat :=
  match c with
  | 0 => (16, 16)
  | 1 => (12, 16)
  | 2 => (16, 1)
  | _ => (4, 4)

/-- A SPILL or FILL goes on at element PROG with the list the frame gives (R245, R326, R328): unparked, the next bundle waits
for it; parked, it waits for its element's access, if that is still there. An access of an element that the entry no longer
names parked is discarded, and the element is accessed anew. -/
def Tile.reinjectList (t : Tile) (e : Nat) (x : Option Captured) (fill : Bool) (bs n : BitVec 4) (code : BitVec 2) :
    Tile :=
  let tag := bitsOf e 5 3
  let info := entryInfo e
  let r := fileRot code.toNat
  let first := unrotate info.rrb r.1 r.2 (bitsOf e 88 8)
  let regs := (upTo (n.toNat + 1)).map fun i => rotate info.rrb r.1 r.2 (first + i)
  let all := upTo (n.toNat + 1)
  let order := if fill && code == 2#2 then all.filter (fun i => first + i != bs.toNat) ++ all.filter fun i => first + i == bs.toNat
    else all
  let seq := t.seqOf x
  let mine (a : BulkAcc) : Bool := a.seq == seq && (a.kind == .spill || a.kind == .fill) && !a.dropped
  let waiting := bitOf e 97 && t.accs.any mine
  let t := if waiting then t else { t with accs := t.accs.map fun a => if mine a then { a with dropped := true } else a }
  let seq := if !waiting && t.accs.any (·.seq == seq) then t.sch.seq else seq
  let l : ListOp := ⟨seq, fill, BitVec.ofNat 3 tag, bitsOf e 192 32, if code = 1#2 then 64 else 4, code.toNat, regs, order,
    bitsOf e 80 8, [], none, waiting, !waiting, info⟩
  let data := match x with
    | some (.list o) => if o.regs = regs && o.fill == fill then o.data else l.sources t.files
    | _ => l.sources t.files
  let l := { l with data := data }
  let t := { t with lists := t.lists ++ [l], sch := { t.sch with seq := t.sch.seq + 1 } }.setTag tag .outstanding
  if waiting then t else t.portA seq .list 0 info

/-- A bulk load of a replay entry is issued again (Table 16-1, KIND 8). -/
def Tile.reinjectBulk (t : Tile) (e : Nat) : Tile :=
  let two := match entryInstr e with
    | some (.bldd _ _ _ _ _) => true
    | _ => false
  let pd := bitsOf e 88 8
  let a : BulkAcc := ⟨t.sch.seq, if two then .bldd else .bldw, bitsOf e 192 64, if two then 8 else 4, [],
    BitVec.ofNat 3 (bitsOf e 5 3), pd :: (if two then [stepReg (bitsOf e 32 4) 16 16 pd 1] else []), .inTile, false, false,
    false, false⟩
  { t with accs := t.accs ++ [a], sch := { t.sch with seq := t.sch.seq + 1 } }.setTag (bitsOf e 5 3) .outstanding

/-- An ungranted ACQ of a replay entry is sent again (Table 16-1, KIND 9), its address entered in the hold table unless it
stands there. -/
def Tile.reinjectAcq (t : Tile) (e : Nat) : Tile :=
  let va := bitsOf e 192 64
  let shared := bitOf e 160
  let g : GuardReq := ⟨t.sch.seq, false, va, none, shared, BitVec.ofNat 3 (bitsOf e 5 3), .inTile, false, false⟩
  { t with
    guards := t.guards ++ [g]
    holds := if t.holds.any (·.va == va) then t.holds else t.holds ++ [(⟨va, shared, none⟩ : Hold)]
    sch := { t.sch with seq := t.sch.seq + 1 } }.setTag (bitsOf e 5 3) .outstanding

/-- Re-injects one entry as the frame has it (R326, R328, R329): `c` is RFT's issue cycle, `m` the frame, `x` the operation
captured in the entry. An entry whose SLOT holds no instruction of its kind re-enters nothing (entry 60). -/
def Tile.reinject (c : Nat) (m : Memory) (t : Tile) (e : Nat) (x : Option Captured) : Tile :=
  let pd := bitsOf e 88 8
  let opx := bitsOf e 192 64
  match bitsOf e 0 5, entryInstr e with
  | 1, _ | 3, _ => t.reinjectFlight c e x 8 [.s pd (BitVec.ofNat 32 (bitsOf e 160 32))] []
  | 2, _ => t.reinjectFlight c e x 8 (vLoadWrites m e) (m.bytes (blockAddr (bitsOf e 5 3)) 128)
  | 4, i =>
    t.reinjectFlight c e x 18
      [.s pd ((i.map fun i => divSlot i (BitVec.ofNat 32 opx) (BitVec.ofNat 32 (opx / 2 ^ 32))).getD 0#32)] []
  | 5, some i => if entryIsV e then t.reinjectV c m e x i else t
  | 6, some (.spill _ _ bs n code _) => t.reinjectList e x false bs n code
  | 7, some (.fill _ _ bs n code _) => t.reinjectList e x true bs n code
  | 8, _ => t.reinjectBulk e
  | 9, _ => t.reinjectAcq e
  | 10, _ => t.reviveLink m c (pd - 28) (some (bitsOf e 80 8))
  | _, _ => t

/-- Return from a trap (R328, R329, R332): a malformed frame halts the tile, ESC escalates, and otherwise the frame is
reloaded, its entries re-injected and traps unmasked; the next bundle issues at PC. Called when RFT's bundle closes,
with the tile's cycle already past it; `c` is RFT's issue cycle. -/
def Tile.returnFromTrap (t : Tile) (c : Nat) : Tile :=
  let m := t.frameMem
  let h := m.val 0x2F000 8
  let faddr := BitVec.ofNat 64 (m.val 0x2F028 8)
  let info := BitVec.ofNat 64 (m.val 0x2F030 8)
  let rec_ (src : Nat) (cause2 : Nat) (cz : Cause) (raw : Option Nat) : TRec :=
    { src := src, cause := cz, cause2 := cause2, faddr := faddr, info := info, pc := bitsOf h 20 12
      cycle := m.val 0x2F008 8, fatal := true, raw := raw }
  if t.frameBad then t.halt (rec_ 3 (bitsOf h 0 8) .dbltrap none)
  else if bitOf h 45 then t.halt (rec_ 0 0 (Cause.ofCode (bitsOf h 0 8)) (some (bitsOf h 0 8)))
  else
    let hdr := m.val 0x2F000 128
    let entries := frameEntries m
    let t := { t with
      ctl := { t.ctl with
        rrb := bitsOf h 8 4, vbud := bitsOf h 32 5, fmt := m.word 0x2F03C, fmtNext := []
        lc := m.word 0x2F040, ec := m.word 0x2F044 }
      sch := { t.sch with
        lstk := (upTo (bitsOf h 37 3)).map fun i =>
          (BitVec.ofNat 32 (bitsOf hdr (576 + 64 * i) 32), BitVec.ofNat 32 (bitsOf hdr (608 + 64 * i) 32))
        rstk := (upTo (bitsOf h 40 5)).map fun i => BitVec.ofNat 32 (4 * bitsOf hdr (832 + 12 * i) 12)
        links := Vector.replicate 4 none } }
    let caps := t.sch.captured
    let t := ((upTo entries.length).zip entries).foldl (fun t x => Tile.reinject c m t x.2 caps[x.1]?) t
    let last := (t.sch.flights.filter fun f => f.kind != 0 && f.tag != 0#3).foldl (fun m f => Nat.max m f.due) (c + 8 + 4 * entries.length)
    t.withSch fun s =>
      { s with
        tm := false
        own := []
        captured := []
        capLinks := Vector.replicate 4 none
        capFin := 0
        pc := BitVec.ofNat 32 (4 * bitsOf h 20 12)
        ready := Nat.max s.ready last }

end Sys2Proof.Machine
end

