-- ==== Sys2Proof/Machine/Chan.lean ====
section
/-! DEFINITION. What a tile hands to its router: packets, arrivals and contributions (R88 to R90), what a containment
block holds back and hands over (R314, R315), the abort of a block (R316), and the end of a task (R137). -/

namespace Sys2Proof.Machine

/-- The bytes a CRC of a paired tile covers (R142). -/
def Msg.bytes : Msg → List Byte
  | .packet h p _ _ => valBytes 8 (h.och * 2 ^ 32 + h.seq.toNat) ++ p
  | .arrival h a n _ => valBytes 8 (h.och * 2 ^ 32 + h.seq.toNat) ++ valBytes 8 (n * 2 ^ 32 + a.toNat)
  | .partial_ _ j _ r d => valBytes 8 (j * 2 ^ 32 + r) ++ d.flatMap wordBytes
  | _ => []

/-- The tag a shadow CRC carries: kind, channel or tree, SEQ or round (Table 06-7). -/
def Msg.key : Msg → Nat
  | .packet h _ _ _ => 1 * 2 ^ 48 + h.och * 2 ^ 32 + h.seq.toNat
  | .arrival h _ _ _ => 1 * 2 ^ 48 + h.och * 2 ^ 32 + h.seq.toNat
  | .partial_ _ j _ r _ => 2 * 2 ^ 48 + j * 2 ^ 32 + r
  | _ => 0

/-- The header of a packet or arrival. -/
def Msg.head : Msg → Option PHead
  | .packet h _ _ _ => some h
  | .arrival h _ _ _ => some h
  | _ => none

/-- Hands a packet, arrival or contribution to the router (R142). -/
def Tile.emit (t : Tile) (group : Bool) (m : Msg) : Tile := t.emitAs group m.key (Config.crc32 m.bytes) m

/-- The comparison a paired tile's bulk store, outbound copy row, ACQ or REL passes before it leaves (R142, R143): the
primary's request waits for the shadow's CRC, the shadow sends its CRC once and its request never leaves. Whether the
request may leave now: once matched it may, however often it is replayed, until it is over (`pairOver`). -/
def Tile.pairGate (t : Tile) (key : Nat) (bytes : List Byte) : Tile × Bool :=
  match t.pair with
  | none => (t, true)
  | some p =>
    if p.ok.elem key then (t, p.primary)
    else if !p.primary then
      ({ t with out := t.out ++ [.crc p.partner key (Config.crc32 bytes)], pair := some { p with ok := key :: p.ok } }, false)
    else if p.held.any fun h => h.key == key && h.item.isSome then (t, false)
    else
      ({ t with pair := some { p with held := p.held ++ [⟨key, Config.crc32 bytes, some (.token key), t.sch.cycle, false, false⟩] } },
        false)

/-- A compared request is over: its key stands for no other (R143). -/
def Tile.pairOver (t : Tile) (key : Nat) : Tile := { t with pair := t.pair.map fun (p : Pair) => { p with ok := p.ok.filter (· != key) } }

/-- The key of a bulk access in a pair's comparison, and of a guard request. -/
def accKey (seq : Nat) : Nat := 5 * 2 ^ 48 + seq
/-- The key of a guard request in a pair's comparison. -/
def guardKey (seq : Nat) : Nat := 6 * 2 ^ 48 + seq

/-- What the two tiles of a pair compare of a bulk store: its address and its data (R142). -/
def BulkAcc.pairBytes (a : BulkAcc) : List Byte := valBytes 8 a.va ++ a.data

/-- Whether the tile is a shadow. -/
def Tile.isShadow (t : Tile) : Bool :=
  match t.pair with
  | some p => !p.primary
  | none => false

/-- Replaces an outbound channel. -/
def Tile.withOut (t : Tile) (n : Nat) (f : OutCh → OutCh) : Tile :=
  match t.outs[n]? with
  | some o => { t with outs := t.outs.setIfInBounds n (f o) }
  | none => t

/-- An outbound channel. -/
def Tile.outCh (t : Tile) (n : Nat) : OutCh := (t.outs[n]?).getD ⟨0#64, 0, 0#32, false⟩

/-- An inbound channel. -/
def Tile.inCh (t : Tile) (n : Nat) : InCh := (t.ins[n]?).getD ⟨0#64, false, 0#128, 0#32, 0#32, false, false, none⟩

/-- The header of the next packet or arrival of an outbound channel (R88, R89). -/
def Tile.header (t : Tile) (n : Nat) : PHead :=
  let o := t.outCh n
  { src := ⟨none, t.coord⟩, dst := entryDest t.coord o.entry, och := n, ich := entryCh o.entry, seq := o.seq + 1#32
    vc := bitsOf o.entry.toNat 60 2, yx := o.entry.getLsbD 59 }

/-- Whether a memory send of a channel has still to read its source: what the channel sends next waits behind it, so that its
packets keep their order (R93). -/
def Tile.reading (t : Tile) (n : Nat) : Bool := t.sends.any fun o => o.ch == n && !o.gone

/-- A message or an effect waits behind a memory send of its channel. -/
def Tile.sendAfter (t : Tile) (n : Nat) (ms : List Msg) (es : List Staged) : Tile :=
  { t with sends := t.sends ++ [⟨t.sch.seq, t.sch.cycle, n, 0, 0, false, [], [], some [], ms, es, false, t.sch.cycle + 1⟩] }

/-- Hands a message of a channel to the router, in the channel's order (R93). A group goes to a pair's comparison (R315). -/
def Tile.emitOn (t : Tile) (n : Nat) (group : Bool) (m : Msg) : Tile :=
  if !group && t.reading n then t.sendAfter n [m] [] else t.emit group m

/-- Hands one packet to the fabric: SEQ rises by one (R90). The end-to-end CRC of a packet has no polynomial in the spec: a
flag says whether it fails, and no step of the model makes it fail (entry 61). -/
def Tile.sendPacket (t : Tile) (n : Nat) (group : Bool) (payload : List Byte) (poison : NatSet) : Tile :=
  (t.withOut n fun o => { o with seq := o.seq + 1#32 }).emitOn n group (.packet (t.header n) payload poison false)

/-- Hands one remote arrival to the fabric (R95, R310). -/
def Tile.sendArrival (t : Tile) (n : Nat) (group : Bool) (addr : Word) (count : Nat) (tag : BitVec 3) : Tile :=
  (t.withOut n fun o => { o with seq := o.seq + 1#32 }).emitOn n group (.arrival (t.header n) addr count tag)

/-- The packets a payload forms (R305). -/
def packetsOf (len : Nat) : Nat := ceilDiv len 256

/-- Room a packet takes in the staging area (Table 14-4). -/
def packetRoom (len : Nat) : Nat := 32 + 32 * ceilDiv len 32

/-- Room a staged effect takes. -/
def Staged.room : Staged → Nat
  | .packet _ p _ => packetRoom p.length
  | _ => 32

/-- Room that the packets of a payload take (Table 14-4). -/
def sendRoom (len : Nat) : Nat :=
  (upTo (packetsOf len)).foldl (fun n j => n + packetRoom (Nat.min 256 (len - 256 * j))) 0

/-- Room that a memory send not yet staged takes. -/
def SendOp.room (o : SendOp) : Nat :=
  if o.gone then 0 else o.effs.foldl (fun n x => n + x.room) (if o.heads.isNone then sendRoom o.len else 0)

/-- Room taken in the staging area: staged effects, memory sends still reading, and start stores not yet performed (R314). -/
def Tile.roomTaken (t : Tile) : Nat :=
  t.blocks.foldl (fun n b => b.staged.foldl (fun n x => n + x.room) n) 0 + t.sends.foldl (fun n o => n + o.room) 0
    + 32 * (t.pad.queue.filter fun q => match q.act with
      | .start _ _ st => st
      | _ => false).length

/-- Whether effects of a size fit in the 4 KiB staging area, when a block is open (R314). -/
def Tile.roomFor (t : Tile) (n : Nat) : Bool := t.blocks.isEmpty || decide (t.roomTaken + n ≤ 4096)

/-- The bulk line of an address. -/
def lineOf (va : Nat) : Nat := va / 64

/-- A bulk store of the tile updates the line of the read buffer that it writes, if it stands there (R80). -/
def Pad.updateLine (p : Pad) (va : Nat) (data : List Byte) : Pad :=
  { p with buf := p.buf.map fun b => if b.line = lineOf va then
      { b with bytes := b.bytes.take (va % 64) ++ data ++ b.bytes.drop (va % 64 + data.length) } else b }

/-- The tile takes its next place in issue order. -/
def Tile.bump (t : Tile) : Tile := t.withSch fun s => { s with seq := s.seq + 1 }

/-- A staged store leaves for its port as if issued now, at the tile's next place in issue order (R71, R80, R315). -/
def Tile.releaseStore (t : Tile) (seq : Nat) : Tile :=
  match t.accs.find? (·.seq == seq) with
  | some a =>
    { (t.withPad fun p => p.updateLine a.va a.data).bump with
      accs := (t.accs.filter (·.seq != seq)) ++ [{ a with staged := false, seq := t.sch.seq }] }
  | none => t

/-- Hands a staged effect over, as if issued now (R315). -/
def Tile.handOver (group : Bool) (t : Tile) (x : Staged) : Tile :=
  match x with
  | .packet n p ps => t.sendPacket n group p ps
  | .arrival n a c tag => t.sendArrival n group a c tag
  | .store seq => t.releaseStore seq
  | .start ch i => (t.acceptCopy ch i t.sch.seq).bump

/-- Whether an effect is compared at an outer close of a paired tile; a copy's rows are compared as they leave (Table 06-7). -/
def Staged.compared : Staged → Bool
  | .start _ _ => false
  | _ => true

/-- An effect that its pair's comparison has passed leaves with its block's close: a store may leave without another
comparison, a copy is accepted, and packets and arrivals are already formed (R315). -/
def Tile.handMatched (t : Tile) (x : Staged) : Tile :=
  match x with
  | .store seq =>
    { t.releaseStore seq with
      pair := t.pair.map fun (p : Pair) => { p with ok := p.ok ++ [accKey t.sch.seq] } }
  | .start ch i => (t.acceptCopy ch i t.sch.seq).bump
  | _ => t

/-- CBCLOSE's effect: an inner block gives its staged effects to the outer one; the outer block hands every effect over
in order (R315), however many copies a channel then has (entry 83). In a paired tile the effects went to comparison while the
bundle waited, and leave together now; what CBCLOSE's own bundle has staged is compared on its own (R142). -/
def Tile.closeBlock (t : Tile) : Tile :=
  match t.blocks with
  | [] => t
  | [b] =>
    if b.submitted then
      let ms := match t.pair with
        | some p => p.held.filterMap fun x => if x.group then x.item.filter (fun m => match m with
          | .token _ => false
          | _ => true) else none
        | none => []
      let t := (b.staged.take b.sub).foldl Tile.handMatched
        { t with
          blocks := []
          out := t.out ++ ms
          pair := t.pair.map fun (p : Pair) => { p with held := p.held.filter fun x => !x.group, ok := p.ok.erase 0 } }
      (b.staged.drop b.sub).foldl (Tile.handOver false) t
    else b.staged.foldl (Tile.handOver false) { t with blocks := [] }
  | b :: o :: l => { t with blocks := { o with staged := o.staged ++ b.staged } :: l }

/-- One staged effect goes to a pair's comparison (R315): the primary's is held, the shadow sends its CRC. -/
def Tile.submitOne (t : Tile) (x : Staged) : Tile :=
  match x with
  | .packet n p ps => t.sendPacket n true p ps
  | .arrival n a c tag => t.sendArrival n true a c tag
  | .store seq => match t.accs.find? (·.seq == seq) with
    | some a => t.emitAs true (accKey seq) (Config.crc32 a.pairBytes) (.token (accKey seq))
    | none => t
  | .start _ _ => t

/-- The effects of a paired tile's outer block go to the primary's router for comparison (R315): all that have not gone yet,
which a handler may have added since. -/
def Tile.submitBlock (t : Tile) : Tile :=
  match t.blocks with
  | [b] =>
    let new := b.staged.drop b.sub
    if !t.sends.isEmpty || (b.submitted && new.isEmpty) then t
    else
      let more := b.submitted && new.any Staged.compared
      let t := new.foldl Tile.submitOne t
      { t with
        blocks := [{ b with submitted := true, sub := b.staged.length }]
        pair := if more then t.pair.map fun (p : Pair) => { p with ok := p.ok.filter (· != 0) } else t.pair }
  | _ => t

/-- CBOPEN's effect, when its bundle closes: the checkpoint holds every register as it stands (R313). -/
def Tile.openBlock (t : Tile) (handler : Word) (creg : Nat) : Tile :=
  { t with blocks :=
      ⟨handler, creg, ⟨t.files.s, t.files.a, t.files.p, t.ctl.rrb, t.ctl.lc, t.ctl.ec, t.sch.rstk, t.sch.lstk⟩, t.sch.seq,
        [], false, 0⟩ :: t.blocks }

/-- Whether a paired tile's outer block may close: its effects were submitted and every one has matched, which the key 0
records, or there were none to compare (R315). -/
def Tile.pairClosed (t : Tile) : Bool :=
  match t.pair, t.blocks with
  | some p, [b] => if b.submitted then b.sub == b.staged.length && p.ok.elem 0 else b.staged.all fun x => !x.compared
  | _, _ => true

/-- The tags that discarded staged effects free: those of arrivals and stores (R316). -/
def Staged.tags (accs : List BulkAcc) : Staged → List Nat
  | .arrival _ _ _ tag => [tag.toNat]
  | .store seq => (accs.filter (·.seq == seq)).map (·.tag.toNat)
  | _ => []

/-- Discards a staged effect: CREDIT rises by its packet, and its tag becomes free (R316, step 4). -/
def Tile.unstage (t : Tile) (x : Staged) : Tile :=
  let t := (x.tags t.accs).foldl (fun (t : Tile) n => t.setTag n .free) t
  match x with
  | .packet n _ _ => t.withOut n fun o => { o with credit := o.credit + 1 }
  | .store seq => { t with accs := t.accs.filter (·.seq != seq) }
  | _ => t

/-- The SEQ that a submitted packet or arrival took is taken back: no effect of a discarded block reaches any party (R316). -/
def Tile.unsubmit (t : Tile) (x : Staged) : Tile :=
  match x with
  | .packet n _ _ | .arrival n _ _ _ => t.withOut n fun o => { o with seq := o.seq - 1#32 }
  | _ => t

/-- A memory send of a discarded block: CREDIT rises by its packets, and what waited behind it is discarded too (R316). -/
def Tile.dropSend (t : Tile) (o : SendOp) : Tile :=
  if o.gone then t
  else o.effs.foldl Tile.unstage (t.withOut o.ch fun x => { x with credit := x.credit + packetsOf o.len })

/-- What a discarded access of port A leaves behind: the tag it frees, the ring slot that lands unwritten (R242, R316). -/
def PortAct.left : PortAct → Nat × Option (Nat × Nat)
  | .load tag _ plan _ => (tag.toNat, plan.ringSlot)
  | .atom tag _ _ _ _ _ => (tag.toNat, none)
  | .arrive _ _ tag => (tag.toNat, none)
  | .barRd tag _ _ _ => (tag.toNat, none)
  | .feRd tag _ _ => (tag.toNat, none)
  | _ => (0, none)

/-- Removes an engine's unfired operations of the block, and marks the fired ones so that their later faults are
discarded (R316, step 3). -/
def Eng.abort (e : Eng) (seq : Nat) : Eng :=
  { queue := e.queue.filter (·.seq < seq)
    fired := e.fired.map fun f => if f.op.seq < seq then f else { f with dropped := true } }

/-- The tags of an engine's unfired operations of the block. -/
def Eng.abortTags (e : Eng) (seq : Nat) : List Nat :=
  (e.queue.filter fun o => decide (seq ≤ o.seq)).map (·.tag.toNat)

/-- Whether an access is a load or an element of a list operation, which an abort discards (R316, step 2). -/
def AccKind.isCore : AccKind → Bool
  | .bldw | .bldd | .fill | .spill => true
  | _ => false

/-- The first steps of an abort of a block that opened at `seq` (R316, steps 2 and 3): every core, V and bulk-load operation
issued inside it that has not completed is discarded, an access that still waits at port A among them, and every engine
operation that has not fired. -/
def Tile.discardInside (t : Tile) (seq : Nat) : Tile :=
  let inside (n : Nat) : Bool := decide (seq ≤ n)
  let qs := t.pad.queue.filter fun q => inside q.seq
  let fl := t.sch.flights.filter fun f => inside f.seq
  let vo := t.sch.vops.filter fun o => inside o.seq
  let tags := qs.map (·.act.left.1) ++ fl.map (·.tag.toNat) ++ vo.map (·.tag.toNat)
    ++ (t.accs.filter fun a => inside a.seq && !a.staged && a.kind.isCore).map (·.tag.toNat)
    ++ (t.lists.filter fun o => inside o.seq).map (·.tag.toNat)
    ++ t.eng.mx.abortTags seq ++ t.eng.xp.abortTags seq ++ t.eng.up.abortTags seq ++ t.eng.rn.abortTags seq
  let t := (fl.map (·.ring) ++ qs.map (·.act.left.2)).foldl Tile.landSlot t
  let t := t.withPad fun p => { p with queue := p.queue.filter fun q => !inside q.seq }
  let t := t.withSch fun s =>
    { s with
      flights := s.flights.filter fun f => !inside f.seq
      vops := s.vops.filter fun o => !inside o.seq
      links := s.links.map fun k => match k with
        | some k => if inside k.producer || k.consumer.any inside then none else some k
        | none => none }
  let t := { t with
    accs := t.accs.map fun (a : BulkAcc) => if inside a.seq && !a.staged && a.kind.isCore then { a with dropped := true } else a
    lists := t.lists.filter fun o => !inside o.seq }
  let t := t.withEng fun e =>
    { e with mx := e.mx.abort seq, xp := e.xp.abort seq, up := e.up.abort seq, rn := e.rn.abort seq }
  let sends := t.sends.filter fun o => inside o.seq && (o.heads.isNone || !o.effs.isEmpty)
  let t := sends.foldl Tile.dropSend { t with sends := t.sends.filter fun o => !sends.elem o }
  tags.foldl (fun (t : Tile) n => t.setTag n .free) t

/-- Step 4 of R316: the block's staged effects are discarded, submitted ones from the pair's comparison too. -/
def Tile.discardStaged (t : Tile) (b : Block) : Tile :=
  let t := if b.submitted then (b.staged.take b.sub).foldl Tile.unsubmit t else t
  { b.staged.foldl Tile.unstage t with
    pair := t.pair.map fun (p : Pair) => { p with held := p.held.filter fun h => !h.group, ok := p.ok.erase 0 } }

/-- The abort of the innermost containment block, the steps of R316 in order: what the block issued and has not
completed is discarded, its staged effects too, the checkpoint is restored, the cause register takes the cause, and the
next bundle issues at the handler with traps unmasked. No frame is written. -/
def Tile.abortBlock (t : Tile) (cause : Cause) : Tile :=
  match t.blocks with
  | [] => t
  | b :: l =>
    let t := (t.discardInside b.seq).discardStaged b
    let t := { t with
      files := ({ t.files with s := b.chk.s, a := b.chk.a, p := b.chk.p }).put (.s b.creg (BitVec.ofNat 32 cause.code))
      ctl := { t.ctl with rrb := b.chk.rrb, lc := b.chk.lc, ec := b.chk.ec }
      sch := { t.sch with
        rstk := b.chk.rstk, lstk := b.chk.lstk, pc := b.handler, ready := t.sch.cycle, waited := 0, stall := none
        xfer := none, cost := 0, alloc := [], closing := [] }
      blocks := l }
    t.count .cbabort

/-- A memory send hands on what it has read (R305): its packets, or, in a block, their staging; and what waited behind it. -/
def Tile.handOn (t : Tile) (o : SendOp) : Tile :=
  let parts := (upTo (packetsOf o.len)).zip (chunks 256 (packetsOf o.len) o.data)
  let poison (j : Nat) : NatSet := (o.poison.filter fun g => decide (16 * j ≤ g) && decide (g < 16 * j + 16)).map (· - 16 * j)
  let t := match o.heads with
    | some hs => (hs.zip parts).foldl (fun (t : Tile) x => t.emit false (.packet x.1 x.2.2 (poison x.2.1) false)) t
    | none => parts.foldl (fun (t : Tile) x => { t with blocks := stageIn o.seq (.packet o.ch x.2 (poison x.1)) t.blocks }) t
  let t := o.msgs.foldl (fun (t : Tile) m => t.emit false m) t
  o.effs.foldl (fun (t : Tile) x => { t with blocks := stageIn o.seq x t.blocks }) t

/-- Payload granules that bytes of poisoned or failing source granules reach (R41, R306). -/
def sourcePoison (p : Pad) (a len : Nat) : NatSet :=
  NatSet.addAll [] (((upTo len).filter fun i =>
    p.poison.has ((a + i) / 16) || p.bad.any fun w => w / 4 == (a + i) / 16).map (· / 16))

/-- Port B reads the next 64 bytes of a memory send (R305, R306): errors are found, poison goes along, and with wfe the granules
become empty. Poison is kept by payload granule; 64 bytes are four of them. -/
def Tile.readSome (t : Tile) (o : SendOp) : Tile × SendOp :=
  let k := o.data.length
  let n := Nat.min 64 (o.len - k)
  let gs := granules (o.addr + k) n
  let o' := { o with
    data := o.data ++ t.pad.mem.bytes (o.addr + k) n
    poison := NatSet.addAll o.poison ((sourcePoison t.pad (o.addr + k) n).map (k / 16 + ·)) }
  let t := t.findErrors gs
  (if o.take then t.setEmpty gs else t, o')

/-- A memory send reads on, as far as its cycles have come: 64 bytes in each from its issue (R305); at most `fuel` reads. -/
def Tile.readOn : Nat → Tile → SendOp → Tile × SendOp
  | 0, t, o => (t, o)
  | fuel + 1, t, o =>
    if o.data.length < o.len ∧ o.issued + o.data.length / 64 ≤ t.sch.cycle then
      let t := if o.take then t.beforeB (granules (o.addr + o.data.length) (Nat.min 64 (o.len - o.data.length))) else t
      let r := t.readSome o
      Tile.readOn fuel r.1 r.2
    else (t, o)

/-- The memory sends of a tile go on (R90, R305): each reads on, hands its packets on once its source is read and no earlier send
of its channel reads still, and is over in the cycle of its hand-off. -/
def Tile.runSends : List SendOp → Tile → Tile
  | [], t => t
  | o :: l, t =>
    let r := Tile.readOn 33 t o
    let t := r.1
    let o := r.2
    let ready := !o.gone && o.data.length == o.len && !t.reading o.ch
    let t := if ready then t.handOn o else t
    let o := if ready then { o with gone := true } else o
    Tile.runSends l (if o.gone && decide (o.done ≤ t.sch.cycle) then t else { t with sends := t.sends ++ [o] })

/-- The memory sends of a tile go on as far as its cycle. -/
def Tile.progressSends (t : Tile) : Tile := Tile.runSends t.sends { t with sends := [] }

/-- The memory sends of a tile come to their ends at once, as its units stop (R337). -/
def Tile.finishSends (t : Tile) : Tile :=
  Tile.runSends (t.sends.map fun o => { o with issued := 0, done := 0 }) { t with sends := [] }

/-- The end of the tile task: nothing more issues, the stacks are discarded, inbound channels are unbound (R137,
R227). -/
def Tile.endTask (t : Tile) : Tile :=
  { t with
    sch := { t.sch with status := .ended, rstk := [], lstk := [] }
    ins := t.ins.map fun c => { c with bound := false } }

end Sys2Proof.Machine
end

