-- ==== Sys2Proof/Machine/Issue.lean ====
section
/-! DEFINITION. Issuing a slot and closing a bundle (R190 to R201, R208): guards, issue checks, stalls, traps at issue,
effects. Every slot of a bundle reads the tile as it was when the bundle issued (R6). -/

namespace Sys2Proof.Machine

/-- What the issue checks of a slot find: it may issue; the bundle waits before any check counts (WAIT, END, FENCE and
their like) or after every check has passed; or a cause is raised, which may free faulted tags (R158). -/
inductive Check where
  | ok
  | early (st : Stall)
  | late (st : Stall)
  | raise (c : Cause) (faddr info : DWord) (frees : List Nat)
  deriving DecidableEq, Repr

/-- Checks in order: the first that does not pass decides. -/
def Check.all : List Check → Check
  | [] => .ok
  | .ok :: l => Check.all l
  | c :: _ => c

/-- A cause raised unless a condition holds. -/
def need (ok : Bool) (c : Cause) (faddr : DWord := 0#64) (info : DWord := 0#64) : Check :=
  if ok then .ok else .raise c faddr info []

/-- TAGOV unless the named tag is free or faulted (R157); an access's fault address is its first byte (R236). -/
def Tile.needTag (t : Tile) (n : BitVec 3) (faddr : DWord := 0#64) : Check := need (t.tagFree n) .tagov faddr

/-- A stall of a kind. -/
def mkStall (k : StallKind) (faddr : DWord := 0#64) (info : DWord := 0#64) (obj : Nat := 0) : Stall :=
  ⟨k, 0, faddr, info, false, obj, []⟩

/-- A stall after the checks unless a condition holds. -/
def waitFor (ok : Bool) (st : Stall) : Check := if ok then .ok else .late st

/-- A stall before the checks unless a condition holds. -/
def waitFirst (ok : Bool) (st : Stall) : Check := if ok then .ok else .early st

/-- What a slot does: the encoding check that depends on fmt (R145), its issue checks, its effect (`r` is the tile its
operands are read from), and what it costs when its guard is false (R219). -/
structure Sem where
  enc : Tile → Bool := fun _ => true
  check : Tile → Check := fun _ => .ok
  eff : Tile → Tile → Tile
  nullCost : Nat := 0

/-- A bundle of several slots in issue: the tile at its start, the word its next slot stands at, and what the slots so
far have found (R208): their waits before and after the checks, if any, and the first fault. -/
structure Bundle where
  start : Tile
  pos : Nat
  early : Option (List Stall)
  fault : Option (Nat × Cause × DWord × DWord × List Nat)
  late : Option (List Stall)
  deriving DecidableEq, Repr

/-- One cycle passes: fmt values come into force (R165). -/
def Tile.tick (t : Tile) : Tile :=
  { t with
    sch := { t.sch with cycle := t.sch.cycle + 1 }
    ctl := t.ctl.settleFmt (t.sch.cycle + 1) }

/-- The bound of a wait, none when it has none (R39, R90, R251). -/
def Tile.boundOf (t : Tile) (k : StallKind) : Nat :=
  match k with
  | .fe | .send => t.ctl.febound.toNat
  | .bar => t.ctl.barbound.toNat
  | _ => 0

/-- The cycles that a wait of the bundle at pc has waited so far. -/
def Tile.waitedIn (t : Tile) (st : Stall) : Nat :=
  match t.sch.stall with
  | some o => ((o.counts.find? fun x => x.1 == st.slot && x.2.1 == st.kind).map (·.2.2)).getD 0
  | none => 0

/-- Whether the bound of a wait has expired: it counts only the cycles of that wait (R39, R90, R251). -/
def Tile.overdue (t : Tile) (st : Stall) : Bool :=
  t.boundOf st.kind != 0 && decide (t.boundOf st.kind ≤ t.waitedIn st)

/-- The bundle at pc waits one cycle for its slots' waits, or the bound of one has expired and its time-out comes next (R39).
While it waits, the oldest queued store is performed. -/
def Tile.stallTurn (t : Tile) (l : List Stall) : Tile :=
  match l.find? t.overdue, l with
  | some st, _ => t.withSch fun s => { s with stall := some { st with expired := true } }
  | none, [] => t
  | none, st :: _ =>
    let counts := l.map fun x => (x.slot, x.kind, t.waitedIn x + 1)
    let t := if l.any fun x => x.kind == .pairClose then t.submitBlock else t
    (t.withSch fun s => { s with stall := some { st with counts := counts }, waited := s.waited + 1 }).performHead.tick

/-- What identifies a slot `idx` words into the bundle at pc. -/
def Tile.slotInfo (t : Tile) (i : Instr) (idx : Nat) : SlotInfo :=
  let ws := encode i
  ⟨ws.headD 0#32, (ws[1]?).map yImm, (t.sch.pc.toNat + 4 * idx) % 2 ^ 32, t.ctl.rrb⟩

/-- The effects of the slots that act when their bundle closes (R163, R218, R227, R229, R313, R315): `c` is the cycle of issue,
`link` the address of the next sequential bundle. -/
def Tile.closeSlot (c : Nat) (link : Word) (t : Tile) (x : Closing) : Tile :=
  match x with
  | .setc n v => t.setCtl n v
  | .call => t.withSch fun s => { s with rstk := s.rstk ++ [link] }
  | .cbopen handler creg => t.openBlock handler creg
  | .cbclose => t.closeBlock
  | .endTask => t.endTask
  | .rft => t.returnFromTrap c

/-- The order in which they act, which is not that of the slots (R192): what others change first, then a containment block,
whose checkpoint is the machine after the rest of its bundle (entry 59), at last the end of the task or the return from a
trap, which comes after the other slots' effects (R229). -/
def Closing.phase : Closing → Nat
  | .setc _ _ | .call => 0
  | .cbopen _ _ | .cbclose => 1
  | .endTask | .rft => 2

/-- The closing acts of a bundle in their order. -/
def closingOrder (l : List Closing) : List Closing := (upTo 3).flatMap fun k => l.filter (·.phase == k)

/-- A bundle of `words` words has issued: its tags are outstanding, the next bundle follows in sequence or at the
transfer's target, no earlier than holds and costs allow (R157, R159, R191, R193, R219). -/
def Tile.close (t : Tile) (words : Nat) : Tile :=
  let c := t.sch.cycle
  let cl := t.sch.closing
  let link := t.sch.pc + BitVec.ofNat 32 (4 * words)
  let t := (t.withSch fun s =>
    { s.commitTags with
      pc := match s.xfer with
        | some a => a
        | none => link
      ready := c + 1 + s.cost
      waited := 0
      stall := none
      xfer := none
      cost := 0
      closing := [] }).tick
  (closingOrder cl).foldl (Tile.closeSlot c link) t

/-- A tile frees tags. -/
def Tile.freeTags (t : Tile) (l : List Nat) : Tile := l.foldl (fun t n => t.setTag n .free) t

/-- A slot whose guard is false: nothing but its cost (R194, R219). -/
def Tile.nullify (t : Tile) (cost : Nat) : Tile := t.withSch fun s => { s with cost := Nat.max s.cost cost }

/-- A cause raised at issue: a containment error aborts an open block (R314, R316), any other is a trap (R323). RNERR is a
containment error only after issue; SETC's is not (R301, Tables 14-5 and 16-5). -/
def Tile.issueCause (t : Tile) (c : Cause) (slot : Nat) (faddr info : DWord) : Tile :=
  if !t.sch.tm && isContainment c && c != .rnerr && !t.blocks.isEmpty then t.abortBlock c else t.issueTrap c slot faddr info

/-- A bundle of one slot: its guard, checks and effect (R194, R208). -/
def Tile.issueOne (t : Tile) (i : Instr) (h : Hdr) (sem : SlotInfo → Sem) : Tile :=
  let m := sem (t.slotInfo i 0)
  let n := (encode i).length
  if !m.enc t then t.issueTrap .illfld 0 0#64 0#64
  else if !t.rp h.guard then (t.nullify m.nullCost).close n
  else
    match m.check t with
    | .ok => (m.eff t t).bump.close n
    | .early st | .late st => t.stallTurn [st]
    | .raise c fa inf frees => (t.freeTags frees).issueCause c 0 fa inf

/-- The first of two findings. -/
def orElseFirst {α : Type} (a : Option α) (b : α) : Option α :=
  match a with
  | some x => some x
  | none => some b

/-- The place in issue order of a slot within its bundle: that of its class, so that the order of the slots changes nothing (R192).
What E issues comes first, then X, V, L, K and B; two slots of one class keep their order, which nothing they do depends on
(entry 84). -/
def slotPlace (i : Instr) (pos : Nat) : Nat :=
  match slotClass ((encode i).headD 0#32) with
  | 0 => 1 + pos
  | 2 => 9 + pos
  | 1 => 17
  | 5 => 18
  | 3 => 0
  | _ => 19

/-- The places in issue order that a bundle of several slots takes. -/
def bundlePlaces : Nat := 20

/-- The tile at a place in issue order. -/
def Tile.atSeq (t : Tile) (n : Nat) : Tile := t.withSch fun s => { s with seq := n }

/-- The bundle's last slot is through: waits before the checks come first, then the first failing slot, then waits
after the checks; else the bundle has issued (R208). -/
def Bundle.finish (b : Bundle) (core : Tile) : Tile :=
  match b.early, b.fault, b.late with
  | some l, _, _ => b.start.stallTurn l
  | none, some (slot, c, fa, inf, frees), _ => (b.start.freeTags frees).issueCause c slot fa inf
  | none, none, some l => b.start.stallTurn l
  | none, none, none => (core.atSeq (b.start.sch.seq + bundlePlaces)).close b.pos

/-- Whether what the slots of a bundle stage is together more than the staging area holds (R314). -/
def Tile.overfull (t : Tile) : Bool := !t.blocks.isEmpty && decide (4096 < t.roomTaken)

/-- One slot of an open bundle: it reads the tile at the bundle's start, and its effect is added to the others. -/
def Bundle.slot (b : Bundle) (core : Tile) (i : Instr) (h : Hdr) (sem : SlotInfo → Sem) : Tile × Bundle :=
  let m := sem (b.start.slotInfo i b.pos)
  let nx := { b with pos := b.pos + (encode i).length }
  if !m.enc b.start then (core, { nx with fault := orElseFirst b.fault (b.pos, .illfld, 0#64, 0#64, []) })
  else if !b.start.rp h.guard then (core.nullify m.nullCost, nx)
  else
    match m.check b.start with
    | .ok =>
      let t := m.eff b.start (core.atSeq (b.start.sch.seq + slotPlace i b.pos))
      (t, if t.overfull && !core.overfull then { nx with fault := orElseFirst b.fault (b.pos, .cbfull, 0#64, 0#64, []) } else nx)
    | .early st => (core, { nx with early := some (b.early.getD [] ++ [{ st with slot := b.pos }]) })
    | .late st => (core, { nx with late := some (b.late.getD [] ++ [{ st with slot := b.pos }]) })
    | .raise c fa inf frees => (core, { nx with fault := orElseFirst b.fault (b.pos, c, fa, inf, frees) })

/-- Issues a slot: a bundle of its own when none is open, else the next slot of the open bundle, which closes with the
slot whose E bit is set. -/
def issueSlot (core : Tile) (b : Option Bundle) (i : Instr) (h : Hdr) (sem : SlotInfo → Sem) : Tile × Option Bundle :=
  match b with
  | none => (core.issueOne i h sem, none)
  | some b =>
    let r := b.slot core i h sem
    if h.last then (r.2.finish r.1, none) else (r.1, some r.2)

end Sys2Proof.Machine
end

