-- ==== Sys2Proof/Machine/State.lean ====
section
/-! DEFINITION. The state of the machine: the tile in turn, every other tile that holds something, and the device around
them; its reset; the reasons a step can stop. -/

namespace Sys2Proof.Machine

/-- The machine. `core` is the tile whose turn it is, `others` those that wait for theirs, `agenda` the device steps that
come next, the oldest first, `bundle` the bundle of several slots in issue (entry 1). -/
structure State where
  agenda : List Due
  core : Tile
  bundle : Option Bundle
  others : List Tile
  dev : Device
  deriving DecidableEq, Repr

/-- The reasons a step can fault. -/
inductive Fault where
  /-- Raised by `step` when the wafer has lost its power (R403, R404): nothing executes, and nothing is saved. Safe: the
  machine stops where the hardware has stopped. -/
  | unpowered
  deriving DecidableEq, Repr

/-- The reasons a step can refuse. -/
inductive Refusal where
  /-- Raised by `exec` for an instruction that has no meaning yet; safe. -/
  | notModelled (mnemonic : String)
  deriving DecidableEq, Repr

/-- The machine after reset: no step in progress, one tile at coordinate (0, 0) on which nothing has been launched, and
the device as Device.zero has it. -/
def State.reset : State :=
  { agenda := [], core := Tile.zero ⟨0, 0⟩ ⟨0, 0, 0⟩, bundle := none, others := [], dev := Device.zero }

end Sys2Proof.Machine
end

