-- ==== Sys2Proof/Machine/Hbm.lean ====
section
/-! DEFINITION. Bulk memory: physical addresses (R59, R60), translation (R63 to R68), lines with their key, tag, poison
and errors (R76, R77), host and peer targets (R70), and the Hearths' own accesses in a context's space. -/

namespace Sys2Proof.Machine

/-- The direct-window address a 48-bit device physical address names; none where there is no memory (R59, R60). -/
def direct (pa : Nat) : Option Nat :=
  if pa < 2 ^ 47 then (if pa < 40 * 2 ^ 36 then some pa else none)
  else
    let i := pa - 2 ^ 47
    if i < 40 * 2 ^ 36 then some (i / 4096 % 40 * 2 ^ 36 + (i / 163840 * 4096 + i % 4096)) else none

/-- The stack, and so the port, of a direct-window address. -/
def stackOf (d : Nat) : Nat := d / 2 ^ 36

/-- Whether a direct-window address lies in a system window (R59). -/
def inSysWin (d : Nat) : Bool := decide (0xFC0000000 ≤ d % 2 ^ 36)

/-- A free number of `n` bits (entry 7). -/
def Device.freeBits (dv : Device) (n : Nat) : Nat := (Config.freeWord 0 dv.free).toNat % 2 ^ n

/-- The device draws a free value. -/
def Device.draw (dv : Device) : Device := { dv with free := dv.free + 1 }

/-- The value of `n` bytes of tables at a physical address, as they stand (entry 64); where there is no memory, a free value (R66
says nothing; entry 7). -/
def Device.phys (dv : Device) (a n : Nat) : Nat :=
  match direct a with
  | some d => dv.hbm.val d n
  | none => (Config.freeWord 0 a).toNat % 2 ^ (8 * n)

/-- Writes `n` bytes of tables at a physical address. -/
def Device.putPhys (dv : Device) (a n v : Nat) : Device :=
  match direct a with
  | some d => { dv with hbm := dv.hbm.putVal d n v }
  | none => dv

/-- A ready record. -/
def Device.readyOf (dv : Device) (n : Nat) : Ready := (dv.ready[n]?).getD Ready.zero

/-- A device event that concerns no port of its own: vector 0 of every function whose link is up, and an in-band interrupt with
its mandatory byte when enabled (R391, R393). -/
def Device.eventAll (dv : Device) (byte : Byte) : Device :=
  { dv with
    msix := dv.msix ++ ((upTo 4).filter fun p => (dv.readyOf (104 + p)).ready).map fun p => (p, 0)
    mgmt := if dv.mgmt.events then { dv.mgmt with ibi := dv.mgmt.ibi ++ [byte] } else dv.mgmt }

/-- Replaces a ready record; a change is a device event (R391, R393). -/
def Device.setReady (dv : Device) (n : Nat) (f : Ready → Ready) : Device :=
  if f (dv.readyOf n) = dv.readyOf n then dv
  else { dv.eventAll 0x01#8 with ready := setAt dv.ready n (f (dv.readyOf n)) }

/-- Every ready record returns to 0, in ascending order, and each that changes is a device event (R391, R392; entry 83). -/
def Device.dropReady (dv : Device) : Device :=
  (upTo 140).foldl (fun (dv : Device) n => dv.setReady n fun _ => Ready.zero) dv

/-- Every function is held not ready (R397). -/
def Device.holdAll (dv : Device) : Device :=
  (upTo 140).foldl (fun (dv : Device) n => dv.setReady n fun x => { x with ready := false, busy := false }) dv

/-- Whether a Flue port serves; whether it is failed or retired (R394). -/
def Device.portUp (dv : Device) (p : Nat) : Bool := (dv.readyOf (64 + p)).ready
/-- Whether a Flue port is failed or retired. -/
def Device.portGone (dv : Device) (p : Nat) : Bool := (dv.readyOf (64 + p)).failed || (dv.readyOf (64 + p)).retired

/-- A port counts an error in its ready record, saturating (Table 21-2). -/
def Device.countPort (dv : Device) (p : Nat) : Device :=
  dv.setReady (64 + p) fun x => { x with uecnt := Nat.min (2 ^ 32 - 1) (x.uecnt + 1) }

/-- A correctable error of a line that is read is corrected and counted at its port, saturating (R77, Table 21-2). -/
def Device.correct (dv : Device) (line : Nat) : Device :=
  if !dv.soft.has line then dv
  else ({ dv with soft := NatSet.del dv.soft line }).setReady (64 + stackOf line) fun x =>
    { x with pcount := Nat.min (2 ^ 16 - 1) (x.pcount + 1) }

/-- The pieces of a run of bytes by 64-byte line: address and length. -/
def linePieces : Nat → Nat → Nat → List (Nat × Nat)
  | 0, _, _ => []
  | fuel + 1, a, n => if n = 0 then [] else
      let k := Nat.min n (64 - a % 64)
      (a, k) :: linePieces fuel (a + k) (n - k)

/-- The lines that a run of bytes of HBM lies in. -/
def linesOf (d n : Nat) : List Nat := (linePieces (n / 64 + 2) d n).map fun x => x.1 / 64 * 64

/-- The entry port of a region (Table 03-2). -/
def entryTable : List Nat :=
  [0, 1, 2, 4, 5, 7, 8, 9, 1, 2, 3, 4, 5, 6, 7, 8, 38, 37, 39, 38, 11, 10, 12, 11, 36, 35, 36, 35, 14, 13, 14, 13,
   33, 34, 33, 34, 15, 16, 15, 16, 31, 32, 30, 31, 18, 19, 17, 18, 28, 27, 26, 25, 24, 23, 22, 21, 29, 28, 27, 25, 24, 22, 21, 20]

/-- The ready port nearest a port in ring hops, clockwise first on a tie (R61). -/
def Device.nearestPort (dv : Device) (p : Nat) : Option Nat :=
  (upTo 21).findSome? fun d =>
    if dv.portUp ((p + d) % 40) then some ((p + d) % 40)
    else if dv.portUp ((p + 40 - d) % 40) then some ((p + 40 - d) % 40) else none

/-- A ready region's entry port, substituted where the table's port is not ready, with the substitution in its record (R61,
Table 21-2); while no port is ready it stays the table's. -/
def Device.setEntry (dv : Device) (r : Nat) : Device :=
  let e0 := (entryTable[r]?).getD 0
  let e := (dv.nearestPort e0).getD e0
  dv.setReady r fun x => { x with entry := e, kstate := x.kstate % 4 + if e = e0 then 0 else 4 }

/-- The entry ports of every ready region are set anew. -/
def Device.setEntries (dv : Device) : Device :=
  ((upTo 64).filter fun r => (dv.readyOf r).ready).foldl Device.setEntry dv

/-- Whether a function is to be brought up: the firmware runs, and the function has neither come up nor failed. -/
def Device.comesUp (dv : Device) (n : Nat) : Bool :=
  dv.power.on && dv.kiln.firmwareOk && !(dv.readyOf n).ready && !(dv.readyOf n).failed && !(dv.readyOf n).retired

/-- The contents of a stack are gone after its march test: nothing is listed of it (entry 5). -/
def Device.clearStack (dv : Device) (p : Nat) : Device :=
  { dv with
    hbm := dv.hbm.filter fun x => x.1 / 2 ^ 36 != p
    seals := dv.seals.filter fun x => x.1 / 2 ^ 36 != p
    poison := dv.poison.filter fun x => x / 2 ^ 36 != p
    bad := dv.bad.filter fun x => x / 2 ^ 36 != p }

/-- FLUE_PORT_BRING_UP: the stack is tested and its system window zeroed; whether the test passes is a free choice (R394). -/
def Device.portBringUp (dv : Device) (p : Nat) : Device :=
  if !(decide (p < 40)) || !dv.comesUp (64 + p) then dv
  else if Config.freeBit dv.free then (dv.draw.setReady (64 + p) fun x => { x with busy := false, failed := true }).setEntries
  else ((dv.draw.clearStack p).setReady (64 + p) fun x => { x with busy := false, ready := true }).setEntries

/-- Whether a run of bytes of a table lies, in part, on a line of HBM that cannot be read (R77). -/
def Device.tableLost (dv : Device) (a n : Nat) : Bool :=
  match direct a with
  | some d => (linesOf d n).any fun l => dv.bad.has l || dv.poison.has l
  | none => false

/-- A line is read: one that cannot be is counted at its port, an error that can be corrected is, and is counted (R77). -/
def Device.meetLine (dv : Device) (line : Nat) : Device :=
  if dv.bad.has line || dv.poison.has line then dv.countPort (stackOf line) else dv.correct line

/-- Bytes are read from HBM by physical address: their lines' errors are met (R77). -/
def Device.meet (dv : Device) (a n : Nat) : Device :=
  match direct a with
  | some d => (linesOf d n).foldl Device.meetLine dv
  | none => dv

/-- What a port reads of a table: the memory's value, or an older value it has cached, as a free choice (R68). What a line that
cannot be read gives is not stated: a free value (entry 7). A table is read as its bytes stand, whether or not it lies in a
system window (entry 64). -/
def Device.table (dv : Device) (port ctx a n : Nat) : Nat × Device :=
  let m := if dv.tableLost a n then bytesVal ((upTo n).map fun i => Config.freeByte dv.free i) else dv.phys a n
  match dv.cache.find? fun c => c.port == port && c.ctx == ctx && c.addr == a with
  | some c =>
    if c.val = m then (m, dv)
    else if Config.freeBit dv.free then (c.val, dv.draw)
    else (m, ({ dv.draw with cache := ⟨port, ctx, a, m⟩ :: dv.cache.erase c }).meet a n)
  | none => (m, ({ dv with cache := ⟨port, ctx, a, m⟩ :: dv.cache }).meet a n)

/-- The address of a context's descriptor (R63). -/
def Device.descAt (dv : Device) (ctx : Nat) : Nat := dv.bar0.ctxbase + 128 * ctx

/-- A context's descriptor as it stands in memory. -/
def Device.desc (dv : Device) (ctx : Nat) : Nat := dv.phys (dv.descAt ctx) 128

/-- Whether a context is valid (Table 03-3). -/
def Device.ctxValid (dv : Device) (ctx : Nat) : Bool := bitOf (dv.desc ctx) 197

/-- A translation fault: cause, reason code, level, the entry read (R64, Table 03-6). -/
structure XFault where
  cause : Cause
  reason : Nat
  level : Nat
  pte : Nat
  deriving DecidableEq, Repr

/-- Whether the target extent of an HBM range entry is bad (R65). -/
def extentBad (tb last : Nat) : Bool :=
  match direct tb, direct last with
  | some _, some _ => decide (tb < 2 ^ 47) != decide (last < 2 ^ 47) || (decide (tb < 2 ^ 47) && tb / 2 ^ 36 != last / 2 ^ 36)
  | _, _ => true

/-- The stacks of the further replicas of a range entry. -/
def rangeReps (x : Nat) : List Nat := ([bitsOf x 296 6, bitsOf x 304 6, bitsOf x 312 6]).take (bitsOf x 272 2)

/-- FORMAT_BAD (R65). -/
def rangeBad (x : Nat) : Bool :=
  let base := bitsOf x 0 64
  let limit := bitsOf x 64 64
  let tb := bitsOf x 128 64
  let tgt := bitsOf x 267 2
  let reps := rangeReps x
  let stks := bitsOf tb 36 6 :: reps
  bitsOf x 269 3 != 0 || bitsOf x 274 6 != 0 || bitsOf x 293 3 != 0 || bitsOf x 302 2 != 0 || bitsOf x 310 2 != 0
    || bitsOf x 318 194 != 0 || base % 64 != 0 || (limit + 1) % 64 != 0 || decide (limit < base) || tgt == 3
    || tb % 64 != 0 || (tgt == 0 && extentBad tb (tb + (limit - base)))
    || (tgt != 0 && decide (2 ^ 64 ≤ tb + (limit - base)))
    || (!reps.isEmpty && (tgt != 0 || decide (2 ^ 47 ≤ tb) || !stks.Nodup || stks.any fun s => decide (40 ≤ s)))
    || (tgt == 2 && bitsOf x 256 8 != 0)

/-- The translation a matching range entry gives (R64, R66). -/
def rangeXlat (x va : Nat) (write : Bool) (hport : Nat) : Except XFault Xlat :=
  let hi := bitsOf x 256 64
  let ta := va - bitsOf x 0 64 + bitsOf x 128 64
  let tgt := bitsOf x 267 2
  if rangeBad x then .error ⟨.bxnomap, 4, 15, hi⟩
  else if (if write then !bitOf x 266 else !bitOf x 265) then .error ⟨.bxperm, 5, 15, hi⟩
  else if tgt = 0 then
    match direct ta with
    | some d => if inSysWin d then .error ⟨.bxnomap, 6, 15, hi⟩ else .ok ⟨0, d, bitsOf x 256 8, rangeReps x, 0, 0, hport⟩
    | none => .error ⟨.bxnomap, 4, 15, hi⟩
  else .ok ⟨tgt, ta, bitsOf x 256 8, [], bitsOf x 288 5, bitsOf x 280 8, hport⟩

/-- The first valid range entry of a context that holds an address, from entry `e` on (R64). -/
def Device.findRange (port ctx rt va : Nat) : Nat → Nat → Device → Option Nat × Device
  | 0, _, dv => (none, dv)
  | fuel + 1, e, dv =>
    let r := dv.table port ctx (rt + 64 * e) 64
    if bitOf r.1 264 && decide (bitsOf r.1 0 64 ≤ va) && decide (va ≤ bitsOf r.1 64 64) then (some r.1, r.2)
    else Device.findRange port ctx rt va fuel (e + 1) r.2

/-- A leaf of SPAN s stands for 4^s entries; where they differ, any one of them may be used (R66): a free choice. The entry that
is used is checked as any other. -/
def Device.spanPick (dv : Device) (port ctx t idx pte : Nat) : Nat × Device :=
  let n := 4 ^ bitsOf pte 2 2
  let k := idx / n * n + dv.freeBits 6 % n
  let r := dv.table port ctx (t + 8 * k) 8
  if bitsOf r.1 0 4 = bitsOf pte 0 4 ∧ r.1 ≠ pte then (r.1, r.2.draw) else (pte, dv)

/-- WALK (R66): `n` levels are left, the next one `n - 1`. -/
def Device.walk (port ctx va : Nat) (write : Bool) (hport : Nat) : Nat → Nat → Device → Except XFault Xlat × Device
  | 0, _, dv => (.error ⟨.bxnomap, 0, 0, 0⟩, dv)
  | lvl + 1, t, dv =>
    let idx := bitsOf va (12 + 8 * lvl) 8
    let r := dv.table port ctx (t + 8 * idx) 8
    let pte := r.1
    let dv := r.2
    let bad (c : Cause) (reason : Nat) (p : Nat) : Except XFault Xlat := .error ⟨c, reason, lvl, p⟩
    if !bitOf pte 0 then (bad .bxnomap 0 pte, dv)
    else if bitsOf pte 61 3 != 0 || bitsOf pte 6 8 != 0 then (bad .bxnomap 1 pte, dv)
    else if !bitOf pte 1 then
      if bitsOf pte 2 4 != 0 || bitsOf pte 14 10 != 0 then (bad .bxnomap 1 pte, dv)
      else if lvl = 0 then (bad .bxnomap 2 pte, dv)
      else Device.walk port ctx va write hport lvl (bitsOf pte 24 37 * 2 ^ 11) dv
    else
      let q := dv.spanPick port ctx t idx pte
      let pte := q.1
      let dv := q.2
      if bitsOf pte 61 3 != 0 || bitsOf pte 6 8 != 0 then (bad .bxnomap 1 pte, dv)
      else
      let size := 2 ^ (12 + 8 * lvl + 2 * bitsOf pte 2 2)
      let base := bitsOf pte 24 37 * 2 ^ 11
      let tgt := bitsOf pte 14 2
      let pa := base + va % size
      if decide (lvl ≥ 3) || (lvl == 2 && decide (bitsOf pte 2 2 > 1)) then (bad .bxnomap 2 pte, dv)
      else if base % size != 0 || decide (tgt ≥ 2) then (bad .bxnomap 1 pte, dv)
      else if (if write then !bitOf pte 5 else !bitOf pte 4) then (bad .bxperm 5 pte, dv)
      else if tgt = 1 then (.ok ⟨1, pa, bitsOf pte 16 8, [], 0, 0, hport⟩, dv)
      else
        match direct pa with
        | none => (bad .bxnomap 7 pte, dv)
        | some d =>
          if inSysWin d then (bad .bxnomap 6 pte, dv) else (.ok ⟨0, d, bitsOf pte 16 8, [], 0, 0, hport⟩, dv)

/-- TRANSLATE (R64) by a port: what the access translates to, or its fault. The level of a fault that read no entry is
not stated: a free value (entry 7). -/
def Device.translate (dv : Device) (port ctx va : Nat) (write : Bool) : Except XFault Xlat × Device :=
  let r := dv.table port ctx (dv.descAt ctx) 128
  let d := r.1
  let f := Device.findRange port ctx (bitsOf d 0 64) va 64 0 r.2
  match f.1 with
  | some x => (rangeXlat x va write (bitsOf d 198 2), f.2)
  | none =>
    if decide (2 ^ 52 ≤ va) || bitsOf d 64 64 == 0 then (.error ⟨.bxnomap, 3, f.2.freeBits 4, 0⟩, f.2.draw)
    else Device.walk port ctx va write (bitsOf d 198 2) 5 (bitsOf d 64 64) f.2

/-- The guard bound to the range that holds an address, 0 for none (R114). -/
def Device.guardOf (dv : Device) (ctx va : Nat) : Nat :=
  match (Device.findRange 40 ctx (bitsOf (dv.desc ctx) 0 64) va 64 0 dv).1 with
  | some x => bitsOf x 192 64
  | none => 0

/-- The key material of a slot bound to a context; none raises BXKEY (R76). -/
def Device.keyFor (dv : Device) (ctx key : Nat) : Option Nat :=
  (dv.kiln.keys.find? fun k => k.slot == key && k.ctx == ctx).map (·.material)

/-- Whether a translation names a slot that is being unloaded: an access that reaches its port now comes too late for it
(R76, R405). -/
def Device.keyLeaves (dv : Device) (ctx : Nat) (x : Xlat) : Bool :=
  x.tgt != 2 && dv.kiln.keys.any fun k => k.slot == x.key && k.ctx == ctx && k.unloading

/-- Whether an access waits at a port of its target that has not yet reported ready (R394). -/
def Device.awaits (dv : Device) (x : Xlat) : Bool :=
  x.tgt == 0 && (x.pa :: x.reps.map fun k => k * 2 ^ 36).any fun a => !dv.portUp (stackOf a) && !dv.portGone (stackOf a)

/-- The Hearth's access waits at the ports of its target until each has come up or failed (R394). -/
def Device.waited (dv : Device) (x : Xlat) : Device :=
  if x.tgt = 0 then (x.pa :: x.reps.map fun k => k * 2 ^ 36).foldl (fun (dv : Device) a => dv.portBringUp (stackOf a)) dv else dv

/-- What a line was sealed with: the key material it was written under. -/
def Device.sealOf (dv : Device) (line : Nat) : Option Nat := (dv.seals.find? (·.1 == line)).map (·.2)

/-- Puts a seal on a line: the list stays sorted by line. -/
def putSeal (line m : Nat) : List (Nat × Nat) → List (Nat × Nat)
  | [] => [(line, m)]
  | (l, k) :: r => if line < l then (line, m) :: (l, k) :: r else if line = l then (line, m) :: r else (l, k) :: putSeal line m r

/-- The 64 bytes of an HBM line as a key opens them: BXECC for an error or poison, BXTAG for a tag mismatch; where
another key's line passes its tag check, its bytes are free (R76, R77; entry 8). `none` opens a system window. -/
def Device.readLine (dv : Device) (line : Nat) (key : Option Nat) : Option Cause × List Byte :=
  let raw := dv.hbm.bytes line 64
  if dv.portGone (stackOf line) then (some .bxecc, raw)
  else if dv.bad.has line || dv.poison.has line then (some .bxecc, raw)
  else
    match key with
    | none => (none, raw)
    | some m =>
      if dv.sealOf line = some m then (none, raw)
      else if Config.tagPasses m line then (none, (upTo 64).map (Config.cipherByte m (line + 2 ^ 48 * bytesVal raw)))
      else (some .bxtag, raw)

/-- Writes bytes into an HBM line under a key: a read-modify-write unless all 64 bytes are written; a failing read step
leaves the line poisoned and is counted at the port (R70, R77). `pz` marks poisoned data. -/
def Device.writeLine (dv : Device) (line off : Nat) (bytes : List Byte) (key : Option Nat) (pz : Bool) : Device :=
  let r := dv.readLine line key
  let whole := decide (bytes.length = 64)
  let fail := !whole && r.1.isSome
  let old := r.2
  let new := old.take off ++ bytes ++ old.drop (off + bytes.length)
  let dv := if fail then dv.countPort (stackOf line) else if whole then dv else dv.correct line
  { dv with
    hbm := dv.hbm.put line new
    soft := NatSet.del dv.soft line
    seals := match key with
      | some m => putSeal line m dv.seals
      | none => dv.seals
    bad := NatSet.del dv.bad line
    poison := if fail || pz then NatSet.add dv.poison line else NatSet.del dv.poison line }

/-- Whether a host port's link is up (R394). -/
def Device.hostUp (dv : Device) (p : Nat) : Bool := (dv.readyOf (104 + p)).ready

/-- Whether an optical port has LINKUP and SECURE, to a wafer (R401). -/
def Device.secure (dv : Device) (p wafer : Nat) : Bool :=
  (dv.readyOf (108 + p)).kstate == 3 && (dv.readyOf (108 + p)).peer % 256 == wafer

/-- Host memory behind a port. -/
def Device.hostMem (dv : Device) (p : Nat) : Memory := (dv.hosts[p]?).getD []

/-- Reads bytes of host memory: plain with key 0; else what the key opens, which is the plain data only where the
ciphertext is still as this key wrote it (R76; entry 8). -/
def Device.hostRead (dv : Device) (p a n : Nat) (key : Option Nat) : List Byte :=
  match key with
  | none => (dv.hostMem p).bytes a n
  | some m =>
    let line := a / 64 * 64
    let raw := (dv.hostMem p).bytes line 64
    let open_ := (upTo n).map fun i => Config.cipherByte m (line + 2 ^ 64 * bytesVal raw) (a % 64 + i)
    match dv.hostSeals.find? fun s => s.port == p && s.line == line && s.material == m with
    | some s => if raw = s.cipher then (s.plain.drop (a % 64)).take n else open_
    | none => open_

/-- Writes bytes of host memory; under a key the host holds the line's ciphertext, free bytes (R76; entry 8). -/
def Device.hostWrite (dv : Device) (p a : Nat) (bytes : List Byte) (key : Option Nat) : Device :=
  match key with
  | none => { dv with hosts := dv.hosts.setIfInBounds p ((dv.hostMem p).put a bytes) }
  | some m =>
    let line := a / 64 * 64
    let old := dv.hostRead p line 64 (some m)
    let plain := old.take (a % 64) ++ bytes ++ old.drop (a % 64 + bytes.length)
    let cipher := (upTo 64).map fun i => Config.freeByte (dv.free + i) i
    { dv with
      free := dv.free + 64
      hosts := dv.hosts.setIfInBounds p ((dv.hostMem p).put line cipher)
      hostSeals := ⟨p, line, m, plain, cipher⟩ :: dv.hostSeals.filter fun s => s.port != p || s.line != line }

/-- The key an access opens its target with: none for plain data; BXKEY where the slot may not be used (R76). -/
def Device.keyOf (dv : Device) (ctx : Nat) (x : Xlat) : Except Cause (Option Nat) :=
  if x.tgt = 2 ∨ (x.tgt = 1 ∧ x.key = 0) then .ok none
  else if x.tgt = 0 ∧ x.key = 0 then .error .bxkey
  else
    match dv.keyFor ctx x.key with
    | some m => .ok (some m)
    | none => .error .bxkey

/-- The direct-window address of replica k of an address (R78). -/
def replicaAt (pa stack : Nat) : Nat := stack * 2 ^ 36 + pa % 2 ^ 36

/-- The addresses of every replica of a translated line, replica 0 first. -/
def Xlat.replicas (x : Xlat) : List Nat := x.pa :: x.reps.map (replicaAt x.pa)

/-- Ring hops between two ports, the shorter way (R58). -/
def ringHops (a b : Nat) : Nat := Nat.min ((b + 40 - a) % 40) ((a + 40 - b) % 40)

/-- Takes a candidate out of a list of addresses: the one whose port is fewest hops from `p`, the first on a tie. -/
def nearest (p : Nat) : List Nat → Option Nat
  | [] => none
  | a :: l => match nearest p l with
    | some b => if ringHops p (stackOf b) < ringHops p (stackOf a) then some b else some a
    | none => some a

/-- Whether a replica line is locked. -/
def Device.locked (dv : Device) (a : Nat) : Bool := dv.locks.any (·.line == a / 64 * 64)

/-- The replicas of a line that serve its reads: one that is marked poisoned serves none until system software writes the line
again (R366). -/
def Device.serving (dv : Device) (x : Xlat) : List Nat :=
  if x.reps.isEmpty then x.replicas else x.replicas.filter fun a => !dv.poison.has (a / 64 * 64)

/-- The stack, and so the port, that serves an access to HBM: the home port of a store or a guard request, the one nearest the
entry port of a read (R62, R78). -/
def Device.targetPort (dv : Device) (entry : Nat) (writes : Bool) (x : Xlat) : Nat :=
  if writes then stackOf x.pa else stackOf ((nearest entry (dv.serving x)).getD x.pa)

/-- Whether the read of an access meets a locked replica: the one nearest its entry port that serves (R78, R79). -/
def Device.readLocked (dv : Device) (p : Nat) (x : Xlat) : Bool :=
  x.tgt == 0 && (match nearest p (dv.serving x) with
    | some a => dv.locked a
    | none => false)

/-- Reads a line at the nearest replica of a list; each that fails is counted at its port, and left poisoned where the line is
replicated, and the next nearest is tried (R78, R366). None where the replica that the read comes to is locked: it stalls there
(R79). -/
def Device.readNearest (port : Nat) (key : Option Nat) (rep : Bool) :
    Nat → List Nat → Cause → Device → Option (Option Cause × List Byte) × Device
  | 0, _, c, dv => (some (some c, []), dv)
  | fuel + 1, l, c, dv =>
    match nearest port l with
    | none => (some (some c, []), dv)
    | some a =>
      if dv.locked a then (none, dv)
      else
        let r := dv.readLine (a / 64 * 64) key
        match r.1 with
        | none => (some (none, r.2), dv.correct (a / 64 * 64))
        | some c =>
          let dv := dv.countPort (stackOf a)
          let dv := if rep then { dv with poison := NatSet.add dv.poison (a / 64 * 64) } else dv
          Device.readNearest port key rep fuel (l.erase a) c dv

/-- Reads the 64-byte line of a translated access at its target (R70, R77, R78): the cause it fails with, or the line; none where
it stalls at a locked replica. What a peer wafer answers, and whether it refuses the address, is free (entry 12). -/
def Device.readTarget (dv : Device) (port ctx : Nat) (x : Xlat) : Option (Option Cause × List Byte) × Device :=
  match dv.keyOf ctx x with
  | .error c => (some (some c, []), dv)
  | .ok key =>
    if x.tgt = 0 then Device.readNearest port key (!x.reps.isEmpty) 4 (dv.serving x) .bxecc dv
    else if x.tgt = 1 then
      (some (if dv.hostUp x.hport then (none, dv.hostRead x.hport (x.pa / 64 * 64) 64 key) else (some .bxhost, [])), dv)
    else if !dv.secure x.oport x.peer then (some (some .bxpeer, []), dv)
    else if Config.freeBit dv.free then (some (some .bxpeer, []), dv.draw)
    else (some (none, (upTo 64).map fun i => Config.freeByte (dv.free + i) i), { dv with free := dv.free + 64 })

/-- Writes part of one line of a translated, unreplicated access at its target (R70, R77). -/
def Device.writeTarget (dv : Device) (ctx : Nat) (x : Xlat) (bytes : List Byte) (pz : Bool) : Option Cause × Device :=
  match dv.keyOf ctx x with
  | .error c => (some c, dv)
  | .ok key =>
    if x.tgt = 0 then
      if dv.portGone (stackOf x.pa) then (some .bxecc, dv)
      else (none, dv.writeLine (x.pa / 64 * 64) (x.pa % 64) bytes key pz)
    else if x.tgt = 1 then
      if dv.hostUp x.hport then (none, dv.hostWrite x.hport x.pa bytes key) else (some .bxhost, dv)
    else if !dv.secure x.oport x.peer then (some .bxpeer, dv)
    else (if Config.freeBit dv.free then some .bxpeer else none, dv.draw)

/-- COMMIT of a store to a replicated line (R78): BXREPL with no replica changed when one is unreachable; else every
replica is written. -/
def Device.commit (dv : Device) (ctx : Nat) (x : Xlat) (bytes : List Byte) (pz : Bool) : Option Cause × Device :=
  match dv.keyOf ctx x with
  | .error c => (some c, dv)
  | .ok key =>
    if x.replicas.any fun a => dv.portGone (stackOf a) then (some .bxrepl, dv)
    else (none, x.replicas.foldl (fun dv a => dv.writeLine (a / 64 * 64) (a % 64) bytes key pz) dv)

/-- A store at its target, replicated or not. -/
def Device.storeTarget (dv : Device) (ctx : Nat) (x : Xlat) (bytes : List Byte) (pz : Bool) : Option Cause × Device :=
  if x.reps.isEmpty then dv.writeTarget ctx x bytes pz else dv.commit ctx x bytes pz

/-- The surviving ports have released the locks that a failed home port had left on an access's replicas, for which it waited
(R79). -/
def Device.unlocked (dv : Device) (x : Xlat) : Device :=
  { dv with locks := dv.locks.filter fun l => !(x.replicas.any fun a => a / 64 * 64 == l.line) }

/-- A Hearth's read to its end: one that meets a locked replica stalls until the lock is released, which may take it past its
bound (R79): a free choice. -/
def Device.lastRead (dv : Device) (ctx : Nat) (x : Xlat) : (Option Cause × List Byte) × Device :=
  let r := dv.readTarget (stackOf x.pa) ctx x
  match r.1 with
  | some v => (v, r.2)
  | none =>
    if Config.freeBit r.2.free then ((some .bxlocktmo, []), r.2.draw)
    else
      let q := (r.2.draw.unlocked x).readTarget (stackOf x.pa) ctx x
      (q.1.getD (some .bxlocktmo, []), q.2)

/-- A Hearth reads bytes in a context's space, line by line; a fault stops it (R345 to R364). It translates at no tile's
port; here it is given a number beyond theirs. It waits at a port that has not come up (R394). -/
def Device.hearthRead (ctx : Nat) : List (Nat × Nat) → Device → Except Cause (List Byte) × Device
  | [], dv => (.ok [], dv)
  | (a, n) :: l, dv =>
    let t := dv.translate 40 ctx a false
    match t.1 with
    | .error f => (.error f.cause, t.2)
    | .ok x =>
      let r := (t.2.waited x).lastRead ctx x
      match r.1.1 with
      | some c => (.error c, r.2)
      | none =>
        let rest := Device.hearthRead ctx l r.2
        (match rest.1 with
          | .ok bs => .ok (((r.1.2.drop (x.pa % 64)).take n) ++ bs)
          | .error c => .error c, rest.2)

/-- A Hearth reads `n` bytes at an address of a context. -/
def Device.hRead (dv : Device) (ctx a n : Nat) : Except Cause (List Byte) × Device :=
  Device.hearthRead ctx (linePieces (n / 64 + 2) a n) dv

/-- A Hearth writes bytes within one line of a context's space as one store, which waits for ports that have not come up and for
locked replicas (R78, R394). -/
def Device.hWrite (dv : Device) (ctx a : Nat) (bytes : List Byte) : Option Cause × Device :=
  let t := dv.translate 40 ctx a true
  match t.1 with
  | .error f => (some f.cause, t.2)
  | .ok x =>
    let dv := t.2.waited x
    (if x.tgt = 0 ∧ !x.reps.isEmpty then dv.unlocked x else dv).storeTarget ctx x bytes false

end Sys2Proof.Machine
end

