-- ==== Sys2Proof/Machine/Records.lean ====
section
/-! DEFINITION. Reports to the host: trap records and their rings (R333 to R335), fault records (R73), MSI-X messages and
device events (R391), and a tile's reports on their way there. -/

namespace Sys2Proof.Machine

/-- A message of a port, dropped while its link is down (R391). -/
def Device.message (dv : Device) (port vec : Nat) : Device :=
  if dv.hostUp port then { dv with msix := dv.msix ++ [(port, vec)] } else dv

/-- A device event: vector 0 of a port, and an in-band interrupt with its mandatory byte when enabled (R391, R393). -/
def Device.event (dv : Device) (port : Nat) (byte : Byte) : Device :=
  let dv := dv.message port 0
  if dv.mgmt.events then { dv with mgmt := { dv.mgmt with ibi := dv.mgmt.ibi ++ [byte] } } else dv

/-- A refused access, command or link is counted (Table 21-1). -/
def Device.refuse (dv : Device) : Device := { dv with bar0 := { dv.bar0 with seccnt := (dv.bar0.seccnt + 1) % 2 ^ 64 } }

/-- The region of a logical coordinate and the fold of R10. -/
def foldIx (c : Nat) : Nat := if c < 500 then 2 * c else 2 * (999 - c) + 1

/-- The region that holds a logical tile (R10). -/
def regionOf (c : Coord) : Nat := 8 * (foldIx c.row / 125) + foldIx c.col / 125

/-- Changes a region. -/
def Device.withRegion (dv : Device) (r : Nat) (f : Region → Region) : Device :=
  match dv.regions[r]? with
  | some x => { dv with regions := dv.regions.set r (f x) }
  | none => dv

/-- A region. -/
def Device.region (dv : Device) (r : Nat) : Region := (dv.regions[r]?).getD (Region.zero r)

/-- A trap record as a number (Table 16-7). -/
def TrapRec.bits (r : TrapRec) (rseq : Nat) : Nat :=
  atBits 177 8 (r.raw.getD r.cause.code) + atBits 185 4 r.src + atBits 189 1 (b2n r.fatal) + atBits 190 8 r.cause2
    + atBits 198 8 r.ctx + atBits 206 6 r.region + atBits 212 10 r.coord.row + atBits 222 10 r.coord.col
    + atBits 232 12 r.pc + atBits 244 12 r.queue + atBits 256 32 r.nodeid + atBits 288 32 rseq
    + atBits 320 64 r.faddr.toNat + atBits 384 64 r.info.toNat + atBits 448 64 r.cycle

/-- Writes 64 bytes of a ring: in host memory through HOSTPORT, or at a device physical address (R73, R335). The bytes stand
plain, whatever the line or the port (entry 75). -/
def Device.ringStore (dv : Device) (host : Bool) (port a bits : Nat) : Device :=
  if host then dv.hostWrite port a (valBytes 64 bits) none else dv.putPhys a 64 bits

/-- The trap ring of a context. -/
def Device.ringOf (dv : Device) (ctx : Nat) : TrapRing := (dv.rings.find? (·.ctx == ctx)).getD ⟨ctx, 0, []⟩

/-- Replaces a trap ring. -/
def Device.setRing (dv : Device) (r : TrapRing) : Device :=
  { dv with rings := r :: dv.rings.filter (·.ctx != r.ctx) }

/-- Whether a context's trap ring is full (R335). -/
def trapFull (d : Nat) : Bool := (bitsOf d 608 32 + 2 ^ 32 - bitsOf d 576 32) % 2 ^ 32 == 2 ^ (bitsOf d 716 4 + 6)

/-- Sets a bit of a context descriptor. -/
def Device.setDescBit (dv : Device) (ctx i : Nat) : Device :=
  let d := dv.desc ctx
  if bitOf d i then dv else dv.putPhys (dv.descAt ctx) 128 (d + 2 ^ i)

/-- Stores one record at TRWR, advances it, and sends the ring's message (R335, Table 16-6). -/
def Device.putTrap (dv : Device) (r : TrapRec) : Device :=
  let d := dv.desc r.ctx
  let ring := dv.ringOf r.ctx
  let wr := bitsOf d 608 32
  let size := 2 ^ (bitsOf d 716 4 + 6)
  let dv := dv.ringStore (bitOf d 720) (bitsOf d 198 2) (bitsOf d 640 64 + 64 * (wr % size)) (r.bits (ring.count + 1))
  let dv := dv.putPhys (dv.descAt r.ctx + 76) 4 ((wr + 1) % 2 ^ 32)
  let dv := dv.setRing { ring with count := (ring.count + 1) % 2 ^ 32 }
  if bitOf d 712 then dv.message (bitsOf d 198 2) (bitsOf d 704 8) else dv

/-- A trap record for a context (R335): written, or held behind a full ring with RINGLOST set. A context that is not
valid has no ring. -/
def Device.report (dv : Device) (r : TrapRec) : Device :=
  let d := dv.desc r.ctx
  if !bitOf d 197 then dv
  else if !(dv.ringOf r.ctx).held.isEmpty || trapFull d then
    let dv := dv.setDescBit r.ctx 721
    dv.setRing { dv.ringOf r.ctx with held := (dv.ringOf r.ctx).held ++ [r] }
  else dv.putTrap r

/-- A record without a tile: node, queue, INFO as its source gives them. -/
def recordOf (ctx src : Nat) (cause : Cause) (fatal : Bool) (region nodeid queue : Nat) (info : DWord) : TrapRec :=
  ⟨ctx, src, cause, 0, fatal, region, ⟨0, 0⟩, nodeid, queue, 0, 0#64, info, 0, none⟩

/-- Held records of a context are written once space frees, RINGLOST first (R335). -/
def Device.releaseHeld (dv : Device) (ctx : Nat) : Device :=
  let ring := dv.ringOf ctx
  if ring.held.isEmpty || trapFull (dv.desc ctx) then dv
  else
    let lost := recordOf ctx 10 .ringlost false 0 0 0 (BitVec.ofNat 64 ring.held.length)
    let dv := (dv.setRing { ring with held := [] }).putTrap lost
    ring.held.foldl Device.report dv

/-- A fault record is written at FRWR, or held when the ring is full (R73). -/
def Device.reportFault (dv : Device) (ctx port bits : Nat) : Device :=
  let d := dv.desc ctx
  let wr := bitsOf d 208 32
  let size := 2 ^ (bitsOf d 192 4 + 6)
  if (wr + 2 ^ 32 - bitsOf d 240 32) % 2 ^ 32 = size then
    let dv := dv.setDescBit ctx 272
    { dv with faults := dv.faults ++ [⟨ctx, port, bits⟩] }
  else
    (dv.ringStore (bitOf d 196) (bitsOf d 198 2) (bitsOf d 128 64 + 64 * (wr % size)) bits).putPhys (dv.descAt ctx + 26) 4
      ((wr + 1) % 2 ^ 32)

/-- Whether a tile is the one at a coordinate and holds a task. -/
def Tile.isAt (t : Tile) (c : Coord) : Bool := t.coord == c && t.sch.status != .absent

/-- The tile at a coordinate. -/
def State.tileAt (s : State) (c : Coord) : Option Tile :=
  if s.core.isAt c then some s.core else s.others.find? (·.isAt c)

/-- Puts a tile back in its place. -/
def State.setTile (s : State) (t : Tile) : State :=
  if s.core.isAt t.coord then { s with core := t }
  else { s with others := s.others.map fun u => if u.isAt t.coord then t else u }

/-- Changes the device. -/
def State.withDev (s : State) (f : Device → Device) : State := { s with dev := f s.dev }

/-- Puts steps at the end of the agenda. -/
def State.push (s : State) (l : List Due) : State := { s with agenda := s.agenda ++ l }

/-- A step of the device is taken before those that wait. -/
def State.pushFirst (s : State) (d : Due) : State := { s with agenda := d :: s.agenda }

/-- Whether a rectangle holds a coordinate. -/
def Rect.has (r : Rect) (c : Coord) : Bool :=
  decide (r.rowlo ≤ c.row) && decide (c.row ≤ r.rowhi) && decide (r.collo ≤ c.col) && decide (c.col ≤ r.colhi)

/-- Whether a node's placement or its shadow's holds a coordinate. -/
def Node.covers (n : Node) (c : Coord) : Bool :=
  n.place.has c || (match n.shadow with
    | some r => r.has c
    | none => false)

/-- The node that holds a tile. -/
def Device.nodeAt (dv : Device) (c : Coord) : Option Node :=
  dv.nodes.find? fun n =>
    (n.st == .loading || n.st == .running || n.st == .stopping || n.st == .saving) && n.covers c

/-- A node by its number. -/
def Device.node? (dv : Device) (id : Nat) : Option Node := dv.nodes.find? (·.id == id)

/-- Changes a node. -/
def Device.withNode (dv : Device) (id : Nat) (f : Node → Node) : Device :=
  { dv with nodes := dv.nodes.map fun n => if n.id = id then f n else n }

/-- A node is to fail with a cause code; the first cause given is the one the graph's status shows (R139, Table 17-6). -/
def State.failNodeAs (s : State) (id : Nat) (code : Nat) : State :=
  (s.withDev fun dv => dv.withNode id fun n => { n with cause := if n.cause = 0 then code + 1 else n.cause }).push
    [.nodeFail id]

/-- A node is to fail with a cause. -/
def State.failNode (s : State) (id : Nat) (c : Cause) : State := s.failNodeAs id c.code

/-- The trap record of a tile's report (R334). -/
def TRec.toTrap (t : Tile) (r : TRec) : TrapRec :=
  ⟨t.ctl.ctxid.toNat, r.src, r.cause, r.cause2, r.fatal, regionOf t.coord, t.coord, t.ctl.nodeid.toNat, 0, r.pc, r.faddr,
    r.info, r.cycle, r.raw⟩

/-- A tile at a coordinate has failed: a started migration that moves it will fail (R24). -/
def Device.failMoved (dv : Device) (c : Coord) : Device :=
  { dv with migrations := dv.migrations.map fun (m : Migration) => { m with failed := m.failed || (m.started && m.moved.elem c) } }

/-- One report of a tile goes to its context's ring; a fatal one fails the tile's node (R139, R332). -/
def State.flushOne (t : Tile) (s : State) (r : TRec) : State :=
  let s := s.withDev fun dv => dv.report (r.toTrap t)
  if r.fatal then
    let s := s.withDev fun dv => dv.failMoved t.coord
    match s.dev.nodeAt t.coord with
    | some n => s.failNodeAs n.id (r.raw.getD r.cause.code)
    | none => s
  else s

/-- The reports of the tile in turn go out. -/
def State.flush (s : State) : State :=
  match s.core.recs with
  | [] => s
  | l => l.foldl (State.flushOne s.core) { s with core := { s.core with recs := [] } }

/-- Changes the tile at a coordinate, and sends its reports; without such a tile nothing happens. -/
def State.onTile (s : State) (c : Coord) (f : Tile → Tile) : State :=
  match s.tileAt c with
  | some t =>
    let t' := f t
    t'.recs.foldl (State.flushOne t') (s.setTile { t' with recs := [] })
  | none => s

end Sys2Proof.Machine
end

