-- ==== Sys2Proof/Machine/Maps.lean ====
section
/-! DEFINITION. The tile map (R8 to R18, R406): which logical tiles exist, where they lie, the map records, a tile's place in
the reliability records of its region, and tiles that come and go. -/

namespace Sys2Proof.Machine

/-- The logical index of a slot (R10). -/
def unfoldIx (s : Nat) : Nat := if s % 2 = 0 then s / 2 else 999 - (s - 1) / 2

/-- Whether a coordinate lies in the grid. -/
def coordOk (c : Coord) : Bool := decide (c.row < 1000) && decide (c.col < 1000)

/-- The positions of a row whose bit is set in a mask. -/
def maskPositions (m : Nat) : List Nat := (upTo 128).filter (bitOf m)

/-- Whether a region is ready and its map complete (R13, R394). -/
def Device.mapDone (dv : Device) (r : Nat) : Bool := (dv.readyOf r).ready && (dv.readyOf r).kstate % 4 == 1

/-- Whether a logical tile is absent or a hole (R13, R23, R394). -/
def Device.absent (dv : Device) (c : Coord) : Bool :=
  coordOk c && (!dv.mapDone (regionOf c) || (dv.region (regionOf c)).holes.elem c)

/-- The used row that carries a local row slot, with its record. -/
def Region.usedRow (x : Region) (slot : Nat) : Option (Nat × RowRec) :=
  ((upTo x.rows.length).zip x.rows).find? fun r => r.2.state == 1 && r.2.lrow == slot

/-- The physical position of a logical tile (R10, R11). -/
def Device.posOf (dv : Device) (c : Coord) : Option Pos :=
  let r := regionOf c
  match (dv.region r).usedRow (foldIx c.row % 125) with
  | some (prow, rec_) => ((maskPositions rec_.posmap)[foldIx c.col % 125]?).map fun p => ⟨r, prow, p⟩
  | none => none

/-- A row record by physical row. -/
def Region.row (x : Region) (prow : Nat) : RowRec := (x.rows[prow]?).getD RowRec.zero

/-- The logical tile that a position carries (R11). -/
def Device.coordAt (dv : Device) (p : Pos) : Option Coord :=
  let rr := (dv.region p.region).row p.prow
  if rr.state = 1 && bitOf rr.posmap p.pos then
    let k := (maskPositions (rr.posmap % 2 ^ p.pos)).length
    some ⟨unfoldIx (125 * (p.region / 8) + rr.lrow), unfoldIx (125 * (p.region % 8) + k)⟩
  else none

/-- The physical address of an item of a region in its system window (entry 15). -/
def windowPa (k r : Nat) : Nat :=
  Config.windowAt k r / 2 ^ 24 % 40 * 2 ^ 36 + 0xFC0000000 + Config.windowAt k r % 2 ^ 24 * 64

/-- A row record as a number (Table 01-1). -/
def RowRec.bits (r : RowRec) (gen : Nat) : Nat :=
  atBits 0 128 r.posmap + atBits 128 128 r.qmask + atBits 256 7 r.lrow + atBits 263 2 r.state + atBits 288 32 gen

/-- The 128 records of a region's map are stored as the map stands (R17). -/
def Device.storeMap (dv : Device) (r : Nat) : Device :=
  (upTo 128).foldl (fun dv i => dv.putPhys (windowPa 0 r + 64 * i) 64 (((dv.region r).row i).bits (dv.region r).gen)) dv

/-- Rewrites a row record and increments MAPGEN in every record of the region (R17). -/
def Device.writeRow (dv : Device) (r prow : Nat) (x : RowRec) : Device :=
  (dv.withRegion r fun y => { y with rows := setAt y.rows prow x, gen := (y.gen + 1) % 2 ^ 32 }).storeMap r

/-- The reliability record of a position that carries nothing now (R379). -/
def Region.healthAt (x : Region) (p : Pos) : Health := ((x.idle.find? (·.1 == p)).map (·.2)).getD Health.zero

/-- Files the reliability record of a position. -/
def Region.setHealth (x : Region) (p : Pos) (h : Health) : Region := { x with idle := (p, h) :: x.idle.filter (·.1 != p) }

/-- A tile's error counts go to its region (R367). -/
def Region.harvest (x : Region) (l : List (Option Cause × Nat)) : Region :=
  l.foldl (fun (x : Region) c => match c.1 with
    | none => { x with cecnt := (x.cecnt + c.2) % 2 ^ 32 }
    | some .cbabort => { x with cbaborts := (x.cbaborts + c.2) % 2 ^ 32 }
    | some _ => { x with uecnt := (x.uecnt + c.2) % 2 ^ 32 }) x

/-- The Hearth FRAME of the region of a tile. -/
def Device.frameOf (dv : Device) (c : Coord) : Nat := (dv.region (regionOf c)).frame

/-- A stint begins on a tile: an eleventh drops the oldest (R379). -/
def Tile.beginStint (t : Tile) (frame : Nat) : Tile :=
  let x : Stint := ⟨t.ctl.ctxid.toNat, t.ctl.nodeid.toNat, frame, none,
    t.outs.toList.map fun o => ((o.seq + 1#32).toNat, o.seq.toNat),
    t.copy.ch.toList.map fun c => ((c.issued + 1#32).toNat, c.issued.toNat), 0⟩
  let l := t.health.stints ++ [x]
  { t with health := { t.health with stints := l.drop (l.length - 10), dropped := t.health.dropped || decide (10 < l.length) } }

/-- A stint as the tile's counters close it. -/
def Stint.close (x : Stint) (t : Tile) (frame how : Nat) : Stint :=
  { x with
    fin := some (frame, how)
    ch := (x.ch.zip t.outs.toList).map fun c => (c.1.1, c.2.seq.toNat)
    copy := (x.copy.zip t.copy.ch.toList).map fun c => (c.1.1, c.2.issued.toNat)
    oports := (x.ch.zip t.outs.toList).foldl (fun m c =>
      let p := bitsOf c.2.entry.toNat 47 5
      if bitOf c.2.entry.toNat 62 && c.2.seq.toNat != c.1.2 && !bitOf m p then m + 2 ^ p else m) 0 }

/-- The open stint of a tile ends: HOW is 0 END, 1 saved, 2 migrated away, 3 failed (R379, Table 18-5). -/
def Tile.endStint (t : Tile) (frame how : Nat) : Tile :=
  { t with health := { t.health with stints := t.health.stints.map fun (x : Stint) =>
      if x.fin.isSome then x else x.close t frame how } }

/-- The task in turn has just ended: so does its stint (R379). -/
def State.noteEnd (s : State) : State :=
  if s.core.sch.status = .ended then { s with core := s.core.endStint (s.dev.frameOf s.core.coord) 0 } else s

/-- What stays with a position when its tile goes: the reliability record, with the state of the array (R295, R379); a replay by
the cycles for which it still counts (R370). -/
def Tile.leaving (t : Tile) : Health :=
  { t.health with
    replays := (t.health.replays.filter fun c => decide (t.sch.cycle < c)).map (· - t.sch.cycle)
    spareUsed := t.eng.arr.spareUsed, rowsFailed := t.eng.arr.failed }

/-- What a tile leaves behind in its region: its counts and its position's record. -/
def Device.leave (dv : Device) (t : Tile) : Device :=
  dv.withRegion t.pos.region fun r => (r.harvest t.counts).setHealth t.pos t.leaving

/-- A tile takes a position: the record filed there, and the injection armed for its coordinate (R374). -/
def Tile.settle (t : Tile) (dv : Device) (p : Pos) : Tile :=
  let h := (dv.region p.region).healthAt p
  let j := (dv.region (regionOf t.coord)).injctl.toNat
  let hit := bitOf j 31 && bitsOf j 54 10 == t.coord.row && bitsOf j 44 10 == t.coord.col
  { t with
    pos := p, health := { h with replays := h.replays.map (· + t.sch.cycle) }, counts := []
    eng := { t.eng with arr := { t.eng.arr with spareUsed := h.spareUsed, failed := h.rowsFailed } }
    inj := ⟨if hit then bitsOf j 2 8 * 4 else 0, hit && bitOf j 30, []⟩
    pad := { t.pad with inj := ⟨if hit then bitsOf j 0 2 else 0, hit && bitOf j 30, []⟩ } }

/-- Whether a tile stands still: stopped for a save or a migration, or loaded and not yet started (R134, R337). -/
def Tile.frozen (t : Tile) : Bool :=
  t.sch.status == .stopped || t.sch.status == .loaded || t.sch.status == .saved || t.sch.status == .absent

/-- No tile: what stands in turn when none is left. -/
def Tile.none_ : Tile :=
  let t := Tile.zero ⟨0, 0⟩ ⟨0, 0, 0⟩
  { t with sch := { t.sch with status := .absent } }

/-- Takes every tile that passes a test out of the machine. -/
def State.removeTiles (s : State) (p : Tile → Bool) : State :=
  let gone := (s.core :: s.others).filter fun t => p t && t.sch.status != .absent
  let dv := gone.foldl Device.leave s.dev
  if p s.core then
    match s.others.filter fun t => !p t with
    | [] => { s with core := Tile.none_, others := [], bundle := none, dev := dv }
    | t :: l => { s with core := t, others := l, bundle := none, dev := dv }
  else { s with others := s.others.filter fun t => !p t, dev := dv }

/-- Puts tiles into the machine, each in place of an unused tile at its coordinate. -/
def State.addTile (s : State) (t : Tile) : State :=
  let unused (u : Tile) : Bool := u.sch.status == .absent || u.sch.status == .idle
  if unused s.core then { s with core := t, bundle := none }
  else { s with others := s.others.filter (fun u => !(unused u && u.coord == t.coord)) ++ [t] }

/-- The coordinates of a rectangle, row by row. -/
def Rect.coords (r : Rect) : List Coord :=
  (upTo (r.rowhi + 1 - r.rowlo)).flatMap fun i => (upTo (r.colhi + 1 - r.collo)).map fun j => ⟨r.rowlo + i, r.collo + j⟩

/-- Whether two rectangles share a tile. -/
def Rect.meets (a b : Rect) : Bool :=
  decide (a.rowlo ≤ b.rowhi) && decide (b.rowlo ≤ a.rowhi) && decide (a.collo ≤ b.colhi) && decide (b.collo ≤ a.colhi)
    && decide (a.rowlo ≤ a.rowhi) && decide (a.collo ≤ a.colhi) && decide (b.rowlo ≤ b.rowhi) && decide (b.collo ≤ b.colhi)

/-- A node's rectangles: the placement, and the shadow placement of a paired node. -/
def Node.rects (n : Node) : List Rect := n.place :: n.shadow.toList

/-- The coordinates of a node's tiles, in the order of their save slots (R340). -/
def Node.coords (n : Node) : List Coord := n.rects.flatMap Rect.coords

/-- Whether two nodes share a tile. -/
def Node.meets (n m : Node) : Bool := n.rects.any fun a => m.rects.any a.meets

/-- The regions of a node. -/
def Node.regions (n : Node) : List Nat := (n.coords.map regionOf).dedup

/-- A record whose INFO no chapter states: a free value (R334; entry 7). -/
def Device.say (dv : Device) (ctx src : Nat) (cause : Cause) (fatal : Bool) (region nodeid queue : Nat)
    (info : Option DWord) : Device :=
  match info with
  | some i => dv.report (recordOf ctx src cause fatal region nodeid queue i)
  | none =>
    let i := (Config.freeWord 0 dv.free) ++ (Config.freeWord 0 (dv.free + 1))
    ({ dv with free := dv.free + 2 }).report (recordOf ctx src cause fatal region nodeid queue i)

/-- A record that carries a cause code as it stands, its INFO free. -/
def Device.sayCode (dv : Device) (ctx src code : Nat) (fatal : Bool) (region nodeid queue : Nat) : Device :=
  let i := (Config.freeWord 0 dv.free) ++ (Config.freeWord 0 (dv.free + 1))
  ({ dv with free := dv.free + 2 }).report
    { recordOf ctx src (Cause.ofCode code) fatal region nodeid queue i with raw := some code }

/-- A record about a tile. -/
def Device.sayAt (dv : Device) (ctx src : Nat) (cause : Cause) (fatal : Bool) (c : Coord) (nodeid : Nat) : Device :=
  let i := (Config.freeWord 0 dv.free) ++ (Config.freeWord 0 (dv.free + 1))
  ({ dv with free := dv.free + 2 }).report { recordOf ctx src cause fatal (regionOf c) nodeid 0 i with coord := c }

/-- Whether a migration has to do with a tile of a node. -/
def Device.migrating (dv : Device) (n : Node) : Bool :=
  dv.migrations.any fun m => n.coords.any fun c => match dv.posOf c with
    | some p => p.region == m.region && p.prow == m.prow
    | none => false

/-- Whether a migration that has started moves the tile at a coordinate. -/
def Device.moves (dv : Device) (c : Coord) : Bool := dv.migrations.any fun m => m.started && m.moved.elem c

/-- Whether a tile has been told to stop: by its node's pre-emption, which waits for a migration, or by a migration. -/
def Device.stopTold (dv : Device) (c : Coord) : Bool :=
  match dv.nodeAt c with
  | some n => (n.st == .stopping && !dv.migrating n) || dv.moves c
  | none => false

end Sys2Proof.Machine
end

