-- ==== Sys2Proof/Machine/Operands.lean ====
section
/-! DEFINITION. Operand forms: immediates, effective addresses, the checks of an access in the order of Table 11-1, tile
registers and rings, and how a slot's meaning runs. -/

namespace Sys2Proof.Machine

/-- Runs a slot: guard, checks, effect, or the wait or trap they give (R194, R208); the tile's reports go out. -/
def runSlot (i : Instr) (h : Hdr) (sem : SlotInfo → Sem) (s : State) : Host.Outcome State Fault Refusal :=
  .next (State.flush (State.noteEnd { s with core := (issueSlot s.core s.bundle i h sem).1, bundle := (issueSlot s.core s.bundle i h sem).2 }))

/-- The value of an immediate-bearing field: sign-extended, or IMM32 (R195, Table 09-2). -/
def immSx {n : Nat} : Imm n 32 → Word
  | .short i => i.signExtend 32
  | .long w => w

/-- A scaled signed offset, or the byte offset IMM32 (Table 09-2). -/
def immScaled {n : Nat} (k : Nat) : Imm n 32 → Word
  | .short i => i.signExtend 32 * BitVec.ofNat 32 k
  | .long w => w

/-- LT's unsigned offset in 64-byte lines, or IMM32. -/
def immLt : Imm 4 32 → Word
  | .short i => i.setWidth 32 * 64#32
  | .long w => w

/-- LA's unsigned offset in words, or the signed 30-bit byte offset. -/
def immLa : Imm 2 30 → Word
  | .short i => i.setWidth 32 * 4#32
  | .long w => w.signExtend 32

/-- A branch target: the bundle's address plus 4·SXT(O), or plus IMM32 (R218). -/
def branchTo (t : Tile) (o : Imm 16 32) : Word := t.sch.pc + immScaled 4 o

/-- A register operand of a pair: logical S + 1, by rotation (R247, R254). -/
def succS (r : BitVec 5) : BitVec 5 := r + 1#5

/-- The ranges of the data space (Table 02-1). -/
inductive SpRange where
  | general | carve | fe | aperture | route | none
  deriving DecidableEq, Repr

/-- The range of an address. -/
def rangeOf (a : Nat) : SpRange :=
  if a < carveOut then .general
  else if a < padSize then .carve
  else if 0x40000 ≤ a ∧ a < 0x40600 then .fe
  else if 0x50000 ≤ a ∧ a < 0x50040 then .aperture
  else if 0x60000 ≤ a ∧ a < 0x60100 then .route
  else .none

/-- The kinds of access of Table 02-2; LDW and STW may reach the copy aperture. -/
inductive AKind where
  | load | loadW | store | storeW | wideLoad | wideStore | eval
  deriving DecidableEq, Repr

/-- Whether a kind of access is a store. -/
def AKind.isStore : AKind → Bool
  | .store | .storeW | .wideStore => true
  | _ => false

/-- The cause Table 02-2 refuses an access to a range with, `tm` whether traps are masked, `a` the access's address. -/
def refusal (k : AKind) (tm : Bool) (a : Nat) (r : SpRange) : Option Cause :=
  match k, r with
  | _, .general => none
  | .load, .carve | .loadW, .carve | .wideLoad, .carve => none
  | _, .carve => if tm then none else some .carve
  | .load, .aperture => some .apert
  | .load, _ => none
  | .loadW, _ => none
  | .storeW, .aperture => if a % 8 = 0 then none else some .apert
  | .store, .aperture | .wideStore, .aperture => some .apert
  | .store, _ | .storeW, _ | .wideStore, _ => some .spwro
  | .wideLoad, _ => some .apert
  | .eval, _ => some .atomop

/-- One item of an access: its first address and the addresses it touches; a gather has one for each lane. -/
structure Item where
  a : Nat
  bytes : List Nat
  deriving DecidableEq, Repr

/-- An item of `n` bytes. -/
def itemOf (a n : Nat) : Item := ⟨a, (upTo n).map (a + ·)⟩

/-- The first item that fails a test, as a cause. -/
def failing (l : List Item) (f : Item → Option Cause) : Check :=
  match l.findSome? fun x => (f x).map fun c => (c, x.a) with
  | some (c, a) => .raise c (BitVec.ofNat 64 a) 0#64 []
  | none => .ok

/-- Checks 3 to 5 of Table 11-1, each over every item before the next: alignment, range, access; a qualifier outside
scratchpad raises APERT (R28). -/
def accessCheck (t : Tile) (k : AKind) (al : Nat) (alc : Cause) (q : Bool) (l : List Item) : Check :=
  Check.all
    [failing l fun x => if x.a % al = 0 then none else some alc,
     failing l fun x => if x.bytes.any fun a => rangeOf a == .none then some .sprange else none,
     failing l fun x =>
      if q && x.bytes.any fun a => decide (padSize ≤ a) then some .apert
      else x.bytes.findSome? fun a => refusal k t.sch.tm x.a (rangeOf a)]

/-- The full/empty bits as every access issued so far leaves them: the view of the next access (R108). -/
def Tile.fullView (t : Tile) : NatSet := (Tile.drainAll t.pad.queue.length t).pad.full

/-- The granules of items. -/
def itemGrans (l : List Item) : List Nat := granSet (l.flatMap (·.bytes))

/-- A wait on full/empty bits: the first granule whose condition fails is the fault address of its time-out (R39). -/
def waitGrans (t : Tile) (gs : List Nat) (full : Bool) : Check :=
  match firstFail gs (fun g => t.fullView.has g == full) with
  | some g => .late (mkStall .fe (BitVec.ofNat 64 (16 * g)))
  | none => .ok

/-- Check 7 of Table 11-1 and the waits of a load's qualifier (Table 02-3). -/
def loadQual (t : Tile) (q : BitVec 2) (l : List Item) : Check :=
  match q.toNat with
  | 0 => .ok
  | 3 => failing l fun x => if (itemGrans [x]).all t.fullView.has then none else some .feempty
  | _ => waitGrans t (itemGrans l) true

/-- Check 7 of Table 11-1 and the waits of a store's qualifier (Table 02-3). -/
def storeQual (t : Tile) (q : BitVec 2) (l : List Item) : Check :=
  match q.toNat with
  | 3 => failing l fun x => if (itemGrans [x]).all (fun g => !t.fullView.has g) then none else some .fefull
  | 2 => waitGrans t (itemGrans l) false
  | _ => .ok

/-- The granules a load with a qualifier empties. -/
def loadTakes (q : BitVec 2) (l : List Item) : List Nat := if q = 2#2 then itemGrans l else []

/-- The granules a store with a qualifier fills. -/
def storeFills (q : BitVec 2) (l : List Item) : List Nat := if q = 0#2 then [] else itemGrans l

/-- The register a tile field names now: a register, or the register of a ring's slot at `ptr`. -/
def Ring.regAt (r : Ring) (ptr : Nat) : Nat := r.first + ptr % (r.sizem1 + 1)

/-- A ring of the tile. -/
def Tile.ring (t : Tile) (n : Nat) : Ring := (t.eng.rings[n]?).getD ⟨false, 0, 0, 0, 0, []⟩

/-- The state of a ring's slot at a pointer. -/
def Ring.slotAt (r : Ring) (ptr : Nat) : SlotSt := (r.slots[ptr % (r.sizem1 + 1)]?).getD .free

/-- Whether a ring slot is free to reserve, at the producer pointer. -/
def Ring.canPut (r : Ring) : Bool := r.slotAt r.pptr == .free

/-- Whether the slot at the consumer pointer holds landed data. -/
def Ring.canTake (r : Ring) : Bool := r.slotAt r.cptr == .landed

/-- Reserves the slot at the producer pointer and advances the pointer (R242, R286). -/
def Ring.reserve (r : Ring) : Ring :=
  { r with slots := r.slots.set (r.pptr % (r.sizem1 + 1)) .reserved, pptr := (r.pptr + 1) % (r.sizem1 + 1) }

/-- Frees the slot at the consumer pointer and advances the pointer (R242, R286). -/
def Ring.take (r : Ring) : Ring :=
  { r with slots := r.slots.set (r.cptr % (r.sizem1 + 1)) .free, cptr := (r.cptr + 1) % (r.sizem1 + 1) }

/-- The tile register an LT slot or a send uses now: a producer's ring slot for a load, a consumer's for a store. -/
def Tile.refReg (t : Tile) (load : Bool) : TileRef → Nat
  | .tile r => r.toNat
  | .ring n => (t.ring n.toNat).regAt (if load then (t.ring n.toNat).pptr else (t.ring n.toNat).cptr)

/-- Whether the ring a field names is declared. -/
def Tile.refDefd (t : Tile) : TileRef → Bool
  | .tile _ => true
  | .ring n => (t.ring n.toNat).defd

end Sys2Proof.Machine
end

