-- ==== Sys2Proof/Machine/Control.lean ====
section
/-! DEFINITION. The control registers by number: what a read returns, what a write refuses and what it does (R163 to
R166, Table 07-5). SETC and the presets of a launch (R132) share these. -/

namespace Sys2Proof.Machine

/-- Landed slots in order from the consumer pointer, at most `fuel` (Table 13-2). -/
def Ring.landedRun (r : Ring) : Nat → Nat → Nat
  | 0, n => n
  | fuel + 1, n => if r.slotAt (r.cptr + n) = .landed then Ring.landedRun r fuel (n + 1) else n

/-- ringst of a ring (Table 13-2). -/
def Ring.status (r : Ring) : Word :=
  if r.defd then
    BitVec.ofNat 32 (atBits 31 1 1 + atBits 27 4 r.first + atBits 23 4 r.sizem1 + atBits 19 4 r.pptr + atBits 15 4 r.cptr
      + atBits 10 5 (r.slots.filter (· != .free)).length + atBits 5 5 (r.landedRun (r.sizem1 + 1) 0))
  else 0#32

/-- ceerr (Table 11-6). -/
def CopyEng.ceerr (c : CopyEng) : Word :=
  BitVec.ofNat 32 (atBits 24 8 c.fcause + atBits 19 1 (b2n c.fvalid) + atBits 16 3 c.fch
    + (upTo 8).foldl (fun x i => x + b2n (((c.ch[i]?).map (·.halted.isSome)).getD false) * 2 ^ i) 0)

/-- pgran (Table 07-9). -/
def pgran : Word := 0x00B1B688#32

/-- A copy channel. -/
def Tile.copyCh (t : Tile) (n : Nat) : CopyCh := (t.copy.ch[n]?).getD ⟨0#32, 1#32, none, []⟩

/-- A control register by number; a number absent from Table 07-5 gives none. -/
def Tile.getCtl (t : Tile) (n : Nat) : Option Word :=
  let c := t.ctl
  if n = 0x000 then some c.fmt
  else if n = 0x001 then some (BitVec.ofNat 32 c.vbud)
  else if n = 0x002 then some (BitVec.ofNat 32 c.rrb)
  else if n = 0x003 then some c.lc
  else if n = 0x004 then some c.ec
  else if n = 0x005 then some c.tvec
  else if n = 0x006 then some (BitVec.ofNat 32 t.tstat)
  else if n = 0x007 then some c.febound
  else if n = 0x008 then some c.ovflo
  else if n = 0x009 then some c.ovfhi
  else if n = 0x00A then some c.spcarve
  else if n = 0x00B then some c.ctbase
  else if n = 0x00C then some c.barbound
  else if 0x010 ≤ n ∧ n < 0x020 then some (t.tshOf (n - 0x010))
  else if n = 0x020 then some c.coordrow
  else if n = 0x021 then some c.coordcol
  else if n = 0x022 then some c.rank
  else if n = 0x023 then some c.nodeid
  else if n = 0x024 then some c.ctxid
  else if 0x028 ≤ n ∧ n < 0x030 then some (t.copyCh (n - 0x028)).done
  else if 0x030 ≤ n ∧ n < 0x038 then some (t.copyCh (n - 0x030)).issued
  else if n = 0x038 then some t.copy.ceerr
  else if 0x040 ≤ n ∧ n < 0x050 then
    let b := (c.bb[(n - 0x040) / 2]?).getD 0#64
    some (if n % 2 = 0 then b.setWidth 32 else b.extractLsb' 32 32)
  else if n = 0x050 then some c.rnseed
  else if n = 0x051 then some c.rnstep
  else if n = 0x052 then some c.rnstream
  else if n = 0x053 then some c.rnkeep
  else if 0x058 ≤ n ∧ n < 0x060 then some ((c.hy[n - 0x058]?).getD 0#32)
  else if n = 0x060 then some (BitVec.ofNat 32 t.sch.cycle)
  else if n = 0x061 then some c.cyclehi
  else if 0x070 ≤ n ∧ n < 0x078 then some (t.ring (n - 0x070)).status
  else if n = 0x080 then some pgran
  else none

/-- The registers a preset list may name (R132); SETC may write these but fmt, and beside them rrb, lc, ec and ceerr. -/
def presettable (n : Nat) : Bool :=
  [0x000, 0x001, 0x005, 0x007, 0x008, 0x009, 0x00A, 0x00B, 0x00C].elem n || decide (0x010 ≤ n ∧ n < 0x020)
    || decide (0x040 ≤ n ∧ n < 0x054) || decide (0x058 ≤ n ∧ n < 0x060)

/-- The registers SETC may write (Table 07-5). -/
def settable (n : Nat) : Bool := (presettable n && n != 0) || [0x002, 0x003, 0x004, 0x038].elem n

/-- The conditions of R45 on spcarve and ctbase; an empty carve-out overlaps nothing. -/
def carveOk (spcarve ctbase : Word) : Bool :=
  let lines := bitsOf spcarve.toNat 18 12
  let base := bitsOf spcarve.toNat 6 12
  let line := bitsOf ctbase.toNat 6 12
  decide (base + lines ≤ 3008) && decide (line + 32 ≤ 3008)
    && (lines == 0 || decide (base + lines ≤ line) || decide (line + 32 ≤ base))

/-- The cause a register's description rejects a value with (Table 07-5): budgets, shapes, the keep threshold, and, unless
the caller judges them itself (R132), the carve-outs of R45. -/
def ctlRefusal (c : Ctl) (n : Nat) (v : Word) (judge : Bool) : Option Cause :=
  if n = 0x000 ∧ fmtRefused v then some .fmtres
  else if n = 0x001 ∧ (v.toNat < 4 ∨ 28 < v.toNat) then some .vxbud
  else if n = 0x00A ∧ judge ∧ !carveOk v c.ctbase then some .carve
  else if n = 0x00B ∧ judge ∧ !carveOk c.spcarve v then some .carve
  else if 0x010 ≤ n ∧ n < 0x020 ∧ !shapeValid (v &&& ctlMask n) then some .tshape
  else if n = 0x053 ∧ 65536 < v.toNat then some .rnerr
  else none

/-- The issue checks of SETC (R225): unknown numbers, read-only registers, refused values. -/
def setcCheck (t : Tile) (n : Nat) (v : Word) : Check :=
  if (t.getCtl n).isNone then .raise .ctlnx 0#64 0#64 []
  else if !settable n then .raise .ctlro 0#64 0#64 []
  else match ctlRefusal t.ctl n v true with
    | some c => .raise c 0#64 0#64 []
    | none => .ok

end Sys2Proof.Machine
end

