-- ==== Sys2Proof/Machine/Branch.lean ====
section
/-! DEFINITION. The B class: transfers, loops, predicates, control registers, the end of a task, traps (R218 to
R229). -/

namespace Sys2Proof.Machine

/-- The bundle in issue transfers to an address at a cost (R193, R219). -/
def Tile.transfer (t : Tile) (a : Word) (cost : Nat) : Tile :=
  t.withSch fun s => { s with xfer := some a, cost := Nat.max s.cost cost }

/-- The bundle in issue costs more cycles (R219). -/
def Tile.addCost (t : Tile) (cost : Nat) : Tile := t.withSch fun s => { s with cost := Nat.max s.cost cost }

/-- A slot acts when its bundle closes. -/
def Tile.atClose (t : Tile) (x : Closing) : Tile := t.withSch fun s => { s with closing := s.closing ++ [x] }

/-- The cost of BR and CALL: taken with the hint set, or not taken with it clear, nothing; else 2 (Table 10-6). -/
def hintCost (taken hint : Bool) : Nat := if taken == hint then 0 else 2

/-- The last entry of a stack, and the stack without it. -/
def popLast {α : Type} (l : List α) (d : α) : α × List α := (l.getLastD d, l.dropLast)

/-- BNOP does nothing (Table 10-5). -/
def execBnop (h : Hdr) (s : State) : Host.Outcome State Fault Refusal :=
  runSlot (.bnop h) h (fun _ => { eff := fun _ t => t }) s

/-- BR (R218, R219). -/
def execBr (h : Hdr) (o : Imm 16 32) (hint : Bool) (s : State) : Host.Outcome State Fault Refusal :=
  runSlot (.br h o hint) h
    (fun _ => { eff := fun r t => t.transfer (branchTo r o) (hintCost true hint), nullCost := hintCost false hint }) s

/-- CALL (R218): the return address is pushed when the bundle closes. -/
def execCall (h : Hdr) (o : Imm 16 32) (hint : Bool) (s : State) : Host.Outcome State Fault Refusal :=
  runSlot (.call h o hint) h
    (fun _ =>
      { check := fun t => need (decide (t.sch.rstk.length < 16)) .stkov
        eff := fun r t => (t.transfer (branchTo r o) (hintCost true hint)).atClose .call
        nullCost := hintCost false hint }) s

/-- RET (R218). -/
def execRet (h : Hdr) (s : State) : Host.Outcome State Fault Refusal :=
  runSlot (.ret h) h
    (fun _ =>
      { check := fun t => need (!t.sch.rstk.isEmpty) .stkun
        eff := fun r t =>
          (t.transfer (popLast r.sch.rstk 0#32).1 0).withSch fun c => { c with rstk := (popLast r.sch.rstk 0#32).2 } }) s

/-- JR (R218): a misaligned or far target faults in the bundle fetched there. -/
def execJr (h : Hdr) (a : BitVec 4) (s : State) : Host.Outcome State Fault Refusal :=
  runSlot (.jr h a) h (fun _ => { eff := fun r t => t.transfer (r.ra a) 2 }) s

/-- LOOPSET pushes (lc, ec) and starts a loop (R220). -/
def execLoopset (h : Hdr) (d : BitVec 5) (n : BitVec 9) (mod : Bool) (s : State) : Host.Outcome State Fault Refusal :=
  runSlot (.loopset h d n mod) h
    (fun _ =>
      { check := fun t => need (decide (t.sch.lstk.length < 4)) .loopnest
        eff := fun r t =>
          let t := t.withSch fun c => { c with lstk := c.lstk ++ [(r.ctl.lc, r.ctl.ec)] }
          let t := t.withCtl fun c => { c with lc := r.rs d, ec := n.setWidth 32, rrb := 0 }
          if mod then
            (((t.write1 (.p 4 true)).write1 (.p 5 false)).write1 (.p 6 false)).write1 (.p 7 false)
          else t }) s

/-- The enclosing loop's counts come back (R220, R221). -/
def Tile.popLoop (t : Tile) : Tile :=
  match t.sch.lstk with
  | [] => t
  | x :: l =>
    let p := popLast (x :: l) (0#32, 0#32)
    { t with ctl := { t.ctl with lc := p.1.1, ec := p.1.2 }, sch := { t.sch with lstk := p.2 } }

/-- LOOPSET with `pop` (R220). -/
def execLoopsetPop (h : Hdr) (s : State) : Host.Outcome State Fault Refusal :=
  runSlot (.loopsetPop h) h
    (fun _ => { check := fun t => need (!t.sch.lstk.isEmpty) .loopnest, eff := fun _ t => t.popLoop }) s

/-- One rotation of LOOP: rrb falls by one, and the predicate p4 under the new rrb takes `b` (R221). -/
def Tile.rotateLoop (t : Tile) (b : Bool) : Tile :=
  let rrb := (t.ctl.rrb + 15) % 16
  (t.withCtl fun c => { c with rrb := rrb }).write1 (.p (rotP rrb 4#3) b)

/-- LOOP (R221). -/
def execLoop (h : Hdr) (o : Imm 16 32) (hint : Bool) (s : State) : Host.Outcome State Fault Refusal :=
  runSlot (.loop h o hint) h
    (fun _ =>
      { eff := fun r t =>
          if r.ctl.lc ≠ 0#32 then
            ((t.withCtl fun c => { c with lc := r.ctl.lc - 1#32 }).rotateLoop true).transfer (branchTo r o) 0
          else if 1 < r.ctl.ec.toNat then
            ((t.withCtl fun c => { c with ec := r.ctl.ec - 1#32 }).rotateLoop false).transfer (branchTo r o) 0
          else if r.ctl.ec = 1#32 then
            (((t.withCtl fun c => { c with ec := 0#32 }).rotateLoop false).popLoop).addCost 2
          else t.popLoop.addCost 2
        nullCost := 2 }) s

/-- LOOPC (R221). -/
def execLoopc (h : Hdr) (o : Imm 16 32) (hint : Bool) (s : State) : Host.Outcome State Fault Refusal :=
  runSlot (.loopc h o hint) h
    (fun _ =>
      { eff := fun r t =>
          if r.ctl.lc ≠ 0#32 then
            (t.withCtl fun c => { c with lc := r.ctl.lc - 1#32 }).transfer (branchTo r o) 0
          else t.popLoop.addCost 2
        nullCost := 2 }) s

/-- SETFMT: in force from four cycles after issue (R165, R225). -/
def execSetfmt (h : Hdr) (d : BitVec 5) (s : State) : Host.Outcome State Fault Refusal :=
  runSlot (.setfmt h d) h
    (fun _ =>
      { check := fun t => need (!fmtRefused (t.rs d)) .fmtres
        eff := fun r t => t.withCtl fun c => { c with fmtNext := c.fmtNext ++ [(r.sch.cycle + 4, r.rs d)] } }) s

/-- SETC (R225): in force for the bundle after its own (R163). -/
def execSetc (h : Hdr) (d : BitVec 5) (n : BitVec 9) (s : State) : Host.Outcome State Fault Refusal :=
  runSlot (.setc h d n) h
    (fun _ => { check := fun t => setcCheck t n.toNat (t.rs d), eff := fun r t => t.atClose (.setc n.toNat (r.rs d)) }) s

/-- GETC (R225); of cyclelo it also latches cyclehi (R163). -/
def execGetc (h : Hdr) (d : BitVec 5) (n : BitVec 9) (s : State) : Host.Outcome State Fault Refusal :=
  runSlot (.getc h d n) h
    (fun _ =>
      { check := fun t => need (t.getCtl n.toNat).isSome .ctlnx
        eff := fun r t =>
          let t := t.write1 (r.ws d ((r.getCtl n.toNat).getD 0#32))
          if n = 0x060#9 then t.withCtl fun c => { c with cyclehi := BitVec.ofNat 32 (r.sch.cycle / 2 ^ 32) } else t }) s

/-- PAND (R224). -/
def execPand (h : Hdr) (d a b : BitVec 3) (s : State) : Host.Outcome State Fault Refusal :=
  runSlot (.pand h d a b) h (fun _ => { eff := fun r t => t.write1 (r.wp d (r.rp a && r.rp b)) }) s

/-- POR (R224). -/
def execPor (h : Hdr) (d a b : BitVec 3) (s : State) : Host.Outcome State Fault Refusal :=
  runSlot (.por h d a b) h (fun _ => { eff := fun r t => t.write1 (r.wp d (r.rp a || r.rp b)) }) s

/-- PXOR (R224). -/
def execPxor (h : Hdr) (d a b : BitVec 3) (s : State) : Host.Outcome State Fault Refusal :=
  runSlot (.pxor h d a b) h (fun _ => { eff := fun r t => t.write1 (r.wp d (r.rp a != r.rp b)) }) s

/-- PANDN (R224). -/
def execPandn (h : Hdr) (d a b : BitVec 3) (s : State) : Host.Outcome State Fault Refusal :=
  runSlot (.pandn h d a b) h (fun _ => { eff := fun r t => t.write1 (r.wp d (r.rp a && !r.rp b)) }) s

/-- PMOV (R224). -/
def execPmov (h : Hdr) (d a : BitVec 3) (s : State) : Host.Outcome State Fault Refusal :=
  runSlot (.pmov h d a) h (fun _ => { eff := fun r t => t.write1 (r.wp d (r.rp a)) }) s

/-- The faulted tags among some. -/
def Tile.faulted (t : Tile) (l : List Nat) : List Nat := l.filter fun n => t.tagSt n == .faulted

/-- Whether none of some tags is outstanding. -/
def Tile.settled (t : Tile) (l : List Nat) : Bool := l.all fun n => t.tagSt n != .outstanding

/-- Tags 1 to 7. -/
def allTags : List Nat := [1, 2, 3, 4, 5, 6, 7]

/-- TAGDEAD for the faulted tags among some, which it frees (R158). -/
def tagDead (t : Tile) (l : List Nat) : Check :=
  if t.faulted l = [] then .ok else .raise .tagdead 0#64 0#64 (t.faulted l)

/-- Whether an access of port A is a producer that writes a register (R153). -/
def PortAct.produces : PortAct → Bool
  | .load _ _ _ _ | .atom _ _ _ _ _ _ | .barRd _ _ _ _ | .feRd _ _ _ => true
  | _ => false

/-- No core or V producer is unlanded, one that still waits at port A among them, no list operation goes on, and every digit
link is dead. -/
def Tile.landed (t : Tile) : Bool :=
  t.sch.flights.isEmpty && t.sch.vops.isEmpty && t.lists.isEmpty && t.sch.links.toList.all (·.isNone)
    && t.pad.queue.all fun q => !q.act.produces

/-- Whether every engine operation has completed. -/
def Tile.enginesDone (t : Tile) : Bool :=
  [t.eng.mx, t.eng.xp, t.eng.up, t.eng.rn].all fun e => e.queue.isEmpty && e.fired.isEmpty

/-- END: its wait, then its faults in order; the task ends when its bundle closes (R227). -/
def execEndTask (h : Hdr) (s : State) : Host.Outcome State Fault Refusal :=
  runSlot (.endTask h) h
    (fun _ =>
      { check := fun t => Check.all
          [waitFirst (t.settled allTags && t.landed && t.enginesDone) (mkStall .plain),
           tagDead t allTags, need t.holds.isEmpty .guarderr, need t.blocks.isEmpty .cbnest]
        eff := fun _ t => t.atClose .endTask }) s

/-- TRAP: its bundle issues, and TRAPI is taken at the boundary after it (R228). -/
def execTrap (h : Hdr) (n : BitVec 9) (s : State) : Host.Outcome State Fault Refusal :=
  runSlot (.trap h n) h (fun _ => { eff := fun _ t => t.raise .trapi (some t.sch.seq) 0 (n.setWidth 64) }) s

/-- RFT: with traps masked, once every tag of the handler is free and its V operations are complete (R277), the frame is reloaded when the bundle closes (R229). -/
def execRft (h : Hdr) (s : State) : Host.Outcome State Fault Refusal :=
  runSlot (.rft h) h
    (fun _ =>
      { check := fun t => Check.all [need t.sch.tm .illop, waitFirst (t.sch.own.isEmpty && t.sch.vops.isEmpty) (mkStall .plain)]
        eff := fun _ t => t.atClose .rft }) s

/-- BKPT raises BRKPT at issue (R228). -/
def execBkpt (h : Hdr) (n : BitVec 9) (s : State) : Host.Outcome State Fault Refusal :=
  runSlot (.bkpt h n) h (fun _ => { check := fun _ => .raise .brkpt 0#64 0#64 [], eff := fun _ t => t }) s

end Sys2Proof.Machine
end

