-- ==== Sys2Proof/Machine/EngOps.lean ====
section
/-! DEFINITION. The matrix array, the transpose, update and random units: operands and shapes, what an operation computes,
when it fires and completes (R173 to R178, R189, R280 to R301). -/

namespace Sys2Proof.Machine

/-- The engine of an E instruction that is queued. -/
def engineOf : Instr → Engine
  | .xpt _ _ _ _ | .xpc _ _ _ _ _ => .xp
  | .upadm _ _ _ _ _ _ | .upsgd _ _ _ _ _ | .upaxp _ _ _ _ => .up
  | .rnmask _ _ _ _ _ | .rnuni _ _ _ _ _ => .rn
  | _ => .mx

/-- The tile registers and rings an operation reads. -/
def engReads : Instr → List TileRef
  | .mxw _ x _ => [x]
  | .mxf _ _ x _ | .mxr _ _ x _ => [x]
  | .mxz _ _ (some x) _ => [x]
  | .xpt _ _ x _ => [x]
  | .xpc _ _ x _ _ => [x]
  | .upadm _ w g m v _ => [.tile w, .tile g, .tile m, .tile v]
  | .upsgd _ w g m _ => [.tile w, .tile g, .tile m]
  | .upaxp _ y x _ => [.tile y, .tile x]
  | _ => []

/-- The tile registers and rings an operation writes. -/
def engWrites : Instr → List TileRef
  | .mxo _ d _ _ | .mxq _ d _ _ => [d]
  | .xpt _ d _ _ => [d]
  | .xpc _ d _ _ _ => [d]
  | .upadm _ w _ m v _ => [.tile w, .tile m, .tile v]
  | .upsgd _ w _ m _ => [.tile w, .tile m]
  | .upaxp _ y _ _ => [.tile y]
  | .rnmask _ d _ _ _ | .rnuni _ d _ _ _ => [d]
  | _ => []

/-- The accumulator an operation names. -/
def engAcc : Instr → Option Nat
  | .mxf _ z _ _ | .mxr _ z _ _ => some z.toNat
  | .mxp _ z _ _ _ => some z.toNat
  | .mxz _ z _ _ => some z.toNat
  | .mxo _ _ z _ | .mxq _ _ z _ => some z.toNat
  | _ => none

/-- The accumulator an operation writes; MXO and MXQ only read theirs. -/
def engAccDest : Instr → Option Nat
  | .mxo _ _ _ _ | .mxq _ _ _ _ => none
  | i => engAcc i

/-- Whether an operation accumulates (MXF, MXR): its products enter the array as it streams. -/
def streams : Instr → Bool
  | .mxf _ _ _ _ | .mxr _ _ _ _ => true
  | _ => false

/-- Whether an operation uses the weight loader and not the array (R289). -/
def usesLoader : Instr → Bool
  | .mxw _ _ _ => true
  | _ => false

/-- Bytes of an MX input element under MXIN (R289). -/
def inBytes (fmt : Word) : Nat := if fmtMxin fmt = 1 then 2 else 1

/-- Bytes of an MXO output element (R293). -/
def outBytes (fmt : Word) : Nat :=
  match fmtMxo fmt with
  | 1 => 2
  | 2 => 1
  | _ => 4

/-- A test of a shape that passes while the shape is not known (R280). -/
def onShape (s : Option Shape) (f : Shape → Bool) : Bool :=
  match s with
  | some s => f s
  | none => true

/-- A test of two shapes. -/
def onShapes (a b : Option Shape) (f : Shape → Shape → Bool) : Bool := onShape a fun x => onShape b fun y => f x y

/-- Same rows and columns. -/
def Shape.alike (a b : Shape) : Bool := a.rows == b.rows && a.cols == b.cols

/-- Element widths of an XPC code, source and destination (Table 13-4). -/
def xpcWidths (code : Nat) : Nat × Nat :=
  match code with
  | 0 => (4, 2)
  | 1 => (4, 1)
  | 2 => (2, 4)
  | 3 => (1, 4)
  | 4 => (2, 1)
  | _ => (1, 2)

/-- Whether the shapes of an operation's operands are accepted (OPFMT, R289 to R299); `g` gives the shape of an operand,
none where a ring's slot is not yet known. -/
def formOk (i : Instr) (fmt : Word) (g : TileRef → Option Shape) : Bool :=
  match i with
  | .mxw _ x _ => onShape (g x) fun s => s.rows == 16 && s.cols == 16 && s.ew == inBytes fmt
  | .mxf _ _ x _ | .mxr _ _ x _ => onShape (g x) fun s => s.cols == 16 && s.ew == inBytes fmt
  | .mxz _ _ (some x) _ => onShape (g x) fun s => s.rows == 16 && s.cols == 16 && s.ew == 4
  | .mxo _ d _ _ => onShape (g d) fun s => s.cols == 16 && s.ew == outBytes fmt
  | .mxq _ d _ _ => onShape (g d) fun s => s.cols == 1 && s.ew == 4
  | .xpt _ d x _ =>
    onShape (g x) (fun s => decide (s.cols ≤ 16))
      && onShapes (g x) (g d) fun s e => s.ew == e.ew && s.rows == e.cols && s.cols == e.rows
  | .xpc _ d x code _ =>
    onShape (g x) (fun s => s.ew == (xpcWidths code.toNat).1) && onShape (g d) (fun s => s.ew == (xpcWidths code.toNat).2)
      && onShapes (g x) (g d) Shape.alike
  | .upadm _ w gg m v _ =>
    onShape (g (.tile w)) (fun s => s.ew == 4) && onShape (g (.tile m)) (fun s => s.ew == 4)
      && onShape (g (.tile v)) (fun s => s.ew == 4) && onShape (g (.tile gg)) (fun s => s.ew == 2 || s.ew == 4)
      && onShapes (g (.tile w)) (g (.tile gg)) Shape.alike && onShapes (g (.tile w)) (g (.tile m)) Shape.alike
      && onShapes (g (.tile w)) (g (.tile v)) Shape.alike
  | .upsgd _ w gg m _ =>
    onShape (g (.tile w)) (fun s => s.ew == 4) && onShape (g (.tile m)) (fun s => s.ew == 4)
      && onShape (g (.tile gg)) (fun s => s.ew == 2 || s.ew == 4)
      && onShapes (g (.tile w)) (g (.tile gg)) Shape.alike && onShapes (g (.tile w)) (g (.tile m)) Shape.alike
  | .upaxp _ y x _ =>
    onShape (g (.tile y)) (fun s => s.ew == 4) && onShape (g (.tile x)) (fun s => s.ew == 2 || s.ew == 4)
      && onShapes (g (.tile y)) (g (.tile x)) Shape.alike
  | .rnuni _ d _ _ _ => onShape (g d) fun s => s.ew == 4
  | _ => true

/-- Element `i` of an image of elements of `ew` bytes. -/
def elemAt (l : List Byte) (ew i : Nat) : Nat := bytesVal ((l.drop (ew * i)).take ew)

/-- An image from its elements. -/
def imageOf (ew n : Nat) (f : Nat → Nat) : List Byte := (upTo n).flatMap fun i => valBytes ew (f i)

/-- One FP8 or INT8 product of an element: its integer images, none where an input is NaN (Table 08-4). -/
def imageProd (mxin a w : Nat) : Option (Int × Int) :=
  if mxin = 0 then
    if (decE4M3 a).isNan || (decE4M3 w).isNan then none else some (imgE4M3 a, imgE4M3 w)
  else some (sxt 8 a, sxt 8 w)

/-- One product added to an element: exact partial, NaN flag and residue, or a rounded sum under BF16 (Table 08-4,
R177). -/
def ZElem.product (mxin : Nat) (z : ZElem) (a w : Nat) : ZElem :=
  if mxin = 1 then { z with acc := BitVec.ofNat 32 (fma32 (widenBf16 a) (widenBf16 w) z.acc.toNat) }
  else
    match imageProd mxin a w with
    | none => { z with nan := true }
    | some (x, y) =>
      { z with
        p := z.p + BitVec.ofInt 56 (x * y)
        res := (z.res + ((x % 63) * (y % 63)).toNat) % 63 }

/-- MXF and MXR: R rows streamed against the active weights; MXR uses their transpose (R290). -/
def ZAcc.accumulate (z : ZAcc) (mxin rows : Nat) (a : Nat → Nat → Nat) (w : Nat → Nat → Nat) : ZAcc :=
  { el := Vector.ofFn fun k =>
      let i := k.val / 16
      let j := k.val % 16
      if i < rows then (upTo 16).foldl (fun e n => e.product mxin (a i n) (w n j)) z.el[k] else z.el[k]
    pend := z.pend || mxin != 1
    ptype := if mxin = 1 then z.ptype else mxin }

/-- Whether an element's residue agrees with its partial (R177). -/
def ZElem.checked (z : ZElem) : Bool := z.nan || (z.p.toInt % 63).toNat == z.res

/-- PROMOTE (R175). -/
def ZElem.promote (mxin : Nat) (z : ZElem) (sa sw : Nat) : ZElem :=
  let acc : Word :=
    if mxin = 0 then
      if z.nan then 0x7FC00000#32
      else
        let c := RCtx.full f32 .rne
        let s := f32.unpack (mul32 sa sw)
        let q : Nat := match s with
          | .nan => f32.nanBits
          | .inf n => if z.p = 0#56 then f32.nanBits else f32.infBits (n != z.p.msb)
          | s => (c.dyad ((Dyad.mk z.p.toInt (-18)).mul s.dyad)).1
        BitVec.ofNat 32 (add32 z.acc.toNat q)
    else z.acc + BitVec.ofInt 32 z.p.toInt
  ⟨0#56, acc, false, 0⟩

/-- MXP on an accumulator (R291); under BF16 it changes nothing. -/
def ZAcc.promote (z : ZAcc) (mxin : Nat) (vec : VReg) (sw : Word) : ZAcc :=
  if mxin = 1 then z
  else
    { el := Vector.ofFn fun k => (z.el[k]).promote mxin (lane vec (k.val / 16)).toNat sw.toNat
      pend := false
      ptype := z.ptype }

/-- MXZ on an accumulator (R292). -/
def ZAcc.load (z : ZAcc) (f : Nat → Nat) : ZAcc :=
  { el := Vector.ofFn fun k => ⟨0#56, BitVec.ofNat 32 (f k.val), false, 0⟩, pend := false, ptype := z.ptype }

/-- An element of an accumulator. -/
def ZAcc.accAt (z : ZAcc) (k : Nat) : Nat := ((z.el[k]?).map (·.acc.toNat)).getD 0

/-- An element of MXO's result (R293). -/
def mxoElem (mxo : Nat) (x : Nat) : Nat :=
  match mxo with
  | 1 => cvtBf16 x
  | 2 => cvtE4M3 x
  | _ => x

/-- MXQ's row maximum (R294). -/
def rowMax (mxin : Nat) (l : List Nat) : Nat :=
  if mxin = 2 then (l.map fun x => (sxt 32 x).natAbs).foldl Nat.max 0
  else if l.any fun x => (f32.unpack x).isNan then f32.nanBits
  else (l.map fun x => x % 2 ^ 31).foldl Nat.max 0

/-- An element of XPC's result (Table 13-4). -/
def xpcElem (code x : Nat) : Nat :=
  match code with
  | 0 => cvtBf16 x
  | 1 => cvtE4M3 x
  | 2 => widenBf16 x
  | 3 => widenE4M3 x
  | 4 => cvtE4M3 (widenBf16 x)
  | _ => cvtBf16 (widenE4M3 x)

/-- UPSGD on one element: w and m (Table 08-8). -/
def upsgdElem (hy : Nat → Nat) (w g m : Nat) : Nat × Nat :=
  let g1 := add32 g (mul32 (hy 2) w)
  let m := add32 (mul32 (hy 1) m) g1
  (add32 w (neg32 (mul32 (hy 0) m)), m)

/-- UPADM on one element: w, m and v (Table 08-8). -/
def upadmElem (hy : Nat → Nat) (w g m v : Nat) : Nat × Nat × Nat :=
  let m := add32 (mul32 (hy 1) m) (mul32 (hy 2) g)
  let v := add32 (mul32 (hy 3) v) (mul32 (hy 4) (mul32 g g))
  let d := add32 (sqrt32 v) (hy 5)
  let u := div32 (mul32 (hy 7) m) d
  (add32 w (neg32 (mul32 (hy 0) (add32 u (mul32 (hy 6) w)))), m, v)

/-- UPAXP on one element (Table 08-8). -/
def upaxpElem (hy : Nat → Nat) (y x : Nat) : Nat := fma32 (hy 0) x y

/-- SPORE (R299). -/
def spore (seed step stream row col : Word) : Word :=
  let key := seed ^^^ ((stream &&& 0xFF#32) <<< 24) ^^^ (step * 0x27D4EB2F#32)
  let x := (col ^^^ key) * 0x9E3779B1#32
  let x := x ^^^ (x >>> 16)
  let x := (x ^^^ row) * 0x85EBCA6B#32
  x ^^^ (x >>> 13)

/-- A random word's value for RNUNI: (x >> 8) · 2^-24, exact (R299). -/
def uniOf (x : Word) : Nat := ((RCtx.full f32 .rne).dyad ⟨(x >>> 8).toNat, -24⟩).1

/-- An element of a gradient or input, widened when it is BF16 (R298). -/
def widenIn (ew x : Nat) : Nat := if ew = 2 then widenBf16 x else x

/-- Occupancy of the resource, and completion, from firing (Table 13-5): `r` rows and `c` columns of the operand. -/
def engTiming (i : Instr) (fmt : Word) (r c : Nat) : Nat × Nat :=
  let bf := fmtMxin fmt == 1
  let e := ceilDiv (r * c) 16
  match i with
  | .mxw _ _ _ => (16, 16)
  | .mxf _ _ _ _ | .mxr _ _ _ _ => if bf then (2 * r, 2 * r + 18) else (r, r + 18)
  | .mxp _ _ _ _ _ => if bf then (1, 1) else (4, 8)
  | .mxz _ _ (some _) _ => (16, 18)
  | .mxz _ _ none _ => (1, 2)
  | .mxo _ _ _ _ => (r, r + 4)
  | .mxq _ _ _ _ => (4, 6)
  | .xpt _ _ _ _ => (r, r + 4)
  | .xpc _ _ _ _ _ => (r, r + 3)
  | .upaxp _ _ _ _ => (e, e + 4)
  | .upsgd _ _ _ _ _ => (2 * e, 2 * e + 6)
  | .upadm _ _ _ _ _ _ => (4 * e, 4 * e + 12)
  | _ => (e, e + 5)

/-- An engine of the tile. -/
def Engines.get (e : Engines) : Engine → Eng
  | .mx => e.mx
  | .xp => e.xp
  | .up => e.up
  | .rn => e.rn
  | .vx => ⟨[], []⟩

/-- Replaces an engine. -/
def Engines.set (e : Engines) (k : Engine) (x : Eng) : Engines :=
  match k with
  | .mx => { e with mx := x }
  | .xp => { e with xp := x }
  | .up => { e with up := x }
  | .rn => { e with rn := x }
  | .vx => e

/-- The engines that queue operations. -/
def queuedEngines : List Engine := [.mx, .xp, .up, .rn]

/-- Every queued operation of the tile. -/
def Tile.allQueued (t : Tile) : List EOp := queuedEngines.flatMap fun e => (t.eng.get e).queue

/-- Every fired operation of the tile. -/
def Tile.allFired (t : Tile) : List EFired := queuedEngines.flatMap fun e => (t.eng.get e).fired

/-- Whether an engine write goes to a tile register. -/
def EWrite.toReg (r : Nat) : EWrite → Bool
  | .tile x _ => x == r
  | .ring _ _ x _ => x == r
  | .acc _ _ => false

/-- Whether an LDT issued before `seq` has still to write a tile register. -/
def Tile.ldtPending (t : Tile) (seq r : Nat) : Bool :=
  (t.sch.flights.any fun f => decide (f.seq < seq) && f.writes.any fun w => match w with
    | .t x _ => x == r
    | _ => false)
  || t.pad.queue.any fun q => decide (q.seq < seq) && (match q.act with
    | .load _ _ (.tile _ _ _ d _) _ => d == r
    | _ => false)

/-- How many queued operations issued before `seq` name a ring as source, or as destination. -/
def Tile.ringAhead (t : Tile) (dst : Bool) (seq : Nat) (n : BitVec 3) : Nat :=
  (t.allQueued.filter fun o => decide (o.seq < seq) && (if dst then engWrites o.inst else engReads o.inst).elem (.ring n)).length

/-- The register that an operand of a queued operation is going to use: of a ring, the slot it comes to once those queued before
it have taken theirs (R286; entry 63). -/
def Tile.queuedReg (t : Tile) (dst : Bool) (seq : Nat) : TileRef → Nat
  | .tile r => r.toNat
  | .ring n =>
    let g := t.ring n.toNat
    g.regAt (((if dst then g.pptr else g.cptr) + t.ringAhead dst seq n) % (g.sizem1 + 1))

/-- Whether a queued operation issued before `seq` uses a tile register as a destination or as a source: by name, or, where
`rings` says so, through a ring. Uses through one ring are in the ring's own order (R286). -/
def Tile.queuedUse (t : Tile) (dst rings : Bool) (seq r : Nat) : Bool :=
  t.allQueued.any fun o => decide (o.seq < seq) && (if dst then engWrites o.inst else engReads o.inst).any fun x => (match x with
    | .tile _ => true
    | .ring _ => rings) && t.queuedReg dst o.seq x == r

/-- Whether a fired operation issued before `seq` has still to write a tile register. -/
def Tile.firedWrite (t : Tile) (seq r : Nat) : Bool :=
  t.allFired.any fun f => decide (f.op.seq < seq) && f.writes.any (EWrite.toReg r)

/-- Whether an engine operation issued before `seq` has still to write a tile register. -/
def Tile.engWritePending (t : Tile) (seq r : Nat) : Bool := t.queuedUse true true seq r || t.firedWrite seq r

/-- Whether an engine operation issued before `seq` has still to read a tile register. -/
def Tile.engReadPending (t : Tile) (seq r : Nat) : Bool := t.queuedUse false true seq r

/-- Whether an access to a register by an operand must wait for earlier operations that write it; one through a ring meets
those through rings in the ring's own order (R281, R286). -/
def Tile.waitsWrite (t : Tile) (seq : Nat) (x : TileRef) (r : Nat) : Bool :=
  match x with
  | .tile _ => t.engWritePending seq r
  | .ring _ => t.queuedUse true false seq r || t.firedWrite seq r

/-- The same for earlier operations that read it. -/
def Tile.waitsRead (t : Tile) (seq : Nat) (x : TileRef) (r : Nat) : Bool :=
  match x with
  | .tile _ => t.engReadPending seq r
  | .ring _ => t.queuedUse false false seq r

/-- The register an operand uses now: a source ring's slot at its consumer pointer, a destination's at its producer
pointer (R286). -/
def Tile.engReg (t : Tile) (dst : Bool) (x : TileRef) : Nat := t.refReg dst x

/-- The shape of an operand of an operation at firing: sampled at issue for a named register, the slot register's own for
a ring (R280, R286). -/
def EOp.shapeAt (o : EOp) (t : Tile) (dst : Bool) (x : TileRef) : Word :=
  match x with
  | .tile r => (o.tsh[r.toNat]?).getD 0#32
  | .ring _ => t.tshOf (t.engReg dst x)

/-- Whether the conditions of R281 hold for the operation at the head of its engine's queue. MXP, MXZ, MXO and MXQ wait until every
earlier operation on their accumulator has completed, one that only reads it too (R291 to R294). -/
def Tile.canFire (t : Tile) (e : Eng) (o : EOp) : Bool :=
  let c := t.sch.cycle
  let z := engAcc o.inst
  decide (o.issued < c)
    && (e.fired.all fun f => usesLoader f.op.inst != usesLoader o.inst || decide (f.busyTo ≤ c))
    && (match z with
      | some k =>
        e.fired.all fun f => !(f.op.seq < o.seq && (if streams o.inst then engAccDest f.op.inst else engAcc f.op.inst) == some k)
          || (streams o.inst && streams f.op.inst)
      | none => true)
    && (!streams o.inst || !t.eng.arr.loaded || decide (t.eng.arr.loadDone ≤ c))
    && ((engReads o.inst).all fun x =>
      (match x with
        | .ring n => (t.ring n.toNat).canTake
        | .tile _ => true)
      && !t.ldtPending o.seq (t.engReg false x) && !t.waitsWrite o.seq x (t.engReg false x))
    && ((engWrites o.inst).all fun x =>
      (match x with
        | .ring n => (t.ring n.toNat).canPut
        | .tile _ => true)
      && !t.ldtPending o.seq (t.engReg true x) && !t.waitsWrite o.seq x (t.engReg true x)
      && !t.waitsRead o.seq x (t.engReg true x))

/-- Removes a detector strike of an engine with a cause, when one waits to be found (R301). -/
def Engines.strike (e : Engines) (k : Engine) (c : Cause) : Option Engines :=
  if e.strikes.elem (k, c) then some { e with strikes := e.strikes.erase (k, c) } else none

/-- Whether an operation reads a tile register, a weight block or an accumulator, so that ENGECC can meet it. -/
def readsArray (i : Instr) : Bool :=
  !(engReads i).isEmpty || (match i with
    | .mxp _ _ _ _ _ | .mxo _ _ _ _ | .mxq _ _ _ _ => true
    | _ => false)

/-- What an operation finds at firing: a cause (R283, R288, R291 to R295, R301; `fit`: its operands have shapes it
accepts), with the strikes left. -/
def Tile.fireCause (t : Tile) (k : Engine) (o : EOp) (fit : Bool) : Option Cause × Engines :=
  let e := t.eng
  let mxin := fmtMxin o.fmt
  let z : Option ZAcc := (engAcc o.inst).bind fun n => e.arr.z[n]?
  let pend := (z.map (·.pend)).getD false
  let wrong := pend && (z.map (·.ptype)).getD 0 != mxin
  match (if readsArray o.inst then e.strike k .engecc else none) with
  | some e' => (some .engecc, e')
  | none =>
    if k = .mx ∧ e.arr.failed then (some .mxspare, e)
    else if !fit then (some .opfmt, e)
    else
      match o.inst with
      | .mxf _ _ _ _ | .mxr _ _ _ _ => (if !e.arr.wvalid || wrong then some .mxstate else none, e)
      | .mxp _ _ _ _ _ =>
        if !e.arr.wvalid || wrong then (some .mxstate, e)
        else if mxin = 1 then (none, e)
        else
          (match e.strike .mx .mxres with
            | some e' => (some .mxres, e')
            | none =>
              (if (z.map fun a => a.el.toList.all ZElem.checked).getD true then none else some .mxres, e))
      | .mxo _ _ _ _ | .mxq _ _ _ _ => (if pend then some .mxstate else none, e)
      | _ => (none, e)

/-- The images an operation writes to its destinations, in the order of engWrites: `src` gives the bytes of a source,
`sh` the shape of an operand, `z` its accumulator. -/
def engImages (o : EOp) (src : TileRef → List Byte) (sd : TileRef → Shape) (z : ZAcc) : List (List Byte) :=
  let hy (k : Nat) : Nat := ((o.hy[k]?).getD 0#32).toNat
  let rn (k : Nat) : Word := o.rn.getD k 0#32
  let mxin := fmtMxin o.fmt
  match o.inst with
  | .mxo _ d _ _ => let s := sd d; [imageOf s.ew (16 * s.rows) fun k => mxoElem (fmtMxo o.fmt) (z.accAt k)]
  | .mxq _ d _ _ =>
    [imageOf 4 (sd d).rows fun i => rowMax mxin ((upTo 16).map fun j => z.accAt (16 * i + j))]
  | .xpt _ _ x _ =>
    let s := sd x
    [imageOf s.ew (s.rows * s.cols) fun k => elemAt (src x) s.ew (k % s.rows * s.cols + k / s.rows)]
  | .xpc _ d x code _ =>
    let s := sd x
    [imageOf (sd d).ew (s.rows * s.cols) fun k => xpcElem code.toNat (elemAt (src x) s.ew k)]
  | .upadm _ w g m v _ =>
    let s := sd (.tile w)
    let r (k : Nat) := upadmElem hy (elemAt (src (.tile w)) 4 k)
      (widenIn (sd (.tile g)).ew (elemAt (src (.tile g)) (sd (.tile g)).ew k)) (elemAt (src (.tile m)) 4 k)
      (elemAt (src (.tile v)) 4 k)
    let n := s.rows * s.cols
    [imageOf 4 n fun k => (r k).1, imageOf 4 n fun k => (r k).2.1, imageOf 4 n fun k => (r k).2.2]
  | .upsgd _ w g m _ =>
    let s := sd (.tile w)
    let r (k : Nat) := upsgdElem hy (elemAt (src (.tile w)) 4 k)
      (widenIn (sd (.tile g)).ew (elemAt (src (.tile g)) (sd (.tile g)).ew k)) (elemAt (src (.tile m)) 4 k)
    let n := s.rows * s.cols
    [imageOf 4 n fun k => (r k).1, imageOf 4 n fun k => (r k).2]
  | .upaxp _ y x _ =>
    let s := sd (.tile y)
    [imageOf 4 (s.rows * s.cols) fun k => upaxpElem hy (elemAt (src (.tile y)) 4 k)
      (widenIn (sd (.tile x)).ew (elemAt (src (.tile x)) (sd (.tile x)).ew k))]
  | .rnmask _ d _ _ _ =>
    let s := sd d
    [imageOf s.ew (s.rows * s.cols) fun k =>
      let x := spore (rn 0) (rn 1) (rn 2) (o.sc0 + BitVec.ofNat 32 (k / s.cols)) (o.sc1 + BitVec.ofNat 32 (k % s.cols))
      if (x >>> 16).toNat < (rn 3).toNat then 2 ^ (8 * s.ew) - 1 else 0]
  | .rnuni _ d _ _ _ =>
    let s := sd d
    [imageOf 4 (s.rows * s.cols) fun k =>
      uniOf (spore (rn 0) (rn 1) (rn 2) (o.sc0 + BitVec.ofNat 32 (k / s.cols)) (o.sc1 + BitVec.ofNat 32 (k % s.cols)))]
  | _ => []

/-- What an operation does to the array at firing: MXW loads the shadow block; MXF and MXR take it as the active block
and accumulate (R289, R290). -/
def Mx.fire (a : Mx) (o : EOp) (cycle : Nat) (src : TileRef → List Byte) (rows : Nat) : Mx :=
  let ew := inBytes o.fmt
  match o.inst with
  | .mxw _ x _ =>
    { a with
      shadow := Vector.ofFn fun k => BitVec.ofNat 16 (elemAt (src x) ew k.val)
      wvalid := true, loaded := true, loadDone := cycle + 16 }
  | .mxf _ z x _ =>
    let act := if a.loaded then a.shadow else a.active
    { a with
      active := act, loaded := false
      z := Vector.ofFn fun k => if k.val = z.toNat then
          (a.z[k]).accumulate (fmtMxin o.fmt) rows (fun i n => elemAt (src x) ew (16 * i + n))
            (fun n j => ((act[16 * n + j]?).getD 0#16).toNat)
        else a.z[k] }
  | .mxr _ z x _ =>
    let act := if a.loaded then a.shadow else a.active
    { a with
      active := act, loaded := false
      z := Vector.ofFn fun k => if k.val = z.toNat then
          (a.z[k]).accumulate (fmtMxin o.fmt) rows (fun i n => elemAt (src x) ew (16 * i + n))
            (fun n j => ((act[16 * j + n]?).getD 0#16).toNat)
        else a.z[k] }
  | _ => a

/-- The accumulator an operation writes when it completes. -/
def engAccWrite (o : EOp) (src : TileRef → List Byte) (z : ZAcc) : List EWrite :=
  match o.inst with
  | .mxp _ n _ _ _ => [.acc n.toNat (z.promote (fmtMxin o.fmt) o.vec o.sc0)]
  | .mxz _ n (some x) _ => [.acc n.toNat (z.load fun k => elemAt (src x) 4 k)]
  | .mxz _ n none _ => [.acc n.toNat (z.load fun _ => 0)]
  | _ => []

/-- The operand whose rows and columns set the timing. -/
def timingRef (i : Instr) : Option TileRef :=
  match engReads i, engWrites i with
  | x :: _, _ => some x
  | [], y :: _ => some y
  | [], [] => none

/-- Takes the slots of an operation's source rings (R286). -/
def Tile.takeSources (t : Tile) (l : List TileRef) : Tile :=
  l.foldl (fun (t : Tile) x => match x with
    | .ring n => t.withRing n.toNat Ring.take
    | .tile _ => t) t

/-- Reserves the slots of an operation's destination rings (R286). -/
def Tile.reserveDests (t : Tile) (l : List TileRef) : Tile :=
  l.foldl (fun (t : Tile) x => match x with
    | .ring n => t.withRing n.toNat Ring.reserve
    | .tile _ => t) t

/-- The write of an image to a destination. -/
def Tile.engDest (t : Tile) (x : TileRef) (bytes : List Byte) : EWrite :=
  match x with
  | .tile r => .tile r.toNat bytes
  | .ring n => .ring n.toNat ((t.ring n.toNat).pptr % ((t.ring n.toNat).sizem1 + 1)) (t.engReg true x) bytes

/-- INFO's engine code (Table 16-3). -/
def engCode : Engine → Nat
  | .mx => 1
  | .xp => 2
  | .up => 3
  | .rn => 4
  | .vx => 5

/-- An engine operation's fault: its tag is left faulted, its cause waits for a boundary with the engine, the slot word
and the slot address, unless an abort has discarded it (R283, R316). -/
def Tile.engFault (t : Tile) (k : Engine) (o : EOp) (c : Cause) (tagHeld dropped : Bool) : Tile :=
  if dropped then (if tagHeld then t.setTag o.tag.toNat .free else t).detect c
  else
    let t := if tagHeld then t.setTag o.tag.toNat .faulted else t
    t.raise c (some o.seq) (2 + engCode k) (BitVec.ofNat 64 o.info.addr) (engInfo (engCode k) o.info)

/-- The head of an engine's queue fires (R281 to R283, R286): sources are read and their slots freed, destination slots
reserved, and the operation computes, or faults and writes nothing. DESIGN CHOICE: an operation that faults holds its resource for
one cycle (entry 83). -/
def Tile.fireEngine (t : Tile) (k : Engine) : Tile :=
  let e := t.eng.get k
  match e.queue with
  | [] => t
  | o :: l =>
    if !t.canFire e o then t
    else
      let c := t.sch.cycle
      let sw (dst : Bool) (x : TileRef) : Word := o.shapeAt t dst x
      let shapeR (x : TileRef) : Shape := shapeOf (sw false x)
      let isDst (x : TileRef) : Bool := (engWrites o.inst).elem x && !(engReads o.inst).elem x
      let sd (x : TileRef) : Shape := shapeOf (sw (isDst x) x)
      let src (x : TileRef) : List Byte := t.files.getT (t.engReg false x) ((shapeR x).rows * (shapeR x).rowBytes)
      let fit := (engReads o.inst ++ engWrites o.inst).all (fun x => shapeValid (sw (isDst x) x))
        && formOk o.inst o.fmt fun x => some (sd x)
      let f := t.fireCause k o fit
      let z := ((engAcc o.inst).bind fun n => t.eng.arr.z[n]?).getD ZAcc.zero
      let slots := (engWrites o.inst).filterMap fun x => match t.engDest x [] with
        | .ring n s _ _ => some (n, s)
        | _ => none
      let dests := (engWrites o.inst).zip (engImages o src sd z)
      let u := { t with eng := f.2 }
      let u := (u.takeSources (engReads o.inst)).reserveDests (engWrites o.inst)
      match f.1 with
      | some cause =>
        let u := slots.foldl (fun (u : Tile) s => u.landSlot (some s)) u
        let u := u.withEng fun g => g.set k ⟨l, (g.get k).fired ++
          [⟨o, c, c + 1, c + 1, c + 1, [], [], some cause, false⟩]⟩
        u.engFault k o cause true false
      | none =>
        let dim := match timingRef o.inst with
          | some x => sd x
          | none => ⟨0, 0, 0⟩
        let tm := engTiming o.inst o.fmt dim.rows dim.cols
        let fired : EFired := ⟨o, c, c + tm.1, c + tm.2, if streams o.inst then c else c + tm.2,
          dests.map (fun x => t.engDest x.1 x.2) ++ engAccWrite o src z, (engAcc o.inst).toList, none, false⟩
        let u := u.withEng fun g => { g.set k ⟨l, (g.get k).fired ++ [fired]⟩ with
          arr := g.arr.fire o c src dim.rows }
        if streams o.inst then u.setTag o.tag.toNat .free else u

/-- Whether the tile's engines fire: not those of a tile that stands still, nor of one that has halted (R331, R337). -/
def Tile.fires (t : Tile) : Bool := !t.frozen && t.sch.status != .halted

/-- Whether the head of an engine's queue may fire now. -/
def Tile.fireDue (t : Tile) (k : Engine) : Bool :=
  t.fires && (match (t.eng.get k).queue with
    | o :: _ => t.canFire (t.eng.get k) o
    | [] => false)

/-- The fired operation of an engine that completes next, if its cycle has come. -/
def Tile.nextDone (t : Tile) (k : Engine) : Option EFired :=
  (t.eng.get k).fired.foldl (fun m f =>
    if f.done ≤ t.sch.cycle then
      (match m with
        | none => some f
        | some g => if f.done < g.done then some f else some g)
    else m) none

/-- One destination of a completed operation is written whole (R282). -/
def Tile.landEngine (t : Tile) (w : EWrite) : Tile :=
  match w with
  | .tile r b => { t with files := t.files.put (.t r b) }
  | .ring n s r b => ({ t with files := t.files.put (.t r b) }).landSlot (some (n, s))
  | .acc n z => t.withEng fun e => { e with arr := { e.arr with z := e.arr.z.setIfInBounds n z } }

/-- The ring slot a write would fill. -/
def EWrite.slot : EWrite → Option (Nat × Nat)
  | .ring n s _ _ => some (n, s)
  | _ => none

/-- The cause a unit's duplicated datapaths report at completion (Table 13-6). -/
def lateCause : Engine → Option Cause
  | .xp => some .xperr
  | .up => some .uperr
  | .rn => some .rnerr
  | _ => none

/-- An engine operation completes: every destination is written in one cycle and its tag released, or the unit's mismatch
leaves them unwritten (R282, R283, R300, R301). -/
def Tile.completeEngine (t : Tile) (k : Engine) : Tile :=
  match t.nextDone k with
  | none => t
  | some f =>
    let t := t.withEng fun e => e.set k { e.get k with fired := (e.get k).fired.erase f }
    if f.fault.isSome then t
    else
      let strike := (lateCause k).bind fun c => (t.eng.strike k c).map fun e => (c, e)
      match strike with
      | some (c, e) =>
        let t := f.writes.foldl (fun (t : Tile) w => t.landSlot w.slot) { t with eng := e }
        t.engFault k f.op c (!streams f.op.inst) f.dropped
      | none =>
        let t := f.writes.foldl Tile.landEngine t
        if streams f.op.inst then t else t.setTag f.op.tag.toNat .free

end Sys2Proof.Machine
end

