-- ==== Sys2Proof/Machine/LUnit.lean ====
section
/-! DEFINITION. The L class: scratchpad loads and stores, gathers, tile images, spills, bank atomics, barrier objects,
full/empty instructions, bulk accesses, address arithmetic (R235 to R258). -/

namespace Sys2Proof.Machine

/-- EA of an LM or LB slot: aB plus the scaled offset (R235). -/
def eaOf (r : Tile) (k : Nat) (bs : BitVec 4) (o : Imm 5 32) : Nat := (r.ra bs + immScaled k o).toNat

/-- A load: checks of Table 11-1, then port A (R236, R239). -/
def semLoad (kind : AKind) (size lat : Nat) (plan : Tile → Nat → LoadPlan) (bs : BitVec 4) (o : Imm 5 32) (q : BitVec 2)
    (tag : BitVec 3) : SlotInfo → Sem := fun info =>
  { check := fun t =>
      let a := eaOf t size bs o
      let l := [itemOf a size]
      Check.all [t.needTag tag (BitVec.ofNat 64 a), accessCheck t kind size .spalign (q != 0#2) l, loadQual t q l]
    eff := fun r t =>
      let a := eaOf r size bs o
      (t.allocTag tag).portA t.sch.seq (.load tag lat (plan r a) (loadTakes q [itemOf a size])) 0 info }

/-- A scalar load (Table 11-2). -/
def semLd (kind : AKind) (size : Nat) (sg : Bool) (d : BitVec 5) : BitVec 4 → Imm 5 32 → BitVec 2 → BitVec 3 → SlotInfo → Sem :=
  semLoad kind size 4 fun r a => .scalar a size sg (rotS r.ctl.rrb d)

/-- The copies of a channel that have not completed, with the starts still queued (R255). -/
def Tile.copiesOpen (t : Tile) (ch : Nat) : Nat :=
  (((t.copy.ch[ch]?).map fun c => (c.jobs.filter fun j => !j.complete).length).getD 0)
    + (t.pad.queue.filter fun q => match q.act with
      | .start c _ _ => c == ch
      | _ => false).length

/-- Whether a copy channel is halted. -/
def Tile.chHalted (t : Tile) (ch : Nat) : Bool := ((t.copy.ch[ch]?).map (·.halted.isSome)).getD false

/-- The checks of a copy start store: index, halt, room in an open block, the channel's 16 copies (R46, R255, R314). -/
def startCheck (t : Tile) (a : Nat) (v : Word) : Check :=
  let ch := (a - 0x50000) / 8
  let fa := BitVec.ofNat 64 a
  Check.all
    [need (decide (v.toNat < 64)) .templerr fa,
     need (!t.chHalted ch) .cestall fa,
     need (t.roomFor 32) .cbfull fa,
     waitFor (decide (t.copiesOpen ch < 16)) (mkStall .plain)]

/-- A store of the low `size` bytes of sS: it reads its data at issue and enters the store queue (R238). -/
def semSt (kind : AKind) (size : Nat) (sr : BitVec 5) (bs : BitVec 4) (o : Imm 5 32) (q : BitVec 2) : SlotInfo → Sem :=
  fun info =>
  { check := fun t =>
      let a := eaOf t size bs o
      let l := [itemOf a size]
      Check.all [accessCheck t kind size .spalign (q != 0#2) l,
        if rangeOf a = .aperture then startCheck t a (t.rs sr) else storeQual t q l]
    eff := fun r t =>
      let a := eaOf r size bs o
      t.portA t.sch.seq
        (if rangeOf a = .aperture then .start ((a - 0x50000) / 8) (r.rs sr).toNat (!r.blocks.isEmpty)
         else .store (runCells a (valBytes size (r.rs sr).toNat)) (storeFills q [itemOf a size])) 0 info }

/-- LDB (Table 11-2). -/
def execLdb (h : Hdr) (sr : BitVec 5) (bs : BitVec 4) (o : Imm 5 32) (q : BitVec 2) (t : BitVec 3) (s : State) :
    Host.Outcome State Fault Refusal :=
  runSlot (.ldb h sr bs o q t) h (semLd .load 1 true sr bs o q t) s

/-- LDBU (Table 11-2). -/
def execLdbu (h : Hdr) (sr : BitVec 5) (bs : BitVec 4) (o : Imm 5 32) (q : BitVec 2) (t : BitVec 3) (s : State) :
    Host.Outcome State Fault Refusal :=
  runSlot (.ldbu h sr bs o q t) h (semLd .load 1 false sr bs o q t) s

/-- LDH (Table 11-2). -/
def execLdh (h : Hdr) (sr : BitVec 5) (bs : BitVec 4) (o : Imm 5 32) (q : BitVec 2) (t : BitVec 3) (s : State) :
    Host.Outcome State Fault Refusal :=
  runSlot (.ldh h sr bs o q t) h (semLd .load 2 true sr bs o q t) s

/-- LDHU (Table 11-2). -/
def execLdhu (h : Hdr) (sr : BitVec 5) (bs : BitVec 4) (o : Imm 5 32) (q : BitVec 2) (t : BitVec 3) (s : State) :
    Host.Outcome State Fault Refusal :=
  runSlot (.ldhu h sr bs o q t) h (semLd .load 2 false sr bs o q t) s

/-- LDW, which also reads the copy aperture (Table 11-2, R46). -/
def execLdw (h : Hdr) (sr : BitVec 5) (bs : BitVec 4) (o : Imm 5 32) (q : BitVec 2) (t : BitVec 3) (s : State) :
    Host.Outcome State Fault Refusal :=
  runSlot (.ldw h sr bs o q t) h (semLd .loadW 4 false sr bs o q t) s

/-- STB (Table 11-2). -/
def execStb (h : Hdr) (sr : BitVec 5) (bs : BitVec 4) (o : Imm 5 32) (q : BitVec 2) (s : State) :
    Host.Outcome State Fault Refusal :=
  runSlot (.stb h sr bs o q) h (semSt .store 1 sr bs o q) s

/-- STH (Table 11-2). -/
def execSth (h : Hdr) (sr : BitVec 5) (bs : BitVec 4) (o : Imm 5 32) (q : BitVec 2) (s : State) :
    Host.Outcome State Fault Refusal :=
  runSlot (.sth h sr bs o q) h (semSt .store 2 sr bs o q) s

/-- STW, which starts a copy at the aperture (Table 11-2, R255). -/
def execStw (h : Hdr) (sr : BitVec 5) (bs : BitVec 4) (o : Imm 5 32) (q : BitVec 2) (s : State) :
    Host.Outcome State Fault Refusal :=
  runSlot (.stw h sr bs o q) h (semSt .storeW 4 sr bs o q) s

/-- LDV (Table 11-2). -/
def execLdv (h : Hdr) (sr : BitVec 5) (bs : BitVec 4) (o : Imm 5 32) (q : BitVec 2) (t : BitVec 3) (s : State) :
    Host.Outcome State Fault Refusal :=
  runSlot (.ldv h sr bs o q t) h (semLoad .load 64 5 (fun r a => .vec a (rotV r.ctl.rrb sr.toNat)) bs o q t) s

/-- LDVB: 32 BF16 elements widened into a pair of registers (R239). -/
def execLdvb (h : Hdr) (sr : BitVec 5) (bs : BitVec 4) (o : Imm 5 32) (q : BitVec 2) (t : BitVec 3) (s : State) :
    Host.Outcome State Fault Refusal :=
  runSlot (.ldvb h sr bs o q t) h
    (semLoad .load 64 5 (fun r a => .vecB a (rotV r.ctl.rrb sr.toNat) (rotV r.ctl.rrb (sr.toNat + 1))) bs o q t) s

/-- The bytes of a v register, lane by lane. -/
def vBytes (v : VReg) : List Byte := v.toList.flatMap wordBytes

/-- STV (Table 11-2). -/
def execStv (h : Hdr) (sr : BitVec 5) (bs : BitVec 4) (o : Imm 5 32) (q : BitVec 2) (s : State) :
    Host.Outcome State Fault Refusal :=
  runSlot (.stv h sr bs o q) h
    (fun info =>
      { check := fun t =>
          let l := [itemOf (eaOf t 64 bs o) 64]
          Check.all [accessCheck t .store 64 .spalign (q != 0#2) l, storeQual t q l]
        eff := fun r t =>
          let a := eaOf r 64 bs o
          t.portA t.sch.seq (.store (runCells a (vBytes (r.rv sr.toNat))) (storeFills q [itemOf a 64])) 0 info }) s

/-- The active lanes of a gather or scatter with their addresses (R240). -/
def gatherLanes (r : Tile) (bs : BitVec 4) (o : BitVec 5) : List (Nat × Nat) :=
  (upTo 16).filterMap fun i =>
    let w := lane (r.rv o.toNat) i
    if w.getLsbD 31 then none else some (i, (r.ra bs + w).toNat)

/-- The items of a gather or scatter, one for each active lane. -/
def gatherItems (l : List (Nat × Nat)) : List Item := l.map fun p => itemOf p.2 4

/-- The address of the lowest active lane, which a gather's first byte is (R236). -/
def firstLane (l : List (Nat × Nat)) : DWord := BitVec.ofNat 64 ((l.headD (0, 0)).2)

/-- Bank cycles of a gather: the most distinct lines any bank serves, at least one (R34). -/
def gatherCycles (l : List (Nat × Nat)) : Nat :=
  (upTo 16).foldl (fun m b =>
    Nat.max m (NatSet.addAll [] ((l.filter fun p => p.2 / 4 % 16 == b).map fun p => p.2 / 64)).length) 1

/-- LDVG (R240). -/
def execLdvg (h : Hdr) (sr : BitVec 5) (bs : BitVec 4) (o : BitVec 5) (q : BitVec 2) (t : BitVec 3) (s : State) :
    Host.Outcome State Fault Refusal :=
  runSlot (.ldvg h sr bs o q t) h
    (fun info =>
      { check := fun r =>
          let g := gatherLanes r bs o
          let l := gatherItems g
          Check.all [r.needTag t (firstLane g), accessCheck r .wideLoad 4 .spalign (q != 0#2) l, loadQual r q l]
        eff := fun r u =>
          let l := gatherLanes r bs o
          (u.allocTag t).portA u.sch.seq
            (.load t (5 + gatherCycles l - 1) (.gather l (rotV r.ctl.rrb sr.toNat)) (loadTakes q (gatherItems l))) 0 info }) s

/-- STVG: of lanes that name one word the highest wins (R34, R240). -/
def execStvg (h : Hdr) (sr : BitVec 5) (bs : BitVec 4) (o : BitVec 5) (q : BitVec 2) (s : State) :
    Host.Outcome State Fault Refusal :=
  runSlot (.stvg h sr bs o q) h
    (fun info =>
      { check := fun r =>
          let l := gatherItems (gatherLanes r bs o)
          Check.all [accessCheck r .wideStore 4 .spalign (q != 0#2) l, storeQual r q l]
        eff := fun r u =>
          let l := gatherLanes r bs o
          u.portA u.sch.seq
            (.store (l.flatMap fun p => runCells p.2 (wordBytes (lane (r.rv sr.toNat) p.1))) (storeFills q (gatherItems l)))
            0 info }) s

/-- EA of an LT slot (R241). -/
def eaLt (r : Tile) (bs : BitVec 4) (o : Imm 4 32) : Nat := (r.ra bs + immLt o).toNat

/-- Check 2 of Table 11-1: ring declared, shape valid, column order's row bytes (R36); each names the image's first byte
(R236). -/
def tileCheck (t : Tile) (load : Bool) (ref : TileRef) (col : Bool) (a : Nat) : Check :=
  let w := t.tshOf (t.refReg load ref)
  let fa := BitVec.ofNat 64 a
  Check.all
    [need (t.refDefd ref) .ringerr fa, need (shapeValid w) .tshape fa,
     need (!col || (shapeOf w).rowBytes == 64 || (shapeOf w).rowBytes == 128) .opfmt fa]

/-- The item of a tile image: its base and every byte of it (R35). -/
def imageItem (a : Nat) (w : Word) (col : Bool) : Item := ⟨a, imageAddrs a (shapeOf w) col⟩

/-- LDT (R241, R242); it waits for earlier engine operations that have still to read or write its register (R282). -/
def execLdt (h : Hdr) (ref : TileRef) (bs : BitVec 4) (o : Imm 4 32) (col : Bool) (q : BitVec 2) (t : BitVec 3) (s : State) :
    Host.Outcome State Fault Refusal :=
  runSlot (.ldt h ref bs o col q t) h
    (fun info =>
      { check := fun r =>
          let l := [imageItem (eaLt r bs o) (r.tshOf (r.refReg true ref)) col]
          Check.all
            [r.needTag t (BitVec.ofNat 64 (eaLt r bs o)), tileCheck r true ref col (eaLt r bs o), accessCheck r .wideLoad 64 .spalign (q != 0#2) l,
             loadQual r q l,
             waitFor (!r.waitsRead r.sch.seq ref (r.refReg true ref) && !r.waitsWrite r.sch.seq ref (r.refReg true ref))
               (mkStall .plain),
             match ref with
             | .ring n => waitFor (r.ring n.toNat).canPut (mkStall .plain)
             | .tile _ => .ok]
        eff := fun r u =>
          let reg := r.refReg true ref
          let sh := shapeOf (r.tshOf reg)
          let a := eaLt r bs o
          let u := u.allocTag t
          let slot : Option (Nat × Nat) := match ref with
            | .ring n => some (n.toNat, (r.ring n.toNat).pptr % ((r.ring n.toNat).sizem1 + 1))
            | .tile _ => none
          let u := match ref with
            | .ring n => u.withRing n.toNat Ring.reserve
            | .tile _ => u
          u.portA u.sch.seq
            (.load t (8 + sh.rows) (.tile a sh col reg slot) (loadTakes q [imageItem a (r.tshOf reg) col])) 0 info }) s

/-- STT (R241, R242). -/
def execStt (h : Hdr) (ref : TileRef) (bs : BitVec 4) (o : Imm 4 32) (col : Bool) (q : BitVec 2) (s : State) :
    Host.Outcome State Fault Refusal :=
  runSlot (.stt h ref bs o col q) h
    (fun info =>
      { check := fun r =>
          let l := [imageItem (eaLt r bs o) (r.tshOf (r.refReg false ref)) col]
          Check.all
            [tileCheck r false ref col (eaLt r bs o), accessCheck r .wideStore 64 .spalign (q != 0#2) l,
             storeQual r q l,
             match ref with
             | .ring n => waitFor (r.ring n.toNat).canTake (mkStall .plain)
             | .tile _ => .ok]
        eff := fun r u =>
          let reg := r.refReg false ref
          let w := r.tshOf reg
          let sh := shapeOf w
          let a := eaLt r bs o
          let u := match ref with
            | .ring n => u.withRing n.toNat Ring.take
            | .tile _ => u
          u.portA u.sch.seq
            (.store ((imageAddrs a sh col).zip (r.files.getT reg (sh.rows * sh.rowBytes)))
              (storeFills q [imageItem a w col])) 0 info }) s

/-- The element size of a register file (R243). -/
def fileSize (c : BitVec 2) : Nat := if c = 1#2 then 64 else 4

/-- The physical registers of a list (R243). -/
def listRegs (r : Tile) (f : BitVec 5) (n : BitVec 4) (c : BitVec 2) : List Nat :=
  (upTo (n.toNat + 1)).map fun i =>
    match c.toNat with
    | 0 => rotate r.ctl.rrb 16 16 (f.toNat + i)
    | 1 => rotV r.ctl.rrb (f.toNat + i)
    | 2 => f.toNat + i
    | _ => rotate r.ctl.rrb 4 4 (f.toNat + i)

/-- The transfer order: list order, but a FILL moves its own base register last (R245). -/
def fillOrder (fill : Bool) (f : BitVec 5) (n : BitVec 4) (c : BitVec 2) (bs : BitVec 4) : List Nat :=
  let l := upTo (n.toNat + 1)
  if fill && c == 2#2 then l.filter (fun i => f.toNat + i != bs.toNat) ++ l.filter fun i => f.toNat + i == bs.toNat
  else l

/-- Whether any element of a list reaches bulk memory (R244). -/
def listBulk (r : Tile) (ea size n : Nat) : Bool := (upTo n).any fun i => (r.ctl.spillBulk (ea + size * i) size).isSome

/-- SPILL and FILL (R243 to R245): the checks at issue; then, from its place in port A's order on (R31, R108), element by element.
-/
def semList (fill : Bool) (f : BitVec 5) (bs n : BitVec 4) (c : BitVec 2) (tag : BitVec 3) : SlotInfo → Sem := fun info =>
  { check := fun r =>
      let ea := (r.ra bs).toNat
      let fa := BitVec.ofNat 64 ea
      Check.all
        [r.needTag tag fa, need (ea % fileSize c == 0) .spalign fa, need (decide (r.ctl.carveBase ≤ ea)) .carve fa,
         need (!(listBulk r ea (fileSize c) (n.toNat + 1) && r.ctl.ovf == 0)) .spillov fa]
    eff := fun r t =>
      let l : ListOp := ⟨t.sch.seq, fill, tag, (r.ra bs).toNat, fileSize c, c.toNat, listRegs r f n c, fillOrder fill f n c bs, 0,
        [], none, false, false, info⟩
      let t := t.allocTag tag
      { t with lists := t.lists ++ [{ l with data := l.sources r.files }] }.portA t.sch.seq .list 0 info }

/-- SPILL (R243). -/
def execSpill (h : Hdr) (f : BitVec 5) (bs n : BitVec 4) (c : BitVec 2) (t : BitVec 3) (s : State) :
    Host.Outcome State Fault Refusal :=
  runSlot (.spill h f bs n c t) h (semList false f bs n c t) s

/-- FILL (R243). -/
def execFill (h : Hdr) (f : BitVec 5) (bs n : BitVec 4) (c : BitVec 2) (t : BitVec 3) (s : State) :
    Host.Outcome State Fault Refusal :=
  runSlot (.fill h f bs n c t) h (semList true f bs n c t) s

/-- A bank atomic (R246). -/
def semAtom (op : AtomOp) (d : BitVec 5) (bs : BitVec 4) (a : BitVec 5) (o : Imm 2 30) (tag : BitVec 3) : SlotInfo → Sem :=
  fun info =>
  { check := fun r =>
      let a := (r.ra bs + immLa o).toNat
      Check.all [r.needTag tag (BitVec.ofNat 64 a), accessCheck r .eval 4 .spalign false [itemOf a 4]]
    eff := fun r t =>
      (t.allocTag tag).portA t.sch.seq
        (.atom tag op (r.ra bs + immLa o).toNat (r.rs a) (r.rs d) (rotS r.ctl.rrb d)) 0 info }

/-- AADD (Table 02-7). -/
def execAadd (h : Hdr) (d : BitVec 5) (bs : BitVec 4) (a : BitVec 5) (o : Imm 2 30) (t : BitVec 3) (s : State) :
    Host.Outcome State Fault Refusal :=
  runSlot (.aadd h d bs a o t) h (semAtom .add d bs a o t) s

/-- AAND (Table 02-7). -/
def execAand (h : Hdr) (d : BitVec 5) (bs : BitVec 4) (a : BitVec 5) (o : Imm 2 30) (t : BitVec 3) (s : State) :
    Host.Outcome State Fault Refusal :=
  runSlot (.aand h d bs a o t) h (semAtom .and d bs a o t) s

/-- AOR (Table 02-7). -/
def execAor (h : Hdr) (d : BitVec 5) (bs : BitVec 4) (a : BitVec 5) (o : Imm 2 30) (t : BitVec 3) (s : State) :
    Host.Outcome State Fault Refusal :=
  runSlot (.aor h d bs a o t) h (semAtom .or d bs a o t) s

/-- AXOR (Table 02-7). -/
def execAxor (h : Hdr) (d : BitVec 5) (bs : BitVec 4) (a : BitVec 5) (o : Imm 2 30) (t : BitVec 3) (s : State) :
    Host.Outcome State Fault Refusal :=
  runSlot (.axor h d bs a o t) h (semAtom .xor d bs a o t) s

/-- AMIN (Table 02-7). -/
def execAmin (h : Hdr) (d : BitVec 5) (bs : BitVec 4) (a : BitVec 5) (o : Imm 2 30) (t : BitVec 3) (s : State) :
    Host.Outcome State Fault Refusal :=
  runSlot (.amin h d bs a o t) h (semAtom .min d bs a o t) s

/-- AMAX (Table 02-7). -/
def execAmax (h : Hdr) (d : BitVec 5) (bs : BitVec 4) (a : BitVec 5) (o : Imm 2 30) (t : BitVec 3) (s : State) :
    Host.Outcome State Fault Refusal :=
  runSlot (.amax h d bs a o t) h (semAtom .max d bs a o t) s

/-- AMINU (Table 02-7). -/
def execAminu (h : Hdr) (d : BitVec 5) (bs : BitVec 4) (a : BitVec 5) (o : Imm 2 30) (t : BitVec 3) (s : State) :
    Host.Outcome State Fault Refusal :=
  runSlot (.aminu h d bs a o t) h (semAtom .minu d bs a o t) s

/-- AMAXU (Table 02-7). -/
def execAmaxu (h : Hdr) (d : BitVec 5) (bs : BitVec 4) (a : BitVec 5) (o : Imm 2 30) (t : BitVec 3) (s : State) :
    Host.Outcome State Fault Refusal :=
  runSlot (.amaxu h d bs a o t) h (semAtom .maxu d bs a o t) s

/-- AFADD (Table 02-7). -/
def execAfadd (h : Hdr) (d : BitVec 5) (bs : BitVec 4) (a : BitVec 5) (o : Imm 2 30) (t : BitVec 3) (s : State) :
    Host.Outcome State Fault Refusal :=
  runSlot (.afadd h d bs a o t) h (semAtom .fadd d bs a o t) s

/-- ASWAP (Table 02-7). -/
def execAswap (h : Hdr) (d : BitVec 5) (bs : BitVec 4) (a : BitVec 5) (o : Imm 2 30) (t : BitVec 3) (s : State) :
    Host.Outcome State Fault Refusal :=
  runSlot (.aswap h d bs a o t) h (semAtom .swap d bs a o t) s

/-- ACAS (Table 02-7). -/
def execAcas (h : Hdr) (d : BitVec 5) (bs : BitVec 4) (a : BitVec 5) (o : Imm 2 30) (t : BitVec 3) (s : State) :
    Host.Outcome State Fault Refusal :=
  runSlot (.acas h d bs a o t) h (semAtom .cas d bs a o t) s

/-- A barrier instruction: its checks, an operand check of its own, and its evaluation `delay` cycles after issue (R247). -/
def semBar (bs : BitVec 4) (o : Imm 5 32) (tag : BitVec 3) (ok : Tile → Bool) (delay : Nat) (act : Tile → Nat → PortAct) :
    SlotInfo → Sem := fun info =>
  { check := fun r =>
      let a := eaOf r 16 bs o
      Check.all [r.needTag tag (BitVec.ofNat 64 a), accessCheck r .eval 16 .baraln false [itemOf a 16],
        need (ok r) .atomop (BitVec.ofNat 64 a)]
    eff := fun r t => (t.allocTag tag).portA t.sch.seq (act r (eaOf r 16 bs o)) delay info }

/-- BARINIT (R248). -/
def execBarinit (h : Hdr) (sr : BitVec 5) (bs : BitVec 4) (o : Imm 5 32) (s : State) : Host.Outcome State Fault Refusal :=
  runSlot (.barinit h sr bs o) h
    (semBar bs o 0#3 (fun r => decide (1 ≤ (r.rs sr).toNat) && decide ((r.rs sr).toNat ≤ 65535)) 0
      fun r a => .barInit a (r.rs sr).toNat (r.rs (succS sr))) s

/-- BARARR: the evaluation falls 3 cycles after issue (R249). -/
def execBararr (h : Hdr) (sr : BitVec 5) (bs : BitVec 4) (o : Imm 5 32) (t : BitVec 3) (s : State) :
    Host.Outcome State Fault Refusal :=
  runSlot (.bararr h sr bs o t) h
    (semBar bs o t (fun r => decide (1 ≤ (r.rs sr).toNat) && decide ((r.rs sr).toNat ≤ 65535)) 3
      fun r a => .arrive a (r.rs sr).toNat t) s

/-- BARTX with `add` (R250). -/
def execBartxAdd (h : Hdr) (sr : BitVec 5) (bs : BitVec 4) (o : Imm 5 32) (s : State) : Host.Outcome State Fault Refusal :=
  runSlot (.bartxAdd h sr bs o) h
    (semBar bs o 0#3 (fun r => r.rs sr != 0#32) 0 fun r a => .txAdd a (r.rs sr).toNat) s

/-- BARTX with `dec` (R250). -/
def execBartxDec (h : Hdr) (sr : BitVec 5) (bs : BitVec 4) (o : Imm 5 32) (s : State) : Host.Outcome State Fault Refusal :=
  runSlot (.bartxDec h sr bs o) h
    (semBar bs o 0#3 (fun r => r.rs sr != 0#32) 0 fun r a => .txDec a (r.rs sr).toNat) s

/-- BARWAIT's test of the object, once every earlier access of port A has been performed (R108, R251). -/
def barTest (t : Tile) (a : Nat) (p : Nat) : Check :=
  let u := Tile.drainReady t.pad.queue.length t
  let st := mkStall .bar (BitVec.ofNat 64 a) 0#64 a
  if !u.pad.queue.isEmpty then .late st
  else if (u.pad.readCause ((upTo 16).map (a + ·))).isSome then .ok
  else if (u.pad.bar a).txu then .raise .bartxu (BitVec.ofNat 64 a) 0#64 []
  else waitFor ((u.pad.bar a).phase != p) st

/-- BARWAIT (R251). A poisoned object refuses its evaluation: SPPOISON, or SPECC, after issue (R247). -/
def execBarwait (h : Hdr) (sr : BitVec 5) (bs : BitVec 4) (o : Imm 5 32) (s : State) : Host.Outcome State Fault Refusal :=
  runSlot (.barwait h sr bs o) h
    (fun _ =>
      { check := fun r =>
          let a := eaOf r 16 bs o
          Check.all [accessCheck r .eval 16 .baraln false [itemOf a 16], barTest r a (bitsOf (r.rs sr).toNat 0 4)]
        eff := fun r t =>
          let a := eaOf r 16 bs o
          let t := t.drainReady t.pad.queue.length
          let f := t.readPad ((upTo 16).map (a + ·))
          let t := f.2
          match f.1 with
          | some c => t.raise c (some t.sch.seq) 0 (BitVec.ofNat 64 a)
          | none => t }) s

/-- BARRD (R252). -/
def execBarrd (h : Hdr) (sr : BitVec 5) (bs : BitVec 4) (o : Imm 5 32) (k : BitVec 2) (t : BitVec 3) (s : State) :
    Host.Outcome State Fault Refusal :=
  runSlot (.barrd h sr bs o k t) h
    (semBar bs o t (fun _ => true) 0 fun r a => .barRd t a k.toNat (rotS r.ctl.rrb sr)) s

/-- The granules of a FESET or FECLR run (R253). -/
def runItems (r : Tile) (sr : BitVec 5) (a : Nat) : List Item :=
  (upTo (bitsOf (r.rs sr).toNat 0 4 + 1)).map fun i => itemOf (a + 16 * i) 16

/-- FESET and FECLR (R253). -/
def semFe (set : Bool) (sr : BitVec 5) (bs : BitVec 4) (o : Imm 5 32) : SlotInfo → Sem := fun info =>
  { check := fun r => accessCheck r .eval 16 .spalign false (runItems r sr (eaOf r 16 bs o))
    eff := fun r t => t.portA t.sch.seq (.fe set ((runItems r sr (eaOf r 16 bs o)).map (·.a / 16))) 0 info }

/-- FESET (R253). -/
def execFeset (h : Hdr) (sr : BitVec 5) (bs : BitVec 4) (o : Imm 5 32) (s : State) : Host.Outcome State Fault Refusal :=
  runSlot (.feset h sr bs o) h (semFe true sr bs o) s

/-- FECLR, which may return credits (R253, R92). -/
def execFeclr (h : Hdr) (sr : BitVec 5) (bs : BitVec 4) (o : Imm 5 32) (s : State) : Host.Outcome State Fault Refusal :=
  runSlot (.feclr h sr bs o) h (semFe false sr bs o) s

/-- FERD (R253). -/
def execFerd (h : Hdr) (sr : BitVec 5) (bs : BitVec 4) (o : Imm 5 32) (t : BitVec 3) (s : State) :
    Host.Outcome State Fault Refusal :=
  runSlot (.ferd h sr bs o t) h
    (fun info =>
      { check := fun r =>
          let a := eaOf r 16 bs o
          Check.all [r.needTag t (BitVec.ofNat 64 a), accessCheck r .eval 16 .spalign false [itemOf a 16]]
        eff := fun r u =>
          (u.allocTag t).portA u.sch.seq (.feRd t (eaOf r 16 bs o / 16) (rotS r.ctl.rrb sr)) 0 info }) s

/-- A bulk address: bb pair plus aB, modulo 2^64 (R254). -/
def bulkVa (r : Tile) (bs : BitVec 4) (bb : BitVec 3) : Nat :=
  (((r.ctl.bb[bb.toNat]?).getD 0#64) + (r.ra bs).setWidth 64).toNat

/-- The line of the read buffer that holds an address (R80). -/
def Pad.bufLine (p : Pad) (va : Nat) : Option BufLine := p.buf.find? (·.line == lineOf va)

/-- Whether an ACQ's answer has not reached the tile, so that the read buffer may still be emptied (R116). -/
def Tile.acqOut (t : Tile) : Bool := t.guards.any fun g => !g.rel

/-- Whether an earlier load of a line is still out: its answer may be newer than the line that the read buffer holds (R113). -/
def Tile.loadOut (t : Tile) (va : Nat) : Bool :=
  t.accs.any fun a => (a.kind == .bldw || a.kind == .bldd) && lineOf a.va == lineOf va && !a.dropped

/-- A bulk load: served from the read buffer, or sent to its port (R80, R254). A load issued after an ACQ that is out does
not use the buffer, which the grant empties (R117, R119), nor does one while an earlier load of its line is out (R113). -/
def semBld (n : Nat) (kind : AccKind) (sr : BitVec 5) (bs : BitVec 4) (bb tag : BitVec 3) : SlotInfo → Sem := fun info =>
  { check := fun r =>
      let va := bulkVa r bs bb
      Check.all [r.needTag tag (BitVec.ofNat 64 va), need (va % n == 0) .bxalign (BitVec.ofNat 64 va)]
    eff := fun r t =>
      let va := bulkVa r bs bb
      let dest := if n = 8 then [rotS r.ctl.rrb sr, rotS r.ctl.rrb (succS sr)] else [rotS r.ctl.rrb sr]
      let t := t.allocTag tag
      match (if r.acqOut || r.loadOut va then none else t.pad.bufLine va) with
      | some b =>
        let w (k : Nat) : Word := BitVec.ofNat 32 (bytesVal ((b.bytes.drop (va % 64 + 4 * k)).take 4))
        let ws := ((upTo dest.length).zip dest).map fun x => RegWrite.s x.2 (w x.1)
        (t.withPad fun p => { p with buf := b :: p.buf.erase b }).withSch fun s =>
          { s with flights := s.flights ++ [⟨s.seq, s.cycle + 6, tag, ws, none, 0, 0#64, 0#32, [], info⟩] }
      | none =>
        { t with accs := t.accs ++ [⟨t.sch.seq, kind, va, n, [], tag, dest, .inTile, false, false, false, false⟩] } }

/-- A bulk store: data read at issue, the buffered line updated, or, in a block, invalidated and the store staged (R80,
R254, R314). -/
def semBst (n : Nat) (kind : AccKind) (sr : BitVec 5) (bs : BitVec 4) (bb tag : BitVec 3) : SlotInfo → Sem := fun _ =>
  { check := fun r =>
      let va := bulkVa r bs bb
      Check.all [r.needTag tag (BitVec.ofNat 64 va), need (va % n == 0) .bxalign (BitVec.ofNat 64 va), need (r.roomFor 32) .cbfull]
    eff := fun r t =>
      let va := bulkVa r bs bb
      let data := wordBytes (r.rs sr) ++ (if n = 8 then wordBytes (r.rs (succS sr)) else [])
      let blk := !r.blocks.isEmpty
      let t := (t.allocTag tag).withPad fun p =>
        if blk then { p with buf := p.buf.filter (·.line != lineOf va) } else p.updateLine va data
      let t := { t with accs := t.accs ++ [⟨t.sch.seq, kind, va, n, data, tag, [], .inTile, false, false, false, blk⟩] }
      if blk then t.stage (.store t.sch.seq) else t }

/-- BLDW (R254). -/
def execBldw (h : Hdr) (sr : BitVec 5) (bs : BitVec 4) (bb t : BitVec 3) (s : State) : Host.Outcome State Fault Refusal :=
  runSlot (.bldw h sr bs bb t) h (semBld 4 .bldw sr bs bb t) s

/-- BLDD (R254). -/
def execBldd (h : Hdr) (sr : BitVec 5) (bs : BitVec 4) (bb t : BitVec 3) (s : State) : Host.Outcome State Fault Refusal :=
  runSlot (.bldd h sr bs bb t) h (semBld 8 .bldd sr bs bb t) s

/-- BSTW (R254). -/
def execBstw (h : Hdr) (sr : BitVec 5) (bs : BitVec 4) (bb t : BitVec 3) (s : State) : Host.Outcome State Fault Refusal :=
  runSlot (.bstw h sr bs bb t) h (semBst 4 .bstw sr bs bb t) s

/-- BSTD (R254). -/
def execBstd (h : Hdr) (sr : BitVec 5) (bs : BitVec 4) (bb t : BitVec 3) (s : State) : Host.Outcome State Fault Refusal :=
  runSlot (.bstd h sr bs bb t) h (semBst 8 .bstd sr bs bb t) s

/-- LEA: 16 times the signed immediate, or the byte offset IMM32 (R258). -/
def execLea (h : Hdr) (d a : BitVec 4) (i : Imm 11 32) (s : State) : Host.Outcome State Fault Refusal :=
  runSlot (.lea h d a i) h
    (fun _ => { eff := fun r t => t.write1 (.a d.toNat (r.ra a + immScaled 16 i)) }) s

/-- ADDA (R258). -/
def execAdda (h : Hdr) (d a : BitVec 4) (sr : BitVec 5) (sh : BitVec 2) (s : State) : Host.Outcome State Fault Refusal :=
  runSlot (.adda h d a sr sh) h
    (fun _ => { eff := fun r t => t.write1 (.a d.toNat (r.ra a + (r.rs sr <<< sh.toNat))) }) s

end Sys2Proof.Machine
end

