-- ==== Sys2Proof/Machine/Scalar.lean ====
section
/-! DEFINITION. The X class: scalar arithmetic, compares, selects and copies between register files (R210 to R217). -/

namespace Sys2Proof.Machine

/-- A slot that writes one register with latency 1, from operands read at issue (R153). -/
def semWrite (w : Tile → RegWrite) : SlotInfo → Sem := fun _ => { eff := fun r t => t.write1 (w r) }

/-- A producer of latency `lat`: its result is in flight until then (R151). -/
def Tile.produce (t : Tile) (lat : Nat) (tag : BitVec 3) (ws : List RegWrite) (kind : Nat) (opx : DWord)
    (info : SlotInfo) : Tile :=
  (t.withSch fun s =>
    { s with flights := s.flights ++ [⟨s.seq, s.cycle + lat, tag, ws, none, kind, opx, 0#32, [], info⟩] }).allocTag tag

/-- An exposed slot of latency `lat` that writes one register (Table 07-3). -/
def semLater (lat : Nat) (w : Tile → RegWrite) : SlotInfo → Sem := fun info =>
  { eff := fun r t => t.produce lat 0#3 [w r] 0 0#64 info }

/-- DIV and REM: 18 cycles, a tag, a replay entry that holds both operands (R212, R326). -/
def semDiv (d a b : BitVec 5) (tag : BitVec 3) (f : Word → Word → Word) : SlotInfo → Sem := fun info =>
  { check := fun t => t.needTag tag
    eff := fun r t => t.produce 18 tag [r.ws d (f (r.rs a) (r.rs b))] 4 (r.rs b ++ r.rs a) info }

/-- The lesser or greater of two words, signed or unsigned (R210). -/
def pickLess (u : Bool) (a b : Word) : Bool := if u then a.ult b else a.slt b

/-- The high word of a 64-bit product (R210). -/
def mulHigh (u : Bool) (a b : Word) : Word :=
  if u then (a.setWidth 64 * b.setWidth 64).extractLsb' 32 32
  else (a.signExtend 64 * b.signExtend 64).extractLsb' 32 32

/-- Position and width of the field descriptor of BFX and BFI (R211). -/
def bfPos (b : Word) : Nat := bitsOf b.toNat 0 5
/-- The width, cut at bit 31. -/
def bfWidth (b : Word) : Nat := Nat.min (bitsOf b.toNat 8 5 + 1) (32 - bfPos b)

/-- BFX (R211). -/
def bfExtract (a b : Word) (sx : Bool) : Word :=
  let f := bitsOf a.toNat (bfPos b) (bfWidth b)
  if sx then wordOfInt (sxt (bfWidth b) f) else BitVec.ofNat 32 f

/-- BFI (R211). -/
def bfInsert (d a b : Word) : Word :=
  let m : Word := BitVec.ofNat 32 ((2 ^ bfWidth b - 1) * 2 ^ bfPos b)
  (d &&& ~~~m) ||| ((a <<< bfPos b) &&& m)

/-- CMP's conditions (Table 10-3). -/
def cmpCond (f : Nat) (a b : Word) : Bool :=
  match f with
  | 0 => a == b
  | 1 => a != b
  | 2 => a.slt b
  | 3 => !a.slt b
  | 4 => !b.slt a
  | 5 => b.slt a
  | 6 => a.ult b
  | 7 => !a.ult b
  | 8 => !b.ult a
  | _ => b.ult a

/-- The shift amount of a register or immediate: its low 5 bits (R210, R213). -/
def amount (b : Word) : Nat := bitsOf b.toNat 0 5

/-- NOP does nothing (R217). -/
def execNop (h : Hdr) (s : State) : Host.Outcome State Fault Refusal :=
  runSlot (.nop h) h (fun _ => { eff := fun _ t => t }) s

/-- ADD (Table 10-1). -/
def execAdd (h : Hdr) (d a b : BitVec 5) (s : State) : Host.Outcome State Fault Refusal :=
  runSlot (.add h d a b) h (semWrite fun r => r.ws d (r.rs a + r.rs b)) s

/-- SUB (Table 10-1). -/
def execSub (h : Hdr) (d a b : BitVec 5) (s : State) : Host.Outcome State Fault Refusal :=
  runSlot (.sub h d a b) h (semWrite fun r => r.ws d (r.rs a - r.rs b)) s

/-- AND (Table 10-1). -/
def execAnd (h : Hdr) (d a b : BitVec 5) (s : State) : Host.Outcome State Fault Refusal :=
  runSlot (.and h d a b) h (semWrite fun r => r.ws d (r.rs a &&& r.rs b)) s

/-- OR (Table 10-1). -/
def execOr (h : Hdr) (d a b : BitVec 5) (s : State) : Host.Outcome State Fault Refusal :=
  runSlot (.or h d a b) h (semWrite fun r => r.ws d (r.rs a ||| r.rs b)) s

/-- XOR (Table 10-1). -/
def execXor (h : Hdr) (d a b : BitVec 5) (s : State) : Host.Outcome State Fault Refusal :=
  runSlot (.xor h d a b) h (semWrite fun r => r.ws d (r.rs a ^^^ r.rs b)) s

/-- ANDN (Table 10-1). -/
def execAndn (h : Hdr) (d a b : BitVec 5) (s : State) : Host.Outcome State Fault Refusal :=
  runSlot (.andn h d a b) h (semWrite fun r => r.ws d (r.rs a &&& ~~~r.rs b)) s

/-- SHL (Table 10-1). -/
def execShl (h : Hdr) (d a b : BitVec 5) (s : State) : Host.Outcome State Fault Refusal :=
  runSlot (.shl h d a b) h (semWrite fun r => r.ws d (r.rs a <<< amount (r.rs b))) s

/-- SHR (Table 10-1). -/
def execShr (h : Hdr) (d a b : BitVec 5) (s : State) : Host.Outcome State Fault Refusal :=
  runSlot (.shr h d a b) h (semWrite fun r => r.ws d (r.rs a >>> amount (r.rs b))) s

/-- SAR (Table 10-1). -/
def execSar (h : Hdr) (d a b : BitVec 5) (s : State) : Host.Outcome State Fault Refusal :=
  runSlot (.sar h d a b) h (semWrite fun r => r.ws d ((r.rs a).sshiftRight (amount (r.rs b)))) s

/-- ROTL (Table 10-1). -/
def execRotl (h : Hdr) (d a b : BitVec 5) (s : State) : Host.Outcome State Fault Refusal :=
  runSlot (.rotl h d a b) h (semWrite fun r => r.ws d ((r.rs a).rotateLeft (amount (r.rs b)))) s

/-- MUL, latency 3; `u` changes nothing (Table 10-1). -/
def execMul (h : Hdr) (d a b : BitVec 5) (u : Bool) (s : State) : Host.Outcome State Fault Refusal :=
  runSlot (.mul h d a b u) h (semLater 3 fun r => r.ws d (r.rs a * r.rs b)) s

/-- MULH, latency 3 (Table 10-1). -/
def execMulh (h : Hdr) (d a b : BitVec 5) (u : Bool) (s : State) : Host.Outcome State Fault Refusal :=
  runSlot (.mulh h d a b u) h (semLater 3 fun r => r.ws d (mulHigh u (r.rs a) (r.rs b))) s

/-- MIN (Table 10-1). -/
def execMin (h : Hdr) (d a b : BitVec 5) (u : Bool) (s : State) : Host.Outcome State Fault Refusal :=
  runSlot (.min h d a b u) h (semWrite fun r => r.ws d (if pickLess u (r.rs b) (r.rs a) then r.rs b else r.rs a)) s

/-- MAX (Table 10-1). -/
def execMax (h : Hdr) (d a b : BitVec 5) (u : Bool) (s : State) : Host.Outcome State Fault Refusal :=
  runSlot (.max h d a b u) h (semWrite fun r => r.ws d (if pickLess u (r.rs a) (r.rs b) then r.rs b else r.rs a)) s

/-- CMP (R215). -/
def execCmp (h : Hdr) (p : BitVec 3) (a b : BitVec 5) (cond : BitVec 4) (s : State) : Host.Outcome State Fault Refusal :=
  runSlot (.cmp h p a b cond) h (semWrite fun r => r.wp p (cmpCond cond.toNat (r.rs a) (r.rs b))) s

/-- SEL (R216). -/
def execSel (h : Hdr) (d a b : BitVec 5) (p : BitVec 3) (s : State) : Host.Outcome State Fault Refusal :=
  runSlot (.sel h d a b p) h (semWrite fun r => r.ws d (if r.rp p then r.rs a else r.rs b)) s

/-- CLZ (Table 10-1). -/
def execClz (h : Hdr) (d a : BitVec 5) (s : State) : Host.Outcome State Fault Refusal :=
  runSlot (.clz h d a) h (semWrite fun r => r.ws d (BitVec.ofNat 32 (clz32 (r.rs a)))) s

/-- CTZ (Table 10-1). -/
def execCtz (h : Hdr) (d a : BitVec 5) (s : State) : Host.Outcome State Fault Refusal :=
  runSlot (.ctz h d a) h (semWrite fun r => r.ws d (BitVec.ofNat 32 (ctz32 (r.rs a)))) s

/-- POPC (Table 10-1). -/
def execPopc (h : Hdr) (d a : BitVec 5) (s : State) : Host.Outcome State Fault Refusal :=
  runSlot (.popc h d a) h (semWrite fun r => r.ws d (BitVec.ofNat 32 (popc32 (r.rs a)))) s

/-- BREV (Table 10-1). -/
def execBrev (h : Hdr) (d a : BitVec 5) (s : State) : Host.Outcome State Fault Refusal :=
  runSlot (.brev h d a) h (semWrite fun r => r.ws d (brev32 (r.rs a))) s

/-- BFX (R211). -/
def execBfx (h : Hdr) (d a b : BitVec 5) (sx : Bool) (s : State) : Host.Outcome State Fault Refusal :=
  runSlot (.bfx h d a b sx) h (semWrite fun r => r.ws d (bfExtract (r.rs a) (r.rs b) sx)) s

/-- BFI, which reads sD as its third source (R211). -/
def execBfi (h : Hdr) (d a b : BitVec 5) (s : State) : Host.Outcome State Fault Refusal :=
  runSlot (.bfi h d a b) h (semWrite fun r => r.ws d (bfInsert (r.rs d) (r.rs a) (r.rs b))) s

/-- DIV (R212). -/
def execDiv (h : Hdr) (d a b : BitVec 5) (t : BitVec 3) (u : Bool) (s : State) : Host.Outcome State Fault Refusal :=
  runSlot (.div h d a b t u) h (semDiv d a b t fun x y => (divide x y u).1) s

/-- REM (R212). -/
def execRem (h : Hdr) (d a b : BitVec 5) (t : BitVec 3) (u : Bool) (s : State) : Host.Outcome State Fault Refusal :=
  runSlot (.rem h d a b t u) h (semDiv d a b t fun x y => (divide x y u).2) s

/-- ADDI (Table 10-2). -/
def execAddi (h : Hdr) (d a : BitVec 5) (i : Imm 9 32) (s : State) : Host.Outcome State Fault Refusal :=
  runSlot (.addi h d a i) h (semWrite fun r => r.ws d (r.rs a + immSx i)) s

/-- ANDI (Table 10-2). -/
def execAndi (h : Hdr) (d a : BitVec 5) (i : Imm 9 32) (s : State) : Host.Outcome State Fault Refusal :=
  runSlot (.andi h d a i) h (semWrite fun r => r.ws d (r.rs a &&& immSx i)) s

/-- ORI (Table 10-2). -/
def execOri (h : Hdr) (d a : BitVec 5) (i : Imm 9 32) (s : State) : Host.Outcome State Fault Refusal :=
  runSlot (.ori h d a i) h (semWrite fun r => r.ws d (r.rs a ||| immSx i)) s

/-- XORI (Table 10-2). -/
def execXori (h : Hdr) (d a : BitVec 5) (i : Imm 9 32) (s : State) : Host.Outcome State Fault Refusal :=
  runSlot (.xori h d a i) h (semWrite fun r => r.ws d (r.rs a ^^^ immSx i)) s

/-- SHLI (Table 10-2). -/
def execShli (h : Hdr) (d a k : BitVec 5) (s : State) : Host.Outcome State Fault Refusal :=
  runSlot (.shli h d a k) h (semWrite fun r => r.ws d (r.rs a <<< k.toNat)) s

/-- SHRI (Table 10-2). -/
def execShri (h : Hdr) (d a k : BitVec 5) (s : State) : Host.Outcome State Fault Refusal :=
  runSlot (.shri h d a k) h (semWrite fun r => r.ws d (r.rs a >>> k.toNat)) s

/-- SARI (Table 10-2). -/
def execSari (h : Hdr) (d a k : BitVec 5) (s : State) : Host.Outcome State Fault Refusal :=
  runSlot (.sari h d a k) h (semWrite fun r => r.ws d ((r.rs a).sshiftRight k.toNat)) s

/-- CMPEQI (Table 10-2). -/
def execCmpeqi (h : Hdr) (p : BitVec 3) (a : BitVec 5) (i : Imm 9 32) (s : State) : Host.Outcome State Fault Refusal :=
  runSlot (.cmpeqi h p a i) h (semWrite fun r => r.wp p (r.rs a == immSx i)) s

/-- CMPLTI (Table 10-2). -/
def execCmplti (h : Hdr) (p : BitVec 3) (a : BitVec 5) (i : Imm 9 32) (s : State) : Host.Outcome State Fault Refusal :=
  runSlot (.cmplti h p a i) h (semWrite fun r => r.wp p ((r.rs a).slt (immSx i))) s

/-- CMPLTUI (Table 10-2). -/
def execCmpltui (h : Hdr) (p : BitVec 3) (a : BitVec 5) (i : Imm 9 32) (s : State) : Host.Outcome State Fault Refusal :=
  runSlot (.cmpltui h p a i) h (semWrite fun r => r.wp p ((r.rs a).ult (immSx i))) s

/-- MULI, latency 3 (Table 10-2). -/
def execMuli (h : Hdr) (d a : BitVec 5) (i : Imm 9 32) (s : State) : Host.Outcome State Fault Refusal :=
  runSlot (.muli h d a i) h (semLater 3 fun r => r.ws d (r.rs a * immSx i)) s

/-- MOVI (R214). -/
def execMovi (h : Hdr) (d : BitVec 5) (i : Imm 14 32) (s : State) : Host.Outcome State Fault Refusal :=
  runSlot (.movi h d i) h (semWrite fun r => r.ws d (immSx i)) s

/-- MOVHI keeps the low 18 bits of sD (R214). -/
def execMovhi (h : Hdr) (d : BitVec 5) (i : BitVec 14) (s : State) : Host.Outcome State Fault Refusal :=
  runSlot (.movhi h d i) h (semWrite fun r => r.ws d (i ++ (r.rs d).extractLsb' 0 18)) s

/-- XTOA (Table 10-4). -/
def execXtoa (h : Hdr) (d : BitVec 4) (a : BitVec 5) (s : State) : Host.Outcome State Fault Refusal :=
  runSlot (.xtoa h d a) h (semWrite fun r => .a d.toNat (r.rs a)) s

/-- ATOX (Table 10-4). -/
def execAtox (h : Hdr) (d : BitVec 5) (a : BitVec 4) (s : State) : Host.Outcome State Fault Refusal :=
  runSlot (.atox h d a) h (semWrite fun r => r.ws d (r.ra a)) s

/-- XTOV, latency 2, changes one lane (R217). -/
def execXtov (h : Hdr) (d a : BitVec 5) (lane : BitVec 4) (s : State) : Host.Outcome State Fault Refusal :=
  runSlot (.xtov h d a lane) h (semLater 2 fun r => .vLane (rotV r.ctl.rrb d.toNat) lane.toNat (r.rs a)) s

/-- VTOX, latency 3 (R217). -/
def execVtox (h : Hdr) (d a : BitVec 5) (ln : BitVec 4) (s : State) : Host.Outcome State Fault Refusal :=
  runSlot (.vtox h d a ln) h (semLater 3 fun r => r.ws d (lane (r.rv a.toNat) ln.toNat)) s

/-- XTOP (Table 10-4). -/
def execXtop (h : Hdr) (p : BitVec 3) (a : BitVec 5) (s : State) : Host.Outcome State Fault Refusal :=
  runSlot (.xtop h p a) h (semWrite fun r => r.wp p ((r.rs a).getLsbD 0)) s

/-- PTOX (Table 10-4). -/
def execPtox (h : Hdr) (d : BitVec 5) (p : BitVec 3) (s : State) : Host.Outcome State Fault Refusal :=
  runSlot (.ptox h d p) h (semWrite fun r => r.ws d (wordOfBool (r.rp p))) s

end Sys2Proof.Machine
end

