-- ==== Sys2Proof/Machine/Channel.lean ====
section
/-! DEFINITION. The EC class: sends, receive bindings, contributions, arrivals, queries, containment blocks, PORTW (R303 to
R318). -/

namespace Sys2Proof.Machine

/-- INFO of a cause that names an outbound channel: the channel and its SEQ (Table 16-3). -/
def chInfo (t : Tile) (n : Nat) : DWord := BitVec.ofNat 64 (n * 2 ^ 32 + (t.outCh n).seq.toNat)

/-- TAGOV, with the channel named (Table 14-2). -/
def tagCheck (t : Tile) (tag : BitVec 3) (info : DWord) : Check := need (t.tagFree tag) .tagov 0#64 info

/-- Rows 2 and 3 of Table 14-2 for an outbound channel. -/
def routeCheck (t : Tile) (n : Nat) : Check :=
  Check.all [need (entryV (t.outCh n).entry) .chnoroute 0#64 (chInfo t n), need (!(t.outCh n).dead) .chdead 0#64 (chInfo t n)]

/-- Rows 5 and the stall for credit of Table 14-2. -/
def sendCheck (t : Tile) (n len : Nat) : Check :=
  Check.all [need (t.roomFor (sendRoom len)) .cbfull 0#64 (chInfo t n)]

/-- The stall for CREDIT, bounded by febound (R90). -/
def creditWait (t : Tile) (n len : Nat) : Check :=
  waitFor (decide (packetsOf len ≤ (t.outCh n).credit)) (mkStall .send 0#64 (chInfo t n))

/-- Poisoned granules of packet `j`'s payload. -/
def packetPoison (p : NatSet) (j : Nat) : NatSet := (p.filter fun g => decide (16 * j ≤ g) && decide (g < 16 * j + 16)).map (· - 16 * j)

/-- A send: credit falls, the packets leave in order, or are staged in an open block (R90, R305, R314). -/
def Tile.send (t : Tile) (n : Nat) (payload : List Byte) (poison : NatSet) : Tile :=
  let ps := chunks 256 (packetsOf payload.length) payload
  let t := t.withOut n fun o => { o with credit := o.credit - ps.length }
  ((upTo ps.length).zip ps).foldl (fun (t : Tile) x =>
    if t.blocks.isEmpty then t.sendPacket n false x.2 (packetPoison poison x.1)
    else
      let e : Staged := .packet n x.2 (packetPoison poison x.1)
      if t.reading n then t.sendAfter n [] [e] else t.stage e) t

/-- A send's tag, released `lat` cycles after issue (Table 14-3). -/
def Tile.sendTag (t : Tile) (tag : BitVec 3) (lat : Nat) (info : SlotInfo) : Tile :=
  if tag = 0#3 then t else t.produce lat tag [] 0 0#64 info

/-- CHSENDV (R305). -/
def execChsendv (h : Hdr) (c v : BitVec 5) (k : BitVec 2) (t : BitVec 3) (s : State) : Host.Outcome State Fault Refusal :=
  runSlot (.chsendv h c v k t) h
    (fun info =>
      { check := fun r =>
          let n := c.toNat
          let len := 64 * (k.toNat + 1)
          Check.all [tagCheck r t (chInfo r n), routeCheck r n, sendCheck r n len, creditWait r n len]
        eff := fun r u =>
          (u.send c.toNat ((upTo (k.toNat + 1)).flatMap fun i => vBytes (r.rv (v.toNat + i))) []).sendTag t 1 info }) s

/-- CHSENDT (R305). -/
def execChsendt (h : Hdr) (c : BitVec 5) (src : TileRef) (t : BitVec 3) (s : State) : Host.Outcome State Fault Refusal :=
  runSlot (.chsendt h c src t) h
    (fun info =>
      { check := fun r =>
          let n := c.toNat
          let w := r.tshOf (r.refReg false src)
          let len := (shapeOf w).rows * (shapeOf w).rowBytes
          Check.all [tagCheck r t (chInfo r n), routeCheck r n,
            need (shapeValid w || !r.refDefd src) .tshape 0#64 (chInfo r n), need (r.refDefd src) .ringerr 0#64 (chInfo r n),
            sendCheck r n len,
            match src with
            | .ring g => waitFor (r.ring g.toNat).canTake (mkStall .plain)
            | .tile _ => .ok,
            creditWait r n len]
        eff := fun r u =>
          let reg := r.refReg false src
          let sh := shapeOf (r.tshOf reg)
          let u := match src with
            | .ring g => u.withRing g.toNat Ring.take
            | .tile _ => u
          (u.send c.toNat (r.files.getT reg (sh.rows * sh.rowBytes)) []).sendTag t 1 info }) s

/-- Where a run of bytes lies for CHSENDM: inside scratchpad, inside one window (APERT), or partly outside (SPRANGE; R306). -/
def runCause (a n : Nat) : Option Cause :=
  if a + n ≤ padSize then none
  else if (0x40000 ≤ a ∧ a + n ≤ 0x40600) ∨ (0x50000 ≤ a ∧ a + n ≤ 0x50040) ∨ (0x60000 ≤ a ∧ a + n ≤ 0x60100) then some .apert
  else some .sprange

/-- A send from memory (R90, R305): credit falls and its packets take their SEQ at issue, port B reads the first 64 bytes in
that cycle, and its packets leave once it has read them all, after what its channel sent before. -/
def Tile.sendMem (t : Tile) (c n a len : Nat) (take : Bool) : Tile :=
  let k := packetsOf len
  let outside := t.blocks.isEmpty
  let heads := (upTo k).map fun j => { t.header n with seq := (t.outCh n).seq + BitVec.ofNat 32 (j + 1) }
  let t := t.withOut n fun o => { o with credit := o.credit - k, seq := if outside then o.seq + BitVec.ofNat 32 k else o.seq }
  let o : SendOp := ⟨t.sch.seq, c, n, a, len, take, [], [], if outside then some heads else none, [], [], false,
    c + ceilDiv len 64 + 1⟩
  let r := t.readSome o
  Tile.runSends [r.2] r.1

/-- CHSENDM: its source is read through port B, 64 bytes a cycle from issue on (R305, R306). -/
def execChsendm (h : Hdr) (c : BitVec 5) (bs : BitVec 4) (l : BitVec 5) (k : BitVec 2) (t : BitVec 3) (s : State) :
    Host.Outcome State Fault Refusal :=
  runSlot (.chsendm h c bs l k t) h
    (fun info =>
      { check := fun r =>
          let n := c.toNat
          let a := (r.ra bs).toNat
          let len := (r.rs l).toNat
          let fa := BitVec.ofNat 64 a
          let inf := chInfo r n
          Check.all [tagCheck r t inf, routeCheck r n,
            need (a % 4 == 0 && (k == 0#2 || (a % 16 == 0 && len % 16 == 0))) .spalign fa inf,
            match runCause a (Nat.max 1 len) with
            | some cz => .raise cz fa inf []
            | none => .ok,
            need (len % 4 == 0 && decide (4 ≤ len) && decide (len ≤ 2048)) .chlen fa inf,
            sendCheck r n len,
            if k = 0#2 then .ok
            else match firstFail (granules a (Nat.min len 2048)) r.pad.full.has with
              | some g => .late (mkStall .fe (BitVec.ofNat 64 (16 * g)) inf)
              | none => .ok,
            creditWait r n len]
        eff := fun r u =>
          let len := (r.rs l).toNat
          (u.sendMem r.sch.cycle c.toNat (r.ra bs).toNat len (k == 2#2)).sendTag t (ceilDiv len 64 + 1) info }) s

/-- Whether a binding descriptor is refused (R91). -/
def bindingRefused (w : Nat) : Bool :=
  let slots := bitsOf w 32 8
  let slotg := bitsOf w 40 5
  let base := bitsOf w 0 32
  let bar := bitsOf w 64 32
  bitsOf w 96 32 != 0 || bitsOf w 49 15 != 0 || bitsOf w 45 3 != 0 || slots == 0 || decide (64 < slots)
    || decide (15 < slotg) || base % 16 != 0 || !inGeneral base (16 * (slotg + 1) * slots)
    || (bitOf w 48 && (bar % 16 != 0 || !inGeneral bar 16))

/-- INFO of CHRECV's causes: the inbound channel. -/
def ichInfo (n : Nat) : DWord := BitVec.ofNat 64 (n * 2 ^ 32)

/-- CHRECV: its wait, its checks in the order of R304, the binding and the grant (R91, R307, R308). -/
def execChrecv (h : Hdr) (c : BitVec 5) (bs : BitVec 4) (sink : Bool) (s : State) : Host.Outcome State Fault Refusal :=
  runSlot (.chrecv h c bs sink) h
    (fun _ =>
      { check := fun r =>
          let n := c.toNat
          let i := r.inCh n
          let a := (r.ra bs).toNat
          let fa := BitVec.ofNat 64 a
          let inf := ichInfo n
          Check.all [waitFirst r.pad.queue.isEmpty (mkStall .plain),
            need (entryV i.entry && entrySink i.entry == sink && !i.once) .chbind 0#64 inf,
            need (a % 16 == 0) .spalign fa inf,
            match runCause a 16 with
            | some cz => .raise cz fa inf []
            | none => need (inGeneral a 16) .sprange fa inf,
            need ((r.pad.readCause ((upTo 16).map (a + ·))).isSome || !bindingRefused (r.pad.mem.val a 16)) .chbind fa inf]
        eff := fun r u =>
          let n := c.toNat
          let a := (r.ra bs).toNat
          let f := u.readPad ((upTo 16).map (a + ·))
          let u := f.2
          match f.1 with
          | some cz => u.raise cz (some u.sch.seq) 0 (BitVec.ofNat 64 a)
          | none =>
            let i := u.inCh n
            let w := r.pad.mem.val a 16
            let i' := { i with bound := true, once := true, binding := BitVec.ofNat 128 w }
            let u := { u with ins := u.ins.setIfInBounds n i' }
            if sink then u
            else
              let d := entryDest u.coord i.entry
              u.emitAs false (4 * 2 ^ 48 + n * 2 ^ 32) 0#32
                (.credit d (entryCh i.entry) (Nat.min 16 (bitsOf w 32 8))) }) s

/-- The combine entry of a tree at this router (Table 04-7). -/
def Tile.tree (t : Tile) (j : Nat) : Tree := (t.trees[j]?).getD ⟨0#64, 0, 0, [], 0, none, []⟩

/-- The expected inputs of a combine entry (CHILD), by port. -/
def treeChild (e : DWord) : Port → Bool
  | .loc => e.getLsbD 55
  | .w => e.getLsbD 56
  | .n => e.getLsbD 57
  | .e => e.getLsbD 58
  | .s => e.getLsbD 59

/-- Whether the local input of a tree is taken: held at the router, or handed off and not there yet (R100). -/
def Tile.localBusy (t : Tile) (j : Nat) : Bool :=
  (t.tree j).inputs.any (fun x => x.1 == .loc)
    || (t.out.any fun m => match m with
      | .partial_ d k p _ _ => d == t.coord && k == j && p == .loc
      | _ => false)
    || (match t.pair with
      | some p => p.held.any fun x => match x.item with
        | some (.partial_ _ k _ _ _) => k == j
        | _ => false
      | none => false)

/-- INFO that names a tree and a round (Table 16-3). -/
def treeInfo (j round : Nat) : DWord := BitVec.ofNat 64 (j * 2 ^ 32 + round)

/-- Replaces a tree's state. -/
def Tile.withTree (t : Tile) (j : Nat) (f : Tree → Tree) : Tile :=
  match t.trees[j]? with
  | some x => { t with trees := t.trees.setIfInBounds j (f x) }
  | none => t

/-- CHRED (R100, R309): a round whose abandonment came first sends nothing and raises RDTMO at the next boundary. -/
def execChred (h : Hdr) (j : BitVec 3) (v : BitVec 5) (cnt32 int : Bool) (t : BitVec 3) (s : State) :
    Host.Outcome State Fault Refusal :=
  runSlot (.chred h j v cnt32 int t) h
    (fun info =>
      { check := fun r =>
          let n := j.toNat
          let x := r.tree n
          let inf := treeInfo n x.count
          Check.all [tagCheck r t inf, need (entryV x.entry && treeChild x.entry .loc) .rdtree 0#64 inf,
            need (x.entry.getLsbD 51 == cnt32 && x.entry.getLsbD 54 == int) .rdtype 0#64 inf,
            waitFor (r.isShadow || x.abandoned.elem x.count || !r.localBusy n) (mkStall .send 0#64 inf)]
        eff := fun r u =>
          let n := j.toNat
          let x := u.tree n
          let data := (upTo (if cnt32 then 2 else 1)).flatMap fun i => (r.rv (v.toNat + i)).toList
          let u1 := u.withTree n fun y => { y with count := (y.count + 1) % 2 ^ 16, abandoned := y.abandoned.filter (· != y.count) }
          let u2 := if x.abandoned.elem x.count then u1.raise .rdtmo (some u.sch.seq) 2 0#64 (treeInfo n x.count)
            else u1.emit false (.partial_ u.coord n .loc x.count data)
          u2.sendTag t 1 info }) s

/-- CHARR (R310): sent, or staged in an open block; its tag waits for the receiver's result. -/
def execCharr (h : Hdr) (c : BitVec 5) (bs : BitVec 4) (l : BitVec 5) (t : BitVec 3) (s : State) :
    Host.Outcome State Fault Refusal :=
  runSlot (.charr h c bs l t) h
    (fun _ =>
      { check := fun r =>
          let n := c.toNat
          let inf := chInfo r n
          Check.all [tagCheck r t inf, routeCheck r n,
            need (decide (1 ≤ (r.rs l).toNat) && decide ((r.rs l).toNat ≤ 65535)) .atomop 0#64 inf,
            need (r.roomFor 32) .cbfull 0#64 inf]
        eff := fun r u =>
          let u := u.allocTag t
          let e : Staged := .arrival c.toNat (r.ra bs) (r.rs l).toNat t
          if u.blocks.isEmpty then u.sendArrival c.toNat false (r.ra bs) (r.rs l).toNat t
          else if u.reading c.toNat then u.sendAfter c.toNat [] [e] else u.stage e }) s

/-- What CHWIN reads (R311). -/
def chwinValue (r : Tile) (c : BitVec 5) (k : BitVec 2) : Word :=
  match k.toNat with
  | 0 => BitVec.ofNat 32 (b2n (r.outCh c.toNat).dead * 2 ^ 31 + (r.outCh c.toNat).credit % 2 ^ 5)
  | 1 => (r.inCh c.toNat).rcnt
  | _ => (r.inCh c.toNat).free

/-- CHWIN (R311). -/
def execChwin (h : Hdr) (c l : BitVec 5) (k : BitVec 2) (s : State) : Host.Outcome State Fault Refusal :=
  runSlot (.chwin h c l k) h (fun _ => { eff := fun r t => t.write1 (r.ws l (chwinValue r c k)) }) s

/-- CHSEQ (R311). -/
def execChseq (h : Hdr) (c l : BitVec 5) (s : State) : Host.Outcome State Fault Refusal :=
  runSlot (.chseq h c l) h
    (fun _ =>
      { check := fun r => need (entryV (r.outCh c.toNat).entry) .chnoroute 0#64 (chInfo r c.toNat)
        eff := fun r t => t.write1 (r.ws l (r.outCh c.toNat).seq) }) s

/-- CBOPEN: the block opens when its bundle closes (R313). -/
def execCbopen (h : Hdr) (sc : BitVec 5) (handler : Word) (s : State) : Host.Outcome State Fault Refusal :=
  runSlot (.cbopen h sc handler) h
    (fun _ =>
      { check := fun t => need (decide (t.blocks.length < 2)) .cbnest
        eff := fun r t => t.atClose (.cbopen handler (rotS r.ctl.rrb sc)) }) s

/-- Whether every instruction issued inside the innermost block has completed or faulted, staged effects exempt, and its
containment errors have been taken (R315). -/
def Tile.blockDone (t : Tile) (seq : Nat) : Bool :=
  let inside (n : Nat) : Bool := decide (seq ≤ n)
  t.sch.flights.all (fun f => !inside f.seq) && t.sch.vops.all (fun o => !inside o.seq)
    && t.accs.all (fun a => !inside a.seq || a.staged || a.dropped) && t.lists.all (fun l => !inside l.seq)
    && t.pad.queue.all (fun q => !inside q.seq) && t.sends.all (fun o => !inside o.seq || o.gone) && t.allQueued.all (fun o => !inside o.seq)
    && t.allFired.all (fun f => !inside f.op.seq)
    && t.sch.pend.all fun p => !isContainment p.cause || (match p.seq with
      | some n => !inside n
      | none => true)

/-- CBCLOSE (R313, R315): a paired tile's outer close waits for the comparison of its effects. -/
def execCbclose (h : Hdr) (s : State) : Host.Outcome State Fault Refusal :=
  runSlot (.cbclose h) h
    (fun _ =>
      { check := fun t =>
          match t.blocks with
          | [] => .raise .cbnest 0#64 0#64 []
          | b :: _ =>
            Check.all [waitFirst (t.blockDone b.seq) (mkStall .plain), waitFirst t.pairClosed (mkStall .pairClose)]
        eff := fun _ t => t.atClose .cbclose }) s

/-- The bulk load PORTW completes: it holds the tag, and its park notice has been delivered (R318). -/
def Tile.portwTarget (t : Tile) (tag : BitVec 3) : Option BulkAcc :=
  t.accs.find? fun a => a.tag == tag && (a.kind == .bldw || a.kind == .bldd) && a.noticed && !a.dropped
    && !(t.sch.pend.any fun p => p.seq == some a.seq)

/-- PORTW sends its value to the load's entry port (R318). -/
def execPortw (h : Hdr) (l : BitVec 5) (t : BitVec 3) (s : State) : Host.Outcome State Fault Refusal :=
  runSlot (.portw h l t) h
    (fun _ =>
      { eff := fun r u =>
          match u.portwTarget t with
          | some a =>
            let data := wordBytes (r.rs l) ++ (if a.kind = .bldd then wordBytes (r.rs (succS l)) else [])
            { u with out := u.out ++ [.portw u.coord a.seq data] }
          | none => u }) s

end Sys2Proof.Machine
end

