-- ==== Sys2Proof/Machine/Sync.lean ====
section
/-! DEFINITION. The K class: waits, fences, guards (R115, R118, R122, R158, R159, R230 to R234). -/

namespace Sys2Proof.Machine

/-- The tags a WAIT's set names: bit i of the field is tag i + 1 (R230). -/
def waitTags (m : BitVec 7) : List Nat := (upTo 7).filterMap fun i => if m.getLsbD i then some (i + 1) else none

/-- WAIT (R158, R159). -/
def execWait (h : Hdr) (m : BitVec 7) (hold : BitVec 3) (s : State) : Host.Outcome State Fault Refusal :=
  runSlot (.wait h m hold) h
    (fun _ =>
      { check := fun t => Check.all [waitFirst (t.settled (waitTags m)) (mkStall .plain), tagDead t (waitTags m)]
        eff := fun _ t => t.addCost hold.toNat }) s

/-- No untagged producer of the E class is on its way: an MXW in the array's queue or fired, a memory send before its hand-off
(Table 07-3; entry 62). -/
def Tile.restLanded (t : Tile) : Bool :=
  t.eng.mx.queue.all (·.tag != 0#3) && t.eng.mx.fired.all (·.op.tag != 0#3) && t.sends.isEmpty

/-- WAITALL (R230). -/
def execWaitall (h : Hdr) (hold : BitVec 3) (s : State) : Host.Outcome State Fault Refusal :=
  runSlot (.waitall h hold) h
    (fun _ =>
      { check := fun t => Check.all [waitFirst (t.settled allTags && t.landed && t.restLanded) (mkStall .plain), tagDead t allTags]
        eff := fun _ t => t.addCost hold.toNat }) s

/-- FENCE sp: every port A access that stores is performed; the queue of port A is in program order (Table 05-7). -/
def Tile.spDone (t : Tile) : Bool := t.pad.queue.isEmpty

/-- Whether an item held for a pair's comparison is a send, an arrival or a contribution (Table 06-7). -/
def PairItem.isSend (x : PairItem) : Bool :=
  match x.item with
  | some (.packet _ _ _ _) | some (.arrival _ _ _ _) | some (.partial_ _ _ _ _ _) => true
  | _ => false

/-- FENCE ch: every send, arrival and contribution has been handed over, a memory send with the release of its tag; a paired
tile's waits for its comparison, but for what a block's close holds (Table 05-7, R123, R142, R305). -/
def Tile.chDone (t : Tile) : Bool :=
  t.sends.all (fun o => o.heads.isNone || !o.effs.isEmpty) && (match t.pair with
    | some p => p.held.all fun x => x.group || !x.isSend
    | none => true)

/-- Whether an access has been answered. -/
def BulkAcc.answered (a : BulkAcc) : Bool :=
  match a.stage with
  | .answered _ _ _ => true
  | _ => false

/-- Whether an access is parked (R72). -/
def BulkAcc.isParked (a : BulkAcc) : Bool :=
  match a.stage with
  | .parked _ _ _ _ => true
  | _ => false

/-- Whether an access is a bulk store. -/
def AccKind.isStore : AccKind → Bool
  | .bstw | .bstd => true
  | _ => false

/-- FENCE bx: every bulk store not staged is performed, every outbound copy complete (Table 05-7, R123). -/
def Tile.bxDone (t : Tile) : Bool :=
  t.accs.all (fun a => !a.kind.isStore || a.staged || a.answered)
    && (upTo 8).all fun i => (t.copyCh i).jobs.all fun j => !j.tpl.out || j.complete

/-- What a FENCE waits for: its bits name sp, eng, ch, bx and all (R231). -/
def Tile.fenceDone (t : Tile) (s : BitVec 5) : Bool :=
  let all := s.getLsbD 4
  (!(s.getLsbD 0 || all) || t.spDone) && (!(s.getLsbD 1 || all) || t.enginesDone)
    && (!(s.getLsbD 2 || all) || t.chDone) && (!(s.getLsbD 3 || all) || t.bxDone)

/-- FENCE (R122, R231). -/
def execFence (h : Hdr) (sr : BitVec 5) (s : State) : Host.Outcome State Fault Refusal :=
  runSlot (.fence h sr) h
    (fun _ => { check := fun t => waitFirst (t.fenceDone sr) (mkStall .plain), eff := fun _ t => t }) s

/-- ACQ: its checks, its entry in the hold table, its request (R115, R116, R232). -/
def execAcq (h : Hdr) (bs : BitVec 4) (bb : BitVec 3) (shared : Bool) (t : BitVec 3) (s : State) :
    Host.Outcome State Fault Refusal :=
  runSlot (.acq h bs bb shared t) h
    (fun _ =>
      { check := fun r =>
          let va := bulkVa r bs bb
          Check.all [r.needTag t (BitVec.ofNat 64 va),
            need (va % 64 == 0 && !(r.holds.any (·.va == va)) && decide (r.holds.length < 4) && r.blocks.isEmpty) .guarderr
              (BitVec.ofNat 64 va)]
        eff := fun r u =>
          let va := bulkVa r bs bb
          { u.allocTag t with
            holds := u.holds ++ [⟨va, shared, none⟩]
            guards := u.guards ++ [⟨u.sch.seq, false, va, none, shared, t, .inTile, false, false⟩] } }) s

/-- REL: its checks, its hold removed, its request, which carries the guard line of the grant (R115, R118). -/
def execRel (h : Hdr) (bs : BitVec 4) (bb t : BitVec 3) (s : State) : Host.Outcome State Fault Refusal :=
  runSlot (.rel h bs bb t) h
    (fun _ =>
      { check := fun r =>
          let va := bulkVa r bs bb
          Check.all [r.needTag t (BitVec.ofNat 64 va), need (r.holds.any (·.va == va) && r.blocks.isEmpty) .guarderr (BitVec.ofNat 64 va)]
        eff := fun r u =>
          let va := bulkVa r bs bb
          match u.holds.find? (·.va == va) with
          | some x =>
            { u.allocTag t with
              holds := u.holds.erase x
              guards := u.guards ++ [⟨u.sch.seq, true, va, x.pa, x.shared, t, .inTile, false, false⟩] }
          | none => u }) s

/-- WAITFE: the granules of its run in one evaluation (R233). -/
def execWaitfe (h : Hdr) (sr : BitVec 5) (bs : BitVec 4) (s : State) : Host.Outcome State Fault Refusal :=
  runSlot (.waitfe h sr bs) h
    (fun _ =>
      { check := fun r =>
          let a := (r.ra bs).toNat
          let l := (upTo (bitsOf sr.toNat 0 4 + 1)).map fun i => itemOf (a + 16 * i) 16
          Check.all [accessCheck r .wideLoad 16 .spalign false l,
            match firstFail (l.map (·.a / 16)) fun g => r.fullView.has g != sr.getLsbD 4 with
            | some g => .early (mkStall .fe (BitVec.ofNat 64 (16 * g)))
            | none => .ok]
        eff := fun _ t => t }) s

/-- Whether cedone has passed an ID (R47). -/
def CopyCh.passed (c : CopyCh) (n : Word) : Bool :=
  let d := (c.done - n).toNat
  decide (1 ≤ d) && decide (d ≤ 2 ^ 31)

/-- CEWAIT (R234). -/
def execCewait (h : Hdr) (sr : BitVec 5) (ch : BitVec 3) (s : State) : Host.Outcome State Fault Refusal :=
  runSlot (.cewait h sr ch) h
    (fun _ =>
      { check := fun r =>
          let c := r.copyCh ch.toNat
          if c.passed (r.rs sr) then .ok
          else if c.halted.isSome then .raise .cestall 0#64 0#64 []
          else .early (mkStall .fe)
        eff := fun _ t => t }) s

end Sys2Proof.Machine
end

