-- ==== Sys2Proof/Machine/Bulk.lean ====
section
/-! DEFINITION. Bulk accesses on their way (R61 to R80): translation at the entry port, parking and retry, fault records,
the target, replicas and locks, answers at the tile. -/

namespace Sys2Proof.Machine

/-- The number of a tile's request (entry 13). -/
def evId (c : Coord) (seq : Nat) : Nat := (c.row * 1000 + c.col) * 2 ^ 32 + seq

/-- The coordinate of the tile that a request's number names (entry 13). -/
def evCoord (id : Nat) : Coord := ⟨id / 2 ^ 32 / 1000, id / 2 ^ 32 % 1000⟩

/-- The request's place in its tile's issue order (entry 13). -/
def evSeq (id : Nat) : Nat := id % 2 ^ 32

/-- The entry port of a tile (R61): Table 03-2 and its substitutions, as the region's ready record has it. -/
def Device.entryPort (dv : Device) (c : Coord) : Nat := (dv.readyOf (regionOf c)).entry

/-- The context of a tile. -/
def Tile.ctx (t : Tile) : Nat := t.ctl.ctxid.toNat

/-- An access of the tile. -/
def Tile.acc? (t : Tile) (seq : Nat) : Option BulkAcc := t.accs.find? (·.seq == seq)

/-- A guard request of the tile. -/
def Tile.guard? (t : Tile) (seq : Nat) : Option GuardReq := t.guards.find? (·.seq == seq)

/-- Replaces an access. -/
def Tile.setAcc (t : Tile) (a : BulkAcc) : Tile := { t with accs := t.accs.map fun x => if x.seq = a.seq then a else x }

/-- Replaces a guard request. -/
def Tile.setGuard (t : Tile) (g : GuardReq) : Tile :=
  { t with guards := t.guards.map fun x => if x.seq = g.seq then g else x }

/-- Removes an access. -/
def Tile.dropAcc (t : Tile) (seq : Nat) : Tile := { t with accs := t.accs.filter (·.seq != seq) }

/-- Who asks a port to translate, as its fault record names it: tile, context, node, place in issue order, copy channel and
transfer ID, address, KIND, write (Table 03-6). -/
structure Asker where
  who : Coord
  ctx : Nat
  node : Nat
  acc : Nat
  copy : Option (Nat × Nat)
  va : Nat
  kind : Nat
  write : Bool
  deriving DecidableEq, Repr

/-- A fault record as a number (Table 03-6). -/
def faultBits (a : Asker) (f : XFault) (port idx seqn : Nat) (parked : Bool) : Nat :=
  atBits 0 64 a.va + atBits 64 8 a.ctx + atBits 72 8 f.cause.code + atBits 80 10 idx + atBits 90 6 port
    + atBits 96 10 a.who.row + atBits 106 10 a.who.col + atBits 116 4 a.kind + atBits 120 1 (b2n a.write)
    + atBits 121 1 (b2n parked) + (match a.copy with
      | some (ch, id) => atBits 128 32 id + atBits 160 3 ch
      | none => 0)
    + atBits 172 4 f.reason + atBits 176 4 f.level + atBits 192 64 f.pte + atBits 256 32 a.node + atBits 288 32 seqn

/-- A Flue port. -/
def Device.port (dv : Device) (p : Nat) : FluePort := (dv.ports[p]?).getD ⟨0, []⟩

/-- Replaces a Flue port. -/
def Device.setPort (dv : Device) (p : Nat) (x : FluePort) : Device := { dv with ports := setAt dv.ports p x }

/-- The lowest retry-ring entry not in use: the one a park takes (entry 74). -/
def freeIdx (l : List RetryEntry) : Nat := ((upTo 1024).find? fun i => !(l.any (·.idx == i))).getD 1023

/-- PARK (R72): a retry-ring entry, a new SEQ, one more than the last (entry 74), a fault record; with no free entry only the
record, whose ENTRY and SEQ then are free (entry 7). The entry taken, and SEQ. -/
def Device.park (dv : Device) (p : Nat) (a : Asker) (f : XFault) : Option Nat × Nat × Device :=
  let x := dv.port p
  if x.retry.length ≥ 1024 then
    let idx := dv.freeBits 10
    let seqn := dv.draw.freeBits 32
    (none, seqn, dv.draw.draw.reportFault a.ctx p (faultBits a f p idx seqn false))
  else
    let idx := freeIdx x.retry
    let seqn := (x.seqn + 1) % 2 ^ 32
    let dv := dv.setPort p ⟨seqn, x.retry ++ [⟨idx, seqn, a.who, a.acc, a.copy.map (·.1), f.cause⟩]⟩
    (some idx, seqn, dv.reportFault a.ctx p (faultBits a f p idx seqn true))

/-- Whether a fault record of a context waits at a port, so that its further faulting accesses wait (R73). -/
def Device.recordWaits (dv : Device) (p ctx : Nat) : Bool := dv.faults.any fun h => h.ctx == ctx && h.port == p

/-- Clears the entry of a parked access, if it still holds it (R74). -/
def Device.unpark (dv : Device) (p idx seqn : Nat) : Device :=
  let x := dv.port p
  dv.setPort p { x with retry := x.retry.filter fun e => !(e.idx == idx && e.seqn == seqn) }

/-- The KIND of an access in fault records (Table 03-6, R244). -/
def AccKind.code : AccKind → Nat
  | .bldw => 0
  | .bldd => 1
  | .bstw => 2
  | .bstd => 3
  | .copyIn => 4
  | .copyOut => 5
  | .spill => 3
  | .fill => 1
  | .acq => 6
  | .rel => 6

/-- Whether an access writes. -/
def AccKind.writes : AccKind → Bool
  | .bstw | .bstd | .spill | .copyOut => true
  | _ => false

/-- The translations of a tile's inbound copy lines that stall at a locked replica (R79). -/
def Tile.lockedLines (t : Tile) : List Xlat :=
  t.copy.ch.toList.flatMap fun c => c.jobs.filterMap fun (j : CopyJob) => j.lock.map (·.2)

/-- Requests of a tile at a port as their target, lines of its copies that stall there among them: a read is at the port of the
replica that serves it, a store and a guard request at the home port (R62, R78, R79, R116). -/
def Device.tileAtPort (dv : Device) (t : Tile) (p : Nat) : Nat :=
  let e := dv.entryPort t.coord
  (t.accs.filter fun a => match a.stage with
    | .atTarget x | .locked x _ => x.tgt == 0 && dv.targetPort e a.kind.writes x == p
    | _ => false).length
    + (t.guards.filter fun g => match g.stage with
      | .sent x => stackOf x.pa == p
      | _ => false).length
    + (t.lockedLines.filter fun x => dv.targetPort e false x == p).length

/-- Accesses in progress at a port: requests at it as their target, its retry ring, its guard FIFO (R62, R116). -/
def State.atPort (s : State) (p : Nat) : Nat :=
  ((s.core :: s.others).foldl (fun n t => n + s.dev.tileAtPort t p) 0)
    + (s.dev.port p).retry.length + (s.dev.waits.filter fun w => stackOf w.line == p).length

/-- Whether a port holds as many accesses as it can: further ones wait in the fabric (R62). -/
def State.portFull (s : State) (p : Nat) : Bool := decide (8192 ≤ s.atPort p)

/-- The bulk address of row `i` of a copy (R50). -/
def Template.rowVa (p : Template) (i : Nat) : Nat := (((p.vaddr : Int) + i * p.bstride) % 2 ^ 64).toNat

/-- Whether a copy has stopped with its channel: the faulting copy and every later one (R256). -/
def CopyCh.stopped (c : CopyCh) (j : CopyJob) : Bool :=
  match c.halted with
  | some h => h == j.id || !decide ((h - j.id).toNat < 2 ^ 31)
  | none => false

/-- Whether a copy has still to perform a bulk line: one of its row from its next line on, or of a later row (R50). -/
def CopyJob.touches (j : CopyJob) (line : Nat) : Bool :=
  !j.complete && !j.rowsDone && (upTo (j.tpl.rows - j.row)).any fun i =>
    let va := j.tpl.rowVa (j.row + i)
    let k := (line + 2 ^ 58 - lineOf va) % 2 ^ 58
    decide (k ≤ (va % 64 + j.tpl.rowbytes - 1) / 64) && (i != 0 || decide (j.line ≤ k))

/-- Whether an access of port A starts a copy. -/
def PortAct.isStart : PortAct → Bool
  | .start _ _ _ => true
  | _ => false

/-- Whether an earlier load, store or copy of the tile to the same virtual line has not been performed (R71); a staged store is
not in the way, for it has not been handed over (R314), and a copy not yet accepted is. -/
def Tile.plainBusy (t : Tile) (seq va : Nat) : Bool :=
  (t.accs.any fun a => decide (a.seq < seq) && lineOf a.va == lineOf va && !a.answered && !a.dropped && !a.staged)
    || (t.pad.queue.any fun q => decide (q.seq < seq) && q.act.isStart)
    || (upTo 8).any fun n => (t.copyCh n).jobs.any fun j =>
      decide (j.seq < seq) && !(t.copyCh n).stopped j && j.touches (lineOf va)

/-- Whether an earlier access of the tile to the same virtual line, a guard request among them, has not been performed (R71). -/
def Tile.lineBusy (t : Tile) (seq va : Nat) : Bool :=
  t.plainBusy seq va || t.guards.any fun g => decide (g.seq < seq) && lineOf g.va == lineOf va && (match g.stage with
    | .answered _ _ => false
    | _ => true)

/-- INFO of a bulk access or park notice (Table 16-3). -/
def bulkInfo (parked : Bool) (seqn : Nat) : DWord := BitVec.ofNat 64 (b2n parked * 2 ^ 32 + seqn)

/-- Who asks, for an access. -/
def Tile.asker (t : Tile) (a : BulkAcc) : Asker :=
  ⟨t.coord, t.ctx, t.ctl.nodeid.toNat, a.seq, none, a.va, a.kind.code, a.kind.writes⟩

/-- A translation at the entry port, and what becomes of a fault: the stage of the access, whether it has parked, and the
device; none while the port holds a fault record of the context back (R64, R72, R73). -/
def Device.takeIn (dv : Device) (p : Nat) (a : Asker) (r : Except XFault Xlat × Device) :
    Option (Except (Option Nat × Nat × Cause) Xlat × Device) :=
  match r.1 with
  | .ok x => some (.ok x, r.2)
  | .error f =>
    if !dv.ctxValid a.ctx then some (.error (none, 0, f.cause), r.2)
    else if dv.recordWaits p a.ctx then none
    else
      let k := r.2.park p a f
      some (.error (k.1, k.2.1, f.cause), k.2.2)

/-- A translation at an entry port: a faulting access that would park waits while the port holds all it can (R62). -/
def State.takeIn (s : State) (p : Nat) (a : Asker) (r : Except XFault Xlat × Device) :
    Option (Except (Option Nat × Nat × Cause) Xlat × Device) :=
  if (match r.1 with
      | .ok _ => false
      | .error _ => s.dev.ctxValid a.ctx && s.portFull p) then none else s.dev.takeIn p a r

/-- The key of an access in its pair's comparison: the elements of a SPILL are told apart by their addresses. -/
def BulkAcc.pairKey (a : BulkAcc) : Nat := accKey a.seq + if a.kind == .spill then a.va / 4 % 2 ^ 16 * 2 ^ 32 else 0

/-- An access is over: it leaves the tile, and its key the comparison. -/
def Tile.overAcc (t : Tile) (a : BulkAcc) : Tile := (t.dropAcc a.seq).pairOver a.pairKey

/-- A bulk access reaches its entry port: translated and forwarded, parked, or failed (R64, R72). A store of a paired tile
is compared first; a shadow's goes no further (R142). -/
def bulkRequestAcc (s : State) (t : Tile) (a : BulkAcc) : State :=
  let store := a.kind.isStore || a.kind == .spill
  if a.dropped then s.setTile (t.overAcc a)
  else if a.stage != .inTile || a.staged || t.acqOpen a.seq || t.lineBusy a.seq a.va then s
  else if store && t.isShadow then
    s.setTile (((t.pairGate a.pairKey a.pairBytes).1.pairOver a.pairKey).setAcc { a with stage := .answered none [] none })
  else
    let g := if store then t.pairGate a.pairKey a.pairBytes else (t, true)
    if !g.2 then s.setTile g.1
    else
      let p := s.dev.entryPort t.coord
      match s.takeIn p (t.asker a) (s.dev.translate p t.ctx a.va a.kind.writes) with
      | none => s
      | some (.ok x, dv) =>
        if x.tgt = 0 && s.portFull (s.dev.targetPort p a.kind.writes x) then s
        else if s.dev.keyLeaves t.ctx x then
          ({ s with dev := dv }).setTile (g.1.setAcc { a with stage := .answered (some .bxkey) [] none })
        else ({ s with dev := dv }).setTile (g.1.setAcc { a with stage := .atTarget x })
      | some (.error (some idx, seqn, c), dv) =>
        ({ s with dev := dv }).setTile (g.1.setAcc { a with stage := .parked p idx seqn c, notice := true })
      | some (.error (none, seqn, c), dv) =>
        ({ s with dev := dv }).setTile (g.1.setAcc { a with stage := .answered (some c) (valBytes 4 seqn) none })

/-- An ACQ reaches its entry port (R116): it needs both permissions, an HBM target and no replicas. -/
def bulkRequestAcq (s : State) (t : Tile) (g : GuardReq) : State :=
  if g.stage != .inTile || g.rel || t.lineBusy g.seq g.va then s
  else
    let k := guardKey g.seq
    let bytes := valBytes 8 g.va ++ valBytes 1 (b2n g.shared)
    if t.isShadow then
      match t.pair with
      | some p => if p.ok.elem k then s else s.setTile (t.pairGate k bytes).1
      | none => s
    else
      let gate := t.pairGate k bytes
      if !gate.2 then s.setTile gate.1
      else
        let p := s.dev.entryPort t.coord
        let r := s.dev.translate p t.ctx g.va false
        let q := match r.1 with
          | .ok _ => (r.2.translate p t.ctx g.va true, true)
          | .error _ => (r, false)
        let a : Asker := ⟨t.coord, t.ctx, t.ctl.nodeid.toNat, g.seq, none, g.va, 6, q.2⟩
        match s.takeIn p a q.1 with
        | none => s
        | some (.ok x, dv) =>
          if x.tgt = 0 && s.portFull (stackOf x.pa) then s
          else
          let st := if x.tgt != 0 || !x.reps.isEmpty then .answered (some .guarderr) none
            else if s.dev.keyLeaves t.ctx x then .answered (some .bxkey) none else GuardStage.sent x
          ({ s with dev := dv }).setTile (gate.1.setGuard { g with stage := st })
        | some (.error (some idx, seqn, c), dv) =>
          ({ s with dev := dv }).setTile (gate.1.setGuard { g with stage := .parked p idx seqn c, notice := true })
        | some (.error (none, _, c), dv) =>
          ({ s with dev := dv }).setTile (gate.1.setGuard { g with stage := .answered (some c) none })

/-- Changes a tile and its access, where both exist. -/
def State.withAcc (s : State) (id : Nat) (f : Tile → BulkAcc → State) : State :=
  match s.tileAt (evCoord id) with
  | some t => match t.acc? (evSeq id) with
    | some a => f t a
    | none => s
  | none => s

/-- Changes a tile and its guard request, where both exist. -/
def State.withGuard (s : State) (id : Nat) (f : Tile → GuardReq → State) : State :=
  match s.tileAt (evCoord id) with
  | some t => match t.guard? (evSeq id) with
    | some g => f t g
    | none => s
  | none => s

/-- Whether a request of a stopped tile goes on until its core has stopped: a store, and an acquire that an issued release waits
for; so every release issued before the stop can leave (R120, R337; entry 65). -/
def Tile.goesOn (t : Tile) (seq : Nat) : Bool :=
  t.sch.status == .stopped && !t.acks.elem .core && ((t.accs.any fun a => a.seq == seq && a.kind.isStore)
    || t.guards.any fun g => g.seq == seq && !g.rel && t.guards.any fun r => r.rel && r.va == g.va && decide (g.seq < r.seq))

/-- A request reaches its entry port. -/
def State.bulkRequest (s : State) (id : Nat) : State :=
  match s.tileAt (evCoord id) with
  | some t =>
    if t.frozen && !t.goesOn (evSeq id) then s
    else match t.acc? (evSeq id) with
    | some a => bulkRequestAcc s t a
    | none => s.withGuard id (bulkRequestAcq s)
  | none => s

/-- BULK_REQUEST (R64, R72). -/
def execBulkRequest (id : Nat) (s : State) : Host.Outcome State Fault Refusal := .next (s.bulkRequest id)

/-- FAULT_RECORD_RELEASE: the oldest fault record held for a context is written once its ring has space (R73). -/
def Device.faultRelease (dv : Device) (ctx : Nat) : Device :=
  match dv.faults.find? (·.ctx == ctx) with
  | some h =>
    let d := dv.desc ctx
    if (bitsOf d 208 32 + 2 ^ 32 - bitsOf d 240 32) % 2 ^ 32 = 2 ^ (bitsOf d 192 4 + 6) then dv
    else ({ dv with faults := dv.faults.erase h }).reportFault ctx h.port h.bits
  | none => dv

/-- FAULT_RECORD_RELEASE (R73). -/
def execFaultRecordRelease (ctx : BitVec 8) (s : State) : Host.Outcome State Fault Refusal :=
  .next (s.withDev fun dv => dv.faultRelease ctx.toNat)

/-- The data an access takes from the line at its target. -/
def BulkAcc.take (a : BulkAcc) (x : Xlat) (line : List Byte) : List Byte := (line.drop (x.pa % 64)).take a.len

/-- A load or a FILL element is performed at its target (R70, R78, R80), or stalls at the locked replica that it comes to
(R79). -/
def State.readAcc (s : State) (t : Tile) (a : BulkAcc) (x : Xlat) : State :=
  let r := s.dev.readTarget (s.dev.entryPort t.coord) t.ctx x
  ({ s with dev := r.2 }).setTile (t.setAcc { a with
    stage := match r.1 with
      | some (none, line) => .answered none (a.take x line) (some line)
      | some (some c, _) => .answered (some c) [] none
      | none => .locked x s.dev.now })

/-- BULK_PERFORM: an access at its target (R70, R76, R77): a read of a locked replica line stalls there; a store to a
replicated line is REPLICA_COMMIT's. An access waits at a port that is not yet ready (R394). -/
def State.bulkPerform (s : State) (id : Nat) : State :=
  s.withAcc id fun t a =>
    match a.stage with
    | .atTarget x =>
      if s.dev.awaits x then s
      else if a.kind.writes then
        if !x.reps.isEmpty then s
        else
          let r := s.dev.writeTarget t.ctx x a.data false
          ({ s with dev := r.2 }).setTile (t.setAcc { a with stage := .answered r.1 [] none })
      else if s.dev.readLocked (s.dev.entryPort t.coord) x then s.setTile (t.setAcc { a with stage := .locked x s.dev.now })
      else s.readAcc t a x
    | _ => s

/-- BULK_PERFORM (R70). -/
def execBulkPerform (id : Nat) (s : State) : Host.Outcome State Fault Refusal := .next (s.bulkPerform id)

/-- REPLICA_COMMIT: a store to a replicated line commits, unless one of its replica lines is locked by another home
(R78). -/
def State.replicaCommit (s : State) (id : Nat) : State :=
  s.withAcc id fun t a =>
    match a.stage with
    | .atTarget x =>
      if !a.kind.writes || x.reps.isEmpty || s.dev.awaits x || x.replicas.any s.dev.locked then s
      else
        let r := s.dev.commit t.ctx x a.data false
        ({ s with dev := r.2 }).setTile (t.setAcc { a with stage := .answered r.1 [] none })
    | _ => s

/-- REPLICA_COMMIT (R78). -/
def execReplicaCommit (id : Nat) (s : State) : Host.Outcome State Fault Refusal := .next (s.replicaCommit id)

/-- LOCKED_READ_RESUME: a read stalled at a locked line reads the new data once the line unlocks (R79). -/
def State.lockedResume (s : State) (id : Nat) : State :=
  s.withAcc id fun t a =>
    match a.stage with
    | .locked x _ => if s.dev.readLocked (s.dev.entryPort t.coord) x then s else s.readAcc t a x
    | _ => s

/-- LOCKED_READ_RESUME (R79). -/
def execLockedReadResume (id : Nat) (s : State) : Host.Outcome State Fault Refusal := .next (s.lockedResume id)

/-- HOME_LOCK_RELEASE: the surviving ports release the locks of a failed home port (R79). -/
def execHomeLockRelease (port : Nat) (s : State) : Host.Outcome State Fault Refusal :=
  .next (s.withDev fun dv => { dv with locks := dv.locks.filter (·.home != port) })

/-- An access in flight to the outside fails: a write may or may not have been performed, as a free choice (R77). -/
def State.failOut (s : State) (t : Tile) (a : BulkAcc) (x : Xlat) (c : Cause) : State :=
  let done := a.kind.writes && Config.freeBit s.dev.free
  let dv := if done then ((s.dev.draw).writeTarget t.ctx x a.data false).2 else s.dev.draw
  ({ s with dev := dv }).setTile (t.setAcc { a with stage := .answered (some c) [] none })

/-- Whether a translated access goes over a link to the outside. -/
def Xlat.over (x : Xlat) : ExtLink → Bool
  | .hostPort n => x.tgt == 1 && x.hport == n
  | .optical n => x.tgt == 2 && x.oport == n

/-- Every access of a tile in flight over a link fails (R77). -/
def State.dropTile (l : ExtLink) (c : Cause) (s : State) (co : Coord) : State :=
  match s.tileAt co with
  | some t => (t.accs.map (·.seq)).foldl (fun (s : State) seq => s.withAcc ((co.row * 1000 + co.col) * 2 ^ 32 + seq) fun t a =>
      match a.stage with
      | .atTarget x => if x.over l then s.failOut t a x c else s
      | _ => s) s
  | none => s

/-- EXTERNAL_LINK_DROP: every access in flight over the link fails with BXHOST or BXPEER; the link is down, which is a
change of its ready record (R77, R391, R394). -/
def State.linkDrop (s : State) (l : ExtLink) : State :=
  let cs := (s.core :: s.others).map (·.coord)
  match l with
  | .hostPort n =>
    if n < 4 then (cs.foldl (State.dropTile l .bxhost) s).withDev fun dv =>
      dv.setReady (104 + n) fun r => { r with ready := false, kstate := 0 }
    else s
  | .optical n =>
    if n < 32 then (cs.foldl (State.dropTile l .bxpeer) s).withDev fun dv => dv.setReady (108 + n) fun r => { r with kstate := 0 }
    else s

/-- EXTERNAL_LINK_DROP (R77). -/
def execExternalLinkDrop (l : ExtLink) (s : State) : Host.Outcome State Fault Refusal := .next (s.linkDrop l)

/-- A copy job of a channel, by its transfer ID. -/
def CopyCh.job (c : CopyCh) (id : Word) : Option CopyJob := c.jobs.find? (·.id == id)

/-- Replaces a copy channel. -/
def Tile.setCopyCh (t : Tile) (n : Nat) (c : CopyCh) : Tile := { t with copy := { t.copy with ch := t.copy.ch.setIfInBounds n c } }

/-- Replaces a copy job. -/
def CopyCh.setJob (c : CopyCh) (j : CopyJob) : CopyCh := { c with jobs := c.jobs.map fun x => if x.id = j.id then j else x }

/-- COPY_HALT (R256): the channel halts at the faulting copy, the first halt is recorded in ceerr, and a trap is due. -/
def Tile.haltCopy (t : Tile) (n : Nat) (id : Word) (c : Cause) : Tile :=
  let ch := t.copyCh n
  let t := t.setCopyCh n { ch with
    halted := match ch.halted with
      | some x => if (id - x).toNat < 2 ^ 31 then some x else some id
      | none => some id
    jobs := ch.jobs.map fun j => if j.id = id then { j with parked := none, lock := none } else j }
  let t := if t.copy.fvalid then t else { t with copy := { t.copy with fvalid := true, fch := n, fcause := c.code } }
  t.raise c none 1 0#64 (BitVec.ofNat 64 (n * 2 ^ 32 + id.toNat))

/-- A retry word (Table 03-7): its entry, SEQ, and whether its zero bits are zero. -/
def retryEntry (dv : Device) (port : Nat) (w : DWord) : Option RetryEntry :=
  if bitsOf w.toNat 11 21 != 0 then none
  else (dv.port port).retry.find? fun e => e.idx == bitsOf w.toNat 0 10 && e.seqn == bitsOf w.toNat 32 32

/-- Whether a parked stage is the one an entry holds. -/
def RetryEntry.holds (e : RetryEntry) (port : Nat) (st : Nat × Nat × Nat) : Bool := st == (port, e.idx, e.seqn)

/-- A parked copy row is released: replayed when the channel next performs a row, or failed (R74, R75). -/
def Tile.retryCopy (t : Tile) (n port : Nat) (e : RetryEntry) (fail : Bool) : Tile :=
  match (t.copyCh n).jobs.find? fun j => match j.parked with
      | some p => e.holds port p
      | none => false with
  | some j =>
    let t := t.setCopyCh n ((t.copyCh n).setJob { j with parked := none })
    if fail then t.haltCopy n j.id e.cause else t
  | none => t

/-- The parked access or guard request of an entry is released: replayed, or failed with its cause (R74, R116). A PORTW still on
its way to it will find it gone (R318). -/
def Tile.retryAcc (t : Tile) (port : Nat) (e : RetryEntry) (fail : Bool) : Tile :=
  { t with
    out := t.out.filter fun m => match m with
      | .portw _ q _ => q != e.acc
      | _ => true
    accs := t.accs.map fun (a : BulkAcc) => match a.stage with
      | .parked p i q c => if a.seq == e.acc && e.holds port (p, i, q) then
          { a with stage := if fail then .answered (some c) (valBytes 4 q) none else .inTile } else a
      | _ => a
    guards := t.guards.map fun (g : GuardReq) => match g.stage with
      | .parked p i q c => if g.seq == e.acc && e.holds port (p, i, q) then
          { g with stage := if fail then .answered (some c) none else .inTile } else g
      | _ => g }

/-- The parked access of a retry word leaves its entry (R74). -/
def State.retry (s : State) (port : Nat) (w : DWord) (fail : Bool) : State :=
  match retryEntry s.dev port w with
  | some e =>
    if bitOf w.toNat 10 != fail then s
    else
      let s := s.withDev fun dv => dv.unpark port e.idx e.seqn
      s.onTile e.who fun t => match e.copy with
        | some n => t.retryCopy n port e fail
        | none => t.retryAcc port e fail
  | none => s

/-- RETRY_REPLAY: the parked access is replayed, that is translated again at the port at once (R74). -/
def State.retryReplay (s : State) (port : Nat) (w : DWord) : State :=
  match retryEntry s.dev port w with
  | some e => (s.retry port w false).bulkRequest ((e.who.row * 1000 + e.who.col) * 2 ^ 32 + e.acc)
  | none => s

/-- RETRY_REPLAY (R74). -/
def execRetryReplay (port : Nat) (word : DWord) (s : State) : Host.Outcome State Fault Refusal :=
  .next (s.retryReplay port word)

/-- RETRY_ABORT (R74). -/
def execRetryAbort (port : Nat) (word : DWord) (s : State) : Host.Outcome State Fault Refusal :=
  .next (s.retry port word true)

/-- PORTW reaches its port (R318): if the load still sits in its entry, the value becomes its data; else it is
discarded. -/
def State.portwAtPort (s : State) (id : Nat) : State :=
  match s.tileAt (evCoord id) with
  | some t =>
    match t.out.find? (fun m => match m with
        | .portw _ q _ => q == evSeq id
        | _ => false) with
    | some m =>
      let t := { t with out := t.out.erase m }
      match m, t.acc? (evSeq id) with
      | .portw _ _ data, some a => match a.stage with
        | .parked p i q _ =>
          (s.withDev fun dv => dv.unpark p i q).setTile (t.setAcc { a with stage := .answered none (data.take a.len) none })
        | _ => s.setTile t
      | _, _ => s.setTile t
    | none => s
  | none => s

/-- PORTW_AT_PORT (R318). -/
def execPortwAtPort (id : Nat) (s : State) : Host.Outcome State Fault Refusal := .next (s.portwAtPort id)

/-- The register writes of a load from its data: one word for each destination (R254). -/
def BulkAcc.loadWrites (a : BulkAcc) : List RegWrite :=
  ((upTo a.dest.length).zip a.dest).map fun x => .s x.2 (BitVec.ofNat 32 (bytesVal ((a.data.drop (4 * x.1)).take 4)))

/-- A line is placed in the read buffer, replacing the least recently used of 64 (R80). -/
def Pad.placeLine (p : Pad) (line : Nat) (bytes : List Byte) : Pad :=
  { p with buf := (⟨line, bytes⟩ :: p.buf.filter (·.line != line)).take 64 }

/-- The line that a load brings is placed as it was served: no byte of it comes from a later moment (R80, R107; entry 66). -/
def Tile.place (t : Tile) (a : BulkAcc) (line : List Byte) : Tile := t.withPad fun p => p.placeLine (lineOf a.va) line

/-- Lines leave the read buffer, those that answers still on their way would place too (R80). -/
def Tile.forgetLines (t : Tile) (gone : Nat → Bool) : Tile :=
  { t.withPad fun p => { p with buf := p.buf.filter fun b => !gone b.line } with
    accs := t.accs.map fun (a : BulkAcc) => match a.stage with
      | .answered c d (some _) => if gone (lineOf a.va) then { a with stage := .answered c d none } else a
      | _ => a }

/-- The whole read buffer is invalidated (R80). -/
def Tile.emptyBuffer (t : Tile) : Tile := t.forgetLines fun _ => true

/-- Whether an earlier access to the same line has still to be answered at the tile: answers about a line come in order (R113). -/
def Tile.olderOn (t : Tile) (a : BulkAcc) : Bool :=
  t.accs.any fun x => decide (x.seq < a.seq) && lineOf x.va == lineOf a.va && !x.staged && !x.dropped

/-- A load, store or list element that has been answered: registers, tag and buffer, or the fault of Table 03-8. -/
def Tile.answerAcc (t : Tile) (a : BulkAcc) (cause : Option Cause) (data : List Byte) (line : Option (List Byte)) : Tile :=
  let fa := BitVec.ofNat 64 a.va
  let inf := bulkInfo false (bytesVal data)
  match a.kind with
  | .spill | .fill =>
    match t.lists.find? (·.seq == a.seq) with
    | none => t
    | some l =>
      let t := t.overAcc a
      match cause with
      | some c => (t.setList { l with waiting := false }).raise c (some a.seq) 1 fa inf
      | none =>
        let l' := { l with waiting := false, k := l.k + 1 }
        let t := if l.fill then
            t.landWrites l.seq [elementWrite l.file ((l.order[l.k]?.bind fun i => l.regs[i]?).getD 0) data] else t
        Tile.runList (t.sch.cycle + 1) t.sch.cycle (l.order.length + 1) (t.setList l') l'
  | _ =>
    let t := t.overAcc a
    match cause with
    | some c =>
      let t := t.setTag a.tag.toNat .faulted
      if a.noticed then t.detect c else t.raise c (some a.seq) 1 fa inf
    | none =>
      let t := t.setTag a.tag.toNat .free
      if a.kind.isStore then t
      else
        let t := t.landWrites a.seq (BulkAcc.loadWrites { a with data := data })
        match line with
        | some b => t.place a b
        | none => t

/-- BULK_RESPONSE: an answer or a park notice reaches the tile (R75, R80, R126). The element of a list operation that a
trap has captured waits for RFT (R324). -/
def Tile.bulkResponse (t : Tile) (seq : Nat) : Tile :=
  match t.acc? seq with
  | some a =>
    match a.stage with
    | .answered c data line =>
      if a.dropped then t.overAcc a else if t.olderOn a then t else t.answerAcc a c data line
    | .parked _ _ q c =>
      if a.notice && !a.dropped then
        (t.setAcc { a with notice := false, noticed := true }).raise c (some seq) 1 (BitVec.ofNat 64 a.va) (bulkInfo true q)
      else t
    | _ => t
  | none => t

/-- A parked access that an abort has discarded is cleared at its port (R316). -/
def State.clearDropped (s : State) (id : Nat) : State :=
  s.withAcc id fun t a =>
    match a.stage with
    | .parked p i q _ => if a.dropped then (s.withDev fun dv => dv.unpark p i q).setTile (t.dropAcc a.seq) else s
    | _ => s

/-- The HBM tag detector of a tile's bulk reads under injection: a read that succeeds reports BXTAG instead (R375). -/
def Tile.injectTag (t : Tile) (seq : Nat) : Tile :=
  match t.acc? seq with
  | some a =>
    match a.stage with
    | .answered none _ _ =>
      if t.inj.has 9 && !a.kind.writes && !a.dropped then
        { (t.setAcc { a with stage := .answered (some .bxtag) [] none }) with inj := t.inj.hit 9 }
      else t
    | _ => t
  | none => t

/-- BULK_RESPONSE (R75). -/
def execBulkResponse (id : Nat) (s : State) : Host.Outcome State Fault Refusal :=
  .next ((s.clearDropped id).onTile (evCoord id) fun t => (t.injectTag (evSeq id)).bulkResponse (evSeq id))

end Sys2Proof.Machine
end

