-- ==== Sys2Proof/Machine/Copies.lean ====
section
/-! DEFINITION. Copies row by row and line by line (R47, R50, R256), their completion, and the time-outs that bulk accesses and
copy lines share (R77, R79). -/

namespace Sys2Proof.Machine

/-- The number of a copy channel of a tile in the device's steps: the last eight places of its issue order (entry 13). -/
def copyId (c : Coord) (ch : Nat) : Nat := evId c (2 ^ 32 - 8 + ch)

/-- The scratchpad address of byte `j` of row `i` of a copy (R50). -/
def Template.spAt (p : Template) (i j : Nat) : Nat :=
  if p.ring then p.spaddr + (16 * p.cursor + i * p.sstride + j) % (64 * p.ringln)
  else if p.swz then swizzle p.spaddr (p.rowbytes / 64) i j
  else p.spaddr + i * p.sstride + j

/-- The lines of a row: address, first byte in the row, length. -/
def Template.rowLines (p : Template) (i : Nat) : List (Nat × Nat × Nat) :=
  let va := p.rowVa i
  (linePieces (p.rowbytes / 64 + 2) va p.rowbytes).map fun x => (x.1 % 2 ^ 64, x.1 - va, x.2)

/-- Bytes of the copy performed so far, in the order of its rows and lines. -/
def CopyJob.moved (j : CopyJob) : Nat :=
  j.row * j.tpl.rowbytes + ((((j.tpl.rowLines j.row)[j.line]?).map (·.2.1)).getD 0)

/-- Bytes of the line performed last. -/
def CopyJob.lastLen (j : CopyJob) : Nat :=
  if 0 < j.line then ((((j.tpl.rowLines j.row)[j.line - 1]?).map (·.2.2)).getD 0)
  else if 0 < j.row then (((j.tpl.rowLines (j.row - 1)).getLast?).map (·.2.2)).getD 0
  else 0

/-- Whether a copy stands where a stop may leave it: nothing moved, or its last line has completed a chunk of 4 KiB of what it
moves (R256, R337; entry 67). -/
def CopyJob.atChunk (j : CopyJob) : Bool := decide (j.moved = 0) || decide (j.moved % 4096 < j.lastLen)

/-- Whether a copy can go on: neither complete, stopped, parked, nor behind an open ACQ (R50, R117, R256). -/
def CopyCh.canRun (c : CopyCh) (j : CopyJob) : Bool :=
  !j.complete && !j.rowsDone && j.parked.isNone && !j.held && !c.stopped j

/-- The copy whose row comes next: the first that can go on. -/
def CopyCh.runnable (c : CopyCh) : Option CopyJob := c.jobs.find? c.canRun

/-- Whether an issued release waits for an outbound copy (R118). -/
def Tile.relWaits (t : Tile) (j : CopyJob) : Bool :=
  j.tpl.out && t.guards.any fun g => g.rel && decide (j.seq < g.seq) && (match g.stage with
    | .answered _ _ => false
    | _ => true)

/-- Whether a copy goes on under a stop: to the end of its chunk, as long as an issued release waits for it, and with a line that
stalls at its target (R79, R120, R337; entry 65). -/
def Tile.goesOnTo (t : Tile) (j : CopyJob) : Bool := !j.atChunk || t.relWaits j || j.lock.isSome

/-- The copy whose row comes next, under a stop or not. -/
def Tile.copyNext (t : Tile) (n : Nat) (stop : Bool) : Option CopyJob :=
  if stop then (t.copyCh n).jobs.find? fun j => (t.copyCh n).canRun j && t.goesOnTo j else (t.copyCh n).runnable

/-- Whether the copies of a tile are told to stop: with its node or a migration, or as what a failed node left (R139, R337). -/
def State.copyStop (s : State) (t : Tile) : Bool :=
  s.dev.stopTold t.coord || (t.sch.status == .halted && (s.dev.nodeAt t.coord).isNone)

/-- What comes of a line of a row: performed; it waits; it stalls at a locked replica; it parks; it halts its channel. -/
inductive LineEnd where
  | done | waits
  | stalls (x : Xlat)
  | parked (port idx seqn : Nat)
  | halts (c : Cause)
  deriving DecidableEq, Repr

/-- An inbound line: read at its target and written through port B, poisoned where it fails with BXECC or BXTAG (R40, R41, R77);
any other failure halts, and it stalls at the locked replica that it comes to (R79). What the bytes under the poison are, no rule
states: the line's as they lie there, or zeros where none is read (entry 83). -/
def State.lineIn (s : State) (t : Tile) (j : CopyJob) (x : Xlat) (off len : Nat) : LineEnd × State :=
  let p := j.tpl
  let q := s.dev.readTarget (s.dev.entryPort t.coord) t.ctx x
  let s := { s with dev := q.2 }
  match q.1 with
  | none => (.stalls x, s)
  | some r =>
  let tagged := t.inj.has 9 && r.1.isNone
  let t := if tagged then { t with inj := t.inj.hit 9 } else t
  let r := if tagged then (some .bxtag, r.2) else r
  let bad := r.1 == some .bxecc || r.1 == some .bxtag
  match r.1.filter fun _ => !bad with
  | some c => (.halts c, s)
  | none =>
    let data := (r.2.drop (x.pa % 64)).take len
    let data := data ++ List.replicate (len - data.length) 0#8
    let cells := ((upTo len).zip data).map fun y => (p.spAt j.row (off + y.1), y.2)
    let gs := granSet (cells.map (·.1))
    let t := if p.setf then t.beforeB gs else t
    let t := t.withPad fun m => let m := m.writeCells cells; if bad then { m with poison := NatSet.addAll m.poison gs } else m
    (.done, s.setTile (if p.setf then t.setFull gs else t))

/-- An outbound line is stored at its target, poison carried on (R41, R50, R77). -/
def State.lineOut (s : State) (t : Tile) (j : CopyJob) (x : Xlat) (off len : Nat) : LineEnd × State :=
  let pz := j.poison.any fun g => decide (off / 16 ≤ g) && decide (g < (off + len + 15) / 16)
  let r := s.dev.storeTarget t.ctx x ((j.data.drop off).take len) pz
  (match r.1 with
    | some c => .halts c
    | none => .done, { s with dev := r.2 })

/-- One line of a copy's row: its address, its first byte in the row, its length. It comes after the tile's earlier accesses to
its line (R71), is translated on its own (R64), parks (R72), or is performed at its target (R70, R78, R79). A line that has stalled
at a locked replica is not translated again (R68, R79). -/
def State.copyLine (s : State) (t : Tile) (n : Nat) (j : CopyJob) (l : Nat × Nat × Nat) : LineEnd × State :=
  let p := j.tpl
  let port := s.dev.entryPort t.coord
  if t.lineBusy j.seq l.1 then (.waits, s)
  else if let some (_, x) := j.lock then if s.dev.readLocked port x then (.waits, s) else State.lineIn s t j x l.2.1 l.2.2
  else
    let a : Asker := ⟨t.coord, t.ctx, t.ctl.nodeid.toNat, j.seq, some (n, j.id.toNat), l.1, if p.out then 5 else 4, p.out⟩
    match s.takeIn port a (s.dev.translate port t.ctx l.1 p.out) with
    | none => (.waits, s)
    | some (.error (some idx, q, _), dv) => (.parked port idx q, { s with dev := dv })
    | some (.error (none, _, c), dv) => (.halts c, { s with dev := dv })
    | some (.ok x, dv) =>
      if dv.keyLeaves t.ctx x then (.halts .bxkey, { s with dev := dv })
      else if (x.tgt == 0 && (s.portFull (s.dev.targetPort port p.out x) || (p.out && x.replicas.any dv.locked))) || dv.awaits x then (.waits, s)
      else if p.out then State.lineOut { s with dev := dv } t j x l.2.1 l.2.2
      else if dv.readLocked port x then (.stalls x, { s with dev := dv })
      else State.lineIn { s with dev := dv } t j x l.2.1 l.2.2

/-- The key of an outbound copy row in a paired tile's comparison (R142). -/
def rowKey (ch : Nat) (j : CopyJob) : Nat := 7 * 2 ^ 48 + ch * 2 ^ 45 + j.id.toNat * 2 ^ 13 % 2 ^ 45 + j.row % 2 ^ 13

/-- A row is over: the next one, or none is left. -/
def CopyJob.nextRow (j : CopyJob) : CopyJob :=
  { j with row := j.row + 1, line := 0, data := [], poison := [], lock := none, rowsDone := decide (j.tpl.rows ≤ j.row + 1) }

/-- A line is performed. -/
def CopyJob.nextLine (j : CopyJob) : CopyJob :=
  if j.line + 1 < (j.tpl.rowLines j.row).length then { j with line := j.line + 1, lock := none } else j.nextRow

/-- Replaces a copy of a tile; a row that is over leaves the comparison. -/
def Tile.putJob (t : Tile) (n : Nat) (old new : CopyJob) : Tile :=
  let t := if old.tpl.out && new.row != old.row then t.pairOver (rowKey n old) else t
  t.setCopyCh n ((t.copyCh n).setJob new)

/-- The lines of a copy's row from its next one on, as far as they go now; under a stop no further than the copy may go. -/
def State.copyLines (stop : Bool) (c : Coord) (n : Nat) : Nat → CopyJob → State → State
  | 0, _, s => s
  | fuel + 1, j, s =>
    match s.tileAt c, (j.tpl.rowLines j.row)[j.line]? with
    | some t, some l =>
      if stop && !t.goesOnTo j then s
      else
        let r := s.copyLine t n j l
        let put (k : CopyJob) : State := r.2.onTile c fun t => t.putJob n j k
        match r.1 with
        | .done => if j.nextLine.row = j.row then State.copyLines stop c n fuel j.nextLine (put j.nextLine) else put j.nextLine
        | .waits => r.2
        | .stalls x => put { j with lock := some (s.dev.now, x) }
        | .parked p i q => put { j with parked := some (p, i, q) }
        | .halts cz => r.2.onTile c fun t => t.haltCopy n j.id cz
    | _, _ => s

/-- An outbound row is read through port B, each granule once, before its first line leaves: errors are found, poison goes along,
and with SETF the granules become empty (R41, R48, R50). -/
def Tile.readRow (t : Tile) (n : Nat) (j : CopyJob) : Tile × CopyJob :=
  let addrs := (upTo j.tpl.rowbytes).map (j.tpl.spAt j.row)
  let gs := granSet addrs
  let t := (if j.tpl.setf then t.beforeB gs else t).findErrors gs
  let j := { j with
    data := addrs.map t.pad.mem.read
    poison := (upTo (j.tpl.rowbytes / 16)).filter fun k => t.pad.poison.has (j.tpl.spAt j.row (16 * k) / 16) }
  let t := if j.tpl.setf then t.setEmpty gs else t
  (t.setCopyCh n ((t.copyCh n).setJob j), j)

/-- COPY_ROW: the channel's next row. An outbound row of a paired tile is compared first; a shadow's goes no further
(R142). -/
def State.copyRow (s : State) (c : Coord) (n : Nat) : State :=
  match s.tileAt c with
  | none => s
  | some t =>
    let stop := s.copyStop t
    if (t.frozen && !stop) || t.acks.elem .copy then s
    else match t.copyNext n stop with
    | none => s
    | some j =>
      let run (j : CopyJob) (s : State) : State := State.copyLines stop c n ((j.tpl.rowLines j.row).length + 1) j s
      if !j.tpl.out then run j s
      else
        let r := if j.data.isEmpty then t.readRow n j else (t, j)
        let g := r.1.pairGate (rowKey n r.2) (valBytes 8 (r.2.tpl.rowVa r.2.row) ++ r.2.data)
        let s := s.setTile g.1
        if g.2 then run r.2 s
        else if t.isShadow then s.setTile (g.1.putJob n r.2 r.2.nextRow)
        else s

/-- COPY_ROW (R50, R256). -/
def execCopyRow (c : Coord) (ch : BitVec 3) (s : State) : Host.Outcome State Fault Refusal := .next (s.copyRow c ch.toNat)

/-- cedone advances past every completed copy (R47). -/
def CopyCh.advance : Nat → CopyCh → CopyCh
  | 0, c => c
  | fuel + 1, c =>
    match c.job c.done with
    | some j => if j.complete then CopyCh.advance fuel { c with done := c.done + 1#32, jobs := c.jobs.erase j } else c
    | none => c

/-- COPY_COMPLETE: a copy whose rows have all been performed completes: the lines an outbound one wrote leave the read
buffer, cedone advances, and the barrier decrement follows (R47, R50, R54, R80). -/
def Tile.copyComplete (t : Tile) (n : Nat) : Tile :=
  let c := t.copyCh n
  match c.jobs.find? fun j => j.rowsDone && !j.complete with
  | none => t
  | some j =>
    let p := j.tpl
    let t := t.setCopyCh n (CopyCh.advance (c.jobs.length + 1) (c.setJob { j with complete := true }))
    let lines := (upTo p.rows).flatMap fun i => (p.rowLines i).map (lineOf ·.1)
    let t := if p.out then t.forgetLines lines.elem else t
    if p.bar then t.txdec p.baraddr 1 else t

/-- COPY_COMPLETE (R50). -/
def execCopyComplete (c : Coord) (ch : BitVec 3) (s : State) : Host.Outcome State Fault Refusal :=
  .next (s.onTile c fun t => t.copyComplete ch.toNat)

/-- Changes what a copy channel's number names: a tile and the copy whose row comes next (entry 13). -/
def State.withCopy (s : State) (id : Nat) (f : State → Tile → Nat → CopyJob → State) : State :=
  if evSeq id < 2 ^ 32 - 8 then s
  else
    let n := evSeq id - (2 ^ 32 - 8)
    match s.tileAt (evCoord id) with
    | some t => match (t.copyCh n).runnable with
      | some j => f s t n j
      | none => s
    | none => s

/-- Changes a copy whose next line is on its way to a target outside: the line and its translation. -/
def State.withLine (s : State) (id : Nat) (f : State → Tile → Nat → CopyJob → Nat × Nat × Nat → Xlat → State) : State :=
  s.withCopy id fun s t n j =>
    match (j.tpl.rowLines j.row)[j.line]? with
    | some l =>
      let compared : Bool := match t.pair with
        | some p => p.ok.elem (rowKey n j)
        | none => true
      if (j.tpl.out && (j.data.isEmpty || !compared)) || t.lineBusy j.seq l.1 then s
      else
        let r := s.dev.translate (s.dev.entryPort t.coord) t.ctx l.1 j.tpl.out
        (match r.1 with
          | .ok x => f { s with dev := r.2 } t n j l x
          | .error _ => s)
    | none => s

/-- A line on its way to the outside fails and halts its channel: a write may or may not have been performed, as a free choice
(R77, R256). -/
def State.failLine (s : State) (t : Tile) (n : Nat) (j : CopyJob) (l : Nat × Nat × Nat) (x : Xlat) (c : Cause) : State :=
  let done := j.tpl.out && Config.freeBit s.dev.free
  let s := s.withDev Device.draw
  let s := if done then (s.lineOut t j x l.2.1 l.2.2).2 else s
  s.onTile t.coord fun t => t.haltCopy n j.id c

/-- Whether the link of a translated access to the outside is up (R77). -/
def Device.reachable (dv : Device) (x : Xlat) : Bool :=
  if x.tgt = 0 then false else if x.tgt = 1 then dv.hostUp x.hport else dv.secure x.oport x.peer

/-- LOCKED_READ_TIMEOUT: the stall of a read, or of an inbound line, has reached 2 µs (R79, R256). -/
def State.lockedTimeout (s : State) (id : Nat) : State :=
  (s.withAcc id fun t a =>
    match a.stage with
    | .locked _ since =>
      if since + 2 ≤ s.dev.now then s.setTile (t.setAcc { a with stage := .answered (some .bxlocktmo) [] none }) else s
    | _ => s).withCopy id fun s t n j =>
      match j.lock with
      | some (since, _) => if since + 2 ≤ s.dev.now then s.onTile t.coord fun t => t.haltCopy n j.id .bxlocktmo else s
      | none => s

/-- LOCKED_READ_TIMEOUT (R79). -/
def execLockedReadTimeout (id : Nat) (s : State) : Host.Outcome State Fault Refusal := .next (s.lockedTimeout id)

/-- HOST_TIMEOUT: no completion in 50 µs, or a completion error (R77). -/
def State.hostTimeout (s : State) (id : Nat) : State :=
  (s.withAcc id fun t a =>
    match a.stage with
    | .atTarget x => if x.tgt = 1 then s.failOut t a x .bxhost else s
    | _ => s).withLine id fun s t n j l x => if x.tgt = 1 then s.failLine t n j l x .bxhost else s

/-- HOST_TIMEOUT (R77). -/
def execHostTimeout (id : Nat) (s : State) : Host.Outcome State Fault Refusal := .next (s.hostTimeout id)

/-- REQUEST_ACCEPT_TIMEOUT: the host or peer does not accept the request within 50 µs while its link is up (R77). -/
def State.acceptTimeout (s : State) (id : Nat) : State :=
  (s.withAcc id fun t a =>
    match a.stage with
    | .atTarget x => if s.dev.reachable x then s.setTile (t.setAcc { a with stage := .answered (some .bxfull) [] none }) else s
    | _ => s).withLine id fun s t n j _ x => if s.dev.reachable x then s.onTile t.coord fun t => t.haltCopy n j.id .bxfull else s

/-- REQUEST_ACCEPT_TIMEOUT (R77). -/
def execRequestAcceptTimeout (id : Nat) (s : State) : Host.Outcome State Fault Refusal := .next (s.acceptTimeout id)

end Sys2Proof.Machine
end

