-- ==== Sys2Proof/Machine/Guard.lean ====
section
/-! DEFINITION. Guard objects at their home ports and holds at their tiles (R114 to R120). -/

namespace Sys2Proof.Machine

/-- Replaces `len` bits of a number from bit `lo`. -/
def putBits (w lo len v : Nat) : Nat := w - atBits lo len (bitsOf w lo len) + atBits lo len v

/-- MALFORMED (R114), for the line as a number. -/
def guardBad (o : Nat) : Bool :=
  let mode := bitsOf o 0 2
  let owner := bitsOf o 148 28 != 0 || bitsOf o 192 32 != 0
  bitsOf o 320 192 != 0 || bitsOf o 3 145 != 0 || mode == 3
    || (mode == 0 && (bitsOf o 224 32 != 0 || owner)) || (mode == 1 && bitsOf o 224 32 != 0)
    || (mode == 2 && (bitsOf o 224 32 == 0 || owner))

/-- Who holds or asks: context, node, tile (R116). -/
structure Who where
  ctx : Nat
  node : Nat
  coord : Coord
  deriving DecidableEq, Repr

/-- Sets the owner fields (Table 05-4). -/
def guardOwner (o : Nat) (w : Who) : Nat :=
  putBits (putBits (putBits (putBits o 192 32 w.node) 168 8 w.ctx) 158 10 w.coord.row) 148 10 w.coord.col

/-- Whether the owner fields name a party. -/
def guardOwned (o : Nat) (w : Who) : Bool :=
  bitsOf o 192 32 == w.node % 2 ^ 32 && bitsOf o 168 8 == w.ctx % 2 ^ 8 && bitsOf o 158 10 == w.coord.row % 2 ^ 10
    && bitsOf o 148 10 == w.coord.col % 2 ^ 10

/-- Whether a request's mode may be granted now (R116). -/
def guardFree (o : Nat) (shared : Bool) : Bool := if shared then bitsOf o 0 2 != 1 else bitsOf o 0 2 == 0

/-- The guard as a grant leaves it (R116). -/
def guardGrant (o : Nat) (shared : Bool) (w : Who) : Nat :=
  if shared then putBits (putBits o 0 2 2) 224 32 (bitsOf o 224 32 + 1) else guardOwner (putBits o 0 2 1) w

/-- The guard as a release leaves it, none where the release fails (R118). -/
def guardRelease (o : Nat) (shared : Bool) (w : Who) : Option Nat :=
  if shared then
    if bitsOf o 0 2 != 2 then none
    else
      let n := bitsOf o 224 32 + 2 ^ 32 - 1
      let o := putBits o 224 32 n
      some (if n % 2 ^ 32 = 0 then putBits o 0 2 0 else o)
  else if bitsOf o 0 2 != 1 || !guardOwned o w then none
  else some (putBits (guardOwner (putBits o 0 2 0) ⟨0, 0, ⟨0, 0⟩⟩) 256 64 (bitsOf o 256 64 + 1))

/-- Reads a guard line with the key of its translation: a cause, or the line as a number (R70, R76). -/
def Device.readGuard (dv : Device) (ctx : Nat) (x : Xlat) : Except Cause Nat :=
  match dv.keyOf ctx x with
  | .error c => .error c
  | .ok key =>
    let r := dv.readLine (x.pa / 64 * 64) key
    match r.1 with
    | some c => .error c
    | none => .ok (bytesVal r.2)

/-- A guard line is read: an error that can be corrected is, and is counted, as is one that fails the read (R77). -/
def Device.metGuard (dv : Device) (ctx : Nat) (x : Xlat) : Device :=
  match dv.readGuard ctx x with
  | .ok _ => dv.correct (x.pa / 64 * 64)
  | .error c => if c = .bxecc ∨ c = .bxtag then dv.countPort (stackOf x.pa) else dv

/-- Writes a guard line. -/
def Device.writeGuard (dv : Device) (ctx : Nat) (x : Xlat) (o : Nat) : Device :=
  match dv.keyOf ctx x with
  | .error _ => dv
  | .ok key => dv.writeLine (x.pa / 64 * 64) 0 (valBytes 64 o) key false

/-- The answer to a guard request goes to its tile. -/
def State.answerGuard (s : State) (c : Coord) (seq : Nat) (cause : Option Cause) (x : Option Xlat) : State :=
  match s.tileAt c with
  | some t => match t.guard? seq with
    | some g => s.setTile (t.setGuard { g with stage := .answered cause x })
    | none => s
  | none => s

/-- Removes a waiting request. -/
def State.unqueue (s : State) (w : GuardWait) : State := s.withDev fun dv => { dv with waits := dv.waits.erase w }

/-- Who a waiting request is. -/
def GuardWait.asWho (w : GuardWait) : Who := ⟨w.ctx, w.nodeid, w.who⟩

/-- The translation that a waiting request came by. -/
def State.waiterXlat (s : State) (w : GuardWait) : Option Xlat :=
  match (s.tileAt w.who).bind fun t => t.guard? w.seq with
  | some g => match g.stage with
    | .queued x => some x
    | _ => none
  | none => none

/-- GUARD_WAITER_GRANT (R116): the requests of a guard's FIFO are tested from its head: one that meets a malformed line fails; the
head is granted when the mode allows it, and the next is tested. -/
def State.grantWaiters (x : Xlat) : Nat → State → State
  | 0, s => s
  | fuel + 1, s =>
    match s.dev.waits.find? (·.line == x.pa / 64 * 64) with
    | none => s
    | some w =>
      let x := (s.waiterXlat w).getD x
      let o := s.dev.readGuard w.ctx x
      let s := s.withDev fun dv => dv.metGuard w.ctx x
      match o with
      | .error c => State.grantWaiters x fuel ((s.unqueue w).answerGuard w.who w.seq (some c) none)
      | .ok o =>
        if guardBad o then State.grantWaiters x fuel ((s.unqueue w).answerGuard w.who w.seq (some .guarderr) none)
        else if guardFree o w.shared then
          State.grantWaiters x fuel
            (((s.unqueue w).withDev fun dv => dv.writeGuard w.ctx x (guardGrant o w.shared w.asWho)).answerGuard w.who w.seq none
              (some x))
        else s

/-- ACQ_AT_HOME (R116). -/
def State.acqAtHome (s : State) (id : Nat) : State :=
  s.withGuard id fun t g =>
    match g.stage with
    | .sent x =>
      if g.rel || s.dev.awaits x then s
      else
        let o := s.dev.readGuard t.ctx x
        let s := s.withDev fun dv => dv.metGuard t.ctx x
        match o with
        | .error c => s.setTile (t.setGuard { g with stage := .answered (some c) none })
        | .ok o =>
          if guardBad o then s.setTile (t.setGuard { g with stage := .answered (some .guarderr) none })
          else
            let us := bitsOf o 176 16
            let w : GuardWait := ⟨x.pa / 64 * 64, t.coord, g.seq, g.shared, t.ctx, t.ctl.nodeid.toNat,
              if us = 0 then none else some (s.dev.now + us)⟩
            let s := (s.setTile (t.setGuard { g with stage := .queued x })).withDev fun dv => { dv with waits := dv.waits ++ [w] }
            State.grantWaiters x s.dev.waits.length s
    | _ => s

/-- ACQ_AT_HOME (R116). -/
def execAcqAtHome (id : Nat) (s : State) : Host.Outcome State Fault Refusal := .next (s.acqAtHome id)

/-- GUARD_WAIT_TIMEOUT: a waiting acquire whose deadline has come fails with GUARDTMO; its guard's requests are tested, for a plain
store may have changed the line, or the head of its FIFO have gone (R116). -/
def State.guardTimeout (s : State) (id : Nat) : State :=
  s.withGuard id fun t g =>
    match g.stage with
    | .queued x =>
      match s.dev.waits.find? (fun w => w.who == t.coord && w.seq == g.seq) with
      | some w =>
        let late : Bool := match w.deadline with
          | some d => decide (d ≤ s.dev.now)
          | none => false
        let s := if late then (s.unqueue w).answerGuard t.coord g.seq (some .guardtmo) none else s
        State.grantWaiters x s.dev.waits.length s
      | none => s
    | _ => s

/-- GUARD_WAIT_TIMEOUT (R116). -/
def execGuardWaitTimeout (id : Nat) (s : State) : Host.Outcome State Fault Refusal := .next (s.guardTimeout id)

/-- Whether an outbound copy has still to perform a line in a range bound to a guard (R118). -/
def CopyJob.writesUnder (j : CopyJob) (dv : Device) (ctx va : Nat) : Bool :=
  j.tpl.out && !j.complete && !j.rowsDone && (upTo (j.tpl.rows - j.row)).any fun i =>
    ((j.tpl.rowLines (j.row + i)).drop (if i = 0 then j.line else 0)).any fun l => dv.guardOf ctx l.1 == va

/-- Whether every earlier bulk access of the tile to ranges bound to a guard has been performed (R118); the rows that a halted
channel has stopped are never performed, and a write that has failed counts as performed. -/
def Tile.guardQuiet (t : Tile) (dv : Device) (seq va : Nat) : Bool :=
  (t.accs.all fun a => decide (seq < a.seq) || a.answered || a.dropped || dv.guardOf t.ctx a.va != va)
    && (t.pad.queue.all fun q => decide (seq < q.seq) || !q.act.isStart)
    && (upTo 8).all fun i => (t.copyCh i).jobs.all fun j =>
      decide (seq < j.seq) || (t.copyCh i).stopped j || !j.writesUnder dv t.ctx va

/-- REL_DEPART: the release leaves the tile once its accesses are performed, among them those to the guard line itself (R71), and
its hold is granted (R118), and its home port has room (R62); that of a paired tile only after comparison (R142). -/
def State.relDepart (s : State) (id : Nat) : State :=
  s.withGuard id fun t g =>
    if !g.rel || g.stage != .inTile || !t.guardQuiet s.dev g.seq g.va || t.plainBusy g.seq g.va then s
    else
      match g.pa with
      | none => s
      | some x =>
        let k := guardKey g.seq
        let bytes := valBytes 8 g.va ++ valBytes 1 (b2n g.shared)
        if t.isShadow then
          match t.pair with
          | some p => if p.ok.elem k then s else s.setTile (t.pairGate k bytes).1
          | none => s
        else
          let gate := t.pairGate k bytes
          if !gate.2 then s.setTile gate.1
          else if s.portFull (stackOf x.pa) then s
          else s.setTile (gate.1.setGuard { g with stage := .sent x })

/-- REL_DEPART (R118). -/
def execRelDepart (id : Nat) (s : State) : Host.Outcome State Fault Refusal := .next (s.relDepart id)

/-- REL_AT_HOME (R118): the release is evaluated, and the FIFO's head is tested. -/
def State.relAtHome (s : State) (id : Nat) : State :=
  s.withGuard id fun t g =>
    match g.stage with
    | .sent x =>
      if !g.rel || s.dev.awaits x then s
      else
        let o := s.dev.readGuard t.ctx x
        let s := s.withDev fun dv => dv.metGuard t.ctx x
        match o with
        | .error c => s.setTile (t.setGuard { g with stage := .answered (some c) none })
        | .ok o =>
          match guardRelease o g.shared ⟨t.ctx, t.ctl.nodeid.toNat, t.coord⟩ with
          | none => s.setTile (t.setGuard { g with stage := .answered (some .guarderr) none })
          | some o' =>
            let s := (s.setTile (t.setGuard { g with stage := .answered none none })).withDev fun dv => dv.writeGuard t.ctx x o'
            State.grantWaiters x s.dev.waits.length s
    | _ => s

/-- REL_AT_HOME (R118). -/
def execRelAtHome (id : Nat) (s : State) : Host.Outcome State Fault Refusal := .next (s.relAtHome id)

/-- Whether a request is the release of an acquire: the next one of that guard, before any later acquire of it (R115, R118). -/
def Tile.releases (t : Tile) (g r : GuardReq) : Bool :=
  r.rel && r.va == g.va && decide (g.seq < r.seq)
    && !(t.guards.any fun y => y.va == g.va && decide (g.seq < y.seq) && decide (y.seq < r.seq))

/-- Whether the hold that an acquire entered has been released at issue: its release is still in the tile, since it leaves after
the grant (R115, R118). -/
def Tile.holdGone (t : Tile) (g : GuardReq) : Bool := t.guards.any (t.releases g)

/-- A release whose acquire has come to an end takes its guard line, or fails with it (R118). -/
def GuardReq.follow (r : GuardReq) (cause : Option Cause) (x : Option Xlat) : GuardReq :=
  if cause.isSome then { r with stage := .answered (some .guarderr) none } else { r with pa := x }

/-- An acquire that has come to an end: its release follows it, and its entry of the hold table, unless that has been released,
takes the guard line or is removed (R115, R116, R118). -/
def Tile.acqEnded (t : Tile) (g : GuardReq) (cause : Option Cause) (x : Option Xlat) : Tile :=
  { t with
    guards := t.guards.map fun (r : GuardReq) => if t.releases g r then r.follow cause x else r
    holds := if t.holdGone g then t.holds
      else if cause.isSome then t.holds.filter (·.va != g.va)
      else t.holds.map fun (h : Hold) => if h.va = g.va then { h with pa := x } else h }

/-- A request of the tile is over: it leaves the tile, and its key the comparison. -/
def Tile.overGuard (t : Tile) (seq : Nat) : Tile := { t with guards := t.guards.filter (·.seq != seq) }.pairOver (guardKey seq)

/-- Copies that waited for an acquire go on when none before them is open (R117). -/
def Tile.freeCopies (t : Tile) : Tile :=
  { t with copy := { t.copy with ch := t.copy.ch.map fun (c : CopyCh) =>
    { c with jobs := c.jobs.map fun (j : CopyJob) => { j with held := j.held && t.acqOpen j.seq } } } }

/-- Whether a cause is one of the guard's own, which traps whether or not the request was parked before (R116). -/
def guardOwn (c : Cause) : Bool := c == .guarderr || c == .guardtmo

/-- The answer to a guard request at its tile (R116, R118): a grant invalidates the read buffer and releases the tag; a
failure leaves the tag faulted, removes the hold and raises its cause. -/
def Tile.guardAnswered (t : Tile) (g : GuardReq) (cause : Option Cause) (x : Option Xlat) : Tile :=
  let t := ((if g.rel then t else t.acqEnded g cause x).overGuard g.seq).freeCopies
  match cause with
  | none =>
    let t := t.setTag g.tag.toNat .free
    if g.rel then t else t.emptyBuffer
  | some c =>
    let t := t.setTag g.tag.toNat .faulted
    if g.noticed && !guardOwn c then t.detect c else t.raise c (some g.seq) 1 (BitVec.ofNat 64 g.va)

/-- A park notice or an answer of a guard request reaches the tile. -/
def Tile.guardResponse (t : Tile) (seq : Nat) : Tile :=
  match t.guard? seq with
  | some g =>
    match g.stage with
    | .answered c x => t.guardAnswered g c x
    | .parked _ _ q c =>
      if g.notice then
        (t.setGuard { g with notice := false, noticed := true }).raise c (some seq) 1 (BitVec.ofNat 64 g.va) (bulkInfo true q)
      else t
    | _ => t
  | none => t

/-- What a primary's router forwards to the shadow: the outcome of its guard request (R142). -/
def State.forwardGuard (s : State) (id : Nat) : State :=
  match s.tileAt (evCoord id) with
  | some t => match t.pair, t.guard? (evSeq id) with
    | some p, some g =>
      (match g.stage with
        | .answered c x => if p.primary then s.answerGuard p.partner g.seq c x else s
        | _ => s)
    | _, _ => s
  | none => s

/-- GUARD_RESPONSE (R116, R117). -/
def execGuardResponse (id : Nat) (s : State) : Host.Outcome State Fault Refusal :=
  .next ((s.forwardGuard id).onTile (evCoord id) fun t => t.guardResponse (evSeq id))

/-- The tiles of a node: those of its placement and of its shadow. -/
def State.nodeTiles (s : State) (n : Node) : List Tile :=
  (s.core :: s.others).filter fun t => t.sch.status != .absent && n.covers t.coord

/-- One hold that the Hearth ends: released as REL would, with ERR set in the same evaluation (R120). -/
def State.endHold (t : Tile) (s : State) (h : Hold) : State :=
  match h.pa with
  | none => s
  | some x =>
    let s := s.withDev fun dv => dv.waited x
    let o := s.dev.readGuard t.ctx x
    let s := s.withDev fun dv => dv.metGuard t.ctx x
    match o with
    | .error _ => s
    | .ok o =>
      match guardRelease o h.shared ⟨t.ctx, t.ctl.nodeid.toNat, t.coord⟩ with
      | none => s
      | some o' =>
        let s := s.withDev fun dv => dv.writeGuard t.ctx x (putBits o' 2 1 1)
        State.grantWaiters x s.dev.waits.length s

/-- The tiles that a failed node has left: nothing that runs holds them (R139). -/
def State.leftTiles (s : State) (n : Node) : List Tile :=
  (s.core :: s.others).filter fun t => n.covers t.coord && t.sch.status == .halted && (s.dev.nodeAt t.coord).isNone

/-- The retry-ring entries and guard waits of a tile are cleared (R74, R120). -/
def Device.forget (dv : Device) (c : Coord) : Device :=
  { dv with
    ports := dv.ports.map fun p => { p with retry := p.retry.filter (·.who != c) }
    waits := dv.waits.filter (·.who != c) }

/-- Whether nothing of a tile that a failed node left is under way any more (R120, R139). -/
def Tile.quiet (t : Tile) : Bool :=
  t.accs.all (fun a => a.answered || a.isParked) && t.sends.isEmpty && (upTo 8).all (fun k => (t.copyNext k true).isNone)
    && t.guards.all (fun g => !g.rel || (match g.stage with
      | .answered _ _ => true
      | _ => false))
    && t.out.all fun m => m.head.isNone

/-- HEARTH_GUARD_RELEASE: the Hearth ends the holds of a node that has failed, once every bulk access of its tiles is
performed or failed, and its tiles are discarded (R120, R139); a node that was saved has its holds in its image. -/
def State.hearthRelease (s : State) (node : Nat) : State :=
  match s.dev.node? node with
  | none => s
  | some n =>
    let ts := s.leftTiles n
    if n.st != .failed || ts.any fun t => !t.quiet then s
    else
      let s := ((ts ++ n.image).filter fun t => !t.isShadow).foldl (fun s t => t.holds.foldl (State.endHold t) s) s
      let s := s.withDev fun dv => (ts.foldl (fun dv t => dv.forget t.coord) dv).withNode node fun n => { n with image := [] }
      s.removeTiles fun t => ts.any fun u => u.coord == t.coord && t.sch.status == .halted

/-- HEARTH_GUARD_RELEASE (R120). -/
def execHearthGuardRelease (node : Nat) (s : State) : Host.Outcome State Fault Refusal := .next (s.hearthRelease node)

end Sys2Proof.Machine
end

