-- ==== Sys2Proof/Machine/Engine.lean ====
section
/-! DEFINITION. The E class of ch. 13: rings declared and reset, and the issue of engine operations (R279, R280, R285). What
they compute stands in EngOps.lean. -/

namespace Sys2Proof.Machine

/-- The rings an operation names. -/
def engRings (i : Instr) : List Nat :=
  (engReads i ++ engWrites i).filterMap fun x => match x with
    | .ring n => some n.toNat
    | .tile _ => none

/-- Whether a ring is both source and destination. -/
def ringTwice (i : Instr) : Bool := (engReads i).any fun x => (match x with
  | .ring _ => true
  | .tile _ => false) && (engWrites i).elem x

/-- The shape of an operand at issue; a ring's slot is not yet known (R280). -/
def shapeAtIssue (t : Tile) (x : TileRef) : Option Shape :=
  match x with
  | .tile r => some (shapeOf (t.tshOf r.toNat))
  | .ring _ => none

/-- An operation with no v or s operands. -/
def noOperands (_ : Tile) : VReg × Word × Word := (vzero, 0#32, 0#32)

/-- An engine operation: the checks of R280 in order, the wait for room in the queue of 8, and what it samples. -/
def semE (i : Instr) (tag : BitVec 3) (ops : Tile → VReg × Word × Word) : SlotInfo → Sem := fun info =>
  { check := fun t => Check.all
      [t.needTag tag,
       need ((engRings i).all (fun n => (t.ring n).defd) && !ringTwice i) .ringerr,
       need ((engReads i ++ engWrites i).all fun x => match x with
         | .tile r => shapeValid (t.tshOf r.toNat)
         | .ring _ => true) .tshape,
       need (formOk i t.ctl.fmt (shapeAtIssue t)) .opfmt,
       waitFor (decide ((t.eng.get (engineOf i)).queue.length < 8)) (mkStall .plain)]
    eff := fun r t =>
      let k := engineOf i
      let x := ops r
      let op : EOp := ⟨t.sch.seq, r.sch.cycle, i, tag, r.ctl.fmt, r.ctl.tsh, x.1, x.2.1, x.2.2, r.ctl.hy,
        [r.ctl.rnseed, r.ctl.rnstep, r.ctl.rnstream, r.ctl.rnkeep], info⟩
      (t.allocTag tag).withEng fun e => e.set k { e.get k with queue := (e.get k).queue ++ [op] } }

/-- Whether a register belongs to a declared ring. -/
def Ring.owns (r : Ring) (x : Nat) : Bool := r.defd && decide (r.first ≤ x) && decide (x ≤ r.first + r.sizem1)

/-- RINGDEF (R285). -/
def execRingdef (h : Hdr) (r : BitVec 3) (f n : BitVec 4) (s : State) : Host.Outcome State Fault Refusal :=
  runSlot (.ringdef h r f n) h
    (fun _ =>
      { check := fun t =>
          need (decide (f.toNat + n.toNat + 1 ≤ 16) && !(t.ring r.toNat).defd
            && (upTo (n.toNat + 1)).all fun k => !(t.eng.rings.toList.any fun g => g.owns (f.toNat + k))) .ringerr
        eff := fun _ t =>
          t.withRing r.toNat fun _ => ⟨true, f.toNat, n.toNat, 0, 0, List.replicate (n.toNat + 1) .free⟩ }) s

/-- Whether an issued instruction that names a ring is unfired or unlanded (R285). -/
def Tile.ringBusy (t : Tile) (n : Nat) : Bool :=
  (t.allQueued.any fun o => (engRings o.inst).elem n)
    || (t.allFired.any fun f => f.writes.any fun w => match w.slot with
      | some (k, _) => k == n
      | none => false)
    || (t.sch.flights.any fun f => match f.ring with
      | some (k, _) => k == n
      | none => false)
    || t.pad.queue.any fun q => match q.act with
      | .load _ _ p _ => (match p.ringSlot with
        | some (k, _) => k == n
        | none => false)
      | _ => false

/-- RINGRST (R285). -/
def execRingrst (h : Hdr) (r : BitVec 3) (s : State) : Host.Outcome State Fault Refusal :=
  runSlot (.ringrst h r) h
    (fun _ =>
      { check := fun t => waitFor (!t.ringBusy r.toNat) (mkStall .plain)
        eff := fun _ t => t.withRing r.toNat fun _ => ⟨false, 0, 0, 0, 0, []⟩ }) s

/-- MXW (R289). -/
def execMxw (h : Hdr) (src : TileRef) (t : BitVec 3) (s : State) : Host.Outcome State Fault Refusal :=
  runSlot (.mxw h src t) h (semE (.mxw h src t) t noOperands) s

/-- MXF (R290). -/
def execMxf (h : Hdr) (z : BitVec 2) (src : TileRef) (t : BitVec 3) (s : State) : Host.Outcome State Fault Refusal :=
  runSlot (.mxf h z src t) h (semE (.mxf h z src t) t noOperands) s

/-- MXR (R290). -/
def execMxr (h : Hdr) (z : BitVec 2) (src : TileRef) (t : BitVec 3) (s : State) : Host.Outcome State Fault Refusal :=
  runSlot (.mxr h z src t) h (semE (.mxr h z src t) t noOperands) s

/-- MXP (R291). -/
def execMxp (h : Hdr) (z : BitVec 2) (va sb : BitVec 5) (t : BitVec 3) (s : State) : Host.Outcome State Fault Refusal :=
  runSlot (.mxp h z va sb t) h (semE (.mxp h z va sb t) t (fun r => (r.rv va.toNat, r.rs sb, 0#32))) s

/-- MXZ (R292). -/
def execMxz (h : Hdr) (z : BitVec 2) (src : Option TileRef) (t : BitVec 3) (s : State) : Host.Outcome State Fault Refusal :=
  runSlot (.mxz h z src t) h (semE (.mxz h z src t) t noOperands) s

/-- MXO (R293). -/
def execMxo (h : Hdr) (dst : TileRef) (z : BitVec 2) (t : BitVec 3) (s : State) : Host.Outcome State Fault Refusal :=
  runSlot (.mxo h dst z t) h (semE (.mxo h dst z t) t noOperands) s

/-- MXQ (R294). -/
def execMxq (h : Hdr) (dst : TileRef) (z : BitVec 2) (t : BitVec 3) (s : State) : Host.Outcome State Fault Refusal :=
  runSlot (.mxq h dst z t) h (semE (.mxq h dst z t) t noOperands) s

/-- XPT (R296). -/
def execXpt (h : Hdr) (dst src : TileRef) (t : BitVec 3) (s : State) : Host.Outcome State Fault Refusal :=
  runSlot (.xpt h dst src t) h (semE (.xpt h dst src t) t noOperands) s

/-- XPC (R297). -/
def execXpc (h : Hdr) (dst src : TileRef) (code : BitVec 4) (t : BitVec 3) (s : State) : Host.Outcome State Fault Refusal :=
  runSlot (.xpc h dst src code t) h (semE (.xpc h dst src code t) t noOperands) s

/-- UPADM (R298). -/
def execUpadm (h : Hdr) (w g m v : BitVec 4) (t : BitVec 3) (s : State) : Host.Outcome State Fault Refusal :=
  runSlot (.upadm h w g m v t) h (semE (.upadm h w g m v t) t noOperands) s

/-- UPSGD (R298). -/
def execUpsgd (h : Hdr) (w g m : BitVec 4) (t : BitVec 3) (s : State) : Host.Outcome State Fault Refusal :=
  runSlot (.upsgd h w g m t) h (semE (.upsgd h w g m t) t noOperands) s

/-- UPAXP (R298). -/
def execUpaxp (h : Hdr) (y x : BitVec 4) (t : BitVec 3) (s : State) : Host.Outcome State Fault Refusal :=
  runSlot (.upaxp h y x t) h (semE (.upaxp h y x t) t noOperands) s

/-- RNMASK (R299). -/
def execRnmask (h : Hdr) (dst : TileRef) (sr sc : BitVec 5) (t : BitVec 3) (s : State) : Host.Outcome State Fault Refusal :=
  runSlot (.rnmask h dst sr sc t) h (semE (.rnmask h dst sr sc t) t (fun r => (vzero, r.rs sr, r.rs sc))) s

/-- RNUNI (R299). -/
def execRnuni (h : Hdr) (dst : TileRef) (sr sc : BitVec 5) (t : BitVec 3) (s : State) : Host.Outcome State Fault Refusal :=
  runSlot (.rnuni h dst sr sc t) h (semE (.rnuni h dst sr sc t) t (fun r => (vzero, r.rs sr, r.rs sc))) s

end Sys2Proof.Machine
end

