-- ==== Sys2Proof/Machine/Vector.lean ====
section
/-! DEFINITION. The V class: the issue of vector operations, their operands, links and completion cycles (R260 to R275).
What each computes stands in VArith.lean. -/

namespace Sys2Proof.Machine

/-- The codes that carry FP64 values when VPREC is 1 (R261): registers among them must be even. -/
def fp64Codes : Instr → List (BitVec 5)
  | .vadd _ d a b _ _ | .vsub _ d a b _ _ | .vmul _ d a b _ _ | .vfma _ d a b _ _ | .vfms _ d a b _ _
  | .vfnma _ d a b _ _ | .vdiv _ d a b _ _ | .vmin _ d a b _ _ | .vmax _ d a b _ _ | .vmaxa _ d a b _ _
  | .vdot _ d a b _ _ => [d, a, b]
  | .vclamp _ d a b _ => [d, a, b]
  | .vsqrt _ d a _ _ | .vrsqrt _ d a _ _ | .vrcp _ d a _ _ | .vabs _ d a _ _ | .vneg _ d a _ _ | .vred _ d a _ _ => [d, a]
  | .vrndb _ d a _ => [d, a]
  | .vcmp _ _ a b _ => [a, b]
  | .vsgn _ _ _ _ a _ => [a]
  | .vthr _ _ _ _ a b _ => [a, b]
  | .vmov _ d a _ => if a.toNat ≥ 28 then [d] else []
  | _ => []

/-- The encoding check that depends on fmt: even codes for FP64 registers, ILLFLD otherwise (R261, R145). -/
def vEncOk (fmt : Word) (i : Instr) : Bool :=
  !fmtPrec64 fmt || (fp64Codes i).all fun c => decide (28 ≤ c.toNat) || !c.getLsbD 0

/-- A link of the tile. -/
def Tile.link (t : Tile) (n : Nat) : Option Link := (t.sch.links[n]?).getD none

/-- The lanes of an operand: a link's value, a register, or a register pair of FP64 values (R146). -/
def laneOperand (r : Tile) (wide : Bool) (c : BitVec 5) : List DWord :=
  if c.toNat ≥ 28 then
    match r.link (c.toNat - 28) with
    | some l => l.value.toList
    | none => []
  else
    let lo := r.rv c.toNat
    let hi := r.rv (c.toNat + 1)
    (upTo 16).map fun i => if wide then lane hi i ++ lane lo i else (lane lo i).setWidth 64

/-- A consumer's link is live, unclaimed and of its own precision (Table 12-2). -/
def linkUsable (t : Tile) (p64 : Bool) (n : Nat) : Bool :=
  match t.link n with
  | some l => l.consumer.isNone && l.prec64 == p64
  | none => false

/-- Whether an instruction reads its operands as FP64 pairs: by its code, or by VPREC (R261, R274). -/
def wideSource (i : Instr) (fmt : Word) : Bool :=
  match i with
  | .vcvt _ _ _ code _ => cvtFrom64 code.toNat
  | i => vIsFp i && fmtPrec64 fmt

/-- The link a producer names as its destination (R266). -/
def vDestLink (i : Instr) : Option Nat :=
  match i with
  | .vsgn _ _ _ _ _ _ | .vthr _ _ _ _ _ _ _ => none
  | i => if (vDest i).toNat ≥ 28 then some ((vDest i).toNat - 28) else none

/-- The exact results on the link of an operand, if it is one (R180). -/
def exactOperand (r : Tile) (c : Option (BitVec 5)) : Option (Vector FVal 16) :=
  c.bind fun c => if c.toNat ≥ 28 then (r.link (c.toNat - 28)).map (·.exact) else none

/-- A V operation: its checks, what it samples, its completion cycle or its decision window, the link it feeds (R152,
R261, R263, R266 to R268, R271). -/
def semV (i : Instr) (tag : BitVec 3) : SlotInfo → Sem :=
  fun info =>
  { enc := fun t => vEncOk t.ctl.fmt i
    check := fun t => Check.all
      [t.needTag tag,
       need (match vDestLink i with
         | some n => (t.link n).isNone
         | none => true) .vxlink,
       need ((linkOperands i).all fun x => linkUsable t (fmtPrec64 t.ctl.fmt) x.2) .vxlink]
    eff := fun r t =>
      let fmt := r.ctl.fmt
      let p64 := fmtPrec64 fmt
      let wide := wideSource i fmt
      let w := vShape i
      let operand (c : Option (BitVec 5)) : List DWord := match c with
        | some c => laneOperand r wide c
        | none => []
      let ops := [operand w.a, operand w.b, operand (if w.third then some (vDest i) else none)]
      let full := vFull i r.ctl.vbud
      let out := vCompute i fmt (vBudget i r.ctl.vbud) ops
      let srcs := (linkOperands i).map (·.2)
      let links := srcs.filterMap r.link
      let k := vKind i
      let lat := vLatency k p64 full out.bypass
      let c := r.sch.cycle
      let seq := t.sch.seq
      let dec := if k = .decide ∧ srcs ≠ [] then
          some (deciderWindow i p64 c links ops (exactOperand r w.a) (exactOperand r w.b))
        else none
      let due := match dec with
        | some d => d.hi
        | none => links.foldl (fun m l => Nat.max m (l.done + k.chain)) (c + lat)
      let dr := Nat.min full (fullDigits p64)
      let op : VOp :=
        { seq := seq, due := due, issued := c, tag := tag
          writes := vWrites i r.ctl.rrb (vDest64 i fmt (p64 && (linkOperands i).any (·.1 == 0))) out
          flags := if vIsFp i || k == .cvt then out.flags else 0#5
          trapen := fmtTrapen fmt, dest := vDestLink i, srcs := srcs, decider := dec, dr := dr, bypass := out.bypass
          lat := lat, chain := k.chain, fmt := fmt, vbud := r.ctl.vbud, operands := ops, inst := i, info := info }
      let t := (t.allocTag tag).withSch fun s => { s.claim seq srcs with vops := s.vops ++ [op] }
      match vDestLink i with
      | some n =>
        let l : Link := { value := out.lanes, exact := vExact i fmt ops, seed := t.free, who := t.who, prec64 := p64, done := due, dr := dr
                          bypass := out.bypass, chained := out.bypass || links.any (·.chained), producer := seq
                          consumer := none }
        { t with sch := { t.sch with links := t.sch.links.setIfInBounds n (some l) }, free := t.free + linkDraws }
      | none => t }

/-- VADD (R263). -/
def execVadd (h : Hdr) (d a b : BitVec 5) (t : BitVec 3) (n : Bool) (s : State) : Host.Outcome State Fault Refusal :=
  runSlot (.vadd h d a b t n) h (semV (.vadd h d a b t n) t) s

/-- VSUB (R263). -/
def execVsub (h : Hdr) (d a b : BitVec 5) (t : BitVec 3) (n : Bool) (s : State) : Host.Outcome State Fault Refusal :=
  runSlot (.vsub h d a b t n) h (semV (.vsub h d a b t n) t) s

/-- VMUL (R263). -/
def execVmul (h : Hdr) (d a b : BitVec 5) (t : BitVec 3) (n : Bool) (s : State) : Host.Outcome State Fault Refusal :=
  runSlot (.vmul h d a b t n) h (semV (.vmul h d a b t n) t) s

/-- VFMA (R263). -/
def execVfma (h : Hdr) (d a b : BitVec 5) (t : BitVec 3) (n : Bool) (s : State) : Host.Outcome State Fault Refusal :=
  runSlot (.vfma h d a b t n) h (semV (.vfma h d a b t n) t) s

/-- VFMS (R263). -/
def execVfms (h : Hdr) (d a b : BitVec 5) (t : BitVec 3) (n : Bool) (s : State) : Host.Outcome State Fault Refusal :=
  runSlot (.vfms h d a b t n) h (semV (.vfms h d a b t n) t) s

/-- VFNMA (R263). -/
def execVfnma (h : Hdr) (d a b : BitVec 5) (t : BitVec 3) (n : Bool) (s : State) : Host.Outcome State Fault Refusal :=
  runSlot (.vfnma h d a b t n) h (semV (.vfnma h d a b t n) t) s

/-- VDIV (R263). -/
def execVdiv (h : Hdr) (d a b : BitVec 5) (t : BitVec 3) (n : Bool) (s : State) : Host.Outcome State Fault Refusal :=
  runSlot (.vdiv h d a b t n) h (semV (.vdiv h d a b t n) t) s

/-- VSQRT (R263). -/
def execVsqrt (h : Hdr) (d a : BitVec 5) (t : BitVec 3) (n : Bool) (s : State) : Host.Outcome State Fault Refusal :=
  runSlot (.vsqrt h d a t n) h (semV (.vsqrt h d a t n) t) s

/-- VRSQRT (R263). -/
def execVrsqrt (h : Hdr) (d a : BitVec 5) (t : BitVec 3) (n : Bool) (s : State) : Host.Outcome State Fault Refusal :=
  runSlot (.vrsqrt h d a t n) h (semV (.vrsqrt h d a t n) t) s

/-- VRCP (R263). -/
def execVrcp (h : Hdr) (d a : BitVec 5) (t : BitVec 3) (n : Bool) (s : State) : Host.Outcome State Fault Refusal :=
  runSlot (.vrcp h d a t n) h (semV (.vrcp h d a t n) t) s

/-- VMIN (R264). -/
def execVmin (h : Hdr) (d a b : BitVec 5) (t : BitVec 3) (n : Bool) (s : State) : Host.Outcome State Fault Refusal :=
  runSlot (.vmin h d a b t n) h (semV (.vmin h d a b t n) t) s

/-- VMAX (R264). -/
def execVmax (h : Hdr) (d a b : BitVec 5) (t : BitVec 3) (n : Bool) (s : State) : Host.Outcome State Fault Refusal :=
  runSlot (.vmax h d a b t n) h (semV (.vmax h d a b t n) t) s

/-- VABS (R263). -/
def execVabs (h : Hdr) (d a : BitVec 5) (t : BitVec 3) (n : Bool) (s : State) : Host.Outcome State Fault Refusal :=
  runSlot (.vabs h d a t n) h (semV (.vabs h d a t n) t) s

/-- VNEG (R264). -/
def execVneg (h : Hdr) (d a : BitVec 5) (t : BitVec 3) (n : Bool) (s : State) : Host.Outcome State Fault Refusal :=
  runSlot (.vneg h d a t n) h (semV (.vneg h d a t n) t) s

/-- VMAXA (R264). -/
def execVmaxa (h : Hdr) (d a b : BitVec 5) (t : BitVec 3) (n : Bool) (s : State) : Host.Outcome State Fault Refusal :=
  runSlot (.vmaxa h d a b t n) h (semV (.vmaxa h d a b t n) t) s

/-- VCMP (R269). -/
def execVcmp (h : Hdr) (d a b : BitVec 5) (cond : BitVec 3) (s : State) : Host.Outcome State Fault Refusal :=
  runSlot (.vcmp h d a b cond) h (semV (.vcmp h d a b cond) 0#3) s

/-- VSGN (R270). -/
def execVsgn (h : Hdr) (p : BitVec 3) (all pos : Bool) (a : BitVec 5) (t : BitVec 3) (s : State) :
    Host.Outcome State Fault Refusal :=
  runSlot (.vsgn h p all pos a t) h (semV (.vsgn h p all pos a t) t) s

/-- VTHR (R270). -/
def execVthr (h : Hdr) (p : BitVec 3) (all ge : Bool) (a b : BitVec 5) (t : BitVec 3) (s : State) :
    Host.Outcome State Fault Refusal :=
  runSlot (.vthr h p all ge a b t) h (semV (.vthr h p all ge a b t) t) s

/-- VSEL (R275). -/
def execVsel (h : Hdr) (d a b : BitVec 5) (t : BitVec 3) (s : State) : Host.Outcome State Fault Refusal :=
  runSlot (.vsel h d a b t) h (semV (.vsel h d a b t) t) s

/-- VMOV (R275). -/
def execVmov (h : Hdr) (d a : BitVec 5) (t : BitVec 3) (s : State) : Host.Outcome State Fault Refusal :=
  runSlot (.vmov h d a t) h (semV (.vmov h d a t) t) s

/-- VCVT (R274). -/
def execVcvt (h : Hdr) (d a : BitVec 5) (code : BitVec 6) (t : BitVec 3) (s : State) :
    Host.Outcome State Fault Refusal :=
  runSlot (.vcvt h d a code t) h (semV (.vcvt h d a code t) t) s

/-- VRED (R273). -/
def execVred (h : Hdr) (d a : BitVec 5) (t : BitVec 3) (n : Bool) (s : State) : Host.Outcome State Fault Refusal :=
  runSlot (.vred h d a t n) h (semV (.vred h d a t n) t) s

/-- VDOT (R273). -/
def execVdot (h : Hdr) (d a b : BitVec 5) (t : BitVec 3) (n : Bool) (s : State) : Host.Outcome State Fault Refusal :=
  runSlot (.vdot h d a b t n) h (semV (.vdot h d a b t n) t) s

/-- VIADD (R275). -/
def execViadd (h : Hdr) (d a b : BitVec 5) (t : BitVec 3) (s : State) : Host.Outcome State Fault Refusal :=
  runSlot (.viadd h d a b t) h (semV (.viadd h d a b t) t) s

/-- VISUB (R275). -/
def execVisub (h : Hdr) (d a b : BitVec 5) (t : BitVec 3) (s : State) : Host.Outcome State Fault Refusal :=
  runSlot (.visub h d a b t) h (semV (.visub h d a b t) t) s

/-- VIMUL (R275). -/
def execVimul (h : Hdr) (d a b : BitVec 5) (t : BitVec 3) (s : State) : Host.Outcome State Fault Refusal :=
  runSlot (.vimul h d a b t) h (semV (.vimul h d a b t) t) s

/-- VAND (R275). -/
def execVand (h : Hdr) (d a b : BitVec 5) (t : BitVec 3) (s : State) : Host.Outcome State Fault Refusal :=
  runSlot (.vand h d a b t) h (semV (.vand h d a b t) t) s

/-- VOR (R275). -/
def execVor (h : Hdr) (d a b : BitVec 5) (t : BitVec 3) (s : State) : Host.Outcome State Fault Refusal :=
  runSlot (.vor h d a b t) h (semV (.vor h d a b t) t) s

/-- VXOR (R275). -/
def execVxor (h : Hdr) (d a b : BitVec 5) (t : BitVec 3) (s : State) : Host.Outcome State Fault Refusal :=
  runSlot (.vxor h d a b t) h (semV (.vxor h d a b t) t) s

/-- VSHLI (R275). -/
def execVshli (h : Hdr) (d a k : BitVec 5) (t : BitVec 3) (s : State) : Host.Outcome State Fault Refusal :=
  runSlot (.vshli h d a k t) h (semV (.vshli h d a k t) t) s

/-- VSHRI (R275). -/
def execVshri (h : Hdr) (d a k : BitVec 5) (t : BitVec 3) (s : State) : Host.Outcome State Fault Refusal :=
  runSlot (.vshri h d a k t) h (semV (.vshri h d a k t) t) s

/-- VSARI (R275). -/
def execVsari (h : Hdr) (d a k : BitVec 5) (t : BitVec 3) (s : State) : Host.Outcome State Fault Refusal :=
  runSlot (.vsari h d a k t) h (semV (.vsari h d a k t) t) s

/-- VSHUF (R275). -/
def execVshuf (h : Hdr) (d a b : BitVec 5) (t : BitVec 3) (s : State) : Host.Outcome State Fault Refusal :=
  runSlot (.vshuf h d a b t) h (semV (.vshuf h d a b t) t) s

/-- VBCST (R275). -/
def execVbcst (h : Hdr) (d a : BitVec 5) (lane : BitVec 4) (t : BitVec 3) (s : State) :
    Host.Outcome State Fault Refusal :=
  runSlot (.vbcst h d a lane t) h (semV (.vbcst h d a lane t) t) s

/-- VIOTA (R275). -/
def execViota (h : Hdr) (d a : BitVec 5) (t : BitVec 3) (s : State) : Host.Outcome State Fault Refusal :=
  runSlot (.viota h d a t) h (semV (.viota h d a t) t) s

/-- VCLAMP (R265). -/
def execVclamp (h : Hdr) (d a b : BitVec 5) (t : BitVec 3) (s : State) : Host.Outcome State Fault Refusal :=
  runSlot (.vclamp h d a b t) h (semV (.vclamp h d a b t) t) s

/-- VRNDB (R265). -/
def execVrndb (h : Hdr) (d a : BitVec 5) (t : BitVec 3) (s : State) : Host.Outcome State Fault Refusal :=
  runSlot (.vrndb h d a t) h (semV (.vrndb h d a t) t) s

/-- VIMIN (R275). -/
def execVimin (h : Hdr) (d a b : BitVec 5) (t : BitVec 3) (u : Bool) (s : State) : Host.Outcome State Fault Refusal :=
  runSlot (.vimin h d a b t u) h (semV (.vimin h d a b t u) t) s

/-- VIMAX (R275). -/
def execVimax (h : Hdr) (d a b : BitVec 5) (t : BitVec 3) (u : Bool) (s : State) : Host.Outcome State Fault Refusal :=
  runSlot (.vimax h d a b t u) h (semV (.vimax h d a b t u) t) s

/-- VCMPI (R275). -/
def execVcmpi (h : Hdr) (d a : BitVec 5) (i : Imm 6 32) (cond : BitVec 3) (s : State) :
    Host.Outcome State Fault Refusal :=
  runSlot (.vcmpi h d a i cond) h (semV (.vcmpi h d a i cond) 0#3) s

end Sys2Proof.Machine
end

