-- ==== Sys2Proof/Machine/Fields.lean ====
section
/-! DEFINITION. What an instruction names: the registers it writes, the tag it allocates, its links, for the checks of a
bundle as a whole (R148, R200). -/

namespace Sys2Proof.Machine

/-- The name of an s register among all register names. -/
def regS (n : Nat) : Nat := n
/-- The name of an a register. -/
def regA (n : Nat) : Nat := 64 + n
/-- The name of a p register. -/
def regP (n : Nat) : Nat := 128 + n
/-- The name of a v register. -/
def regV (n : Nat) : Nat := 192 + n
/-- The name of a directly named tile register; a ring names none. -/
def regT : TileRef → List Nat
  | .tile t => [256 + t.toNat]
  | .ring _ => []

/-- The names of a FILL's list (R243). -/
def listNames (f : BitVec 5) (n : BitVec 4) (c : BitVec 2) : List Nat :=
  (upTo (n.toNat + 1)).map fun i => (match c.toNat with
    | 0 => regS
    | 1 => regV
    | 2 => regA
    | _ => regP) (f.toNat + i)

/-- The names of the registers a slot of class X, L or B writes, and of the predicates or scalars of the others. -/
def plainDests : Instr → List Nat
  | .add _ d _ _ => [regS d.toNat]
  | .sub _ d _ _ => [regS d.toNat]
  | .and _ d _ _ => [regS d.toNat]
  | .or _ d _ _ => [regS d.toNat]
  | .xor _ d _ _ => [regS d.toNat]
  | .andn _ d _ _ => [regS d.toNat]
  | .shl _ d _ _ => [regS d.toNat]
  | .shr _ d _ _ => [regS d.toNat]
  | .sar _ d _ _ => [regS d.toNat]
  | .rotl _ d _ _ => [regS d.toNat]
  | .mul _ d _ _ _ => [regS d.toNat]
  | .mulh _ d _ _ _ => [regS d.toNat]
  | .min _ d _ _ _ => [regS d.toNat]
  | .max _ d _ _ _ => [regS d.toNat]
  | .cmp _ p _ _ _ => [regP p.toNat]
  | .sel _ d _ _ _ => [regS d.toNat]
  | .clz _ d _ => [regS d.toNat]
  | .ctz _ d _ => [regS d.toNat]
  | .popc _ d _ => [regS d.toNat]
  | .brev _ d _ => [regS d.toNat]
  | .bfx _ d _ _ _ => [regS d.toNat]
  | .bfi _ d _ _ => [regS d.toNat]
  | .div _ d _ _ _ _ => [regS d.toNat]
  | .rem _ d _ _ _ _ => [regS d.toNat]
  | .addi _ d _ _ => [regS d.toNat]
  | .andi _ d _ _ => [regS d.toNat]
  | .ori _ d _ _ => [regS d.toNat]
  | .xori _ d _ _ => [regS d.toNat]
  | .shli _ d _ _ => [regS d.toNat]
  | .shri _ d _ _ => [regS d.toNat]
  | .sari _ d _ _ => [regS d.toNat]
  | .cmpeqi _ p _ _ => [regP p.toNat]
  | .cmplti _ p _ _ => [regP p.toNat]
  | .cmpltui _ p _ _ => [regP p.toNat]
  | .muli _ d _ _ => [regS d.toNat]
  | .movi _ d _ => [regS d.toNat]
  | .movhi _ d _ => [regS d.toNat]
  | .xtoa _ d _ => [regA d.toNat]
  | .atox _ d _ => [regS d.toNat]
  | .xtov _ d _ _ => [regV d.toNat]
  | .vtox _ d _ _ => [regS d.toNat]
  | .xtop _ p _ => [regP p.toNat]
  | .ptox _ d _ => [regS d.toNat]
  | .ldb _ s _ _ _ _ => [regS s.toNat]
  | .ldbu _ s _ _ _ _ => [regS s.toNat]
  | .ldh _ s _ _ _ _ => [regS s.toNat]
  | .ldhu _ s _ _ _ _ => [regS s.toNat]
  | .ldw _ s _ _ _ _ => [regS s.toNat]
  | .ldv _ s _ _ _ _ => [regV s.toNat]
  | .ldvb _ s _ _ _ _ => [regV s.toNat, regV (s.toNat + 1)]
  | .ldvg _ s _ _ _ _ => [regV s.toNat]
  | .ldt _ r _ _ _ _ _ => regT r
  | .fill _ f _ n c _ => listNames f n c
  | .aadd _ d _ _ _ _ => [regS d.toNat]
  | .aand _ d _ _ _ _ => [regS d.toNat]
  | .aor _ d _ _ _ _ => [regS d.toNat]
  | .axor _ d _ _ _ _ => [regS d.toNat]
  | .amin _ d _ _ _ _ => [regS d.toNat]
  | .amax _ d _ _ _ _ => [regS d.toNat]
  | .aminu _ d _ _ _ _ => [regS d.toNat]
  | .amaxu _ d _ _ _ _ => [regS d.toNat]
  | .afadd _ d _ _ _ _ => [regS d.toNat]
  | .aswap _ d _ _ _ _ => [regS d.toNat]
  | .acas _ d _ _ _ _ => [regS d.toNat]
  | .barrd _ s _ _ _ _ => [regS s.toNat]
  | .ferd _ s _ _ _ => [regS s.toNat]
  | .bldw _ s _ _ _ => [regS s.toNat]
  | .bldd _ s _ _ _ => [regS s.toNat, regS (s.toNat + 1)]
  | .lea _ d _ _ => [regA d.toNat]
  | .adda _ d _ _ _ => [regA d.toNat]
  | .vsgn _ p _ _ _ _ => [regP p.toNat]
  | .vthr _ p _ _ _ _ _ => [regP p.toNat]
  | .chwin _ _ l _ => [regS l.toNat]
  | .chseq _ _ l => [regS l.toNat]
  | .loopset _ _ _ mod => if mod then [regP 4, regP 5, regP 6, regP 7] else []
  | .loop _ _ _ => [regP 4, regP 5, regP 6, regP 7]
  | .getc _ d _ => [regS d.toNat]
  | .pand _ d _ _ => [regP d.toNat]
  | .por _ d _ _ => [regP d.toNat]
  | .pxor _ d _ _ => [regP d.toNat]
  | .pandn _ d _ _ => [regP d.toNat]
  | .pmov _ d _ => [regP d.toNat]
  | _ => []

/-- The names of the registers a slot writes under an fmt value, s0 and p0 left out (R148, R146); `wide` says that VMOV
moves an FP64 link. -/
def instrDests (fmt : Word) (wide : Bool) (i : Instr) : List Nat :=
  let d := (vDest i).toNat
  let vec := if slotClass ((encode i).headD 0#32) != 2 || (vDestLink i).isSome then []
    else match i with
      | .vsgn _ _ _ _ _ _ | .vthr _ _ _ _ _ _ _ => []
      | i => if vDest64 i fmt wide then [regV d, regV (d + 1)] else [regV d]
  (plainDests i ++ vec ++ (engWrites i).flatMap regT).filter fun n => n != regS 0 && n != regP 0

/-- The tag a slot allocates (R157): PORTW names one and allocates none (R318). -/
def instrTag : Instr → List Nat
  | .div _ _ _ _ t _ => [t.toNat]
  | .rem _ _ _ _ t _ => [t.toNat]
  | .ldb _ _ _ _ _ t => [t.toNat]
  | .ldbu _ _ _ _ _ t => [t.toNat]
  | .ldh _ _ _ _ _ t => [t.toNat]
  | .ldhu _ _ _ _ _ t => [t.toNat]
  | .ldw _ _ _ _ _ t => [t.toNat]
  | .ldv _ _ _ _ _ t => [t.toNat]
  | .ldvb _ _ _ _ _ t => [t.toNat]
  | .ldvg _ _ _ _ _ t => [t.toNat]
  | .ldt _ _ _ _ _ _ t => [t.toNat]
  | .spill _ _ _ _ _ t => [t.toNat]
  | .fill _ _ _ _ _ t => [t.toNat]
  | .aadd _ _ _ _ _ t => [t.toNat]
  | .aand _ _ _ _ _ t => [t.toNat]
  | .aor _ _ _ _ _ t => [t.toNat]
  | .axor _ _ _ _ _ t => [t.toNat]
  | .amin _ _ _ _ _ t => [t.toNat]
  | .amax _ _ _ _ _ t => [t.toNat]
  | .aminu _ _ _ _ _ t => [t.toNat]
  | .amaxu _ _ _ _ _ t => [t.toNat]
  | .afadd _ _ _ _ _ t => [t.toNat]
  | .aswap _ _ _ _ _ t => [t.toNat]
  | .acas _ _ _ _ _ t => [t.toNat]
  | .bararr _ _ _ _ t => [t.toNat]
  | .barrd _ _ _ _ _ t => [t.toNat]
  | .ferd _ _ _ _ t => [t.toNat]
  | .bldw _ _ _ _ t => [t.toNat]
  | .bldd _ _ _ _ t => [t.toNat]
  | .bstw _ _ _ _ t => [t.toNat]
  | .bstd _ _ _ _ t => [t.toNat]
  | .vadd _ _ _ _ t _ => [t.toNat]
  | .vsub _ _ _ _ t _ => [t.toNat]
  | .vmul _ _ _ _ t _ => [t.toNat]
  | .vfma _ _ _ _ t _ => [t.toNat]
  | .vfms _ _ _ _ t _ => [t.toNat]
  | .vfnma _ _ _ _ t _ => [t.toNat]
  | .vdiv _ _ _ _ t _ => [t.toNat]
  | .vsqrt _ _ _ t _ => [t.toNat]
  | .vrsqrt _ _ _ t _ => [t.toNat]
  | .vrcp _ _ _ t _ => [t.toNat]
  | .vmin _ _ _ _ t _ => [t.toNat]
  | .vmax _ _ _ _ t _ => [t.toNat]
  | .vabs _ _ _ t _ => [t.toNat]
  | .vneg _ _ _ t _ => [t.toNat]
  | .vmaxa _ _ _ _ t _ => [t.toNat]
  | .vsgn _ _ _ _ _ t => [t.toNat]
  | .vthr _ _ _ _ _ _ t => [t.toNat]
  | .vsel _ _ _ _ t => [t.toNat]
  | .vmov _ _ _ t => [t.toNat]
  | .vcvt _ _ _ _ t => [t.toNat]
  | .vred _ _ _ t _ => [t.toNat]
  | .vdot _ _ _ _ t _ => [t.toNat]
  | .viadd _ _ _ _ t => [t.toNat]
  | .visub _ _ _ _ t => [t.toNat]
  | .vimul _ _ _ _ t => [t.toNat]
  | .vand _ _ _ _ t => [t.toNat]
  | .vor _ _ _ _ t => [t.toNat]
  | .vxor _ _ _ _ t => [t.toNat]
  | .vshli _ _ _ _ t => [t.toNat]
  | .vshri _ _ _ _ t => [t.toNat]
  | .vsari _ _ _ _ t => [t.toNat]
  | .vshuf _ _ _ _ t => [t.toNat]
  | .vbcst _ _ _ _ t => [t.toNat]
  | .viota _ _ _ t => [t.toNat]
  | .vclamp _ _ _ _ t => [t.toNat]
  | .vrndb _ _ _ t => [t.toNat]
  | .vimin _ _ _ _ t _ => [t.toNat]
  | .vimax _ _ _ _ t _ => [t.toNat]
  | .mxw _ _ t => [t.toNat]
  | .mxf _ _ _ t => [t.toNat]
  | .mxr _ _ _ t => [t.toNat]
  | .mxp _ _ _ _ t => [t.toNat]
  | .mxz _ _ _ t => [t.toNat]
  | .mxo _ _ _ t => [t.toNat]
  | .mxq _ _ _ t => [t.toNat]
  | .xpt _ _ _ t => [t.toNat]
  | .xpc _ _ _ _ t => [t.toNat]
  | .upadm _ _ _ _ _ t => [t.toNat]
  | .upsgd _ _ _ _ t => [t.toNat]
  | .upaxp _ _ _ t => [t.toNat]
  | .rnmask _ _ _ _ t => [t.toNat]
  | .rnuni _ _ _ _ t => [t.toNat]
  | .chsendv _ _ _ _ t => [t.toNat]
  | .chsendt _ _ _ t => [t.toNat]
  | .chsendm _ _ _ _ _ t => [t.toNat]
  | .chred _ _ _ _ _ t => [t.toNat]
  | .charr _ _ _ _ t => [t.toNat]
  | .acq _ _ _ _ t => [t.toNat]
  | .rel _ _ _ t => [t.toNat]
  | _ => []

/-- The links a slot names, as sources or as its destination (R200). -/
def instrLinks (i : Instr) : List Nat := (linkOperands i).map (·.2) ++ (vDestLink i).toList

/-- Whether a VMOV reads a link of FP64 precision. -/
def Tile.linkWide (t : Tile) (i : Instr) : Bool :=
  match i with
  | .vmov _ _ a _ => if a.toNat ≥ 28 then (match t.link (a.toNat - 28) with
      | some l => l.prec64
      | none => false) else false
  | _ => false

end Sys2Proof.Machine
end

