-- ==== Sys2Proof/Machine/TileEvents.lean ====
section
/-! DEFINITION. The steps a tile takes by itself: an invalid bundle, a queued store, a copy's rows and completion, time-outs,
landing results, deciders, engines, traps and aborts; and the fetch of a bundle (R199 to R201). -/

namespace Sys2Proof.Machine

/-- What a fetch can do: the slots of the bundle, or the first failing slot and its cause. -/
abbrev Fetched := Except (Nat × Cause) (List Instr)

/-- Whether the word at a code address has an uncorrectable error. -/
def Pad.codeFails (p : Pad) (a : Nat) : Bool := p.codeBad.has (a / 4 * 4)

/-- The Y slot of an owner at `a`, when it can be read. -/
def Tile.yAfter (t : Tile) (a : Nat) : Option Word :=
  let w := t.pad.code.word (a + 4)
  if a + 4 < 0x4000 && !t.pad.codeFails (a + 4) && isY w then some w else none

/-- The checks of R199, slot by slot from word `k` of the bundle at pc on; `fuel` words are left, and the eighth must end the
bundle (R191). `skip` passes over the Y slot that its owner has taken. -/
def Tile.scan (t : Tile) : Nat → Nat → Bool → Fetched
  | 0, _, _ => .error (0, .illbnd)
  | fuel + 1, k, true => Tile.scan t fuel (k + 1) false
  | fuel + 1, k, false =>
    let a := t.sch.pc.toNat + 4 * k
    let w := t.pad.code.word a
    if a ≥ 0x4000 || a % 4 != 0 then .error (k, .fetch)
    else if t.pad.codeFails a then .error (k, .fetchecc)
    else if isY w then .error (k, .illy)
    else
      let y := if slotLast w || !acceptsY w || fuel == 0 then none else t.yAfter a
      let last := match y with
        | some v => slotLast v
        | none => slotLast w
      match decodeSlot w last (y.map yImm) with
      | .error c => .error (k, c)
      | .ok i =>
        if !vEncOk t.ctl.fmt i then .error (k, .illfld)
        else if last then .ok [i]
        else
          match Tile.scan t fuel (k + 1) y.isSome with
          | .ok l => .ok (i :: l)
          | .error e => .error e

/-- The class of an instruction: X 0, L 1, V 2, E 3, B 4, K 5 (R190). -/
def instrClass (i : Instr) : Nat := slotClass ((encode i).headD 0#32)

/-- How many slots of a class a bundle may hold (R192). -/
def classMost (c : Nat) : Nat := if c = 0 ∨ c = 2 then 2 else 1

/-- Whether the conflicts of a bundle leave it valid: every list of names has no name twice. -/
def apartAll (l : List (List Nat)) : Bool := (l.flatMap id).Nodup

/-- The checks of R200 on a bundle whose slots all pass: class counts, registers, control registers, tags and links that
two slots name. -/
def Tile.bundleOk (t : Tile) (l : List Instr) : Bool :=
  (upTo 6).all (fun c => decide ((l.filter (instrClass · == c)).length ≤ classMost c))
    && apartAll (l.map fun i => (instrDests t.ctl.fmt (t.linkWide i) i).dedup)
    && apartAll (l.map fun i => (instrTag i).filter (· != 0))
    && apartAll (l.map fun i => (instrLinks i).dedup)

/-- The bundle at pc (R199, R200). -/
def Tile.fetchBundle (t : Tile) : Fetched :=
  match t.scan 8 0 false with
  | .error e => .error e
  | .ok l => if t.bundleOk l then .ok l else .error (0, .illbnd)

/-- The slot of an open bundle that comes next. -/
def Bundle.next (b : Bundle) : Option Instr :=
  match b.start.scan (8 - b.pos) b.pos false with
  | .ok (i :: _) => some i
  | _ => none

/-- A stage is replayed: the tile stalls for 2 cycles (R370). -/
def Tile.stall2 (t : Tile) : Tile := t.withSch fun x => { x with ready := Nat.max x.ready x.cycle + 2 }

/-- The armed shadow latch of a tile reports at the bundle that it would issue: the stage is replayed first, once for a bundle
(R370, R375). -/
def Tile.replayFirst (t : Tile) : Option Tile :=
  if t.inj.has 7 && t.sch.waited == 0 then
    some ({ t.stall2 with inj := t.inj.hit 7 }.withSch fun s => { s with waited := 2 })
  else none

/-- How many words the fetch of the bundle at pc reads. -/
def Tile.fetchedWords (t : Tile) : Nat :=
  match t.scan 8 0 false with
  | .ok l => (l.map fun i => (encode i).length).sum
  | .error (k, _) => k + 1

/-- The errors that a bundle's first attempt to issue meets: correctable ones of its words are corrected in the fetch and counted;
those of the core's files are corrected and counted, or raise ENGECC with INFO 0, which an armed detector reports too (R366, R367,
R375). The words of the instruction SRAM keep their errors: DEDUCED from Table 18-1, which has only the scratchpad's written back
(entry 83). -/
def Tile.fetchMeet (t : Tile) : Tile :=
  if t.sch.stall.isSome then t
  else
    let n := if t.pad.codeSoft.isEmpty then 0
      else ((upTo t.fetchedWords).filter fun k => t.pad.codeSoft.has (t.sch.pc.toNat + 4 * k)).length
    let t := { t with counts := addCount none (n + t.fileSoft) t.counts, fileSoft := 0 }
    if t.fileBad then { t with fileBad := false }.raise .engecc (some t.sch.seq)
    else if t.inj.has 2 then { t with inj := t.inj.hit 2 }.await .engecc (some t.sch.seq) 0 0#64 0#64
    else t

/-- INVALID_BUNDLE: no slot takes effect, the cause is raised at issue with the index of its slot (R201); a fetch at an
address that is no multiple of 4 carries that address (R218). -/
def execInvalidBundle (cause : Cause) (slot : BitVec 3) (s : State) : Host.Outcome State Fault Refusal :=
  let fa : DWord := if cause = .fetch && s.core.sch.pc.toNat % 4 != 0 then s.core.sch.pc.setWidth 64 else 0#64
  .next (State.flush { s with core := s.core.issueTrap cause slot.toNat fa 0#64, bundle := none })

/-- STORE_PERFORM: the oldest access of port A is performed at its bank (R108). -/
def execStorePerform (c : Coord) (s : State) : Host.Outcome State Fault Refusal := .next (s.onTile c fun t => if t.frozen then t else t.performHead)

/-- Whether the bundle at pc waits with a bound of a kind that has expired. -/
def Tile.expiredIn (t : Tile) (k : StallKind) : Option Stall :=
  match t.sch.stall with
  | some st => if st.expired && st.kind == k then some st else none
  | none => none

/-- A wait's bound expires: its cause is raised at issue (R39, R90). -/
def Tile.waitExpires (t : Tile) (k : StallKind) (c : Cause) : Tile :=
  match t.expiredIn k with
  | some st => ({ t with sch := { t.sch with stall := none, waited := 0 } }).issueCause c st.slot st.faddr st.info
  | none => t

/-- FE_WAIT_TIMEOUT: FETMO (R39, R233, R234). -/
def execFeWaitTimeout (c : Coord) (s : State) : Host.Outcome State Fault Refusal :=
  .next (s.onTile c fun t => t.waitExpires .fe .fetmo)

/-- SEND_WAIT_TIMEOUT: CHWTMO (R90). -/
def execSendWaitTimeout (c : Coord) (s : State) : Host.Outcome State Fault Refusal :=
  .next (s.onTile c fun t => t.waitExpires .send .chwtmo)

/-- BARWAIT_TIMEOUT: the object's TMO is set and BARTMO raised (R251). -/
def execBarwaitTimeout (c : Coord) (s : State) : Host.Outcome State Fault Refusal :=
  .next (s.onTile c fun t =>
    match t.expiredIn .bar with
    | some st => (t.withPad fun p => p.putBar st.obj { p.bar st.obj with tmo := true }).waitExpires .bar .bartmo
    | none => t)

/-- PRODUCER_LAND (R153). -/
def execProducerLand (c : Coord) (s : State) : Host.Outcome State Fault Refusal := .next (s.onTile c fun t => if t.frozen then t else t.landNext)

/-- V_DECIDE (R271, R272). -/
def execVDecide (c : Coord) (s : State) : Host.Outcome State Fault Refusal :=
  .next (s.onTile c fun t =>
    if t.frozen then t
    else match t.nextDecider with
    | some o => t.decideV o t.sch.cycle
    | none => t)

/-- The detectors of an engine that injection can make report, by UNIT bit (Table 18-3, R301). -/
def injectable (e : Engine) (late : Bool) : List (Nat × Cause) :=
  match e, late with
  | .mx, false => [(2, .engecc), (4, .mxres), (5, .mxres)]
  | .xp, false | .up, false | .rn, false => [(2, .engecc)]
  | .xp, true => [(6, .xperr)]
  | .up, true => [(6, .uperr)]
  | .rn, true => [(6, .rnerr)]
  | _, _ => []

/-- An engine step with injection: the first armed detector of the step that has no real strike waiting is struck; if the
step finds the strike, it is reported, but neither counted nor held against the tile (R369, R375, R382). -/
def Tile.withInjection (t : Tile) (e : Engine) (late : Bool) (f : Tile → Tile) : Tile :=
  match (injectable e late).find? fun x => t.inj.has x.1 && !t.eng.strikes.elem (e, x.2) with
  | none => f t
  | some (u, c) =>
    let t' := f { t with eng := { t.eng with strikes := t.eng.strikes ++ [(e, c)] } }
    if t'.eng.strikes.elem (e, c) then { t' with eng := { t'.eng with strikes := t'.eng.strikes.erase (e, c) } }
    else { t' with inj := t'.inj.hit u, counts := t.counts, health := t.health }

/-- ENGINE_FIRE (R281). An MXSPARE starts the tile's quarantine (R378). -/
def execEngineFire (c : Coord) (e : Engine) (s : State) : Host.Outcome State Fault Refusal :=
  let spare : Bool := match s.tileAt c with
    | some t => e == .mx && t.eng.arr.failed && t.fireDue e
    | none => false
  let s' := s.onTile c fun t => if !t.fires then t else t.withInjection e false fun t => t.fireEngine e
  .next (if spare then s'.push [.shiftMigration c] else s')

/-- ENGINE_COMPLETE (R300). -/
def execEngineComplete (c : Coord) (e : Engine) (s : State) : Host.Outcome State Fault Refusal :=
  .next (s.onTile c fun t => t.withInjection e true fun t => t.completeEngine e)

/-- Whether the oldest pending cause aborts a block rather than being a trap (R316). -/
def Tile.pendAborts (t : Tile) : Bool :=
  match t.sch.pend with
  | p :: _ => isContainment p.cause && !t.blocks.isEmpty
  | [] => false

/-- TRAP_TAKE: the oldest pending cause is taken at a bundle boundary with traps unmasked (R322, R323). -/
def execTrapTake (c : Coord) (s : State) : Host.Outcome State Fault Refusal :=
  .next (s.onTile c fun t => if t.pendAborts || t.sch.status != .running then t else t.takePending)

/-- The oldest pending cause, a containment error, aborts the innermost block (R316). -/
def Tile.abortPending (t : Tile) : Tile :=
  match t.sch.pend with
  | p :: l => if t.sch.tm || !t.pendAborts then t else (t.withSch fun s => { s with pend := l }).abortBlock p.cause
  | [] => t

/-- CONTAINMENT_ABORT (R316, R367). -/
def execContainmentAbort (c : Coord) (s : State) : Host.Outcome State Fault Refusal :=
  .next (s.onTile c Tile.abortPending)

end Sys2Proof.Machine
end

