-- ==== Sys2Proof/Machine/Fabric.lean ====
section
/-! DEFINITION. The fabric (R81 to R103): flits hop by hop, link errors, packets and arrivals at their receivers, credits,
notices and results at their senders, reduction trees, and the comparison of a pair's traffic (R142, R143). -/

namespace Sys2Proof.Machine

/-- The neighbour of a coordinate (R81). -/
def neighbour (c : Coord) : Dir → Coord
  | .w => ⟨c.row, (c.col + 999) % 1000⟩
  | .n => ⟨(c.row + 999) % 1000, c.col⟩
  | .e => ⟨c.row, (c.col + 1) % 1000⟩
  | .s => ⟨(c.row + 1) % 1000, c.col⟩

/-- The opposite direction. -/
def oppDir : Dir → Dir
  | .w => .e
  | .n => .s
  | .e => .w
  | .s => .n

/-- The input port that faces a direction. -/
def dirPort : Dir → Port
  | .w => .w
  | .n => .n
  | .e => .e
  | .s => .s

/-- The direction an input port faces; none for the local one. -/
def portDir : Port → Option Dir
  | .loc => none
  | .w => some .w
  | .n => some .n
  | .e => some .e
  | .s => some .s

/-- Where a message goes, when the fabric carries it: contributions to the own router and PORTW do not count. -/
def Msg.dest : Msg → Option Dest
  | .packet h _ _ _ => some h.dst
  | .arrival h _ _ _ => some h.dst
  | .credit d _ _ => some d
  | .notice d _ _ _ _ => some d
  | .result d _ _ _ _ => some d
  | .partial_ d _ p _ _ => if p = .loc then none else some ⟨none, d⟩
  | .abandon d _ _ _ => some ⟨none, d⟩
  | .crc d _ _ => some ⟨none, d⟩
  | _ => none

/-- The virtual channel of a message (Table 04-1). -/
def Msg.vc : Msg → Nat
  | .packet h _ _ _ => h.vc
  | .arrival h _ _ _ => h.vc
  | .partial_ _ _ _ _ _ => 1
  | _ => 3

/-- The signed hops from one coordinate to another on a ring of 1,000, the shorter way. -/
def ringDelta (a b : Nat) : Int :=
  let d := (b + 1000 - a % 1000) % 1000
  if d ≤ 500 then d else (d : Int) - 1000

/-- The notice that a discarded packet or arrival sends back to its sender (R83, R94). -/
def Msg.noticeOf (m : Msg) (c : Cause) : Option Msg :=
  match m with
  | .packet h _ _ _ => some (.notice h.src h.och h.seq c 0#3)
  | .arrival h _ _ tag => some (.notice h.src h.och h.seq c tag)
  | _ => none

/-- A flit for a message that leaves a coordinate: a local channel takes the hops of its entry (R85), any other message the
shorter way. -/
def mkFlit (at_ : Coord) (o : Option DWord) (m : Msg) (d : Coord) : Flit :=
  match o with
  | some e => ⟨m, at_, false, sxt 10 (bitsOf e.toNat 10 10), sxt 10 (bitsOf e.toNat 0 10), e.getLsbD 59, 0⟩
  | none => ⟨m, at_, false, ringDelta at_.col d.col, ringDelta at_.row d.row, false, 0⟩

/-- What goes back to the sender of a packet or arrival that the fabric discards: a notice, and a packet's credit (R83, R94). -/
def Msg.backTo (m : Msg) (c : Cause) : List Msg :=
  (m.noticeOf c).toList ++ (match m with
    | .packet h _ _ _ => [.credit h.src h.och 1]
    | _ => [])

/-- The optical port that a message to a peer wafer leaves by: the one its route names, where it is secure with that wafer. What
answers a remote sender goes by the port that its traffic came by; before any has come, no entry names one, and it is the first port
that is secure with the wafer (R86, R97; entry 69). -/
def Device.portTo (dv : Device) (port wafer : Nat) : Option Nat :=
  if port < 32 then (if dv.secure port wafer then some port else none)
  else (upTo 32).find? fun p => dv.secure p wafer

/-- A message enters the fabric at a tile: on this wafer, or over an optical port that is secure with the named wafer at its
other end; any other remote message is discarded, a packet or arrival with a CHNOROUTE notice (R97, R401). -/
def Device.enter (dv : Device) (at_ : Coord) (entry : Option DWord) (m : Msg) : Device :=
  match m.dest with
  | none => dv
  | some d =>
    match d.remote with
    | none => { dv with net := dv.net ++ [mkFlit at_ entry m d.coord] }
    | some (port, wafer) => match dv.portTo port wafer with
      | some p => { dv with remoteOut := dv.remoteOut ++ [m], frames := dv.frames.filter (·.1 != p) }
      | none => { dv with net := dv.net ++ (m.backTo .chnoroute).map fun n => mkFlit at_ none n ((n.dest.map (·.coord)).getD at_) }

/-- A message that a tile has handed to its router enters the fabric; its own packets and arrivals take the hops of their route
entry (R85). -/
def Device.inject (t : Tile) (dv : Device) (m : Msg) : Device :=
  dv.enter t.coord (match m.head with
    | some h => if h.src.coord == t.coord && h.src.remote.isNone then some (t.outCh h.och).entry else none
    | none => none) m

/-- Whether a message waits in its tile for another event. -/
def Msg.waits (m : Msg) : Bool := m.dest.isNone

/-- The messages a tile has handed to its router enter the fabric, in order. -/
def State.injectTile (s : State) (t : Tile) : State :=
  match s.tileAt t.coord with
  | none => s
  | some t =>
    let ms := t.out.filter fun m => !m.waits
    if ms.isEmpty then s
    else ({ s with dev := ms.foldl (Device.inject t) s.dev }).setTile { t with out := t.out.filter Msg.waits }

/-- The messages of every tile enter the fabric. -/
def State.inject (s : State) : State := (s.core :: s.others).foldl State.injectTile s

/-- The next hop of a flit in dimension order; none at its end (R82, R85). -/
def Flit.next (f : Flit) : Option Dir :=
  let x : Option Dir := if f.dx = 0 then none else some (if f.dx < 0 then .w else .e)
  let y : Option Dir := if f.dy = 0 then none else some (if f.dy < 0 then .n else .s)
  if f.yx then y.or x else x.or y

/-- A flit after a hop. -/
def Flit.hop (f : Flit) (d : Dir) : Flit :=
  let f := { f with at_ := neighbour f.at_ d }
  match d with
  | .w => { f with dx := f.dx + 1 }
  | .e => { f with dx := f.dx - 1 }
  | .n => { f with dy := f.dy + 1 }
  | .s => { f with dy := f.dy - 1 }

/-- Whether an earlier flit waits for the same link on the same virtual channel: flits of one path keep their order (R82,
R93). -/
def aheadOf (l : List Flit) (f : Flit) : Bool :=
  l.any fun g => !g.arrived && g.at_ == f.at_ && g.msg.vc == f.msg.vc && g.next == f.next

/-- Whether a hop is a down link, or for a message of the msg and red channels has an absent tile or a hole at an end; bulk
and ctl traffic is carried round those (R83, R406). -/
def Device.noHop (dv : Device) (c : Coord) (d : Dir) (vc : Nat) : Bool :=
  dv.down.elem (c, d) || (decide (vc < 2) && (dv.absent c || dv.absent (neighbour c d)))

/-- Whether the router at the far end of a hop takes no new flit: that of a tile which a migration has told to stop, on the msg,
red and bulk channels; what another such router has already accepted it takes (R21; entry 71). -/
def Device.refuses (dv : Device) (c : Coord) (d : Dir) (vc : Nat) : Bool :=
  decide (vc < 3) && dv.moves (neighbour c d) && !dv.moves c

/-- The order in which a link takes red, msg and bulk after the channel that it took last (R82); red is first (entry 69). -/
def vcOrder : Nat → List Nat
  | 1 => [0, 2, 1]
  | 0 => [2, 1, 0]
  | _ => [1, 0, 2]

/-- Whether a link end takes a flit of a virtual channel now: ctl first, else red, msg and bulk in rotation (R82). -/
def Device.linkTurn (dv : Device) (c : Coord) (d : Dir) (vc : Nat) : Bool :=
  let l := (dv.net.filter fun g => !g.arrived && g.at_ == c && g.next == some d && !dv.refuses c d g.msg.vc).map (·.msg.vc)
  let last := ((dv.turns.find? fun x => x.1 == c && x.2.1 == d).map (·.2.2)).getD 2
  if l.elem 3 then vc == 3 else (vcOrder last).find? l.elem == some vc

/-- A link end has taken a flit of a virtual channel; ctl does not count in the rotation (R82). -/
def Device.took (dv : Device) (c : Coord) (d : Dir) (vc : Nat) : Device :=
  if vc = 3 then dv else { dv with turns := (c, d, vc) :: dv.turns.filter fun x => x.1 != c || x.2.1 != d }

/-- A flit leaves a router's buffer: a correctable error that it meets there is corrected and counted, an uncorrectable one is counted
and poisons a granule of a packet's payload, which one is free (R366, R367; entry 7). -/
def Device.meetBuffer (dv : Device) (f : Flit) : Flit × Device :=
  let soft := dv.bufSoft.elem f.at_
  let bad := dv.bufBad.elem f.at_
  if !soft && !bad then (f, dv)
  else
    let dv := { dv.withRegion (regionOf f.at_) fun r =>
        { r with cecnt := (r.cecnt + b2n soft) % 2 ^ 32, uecnt := (r.uecnt + b2n bad) % 2 ^ 32 } with
      bufSoft := dv.bufSoft.erase f.at_, bufBad := dv.bufBad.erase f.at_ }
    match f.msg with
    | .packet h p z b =>
      if bad then ({ f with msg := .packet h p (NatSet.add z (dv.freeBits 32 % Nat.max 1 (ceilDiv p.length 16))) b }, dv.draw) else (f, dv)
    | _ => (f, dv)

/-- The link that the k-th flit crosses now, if it does: its turn has come, and nothing refuses it (R82). -/
def Device.crosses (dv : Device) (k : Nat) : Option (Flit × Dir) :=
  match dv.net[k]? with
  | none => none
  | some f =>
    if f.arrived || aheadOf (dv.net.take k) f then none
    else f.next.bind fun d =>
      if dv.refuses f.at_ d f.msg.vc || !dv.linkTurn f.at_ d f.msg.vc || dv.noHop f.at_ d f.msg.vc then none else some (f, d)

/-- ROUTE_FLIT: the k-th flit goes one hop, waits for its turn, arrives, or is discarded at a down link, from where its sender is
told and given its credit back (R82, R83, R94). -/
def Device.routeFlit (dv : Device) (k : Nat) : Device :=
  match dv.net[k]? with
  | none => dv
  | some f =>
    if f.arrived || aheadOf (dv.net.take k) f then dv
    else
      match f.next with
      | none => { dv with net := dv.net.set k { f with arrived := true } }
      | some d =>
        if dv.refuses f.at_ d f.msg.vc || !dv.linkTurn f.at_ d f.msg.vc then dv
        else if dv.noHop f.at_ d f.msg.vc then
          (f.msg.backTo .lnkdn).foldl (fun (dv : Device) n => dv.enter f.at_ none n) { dv with net := dv.net.eraseIdx k }
        else
          let r := dv.meetBuffer f
          let g := r.1.hop d
          let dv := r.2
          { dv.took f.at_ d f.msg.vc with
            net := dv.net.set k { g with arrived := g.next.isNone }
            resends := dv.resends.filter fun r => r.1 != f.at_ || r.2.1 != d }

/-- ROUTE_FLIT: what the tiles have handed to their routers enters the fabric, and the k-th flit goes on. A tile whose link detector
is armed reports the flit that comes to it, and has it sent again, which changes nothing (R83, R375). -/
def State.routeFlit (s : State) (k : Nat) : State :=
  let s := s.inject
  let into := s.dev.crosses k
  let s := s.withDev fun dv => dv.routeFlit k
  match into with
  | some (f, d) => s.onTile (neighbour f.at_ d) fun t => if t.inj.has 3 then { t with inj := t.inj.hit 3 } else t
  | none => s

/-- ROUTE_FLIT (R82). -/
def execRouteFlit (k : Nat) (s : State) : Host.Outcome State Fault Refusal := .next (s.routeFlit k)

/-- The consecutive failed resends of a link end. -/
def Device.resendsOf (dv : Device) (c : Coord) (d : Dir) : Nat :=
  ((dv.resends.find? fun r => r.1 == c && r.2.1 == d).map (·.2.2)).getD 0

/-- LINK_RESEND: the receiving router asks for a resend, which is counted; after the 16th in a row the link is down (R83,
R367). A resend that injection asks for is no step of its own (State.routeFlit). -/
def State.linkResend (s : State) (c : Coord) (d : Dir) : State :=
  let n := s.dev.resendsOf c d + 1
  let s := s.withDev fun dv =>
    { dv.withRegion (regionOf (neighbour c d)) fun r => { r with linkrty := (r.linkrty + 1) % 2 ^ 32 } with
      resends := (c, d, n) :: dv.resends.filter fun r => r.1 != c || r.2.1 != d }
  if n = 16 then s.push [.linkDown (.tile c) d] else s

/-- The consecutive failed frames of an optical port's link. -/
def Device.framesOf (dv : Device) (p : Nat) : Nat := ((dv.frames.find? (·.1 == p)).map (·.2)).getD 0

/-- A frame of a secure optical link whose tag fails is sent again; after the 16th in a row the link is down. A ring node lies in no
region, so no region counts it (R83, R401; entry 83). -/
def State.frameResend (s : State) (p : Nat) : State :=
  if !(decide (p < 32)) || (s.dev.readyOf (108 + p)).kstate != 3 then s
  else
    let n := s.dev.framesOf p + 1
    let s := s.withDev fun dv => { dv with frames := (p, n) :: dv.frames.filter (·.1 != p) }
    if n = 16 then s.push [.linkDown (.optical p) .e] else s

/-- LINK_RESEND (R83, R401). -/
def execLinkResend (c : LinkEnd) (d : Dir) (s : State) : Host.Outcome State Fault Refusal :=
  .next (match c with
    | .tile c => s.linkResend c d
    | .optical p => s.frameResend p)

/-- The end of a link that is quarantined when neither report came first: the western or the northern one (R83). -/
def quarantineEnd (c : Coord) (d : Dir) : Coord :=
  match d with
  | .e | .s => c
  | .w | .n => neighbour c d

/-- LINK_DOWN: after 16 consecutive failed resends both ends are down, the receiving router's detector counts, and one tile is
quarantined: which router's report came first is a free choice (R83, R366, R378; entry 7). -/
def State.linkDown (s : State) (c : Coord) (d : Dir) : State :=
  if s.dev.resendsOf c d < 16 || s.dev.down.elem (c, d) then s
  else
    let dv := s.dev
    let tie := Config.freeBit dv.free
    let first := Config.freeBit (dv.free + 1)
    let q := if tie then quarantineEnd c d else if first then c else neighbour c d
    ({ s with dev := { dv.withRegion (regionOf (neighbour c d)) fun r => { r with uecnt := (r.uecnt + 1) % 2 ^ 32 } with
        free := dv.free + 2
        down := dv.down ++ [(c, d), (neighbour c d, oppDir d)]
        resends := dv.resends.filter fun r => r.1 != c || r.2.1 != d } }).push [.shiftMigration q]

/-- An optical link whose frames fail goes down: it has neither LINKUP nor SECURE, and what is in flight over it fails (R70, R77,
R401). -/
def State.opticalDown (s : State) (p : Nat) : State :=
  if s.dev.framesOf p < 16 then s
  else (s.linkDrop (.optical p)).withDev fun dv => { dv with frames := dv.frames.filter (·.1 != p) }

/-- LINK_DOWN (R83, R401). -/
def execLinkDown (c : LinkEnd) (d : Dir) (s : State) : Host.Outcome State Fault Refusal :=
  .next (match c with
    | .tile c => s.linkDown c d
    | .optical p => s.opticalDown p)

/-- The first message that has arrived at a coordinate and passes a test. -/
def Device.arrivedAt (dv : Device) (c : Coord) (p : Msg → Bool) : Option Flit :=
  dv.net.find? fun f => f.arrived && f.at_ == c && p f.msg

/-- Takes a flit out of the fabric. -/
def State.takeFlit (s : State) (f : Flit) : State := s.withDev fun dv => { dv with net := dv.net.erase f }

/-- The next packet or arrival of an inbound channel. -/
def Device.nextOn (dv : Device) (c : Coord) (ich : Nat) : Option Flit :=
  dv.arrivedAt c fun m => match m.head with
    | some h => h.ich == ich
    | none => false

/-- A message from a coordinate's router into the fabric. -/
def State.sendFrom (s : State) (c : Coord) (m : Msg) : State :=
  s.withDev fun dv => dv.enter c none m

/-- A notice to the sender of a discarded message. -/
def State.notify (s : State) (c : Coord) (m : Msg) (cause : Cause) : State :=
  match m.noticeOf cause with
  | some n => s.sendFrom c n
  | none => s

/-- The credit of a discarded packet returns at once (R94). -/
def State.giveBack (s : State) (c : Coord) (h : PHead) : State := s.sendFrom c (.credit h.src h.och 1)

/-- Whether a packet's sender is the one the inbound entry names; at a shadow the entry is taken from its primary's place
(R86, R94). -/
def Tile.fromSender (t : Tile) (i : InCh) (h : PHead) : Bool :=
  let from_ := match t.pair with
    | some p => if p.primary then t.coord else p.partner
    | none => t.coord
  let d := entryDest from_ i.entry
  entryV i.entry && !entrySink i.entry && entryCh i.entry == h.och && d.coord == h.src.coord
    && (d.remote.map (·.2)) == (h.src.remote.map (·.2))

/-- Whether the tile has a task that can receive. -/
def Tile.receives (t : Tile) : Bool := t.sch.status != .ended && t.sch.status != .halted && t.sch.status != .absent && t.sch.status != .idle

/-- A packet is written into the next slot of its ring (R92): data, then full bits, then the barrier decrement. -/
def Tile.writeSlot (t : Tile) (n : Nat) (payload : List Byte) (poison : NatSet) : Tile :=
  let i := t.inCh n
  let a := i.slotAddr i.rcnt.toNat
  let gs := granules a payload.length
  let t := t.withPad fun p => let p := p.writeRun a payload; { p with poison := NatSet.addAll p.poison (poison.map (a / 16 + ·)) }
  let t := { t.setFull gs with ins := t.ins.setIfInBounds n { i with rcnt := i.rcnt + 1#32 } }
  if bitOf i.binding.toNat 48 then t.txdec (bitsOf i.binding.toNat 64 32) 1 else t

/-- The granules of the next slot of an inbound channel's ring; none while it is not bound. -/
def Tile.slotGranules (t : Tile) (n : Nat) : List Nat :=
  let i := t.inCh n
  if i.bound then granules (i.slotAddr i.rcnt.toNat) (16 * i.slotG) else []

/-- Whether the next slot of a bound channel is empty. -/
def Tile.slotEmpty (t : Tile) (i : InCh) : Bool :=
  (granules (i.slotAddr i.rcnt.toNat) (16 * i.slotG)).all fun g => !t.pad.full.has g

/-- The port that a remote sender's traffic comes by, which what answers it leaves by (R97). -/
def Tile.notePort (t : Tile) (n : Nat) (h : PHead) : Tile :=
  match h.src.remote with
  | some (p, _) => { t with ins := t.ins.setIfInBounds n { t.inCh n with port := some p } }
  | none => t

/-- A receive error clears BOUND and is raised in the receiver (R94). -/
def Tile.breakIn (t : Tile) (n : Nat) (c : Cause) : Tile :=
  ({ t with ins := t.ins.setIfInBounds n { t.inCh n with bound := false, broken := true } }).raise c none 2

/-- What a packet meets at its receiver: the notice to the sender and the receiver's own cause, or none (Table 04-6). Where several
rows hold, the sender's comes first, then END's, then CRC, length and slot (entry 55). -/
def Tile.meets (t : Tile) (n : Nat) (h : PHead) (len : Nat) (bad : Bool) : Option (Cause × Option Cause) :=
  let i := t.inCh n
  if !t.fromSender i h then some (.chnoroute, none)
  else if !t.receives || !i.bound then some (.chdead, none)
  else if bad then some (.chdead, some .chcrc)
  else if len > 16 * i.slotG then some (.chlen, none)
  else if !t.slotEmpty i then some (.chdead, some .chrxovf)
  else none

/-- Whether a packet or arrival of a peer wafer is for a node that is pre-empted: it waits until the restore (R339). -/
def Device.awaitsRestore (dv : Device) (c : Coord) (h : PHead) : Bool :=
  h.src.remote.isSome && dv.nodes.any fun n => n.st != .failed && n.image.any fun t => t.coord == c && t.fromSender (t.inCh h.ich) h

/-- The accesses of a tile that have tested granules of a channel's next slot are performed before the slot is looked at (R38). -/
def State.clearSlot (s : State) (c : Coord) (n : Nat) : State := s.onTile c fun t => t.beforeB (t.slotGranules n)

/-- RECEIVE: the next packet of a channel is written, or discarded with its credit returned (R92, R94), behind accesses that have
tested granules of its slot (R38). A primary's router forwards a duplicate to the shadow, which answers nobody (R142). -/
def State.receive (s : State) (c : Coord) (n : Nat) : State :=
  match s.dev.nextOn c n with
  | none => s
  | some f =>
    match f.msg with
    | .packet h payload poison bad =>
      if s.dev.awaitsRestore c h then s else
      let s := s.takeFlit f
      match s.tileAt c with
      | none => (s.notify c f.msg .chdead).giveBack c h
      | some u =>
        let s := s.clearSlot c n
        let t := (s.tileAt c).getD u
        let s := match t.pair with
          | some p => if p.primary then s.sendFrom c (.packet { h with dst := ⟨none, p.partner⟩ } payload poison bad) else s
          | none => s
        match t.meets n h payload.length bad with
        | some (notice, own) =>
          let s := if t.isShadow then s else (s.notify c f.msg notice).giveBack c h
          (match own with
            | some cz => s.onTile c fun t => t.breakIn n cz
            | none => s)
        | none =>
          s.onTile c fun t =>
            let t := (t.notePort n h).writeSlot n payload poison
            if poison.isEmpty then t else t.raise .chpoison none 2
    | _ => s

/-- RECEIVE (R92). -/
def execReceive (c : Coord) (ich : BitVec 5) (s : State) : Host.Outcome State Fault Refusal := .next (s.receive c ich.toNat)

/-- What a paired sender's router forwards to its shadow: a copy of what came for the channel (R142). -/
def State.forward (s : State) (c : Coord) (m : Coord → Msg) : State :=
  match s.tileAt c with
  | some t => match t.pair with
    | some p => if p.primary then s.sendFrom c (m p.partner) else s
    | none => s
  | none => s

/-- The node whose saved state a credit, notice or result for an outbound channel of a tile is for: one whose tile is saved from that
place, unless a node that stands there now has the channel (R96). -/
def State.savedFor (s : State) (c : Coord) (n : Nat) : Option Node :=
  let here : Bool := match s.tileAt c with
    | some t => entryV (t.outCh n).entry
    | none => false
  s.dev.nodes.find? fun x => x.st != .failed && (x.st == .saving || !here)
    && x.image.any fun t => t.coord == c && entryV (t.outCh n).entry

/-- What answers an outbound channel reaches its tile, or the saved state of a tile that is not there, where it waits for the restore
(R96, R339). -/
def State.answer (s : State) (c : Coord) (n : Nat) (p : Msg → Bool) (act : State → Msg → State) : State :=
  match s.dev.arrivedAt c p with
  | none => s
  | some f => match s.savedFor c n with
    | some x => (s.takeFlit f).withDev fun dv => dv.withNode x.id fun y => { y with kept := y.kept ++ [f] }
    | none => act (s.takeFlit f) f.msg

/-- CREDIT_ARRIVE (R91, R92). -/
def State.creditArrive (s : State) (c : Coord) (n : Nat) : State :=
  s.answer c n (fun m => match m with
      | .credit _ k _ => k == n
      | _ => false) fun s m =>
    match m with
    | .credit _ k x =>
      (s.forward c fun d => .credit ⟨none, d⟩ k x).onTile c fun t =>
        t.withOut n fun o => { o with credit := Nat.min 31 (o.credit + x) }
    | _ => s

/-- CREDIT_ARRIVE (R91). -/
def execCreditArrive (c : Coord) (och : BitVec 5) (s : State) : Host.Outcome State Fault Refusal :=
  .next (s.creditArrive c och.toNat)

/-- INFO of a send fault: the outbound channel and the packet's SEQ (Table 16-3). -/
def sendInfo (n : Nat) (q : Word) : DWord := BitVec.ofNat 64 (n * 2 ^ 32 + q.toNat)

/-- SEND_FAULT_NOTICE: a notice raises a send fault; CHDEAD sets DEAD; an arrival's tag is left faulted (R94, R95). -/
def State.sendFault (s : State) (c : Coord) (n : Nat) : State :=
  s.answer c n (fun m => match m with
      | .notice _ k _ _ _ => k == n
      | _ => false) fun s m =>
    match m with
    | .notice _ k q cz tag =>
      (s.forward c fun d => .notice ⟨none, d⟩ k q cz tag).onTile c fun t =>
        let t := if cz = .chdead then t.withOut n fun o => { o with dead := true } else t
        (t.setTag tag.toNat .faulted).raise cz none 2 0#64 (sendInfo n q)
    | _ => s

/-- SEND_FAULT_NOTICE (R94). -/
def execSendFaultNotice (c : Coord) (och : BitVec 5) (s : State) : Host.Outcome State Fault Refusal :=
  .next (s.sendFault c och.toNat)

/-- A remote arrival is evaluated through port B: refused with REMARR, rejected with BAROVR, or accepted (R95). -/
def Tile.evalArrival (t : Tile) (a n : Nat) : Tile × Option Cause :=
  if a % 16 != 0 || !inGeneral a 16 then (t, some .remarr)
  else
    let t := t.findErrors [a / 16]
    if t.pad.poison.has (a / 16) then (t, some .remarr)
    else
      let r := (t.pad.bar a).arrive n
      (t.withPad fun p => p.putBar a r.1, if r.2 then none else some .barovr)

/-- REMOTE_ARRIVAL: the next message of a channel is an arrival, so every earlier packet of it has been written (R95). A
duplicate goes to the shadow, which answers nobody. -/
def State.remoteArrival (s : State) (c : Coord) (n : Nat) : State :=
  match s.dev.nextOn c n with
  | none => s
  | some f =>
    match f.msg with
    | .arrival h a cnt tag =>
      if s.dev.awaitsRestore c h then s else
      let s := s.takeFlit f
      match s.tileAt c with
      | none => s.notify c f.msg .chdead
      | some t =>
        let s := match t.pair with
          | some p => if p.primary then s.sendFrom c (.arrival { h with dst := ⟨none, p.partner⟩ } a cnt tag) else s
          | none => s
        if !t.fromSender (t.inCh n) h then (if t.isShadow then s else s.notify c f.msg .chnoroute)
        else if !t.receives || (t.inCh n).broken then (if t.isShadow then s else s.notify c f.msg .chdead)
        else
          let r := (t.notePort n h).evalArrival a.toNat cnt
          let s := s.setTile r.1
          if t.isShadow then s else s.sendFrom c (.result h.src h.och h.seq tag r.2)
    | _ => s

/-- REMOTE_ARRIVAL (R95). -/
def execRemoteArrival (c : Coord) (ich : BitVec 5) (s : State) : Host.Outcome State Fault Refusal :=
  .next (s.remoteArrival c ich.toNat)

/-- ARRIVAL_RESULT: the tag is released, or left faulted and the cause raised (R95, R310). -/
def State.arrivalResult (s : State) (c : Coord) (n : Nat) : State :=
  s.answer c n (fun m => match m with
      | .result _ k _ _ _ => k == n
      | _ => false) fun s m =>
    match m with
    | .result _ k q tag r =>
      (s.forward c fun d => .result ⟨none, d⟩ k q tag r).onTile c fun t =>
        match r with
        | none => t.setTag tag.toNat .free
        | some cz => (t.setTag tag.toNat .faulted).raise cz none 2 0#64 (sendInfo n q)
    | _ => s

/-- ARRIVAL_RESULT (R95). -/
def execArrivalResult (c : Coord) (och : BitVec 5) (s : State) : Host.Outcome State Fault Refusal :=
  .next (s.arrivalResult c och.toNat)

/-- A numeric order key of an FP32 number, −0 below +0. -/
def fkey (x : Nat) : Int := if bitOf x 31 then -((x % 2 ^ 31 : Nat) : Int) - 1 else (x : Int)

/-- Whether an FP32 value is a NaN. -/
def fnan (x : Nat) : Bool := decide (0x7F800000 < x % 2 ^ 31)

/-- OPF (R101), by TYPE and OP of the combine entry. -/
def opf (e : DWord) (a b : Word) : Word :=
  let op := bitsOf e.toNat 52 2
  if e.getLsbD 54 then
    if op = 0 then a + b
    else if op = 1 then (if a.slt b then b else a)
    else if b.slt a then b else a
  else if op = 0 then BitVec.ofNat 32 (add32 a.toNat b.toNat)
  else if fnan a.toNat || fnan b.toNat then 0x7FC00000#32
  else if op = 1 then (if fkey a.toNat < fkey b.toNat then b else a)
  else if fkey b.toNat < fkey a.toNat then b else a

/-- The ports of a combine entry's inputs, in the fixed order (R101). -/
def treePorts (e : DWord) : List Port := [Port.loc, .w, .n, .e, .s].filter (treeChild e)

/-- COMBINE's accumulation (R101). -/
def combineAll (e : DWord) : List (List Word) → List Word
  | [] => []
  | x :: l => l.foldl (fun acc y => List.zipWith (opf e) acc y) x

/-- The parent direction of a combine entry (Table 04-7). -/
def treeParent (e : DWord) : Dir :=
  match bitsOf e.toNat 60 2 with
  | 0 => .w
  | 1 => .n
  | 2 => .e
  | _ => .s

/-- Whether a root may write a round's result now: its sink is bound at both tiles of a pair, and the slot is empty (R101,
R142). -/
def State.sinkReady (s : State) (t : Tile) (n : Nat) : Bool :=
  let i := t.inCh n
  i.bound && entrySink i.entry && t.slotEmpty i && (match t.pair with
    | some p => (match s.tileAt p.partner with
      | some u => (u.inCh n).bound && u.slotEmpty (u.inCh n)
      | none => false)
    | none => true)

/-- DELIVER (R101): the result is written into the sink ring as a packet; one longer than a slot is discarded and raises
CHLEN; else the root holds it. -/
def State.deliver (s : State) (t : Tile) (j : Nat) (x : List Word) : State :=
  let n := bitsOf (t.tree j).entry.toNat 46 5
  let s := s.clearSlot t.coord n
  let s := match t.pair with
    | some p => s.clearSlot p.partner n
    | none => s
  let t := (s.tileAt t.coord).getD t
  let bytes := x.flatMap wordBytes
  let i := t.inCh n
  if i.bound && entrySink i.entry && decide (16 * i.slotG < bytes.length) then
    s.onTile t.coord fun t => (t.withTree j fun y => { y with held := none }).raise .chlen none 2
  else if s.sinkReady t n then
    let s := s.onTile t.coord fun t => (t.withTree j fun y => { y with held := none }).writeSlot n bytes []
    match t.pair with
    | some p => s.onTile p.partner fun t => t.writeSlot n bytes []
    | none => s
  else s.onTile t.coord fun t => t.withTree j fun y => { y with held := some x }

/-- COMBINE (R101), when every input of the round is present. -/
def State.combine (s : State) (c : Coord) (j : Nat) : State :=
  match s.tileAt c with
  | none => s
  | some t =>
    let x := t.tree j
    let ps := treePorts x.entry
    if ps.any fun p => !(x.inputs.any (·.1 == p)) then s
    else
      let acc := combineAll x.entry (ps.filterMap fun p => (x.inputs.find? (·.1 == p)).map (·.2))
      let t := t.withTree j fun y => { y with round := (y.round + 1) % 2 ^ 16, inputs := [], timer := 0 }
      let s := s.setTile t
      if x.entry.getLsbD 62 then s.deliver t j acc
      else
        let d := treeParent x.entry
        s.sendFrom c (.partial_ (neighbour c d) j (dirPort (oppDir d)) x.round acc)

/-- Rounds are compared modulo 2^16: whether `a` is past `r`. -/
def roundPast (a r : Nat) : Bool := let d := (a + 2 ^ 16 - r) % 2 ^ 16; decide (1 ≤ d) && decide (d < 2 ^ 15)

/-- An input reaches a tree's router: held, discarded when its round is past, or it waits behind an input of the same port,
another round or a held result (R100 to R102). None when it waits. -/
def Tile.treeInput (t : Tile) (j : Nat) (p : Port) (r : Nat) (data : List Word) : Option Tile :=
  let x := t.tree j
  if roundPast x.round r then some t
  else if x.round != r || x.held.isSome || x.inputs.any (·.1 == p) then none
  else some (t.withTree j fun y =>
    { y with inputs := y.inputs ++ [(p, data)], timer := if y.inputs.isEmpty then t.sch.cycle + 1 else y.timer })

/-- REDUCTION_INPUT: a contribution of the tile itself, or a partial result of a neighbour, reaches an input (R100, R101). -/
def State.reductionInput (s : State) (c : Coord) (j : Nat) (p : Port) : State :=
  match s.tileAt c with
  | none => s
  | some t =>
    if p = .loc then
      match t.out.find? (fun m => match m with
          | .partial_ d k q _ _ => d == c && k == j && q == .loc
          | _ => false) with
      | some (.partial_ d k q r data) =>
        match t.treeInput j .loc r data with
        | some u => (s.setTile { u with out := u.out.erase (.partial_ d k q r data) }).combine c j
        | none => s
      | _ => s
    else
      match s.dev.arrivedAt c (fun m => match m with
          | .partial_ _ k q _ _ => k == j && q == p
          | _ => false) with
      | some f =>
        match f.msg with
        | .partial_ _ _ _ r data =>
          (match t.treeInput j p r data with
            | some u => ((s.takeFlit f).setTile u).combine c j
            | none => s)
        | _ => s
      | none => s

/-- REDUCTION_INPUT (R100). -/
def execReductionInput (c : Coord) (j : BitVec 3) (p : Port) (s : State) : Host.Outcome State Fault Refusal :=
  .next (s.reductionInput c j.toNat p)

/-- HELD_RESULT_DELIVER: a root tries again to write the result it holds (R101). -/
def State.heldDeliver (s : State) (c : Coord) (j : Nat) : State :=
  match s.tileAt c with
  | some t => match (t.tree j).held with
    | some x => s.deliver t j x
    | none => s
  | none => s

/-- HELD_RESULT_DELIVER (R101). -/
def execHeldResultDeliver (c : Coord) (j : BitVec 3) (s : State) : Host.Outcome State Fault Refusal :=
  .next (s.heldDeliver c j.toNat)

/-- A router abandons a round: its inputs go, ROUND passes it, the notice goes on to every tree port but the one it came
from, and the tile raises RDTMO when it has sent the round or is the root; else its CHRED will (R102, R309). A round ahead of
ROUND takes the rounds before it along (entry 77). -/
def State.abandonRound (s : State) (c : Coord) (j r : Nat) (from_ : Option Port) : State :=
  match s.tileAt c with
  | none => s
  | some t =>
    let x := t.tree j
    if roundPast x.round r then s
    else
      let e := x.entry
      let ports := (treePorts e ++ if e.getLsbD 62 then [] else [dirPort (treeParent e)]).filter fun p => some p != from_
      let sent := roundPast x.count r
      let t := t.withTree j fun y =>
        { y with
          inputs := [], timer := 0, round := (r + 1) % 2 ^ 16
          abandoned := if sent || !treeChild e .loc then y.abandoned else y.abandoned ++ [r] }
      let s := s.setTile t
      let s := ports.foldl (fun s p => match portDir p with
        | some d => s.sendFrom c (.abandon (neighbour c d) j (some (dirPort (oppDir d))) r)
        | none => s) s
      if (sent && treeChild e .loc) || e.getLsbD 62 then s.onTile c fun t => t.raise .rdtmo none 2 0#64 (treeInfo j r) else s

/-- ROUND_ABANDON: the time-out of a round that has some but not all of its inputs (R102). -/
def State.roundAbandon (s : State) (c : Coord) (j : Nat) : State :=
  match s.tileAt c with
  | some t =>
    let x := t.tree j
    let tmo := bitsOf x.entry.toNat 0 24
    if tmo = 0 || x.timer = 0 || x.inputs.isEmpty || decide (t.sch.cycle + 1 < x.timer + tmo) then s
    else s.abandonRound c j x.round none
  | none => s

/-- ROUND_ABANDON (R102). -/
def execRoundAbandon (c : Coord) (j : BitVec 3) (s : State) : Host.Outcome State Fault Refusal :=
  .next (s.roundAbandon c j.toNat)

/-- ABANDON_NOTICE (R102). -/
def State.abandonNotice (s : State) (c : Coord) (j : Nat) : State :=
  match s.dev.arrivedAt c (fun m => match m with
      | .abandon _ k _ _ => k == j
      | _ => false) with
  | some f =>
    match f.msg with
    | .abandon _ _ p r => (s.takeFlit f).abandonRound c j r p
    | _ => s
  | none => s

/-- ABANDON_NOTICE (R102). -/
def execAbandonNotice (c : Coord) (j : BitVec 3) (s : State) : Host.Outcome State Fault Refusal :=
  .next (s.abandonNotice c j.toNat)

/-- What a tile of a pair gives up with a discarded item (R143; entry 70): an arrival's tag is left faulted; a bulk store or
list element counts as answered, unperformed; an ACQ or REL fails; a copy row is passed over. -/
def Tile.discardItem (t : Tile) (key : Nat) (m : Option Msg) : Tile :=
  let t := { t with pair := t.pair.map fun (p : Pair) => { p with held := p.held.filter (·.key != key), ok := p.ok.filter (· != key) } }
  match m, key / 2 ^ 48 with
  | some (.arrival _ _ _ tag), _ => t.setTag tag.toNat .faulted
  | _, 5 => match t.accs.find? fun a => a.pairKey == key with
    | some a => if a.stage = .inTile then t.setAcc { a with stage := .answered none [] none } else t
    | none => t
  | _, 6 => match t.guards.find? fun g => guardKey g.seq == key with
    | some g =>
      (((if g.rel then t else t.acqEnded g (some .pairmis) none).overGuard g.seq).freeCopies).setTag g.tag.toNat .faulted
    | none => t
  | _, 7 => (upTo 8).foldl (fun (t : Tile) n => match (t.copyCh n).jobs.find? fun j => !j.rowsDone && rowKey n j == key with
      | some j => t.putJob n j j.nextRow
      | none => t) t
  | _, _ => t

/-- PAIRMIS in a tile of a pair (R143). A real mismatch marks both tiles suspect, and is counted once, where the comparison is made
(R367, R369); an injected one neither (R375). -/
def Tile.mispaired (real counts : Bool) (t : Tile) : Tile :=
  let t := if real && counts then t.count .pairmis else t
  let t := if real then t.detect .pairmis else t
  t.await .pairmis none 2 0#64 0#64

/-- A mismatch or a bound that has expired: PAIRMIS in both tiles, and the item is discarded; one that a block's close has formed
goes with its block (R143, R316). -/
def State.pairFails (s : State) (c : Coord) (p : Pair) (key : Nat) (real : Bool := true) : State :=
  let x := p.held.find? fun x => x.key == key && x.item.isSome
  let one : Bool := match x with
    | some x => !x.group
    | none => false
  let m := x.bind (·.item)
  let s := s.onTile c fun t => ((if one then t.discardItem key m else
    { t with pair := t.pair.map fun (p : Pair) => { p with held := p.held.filter (·.key != key) } })).mispaired real true
  s.onTile p.partner fun t => (if one then t.discardItem key m else t).mispaired real false

/-- The items of a block's close may leave together once every one has matched: both tiles then close (R315). -/
def State.releaseGroup (s : State) (c : Coord) : State :=
  match s.tileAt c with
  | some t =>
    match t.pair with
    | some p =>
      if p.held.any fun x => x.group && !x.matched then s
      else
        let done (u : Tile) : Tile := { u with pair := u.pair.map fun (p : Pair) => { p with ok := 0 :: p.ok.filter (· != 0) } }
        (s.setTile (done t)).onTile p.partner done
    | none => s
  | none => s

/-- Removes an item of a pair's comparison. -/
def Pair.without (p : Pair) (key : Nat) : Pair := { p with held := p.held.filter (·.key != key) }

/-- A shadow's CRC meets its item (R143). -/
def State.pairMatch (s : State) (t : Tile) (p : Pair) (key : Nat) (crc : Word) : State :=
  match p.held.find? fun x => x.key == key with
  | none => s.setTile { t with pair := some { p with held := p.held ++ [⟨key, crc, none, t.sch.cycle, false, false⟩] } }
  | some x =>
    if x.crc = crc && t.inj.has 8 then (s.setTile { t with inj := t.inj.hit 8 }).pairFails t.coord p key false
    else if x.crc != crc then s.pairFails t.coord p key
    else
      match x.item with
      | none => s
      | some m =>
        if x.group then
          (s.setTile { t with pair := some { p with held := p.held.map fun y => if y.key = key then { y with matched := true } else y } }).releaseGroup
            t.coord
        else
          match m with
          | .token k => s.setTile { t with pair := some { p.without key with ok := k :: p.ok } }
          | m => s.setTile { t with pair := some (p.without key), out := t.out ++ [m] }

/-- PAIR_COMPARE: a CRC that has come first is compared once its item is formed, and a CRC that arrives with the item that
waits for it (R143). -/
def State.pairCompare (s : State) (c : Coord) : State :=
  match s.tileAt c with
  | some t =>
    match t.pair with
    | some p =>
      if !p.primary then s
      else
        match p.held.find? fun x => x.item.isNone && p.held.any fun y => y.key == x.key && y.item.isSome && !y.matched with
        | some x => s.pairMatch { t with pair := some { p with held := p.held.erase x } } { p with held := p.held.erase x } x.key x.crc
        | none =>
          match s.dev.arrivedAt c (fun m => match m with
              | .crc _ _ _ => true
              | _ => false) with
          | some f =>
            match f.msg with
            | .crc _ k x => (s.takeFlit f).pairMatch t p k x
            | _ => s
          | none => s
    | none => s
  | none => s

/-- PAIR_COMPARE (R143). -/
def execPairCompare (c : Coord) (s : State) : Host.Outcome State Fault Refusal := .next (s.pairCompare c)

/-- PAIR_TIMEOUT: an item or a CRC has waited 65,536 cycles for the other (R143); credits and grants have no bound. -/
def State.pairTimeout (s : State) (c : Coord) : State :=
  match s.tileAt c with
  | some t =>
    match t.pair with
    | some p =>
      match p.held.find? fun x => !x.matched && !keyUnbounded x.key && decide (x.at_ + 65536 ≤ t.sch.cycle) with
      | some x => if p.primary then s.pairFails c p x.key else s
      | none => s
    | none => s
  | none => s

/-- PAIR_TIMEOUT (R143). -/
def execPairTimeout (c : Coord) (s : State) : Host.Outcome State Fault Refusal := .next (s.pairTimeout c)

/-- The steps that the messages of the fabric wait for. -/
def flitSteps (k : Nat) (f : Flit) : List Due :=
  if !f.arrived then [.routeFlit k]
  else
    match f.msg with
    | .packet h _ _ _ => [.receive f.at_ (BitVec.ofNat 5 h.ich)]
    | .arrival h _ _ _ => [.remoteArrival f.at_ (BitVec.ofNat 5 h.ich)]
    | .credit _ n _ => [.creditArrive f.at_ (BitVec.ofNat 5 n)]
    | .notice _ n _ _ _ => [.sendFaultNotice f.at_ (BitVec.ofNat 5 n)]
    | .result _ n _ _ _ => [.arrivalResult f.at_ (BitVec.ofNat 5 n)]
    | .partial_ _ j p _ _ => [.reductionInput f.at_ (BitVec.ofNat 3 j) p]
    | .abandon _ j _ _ => [.abandonNotice f.at_ (BitVec.ofNat 3 j)]
    | .crc _ _ _ => [.pairCompare f.at_]
    | _ => []

/-- The steps that the router of a tile waits for. -/
def Tile.routerSteps (t : Tile) : List Due :=
  (if t.out.any fun m => !m.waits then [.routeFlit 0] else [])
    ++ (t.out.filterMap fun m => match m with
      | .partial_ _ j .loc _ _ => some (.reductionInput t.coord (BitVec.ofNat 3 j) .loc)
      | _ => none)
    ++ (upTo 8).flatMap (fun j =>
      (if (t.tree j).held.isSome then [.heldResultDeliver t.coord (BitVec.ofNat 3 j)] else [])
        ++ if (t.tree j).timer != 0 then [.roundAbandon t.coord (BitVec.ofNat 3 j)] else [])
    ++ (match t.pair with
      | some p => if p.held.isEmpty then [] else [.pairCompare t.coord, .pairTimeout t.coord]
      | none => [])

/-- The steps that the fabric waits for. -/
def State.fabricSteps (s : State) : List Due :=
  ((upTo s.dev.net.length).zip s.dev.net).flatMap (fun x => flitSteps x.1 x.2) ++ (s.core :: s.others).flatMap Tile.routerSteps

end Sys2Proof.Machine
end

