-- ==== Sys2Proof/Machine/Queues.lean ====
section
/-! DEFINITION. Submission queues as the Hearths serve them (R344 to R355): descriptors, rings, packets, halts, the order in
which packets start, and their completion. -/

namespace Sys2Proof.Machine

/-- The Kiln's grant of a queue: QPORT and PRIV (R346, R399). -/
def Device.grantOf (dv : Device) (q : Nat) : Nat × Bool :=
  match dv.kiln.config with
  | some k => match k.queues.find? (·.1 == q) with
    | some x => x.2
    | none => (0, false)
  | none => (0, false)

/-- The address of a queue's descriptor (R346). -/
def Device.queueAt (dv : Device) (q : Nat) : Nat := dv.bar0.qtbase + 64 * q

/-- A queue; one never served is disabled. -/
def Device.queue (dv : Device) (q : Nat) : Queue :=
  (dv.queues.find? (·.q == q)).getD
    { q := q, rd := 0, rdpub := 0, state := 0, en := false, desc := 0, packets := [], pubDue := false, fresh := true, skip := [] }

/-- Replaces a queue. -/
def Device.setQueue (dv : Device) (x : Queue) : Device := { dv with queues := x :: dv.queues.filter (·.q != x.q) }

/-- Changes a queue. -/
def Device.withQueue (dv : Device) (q : Nat) (f : Queue → Queue) : Device := dv.setQueue (f (dv.queue q))

/-- The context of a queue. -/
def Queue.ctx (x : Queue) : Nat := bitsOf x.desc 96 8
/-- PRIO and CEIL. -/
def Queue.prio (x : Queue) : Nat := bitsOf x.desc 70 5
/-- CEIL. -/
def Queue.ceil (x : Queue) : Nat := bitsOf x.desc 75 5
/-- The ageing interval in µs (Table 17-2). -/
def Queue.age (x : Queue) : Nat := let a := bitsOf x.desc 88 8; 100 * (if a = 0 then 10 else a)
/-- The ring base. -/
def Queue.rbase (x : Queue) : Nat := bitsOf x.desc 128 64
/-- The ring control line. -/
def Queue.ctl (x : Queue) : Nat := bitsOf x.desc 192 64
/-- log₂ of the ring size. -/
def Queue.rlog (x : Queue) : Nat := bitsOf x.desc 64 5

/-- A queue enters a state of Table 17-2, which its descriptor shows with the Kiln's fields; RESTART is cleared, and the host's zero
field in the same byte stays as it is. -/
def Device.setQState (dv : Device) (q st : Nat) : Device :=
  let g := dv.grantOf q
  (dv.withQueue q fun x => { x with state := st }).putPhys (dv.queueAt q + 14) 1
    (st * 32 + b2n g.2 * 8 + g.1 % 4 * 2 + dv.phys (dv.queueAt q + 14) 1 % 2)

/-- The Hearth that serves a queue (R344, R361). -/
def Device.server (dv : Device) (q : Nat) : Nat := (dv.region (q / 64)).adopter

/-- INFO of a queue's record: UTAG in the high half; the low half, and UTAG where no packet is concerned, are not stated
(R350; entry 7). -/
def Device.queueInfo (dv : Device) (utag : Option Nat) : DWord :=
  (match utag with
    | some u => BitVec.ofNat 32 u
    | none => Config.freeWord 0 dv.free) ++ Config.freeWord 0 (dv.free + 1)

/-- QUEUE_HALT (R350): state 3, with a record, or a device event where the context is not valid. -/
def Device.haltQueue (dv : Device) (q : Nat) (cause : Cause) (utag : Option Nat) (fatal : Bool) : Device :=
  let dv := dv.setQState q 3
  let ctx := (dv.queue q).ctx
  let info := dv.queueInfo utag
  let dv := { dv with free := dv.free + 2 }
  if dv.ctxValid ctx then dv.report (recordOf ctx 8 cause fatal (q / 64) 0 q info) else dv.event (dv.grantOf q).1 0x04#8

/-- The type of a packet (Table 17-3). -/
def pktType (b : Nat) : Nat := bitsOf b 8 8
/-- UTAG. -/
def pktTag (b : Nat) : Nat := bitsOf b 32 32

/-- The rectangle of a PREEMPT, RESUME or LICHEN packet; none when RECT is 0 (Table 17-4). -/
def pktRect (b : Nat) : Option Rect :=
  if bitOf b 136 then some ⟨bitsOf b 137 10, bitsOf b 147 10, bitsOf b 157 10, bitsOf b 167 10⟩ else none

/-- Whether a packet is malformed (R351, R352). -/
def pktBad (b : Nat) : Bool :=
  bitsOf b 16 16 != 0 || bitsOf b 4 4 != 0 || (match pktType b with
    | 0 => bitsOf b 64 448 != 0
    | 1 => bitsOf b 64 7 != 0 || bitsOf b 160 6 != 0 || bitsOf b 224 288 != 0
    | 2 => bitsOf b 64 6 != 0 || bitsOf b 144 368 != 0
    | 3 => bitsOf b 64 3 != 0 || bitsOf b 192 320 != 0
    | 4 => bitsOf b 64 3 != 0 || bitsOf b 192 2 == 3 || bitsOf b 194 2 != 0 || bitsOf b 209 303 != 0
    | 5 => bitsOf b 64 6 != 0 || bitsOf b 128 6 != 0 || bitsOf b 192 6 != 0 || bitsOf b 192 32 == 0 || bitsOf b 224 288 != 0
    | 6 => bitsOf b 64 7 != 0 || bitsOf b 128 384 != 0
    | 7 | 8 | 9 => bitsOf b 64 64 != 0 || bitsOf b 177 335 != 0 || decide (bitsOf b 147 10 < bitsOf b 137 10)
      || decide (bitsOf b 167 10 < bitsOf b 157 10)
    | 10 => bitsOf b 320 192 != 0
    | _ => true)

/-- The contexts a packet names (R350, R352). -/
def pktContexts (b : Nat) : List Nat :=
  match pktType b with
  | 7 | 8 => [bitsOf b 128 8]
  | 10 => (upTo 256).filter fun c => bitOf b (64 + c)
  | _ => []

/-- Whether an unprivileged queue may not submit a packet: it names another context, or is LICHEN (R350, R352). -/
def pktPriv (b ctx : Nat) : Bool := pktType b == 9 || (pktContexts b).any (· != ctx)

/-- The checks of a queue's descriptor (R346). -/
def Device.descriptorBad (dv : Device) (d : Nat) : Bool :=
  let rlog := bitsOf d 64 5
  bitsOf d 1 63 != 0 || bitOf d 69 || bitOf d 112 || bitsOf d 120 8 != 0 || bitsOf d 256 256 != 0 || decide (rlog < 4)
    || decide (16 < rlog) || decide (bitsOf d 75 5 < bitsOf d 70 5) || decide (23 < bitsOf d 75 5)
    || bitsOf d 128 64 % (64 * 2 ^ rlog) != 0 || bitsOf d 192 64 % 64 != 0 || !dv.ctxValid (bitsOf d 96 8)

/-- Whether a packet is an IBCALL of a number, or came by it (R355). -/
def Packet.under (x : Packet) (uid : Nat) : Bool := x.uid == uid || x.calls.elem uid

/-- The IBCALL whose buffer is being taken: the innermost started one with packets left (R355). -/
def Queue.calling (x : Queue) : Option Packet := (x.packets.filter fun p => decide (0 < p.rest.2)).getLast?

/-- Whether a WAITV stands where the next packet to be taken would follow it: nothing further is taken before it is complete
(R349, R353). One that stands behind the buffer being taken does not hold that buffer back (R355). -/
def Queue.waiting (x : Queue) : Bool :=
  (match x.calling with
    | some c => (x.packets.reverse.dropWhile fun (y : Packet) => !y.under c.uid).reverse
    | none => x.packets).any fun (p : Packet) => pktType p.bits == 4

/-- Puts a packet of an indirect buffer behind its IBCALL and everything that came by it (R355). -/
def insertCalled (uid : Nat) (p : Packet) (l : List Packet) : List Packet :=
  (l.reverse.dropWhile fun x => !x.under uid).reverse ++ p :: (l.reverse.takeWhile fun x => !x.under uid).reverse

/-- A packet as it is taken. -/
def newPacket (uid bits : Nat) (ix : Option Nat) (calls : List Nat) (frame : Nat) : Packet :=
  { uid := uid, bits := bits, ix := ix, calls := calls, started := false, done := false, frame := frame, waits := []
    rest := (0, 0) }

/-- A packet is admitted into a queue's table, or halts the queue (R350). DESIGN CHOICE: a LICHEN packet from a queue with PRIV = 0
halts it with SECURITY, as one that names another context does (entry 83). -/
def Device.takePacket (dv : Device) (q bits : Nat) (ix : Option Nat) (call : Option Packet) (frame : Nat) : Device :=
  let x := dv.queue q
  let calls := match call with
    | some c => c.uid :: c.calls
    | none => []
  if pktBad bits then dv.haltQueue q .illfld (some (pktTag bits)) false
  else if !(dv.grantOf q).2 && pktPriv bits x.ctx then dv.haltQueue q .security (some (pktTag bits)) false
  else
    let p := newPacket dv.nextId bits ix calls frame
    let dv := { dv with nextId := dv.nextId + 1 }
    dv.setQueue { x with
      packets := match call with
        | some c => insertCalled c.uid p x.packets
        | none => x.packets ++ [p] }

/-- One packet is taken from the indirect buffer in progress, or from the ring (R347, R349, R355); whether another may
follow. DESIGN CHOICE: a fault of a read of an indirect buffer halts the queue with the bulk cause and the IBCALL's UTAG, and after
RESTART the same packet of the buffer is read again (entry 83). -/
def Device.takeOne (dv : Device) (q frame : Nat) : Bool × Device :=
  let x := dv.queue q
  if x.state != 1 || x.waiting then (false, dv)
  else
    match x.calling with
    | some c =>
      let r := dv.hRead x.ctx c.rest.1 64
      (match r.1 with
      | .error cz => (false, r.2.haltQueue q cz (some (pktTag c.bits)) false)
      | .ok bytes =>
        let dv := r.2.withQueue q fun y => { y with packets := y.packets.map fun (p : Packet) =>
          if p.uid = c.uid then { p with rest := (c.rest.1 + 64, c.rest.2 - 1) } else p }
        (true, dv.takePacket q (bytesVal bytes) none (some c) frame))
    | none =>
      if x.skip.elem x.rd then (true, dv.withQueue q fun y => { y with rd := y.rd + 1, skip := y.skip.filter (· != y.rd) })
      else
      let r := dv.hRead x.ctx (x.rbase + 64 * (x.rd % 2 ^ x.rlog)) 64
      match r.1 with
      | .error cz => (false, r.2.haltQueue q cz none false)
      | .ok bytes =>
        let b := bytesVal bytes
        if b2n (bitOf b 0) ≠ 1 - x.rd / 2 ^ x.rlog % 2 then
          (false, r.2.withQueue q fun y => { y with pubDue := y.pubDue || y.rd != y.rdpub })
        else
          let dv := r.2.withQueue q fun y =>
            { y with rd := y.rd + 1, pubDue := y.pubDue || bitOf b 1 || decide (bitsOf y.desc 80 8 + 1 ≤ y.rd + 1 - y.rdpub) }
          (true, dv.takePacket q b (some x.rd) none frame)

/-- Takes up to `fuel` packets (R349). -/
def Device.takeMany (q frame : Nat) : Nat → Device → Device
  | 0, dv => dv
  | fuel + 1, dv =>
    let r := dv.takeOne q frame
    if r.1 then Device.takeMany q frame fuel r.2 else r.2

/-- The state in which a queue goes on: it polls, or a started WAITV that is not met stalls it still (R353). -/
def Queue.goesOn (x : Queue) : Nat := if x.packets.any fun p => p.started && pktType p.bits == 4 then 2 else 1

/-- QUEUE_ENABLE_CHECK and QUEUE_RESTART (R346, R350): on success the queue polls, from RDPUB; one that a packet has halted goes
on behind that packet. After a fault of a ring slot's read or of the RDPUB store, by which no packet was taken, it goes on at slot
rd: DEDUCED (entry 30). -/
def Device.enableQueue (dv : Device) (q d : Nat) (restart : Bool) : Device :=
  let dv := dv.withQueue q fun x => { x with desc := d, en := true, fresh := x.fresh || !restart }
  if dv.descriptorBad d then dv.haltQueue q .illfld none false
  else if !(dv.queue q).fresh then dv.setQState q (dv.queue q).goesOn
  else
    let r := dv.hRead (bitsOf d 96 8) (bitsOf d 192 64 + 8) 8
    match r.1 with
    | .error c => r.2.haltQueue q c none false
    | .ok bytes => (r.2.withQueue q fun x =>
        { x with rd := bytesVal bytes, rdpub := bytesVal bytes, fresh := false, skip := [] }).setQState q (dv.queue q).goesOn

/-- QUEUE_POLL (R346, R349). -/
def Device.pollQueue (dv : Device) (q frame : Nat) : Device :=
  let d := dv.phys (dv.queueAt q) 64
  let dv := dv.meet (dv.queueAt q) 64
  let x := dv.queue q
  if !bitOf d 0 then (if x.en then (dv.withQueue q fun y => { y with en := false }).setQState q 0 else dv)
  else if !x.en then dv.enableQueue q d false
  else if x.state = 3 then (if bitOf d 116 then dv.enableQueue q d true else dv)
  else Device.takeMany q frame 8 (dv.withQueue q fun y => { y with desc := d })

/-- PUBLISH_RDPUB (R349). -/
def Device.publish (dv : Device) (q : Nat) : Device :=
  let x := dv.queue q
  if !x.pubDue || !x.en then dv
  else
    let r := dv.hWrite x.ctx (x.ctl + 8) (valBytes 8 x.rd)
    let dv := r.2.withQueue q fun y => { y with pubDue := false }
    match r.1 with
    | some c => dv.haltQueue q c none false
    | none => dv.withQueue q fun y => { y with rdpub := y.rd }

/-- Whether a packet may start (R344, R353, R355): a frame after it was taken, after every packet before it has started and
every buffer before it has been taken, one that it came by apart, with no WAITV stalling the queue; with BAR, and for SIGNAL,
after every earlier packet is complete, the IBCALLs it came by apart. -/
def mayStart (before : List Packet) (p : Packet) (frame : Nat) : Bool :=
  !p.started && decide (p.frame < frame)
    && before.all (fun y => y.started && (y.rest.2 == 0 || p.calls.elem y.uid) && pktType y.bits != 4)
    && (!(bitOf p.bits 2 || pktType p.bits == 3) || before.all fun y => p.calls.elem y.uid)

/-- The packet of a queue that starts next, if it may. -/
def Queue.starting (x : Queue) (frame : Nat) : Option Packet :=
  let before := x.packets.takeWhile (·.started)
  match x.packets.drop before.length with
  | p :: _ => if mayStart before p frame then some p else none
  | [] => none

/-- The step of a packet's type. -/
def startStep (q ty : Nat) : Due :=
  match ty with
  | 0 => .nopPacket q
  | 1 => .launch q
  | 2 => .ibcall q
  | 3 => .signal q
  | 4 => .waitv q
  | 5 => .copy q
  | 6 => .refine q
  | 7 => .preemptPacket q
  | 8 => .resume q
  | 9 => .lichen q
  | _ => .mapsync q

/-- The FRAME that times a queue: that of the Hearth that serves it. -/
def Device.queueFrame (dv : Device) (q : Nat) : Nat := (dv.region (dv.server q)).frame

/-- The steps that a queue waits for: its next packet, or the stalled WAITV's next look. -/
def Device.queueSteps (dv : Device) (q : Nat) : List Due :=
  let x := dv.queue q
  if x.packets.any fun p => p.started && pktType p.bits == 4 then [.waitv q]
  else match x.starting (dv.queueFrame q) with
    | some p => [startStep q (pktType p.bits)]
    | none => []

/-- The packet of a type that a step starts. -/
def Device.begun (dv : Device) (q ty : Nat) : Option Packet :=
  match (dv.queue q).starting (dv.queueFrame q) with
  | some p => if pktType p.bits = ty then some p else none
  | none => none

/-- Changes a packet. -/
def Device.withPacket (dv : Device) (q uid : Nat) (f : Packet → Packet) : Device :=
  dv.withQueue q fun x => { x with packets := x.packets.map fun p => if p.uid = uid then f p else p }

/-- A packet starts. -/
def Device.startPacket (dv : Device) (q uid : Nat) (waits : List Nat) : Device :=
  dv.withPacket q uid fun p => { p with started := true, waits := waits }

/-- A packet has started and completed. -/
def Device.completePacket (dv : Device) (q uid : Nat) : Device :=
  dv.withPacket q uid fun p => { p with started := true, done := true }

/-- A position as a number, for the passes a LICHEN packet waits for. -/
def posKey (p : Pos) : Nat := p.region * 2 ^ 14 + p.prow * 2 ^ 7 + p.pos

/-- Whether an access has been translated and is not yet performed. -/
def BulkAcc.onWay (a : BulkAcc) : Bool :=
  match a.stage with
  | .atTarget _ | .locked _ _ => true
  | _ => false

/-- Whether a guard request has been translated and is not yet performed: on its way, or in the FIFO of its guard. -/
def GuardReq.onWay (g : GuardReq) : Bool :=
  match g.stage with
  | .sent _ | .queued _ => true
  | _ => false

/-- The number by which a packet waits for a line of a copy that has been translated and stalls at a locked replica (R68, R79):
its tile's, its channel's and its own (entry 13). -/
def lockKey (c : Coord) (ch : Nat) (j : CopyJob) : Nat :=
  2 ^ 64 + (((copyId c ch * 2 ^ 32 + j.id.toNat) * 65536 + j.row) * 65536 + j.line)

/-- The lines of a tile's copies that have been translated and stall, by their numbers. -/
def Tile.lockKeys (t : Tile) : List Nat :=
  (upTo 8).flatMap fun k => ((t.copyCh k).jobs.filter fun j => j.lock.isSome).map fun j => lockKey t.coord k j

/-- Whether what a MAPSYNC waits for has been performed, parked or withdrawn (R68): a copy line, an access or a guard request. -/
def State.mapSettled (s : State) (id : Nat) : Bool :=
  if 2 ^ 64 ≤ id then !((s.core :: s.others).any fun t => t.lockKeys.elem id)
  else match s.tileAt (evCoord id) with
    | some t => !(((t.acc? (evSeq id)).map BulkAcc.onWay).getD false) && !(((t.guard? (evSeq id)).map GuardReq.onWay).getD false)
    | none => true

/-- Whether a started packet's completion has come (Table 17-5). -/
def State.packetDone (s : State) (x : Queue) (p : Packet) : Bool :=
  p.started && (p.done || (match pktType p.bits with
    | 1 => p.waits.all fun g => ((s.dev.graphs.find? (·.id == g)).map (·.ended)).getD true
    | 2 => p.rest.2 == 0 && !(x.packets.any fun y => y.calls.elem p.uid)
    | 7 => p.waits.all fun n => match s.dev.node? n with
      | some n => n.st != .stopping && n.st != .saving && !n.stopDue
      | none => true
    | 9 => !(s.dev.regions.any fun r => r.wanted.any fun w => w.2 == p.uid)
    | 10 => p.waits.all s.mapSettled
    | _ => false))

/-- Completed packets leave a queue, each with its message if IRQ is set (R353); a completion may complete an IBCALL. -/
def State.settleQueue (q : Nat) : Nat → State → State
  | 0, s => s
  | fuel + 1, s =>
    let x := s.dev.queue q
    match x.packets.find? (s.packetDone x) with
    | none => s
    | some p =>
      let dv := s.dev.withQueue q fun y => { y with packets := y.packets.filter (·.uid != p.uid) }
      State.settleQueue q fuel { s with
        dev := if bitOf p.bits 3 then dv.message (dv.grantOf q).1 (bitsOf x.desc 104 8) else dv }

/-- Completed packets leave every queue. -/
def State.settleQueues (s : State) : State :=
  (s.dev.queues.map (·.q)).foldl (fun s q => State.settleQueue q (s.dev.queue q).packets.length s) s

/-- After a packet has started: completions, and the next packet of the queue. -/
def State.afterStart (s : State) (q : Nat) : State :=
  let s := s.settleQueues
  if (s.dev.queue q).packets.any fun p => p.started && pktType p.bits == 4 then s else s.push (s.dev.queueSteps q)

/-- NOP_PACKET (Table 17-5). -/
def execNopPacket (q : Nat) (s : State) : Host.Outcome State Fault Refusal :=
  .next (match s.dev.begun q 0 with
    | some p => ({ s with dev := s.dev.completePacket q p.uid }).afterStart q
    | none => s)

/-- IBCALL: its packets follow as if they stood in the ring; a fifth level halts the queue (R355). -/
def execIbcall (q : Nat) (s : State) : Host.Outcome State Fault Refusal :=
  .next (match s.dev.begun q 2 with
    | some p =>
      if p.calls.length ≥ 4 then
        ({ s with dev := (s.dev.completePacket q p.uid).haltQueue q .ibdepth (some (pktTag p.bits)) false }).afterStart q
      else
        ({ s with dev := s.dev.withPacket q p.uid fun p =>
            { p with started := true, rest := (bitsOf p.bits 64 64, bitsOf p.bits 128 16 + 1) } }).afterStart q
    | none => s)

/-- SIGNAL: one 8-byte store, behind every earlier packet; a fault completes it without a write and halts the queue (R350,
R353). -/
def execSignal (q : Nat) (s : State) : Host.Outcome State Fault Refusal :=
  .next (match s.dev.begun q 3 with
    | some p =>
      let r := s.dev.hWrite (s.dev.queue q).ctx (bitsOf p.bits 64 64) (valBytes 8 (bitsOf p.bits 128 64))
      let dv := r.2.completePacket q p.uid
      ({ s with dev := match r.1 with
          | some c => dv.haltQueue q c (some (pktTag p.bits)) false
          | none => dv }).afterStart q
    | none => s)

/-- Whether a fence word meets a WAITV's condition (Table 17-4). -/
def waitMet (cond word value : Nat) : Bool :=
  match cond with
  | 0 => decide (value ≤ word)
  | 1 => word == value
  | _ => word != value

/-- WAITV_CHECK: the stalled packet reads its word; met, it completes and the queue resumes (R353). -/
def State.waitvCheck (s : State) (q : Nat) (p : Packet) : State :=
  let r := s.dev.hRead (s.dev.queue q).ctx (bitsOf p.bits 64 64) 8
  match r.1 with
  | .error c =>
    ({ s with dev := (r.2.completePacket q p.uid).haltQueue q c (some (pktTag p.bits)) false }).afterStart q
  | .ok bytes =>
    if waitMet (bitsOf p.bits 192 2) (bytesVal bytes) (bitsOf p.bits 128 64) then
      let dv := r.2.completePacket q p.uid
      ({ s with dev := if (dv.queue q).state = 2 then dv.setQState q 1 else dv }).afterStart q
    else { s with dev := r.2 }

/-- WAITV: the queue stalls, and the word is read at the start and once in every later frame (R353). -/
def execWaitv (q : Nat) (s : State) : Host.Outcome State Fault Refusal :=
  .next (match (s.dev.queue q).packets.find? fun p => p.started && pktType p.bits == 4 with
    | some p => s.waitvCheck q p
    | none =>
      match s.dev.begun q 4 with
      | some p =>
        let dv := s.dev.startPacket q p.uid []
        ({ s with dev := if (dv.queue q).state = 1 then dv.setQState q 2 else dv }).waitvCheck q p
      | none => s)

/-- The 64-byte lines of a COPY in ascending order; a fault stops it (R353). -/
def Device.copyLines (ctx : Nat) : Nat → Nat → Nat → Device → Option Cause × Device
  | 0, _, _, dv => (none, dv)
  | n + 1, a, b, dv =>
    let r := dv.hRead ctx a 64
    match r.1 with
    | .error c => (some c, r.2)
    | .ok bytes =>
      let w := r.2.hWrite ctx b bytes
      match w.1 with
      | some c => (some c, w.2)
      | none => Device.copyLines ctx n (a + 64) (b + 64) w.2

/-- COPY (R353). -/
def execCopy (q : Nat) (s : State) : Host.Outcome State Fault Refusal :=
  .next (match s.dev.begun q 5 with
    | some p =>
      let b := p.bits
      let r := Device.copyLines (s.dev.queue q).ctx (bitsOf b 192 32 / 64) (bitsOf b 64 64) (bitsOf b 128 64) s.dev
      let dv := r.2.completePacket q p.uid
      ({ s with dev := match r.1 with
          | some c => dv.haltQueue q c (some (pktTag b)) false
          | none => dv }).afterStart q
    | none => s)

/-- The accesses, guard requests and copy lines of the named contexts that have been translated and not performed (R68). -/
def State.translated (s : State) (ctxs : List Nat) : List Nat :=
  (s.core :: s.others).flatMap fun t => if ctxs.elem t.ctx then
      (t.accs.filter BulkAcc.onWay).map (fun a => evId t.coord a.seq) ++ ((t.guards.filter GuardReq.onWay).map fun g => evId t.coord g.seq)
        ++ t.lockKeys
    else []

/-- MAPSYNC: every port discards what it has cached for the named contexts, their tiles' read buffers are invalidated, and the
packet waits for the accesses translated before (R68, R80). DESIGN CHOICE: the buffers are emptied as the packet starts (entry 83). -/
def execMapsync (q : Nat) (s : State) : Host.Outcome State Fault Refusal :=
  .next (match s.dev.begun q 10 with
    | some p =>
      let ctxs := pktContexts p.bits
      let dv := s.dev.startPacket q p.uid (s.translated ctxs)
      let clear (t : Tile) : Tile := if ctxs.elem t.ctx then t.emptyBuffer else t
      State.afterStart { s with
        core := clear s.core
        others := s.others.map clear
        dev := { dv with cache := dv.cache.filter fun c => !ctxs.elem c.ctx } } q
    | none => s)

/-- A queue's entry in its Hearth's last checkpoint (R345). -/
def Device.checkOf (dv : Device) (q : Nat) : Option Queue := (dv.region (q / 64)).check.queues.find? (·.q == q)

/-- A queue's table as it is rebuilt from a checkpoint, to be taken on from an index (R361, R362). What has started stays; of the
rest stays what the checkpoint holds and `keep` admits, and an indirect buffer is taken on from where it was. What does not stay is
taken again: the queue goes back as far as that needs, and passes over the slots of what has been taken and stays, or has completed,
so that none runs twice (entry 72). -/
def Queue.rebuilt (x : Queue) (c : Queue) (base : Nat) (keep : Packet → Bool) : Queue :=
  let stays (p : Packet) : Bool := p.started || (keep p && c.packets.any (·.uid == p.uid))
  let again := (x.packets.filter fun p => !stays p).filterMap (·.ix)
  let rd := again.foldl Nat.min (Nat.min base x.rd)
  { x with
    rd := rd
    skip := (((upTo (x.rd - rd)).map (rd + ·)).filter fun i => !again.elem i) ++ x.skip
    packets := (x.packets.filter stays).map fun (p : Packet) => match c.packets.find? (·.uid == p.uid) with
      | some y => if pktType p.bits != 2 || !p.started then p
        else { p with rest := if y.started then y.rest else (bitsOf p.bits 64 64, bitsOf p.bits 128 16 + 1) }
      | none => p }

/-- QBROKEN: an uncorrectable error in a queue's table, which is counted in its Hearth's region (R367). The table is rebuilt from the checkpoint and taking resumes from RDPUB;
where the checkpoint entry is unreadable too, a free choice here, the queue halts (R362). -/
def execQbroken (q : Nat) (s : State) : Host.Outcome State Fault Refusal :=
  let dv := s.dev.draw.withRegion (s.dev.server q) fun x => { x with uecnt := (x.uecnt + 1) % 2 ^ 32 }
  .next { s with dev :=
    match (if Config.freeBit s.dev.free then none else dv.checkOf q) with
    | none => dv.haltQueue q .qbroken none true
    | some c =>
      let dv := dv.withQueue q fun x => x.rebuilt c x.rdpub fun p => (p.ix.map fun i => decide (i < x.rdpub)).getD true
      let info := dv.queueInfo none
      ({ dv with free := dv.free + 2 }).report (recordOf (dv.queue q).ctx 8 .qbroken false (q / 64) 0 q info) }

end Sys2Proof.Machine
end

