-- ==== Sys2Proof/Machine/Launch.lean ====
section
/-! DEFINITION. What a launch checks and loads (R99, R129 to R135, R142): node records, images, route images, reduction
trees, presets, and the state of a tile that has been loaded. -/

namespace Sys2Proof.Machine

/-- A field of a node record (Table 06-1). -/
def Node.field (n : Node) (lo len : Nat) : Nat := bitsOf n.bits lo len
/-- PAIRED. -/
def Node.paired (n : Node) : Bool := bitOf n.bits 286
/-- PREEMPT. -/
def Node.preempt (n : Node) : Bool := bitOf n.bits 285
/-- ARGk (Table 06-1). -/
def Node.arg (n : Node) (k : Nat) : Word := BitVec.ofNat 32 (n.field (736 + 32 * k) 32)

/-- The placement of a record (R130). -/
def recPlace (b : Nat) : Rect := ⟨bitsOf b 341 10, bitsOf b 331 10, bitsOf b 321 10, bitsOf b 311 10⟩

/-- The shadow placement of a record (R142). -/
def recShadow (b : Nat) : Option Rect :=
  let p := recPlace b
  let r := bitsOf b 301 10
  let c := bitsOf b 291 10
  if bitOf b 286 then some ⟨r, r + (p.rowhi - p.rowlo), c, c + (p.colhi - p.collo)⟩ else none

/-- A zero bit that is not zero, or a broken bound (R130, R133); a bound beyond row or column 999 is one (entry 78). -/
def recBad (b : Nat) : Bool :=
  let p := recPlace b
  bitsOf b 0 285 != 0 || (!bitOf b 286 && bitsOf b 291 20 != 0) || decide (12032 < bitsOf b 410 14)
    || decide (4096 < bitsOf b 383 13) || decide (12032 < bitsOf b 357 14) || decide (32 < bitsOf b 351 6)
    || decide (p.rowhi < p.rowlo) || decide (p.colhi < p.collo) || decide (999 < p.rowhi) || decide (999 < p.colhi)

/-- The images of a node (R134). -/
structure Images where
  code : List Byte
  data : List Byte
  route : List Byte
  presets : List Byte
  deriving DecidableEq, Repr

/-- Tiles of a rectangle. -/
def Rect.size (r : Rect) : Nat := (r.rowhi + 1 - r.rowlo) * (r.colhi + 1 - r.collo)

/-- Reads an image, when it has any bytes. -/
def Device.readImage (dv : Device) (ctx a n : Nat) : Except Cause (List Byte) × Device :=
  if n = 0 then (.ok [], dv) else dv.hRead ctx a n

/-- Reads a node's images: presets, code, data, routes (R131, R132, R134). -/
def Device.readImages (dv : Device) (ctx : Nat) (n : Node) : Except Cause Images × Device :=
  let p := dv.readImage ctx (n.field 512 64) (8 * n.field 351 6)
  let c := p.2.readImage ctx (n.field 704 64) (4 * n.field 383 13)
  let d := c.2.readImage ctx (n.field 640 64) (16 * n.field 410 14)
  let size := 576 * n.place.size
  let r := if n.field 576 64 = 0 then (.ok (List.replicate size 0#8), d.2) else d.2.readImage ctx (n.field 576 64) size
  (match p.1, c.1, d.1, r.1 with
    | .ok p, .ok c, .ok d, .ok r => .ok ⟨c, d, r, p⟩
    | .error e, _, _, _ => .error e
    | _, .error e, _, _ => .error e
    | _, _, .error e, _ => .error e
    | _, _, _, .error e => .error e, r.2)

/-- The number `k` of 8-byte entries in an image. -/
def imageEntry (l : List Byte) (k : Nat) : DWord := BitVec.ofNat 64 (bytesVal ((l.drop (8 * k)).take 8))

/-- The route entries of a rank: 32 outbound, 32 inbound, 8 combine entries (R131). -/
def Images.route_ (im : Images) (rank k : Nat) : DWord := imageEntry (im.route.drop (576 * rank)) k

/-- Whether an offset field leaves -500 to +500. -/
def offsetBad (x : Nat) : Bool := let i := sxt 10 x; decide (i < -500) || decide (500 < i)

/-- A malformed outbound entry (R84). -/
def outBad (e : DWord) : Bool :=
  let w := e.toNat
  (entryV e && (bitsOf w 52 2 != 0 || (if entryRmt e then bitsOf w 0 19 != 0 else bitsOf w 20 32 != 0)))
    || decide (2 ≤ bitsOf w 60 2)
    || (if entryRmt e then decide (999 < bitsOf w 29 10) || decide (999 < bitsOf w 19 10)
        else offsetBad (bitsOf w 10 10) || offsetBad (bitsOf w 0 10))

/-- A malformed inbound entry (R86). -/
def inBad (e : DWord) : Bool :=
  let w := e.toNat
  entryV e && (bitsOf w 59 2 != 0 || bitsOf w 52 2 != 0 || bitsOf w 47 5 != 0
    || (if entryRmt e then bitsOf w 0 19 != 0 else bitsOf w 20 32 != 0)
    || (entrySink e && (entryRmt e || bitsOf w 0 59 != 0))
    || (if entryRmt e then decide (999 < bitsOf w 29 10) || decide (999 < bitsOf w 19 10)
        else offsetBad (bitsOf w 10 10) || offsetBad (bitsOf w 0 10)))

/-- A malformed combine entry: OP 3 (R99); other fields that are not zero where they should be are not judged (entry 27). -/
def combineBad (e : DWord) : Bool := entryV e && bitsOf e.toNat 52 2 == 3

/-- The rank of a coordinate in a rectangle (R130). -/
def Rect.rank (r : Rect) (c : Coord) : Nat := (c.row - r.rowlo) * (r.colhi - r.collo + 1) + (c.col - r.collo)

/-- The coordinates a flit visits in one dimension, its start left out. -/
def lineOfHops (c : Coord) (d : Dir) : Nat → List Coord
  | 0 => []
  | n + 1 => neighbour c d :: lineOfHops (neighbour c d) d n

/-- The coordinates of a local entry's path, both ends included (R85). -/
def entryPath (c : Coord) (e : DWord) : List Coord :=
  let dx := sxt 10 (bitsOf e.toNat 10 10)
  let dy := sxt 10 (bitsOf e.toNat 0 10)
  let xs (c : Coord) := lineOfHops c (if dx < 0 then .w else .e) dx.natAbs
  let ys (c : Coord) := lineOfHops c (if dy < 0 then .n else .s) dy.natAbs
  let a := if e.getLsbD 59 then ys c else xs c
  let mid := a.getLastD c
  c :: a ++ (if e.getLsbD 59 then xs mid else ys mid)

/-- R87 for outbound entry `k` of the tile at a coordinate. -/
def Device.routeOk (dv : Device) (pl : Rect) (im : Images) (c : Coord) (k : Nat) : Bool :=
  let e := im.route_ (pl.rank c) k
  if !entryV e || entryRmt e then true
  else
    let d := (entryDest c e).coord
    let i := im.route_ (pl.rank d) (32 + entryCh e)
    pl.has d && entryV i && !entryRmt i && !entrySink i && entryCh i == k && (entryDest d i).coord == c
      && (let p := entryPath c e; decide (p.length ≤ 1) || !p.any dv.absent)

/-- Whether the route image is well formed and passes R87. -/
def Device.routesOk (dv : Device) (pl : Rect) (im : Images) : Bool :=
  pl.coords.all fun c =>
    let e := im.route_ (pl.rank c)
    (upTo 32).all (fun k => !outBad (e k) && !inBad (e (32 + k)) && dv.routeOk pl im c k)
      && (upTo 8).all fun j => !combineBad (e (64 + j))

/-- Whether a walk along PARENT from a coordinate reaches the root within `fuel` steps. -/
def reachesRoot (e : Coord → DWord) : Nat → Coord → Bool
  | 0, c => (e c).getLsbD 62
  | fuel + 1, c => (e c).getLsbD 62 || reachesRoot e fuel (neighbour c (treeParent (e c)))

/-- R99 for one tree: `e` gives the combine entry of a coordinate, `sink` whether an inbound entry there has RSINK = 1. -/
def treeOk (pl : Rect) (e : Coord → DWord) (sink : Coord → Nat → Bool) : Bool :=
  let on := pl.coords.filter fun c => entryV (e c)
  let roots := on.filter fun c => (e c).getLsbD 62
  on.isEmpty || (roots.length == 1
    && on.all (fun c =>
      let x := e c
      bitsOf x.toNat 55 5 != 0
        && (x.getLsbD 62 || (let p := neighbour c (treeParent x)
            pl.has p && entryV (e p) && treeChild (e p) (dirPort (oppDir (treeParent x)))))
        && [Dir.w, .n, .e, .s].all (fun d => !treeChild x (dirPort d) || (let k := neighbour c d
            pl.has k && entryV (e k) && !(e k).getLsbD 62 && treeParent (e k) == oppDir d))
        && bitsOf x.toNat 51 4 == bitsOf ((roots.map e).headD 0#64).toNat 51 4
        && (!x.getLsbD 62 || sink c (bitsOf x.toNat 46 5))
        && reachesRoot e on.length c))

/-- Whether every tree of a node passes R99. -/
def treesOk (pl : Rect) (im : Images) : Bool :=
  (upTo 8).all fun j => treeOk pl (fun c => im.route_ (pl.rank c) (64 + j)) fun c n => entrySink (im.route_ (pl.rank c) (32 + n))

/-- The presets of a list applied in order (R132). -/
def applyPresets : List DWord → Ctl → Except Cause Ctl
  | [], c => .ok c
  | e :: l, c =>
    let n := bitsOf e.toNat 32 9
    let v := e.setWidth 32
    if bitsOf e.toNat 41 23 ≠ 0 then .error .illfld
    else if !presettable n then
      .error (if ((Tile.zero ⟨0, 0⟩ ⟨0, 0, 0⟩).getCtl n).isNone then .ctlnx else .ctlro)
    else
      match ctlRefusal c n v false with
      | some cz => .error cz
      | none => applyPresets l (c.set n v)

/-- Every preset of a node, with the fmt that a refinement loop appends, and R45 judged at the end (R132, R364). -/
def presetCtl (im : Images) (count : Nat) (ladder : Option Word) : Except Cause Ctl :=
  let l := (upTo count).map (imageEntry im.presets) ++ (ladder.map fun w => w.setWidth 64).toList
  match applyPresets l Ctl.zero with
  | .error c => .error c
  | .ok c => if carveOk c.spcarve c.ctbase then .ok c else .error .carve

/-- What refuses a node record before its images are read, in the order of the rows of R133. -/
def recRefusal (n : Node) : Option Cause :=
  if recBad n.bits then some .illfld
  else if n.field 383 13 = 0 ∨ n.field 383 13 ≤ n.field 371 12 then some .fetch
  else if 12032 < n.field 396 14 + n.field 410 14 then some .sprange
  else none

/-- Whether a paired node's shadow overlaps its placement or leaves the grid (R133). -/
def shadowBad (n : Node) : Bool :=
  match n.shadow with
  | some r => r.meets n.place || decide (999 < r.rowhi) || decide (999 < r.colhi)
  | none => false

/-- The checks of R133 on what was read: the cause that refuses the node, or its control registers. -/
def Device.judge (dv : Device) (g : Graph) (n : Node) (im : Images) : Except Cause Ctl :=
  match presetCtl im (n.field 351 6) g.ladder with
  | .error c => .error c
  | .ok ctl =>
    if !dv.routesOk n.place im then .error .chnoroute
    else if !treesOk n.place im then .error .rdtree
    else if shadowBad n then .error .illfld
    else .ok ctl

/-- coordrow of a tile whose row is `row`, in a region (Table 01-2). -/
def coordRow (region : Nat) (pl : Rect) (row : Nat) : Word :=
  BitVec.ofNat 32 (atBits 26 6 region + atBits 16 10 (row - pl.rowlo) + atBits 0 10 row)

/-- coordcol (Table 01-3). -/
def coordCol (pl : Rect) (col : Nat) : Word := BitVec.ofNat 32 (atBits 16 10 (col - pl.collo) + atBits 0 10 col)

/-- The primary tile that a tile of the node stands for (R142). -/
def Node.primaryOf (n : Node) (c : Coord) : Coord :=
  if n.place.has c then c
  else match n.shadow with
    | some r => ⟨c.row - r.rowlo + n.place.rowlo, c.col - r.collo + n.place.collo⟩
    | none => c

/-- The pairing of a tile of a node (R142). -/
def Node.pairOf (n : Node) (c : Coord) : Option Pair :=
  match n.shadow with
  | some r =>
    let p := n.primaryOf c
    let sh : Coord := ⟨p.row - n.place.rowlo + r.rowlo, p.col - n.place.collo + r.collo⟩
    some ⟨n.place.has c, if n.place.has c then sh else p, [], [], []⟩
  | none => none

/-- The control registers that show where a tile of the node stands (R18, R136, R142). -/
def Ctl.place (x : Ctl) (n : Node) (c : Coord) : Ctl :=
  let p := n.primaryOf c
  { x with
    coordrow := coordRow (regionOf c) n.place p.row
    coordcol := coordCol n.place p.col
    rank := BitVec.ofNat 32 (n.place.rank p) }

/-- nodeid (Table 06-4). -/
def nodeidOf (g : Graph) (n : Node) : Word := BitVec.ofNat 32 (atBits 12 20 g.gseq + atBits 0 12 n.index)

/-- A tile as a launch leaves it (R134, R135). -/
def loadTile (g : Graph) (n : Node) (im : Images) (ctl : Ctl) (c : Coord) : Tile :=
  let t := Tile.zero c ⟨0, 0, 0⟩
  let rank := n.place.rank (n.primaryOf c)
  let s := (upTo 8).foldl (fun (v : Vector Word 32) k => v.setIfInBounds (k + 1) (n.arg (k + 1))) t.files.s
  { t with
    files := { t.files with s := s, a := t.files.a.setIfInBounds 15 (BitVec.ofNat 32 (16 * n.field 357 14)) }
    ctl := { (ctl.place n c) with nodeid := nodeidOf g n, ctxid := BitVec.ofNat 32 g.ctx }
    sch := { t.sch with pc := BitVec.ofNat 32 (4 * n.field 371 12), status := .loaded }
    pad := { t.pad with
      mem := Memory.put [] (16 * n.field 396 14) im.data
      code := Memory.put [] 0 im.code }
    outs := Vector.ofFn fun k => ⟨im.route_ rank k.val, 0, 0#32, false⟩
    ins := Vector.ofFn fun k => ⟨im.route_ rank (32 + k.val), false, 0#128, 0#32, 0#32, false, false, none⟩
    trees := Vector.ofFn fun k => ⟨im.route_ rank (64 + k.val), 0, 0, [], 0, none, []⟩
    pair := n.pairOf c }

end Sys2Proof.Machine
end

