-- ==== Sys2Proof/Machine/Nodes.lean ====
section
/-! DEFINITION. The life of a node: launch, start, completion, failure, pre-emption, save and restore (R133 to R141, R337 to
R342), the end of a graph (R354), and trap records that waited (R335). -/

namespace Sys2Proof.Machine

/-- A graph by its number. -/
def Device.graph? (dv : Device) (g : Nat) : Option Graph := dv.graphs.find? (·.id == g)

/-- Changes a graph. -/
def Device.withGraph (dv : Device) (g : Nat) (f : Graph → Graph) : Device :=
  { dv with graphs := dv.graphs.map fun x => if x.id = g then f x else x }

/-- The graph of a node; a node always has one. -/
def Device.graphOf (dv : Device) (n : Node) : Graph :=
  (dv.graph? n.graph).getD ⟨n.graph, 0, 0, 0, none, 0, 0, 0, 0xFFFF, true, none⟩

/-- Graph status line (Table 17-6). -/
def Graph.status (g : Graph) (st : Nat) : Nat :=
  atBits 0 16 g.ndone + atBits 16 16 g.nfail + atBits 32 16 g.fnode + atBits 48 8 g.fcause + atBits 56 2 st

/-- Writes a graph's status line; the cause if the store faults (R354). -/
def Device.writeStatus (dv : Device) (g : Graph) (st : Nat) : Option Cause × Device :=
  match g.statva with
  | some va => dv.hWrite g.ctx va (valBytes 64 (g.status st))
  | none => (none, dv)

/-- Whether a node keeps its graph from ending: it is running, ready or pre-empted (R354). -/
def NodeSt.live : NodeSt → Bool
  | .waiting | .complete | .failed => false
  | _ => true

/-- UTAG of the LAUNCH packet that waits for a graph (R350). -/
def Device.launchTag (dv : Device) (g : Graph) : Option Nat :=
  ((dv.queue g.queue).packets.find? fun p => p.started && pktType p.bits == 1 && p.waits.elem g.id).map fun p => pktTag p.bits

/-- GRAPH_END: a graph with no running, ready or pre-empted node ends, one with failures once its context's records are written
(R335); a fault of its status line halts the queue (R354). -/
def Device.endGraph (dv : Device) (gid : Nat) : Device :=
  match dv.graph? gid with
  | none => dv
  | some g =>
    if g.ended || dv.nodes.any (fun n => n.graph == gid && n.st.live) || (0 < g.nfail && !(dv.ringOf g.ctx).held.isEmpty) then dv
    else
      let tag := dv.launchTag g
      let r := dv.writeStatus g (if 0 < g.nfail then 2 else 1)
      let dv := r.2.withGraph gid fun g => { g with ended := true }
      match r.1 with
      | some c => dv.haltQueue g.queue c tag false
      | none => dv

/-- BASE of a node (R356). -/
def Device.base (dv : Device) (n : Node) : Nat :=
  let p : Int := (dv.queue (dv.graphOf n).queue).prio + sxt 4 (n.field 287 4)
  Nat.min 23 p.toNat

/-- A node becomes ready for the first time (R134, R356). -/
def Device.readyNode (dv : Device) (n : Node) : Node := { n with st := .ready, aged := dv.base n, agedAt := dv.now }

/-- Whether a graph is pre-empted by a PREEMPT packet: nodes of it are being saved, or saved, until a RESUME (R140, R353). -/
def Device.graphHeld (dv : Device) (g : Nat) : Bool :=
  dv.nodes.any fun m => m.graph == g && m.held && (m.st == .stopping || m.st == .saving || m.st == .saved || m.stopDue)

/-- Every dependant of a completed node counts one of its NPRED as satisfied (R138). One that becomes ready while its graph is
pre-empted is placed after the resume: it is held (R140). -/
def Device.countDependants (dv : Device) (n : Node) : Device :=
  { dv with nodes := dv.nodes.map fun m =>
      let k := if m.graph = n.graph then (n.succ.filter (· == m.index)).length else 0
      let m := { m with left := m.left - k }
      if k != 0 && m.left == 0 && m.st == .waiting then { dv.readyNode m with held := dv.graphHeld m.graph } else m }

/-- A graph ends where it may: then packets complete, and the loop that runs it goes on. -/
def State.graphGoes (s : State) (gid : Nat) : State :=
  let s := (s.withDev fun dv => dv.endGraph gid).settleQueues
  match s.dev.loops.find? fun l => l.graph == gid with
  | some l => if ((s.dev.graph? gid).map (·.ended)).getD false then s.push [.refineStep l.queue] else s
  | none => s

/-- After the end of a node: the end of its graph. -/
def State.nodeGone (s : State) (n : Node) : State := s.graphGoes n.graph

/-- TRAP_RECORD_RELEASE: held records are written once space frees, RINGLOST first, and the graphs that waited for them end
(R335). -/
def execTrapRecordRelease (ctx : BitVec 8) (s : State) : Host.Outcome State Fault Refusal :=
  let s := s.withDev fun dv => dv.releaseHeld ctx.toNat
  .next ((s.dev.graphs.filter fun g => !g.ended && g.ctx == ctx.toNat).foldl (fun (s : State) g => s.graphGoes g.id) s)

/-- What has left a failing tile and comes to its end: accesses on their way, and stores and releases that are neither parked nor
behind an open acquire (R120, R139). -/
def BulkAcc.leaves (t : Tile) (a : BulkAcc) : Bool :=
  match a.stage with
  | .atTarget _ | .locked _ _ => true
  | .inTile => a.kind.isStore && !a.staged && !a.dropped && !t.acqOpen a.seq
  | _ => false

/-- A tile of a failing node stops at its pre-emption granularity (R139, R337): nothing of it issues any more; answers that have
come are taken, stores and releases issued are still performed, packets handed to the fabric go out, copies end their chunks; all
else is discarded. -/
def Tile.failStop (t : Tile) (frame : Nat) : Tile :=
  let t := t.endStint frame 3
  let t := t.guards.foldl (fun (t : Tile) g => match g.stage with
    | .answered c x => t.guardAnswered g c x
    | _ => t) t
  let t := Tile.finishSends { t with blocks := [] }
  { t with
    sch := { t.sch with status := .halted, pend := [], stall := none, flights := [], vops := [] }
    pad := { t.pad with queue := [] }
    copy := { t.copy with ch := t.copy.ch.map fun (c : CopyCh) =>
      { c with jobs := c.jobs.filter fun (j : CopyJob) => j.parked.isNone && !j.held } }
    accs := t.accs.filter (BulkAcc.leaves t)
    guards := t.guards.filter fun (g : GuardReq) => g.rel && g.pa.isSome && (match g.stage with
      | .answered _ _ => false
      | _ => true)
    out := t.out.filter fun m => match m with
      | .portw _ _ _ => false
      | _ => true
    lists := [], blocks := [], acks := [], recs := [] }

/-- The eight units of a tile (R338). -/
def allUnits : List TUnit := [.core, .mx, .vx, .xp, .up, .rn, .copy, .channels]

/-- NODE_FAIL: the node's tiles stop, its failure is recorded in its graph, and its holds are released next (R139); those of a node
that is saved stand in its image (R120). -/
def State.nodeFails (s : State) (id : Nat) : State :=
  match s.dev.node? id with
  | none => s
  | some n =>
    if n.st = .failed ∨ n.st = .complete then s
    else
      let on := n.st == .loading || n.st == .running || n.st == .stopping || n.st == .saving
      let mine (t : Tile) : Bool := on && n.covers t.coord && t.sch.status != .absent && t.sch.status != .idle
      let stop (t : Tile) : Tile := if mine t then t.failStop (s.dev.frameOf t.coord) else t
      let cs := ((s.core :: s.others).filter mine).map (·.coord)
      let s := { s with core := stop s.core, others := s.others.map stop, bundle := if mine s.core then none else s.bundle }
      let s := s.withDev fun dv =>
        let dv := cs.foldl Device.forget dv
        let dv := dv.withNode id fun n => { n with st := .failed, image := if on then [] else n.image, kept := [], slots := none, stopDue := false, held := false }
        dv.withGraph n.graph fun g =>
          { g with
            nfail := g.nfail + 1
            fcause := if g.nfail = 0 then n.cause - 1 else g.fcause
            fnode := if g.nfail = 0 then n.index else g.fnode }
      s.nodeGone n

/-- NODE_FAIL (R139). -/
def execNodeFail (node : Nat) (s : State) : Host.Outcome State Fault Refusal := .next (s.nodeFails node)

/-- The nodes whose tiles a node waits for: those that hold a tile of its placement or shadow placement. -/
def Device.occupants (dv : Device) (n : Node) : List Node :=
  dv.nodes.filter fun m =>
    m.id != n.id && (m.st == .loading || m.st == .running || m.st == .stopping || m.st == .saving) && m.meets n

/-- Whether a tile that a failed node left still stands on a node's tiles. -/
def State.leftover (s : State) (n : Node) : Bool :=
  (s.core :: s.others).any fun t => n.covers t.coord && t.sch.status == .halted && (s.dev.nodeAt t.coord).isNone

/-- Whether a node's tiles exist, and lie in no region that is to be retired: the first condition of R358. -/
def Device.placesOk (dv : Device) (n : Node) : Bool :=
  n.coords.all fun c => !dv.absent c && !(coordOk c && (dv.region (regionOf c)).retire)

/-- NODE_REFUSE: a record names the cause, and the node fails (R133). -/
def State.refuseNode (s : State) (n : Node) (c : Cause) : State :=
  let g := s.dev.graphOf n
  let region := regionOf ⟨n.place.rowlo, n.place.collo⟩
  let s := s.withDev fun dv =>
    (dv.say g.ctx 4 c true region (nodeidOf g n).toNat 0 none).withNode n.id fun n => { n with cause := c.code + 1 }
  s.nodeFails n.id

/-- Tiles take their positions, and a stint begins on each (R134, R379). -/
def State.placeTile (s : State) (t : Tile) : State :=
  match s.dev.posOf t.coord with
  | some p => s.addTile ((t.settle s.dev p).beginStint (s.dev.frameOf t.coord))
  | none => s

/-- The cause that refuses a node whose images cannot all be read: a preset list that has been read and fails comes first (R133;
entry 26). -/
def Device.imageCause (dv : Device) (g : Graph) (n : Node) (c : Cause) : Cause :=
  match (dv.readImage g.ctx (n.field 512 64) (8 * n.field 351 6)).1 with
  | .ok p => (match presetCtl ⟨[], [], [], p⟩ (n.field 351 6) g.ladder with
    | .error e => e
    | .ok _ => c)
  | .error _ => c

/-- A node with its record as it is read at its launch; its tiles are those it has claimed (R134; entry 68). -/
def Node.withBits (n : Node) (bytes : List Byte) : Node := { n with bits := bytesVal bytes }

/-- LAUNCH_NODE: the leading Hearth reads the node's record, checks it, and reads, checks and sends the images (R133, R134); a
claim whose tiles no longer exist is released (R358). -/
def State.launchNode (s : State) (id : Nat) : State :=
  match s.dev.node? id with
  | none => s
  | some n =>
    if n.st != .claimed || !n.image.isEmpty || !(s.dev.occupants n).isEmpty || s.leftover n then s
    else if !s.dev.placesOk n then s.withDev fun dv => dv.withNode id fun n => { n with st := .ready, agedAt := dv.now }
    else
      let g := s.dev.graphOf n
      let h := s.dev.hRead g.ctx n.va 128
      let s := { s with dev := h.2 }
      match h.1 with
      | .error c => s.refuseNode n c
      | .ok bytes =>
        let n := n.withBits bytes
        let s := s.withDev fun dv => dv.withNode id fun _ => n
        match recRefusal n with
        | some c => s.refuseNode n c
        | none =>
          let r := s.dev.readImages g.ctx n
          match r.1 with
          | .error c => State.refuseNode { s with dev := r.2 } n (s.dev.imageCause g n c)
          | .ok im =>
            let s := { s with dev := r.2 }
            match s.dev.judge g n im with
            | .error c => s.refuseNode n c
            | .ok ctl =>
              let s := n.coords.foldl (fun (s : State) c => s.placeTile (loadTile g n im ctl c)) s
              s.withDev fun dv => dv.withNode id fun n => { n with st := .loading }

/-- LAUNCH_NODE (R134). -/
def execLaunchNode (node : Nat) (s : State) : Host.Outcome State Fault Refusal := .next (s.launchNode node)

/-- START_MULTICAST: once every tile is loaded and no migration concerns them, the tiles start; a node that is to be
pre-empted is saved at its entry bundle instead (R134, R140, R141). -/
def State.startNode (s : State) (id : Nat) : State :=
  match s.dev.node? id with
  | none => s
  | some n =>
    if n.st != .loading || s.dev.migrating n then s
    else if n.stopDue then
      let stop (t : Tile) : Tile :=
        if n.covers t.coord && t.sch.status == .loaded then
          { t with sch := { t.sch with status := .stopped }, acks := allUnits } else t
      let s := { s with core := stop s.core, others := s.others.map stop }
      s.withDev fun dv => dv.withNode id fun n =>
        { n with st := .stopping, stopDue := false, stoppedRegions := n.regions }
    else s.withDev fun dv => dv.withNode id fun n => { n with st := .running }

/-- START_MULTICAST (R134). -/
def execStartMulticast (node : Nat) (s : State) : Host.Outcome State Fault Refusal := .next (s.startNode node)

/-- TILE_START: the start multicast reaches a tile (R134). -/
def execTileStart (c : Coord) (s : State) : Host.Outcome State Fault Refusal :=
  .next (match s.dev.nodeAt c with
    | some n =>
      if n.st = .running then s.onTile c fun t =>
        if t.sch.status = .loaded then t.withSch fun x => { x with status := .running } else t
      else s
    | none => s)

/-- An end of a channel on this wafer, moved with its node. -/
def Dest.move (f : Coord → Coord) (d : Dest) : Dest := if d.remote.isNone then { d with coord := f d.coord } else d

/-- A header whose ends have moved. -/
def PHead.move (f : Coord → Coord) (h : PHead) : PHead := { h with src := h.src.move f, dst := h.dst.move f }

/-- A message whose parties have moved with their node (R96, R341). -/
def Msg.move (f : Coord → Coord) : Msg → Msg
  | .packet h p z b => .packet (h.move f) p z b
  | .arrival h a n t => .arrival (h.move f) a n t
  | .credit d n x => .credit (d.move f) n x
  | .notice d n q c t => .notice (d.move f) n q c t
  | .result d n q t c => .result (d.move f) n q t c
  | .partial_ d j p r x => .partial_ (f d) j p r x
  | .abandon d j p r => .abandon (f d) j p r
  | .portw c q x => .portw (f c) q x
  | .crc d k x => .crc (f d) k x
  | .ack c u => .ack (f c) u
  | .token k => .token k

/-- Whether a message goes to a tile of a node (R96). -/
def Node.isFor (n : Node) (m : Msg) : Bool :=
  match m.dest with
  | some d => d.remote.isNone && n.covers d.coord
  | none => false

/-- A message that has reached its tile. -/
def flitAt (c : Coord) (m : Msg) : Flit := ⟨m, c, true, 0, 0, false, 0⟩

/-- Whether a message in the fabric is a packet or arrival of a tile at a coordinate, sent or to be received. -/
def Msg.concerns (m : Msg) (c : Coord) : Bool :=
  match m with
  | .packet h _ _ _ => (h.src.remote.isNone && h.src.coord == c) || (h.dst.remote.isNone && h.dst.coord == c)
  | .arrival h _ _ _ => (h.src.remote.isNone && h.src.coord == c) || (h.dst.remote.isNone && h.dst.coord == c)
  | _ => false

/-- Whether a copy channel has an outbound copy that is neither performed nor stopped (R124). -/
def CopyCh.outBusy (c : CopyCh) : Bool := c.jobs.any fun j => j.tpl.out && !j.complete && !c.stopped j

/-- Whether a paired tile's router still holds a packet, arrival or request of its own for comparison; credits and grants that wait
for the partner do not count (R142, R143). -/
def Tile.comparing (t : Tile) : Bool :=
  match t.pair with
  | some p => p.held.any fun x => x.item.isSome && !keyUnbounded x.key
  | none => false

/-- Whether a tile has ended and R124 holds for it. -/
def Tile.finished (t : Tile) (dv : Device) : Bool :=
  t.sch.status == .ended && t.accs.all BulkAcc.answered && t.pad.queue.isEmpty && t.copy.ch.toList.all (fun c => !c.outBusy)
    && t.sends.isEmpty && !t.comparing && t.holds.isEmpty && t.out.all (fun m => !m.concerns t.coord) && dv.net.all (fun f => !f.msg.concerns t.coord)

/-- Whether a node is about to complete (R124, R138). -/
def State.nodeFinished (s : State) (n : Node) : Bool :=
  n.st == .running && n.coords.all fun c => match s.tileAt c with
    | some t => t.finished s.dev
    | none => false

/-- NODE_COMPLETE: dependants are counted, the placement becomes free; an inbound row still parked leaves its entry (R74, R138). -/
def State.nodeCompletes (s : State) (id : Nat) : State :=
  match s.dev.node? id with
  | none => s
  | some n =>
    if !s.nodeFinished n then s
    else
      let s := s.removeTiles fun t => n.covers t.coord
      let s := s.withDev fun dv =>
        let dv := (n.coords.foldl Device.forget dv).withNode id fun n => { n with st := .complete, slots := none }
        let dv := dv.withGraph n.graph fun g => { g with ndone := g.ndone + 1 }
        dv.countDependants n
      s.nodeGone n

/-- NODE_COMPLETE (R138). -/
def execNodeComplete (node : Nat) (s : State) : Host.Outcome State Fault Refusal := .next (s.nodeCompletes node)

/-- The save pool of a context: its base and its slots (Table 16-6). -/
def Device.pool (dv : Device) (ctx : Nat) : Nat × Nat :=
  let d := dv.desc ctx
  (bitsOf d 514 30 * 2 ^ 18, bitsOf d 544 32)

/-- The runs of slots in use in a context's pool. -/
def Device.slotsUsed (dv : Device) (ctx : Nat) : List (Nat × Nat) :=
  (dv.nodes.filter fun m => (dv.graphOf m).ctx == ctx).filterMap (·.slots)

/-- Where a run of `k` slots would fit in a pool: every slot it could start at. -/
def Device.slotRuns (dv : Device) (ctx k : Nat) : List Nat :=
  let used := dv.slotsUsed ctx
  (upTo ((dv.pool ctx).2 + 1 - k)).filter fun a => used.all fun u => decide (a + k ≤ u.1) || decide (u.1 + u.2 ≤ a)

/-- A run of save slots for a node, which one being the Hearth's choice, free here; none when the pool cannot hold it
(R340). -/
def Device.takeSlots (dv : Device) (n : Node) : Option (Nat × Nat) × Device :=
  let k := n.coords.length
  let l := dv.slotRuns (dv.graphOf n).ctx k
  match l[dv.freeBits 32 % l.length]? with
  | some a => (some (a, k), dv.draw)
  | none => (none, dv)

/-- Whether the pool can take a node's save area (R358). -/
def Device.canSave (dv : Device) (n : Node) : Bool :=
  decide (n.coords.length ≤ (dv.pool (dv.graphOf n).ctx).2) && !(dv.slotRuns (dv.graphOf n).ctx n.coords.length).isEmpty

/-- Whether a migration that has started moves a tile of a node. -/
def Device.moving (dv : Device) (n : Node) : Bool := dv.migrations.any fun m => m.started && m.moved.any n.covers

/-- A pre-emption begins with a run of save slots: the stop goes out (R337), or waits for the start multicast or for a migration
(R25, R140). A PREEMPT packet holds the node until a RESUME, and a node not pre-emptible is reported. -/
def State.beginStopAt (s : State) (n : Node) (packet : Bool) (sl : Nat × Nat) : State :=
  let g := s.dev.graphOf n
  let note := packet && !n.preempt
  s.withDev fun dv =>
    let dv := if note then
        dv.say g.ctx 6 .preempt false (regionOf ⟨n.place.rowlo, n.place.collo⟩) (nodeidOf g n).toNat 0 none else dv
    dv.withNode n.id fun n =>
      { n with
        slots := some sl, stoppedRegions := [], held := n.held || packet
        st := if n.st == .loading || s.dev.moving n then n.st else .stopping
        stopDue := n.st == .loading || s.dev.moving n }

/-- A pre-emption takes its save slots and begins; without room for them it does not (R340). -/
def State.beginStop (s : State) (id : Nat) (packet : Bool) : State :=
  match s.dev.node? id with
  | none => s
  | some n =>
    let r := s.dev.takeSlots n
    match r.1 with
    | none => s
    | some sl => State.beginStopAt { s with dev := r.2 } n packet sl

/-- A bulk load on its way is withdrawn from its port, to be sent again (R75, R337); a store or an element of a SPILL or FILL that
is under way is waited for (R245). -/
def BulkAcc.withdraw (a : BulkAcc) : BulkAcc :=
  match a.stage with
  | .atTarget _ | .locked _ _ => if a.kind == .bldw || a.kind == .bldd then { a with stage := .inTile } else a
  | _ => a

/-- A parked access leaves its entry, to be sent again (R75). -/
def BulkAcc.unparked (a : BulkAcc) : BulkAcc :=
  match a.stage with
  | .parked _ _ _ _ => { a with stage := .inTile, notice := false }
  | _ => a

/-- Whether a tile has issued a release that has not been answered (R120). -/
def Tile.releasing (t : Tile) : Bool := t.guards.any (·.rel)

/-- A tile stops at its bundle boundary (R337): accesses of port A are performed and untagged producers complete as before a trap,
and the tile's cycle is the one in which the last of them did; tagged operations stay as they are, to go on after the restore
(R276, R324, R339); memory sends hand on what they read. -/
def Tile.stopHere (t : Tile) : Tile :=
  let r := t.settleForTrap
  let t := (r.1.withSch fun s => { s with cycle := r.2 }).finishSends
  Tile.emptyBuffer (t.withSch fun s =>
    { s with status := if s.status = .running then .stopped else s.status, stall := none, waited := 0 })

/-- The core stops at its bundle boundary, and what is on its way from a port is withdrawn (R337). An ungranted ACQ is withdrawn
unless an issued release waits for it (R120; entry 65). -/
def Tile.stopCore (t : Tile) : Tile :=
  let t := t.stopHere
  { t with
    accs := t.accs.map BulkAcc.withdraw
    guards := t.guards.map fun (g : GuardReq) =>
      if g.rel || t.guards.any (fun r => r.rel && r.va == g.va && decide (g.seq < r.seq)) then g else match g.stage with
      | .answered _ _ => g
      | _ => { g with stage := .inTile, notice := false } }

/-- Park notices that have not been delivered are gone: what is parked is withdrawn (R75). -/
def Tile.hushParked (t : Tile) : Tile :=
  { t with accs := t.accs.map fun (a : BulkAcc) => match a.stage with
      | .parked _ _ _ _ => { a with notice := false }
      | _ => a }

/-- What is parked leaves its port, as the tile is saved; a PORTW on its way finds its load gone (R75, R318). -/
def Tile.unparkAll (t : Tile) : Tile :=
  { t with
    accs := t.accs.map BulkAcc.unparked
    copy := { t.copy with ch := t.copy.ch.map fun (c : CopyCh) =>
      { c with jobs := c.jobs.map fun (j : CopyJob) => { j with parked := none } } }
    out := t.out.filter fun m => match m with
      | .portw _ _ _ => false
      | _ => true }

/-- PREEMPT_STOP: a stop reaches a tile. A cause that is pending at the same boundary is taken first, and an open bundle first issues
(R337, R342; where the next bundle would trap as it issues, the step waits: State.trapsFirst); a tile whose start has not yet come
stops at its entry bundle. What is parked is withdrawn from its port and sent again on resume; a migration leaves accesses in
place (R75). -/
def State.preemptStop (s : State) (c : Coord) : State :=
  match s.tileAt c with
  | none => s
  | some t =>
    let busy := s.core.isAt c && s.bundle.isSome
    let trap := !t.sch.tm && !t.sch.pend.isEmpty && t.sch.status == .running
    if !s.dev.stopTold c || busy || trap then s
    else if t.sch.status = .loaded then s.setTile (t.withSch fun x => { x with status := .stopped })
    else if t.sch.status != .running then s
    else if s.dev.moves c && ((s.dev.nodeAt c).map fun n => n.st == .running).getD false then
      s.setTile t.stopHere
    else if t.releasing then s.setTile t.stopCore
    else (s.withDev fun dv => dv.forget c).setTile t.stopCore.hushParked

/-- PREEMPT_STOP (R337). -/
def execPreemptStop (c : Coord) (s : State) : Host.Outcome State Fault Refusal := .next (s.preemptStop c)

/-- Whether an engine has nothing fired (R284). -/
def Eng.idle (e : Eng) : Bool := e.fired.isEmpty

/-- Whether a flit is a partial result that has arrived and that the tile's router has not accepted: it waits in the link, behind an
input of its port, another round or a held result (R100, R101). -/
def Tile.leavesWaiting (t : Tile) (f : Flit) : Bool :=
  f.arrived && (match f.msg with
    | .partial_ d j p r x => d == t.coord && (t.treeInput j p r x).isNone
    | _ => false)

/-- Whether a unit of a tile has stopped (R337): the core when its releases are released, grants are taken and no store or list
element is under way; the channels when their packets have landed, under a migration when the router has passed on what it had
accepted (R21). -/
def Tile.unitStopped (t : Tile) (dv : Device) (u : TUnit) : Bool :=
  (t.sch.status == .stopped || t.sch.status == .ended) && (match u with
    | .core => t.guards.all (fun g => !g.rel && (match g.stage with
        | .answered _ _ => false
        | _ => true)) && t.accs.all fun a => match a.kind, a.stage with
      | .spill, .atTarget _ | .fill, .atTarget _ | .bstw, .atTarget _ | .bstd, .atTarget _ => false
      | .spill, .locked _ _ | .fill, .locked _ _ | .bstw, .locked _ _ | .bstd, .locked _ _ => false
      | .bstw, .inTile | .bstd, .inTile => a.staged || t.acqOpen a.seq
      | _, _ => true
    | .mx => t.eng.mx.idle
    | .xp => t.eng.xp.idle
    | .up => t.eng.up.idle
    | .rn => t.eng.rn.idle
    | .vx => true
    | .copy => (upTo 8).all fun k => (t.copyNext k true).isNone
    | .channels => t.sends.isEmpty && !t.comparing && t.out.all (fun m => !m.concerns t.coord)
      && dv.net.all fun f => if dv.moves t.coord then f.at_ != t.coord || decide (3 ≤ f.msg.vc) || t.leavesWaiting f else !f.msg.concerns t.coord)

/-- Whether every tile of a node in a region has sent all eight acknowledgements (R338). -/
def State.regionStopped (s : State) (n : Node) (r : Nat) : Bool :=
  n.coords.all fun c => regionOf c != r || (match s.tileAt c with
    | some t => decide (8 ≤ t.acks.length)
    | none => true)

/-- STOP_ACK: a unit that has stopped acknowledges; a region whose tiles have all stopped reports to the leading Hearth, and
the save phase begins once every region has (R338). -/
def State.stopAck (s : State) (c : Coord) (u : TUnit) : State :=
  match s.tileAt c with
  | none => s
  | some t =>
    if !s.dev.stopTold c || t.acks.elem u || !t.unitStopped s.dev u then s
    else
      let s := s.setTile { t with acks := t.acks ++ [u] }
      match s.dev.nodeAt c with
      | none => s
      | some n =>
        let r := regionOf c
        if n.st = .stopping && s.regionStopped n r && !n.stoppedRegions.elem r then
          let l := n.stoppedRegions ++ [r]
          s.withDev fun dv => dv.withNode n.id fun n => { n with stoppedRegions := l }
        else s

/-- STOP_ACK (R338). -/
def execStopAck (c : Coord) (u : TUnit) (s : State) : Host.Outcome State Fault Refusal := .next (s.stopAck c u)

/-- The lines of one save slot of a node's run as direct-window addresses (R340). -/
def Device.slotAt (dv : Device) (n : Node) (sl : Nat × Nat) (i : Nat) : List Nat :=
  (upTo 4096).map fun k => (dv.pool (dv.graphOf n).ctx).1 + 2 ^ 18 * (sl.1 + i) + 64 * k

/-- The lines of a node's save slots. -/
def Device.slotLines (dv : Device) (n : Node) (sl : Nat × Nat) : List Nat := (upTo sl.2).flatMap (dv.slotAt n sl)

/-- Writes lines of save slots: their bytes are ciphertext of the device's own layout, free values, sealed under key slot 0, whose
key material is number 0 (R76, R340; entry 8). None where a write fails at its port. -/
def Device.writeLines (dv : Device) (ls : List Nat) : Option Device :=
  if ls.any fun a => (direct a).isNone || dv.portGone (stackOf a) then none
  else
    some (ls.foldl (fun (dv : Device) a =>
      { dv with
        hbm := dv.hbm.put a ((upTo 64).map fun i => Config.freeByte dv.free i)
        free := dv.free + 1
        seals := putSeal a 0 dv.seals
        bad := NatSet.del dv.bad a
        poison := NatSet.del dv.poison a }) dv)

/-- Writes the save images into their slots (R340). -/
def Device.writeSlots (dv : Device) (n : Node) (sl : Nat × Nat) : Option Device := dv.writeLines (dv.slotLines n sl)

/-- Whether lines of save slots can be read back: no uncorrectable error, poison or wrong tag, no port gone (R341). -/
def Device.linesGood (dv : Device) (ls : List Nat) : Bool :=
  ls.all fun a => !dv.bad.has a && !dv.poison.has a && dv.sealOf a == some 0 && !dv.portGone (stackOf a)

/-- Whether the save images can be read back (R341). -/
def Device.slotsGood (dv : Device) (n : Node) (sl : Nat × Nat) : Bool := dv.linesGood (dv.slotLines n sl)

/-- SAVEERR: the whole operation is aborted, the node is poisoned and fails (R341). -/
def State.saveErr (s : State) (n : Node) : State :=
  let g := s.dev.graphOf n
  let s := s.withDev fun dv =>
    dv.say g.ctx 6 .saveerr true (regionOf ⟨n.place.rowlo, n.place.collo⟩) (nodeidOf g n).toNat 0 none
  s.failNode n.id .saveerr

/-- SAVE_PHASE: every region has reported stopped; the tiles' images are written, and what is on its way to the tiles reaches their
saved state (R96, R338 to R340). -/
def State.savePhase (s : State) (id : Nat) : State :=
  match s.dev.node? id with
  | none => s
  | some n =>
    if n.st != .stopping || !n.regions.all n.stoppedRegions.elem || s.dev.moving n then s
    else
      match n.slots.bind fun sl => s.dev.writeSlots n sl with
      | none => s.saveErr n
      | some dv =>
        let s := State.inject { s with dev := dv }
        let save (t : Tile) : Tile := if n.covers t.coord && t.sch.status != .absent then
            (t.endStint (s.dev.frameOf t.coord) 1).unparkAll else t
        let s := { s with
          core := save s.core, others := s.others.map save
          dev := n.coords.foldl (fun (dv : Device) c => dv.forget c) s.dev }
        let im := (s.core :: s.others).filter fun t => n.covers t.coord && t.sch.status != .absent
        s.withDev fun dv =>
          { dv.withNode id fun n =>
              { n with
                st := .saving, image := im, home := n.place, homeShadow := n.shadow
                kept := dv.net.filter fun f => n.isFor f.msg } with
            net := dv.net.filter fun f => !n.isFor f.msg }

/-- SAVE_PHASE (R338). -/
def execSavePhase (node : Nat) (s : State) : Host.Outcome State Fault Refusal := .next (s.savePhase node)

/-- PREEMPT_COMPLETE: every region has reported saved; the placement is free, and the node is ready again unless a PREEMPT
packet holds it (R338, R353). -/
def State.preemptCompletes (s : State) (id : Nat) : State :=
  match s.dev.node? id with
  | none => s
  | some n =>
    if n.st != .saving then s
    else
      let s := s.removeTiles fun t => n.covers t.coord
      (s.withDev fun dv => dv.withNode id fun n =>
        { n with st := if n.held then .saved else .ready, agedAt := dv.now }).settleQueues

/-- PREEMPT_COMPLETE (R338). -/
def execPreemptComplete (node : Nat) (s : State) : Host.Outcome State Fault Refusal := .next (s.preemptCompletes node)

/-- The coordinate in a placement of the same shape that a coordinate of the placement saved comes to (R18, R96). -/
def Node.shift (old new : Node) (c : Coord) : Coord :=
  let by_ (a b : Rect) : Coord := ⟨c.row - a.rowlo + b.rowlo, c.col - a.collo + b.collo⟩
  if old.place.has c then by_ old.place new.place
  else match old.shadow, new.shadow with
    | some a, some b => by_ a b
    | _, _ => c

/-- The first bundle after a restore issues once every tagged core producer that had not finished has completed, and every SPILL or
FILL whose element is not parked; a division starts anew (R155, R328). -/
def Tile.readyAfter (t : Tile) : Tile :=
  let fl := t.sch.flights.map fun (f : Flight) => { f with due := if f.kind = 4 then t.sch.cycle + 18 else f.due }
  let last := (fl.filter fun f => f.kind != 0 && f.tag != 0#3).foldl (fun m f => Nat.max m f.due) t.sch.ready
  { t with
    sch := { t.sch with flights := fl, ready := last }
    lists := t.lists.map fun (l : ListOp) =>
      { l with hold := l.hold || !(t.accs.any fun a => a.seq == l.seq && (match a.stage with
          | .parked _ _ _ _ => true
          | _ => false)) } }

/-- A saved tile at its place in a placement of the same shape (R18, R96, R341): routes are relative, the coordinate registers
are rewritten, the partner of a pair and what the tile's router holds move along, and what is in the tile's own trees and channels
stays. -/
def Tile.restoreAt (t : Tile) (old new : Node) (code : List Byte) : Tile :=
  let move := old.shift new
  let c := move t.coord
  let t := t.readyAfter
  { t with
    coord := c
    ctl := t.ctl.place new c
    sch := { t.sch with status := if t.sch.status = .stopped then .loaded else t.sch.status }
    pad := { t.pad with code := Memory.put [] 0 code, codeBad := [], codeSoft := [], buf := [] }
    out := t.out.map (Msg.move move)
    pair := t.pair.map fun (p : Pair) =>
      { p with partner := move p.partner, held := p.held.map fun (x : PairItem) => { x with item := x.item.map (Msg.move move) } }
    acks := [] }

/-- The owner fields of the exclusive guards a moved tile holds name its new coordinate, in one evaluation each (R120). -/
def State.moveHolds (old : Coord) (t : Tile) (s : State) : State :=
  if old = t.coord || t.isShadow then s
  else t.holds.foldl (fun (s : State) h =>
    match h.pa with
    | some x =>
      if h.shared then s
      else
        let s := s.withDev fun dv => dv.waited x
        let r := s.dev.readGuard t.ctx x
        let s := s.withDev fun dv => dv.metGuard t.ctx x
        match r with
        | .error _ => s
        | .ok o =>
          let w : Who := ⟨t.ctx, t.ctl.nodeid.toNat, old⟩
          if guardOwned o w then
            s.withDev fun dv => dv.writeGuard t.ctx x (guardOwner o { w with coord := t.coord })
          else s
    | none => s) s

/-- RESTORE: the code images are reloaded, each tile's state is written at its place, with what was on its way to it and what waited
from peer wafers, owner fields are rewritten, and the start follows; a failing read aborts it all (R96, R339, R341). -/
def State.restoreNode (s : State) (id : Nat) : State :=
  match s.dev.node? id with
  | none => s
  | some n =>
    match n.slots with
    | none => s
    | some sl =>
      if n.st != .claimed || n.image.isEmpty || !(s.dev.occupants n).isEmpty || s.leftover n then s
      else if !s.dev.placesOk n then s.withDev fun dv => dv.withNode id fun n => { n with st := .ready, agedAt := dv.now }
      else if !s.dev.slotsGood n sl then s.saveErr n
      else
        let r := s.dev.readImage (s.dev.graphOf n).ctx (n.field 704 64) (4 * n.field 383 13)
        let s := { s with dev := r.2 }
        match r.1 with
        | .error _ => s.saveErr n
        | .ok code =>
          let old : Node := { n with place := n.home, shadow := n.homeShadow }
          let s := n.image.foldl (fun (s : State) t =>
            let t' := t.restoreAt old n code
            (State.moveHolds t.coord t' s).placeTile t') s
          let back (f : Flit) : Flit :=
            let m := f.msg.move (old.shift n)
            flitAt ((m.dest.map (·.coord)).getD f.at_) m
          let mine (f : Flit) : Bool := match f.msg.head with
            | some h => h.src.remote.isSome && n.image.any fun t => t.coord == f.at_ && t.fromSender (t.inCh h.ich) h
            | none => false
          s.withDev fun dv =>
            { dv.withNode id fun n => { n with st := .loading, image := [], kept := [], slots := none } with
              net := dv.net.map (fun f => if mine f then back f else f) ++ n.kept.map back }

/-- The steps that a tile told to stop waits for (R337, R338). -/
def State.stopSteps (s : State) (c : Coord) : List Due :=
  match s.tileAt c with
  | none => []
  | some t =>
    if !s.dev.stopTold c then []
    else if t.sch.status = .running ∨ t.sch.status = .loaded then [.preemptStop c]
    else (allUnits.filter fun u => !t.acks.elem u && t.unitStopped s.dev u).map (Due.stopAck c)

/-- The steps that a node waits for. -/
def State.nodeSteps (s : State) (n : Node) : List Due :=
  match n.st with
  | .claimed =>
    if !(s.dev.occupants n).isEmpty || s.leftover n then [] else if n.image.isEmpty then [.launchNode n.id] else [.restore n.id]
  | .loading => [.startMulticast n.id]
  | .running =>
    (((s.core :: s.others).filter fun t => n.covers t.coord && t.sch.status == .loaded).map fun t => Due.tileStart t.coord)
      ++ (if s.nodeFinished n then [.nodeComplete n.id] else []) ++ n.coords.flatMap s.stopSteps
  | .stopping => n.coords.flatMap s.stopSteps ++ (if n.regions.all n.stoppedRegions.elem then [.savePhase n.id] else [])
  | .saving => [.preemptComplete n.id]
  | .failed => if (s.leftTiles n).isEmpty && n.image.isEmpty then [] else [.hearthGuardRelease n.id]
  | _ => []

/-- RESTORE (R341). -/
def execRestore (node : Nat) (s : State) : Host.Outcome State Fault Refusal := .next (s.restoreNode node)

end Sys2Proof.Machine
end

