-- ==== Sys2Proof/Machine/Migrate.lean ====
section
/-! DEFINITION. Quarantine and shift migration (R20 to R25, R378). -/

namespace Sys2Proof.Machine

/-- The free spares of a row: positions that test good and carry nothing (R9). -/
def RowRec.spares (r : RowRec) : List Nat := (upTo 128).filter fun p => !bitOf r.posmap p && !bitOf r.qmask p

/-- The distance of two positions. -/
def apart (a b : Nat) : Nat := a - b + (b - a)

/-- The nearest free spare of a failing position, the eastern one of two as near (R20). -/
def nearestSpare (f : Nat) : List Nat → Option Nat
  | [] => none
  | p :: l => match nearestSpare f l with
    | some q => if apart f p < apart f q || (apart f p == apart f q && decide (q < p)) then some p else some q
    | none => some p

/-- Sets or clears a bit of a mask. -/
def putBit (m i : Nat) (v : Bool) : Nat := if bitOf m i = v then m else if v then m + 2 ^ i else m - 2 ^ i

/-- The coordinates that move: that of the failing position and those carried strictly between it and the spare (R21). -/
def Device.movedTiles (dv : Device) (r prow f sp : Nat) : List Coord :=
  ((upTo 128).filter fun p => p == f || (decide (Nat.min f sp < p) && decide (p < Nat.max f sp))).filterMap fun p =>
    dv.coordAt ⟨r, prow, p⟩

/-- The migration of a failing position. -/
def Device.migrationAt (dv : Device) (p : Pos) : Option Migration :=
  dv.migrations.find? fun m => m.region == p.region && m.prow == p.prow && m.fail == p.pos

/-- Whether a migration is the next of its row segment: they are handled one at a time, in the order of the quarantines (R20). -/
def Device.firstOf (dv : Device) (m : Migration) : Bool :=
  ((dv.migrations.find? fun x => x.region == m.region && x.prow == m.prow).map fun x => x.k == m.k).getD false

/-- QUARANT: the quarantine is counted and reported to the context of the tile's node (R378). -/
def Device.quarantine (dv : Device) (p : Pos) (c : Coord) : Device :=
  let dv := dv.withRegion p.region fun r => { r with quar := (r.quar + 1) % 2 ^ 16 }
  let dv := match dv.nodeAt c with
    | some n => dv.sayAt (dv.graphOf n).ctx 7 .quarant false c (nodeidOf (dv.graphOf n) n).toNat
    | none => dv
  { dv with
    migrations := dv.migrations ++ [⟨dv.nextId, p.region, p.prow, p.pos, 0, [], false, 0, [], false⟩]
    nextId := dv.nextId + 1 }

/-- ROUTEJOG: without a free spare the coordinate becomes a hole; the node is pre-empted if it can be, else poisoned (R23). -/
def State.routeJog (s : State) (m : Migration) (c : Coord) : State :=
  let s := s.withDev fun dv =>
    { dv.withRegion m.region fun r => { r with holes := if r.holes.elem c then r.holes else r.holes ++ [c] } with
      migrations := dv.migrations.filter (·.k != m.k) }
  match s.dev.nodeAt c with
  | none => s
  | some n =>
    let g := s.dev.graphOf n
    let s := s.withDev fun dv => dv.sayAt g.ctx 5 .routejog (!n.preempt) c (nodeidOf g n).toNat
    if !n.preempt then s.failNode n.id .routejog
    else if n.st = .running ∨ n.st = .loading then s.beginStop n.id false else s

/-- The nodes whose tiles a migration stops (R21). -/
def Device.movedNodes (dv : Device) (moved : List Coord) : List Nat :=
  (dv.nodes.filter fun n => (n.st == .running || n.st == .stopping) && moved.any n.covers).map fun (n : Node) => n.id

/-- A migration starts its Stop step (R21). A test of the spare that it takes ends, as with a claim (R376; entry 79). -/
def State.startMigration (s : State) (m : Migration) (c : Coord) : State :=
  match nearestSpare m.fail ((s.dev.region m.region).row m.prow).spares with
  | none => s.routeJog m c
  | some sp =>
    let moved := s.dev.movedTiles m.region m.prow m.fail sp
    s.withDev fun dv =>
      let dv := dv.withRegion m.region fun r => { r with passes := r.passes.filter (· != ⟨m.region, m.prow, sp⟩) }
      { dv with migrations := dv.migrations.map fun (x : Migration) =>
      if x.k = m.k then
        { x with spare := sp, moved := moved, started := true, since := dv.now, nodes := dv.movedNodes moved } else x }

/-- SHIFT_MIGRATION: the tile at a coordinate is quarantined, and its migration starts unless another of its row segment is
under way; one that has waited starts now (R20 to R23, R25). -/
def State.shiftMigration (s : State) (c : Coord) : State :=
  match s.dev.posOf c with
  | none => s
  | some p =>
    if (s.dev.region p.region).holes.elem c then s
    else
      let s := if (s.dev.migrationAt p).isSome then s else s.withDev fun dv => dv.quarantine p c
      match s.dev.migrationAt p with
      | none => s
      | some m => if m.started || !s.dev.firstOf m then s else s.startMigration m c

/-- SHIFT_MIGRATION (R21). -/
def execShiftMigration (c : Coord) (s : State) : Host.Outcome State Fault Refusal := .next (s.shiftMigration c)

/-- A tile takes its new position: the stint at the old one ends as migrated away, one at the new begins (R21, R379). -/
def State.movePos (s : State) (c : Coord) : State :=
  match s.tileAt c, s.dev.posOf c with
  | some t, some p =>
    if p = t.pos then s
    else
      let t1 := t.endStint (s.dev.frameOf c) 2
      let s := s.withDev fun dv => dv.leave t1
      s.setTile (((t.settle s.dev p)).beginStint (s.dev.frameOf c))
  | _, _ => s

/-- Step 3 of R21: the map is changed, its record rewritten, and every moved tile is at its new position, the one next to the spare
first: each comes to a place that has just been left. A link that is down stays down (entry 76). -/
def State.remap (s : State) (m : Migration) : State :=
  let s := s.withDev fun dv =>
    let rr := (dv.region m.region).row m.prow
    dv.writeRow m.region m.prow { rr with
      qmask := putBit rr.qmask m.fail true
      posmap := putBit (putBit rr.posmap m.fail false) m.spare true }
  let s := (if m.fail < m.spare then m.moved.reverse else m.moved).foldl State.movePos s
  s.withDev fun dv => { dv with migrations := dv.migrations.filter (·.k != m.k) }

/-- MIGFAIL: the map change completes, the nodes of the affected tiles are poisoned, and no moved tile resumes; a node that has
failed on its own is named too (R24). -/
def State.migFail (s : State) (m : Migration) : State :=
  let s := s.remap m
  (m.nodes.filterMap s.dev.node?).foldl (fun (s : State) n =>
    let g := s.dev.graphOf n
    if n.st = .complete then s
    else (s.withDev fun dv => dv.say g.ctx 5 .migfail true m.region (nodeidOf g n).toNat 0 none).failNode n.id .migfail) s

/-- Whether every moved tile of the nodes it stops has stopped, or has failed (R21, R24). -/
def State.movedStopped (s : State) (m : Migration) : Bool :=
  m.moved.all fun c => match s.dev.nodeAt c, s.tileAt c with
    | some n, some t => !m.nodes.elem n.id || t.sch.status == .halted || decide (8 ≤ t.acks.length)
    | _, _ => true

/-- Whether a moved tile has failed: it has halted, or halted its node since the migration started (R24). -/
def State.movedFailed (s : State) (m : Migration) : Bool :=
  m.failed || m.moved.any fun c => match s.dev.nodeAt c, s.tileAt c with
    | some n, some t => m.nodes.elem n.id && t.sch.status == .halted
    | _, _ => false

/-- The save and the restore of a node's moved tiles (R21): their images go into the slots of their ranks in the node's save area,
its own or one taken for the while, and come back. Whether that meets no error: one in the slots is a free choice, and so is all of
it for a pool without room for the area (R24; entry 71). -/
def Device.saveMoved (m : Migration) (r : Bool × Device) (id : Nat) : Bool × Device :=
  match r.2.node? id with
  | none => r
  | some n =>
    let q := match n.slots with
      | some sl => (some sl, r.2)
      | none => r.2.takeSlots n
    let ok := !Config.freeBit q.2.free
    let dv := q.2.draw
    match q.1 with
    | none => (r.1 && ok, dv)
    | some sl => match dv.writeLines (((upTo n.coords.length).zip n.coords).flatMap fun x =>
        if m.moved.elem x.2 then dv.slotAt n sl x.1 else []) with
      | some dv => (r.1 && ok, dv)
      | none => (false, dv)

/-- After a migration the moved tiles of a running node resume; those of a node being pre-empted stay as they are, but for their
channels, which stop anew (R21, R25). -/
def State.resumeMoved (m : Migration) (s : State) (c : Coord) : State :=
  match s.dev.nodeAt c with
  | some n =>
    if !m.nodes.elem n.id then s
    else if n.st = .running then s.onTile c fun t =>
      let t := if t.sch.status = .stopped then t.readyAfter else t
      { t with acks := [], sch := { t.sch with status := if t.sch.status = .stopped then .running else t.sch.status } }
    else s.onTile c fun t => { t with acks := t.acks.filter (· != .channels) }
  | none => s

/-- A pre-emption that waited for a migration goes on: it begins, or its regions report anew (R25). -/
def State.resumeStop (s : State) (id : Nat) : State :=
  match s.dev.node? id with
  | none => s
  | some n =>
    if n.st = .stopping then
      let l := n.regions.filter (s.regionStopped n)
      s.withDev fun dv => dv.withNode id fun n => { n with stoppedRegions := l }
    else if n.st = .running && n.stopDue && !s.dev.moving n then
      s.withDev fun dv => dv.withNode id fun n => { n with st := .stopping, stopDue := false, stoppedRegions := [] }
    else s

/-- MIGRATION_REMAP: once the moved tiles have stopped, they are saved, the map is changed, they are restored by coordinate and
resume (R21, R24). -/
def State.migrationRemap (s : State) (k : Nat) : State :=
  match s.dev.migrations.find? (·.k == k) with
  | none => s
  | some m =>
    if !m.started || !s.movedStopped m then s
    else
      let r := m.nodes.foldl (Device.saveMoved m) (true, s.dev)
      let s := { s with dev := r.2 }
      if s.movedFailed m || !r.1 then s.migFail m
      else m.nodes.foldl State.resumeStop (m.moved.foldl (State.resumeMoved m) (s.remap m))

/-- MIGRATION_REMAP (R21). -/
def execMigrationRemap (k : Nat) (s : State) : Host.Outcome State Fault Refusal := .next (s.migrationRemap k)

/-- MIGRATION_TIMEOUT: 500 µs have passed since the Stop step began (R22, R24). -/
def State.migrationTimeout (s : State) (k : Nat) : State :=
  match s.dev.migrations.find? (·.k == k) with
  | some m => if m.started && decide (m.since + 500 ≤ s.dev.now) then s.migFail m else s
  | none => s

/-- MIGRATION_TIMEOUT (R22). -/
def execMigrationTimeout (k : Nat) (s : State) : Host.Outcome State Fault Refusal := .next (s.migrationTimeout k)

/-- The steps that migrations wait for. -/
def State.migrationSteps (s : State) : List Due :=
  s.dev.migrations.flatMap fun m =>
    if m.started then
      (if s.movedStopped m then [Due.migrationRemap m.k] else [])
        ++ (if m.since + 500 ≤ s.dev.now then [.migrationTimeout m.k] else [])
    else match s.dev.coordAt ⟨m.region, m.prow, m.fail⟩ with
      | some c => if s.dev.firstOf m then [.shiftMigration c] else []
      | none => []

end Sys2Proof.Machine
end

