-- ==== Sys2Proof/Machine/Graphs.lean ====
section
/-! DEFINITION. Graphs taken from LAUNCH packets, and the packets that name nodes and tiles: LAUNCH, PREEMPT, RESUME, LICHEN
(R129, R353, R354, R376). -/

namespace Sys2Proof.Machine

/-- The SUCC arrays of the node records of a graph (Table 06-1). -/
def Device.readSuccs (ctx : Nat) : List Nat → Device → Except Cause (List (List Nat)) × Device
  | [], dv => (.ok [], dv)
  | b :: l, dv =>
    let n := bitsOf b 436 12
    let r := dv.readImage ctx (bitsOf b 448 64) (2 * n)
    match r.1 with
    | .error c => (.error c, r.2)
    | .ok bytes =>
      let q := Device.readSuccs ctx l r.2
      (match q.1 with
        | .ok ls => .ok (((upTo n).map fun i => bytesVal ((bytes.drop (2 * i)).take 2)) :: ls)
        | .error c => .error c, q.2)

/-- Whether a graph has a cycle: taking nodes without predecessors away, `fuel` times, leaves some. -/
def hasCycle (succs : List (List Nat)) : Nat → List Nat → Bool
  | 0, rest => !rest.isEmpty
  | fuel + 1, rest =>
    let named := rest.flatMap fun i => (succs[i]?).getD []
    let next := rest.filter named.elem
    if next.length = rest.length then !rest.isEmpty else hasCycle succs fuel next

/-- Whether a graph's arrays are refused: an index beyond the nodes, an NPRED that differs, a cycle (R354). -/
def graphBad (recs : List Nat) (succs : List (List Nat)) : Bool :=
  let n := recs.length
  let all := succs.flatMap id
  all.any (fun i => decide (n ≤ i)) || ((upTo n).zip recs).any (fun r => bitsOf r.2 424 12 != (all.filter (· == r.1)).length)
    || hasCycle succs n (upTo n)

/-- A node as its graph is taken (R129, R130). -/
def newNode (id graph index bits va : Nat) (succ : List Nat) : Node :=
  { id := id, graph := graph, index := index, bits := bits, va := va, succ := succ, left := bitsOf bits 424 12, st := .waiting
    place := recPlace bits, shadow := recShadow bits, aged := 0, lent := 0, agedAt := 0, held := false, stopDue := false
    stoppedRegions := [], image := [], kept := [], slots := none, home := recPlace bits, homeShadow := recShadow bits, cause := 0 }

/-- Reads and checks a graph's node-record array of `n` nodes (R354). -/
def Device.readGraph (dv : Device) (ctx va n : Nat) : Except Cause (List Nat × List (List Nat)) × Device :=
  let r := dv.hRead ctx va (128 * n)
  match r.1 with
  | .error c => (.error c, r.2)
  | .ok bytes =>
    let recs := (chunks 128 n bytes).map bytesVal
    let q := Device.readSuccs ctx recs r.2
    match q.1 with
    | .error c => (.error c, q.2)
    | .ok succs => (if graphBad recs succs then .error .illfld else .ok (recs, succs), q.2)

/-- Takes a graph whose records stand at `va`: its nodes wait, those with NPRED = 0 become ready (Table 17-5). -/
def Device.takeGraph (dv : Device) (q ctx gseq va : Nat) (statva : Option Nat) (ladder : Option Word)
    (g : List Nat × List (List Nat)) : Nat × Device :=
  let gid := dv.nextId
  let graph : Graph := ⟨gid, q, ctx, gseq, statva, 0, 0, 0, 0xFFFF, false, ladder⟩
  let nodes := ((upTo g.1.length).zip (g.1.zip g.2)).map fun x => newNode (gid + 1 + x.1) gid x.1 x.2.1 (va + 128 * x.1) x.2.2
  let dv := { dv with graphs := dv.graphs ++ [graph], nextId := gid + 1 + nodes.length }
  (gid, { dv with nodes := dv.nodes ++ nodes.map fun (n : Node) => if n.left = 0 then dv.readyNode n else n })

/-- A graph that is refused ends at once, with its status and a record, FATAL in it: DESIGN CHOICE (R354; entry 83); the fault of a faulting read does not halt the
queue, one of the status line does. -/
def Device.refuseGraph (dv : Device) (q ctx gseq tag : Nat) (statva : Option Nat) (c : Cause) : Device :=
  let g : Graph := ⟨0, q, ctx, gseq, statva, 0, 0, c.code, 0xFFFF, true, none⟩
  let r := dv.writeStatus g 2
  let dv := r.2.say ctx 4 c true (q / 64) 0 0 none
  match r.1 with
  | some e => dv.haltQueue q e (some tag) false
  | none => dv

/-- LAUNCH (R354, Table 17-5). -/
def State.launchPacket (s : State) (q : Nat) (p : Packet) : State :=
  let x := s.dev.queue q
  let ctx := x.ctx
  let gseq := bitsOf p.bits 140 20
  let va := bitsOf p.bits 160 64
  let tag := pktTag p.bits
  if !s.dev.ctxValid ctx then
    ({ s with dev := (s.dev.completePacket q p.uid).haltQueue q .illfld (some tag) false }).afterStart q
  else
    let r := s.dev.readGraph ctx (bitsOf p.bits 64 64) (bitsOf p.bits 128 12 + 1)
    match r.1 with
    | .error c => ({ s with dev := (r.2.completePacket q p.uid).refuseGraph q ctx gseq tag (some va) c }).afterStart q
    | .ok g =>
      let w := r.2.writeStatus ⟨0, q, ctx, gseq, some va, 0, 0, 0, 0xFFFF, false, none⟩ 0
      match w.1 with
      | some c => ({ s with dev := (w.2.completePacket q p.uid).haltQueue q c (some tag) false }).afterStart q
      | none =>
        let k := w.2.takeGraph q ctx gseq (bitsOf p.bits 64 64) (some va) none g
        ({ s with dev := k.2.startPacket q p.uid [k.1] }).afterStart q

/-- LAUNCH (R354). -/
def execLaunch (q : Nat) (s : State) : Host.Outcome State Fault Refusal :=
  .next (match s.dev.begun q 1 with
    | some p => s.launchPacket q p
    | none => s)

/-- Whether a node meets a packet's rectangle. -/
def Node.inRect (n : Node) (r : Option Rect) : Bool :=
  match r with
  | some r => n.rects.any r.meets
  | none => true

/-- PREEMPT: every running node of the context that meets the rectangle is pre-empted, and held until a RESUME; one whose launch
has begun is saved at its entry bundle (R140, R353, R360). -/
def State.preemptNodes (s : State) (q : Nat) (p : Packet) : State :=
  let ctx := bitsOf p.bits 128 8
  let ns := s.dev.nodes.filter fun (n : Node) =>
    (n.st == .running || n.st == .loading) && (s.dev.graphOf n).ctx == ctx && n.inRect (pktRect p.bits)
  let s := ns.foldl (fun (s : State) n => s.beginStop n.id true) s
  ({ s with dev := s.dev.startPacket q p.uid (ns.map fun (n : Node) => n.id) }).afterStart q

/-- PREEMPT (R353). -/
def execPreemptPacket (q : Nat) (s : State) : Host.Outcome State Fault Refusal :=
  .next (match s.dev.begun q 7 with
    | some p => s.preemptNodes q p
    | none => s)

/-- A node that became ready while its graph was pre-empted is placed from now on, when no node of the graph is held any more
(R140). -/
def Device.freeReady (dv : Device) : Device :=
  { dv with nodes := dv.nodes.map fun (n : Node) =>
      if n.held && n.st == .ready && !dv.graphHeld n.graph then { n with held := false } else n }

/-- RESUME: the held nodes that share a tile with its rectangle become ready, or all of them (R353). -/
def execResume (q : Nat) (s : State) : Host.Outcome State Fault Refusal :=
  .next (match s.dev.begun q 8 with
    | some p =>
      let ctx := bitsOf p.bits 128 8
      let dv := { s.dev with nodes := s.dev.nodes.map fun (n : Node) =>
        if n.held && (s.dev.graphOf n).ctx == ctx && n.inRect (pktRect p.bits) then
          { n with held := false, st := if n.st == NodeSt.saved then NodeSt.ready else n.st
                   agedAt := if n.st == NodeSt.saved then s.dev.now else n.agedAt }
        else n }
      ({ s with dev := dv.freeReady.completePacket q p.uid }).afterStart q
    | none => s)

/-- The whole grid. -/
def wholeGrid : Rect := ⟨0, 999, 0, 999⟩

/-- LICHEN: one pass is asked for on each physical tile that carries a logical tile of the rectangle (R376). -/
def State.lichenPacket (s : State) (q : Nat) (p : Packet) : State :=
  let ps := (((pktRect p.bits).getD wholeGrid).coords.filter fun c => coordOk c && !s.dev.absent c).filterMap s.dev.posOf
  let dv := ps.foldl (fun (dv : Device) x => dv.withRegion x.region fun r => { r with wanted := r.wanted ++ [(x, p.uid)] }) s.dev
  ({ s with dev := dv.startPacket q p.uid [] }).afterStart q

/-- LICHEN (R353, R376). -/
def execLichen (q : Nat) (s : State) : Host.Outcome State Fault Refusal :=
  .next (match s.dev.begun q 9 with
    | some p => s.lichenPacket q p
    | none => s)

end Sys2Proof.Machine
end

