-- ==== Sys2Proof/Machine/Lichen.lean ====
section
/-! DEFINITION. Lichen tests and exposure reports (R376 to R381). A physical tile is named by its place on the wafer: row 128
times the region row plus its local row, column likewise. -/

namespace Sys2Proof.Machine

/-- The position of a physical tile by its place on the wafer (R8). -/
def physPos (c : Coord) : Pos := ⟨8 * (c.row / 128) + c.col / 128, c.row % 128, c.col % 128⟩

/-- The place on the wafer of a position. -/
def physCoord (p : Pos) : Coord := ⟨128 * (p.region / 8) + p.prow, 128 * (p.region % 8) + p.pos⟩

/-- Whether a node holds or claims the logical tile at a coordinate, or a failed one has left its tile there. -/
def State.taken (s : State) (c : Coord) : Bool :=
  s.dev.nodes.any (fun n => (n.st == .claimed || n.st == .loading || n.st == .running || n.st == .stopping || n.st == .saving)
    && n.covers c) || (s.core :: s.others).any fun t => t.coord == c && t.sch.status == .halted

/-- Whether a physical tile is quarantined: its bit is set, its migration waits or runs, or its coordinate is a hole (R20, R23,
R376). -/
def Device.quarantinedAt (dv : Device) (p : Pos) : Bool :=
  bitOf ((dv.region p.region).row p.prow).qmask p.pos || (dv.migrationAt p).isSome
    || (match dv.coordAt p with
      | some c => (dv.region p.region).holes.elem c
      | none => false)

/-- Whether a physical tile is the spare that a migration under way has taken (R21; entry 79). -/
def Device.chosenSpare (dv : Device) (p : Pos) : Bool :=
  dv.migrations.any fun m => m.started && m.region == p.region && m.prow == p.prow && m.spare == p.pos

/-- Whether a physical tile is idle: it holds no node, is not claimed and not quarantined; retired rows are not tested
(R376). -/
def State.idleAt (s : State) (p : Pos) : Bool :=
  let r := (s.dev.region p.region).row p.prow
  decide (p.region < 64) && (s.dev.readyOf p.region).ready && (r.state == 1 || r.state == 2) && !s.dev.quarantinedAt p && !s.dev.chosenSpare p
    && (match s.dev.coordAt p with
      | some c => !s.taken c
      | none => true)

/-- LICHEN_PASS_START: a pass is placed on an idle tile; it is the oldest one that a packet has asked for, if any (R376). -/
def State.passStart (s : State) (p : Pos) : State :=
  if !s.idleAt p || (s.dev.region p.region).passes.elem p then s
  else
    (s.withDev fun dv => dv.withRegion p.region fun r =>
      { r with passes := r.passes ++ [p], wanted := r.wanted.eraseP (·.1 == p) }).settleQueues

/-- LICHEN_PASS_START (R376). -/
def execLichenPassStart (c : Coord) (s : State) : Host.Outcome State Fault Refusal := .next (s.passStart (physPos c))

/-- A stint as its entry in a report (Table 18-5). -/
def Stint.bytes (x : Stint) : List Byte :=
  let pair (a : Nat × Nat) : List Byte := valBytes 4 a.1 ++ valBytes 4 a.2
  let fin := x.fin.getD (0, 0)
  valBytes 1 x.ctx ++ valBytes 1 fin.2 ++ valBytes 10 0 ++ valBytes 4 x.nodeid ++ valBytes 8 x.start ++ valBytes 8 fin.1
    ++ x.ch.flatMap pair ++ x.copy.flatMap pair ++ valBytes 4 x.oports ++ valBytes 28 0

/-- The header of an exposure report (Table 18-4). -/
def reportHead (h : Health) (region units frame : Nat) (c : Coord) : List Byte :=
  valBytes 64 (atBits 0 16 h.stints.length + atBits 32 8 units + atBits 40 1 (b2n h.dropped) + atBits 44 10 c.row
    + atBits 54 10 c.col + atBits 64 64 h.lastPass + atBits 128 64 frame + atBits 192 8 region)

/-- An exposure report of a tile that failed (R381); none for a tile without stints. -/
def exposureOf (h : Health) (region units frame : Nat) (c : Coord) : List Exposure :=
  if h.stints.isEmpty then []
  else [⟨region, reportHead h region units frame c ++ h.stints.flatMap Stint.bytes, (h.stints.map fun x => x.ctx).dedup⟩]

/-- A pass that finds every unit good (R377). -/
def Health.passed (h : Health) (frame : Nat) : Health :=
  { h with stints := [], dropped := false, lastPass := frame, suspect := false, reported := false }

/-- LICHEN_PASS_END: what the pass found, a failing matrix row or failing units, is a free choice (R377, R378;
entry 7). A failure of a tile already quarantined does nothing further (R382); a free spare, or a tile of a spare row, only has its
QMASK bit set (R378). -/
def State.passEnd (s : State) (p : Pos) : State :=
  let r := s.dev.region p.region
  if !r.passes.elem p then s
  else
    let row := Config.freeBit s.dev.free
    let found := (s.dev.draw).freeBits 8
    let h := r.healthAt p
    let units := if row && h.spareUsed && !bitOf found 1 then found + 2 else found
    let h := if row then { h with rowsFailed := h.spareUsed, spareUsed := true } else h
    let s := s.withDev fun dv =>
      { dv with free := dv.free + 2 }.withRegion p.region fun r => { r with passes := r.passes.filter (· != p) }
    if units = 0 then
      s.withDev fun dv => dv.withRegion p.region fun r => r.setHealth p (h.passed r.frame)
    else if s.dev.quarantinedAt p then s
    else
      match s.dev.coordAt p with
      | some c =>
        (s.withDev fun dv =>
          { dv.withRegion p.region fun r => r.setHealth p h with
            exposures := dv.exposures ++ exposureOf h p.region units r.frame c }).shiftMigration c
      | none =>
        s.withDev fun dv =>
          let rr := (dv.region p.region).row p.prow
          let dv := dv.withRegion p.region fun r => r.setHealth p h
          dv.writeRow p.region p.prow { rr with qmask := putBit rr.qmask p.pos true }

/-- LICHEN_PASS_END (R377). -/
def execLichenPassEnd (c : Coord) (s : State) : Host.Outcome State Fault Refusal := .next (s.passEnd (physPos c))

/-- The address of a report slot of a region (R380). -/
def reportSlot (r i : Nat) : Nat := windowPa 3 r + 4096 * i

/-- The lowest free report slot: the low 64 bits of its header are zero (R380). -/
def Device.freeReport (dv : Device) (r : Nat) : Option Nat := (upTo 64).find? fun i => dv.phys (reportSlot r i) 8 == 0

/-- EXPOSURE_REPORT_WRITE: the oldest report of a region goes into the lowest free slot, and LICHENFAIL to every context it
names (R381). -/
def Device.writeReport (dv : Device) (r : Nat) : Device :=
  match dv.exposures.find? (·.region == r), dv.freeReport r with
  | some e, some i =>
    let a := reportSlot r i
    let dv := { dv with exposures := dv.exposures.erase e }.putPhys a e.bytes.length (bytesVal e.bytes)
    e.ctxs.foldl (fun (dv : Device) c => dv.report (recordOf c 7 .lichenfail false r 0 0 (BitVec.ofNat 64 a))) dv
  | _, _ => dv

/-- EXPOSURE_REPORT_WRITE (R381). -/
def execExposureReportWrite (q : Nat) (s : State) : Host.Outcome State Fault Refusal :=
  .next (s.withDev fun dv => dv.writeReport q)

/-- Every physical position of a region, in ascending order. -/
def regionPositions (r : Nat) : List Pos := (upTo 16384).map fun i => ⟨r, i / 128, i % 128⟩

/-- The tile that a region's rotation comes to next: a suspect one, else the next idle one in ascending position; not one that a
packet's pass is about to test (R376). -/
def State.rotation (s : State) (r : Nat) : Option Pos :=
  let x := s.dev.region r
  let free (p : Pos) : Bool := s.idleAt p && !x.passes.elem p && !x.wanted.any (·.1 == p)
  let l := regionPositions r
  (l.find? fun p => (x.healthAt p).suspect && free p).or ((l.drop x.rot ++ l.take x.rot).find? free)

/-- What Lichen does in a frame of a region: passes asked for start as their tiles become idle; whether the rotation places
one more, and whether a pass ends, are free choices (R376). A suspect tile is tested out of turn: the rotation stands where it
stood. -/
def State.lichenFrame (s : State) (r : Nat) : State :=
  let x := s.dev.region r
  let ends := (x.passes.filter fun p => Config.freeBit (s.dev.free + posKey p)).map fun p => Due.lichenPassEnd (physCoord p)
  let asked := ((x.wanted.map (·.1)).dedup.filter s.idleAt).map fun p => Due.lichenPassStart (physCoord p)
  let more := Config.freeBit (s.dev.free + 2 ^ 20)
  let s := s.withDev fun dv => { dv with free := dv.free + 2 ^ 20 + 1 }
  let s := s.push (ends ++ asked)
  if more then
    match s.rotation r with
    | some p => (s.withDev fun dv => dv.withRegion r fun x =>
        { x with rot := if (x.healthAt p).suspect then x.rot else (p.prow * 128 + p.pos + 1) % 16384 }).push
        [.lichenPassStart (physCoord p)]
    | none => s
  else s

end Sys2Proof.Machine
end

