-- ==== Sys2Proof/Machine/Sched.lean ====
section
/-! DEFINITION. The Hearth's frame (R344, R345): polls, ageing, lending, the scheduling cycle, heartbeat, adoption and
publication (R356 to R361). -/

namespace Sys2Proof.Machine

/-- EP of a node (R356). -/
def Node.ep (n : Node) : Nat := Nat.max n.aged n.lent

/-- The queue of a node. -/
def Device.nodeQueue (dv : Device) (n : Node) : Queue := dv.queue (dv.graphOf n).queue

/-- AGEING_STEP: a ready, unplaced node rises by 1 for every interval that has passed, while it stays within its queue's
ceiling (R356). -/
def Device.ageNode (dv : Device) (n : Node) : Node :=
  let x := dv.nodeQueue n
  if n.st != .ready || decide (dv.now < n.agedAt + x.age) then n
  else { n with aged := if n.aged + 1 ≤ x.ceil then n.aged + 1 else n.aged, agedAt := n.agedAt + x.age }

/-- What a stalled WAITV lends to the nodes of a queue's unended graphs: its own queue's priority (R357). -/
def Device.fenceLoans (dv : Device) : List (Nat × Nat × Nat) :=
  dv.queues.filterMap fun x => match x.packets.find? fun p => p.started && pktType p.bits == 4 with
    | some p => if bitOf p.bits 208 then some (x.q, bitsOf p.bits 196 12, x.prio) else none
    | none => none

/-- Whether a node holds its tiles: from its claim to its end or the end of its save (R358). -/
def NodeSt.holds : NodeSt → Bool
  | .claimed | .loading | .running | .stopping | .saving => true
  | _ => false

/-- The values lent to a node by the nodes as they stand (R357): across queues only, and only above its AGED value. -/
def Device.loans (dv : Device) (n : Node) : List Nat :=
  let q := (dv.graphOf n).queue
  let byPlace := if n.st.holds && !n.preempt then
      (dv.nodes.filter fun m => m.st == .ready && (dv.graphOf m).queue != q && m.meets n).map Node.ep else []
  let byFence := if (dv.graphOf n).ended then [] else
      (dv.fenceLoans.filter fun l => l.2.1 == q && l.1 != q).map fun l => l.2.2
  (byPlace ++ byFence).filter fun v => decide (n.aged < v)

/-- LENT_RECOMPUTE: `fuel` rounds to the fixed point (R357). -/
def Device.lend : Nat → Device → Device
  | 0, dv => dv
  | fuel + 1, dv =>
    Device.lend fuel { dv with nodes := dv.nodes.map fun (n : Node) => { n with lent := (dv.loans n).foldl Nat.max 0 } }

/-- Lent values begin at 0 in every frame (R357). -/
def Device.relend (dv : Device) : Device :=
  Device.lend (dv.nodes.length + 1) { dv with nodes := dv.nodes.map fun (n : Node) => { n with lent := 0 } }

/-- Whether the save pools can take the save areas of nodes, in runs that each leave room for the rest (R340, R358). -/
def Device.canSaveAll : List Node → Device → Bool
  | [], _ => true
  | m :: l, dv => dv.canSave m && (dv.slotRuns (dv.graphOf m).ctx m.coords.length).any fun a =>
      Device.canSaveAll l (dv.withNode m.id fun n => { n with slots := some (a, m.coords.length) })

/-- The nodes that a claim would pre-empt. -/
def Device.displaced (dv : Device) (n : Node) : List Node :=
  dv.nodes.filter fun m => m.id != n.id && m.meets n && m.st == .running && !m.stopDue

/-- PLACEABLE (R358). -/
def State.placeable (s : State) (n : Node) (lvl : Nat) : Bool :=
  s.dev.placesOk n && !s.leftover n && Device.canSaveAll (s.dev.displaced n) s.dev && s.dev.nodes.all fun m =>
    m.id == n.id || !m.meets n || !m.st.holds || (m.st == .running && m.preempt && decide (m.ep + 1 ≤ lvl))

/-- The occupants of a claim are pre-empted one after the other, each in a run of slots that leaves room for the rest: which one is
the Hearth's choice, free here (R340, R358). -/
def State.displace : List Node → State → State
  | [], s => s
  | m :: l, s =>
    let k := m.coords.length
    let runs := (s.dev.slotRuns (s.dev.graphOf m).ctx k).filter fun a =>
      Device.canSaveAll l (s.dev.withNode m.id fun n => { n with slots := some (a, k) })
    match runs[s.dev.freeBits 32 % runs.length]? with
    | some a => State.displace l ((s.withDev Device.draw).beginStopAt m false (a, k))
    | none => State.displace l s

/-- CLAIM: the node claims its tiles, its occupants are pre-empted, and Lichen tests on them end (R358, R376). -/
def State.claim (s : State) (n : Node) : State :=
  let ms := s.dev.displaced n
  let s := s.withDev fun dv =>
    let ps := n.coords.filterMap dv.posOf
    let dv := { dv with regions := dv.regions.map fun (r : Region) => { r with passes := r.passes.filter fun p => !ps.elem p } }
    dv.withNode n.id fun m => { m with st := .claimed, place := n.place, shadow := n.shadow }
  State.displace ms s

/-- A rectangle shifted so that a base row and column come to `row` and `col`, where it stays in the grid. -/
def Rect.shift (r : Rect) (p : Rect) (row col : Nat) : Option Rect :=
  if p.rowlo ≤ r.rowlo + row && p.collo ≤ r.collo + col && decide (r.rowhi + row < p.rowlo + 1000)
      && decide (r.colhi + col < p.collo + 1000) then
    some ⟨r.rowlo + row - p.rowlo, r.rowhi + row - p.rowlo, r.collo + col - p.collo, r.colhi + col - p.collo⟩
  else none

/-- A node on another placement of its shape: its shadow placement keeps its offset, inside the grid and apart (R141). -/
def Node.moveTo (n : Node) (row col : Nat) : Option Node :=
  let p := recPlace n.bits
  match p.shift p row col, recShadow n.bits with
  | some a, none => some { n with place := a, shadow := none }
  | some a, some b => match b.shift p row col with
    | some b => if a.meets b then none else some { n with place := a, shadow := some b }
    | none => none
  | none, _ => none

/-- The placement that a node takes at a level: its own, or for a pre-empted node with PREEMPT = 1, where that is not placeable,
perhaps another one of the same shape, by a free choice (R141). -/
def State.choosePlace (s : State) (n : Node) (lvl : Nat) : Option Node × State :=
  let own := { n with place := recPlace n.bits, shadow := recShadow n.bits }
  if s.placeable own lvl then (some own, s)
  else if n.image.isEmpty || !n.preempt || !Config.freeBit s.dev.free then (none, s.withDev Device.draw)
  else
    let dv := s.dev.draw
    let m := n.moveTo (dv.freeBits 10) (dv.draw.freeBits 10)
    let s := { s with dev := dv.draw.draw }
    (m.filter fun m => s.placeable m lvl, s)

/-- The node of a queue that a level tries: ready, unplaced, with that EP, taken earliest (R359). -/
def Device.candidate (dv : Device) (q lvl : Nat) : Option Node :=
  dv.nodes.find? fun n => n.st == .ready && !n.held && n.ep == lvl && (dv.graphOf n).queue == q

/-- A list of queue numbers in the order from a pointer upward, modulo 4,096 (R359): insertion by distance. -/
def insertFrom (ptr q : Nat) : List Nat → List Nat
  | [] => [q]
  | x :: l => if (q + 4096 - ptr) % 4096 < (x + 4096 - ptr) % 4096 then q :: x :: l else x :: insertFrom ptr q l

/-- One level of the scheduling cycle: one attempt for each queue (R359). -/
def State.tryQueues (lvl : Nat) : List Nat → State → State
  | [], s => s
  | q :: l, s =>
    match s.dev.candidate q lvl with
    | none => State.tryQueues lvl l s
    | some n =>
      let r := s.choosePlace n lvl
      match r.1 with
      | some m => State.tryQueues lvl l ((r.2.claim m).withDev fun dv => { dv with ptr := setAt dv.ptr lvl ((q + 1) % 4096) })
      | none => State.tryQueues lvl l r.2

/-- SCHEDULE_CYCLE (R359). -/
def State.scheduleCycle (s : State) : State :=
  (upTo 24).reverse.foldl (fun (s : State) lvl =>
    let qs := (s.dev.queues.map fun (x : Queue) => x.q).filter fun q => (s.dev.candidate q lvl).isSome
    State.tryQueues lvl (qs.foldl (fun acc q => insertFrom ((s.dev.ptr[lvl]?).getD 0) q acc) []) s) s

/-- Whether a Hearth runs (R361, R394). -/
def Device.runs (dv : Device) (r : Nat) : Bool := (dv.readyOf r).ready && (dv.region r).hstate == 0

/-- The Hearth whose frames count the device's time and run the cycle that all Hearths share (R344, R359): the first that
runs. -/
def Device.lead (dv : Device) : Option Nat := (upTo 64).find? dv.runs

/-- The heartbeat line of a region (Table 17-1). -/
def Device.heartbeat (dv : Device) (r : Nat) : Device :=
  let x := dv.region r
  dv.putPhys (windowPa 1 r) 64 (atBits 0 64 x.frame + atBits 64 2 x.hstate + atBits 66 6 x.adopter)

/-- The neighbours of a region in the order east, south, west, north, none off the wafer (R361). -/
def regionNeighbours (r : Nat) : List Nat :=
  (if r % 8 < 7 then [r + 1] else []) ++ (if r < 56 then [r + 8] else []) ++ (if 0 < r % 8 then [r - 1] else [])
    ++ if 8 ≤ r then [r - 8] else []

/-- The regions whose queues a Hearth serves: its own, and those that it has adopted (R361). -/
def Device.wards (dv : Device) (h : Nat) : List Nat := (upTo 64).filter fun r => (dv.region r).adopter == h

/-- Whether a Hearth leads a node's launch: it serves the region of the placement's first tile. -/
def Device.leads (dv : Device) (h : Nat) (n : Node) : Bool := (dv.region (regionOf ⟨n.place.rowlo, n.place.collo⟩)).adopter == h

/-- The checkpoint of a Hearth's frame: the tables of the queues that it serves, the state of their graphs, and how far its launches
have come (R345; entry 16). -/
def Device.checkpoint (dv : Device) (h : Nat) : Device :=
  (dv.wards h).foldl (fun (d : Device) r => d.withRegion r fun x =>
    let gs := dv.graphs.filter (·.queue / 64 == r)
    let ns := dv.nodes.filter fun n => regionOf ⟨n.place.rowlo, n.place.collo⟩ == r || gs.any (·.id == n.graph)
    { x with check :=
        { queues := dv.queues.filter (·.q / 64 == r)
          graphs := gs
          nodes := ns.map fun (n : Node) => (n.id, n.st, n.left, n.aged)
          loops := dv.loops.filter (·.queue / 64 == r) } }) dv

/-- A queue as its adopter resumes it: its table from the checkpoint, its packets free to start; what was taken after it is taken
again (R361). -/
def Device.resumeQueue (dv : Device) (x : Queue) : Queue :=
  match dv.checkOf x.q with
  | some c => let y := x.rebuilt c c.rd fun _ => true; { y with packets := y.packets.map fun (p : Packet) => { p with frame := 0 } }
  | none => x

/-- A launch step that no checkpoint holds is repeated: tiles that were loaded since, and not started, are loaded again (R361). -/
def State.relaunch (s : State) (r : Nat) : State :=
  let again := s.dev.nodes.filter fun n => n.st == .loading && regionOf ⟨n.place.rowlo, n.place.collo⟩ == r
    && ((s.dev.region r).check.nodes.any fun x => x.1 == n.id && x.2.1 == .claimed)
    && (s.core :: s.others).all fun t => !n.covers t.coord || t.sch.cycle == 0
  again.foldl (fun (s : State) n =>
    (s.removeTiles fun t => n.covers t.coord).withDev fun dv => dv.withNode n.id fun n => { n with st := .claimed }) s

/-- HEARTH_ADOPTION: the queues that a failed Hearth served go to its first running neighbour, which goes on from the checkpoints,
and every context that owns one of them is told; without one they halt, and, no record being written, each halt is a device event
(R361, R391; entry 73). -/
def State.adopt (s : State) (h : Nat) : State :=
  match (regionNeighbours h).find? s.dev.runs with
  | some a =>
    (s.dev.wards h).foldl (fun (s : State) r =>
      let s := s.withDev fun dv =>
        let qs := dv.queues.filter fun x => x.q / 64 == r && x.en
        let dv := (dv.withRegion r fun x => { x with hstate := 2, adopter := a }).heartbeat r
        let dv := { dv with queues := dv.queues.map fun (x : Queue) => if x.q / 64 = r then dv.resumeQueue x else x }
        ((qs.map Queue.ctx).dedup).foldl (fun (dv : Device) c =>
          dv.report (recordOf c 8 .hearthadopt false r 0 0 (BitVec.ofNat 64 a))) dv
      s.relaunch r) s
  | none => s.withDev fun dv =>
    (dv.queues.filter fun x => (dv.wards h).elem (x.q / 64) && x.en).foldl (fun (dv : Device) x =>
      (dv.setQState x.q 3).event (dv.grantOf x.q).1 0x04#8) dv

/-- The Hearths that have stopped miss a frame; a third missed one brings adoption (R361). -/
def State.watch (s : State) : State :=
  (upTo 64).foldl (fun (s : State) r =>
    if (s.dev.region r).hstate != 1 then s
    else
      let s := s.withDev fun dv => dv.withRegion r fun x => { x with missed := x.missed + 1 }
      if (s.dev.region r).missed = 3 then s.adopt r else s) s

/-- When no Hearth runs any more, no frame comes in which a missed heartbeat could be seen: the queues of every Hearth that has
stopped halt at once (R361; entry 73). -/
def State.lastStop (s : State) : State :=
  if s.dev.lead.isSome then s
  else ((upTo 64).filter fun r => (s.dev.region r).hstate == 1 && decide ((s.dev.region r).missed < 3)).foldl (fun (s : State) r =>
    (s.withDev fun dv => dv.withRegion r fun x => { x with missed := 3 }).adopt r) s

/-- HEARTH_STOP: an uncorrectable error in its instruction memory, which is counted, stops a Hearth, and its heartbeat line shows it
(R345, R361, R367). -/
def execHearthStop (h : Nat) (s : State) : Host.Outcome State Fault Refusal :=
  .next (if s.dev.runs h then
    (s.withDev fun dv => (dv.withRegion h fun x =>
      { x with hstate := 1, missed := 0, uecnt := (x.uecnt + 1) % 2 ^ 32 }).heartbeat h).lastStop
  else s)

/-- The queues that a Hearth polls in a frame: its own, or in odd frames while an adoption stands the adopted ones, of all its
adoptions in every odd frame: DESIGN CHOICE (R361; entry 83). -/
def Device.served (dv : Device) (h frame : Nat) : List Nat :=
  let adopted := (dv.wards h).filter (· != h)
  let of_ (r : Nat) : List Nat := (upTo 64).map (64 * r + ·)
  if adopted.isEmpty || frame % 2 == 0 then of_ h else adopted.flatMap of_

/-- The queues whose tables a Hearth keeps. -/
def Device.keeps (dv : Device) (h : Nat) : List Nat := (dv.queues.map (·.q)).filter fun q => dv.server q == h

/-- The end of a frame: heartbeat, checkpoint, read-index publication (R344, R345, R349). -/
def Device.frameEnd (dv : Device) (h : Nat) : Device :=
  let dv := (dv.heartbeat h).checkpoint h
  (dv.keeps h).foldl Device.publish dv

/-- What the whole device does once in a frame: time passes, nodes age, priorities are lent, and the scheduling cycle runs
(R344, R356 to R359). -/
def State.sharedFrame (s : State) : State :=
  let s := (s.withDev fun dv => { dv with now := dv.now + 2 }).watch
  let s := s.withDev fun dv => { dv with nodes := dv.nodes.map dv.ageNode }
  let s := (s.withDev Device.relend).scheduleCycle
  let s := if s.dev.now % 100 = 0 then s.push [.damperStep] else s
  if s.dev.now % 1000 = 0 then s.push (((upTo 64).filter fun r => (s.dev.readyOf r).ready).map Due.rasWindow) else s

/-- HEARTH_FRAME: the last frame ends; then, in the new one, polls, completions, what the device shares once, and the launch and
packet steps, which come before this frame's end (R344, R345, R349). Correctable errors of the Hearth's memory and tables that its
work meets are counted (R366). The region's power request, which no rule fixes, is free. -/
def State.hearthFrame (s : State) (h : Nat) : State :=
  if !s.dev.runs h then s
  else
    let s := s.withDev fun dv =>
      let dv := dv.frameEnd h
      { dv.withRegion h fun x => { x with frame := x.frame + 1, cecnt := (x.cecnt + x.hearthSoft) % 2 ^ 32, hearthSoft := 0, req := dv.freeBits 8 } with free := dv.free + 1 }
    let frame := (s.dev.region h).frame
    let s := (s.withDev fun dv => (dv.served h frame).foldl (fun (dv : Device) q => dv.pollQueue q frame) dv).settleQueues
    let s := if s.dev.lead = some h then s.sharedFrame else s
    (s.push ((s.dev.keeps h).flatMap s.dev.queueSteps)).lichenFrame h

/-- HEARTH_FRAME (R344). -/
def execHearthFrame (h : Nat) (s : State) : Host.Outcome State Fault Refusal := .next (s.hearthFrame h)

end Sys2Proof.Machine
end

