-- ==== Sys2Proof/Machine/Rely.lean ====
section
/-! DEFINITION. Region counters and predictive failure, shadow latches and error injection (R367 to R375). -/

namespace Sys2Proof.Machine

/-- The RAS line of a region as a number (Table 18-2). -/
def Region.rasLine (x : Region) : Nat :=
  atBits 0 1 (b2n x.forcenom) + atBits 1 1 (b2n x.retire) + atBits 64 16 x.quar + atBits 128 16 x.pft + atBits 144 16 x.rate
    + atBits 160 32 x.cecnt + atBits 192 32 x.uecnt + atBits 224 32 x.linkrty + atBits 256 32 x.shrepl
    + atBits 288 32 x.cbaborts + atBits 320 32 x.injcnt

/-- The errors that the tiles of a region have counted since its last window (R367). -/
def State.regionCounts (s : State) (r : Nat) : List (Option Cause × Nat) :=
  ((s.core :: s.others).filter fun t => t.pos.region == r && t.sch.status != .absent).flatMap (·.counts)

/-- The tile's counts have been taken. -/
def Tile.counted (r : Nat) (t : Tile) : Tile := if t.pos.region = r then { t with counts := [] } else t

/-- RATE of the window that has just ended (Table 18-2). -/
def Region.windowRate (x : Region) : Nat := Nat.min 65535 ((x.cecnt + x.shrepl + 2 ^ 34 - x.atWindow) % 2 ^ 32)

/-- Whether the window that has just ended was over its threshold. -/
def Region.over (x : Region) (rate : Nat) : Bool := x.pft != 0 && decide (x.pft < rate)

/-- The evaluation at the end of a window (R372). -/
def Region.evaluate (x : Region) (rate : Nat) : Region :=
  let hot := x.over rate
  let calm := if 2 * rate ≤ x.pft then x.calm + 1 else 0
  { x with
    rate := rate
    atWindow := x.cecnt + x.shrepl
    calm := calm
    above := hot && !x.under
    retire := x.retire || (hot && !x.under && x.above)
    forcenom := if hot then x.forcenom || x.under else x.forcenom && decide (calm < 1000) }

/-- The contexts that have a node in a region. -/
def Device.regionCtxs (dv : Device) (r : Nat) : List Nat :=
  ((dv.nodes.filter fun n => (n.st == .running || n.st == .loading || n.st == .stopping || n.st == .saving) && n.regions.elem r).map
    fun n => (dv.graphOf n).ctx).dedup

/-- RAS_WINDOW: the counts are taken in, the threshold in force is applied and taken anew, the line is rewritten, and a region
marked for retirement is reported to the contexts that run there (R371, R372). -/
def State.rasWindow (s : State) (r : Nat) : State :=
  if !(decide (r < 64)) || !(s.dev.readyOf r).ready then s
  else
    let counts := s.regionCounts r
    let s := { s with core := s.core.counted r, others := s.others.map (Tile.counted r) }
    let x := (s.dev.region r).harvest counts
    let rate := x.windowRate
    let told := x.over rate && !x.under && x.above
    let y := { x.evaluate rate with pft := x.pftset }
    s.withDev fun dv =>
      let dv := (dv.withRegion r fun _ => y).putPhys (windowPa 2 r) 64 y.rasLine
      if told then (dv.regionCtxs r).foldl (fun (dv : Device) c => dv.say c 7 .pfthresh false r 0 0 none) dv else dv

/-- RAS_WINDOW (R372). -/
def execRasWindow (r : Nat) (s : State) : Host.Outcome State Fault Refusal := .next (s.rasWindow r)

/-- The replays of a tile within the last 2^20 of its cycles, this one included, each by the cycle in which it counts no more
(R370). -/
def Tile.replaysNow (t : Tile) : List Nat := (t.sch.cycle + 2 ^ 20) :: t.health.replays.filter fun c => decide (t.sch.cycle < c)

/-- SHADOWREP is raised by more than 64 replays: recorded, nominal voltage forced, a second one without a pass between
quarantines the tile (R370, R378). -/
def State.shadowRep (s : State) (t : Tile) : State :=
  let second := t.health.reported
  let s := s.onTile t.coord fun t => { t with health := { t.health with replays := [], reported := true } }
  let s := s.withDev fun dv =>
    let dv := dv.withRegion (regionOf t.coord) fun x => { x with forcenom := true }
    match dv.nodeAt t.coord with
    | some n => dv.sayAt (dv.graphOf n).ctx 7 .shadowrep false t.coord (nodeidOf (dv.graphOf n) n).toNat
    | none => dv
  if second then s.shiftMigration t.coord else s

/-- SHADOW_REPLAY: a late transition is caught and its stage replayed (R370). A replay that injection asks for is no step of its own
(Tile.replayFirst). -/
def State.shadowReplay (s : State) (c : Coord) : State :=
  match s.tileAt c with
  | none => s
  | some t =>
    let l := t.replaysNow
    let s := s.onTile c fun t => { t.stall2 with health := { t.health with replays := l } }
    let s := s.withDev fun dv => dv.withRegion (regionOf c) fun x => { x with shrepl := (x.shrepl + 1) % 2 ^ 32 }
    if 64 < l.length then s.shadowRep t else s

/-- SHADOW_REPLAY (R370). -/
def execShadowReplay (c : Coord) (_e : Engine) (s : State) : Host.Outcome State Fault Refusal := .next (s.shadowReplay c)

/-- The target of INJCTL (Table 18-3). -/
def injTarget (v : Nat) : Coord := ⟨bitsOf v 54 10, bitsOf v 44 10⟩

/-- A tile's detectors as a value of INJCTL arms them; another tile is disarmed (R374). -/
def Tile.arm (v : Nat) (t : Tile) : Tile :=
  let on := bitOf v 31 && injTarget v == t.coord
  { t with
    inj := ⟨if on then bitsOf v 2 8 * 4 else 0, on && bitOf v 30, t.inj.hits⟩
    pad := { t.pad with inj := ⟨if on then bitsOf v 0 2 else 0, on && bitOf v 30, t.pad.inj.hits⟩ } }

/-- The fields of INJCTL that are written (Table 18-3). -/
def injFields (v : Nat) : Nat := atBits 0 10 v + atBits 30 2 (bitsOf v 30 2) + atBits 44 20 (bitsOf v 44 20)

/-- INJCTL_WRITE: a write that names a tile absent from the region is ignored (R374). -/
def State.injctlWrite (s : State) (r : Nat) (v : Nat) : State :=
  let c := injTarget v
  if !(decide (r < 64)) || !coordOk c || regionOf c != r || s.dev.absent c then s
  else
    let upd (t : Tile) : Tile := if regionOf t.coord = r then t.arm v else t
    { s with
      core := upd s.core
      others := s.others.map upd
      dev := s.dev.withRegion r fun x => { x with injctl := BitVec.ofNat 64 (injFields v) } }

/-- INJCTL_WRITE (R374): the register is reached from the host ports and by the Kiln; the management port has no index for it
(Table 21-7). -/
def execInjctlWrite (req : Requester) (r : Nat) (v : DWord) (s : State) : Host.Outcome State Fault Refusal :=
  .next (match req with
    | .host _ | .kiln => s.injctlWrite r v.toNat
    | .mgmt => s)

/-- The injected reports a tile has made and not yet had counted. -/
def Tile.hits (t : Tile) : List Nat := t.inj.hits ++ t.pad.inj.hits

/-- The injected reports of a tile have been counted; without REPEAT it is disarmed. -/
def Tile.unhit (t : Tile) : Tile :=
  let again := t.inj.again || t.pad.inj.again
  { t with
    inj := ⟨if again then t.inj.armed else 0, t.inj.again, []⟩
    pad := { t.pad with inj := ⟨if again then t.pad.inj.armed else 0, t.pad.inj.again, []⟩ } }

/-- What injected reports of a tile leave behind: INJCNT, an INJECT record for each to its context if a node runs there, and ARM
cleared unless REPEAT is set (R375, Table 18-3). -/
def Device.injected (dv : Device) (t : Tile) : Device :=
  let again := t.inj.again || t.pad.inj.again
  let dv := dv.withRegion (regionOf t.coord) fun x =>
    { x with
      injcnt := (x.injcnt + t.hits.length) % 2 ^ 32
      injctl := if again then x.injctl else x.injctl &&& ~~~(0x80000000#64) }
  match dv.nodeAt t.coord with
  | some n => t.hits.foldl (fun (dv : Device) _ => dv.sayAt (dv.graphOf n).ctx 7 .inject false t.coord (nodeidOf (dv.graphOf n) n).toNat) dv
  | none => dv

/-- The injected reports of every tile are counted. -/
def State.countInjected (s : State) : State :=
  if (s.core :: s.others).all fun t => t.hits.isEmpty then s
  else
    let upd (t : Tile) : Tile := if t.hits.isEmpty then t else t.unhit
    let dv := ((s.core :: s.others).filter fun t => !t.hits.isEmpty).foldl Device.injected s.dev
    { s with core := upd s.core, others := s.others.map upd, dev := dv }

end Sys2Proof.Machine
end

