-- ==== Sys2Proof/Machine/Boot.lean ====
section
/-! DEFINITION. Bring-up and reset (R12, R61, R391, R392, R394 to R396) and links to other wafers (R401). -/

namespace Sys2Proof.Machine

/-- A record with SRC = 9 to every context that has a valid trap ring (R399). -/
def Device.security (dv : Device) : Device :=
  (upTo 256).foldl (fun (dv : Device) c => dv.say c 9 .security false 0 0 0 none) dv

/-- Whether a container passes every check against the anti-rollback counter (R397). -/
def verdictGood (v : Verdict) (rollback : Nat) : Bool := v.ecdsa && v.lms && v.imageOk && decide (rollback ≤ v.svn)

/-- Whether the power input lies where the module runs (R403). -/
def Power.inRange (p : Power) : Bool := decide (48000 ≤ p.mv) && decide (p.mv ≤ 58000)

/-- The power input as bring-up finds it: as it stands while the module has power, else a free value in range, of which a band of
R403 warns (R394; entry 11). -/
def Device.powerUp (dv : Device) : Device :=
  if dv.power.on then dv
  else
    let mv := 48000 + dv.freeBits 32 % 10001
    let capped := decide (mv < 50000) || decide (56000 < mv)
    let dv := { dv.draw with power := ⟨true, capped, false, mv⟩ }
    if capped then dv.eventAll 0x02#8 else dv

/-- FIRMWARE_VERIFY, and every function enters bring-up, or is held not ready (R394, R397). -/
def State.bringUp (s : State) : State :=
  if s.dev.power.on && s.dev.kiln.firmwareOk then s
  else
    let dv := s.dev.powerUp
    let v := dv.kiln.boot
    if verdictGood v dv.kiln.rollback then
      let dv := { dv with kiln := { dv.kiln with firmwareOk := true, svn := v.svn, firmware := v.digest } }
      let dv := (upTo 140).foldl (fun (dv : Device) n => dv.setReady n fun x => { x with busy := true }) dv
      ({ s with dev := dv }).push ((upTo 40).map Due.fluePortBringUp ++ (upTo 64).map Due.regionBringUp
        ++ (upTo 32).map Due.opticalPortReady)
    else { s with dev := dv.security }

/-- BRING_UP (R394). -/
def execBringUp (s : State) : Host.Outcome State Fault Refusal := .next s.bringUp

/-- FLUE_PORT_BRING_UP (R394). -/
def execFluePortBringUp (port : Nat) (s : State) : Host.Outcome State Fault Refusal := .next (s.withDev fun dv => dv.portBringUp port)

/-- The positions of a region that a test finds bad: a free choice for each (entry 7). -/
def Device.someBad (dv : Device) (r : Nat) : List Pos :=
  (regionPositions r).filter fun p => Config.freeBit (dv.free + 128 * p.prow + p.pos)

/-- A region's items in its system window hold their reset values: the map records, the heartbeat line and the RAS line (R17, R345,
R371; Tables 01-1, 17-1, 18-2). -/
def Device.windowReset (dv : Device) (r : Nat) : Device :=
  ((dv.storeMap r).heartbeat r).putPhys (windowPa 2 r) 64 (dv.region r).rasLine

/-- REGION_BRING_UP: the Hearth is loaded and the tiles are march-tested; what the tests find, and whether the region fails, are
free choices (R394, entry 7). -/
def State.regionBringUp (s : State) (r : Nat) : State :=
  if !(decide (r < 64)) || !s.dev.comesUp r || (s.dev.region r).tested then s
  else
    let s := s.withDev fun dv => dv.windowReset r
    if Config.freeBit s.dev.free then
    s.withDev fun dv => dv.draw.setReady r fun x => { x with busy := false, failed := true }
  else
    let dv := s.dev.draw
    let bad := dv.someBad r
    let dv := { dv with free := dv.free + 16384 }
    let byp := dv.someBad r
    let dv := { dv with free := dv.free + 16384 }
    ({ s with dev := dv.withRegion r fun x =>
        { x with defects := bad, bypassBad := byp, tested := true, hstate := 0, adopter := r, missed := 0 } }).push [.mapBuild r]

/-- REGION_BRING_UP (R394). -/
def execRegionBringUp (r : Nat) (s : State) : Host.Outcome State Fault Refusal := .next (s.regionBringUp r)

/-- The carrying positions of a used row, from position `p` on (R12): local slots placed so far, the slots after which a free
spare still comes. -/
def carryFrom (q : Nat) : Nat → Nat → Nat → List Nat → List Nat
  | 0, _, _, _ => []
  | fuel + 1, p, k, sp =>
    if bitOf q p then carryFrom q fuel (p + 1) k sp
    else if decide (0 < k) && sp.elem (k - 1) then carryFrom q fuel (p + 1) k (sp.filter (· != k - 1))
    else if k < 125 then p :: carryFrom q fuel (p + 1) (k + 1) sp
    else carryFrom q fuel (p + 1) k sp

/-- The carrying positions of a row with `d` defective tiles (R12). -/
def carrying (q d : Nat) : List Nat := carryFrom q 128 0 0 (([124, 62, 31] : List Nat).take (3 - d))

/-- A mask with the bits of a list of positions set. -/
def maskOf (l : List Nat) : Nat := l.foldl (fun m p => if bitOf m p then m else m + 2 ^ p) 0

/-- One row of the map: its record, and the used rows so far (R12). -/
def buildRow (bad byp : List Nat) (used : Nat) : RowRec × Nat :=
  let q := maskOf (bad ++ byp)
  if !byp.isEmpty || decide (3 < bad.dedup.length) then (⟨3, 0x7F, q, 0⟩, used)
  else if used = 125 then (⟨2, 0x7F, q, 0⟩, used)
  else (⟨1, used, q, maskOf (carrying q bad.dedup.length)⟩, used + 1)

/-- The rows of a map, from physical row `i` on: their records and the number of used ones (R12). -/
def buildRows (bad byp : List Pos) : Nat → Nat → Nat → List RowRec × Nat
  | 0, _, used => ([], used)
  | n + 1, i, used =>
    let x := buildRow ((bad.filter (·.prow == i)).map (·.pos)) ((byp.filter (·.prow == i)).map (·.pos)) used
    let rest := buildRows bad byp n (i + 1) x.2
    (x.1 :: rest.1, rest.2)

/-- MAP_BUILD: the map is built from the march tests and written, and the region reports ready (R12, R13, R17, R394). -/
def Device.mapBuild (dv : Device) (r : Nat) : Device :=
  let x := dv.region r
  if !(decide (r < 64)) || !dv.comesUp r || !x.tested then dv
  else
    let m := buildRows x.defects x.bypassBad 128 0 0
    let dv := (dv.withRegion r fun x => { x with rows := m.1, gen := 1, tested := false }).storeMap r
    (dv.setReady r fun y => { y with busy := false, ready := true, kstate := if m.2 < 125 then 2 else 1, rframe := x.frame }).setEntry r

/-- MAP_BUILD (R12). -/
def execMapBuild (r : Nat) (s : State) : Host.Outcome State Fault Refusal := .next (s.withDev fun dv => dv.mapBuild r)

/-- HOST_LINK_UP: the link comes up at a width of 1 to 16 lanes, free here, and the port reports ready (R394, Table 21-2). -/
def Device.linkUp (dv : Device) (p : Nat) : Device :=
  if !(decide (p < 4)) || !dv.comesUp (104 + p) then dv
  else dv.draw.setReady (104 + p) fun x => { x with busy := false, ready := true, kstate := dv.freeBits 32 % 5 }

/-- HOST_LINK_UP (R394). -/
def execHostLinkUp (port : Nat) (s : State) : Host.Outcome State Fault Refusal := .next (s.withDev fun dv => dv.linkUp port)

/-- OPTICAL_PORT_READY: whether the transceiver and the ring node pass their tests is a free choice (R394). -/
def State.opticalReady (s : State) (p : Nat) : State :=
  if !(decide (p < 32)) || !s.dev.comesUp (108 + p) then s
  else if Config.freeBit s.dev.free then
    s.withDev fun dv => dv.draw.setReady (108 + p) fun x => { x with busy := false, failed := true }
  else
    let s := s.withDev fun dv => dv.draw.setReady (108 + p) fun x => { x with busy := false, ready := true }
    if s.dev.bar0.waferid = 0 then s else s.push [.opticalLinkTrain p]

/-- OPTICAL_PORT_READY (R394). -/
def execOpticalPortReady (port : Nat) (s : State) : Host.Outcome State Fault Refusal := .next (s.opticalReady port)

/-- OPTICAL_LINK_TRAIN: a ready port trains its link whenever the wafer has joined, and sets LINKUP (R401). -/
def Device.opticalTrain (dv : Device) (p : Nat) : Device :=
  if !(decide (p < 32)) || !(dv.readyOf (108 + p)).ready || dv.bar0.waferid == 0 || (dv.readyOf (108 + p)).kstate != 0 then dv
  else dv.setReady (108 + p) fun x => { x with kstate := 1 }

/-- OPTICAL_LINK_TRAIN (R401). -/
def execOpticalLinkTrain (port : Nat) (s : State) : Host.Outcome State Fault Refusal := .next (s.withDev fun dv => dv.opticalTrain port)

/-- Whether this wafer's configuration accepts a peer, and the two wafer IDs differ (R401). -/
def Device.acceptsPeer (dv : Device) (x : PeerReport) : Bool :=
  (match dv.kiln.config with
    | some k => k.peers.elem x.firmware && k.peers.elem x.config
    | none => false) && x.wafer % 256 != dv.bar0.waferid

/-- OPTICAL_ATTEST_EXCHANGE: the link becomes SECURE, or is refused, which is counted; whether the peer's configuration accepts
this wafer is a free choice (R401; entry 12). -/
def Device.attestPeer (dv : Device) (p : Nat) (x : PeerReport) : Device :=
  if !(decide (p < 32)) || (dv.readyOf (108 + p)).kstate != 1 then dv
  else if dv.acceptsPeer x && Config.freeBit dv.free then
    dv.draw.setReady (108 + p) fun y => { y with kstate := 3, peer := x.wafer % 256, entry := x.port % 32 }
  else dv.draw.refuse

/-- OPTICAL_ATTEST_EXCHANGE (R401). -/
def execOpticalAttestExchange (port : Nat) (peer : PeerReport) (s : State) : Host.Outcome State Fault Refusal :=
  .next (s.withDev fun dv => dv.attestPeer port peer)

/-- A requester whose command is abandoned reads a status of 0 after it (R405). -/
def Mgmt.abandoned (m : Mgmt) : Mgmt := { m with kstat := if m.kstat = 0xFF then 0 else m.kstat }

/-- What a device reset leaves: bulk and host memory, what the Kiln keeps, the management port, the power input, broken links,
and the record of what has gone out, the events of the ready records among it (R391 to R393, R405; entry 6). -/
def Device.resetAll (dv : Device) : Device :=
  let dv := dv.dropReady
  { Device.zero with
    free := dv.free, nextId := dv.nextId, down := dv.down, hbm := dv.hbm, seals := dv.seals, poison := dv.poison, bad := dv.bad
    soft := dv.soft, hosts := dv.hosts, hostSeals := dv.hostSeals, remoteOut := dv.remoteOut, msix := dv.msix
    mgmt := dv.mgmt.abandoned
    power := dv.power
    kiln := { dv.kiln with keys := [], pending := [], firmwareOk := false } }

/-- The device resets, and bring-up starts again (R392): every node is ended without a save, every key slot cleared, every
ready record returns to 0. -/
def State.resetDevice (s : State) : State :=
  { agenda := [.bringUp], core := Tile.none_, bundle := none, others := [], dev := s.dev.resetAll }

/-- Whether a port holds the grant RSTOK; before the first enrolment none does (R399, R400). -/
def Device.rstok (dv : Device) (p : Nat) : Bool :=
  match dv.kiln.config with
  | some k => k.rstok.elem p
  | none => false

/-- Whether a port holds the grant SYSW (R399). -/
def Device.sysw (dv : Device) (p : Nat) : Bool :=
  match dv.kiln.config with
  | some k => k.sysw.elem p
  | none => false

/-- DEVRST (R392): the management port has no index for it (Table 21-7). -/
def execDevrst (req : Requester) (v : DWord) (s : State) : Host.Outcome State Fault Refusal :=
  .next (match req with
    | .mgmt | .kiln => s
    | .host p =>
      if !s.dev.rstok p then s.withDev Device.refuse
      else if v.setWidth 32 = 0x5EED#32 then s.resetDevice else s)

/-- Whether a node holds or claims a tile of a region, or a queue of the region is enabled: EN of its descriptor, as it lies in
memory (R396, Table 17-2). -/
def Device.regionBusy (dv : Device) (r : Nat) : Bool :=
  dv.nodes.any (fun n => (n.st == .claimed || n.st == .loading || n.st == .running || n.st == .stopping || n.st == .saving)
      && n.regions.elem r)
    || (upTo 64).any fun k => bitOf (dv.phys (dv.queueAt (64 * r + k)) 1) 0

/-- RRESET: an accepted reset clears the region's holes, RETIRE, QUAR and Hearth failure, and its bring-up runs again (R394,
R396); a quarantine that waits in it waits no longer (entry 82). -/
def State.regionReset (s : State) (r : Nat) : State :=
  if s.dev.regionBusy r then s.withDev Device.refuse
  else
    let s := s.removeTiles fun t => t.pos.region == r && t.sch.status != .absent
    (s.withDev fun dv =>
      let dv := dv.withRegion r fun x =>
        { x with
          holes := [], retire := false, quar := 0, hstate := 0, adopter := r, missed := 0, frame := 0, gen := 0
          rows := List.replicate 128 RowRec.zero, tested := false, passes := [], wanted := [], check := ⟨[], [], [], []⟩ }
      let dv := { dv with migrations := dv.migrations.filter (·.region != r) }
      (dv.windowReset r).setReady r fun _ => { Ready.zero with busy := true }).push [.regionBringUp r]

/-- RRESET (R396): [5:0] names the region and [8] must be 1. -/
def execRreset (req : Requester) (v : DWord) (s : State) : Host.Outcome State Fault Refusal :=
  .next (match req with
    | .mgmt | .kiln => s
    | .host _ => if bitOf v.toNat 8 then s.regionReset (bitsOf v.toNat 0 6) else s)

/-- WAFERID: ignored while any optical port has LINKUP; a joined wafer's ports train their links (R401). -/
def State.setWafer (s : State) (w : Nat) : State :=
  if (upTo 32).any fun p => (s.dev.readyOf (108 + p)).kstate % 2 == 1 then s
  else
    let s := s.withDev fun dv => { dv with bar0 := { dv.bar0 with waferid := w } }
    if w = 0 then s else s.push (((upTo 32).filter fun p => (s.dev.readyOf (108 + p)).ready).map Due.opticalLinkTrain)

/-- WAFERID_WRITE (R401): [7:0] is the wafer ID. -/
def execWaferidWrite (req : Requester) (v : DWord) (s : State) : Host.Outcome State Fault Refusal :=
  .next (match req with
    | .mgmt | .kiln => s
    | .host _ => s.setWafer (bitsOf v.toNat 0 8))

end Sys2Proof.Machine
end

