-- ==== Sys2Proof/Machine/HostRegs.lean ====
section
/-! DEFINITION. The registers of BAR0 and the aperture of BAR2 (R390, Table 21-1), ready records (Table 21-2). -/

namespace Sys2Proof.Machine

/-- A ready record as a number (Table 21-2). -/
def Device.readyBits (dv : Device) (n : Nat) : Nat :=
  let x := dv.readyOf n
  let head := atBits 0 1 (b2n x.ready) + atBits 1 1 (b2n x.busy) + atBits 2 1 (b2n x.failed) + atBits 3 1 (b2n x.retired)
    + atBits 8 3 x.kstate
  if n < 64 then
    let at_ (k : Nat) : Nat := if x.ready then windowPa k n else 0
    head + atBits 11 6 x.entry + atBits 48 48 (at_ 0) + atBits 96 48 (at_ 1) + atBits 144 48 (at_ 2) + atBits 192 48 (at_ 3)
      + atBits 240 64 x.rframe
  else if n < 104 then head + atBits 32 16 x.pcount + atBits 48 32 x.uecnt
  else if n < 108 then head
  else head + atBits 11 5 x.entry + atBits 40 8 x.peer

/-- DGRANT of a region (Table 21-5). -/
def Region.dgrant (x : Region) : Nat :=
  atBits 0 8 x.ceil + atBits 8 8 x.req + atBits 16 8 x.grant + atBits 24 5 x.fstep + atBits 30 1 (b2n x.gated)
    + atBits 31 1 (b2n x.therm)

/-- MODCAP is written: a value above 8,000 is taken as 8,000. -/
def Device.setModcap (dv : Device) (v : Nat) : Device := { dv with bar0 := { dv.bar0 with modcap := Nat.min v 8000 } }

/-- CEIL of a region is written: a value above 160 is taken as 160 (Table 21-5). -/
def Device.setCeil (dv : Device) (r v : Nat) : Device := dv.withRegion r fun x => { x with ceil := Nat.min (v % 256) 160 }

/-- PFTSET of a region is written (Table 21-1). -/
def Device.setPft (dv : Device) (r v : Nat) : Device := dv.withRegion r fun x => { x with pftset := v % 65536 }

/-- A mailbox. -/
def Device.box (dv : Device) (p : Nat) : Mailbox := (dv.boxes[p]?).getD Mailbox.zero

/-- Changes a mailbox. -/
def Device.withBox (dv : Device) (p : Nat) (f : Mailbox → Mailbox) : Device :=
  { dv with boxes := dv.boxes.setIfInBounds p (f (dv.box p)) }

/-- Status of a requester's command: a port's KSTAT, or that of the management port, the fifth requester (R393, R399). -/
def Device.kstatOf (dv : Device) (p : Nat) : Nat := if p = 4 then dv.mgmt.kstat else (dv.box p).kstat

/-- Sets the status and the response of a requester. -/
def Device.setKstat (dv : Device) (p st : Nat) (resp : Option (List Byte)) : Device :=
  if p = 4 then { dv with mgmt := { dv.mgmt with kstat := st, kresp := resp.getD dv.mgmt.kresp } }
  else dv.withBox p fun b => { b with kstat := st, kresp := resp.getD b.kresp }

/-- A command completes: its status stands, one other than 0 is counted, and its requester is told (R391, R393, Table
21-4). -/
def Device.kilnEnd (dv : Device) (p st : Nat) (resp : Option (List Byte)) : Device :=
  let dv := dv.setKstat p st resp
  let dv := { dv with kiln := { dv.kiln with pending := dv.kiln.pending.drop 1 } }
  let dv := if st = 0 then dv else dv.refuse
  if p = 4 then
    if dv.mgmt.events then { dv with mgmt := { dv.mgmt with ibi := dv.mgmt.ibi ++ [0x03#8] } } else dv
  else dv.message p 0

/-- Codes that name no command end with status 1 as their turn comes (Table 21-4). -/
def Device.skipUnknown : Nat → Device → Device
  | 0, dv => dv
  | fuel + 1, dv =>
    match dv.kiln.pending with
    | (p, code) :: _ => if code = 0 ∨ 7 < code then Device.skipUnknown fuel (dv.kilnEnd p 1 none) else dv
    | [] => dv

/-- A command completes, and the next one's turn comes (R399). -/
def Device.kilnDone (dv : Device) (p st : Nat) (resp : Option (List Byte)) : Device :=
  Device.skipUnknown dv.kiln.pending.length (dv.kilnEnd p st resp)

/-- A port's commands are abandoned, a KUNLOAD that runs among them, and the next command's turn comes (R391, R399; entry 80). -/
def Device.dropCommands (dv : Device) (p : Nat) : Device :=
  let k := dv.kiln
  let keys := if (k.pending.head?.map (·.1)) = some p then k.keys.map fun (x : KeySlot) => { x with unloading := false } else k.keys
  let dv := { dv with kiln := { k with pending := k.pending.filter (·.1 != p), keys := keys } }
  Device.skipUnknown dv.kiln.pending.length dv

/-- HOST_PORT_RESET: the link drops and the mailbox is reset; nothing else is (R391). -/
def State.portReset (s : State) (p : Nat) : State :=
  if !(decide (p < 4)) then s
  else (s.linkDrop (.hostPort p)).withDev fun dv => { dv with boxes := dv.boxes.setIfInBounds p Mailbox.zero }.dropCommands p

/-- HOST_PORT_RESET (R391). -/
def execHostPortReset (port : Nat) (s : State) : Host.Outcome State Fault Refusal := .next (s.portReset port)

/-- Whether the Kiln answers a command: with refused firmware only KFWLOAD, KATTEST and KCOMMIT (R397), else before an operator
key is enrolled only KCFG, which must enrol one (R400; entry 20). -/
def Device.kilnAnswers (dv : Device) (code : Nat) : Bool :=
  dv.power.on && (if dv.kiln.firmwareOk then dv.kiln.operator.isSome || code == 5 else code == 1 || code == 6 || code == 7)

/-- Whether a host port's write reaches a register: its link is up, or the firmware is refused, when the Kiln's mailboxes alone
answer (R397; entry 20). -/
def Device.reaches (dv : Device) (p a : Nat) : Bool :=
  decide (p < 4) && (dv.hostUp p || (dv.power.on && !dv.kiln.firmwareOk && decide (0x50000 ≤ a) && decide (a ≤ 0x50100)))

/-- KDOOR: the command joins the order of the doorbells; ignored while one of the port's runs (R399). A code that names no
command joins it too, and ends with status 1 when its turn comes. -/
def Device.doorbell (dv : Device) (p code : Nat) : Device :=
  if dv.kstatOf p = 0xFF ∨ !dv.kilnAnswers code then dv
  else
    let dv := dv.setKstat p 0xFF none
    let first := dv.kiln.pending.isEmpty
    let dv := { dv with kiln := { dv.kiln with pending := dv.kiln.pending ++ [(p, code)] } }
    if first then Device.skipUnknown 1 dv else dv

/-- A write to a BAR0 offset by a host port (Table 21-1): a register with a row of its own is written by that row's step, RRESET
before a frame that waits to claim tiles (Table 21-6). -/
def State.bar0Write (s : State) (p a : Nat) (v : DWord) : State :=
  let n := v.toNat
  let bar (f : Bar0 → Bar0) : State := s.withDev fun dv => { dv with bar0 := f dv.bar0 }
  if a % 8 != 0 then s
  else if a = 0x08 then bar fun x => { x with ctxbase := n / 2 ^ 15 * 2 ^ 15 }
  else if a = 0x10 then bar fun x => { x with qtbase := n / 2 ^ 18 * 2 ^ 18 }
  else if a = 0x18 then bar fun x => { x with apbase := n / 2 ^ 32 * 2 ^ 32 }
  else if a = 0x20 then s.withDev fun dv => dv.setModcap n
  else if a = 0x28 then s.push [.devrst (.host p) v]
  else if a = 0x30 then s.push [.waferidWrite (.host p) v]
  else if a = 0x40 then s.pushFirst (.rreset (.host p) v)
  else if 0x30000 ≤ a ∧ a < 0x30200 then s.push [.injctlWrite (.host p) ((a - 0x30000) / 8) v]
  else if 0x20000 ≤ a ∧ a < 0x20140 then
    s.push [if bitOf n 10 then .retryAbort ((a - 0x20000) / 8) v else .retryReplay ((a - 0x20000) / 8) v]
  else if 0x40000 ≤ a ∧ a < 0x40200 then s.withDev fun dv => dv.setCeil ((a - 0x40000) / 8) n
  else if 0x50000 ≤ a ∧ a < 0x50100 then
    s.withDev fun dv => dv.withBox p fun b => { b with kreq := b.kreq.putVal (a - 0x50000) 8 n }
  else if a = 0x50100 then s.withDev fun dv => dv.doorbell p (n % 256)
  else if 0x60000 ≤ a ∧ a < 0x60200 then s.withDev fun dv => dv.setPft ((a - 0x60000) / 8) n
  else s

/-- What a host port reads from an 8-byte register of BAR0 (Tables 00-4, 21-1): what is write-only, or no register, reads as zero.
A read changes nothing, and the opcode table gives it no step. -/
def Device.bar0Read (dv : Device) (p a : Nat) : DWord :=
  let reg (base n : Nat) (f : Nat → Nat) : Option Nat := if base ≤ a ∧ a < base + 8 * n then some (f ((a - base) / 8)) else none
  if a % 8 != 0 then 0#64
  else BitVec.ofNat 64 (
    if a = 0 then 0xCA001000 + 2 ^ 32 * Config.stepping.toNat
    else if a = 0x08 then dv.bar0.ctxbase
    else if a = 0x10 then dv.bar0.qtbase
    else if a = 0x18 then dv.bar0.apbase
    else if a = 0x20 then dv.bar0.modcap
    else if a = 0x30 then dv.bar0.waferid
    else if a = 0x38 then dv.bar0.seccnt
    else if a = 0x50108 then dv.kstatOf p
    else if 0x51000 ≤ a ∧ a < 0x52000 then bytesVal (((dv.box p).kresp.drop (a - 0x51000)).take 8)
    else ((reg 0x10000 1120 fun k => bitsOf (dv.readyBits (k / 8)) (64 * (k % 8)) 64).or
      ((reg 0x30000 64 fun r => (dv.region r).injctl.toNat).or
        ((reg 0x40000 64 fun r => (dv.region r).dgrant).or (reg 0x60000 64 fun r => (dv.region r).pftset)))).getD 0)

/-- A management write that Table 21-7 marks MGMTW is granted, or no operator key is enrolled (R393). -/
def Device.mgmtw (dv : Device) : Bool :=
  dv.kiln.operator.isNone || (match dv.kiln.config with
    | some k => k.mgmtw
    | none => false)

/-- A write to a management index (Table 21-7). -/
def State.mgmtWrite (s : State) (a : Nat) (v : DWord) : State :=
  let n := v.toNat
  let guarded (f : Device → Device) : State := if s.dev.mgmtw then s.withDev f else s.withDev Device.refuse
  if a % 8 != 0 then s
  else if a = 0x0008 then guarded fun dv => dv.setModcap n
  else if 0x2400 ≤ a ∧ a < 0x2600 then guarded fun dv => dv.setCeil ((a - 0x2400) / 8) n
  else if 0x2600 ≤ a ∧ a < 0x2800 then guarded fun dv => dv.setPft ((a - 0x2600) / 8) n
  else if 0x3A00 ≤ a ∧ a < 0x3A30 then
    s.withDev fun dv => { dv with mgmt := { dv.mgmt with nonce := dv.mgmt.nonce.putVal (a - 0x3A00) 8 n } }
  else if a = 0x3A30 then if n % 256 = 1 then s.withDev fun dv => dv.doorbell 4 1 else s
  else s

/-- REGISTER_WRITE: a write to a register without a row of its own (R390, R393). -/
def execRegisterWrite (req : Requester) (addr : Nat) (v : DWord) (s : State) : Host.Outcome State Fault Refusal :=
  .next (match req with
    | .host p => if s.dev.reaches p addr then s.bar0Write p addr v else s
    | .mgmt => if s.dev.power.inRange then s.mgmtWrite addr v else s
    | .kiln => s)

/-- A line of bulk memory as it lies there: plain in a system window, else ciphertext (R76). -/
def Device.rawLine (dv : Device) (line : Nat) : List Byte :=
  let plain := dv.hbm.bytes line 64
  match dv.sealOf line with
  | some m => if inSysWin line then plain else (upTo 64).map (Config.cipherByte m (line + 2 ^ 48 * bytesVal plain))
  | none => plain

/-- What an access through BAR2 finds at its addresses (R390). -/
inductive BarPlace where
  | memory
  /-- no memory, or a system window without the grant -/
  | unsupported (refused : Bool)
  /-- a stack whose port has not come up: the access waits there (R394) -/
  | waits
  /-- a stack whose port is failed or retired -/
  | gone
  deriving DecidableEq, Repr

/-- Where one byte of an access through BAR2 goes. -/
def Device.barPlace (dv : Device) (port a : Nat) : BarPlace :=
  if 2 ^ 32 ≤ a then .unsupported false
  else match direct (dv.bar0.apbase + a) with
    | none => .unsupported false
    | some d =>
      if inSysWin d && !dv.sysw port then .unsupported true
      else if dv.portGone (stackOf d) then .gone
      else if !dv.portUp (stackOf d) then .waits
      else .memory

/-- The byte at a BAR2 offset. -/
def Device.barByte (dv : Device) (a : Nat) : Byte :=
  match direct (dv.bar0.apbase + a) with
  | some d => ((dv.rawLine (d / 64 * 64))[d % 64]?).getD 0#8
  | none => 0xFF#8

/-- Ones in bits `lo` to `lo + len - 1`. -/
def ones (lo len : Nat) : Nat := (2 ^ len - 1) * 2 ^ lo

/-- The bits of a line that a host write leaves alone, and those that writing a 1 clears. -/
structure HostMask where
  keep : Nat
  clear : Nat
  deriving DecidableEq, Repr

/-- A line of the context table: fields with access RO and W1C (Tables 00-4, 03-3, 16-6). -/
def ctxMask (second : Bool) : HostMask :=
  if second then ⟨ones 0 2 + ones 96 32 + ones 201 3 + ones 210 302, ones 209 1⟩
  else ⟨ones 200 40 + ones 273 239, ones 272 1⟩

/-- A queue descriptor's RO fields (Table 17-2). -/
def queueMask : HostMask := ⟨ones 113 3 + ones 117 3, 0⟩

/-- Whether a line lies among `n` lines from a physical address. -/
def lineIn (line base n : Nat) : Bool :=
  match direct base with
  | some d => decide (d ≤ line) && decide (line < d + 64 * n)
  | none => false

/-- Where a line stands in a table of some bytes from a physical address, which may name it in the interleaved window (R60). -/
def inTable (line base len : Nat) : Option Nat :=
  let pa := if base < 2 ^ 47 then line else 2 ^ 47 + (line % 2 ^ 36 / 4096 * 40 + stackOf line) * 4096 + line % 4096
  if base ≤ pa && decide (pa < base + len) then some (pa - base) else none

/-- Whether a line lies in a stack's system window (R61). -/
def systemLine (line : Nat) : Bool := decide (0xFC0000000 ≤ line % 2 ^ 36)

/-- Whether a line belongs to a region's map, heartbeat or RAS line, whose fields are all RO (Tables 01-1, 17-1, 18-2). -/
def regionLine (line : Nat) : Bool :=
  systemLine line && (upTo 64).any fun r =>
    lineIn line (windowPa 0 r) 128 || lineIn line (windowPa 1 r) 1 || lineIn line (windowPa 2 r) 1

/-- Whether a line belongs to an exposure-report slot, and whether it is its first line: of a slot the host writes only the low
64 bits of the header (R380, Table 18-4). -/
def reportLine (line : Nat) : Option Bool :=
  if !systemLine line then none
  else (upTo 64).findSome? fun r =>
    if lineIn line (reportSlot r 0) 4096 then some ((line - (direct (reportSlot r 0)).getD 0) % 4096 == 0) else none

/-- What a host write may do to a line (Table 00-4): most lines are the host's own. -/
def Device.hostMask (dv : Device) (line : Nat) : HostMask :=
  if let some k := inTable line dv.bar0.ctxbase (2 ^ 15) then ctxMask (k % 128 == 64)
  else if (inTable line dv.bar0.qtbase (2 ^ 18)).isSome then queueMask
  else if regionLine line then ⟨ones 0 512, 0⟩
  else match reportLine line with
    | some first => ⟨if first then ones 64 448 else ones 0 512, 0⟩
    | none => ⟨0, 0⟩

/-- A line as a host write of some of its bits leaves it. -/
def HostMask.apply (k : HostMask) (old new written : Nat) : Nat :=
  ((new &&& (ones 0 512 ^^^ (k.keep ||| k.clear))) ||| (old &&& k.keep))
    ||| (old &&& k.clear &&& (ones 0 512 ^^^ (new &&& written)))

/-- Bytes go through BAR2 into lines of bulk memory, one line at a time: a field that the host may not write stays as it is; a
line partly written that its read step finds bad or poisoned stays poisoned (R77); what it was sealed with is lost. -/
def Device.barStore (dv : Device) (a : Nat) (bytes : List Byte) : Device :=
  match direct (dv.bar0.apbase + a) with
  | none => dv
  | some d =>
    let line := d / 64 * 64
    let old := dv.rawLine line
    let new := old.take (d % 64) ++ bytes ++ old.drop (d % 64 + bytes.length)
    let v := (dv.hostMask line).apply (bytesVal old) (bytesVal new) (ones (8 * (d % 64)) (8 * bytes.length))
    let sick := bytes.length != 64 && (dv.bad.has line || dv.poison.has line)
    let dv := if bytes.length = 64 then dv else dv.meetLine line
    { dv with
      hbm := dv.hbm.putVal line 64 v
      soft := NatSet.del dv.soft line
      seals := dv.seals.filter (·.1 != line)
      bad := NatSet.del dv.bad line
      poison := if sick then NatSet.add dv.poison line else NatSet.del dv.poison line }

/-- The pieces of a write through BAR2, line by line. -/
def Device.barStores (dv : Device) : List (Nat × Nat) → List Byte → Device
  | [], _ => dv
  | (a, n) :: l, bs => Device.barStores (dv.barStore a (bs.take n)) l (bs.drop n)

/-- The length of an access. -/
def barLen : Bar2Op → Nat
  | .read n => n
  | .write bs => bs.length

/-- A free byte for each of `n` (entry 7). -/
def Device.freeBytes (dv : Device) (n : Nat) : List Byte := (upTo n).map fun i => Config.freeByte (dv.free + i) i

/-- An access through BAR2 waits until the stacks it comes to have come up or failed (R394). -/
def Device.barWait (dv : Device) (port a n : Nat) : Device :=
  (upTo n).foldl (fun (dv : Device) i => match dv.barPlace port (a + i), direct (dv.bar0.apbase + a + i) with
    | .waits, some d => dv.portBringUp (stackOf d)
    | _, _ => dv) dv

/-- The errors of the lines that a read through BAR2 meets (R77). -/
def Device.barMeet (dv : Device) (a n : Nat) : Device :=
  (linePieces (n / 64 + 2) a n).foldl (fun (dv : Device) x => dv.meet (dv.bar0.apbase + x.1) x.2) dv

/-- Whether bytes of a read through BAR2 lie on a line that cannot be read. -/
def Device.barLost (dv : Device) (a n : Nat) : Bool :=
  (linePieces (n / 64 + 2) a n).any fun x => dv.tableLost (dv.bar0.apbase + x.1) x.2

/-- BAR2_ACCESS (R390): what a read returns from a failed stack, or from a line in error, no rule states. -/
def Device.barAccess (dv : Device) (port a : Nat) (op : Bar2Op) : Device :=
  let n := barLen op
  let dv := if decide (port < 4) && dv.hostUp port then dv.barWait port a n else dv
  let places := (upTo n).map fun i => dv.barPlace port (a + i)
  let done (dv : Device) (bs : List Byte) (ur : Bool) : Device := { dv with bar2 := some (bs, ur) }
  if !(decide (port < 4)) || !dv.hostUp port || places.elem .waits then dv
  else if places.elem (.unsupported true) then done dv.refuse (List.replicate n 0xFF#8) true
  else if places.elem (.unsupported false) then done dv (List.replicate n 0xFF#8) true
  else
    match op with
    | .read _ =>
      if places.elem .gone then done { dv with free := dv.free + n } (dv.freeBytes n) false
      else if dv.barLost a n then done { dv.barMeet a n with free := dv.free + n } (dv.freeBytes n) false
      else done (dv.barMeet a n) ((upTo n).map fun i => dv.barByte (a + i)) false
    | .write bs =>
      if places.elem .gone then done dv [] false
      else done (dv.barStores (linePieces (n / 64 + 2) a n) bs) [] false

/-- BAR2_ACCESS (R390). -/
def execBar2Access (port : Nat) (addr : Nat) (op : Bar2Op) (s : State) : Host.Outcome State Fault Refusal :=
  .next (s.withDev fun dv => Device.barAccess dv port addr op)

end Sys2Proof.Machine
end

