-- ==== Sys2Proof/Machine/Kiln.lean ====
section
/-! DEFINITION. The Kiln's commands (R397 to R400, R407). What its algorithms find or make is free (entries 8 and 12). -/

namespace Sys2Proof.Machine

/-- Whether it is a command's turn (R399). -/
def Device.kilnTurn (dv : Device) (p code : Nat) : Bool := dv.kiln.pending.head? == some (p, code)

/-- The request buffer of a port. -/
def Device.kreq (dv : Device) (p : Nat) : List Byte := (dv.box p).kreq.bytes 0 256

/-- A byte of a request. -/
def reqByte (l : List Byte) (i : Nat) : Nat := ((l[i]?).getD 0#8).toNat

/-- Whether every byte of a request outside the ranges that its command uses is zero (R407). -/
def reqClean (l : List Byte) (used : List (Nat × Nat)) : Bool :=
  (upTo 256).all fun i => reqByte l i == 0 || used.any fun u => decide (u.1 ≤ i) && decide (i < u.2)

/-- A digest or nonce filled to 48 bytes. -/
def to48 (l : List Byte) : List Byte := (l ++ List.replicate 48 0#8).take 48

/-- The ready bitmap: bit n for record n (R398). -/
def Device.readyMap (dv : Device) : Nat :=
  (upTo 140).foldl (fun m n => if (dv.readyOf n).ready then m + 2 ^ n else m) 0

/-- The body of an attestation report (R398). -/
def Device.attestBody (dv : Device) (nonce : List Byte) : List Byte :=
  to48 nonce ++ to48 dv.kiln.firmware
    ++ to48 (match dv.kiln.config with
      | some k => k.digest
      | none => [])
    ++ (upTo 48).map Config.importByte ++ valBytes 8 Config.serial.toNat ++ valBytes 2 dv.kiln.svn ++ valBytes 1 dv.kiln.rollback
    ++ valBytes 1 dv.bar0.waferid ++ valBytes 4 dv.kiln.leaf ++ valBytes 18 dv.readyMap ++ valBytes 30 0

/-- KATTEST: body, ECDSA signature, LMS signature and import key; after 2^20 signatures the LMS key is exhausted (R398). -/
def Device.attest (dv : Device) (p : Nat) (nonce : List Byte) : Device :=
  if 2 ^ 20 ≤ dv.kiln.leaf then dv.kilnDone p 5 none
  else
    let resp := dv.attestBody nonce ++ dv.freeBytes 2924 ++ (upTo 97).map fun i => Config.importByte (48 + i)
    { dv with free := dv.free + 2924, kiln := { dv.kiln with leaf := dv.kiln.leaf + 1 } }.kilnDone p 0 (some resp)

/-- KATTEST of a host port (R398, R407). -/
def Device.kattest (dv : Device) (p : Nat) : Device :=
  if !(decide (p < 4)) || !dv.kilnTurn p 1 then dv
  else if !reqClean (dv.kreq p) [(0, 48)] then dv.kilnDone p 1 none
  else dv.attest p ((dv.kreq p).take 48)

/-- KATTEST (R398). -/
def execKattest (port : Nat) (s : State) : Host.Outcome State Fault Refusal := .next (s.withDev fun dv => dv.kattest port)

/-- MGMT_KATTEST: the management port's command, with the nonce written there (R393). -/
def execMgmtKattest (s : State) : Host.Outcome State Fault Refusal :=
  .next (s.withDev fun dv => if dv.kilnTurn 4 1 then dv.attest 4 (dv.mgmt.nonce.bytes 0 48) else dv)

/-- Key material is loaded into a slot bound to a context; a slot that is loaded or bound stays as it is (Table 21-4). -/
def Device.loadKey (dv : Device) (p slot ctx material : Nat) : Device :=
  if dv.kiln.keys.any (fun k => k.slot == slot) then dv.kilnDone p 4 none
  else
    let k : Kiln := { dv.kiln with
      keys := dv.kiln.keys ++ [⟨slot, ctx, material, false⟩]
      material := Nat.max dv.kiln.material (material + 1) }
    { dv with kiln := k }.kilnDone p 0 none

/-- KGEN (R399): new keys are unlike any before. -/
def Device.kgen (dv : Device) (p : Nat) : Device :=
  if !(decide (p < 4)) || !dv.kilnTurn p 2 then dv
  else
    let l := dv.kreq p
    if !reqClean l [(0, 2)] || reqByte l 0 == 0 then dv.kilnDone p 1 none
    else dv.loadKey p (reqByte l 0) (reqByte l 1) dv.kiln.material

/-- KGEN (R399). -/
def execKgen (port : Nat) (s : State) : Host.Outcome State Fault Refusal := .next (s.withDev fun dv => dv.kgen port)

/-- KUNWRAP (R399, R407): whether the blob unwraps, with which status it fails otherwise, and whether its material is new or some
material seen before, are free choices (entry 12). -/
def Device.kunwrap (dv : Device) (p : Nat) : Device :=
  if !(decide (p < 4)) || !dv.kilnTurn p 3 then dv
  else
    let l := dv.kreq p
    if !reqClean l [(0, 2), (8, 105), (112, 216)] || reqByte l 0 == 0 then dv.kilnDone p 1 none
    else if dv.kiln.keys.any (fun k => k.slot == reqByte l 0) then dv.kilnDone p 4 none
    else if Config.freeBit dv.free then dv.draw.kilnDone p (if Config.freeBit (dv.free + 1) then 1 else 2) none
    else dv.draw.draw.draw.loadKey p (reqByte l 0) (reqByte l 1) (1 + (Config.freeWord 0 (dv.free + 2)).toNat % dv.kiln.material)

/-- KUNWRAP (R407). -/
def execKunwrap (port : Nat) (s : State) : Host.Outcome State Fault Refusal := .next (s.withDev fun dv => dv.kunwrap port)

/-- KUNLOAD: the slot is marked, and the command runs on until every port has drained (R76, R399); a slot that is not loaded
leaves nothing to clear. -/
def Device.kunload (dv : Device) (p : Nat) : Device :=
  if !(decide (p < 4)) || !dv.kilnTurn p 4 then dv
  else
    let l := dv.kreq p
    if !reqClean l [(0, 1)] || reqByte l 0 == 0 then dv.kilnDone p 1 none
    else if dv.kiln.keys.any (fun k => k.slot == reqByte l 0) then
      let mark (k : KeySlot) : KeySlot := { k with unloading := k.unloading || k.slot == reqByte l 0 }
      { dv with kiln := { dv.kiln with keys := dv.kiln.keys.map mark } }
    else dv.kilnDone p 0 none

/-- KUNLOAD (R399). -/
def execKunload (port : Nat) (s : State) : Host.Outcome State Fault Refusal := .next (s.withDev fun dv => dv.kunload port)

/-- Whether a translated access uses a key slot. -/
def Xlat.uses (x : Xlat) (slot : Nat) : Bool := x.tgt != 2 && x.key == slot

/-- Whether an access, guard request or copy line of a tile still uses a key slot at a port (R76). -/
def Tile.usesKey (t : Tile) (slot : Nat) : Bool :=
  (t.accs.any fun a => match a.stage with
    | .atTarget x | .locked x _ => x.uses slot
    | _ => false)
    || (t.guards.any fun g => match g.stage with
      | .sent x | .queued x => x.uses slot
      | _ => false)
    || t.lockedLines.any (·.uses slot)

/-- KEY_SLOT_CLEAR: once every port has drained, the slot is cleared and its KUNLOAD ends (R76, R399). -/
def State.keySlotClear (s : State) (slot : Nat) : State :=
  if !(s.dev.kiln.keys.any fun k => k.slot == slot && k.unloading) || (s.core :: s.others).any (fun t => t.usesKey slot) then s
  else
    s.withDev fun dv =>
      let dv := { dv with kiln := { dv.kiln with keys := dv.kiln.keys.filter (·.slot != slot) } }
      match dv.kiln.pending with
      | (p, 4) :: _ => dv.kilnDone p 0 none
      | _ => dv

/-- KEY_SLOT_CLEAR (R76). -/
def execKeySlotClear (slot : Nat) (s : State) : Host.Outcome State Fault Refusal := .next (s.keySlotClear slot)

/-- The bytes of bulk memory from an offset in BAR2 space, once their stacks have come up or failed (R394); none where there is no
memory, or where it cannot be read (entry 83). -/
def Device.barBytes (dv : Device) (a n : Nat) : Option (List Byte) × Device :=
  let at_ := (upTo n).map fun i => direct (dv.bar0.apbase + a + i)
  let dv := at_.foldl (fun (dv : Device) x => match x with
    | some d => dv.portBringUp (stackOf d)
    | none => dv) dv
  if !(decide (a + n ≤ 2 ^ 32)) || at_.any (fun x => match x with
      | some d => dv.portGone (stackOf d)
      | none => true) then (none, dv)
  else if dv.barLost a n then (none, dv.barMeet a n)
  else (some ((upTo n).map fun i => dv.barByte (a + i)), dv.barMeet a n)

/-- Whether an enrolment token passes the checks of R400 on the Kiln as it stands. -/
def enrolGood (k : Kiln) (e : Enrol) : Bool :=
  e.tokenEcdsa && e.tokenLms && e.serial == Config.serial && e.keyDigest == e.carriedDigest && decide (k.enrolCount < e.count)
    && decide (k.enrolCount < 15) && decide (e.count ≤ 15) && (k.operator.isNone || (e.oldEcdsa && e.oldLms))

/-- A configuration is in force: QPORT and PRIV of its queues are set (R346, R399). -/
def Device.applyConfig (dv : Device) (c : KConfig) : Device :=
  let dv := { dv with kiln := { dv.kiln with config := some c } }
  c.queues.foldl (fun (dv : Device) q => if q.1 < 4096 then dv.setQState q.1 (dv.queue q.1).state else dv) dv

/-- A configuration is judged: ENROLMENT where it carries one (R399, R400). -/
def Device.configure (dv : Device) (p : Nat) (bytes : List Byte) : Device :=
  match Config.enrolOf bytes, dv.kiln.operator with
  | some e, _ =>
    let v := Config.configVerdict e.carriedDigest bytes
    if enrolGood dv.kiln e && v.ecdsa && v.lms then
      ({ dv with kiln := { dv.kiln with operator := some e.keyDigest, enrolCount := e.count } }.applyConfig (Config.configOf bytes)).kilnDone
        p 0 none
    else (dv.security).kilnDone p (if e.count ≤ dv.kiln.enrolCount then 3 else 2) none
  | none, some key =>
    let v := Config.configVerdict key bytes
    if v.ecdsa && v.lms then (dv.applyConfig (Config.configOf bytes)).kilnDone p 0 none
    else (dv.security).kilnDone p 2 none
  | none, none => (dv.security).kilnDone p 2 none

/-- KCFG (R399, R400, R407). -/
def Device.kcfg (dv : Device) (p : Nat) : Device :=
  if !(decide (p < 4)) || !dv.kilnTurn p 5 then dv
  else
    let l := dv.kreq p
    if !reqClean l [(0, 12)] then dv.kilnDone p 1 none
    else
      let r := dv.barBytes (bytesVal (l.take 8)) (bytesVal ((l.drop 8).take 4))
      match r.1 with
      | some bytes => r.2.configure p bytes
      | none => r.2.kilnDone p 1 none

/-- KCFG (R399). -/
def execKcfg (port : Nat) (s : State) : Host.Outcome State Fault Refusal := .next (s.withDev fun dv => dv.kcfg port)

/-- KCOMMIT: the anti-rollback counter rises to the SVN of the running firmware, and never falls (R397). -/
def Device.kcommit (dv : Device) (p : Nat) : Device :=
  if !(decide (p < 4)) || !dv.kilnTurn p 6 then dv
  else if !reqClean (dv.kreq p) [] then dv.kilnDone p 1 none
  else { dv with kiln := { dv.kiln with rollback := Nat.max dv.kiln.rollback dv.kiln.svn } }.kilnDone p 0 none

/-- KCOMMIT (R397). -/
def execKcommit (port : Nat) (s : State) : Host.Outcome State Fault Refusal := .next (s.withDev fun dv => dv.kcommit port)

/-- KFWLOAD: a container that passes FIRMWARE_VERIFY resets the device with it; one that does not is refused, and the device holds
every function not ready. A container that cannot be read is a bad argument (R397, R399; entries 20 and 83). -/
def State.kfwload (s : State) (p : Nat) : State :=
  let dv := s.dev
  if !(decide (p < 4)) || !dv.kilnTurn p 7 then s
  else
    let l := dv.kreq p
    let a := bytesVal (l.take 8)
    let r := dv.barBytes a 1
    if !reqClean l [(0, 8)] then s.withDev fun dv => dv.kilnDone p 1 none
    else match r.1, direct (dv.bar0.apbase + a) with
      | some _, some d =>
        let s := { s with dev := r.2 }
        let v := Config.containerVerdict d r.2.hbm
        if verdictGood v dv.kiln.rollback then
          let s := s.withDev fun dv => dv.kilnDone p 0 none
          (s.withDev fun dv => { dv with kiln := { dv.kiln with boot := v } }).resetDevice
        else s.withDev fun dv =>
          let dv := (dv.security).kilnDone p (if v.ecdsa && v.lms && v.imageOk then 3 else 2) none
          { dv with kiln := { dv.kiln with firmwareOk := false } }.holdAll
      | _, _ => { s with dev := r.2.kilnDone p 1 none }

/-- KFWLOAD (R397). -/
def execKfwload (port : Nat) (s : State) : Host.Outcome State Fault Refusal := .next (s.kfwload port)

/-- The step of the command whose turn it is. -/
def Device.kilnSteps (dv : Device) : List Due :=
  (match dv.kiln.pending with
    | (4, _) :: _ => [.mgmtKattest]
    | (p, 1) :: _ => [.kattest p]
    | (p, 2) :: _ => [.kgen p]
    | (p, 3) :: _ => [.kunwrap p]
    | (p, 4) :: _ => if dv.kiln.keys.any (fun k => k.unloading) then [] else [.kunload p]
    | (p, 5) :: _ => [.kcfg p]
    | (p, 6) :: _ => [.kcommit p]
    | (p, 7) :: _ => [.kfwload p]
    | _ => [])
    ++ (dv.kiln.keys.filter (·.unloading)).map fun k => Due.keySlotClear k.slot

end Sys2Proof.Machine
end

