-- ==== Sys2Proof/Machine/I3c.lean ====
section
/-! DEFINITION. The management port (R393): private writes and reads by index (Table 21-7), and the common command codes. -/

namespace Sys2Proof.Machine

/-- What a region reports of its hottest junction, in 1/16 °C: free between the thresholds of R404 that it stands at (entry 7). -/
def Region.reported (x : Region) (f : Nat) : Nat :=
  if x.junction = 0 then (if f % 65536 < 95 * 16 ∨ 32768 ≤ f % 65536 then f % 65536 else f % (95 * 16)) else x.junction * 16 + f % 160

/-- The 8-byte item at an index as a read shows it (Table 21-7); telemetry other than the input voltage is free, that of a region
within what R404 has it report (entry 7). -/
def Device.mgmtItem (dv : Device) (a : Nat) : Nat :=
  if a = 0x0000 then 0xCA001000 + Config.stepping.toNat * 2 ^ 32
  else if a = 0x0008 then dv.bar0.modcap
  else if a = 0x0010 then dv.bar0.seccnt
  else if a = 0x0018 then atBits 0 16 dv.power.mv + atBits 16 32 (Config.freeWord 0 dv.free).toNat + atBits 48 16 (Config.freeWord 0 (dv.free + 1)).toNat
  else if 0x2400 ≤ a ∧ a < 0x2600 then (dv.region ((a - 0x2400) / 8)).dgrant
  else if 0x2600 ≤ a ∧ a < 0x2800 then (dv.region ((a - 0x2600) / 8)).pftset
  else if 0x3800 ≤ a ∧ a < 0x3A00 then
    let f := (Config.freeWord 0 (dv.free + a)).toNat
    atBits 0 16 ((dv.region ((a - 0x3800) / 8)).reported (f / 2 ^ 16)) + atBits 16 16 f
  else if a = 0x3A38 then dv.mgmt.kstat
  else 0

/-- The byte at an index (Table 21-7): zero where nothing is listed, or what is listed is only written. -/
def Device.mgmtByte (dv : Device) (a : Nat) : Byte :=
  if 0x0100 ≤ a ∧ a < 0x2400 then BitVec.ofNat 8 (dv.readyBits ((a - 0x0100) / 64) / 2 ^ (8 * ((a - 0x0100) % 64)))
  else if 0x2800 ≤ a ∧ a < 0x3800 then
    BitVec.ofNat 8 (dv.phys (windowPa 2 ((a - 0x2800) / 64)) 64 / 2 ^ (8 * ((a - 0x2800) % 64)))
  else if 0x4000 ≤ a ∧ a < 0x5000 then (dv.mgmt.kresp[a - 0x4000]?).getD 0#8
  else BitVec.ofNat 8 (dv.mgmtItem (a / 8 * 8) / 2 ^ (8 * (a % 8)))

/-- What a write of part of an item merges into: the registers' own values; the nonce as it stands. -/
def Device.mgmtOld (dv : Device) (a : Nat) : Nat :=
  if 0x3A00 ≤ a ∧ a < 0x3A30 then dv.mgmt.nonce.val (a - 0x3A00) 8 else dv.mgmtItem a

/-- The items that a run of bytes touches, in ascending order: base, and the bytes of it that are written. -/
def itemPieces (idx : Nat) (bytes : List Byte) : List (Nat × List (Nat × Byte)) :=
  let cells := ((upTo bytes.length).zip bytes).map fun x => (idx + x.1, x.2)
  ((cells.map fun c => c.1 / 8).dedup).map fun k => (8 * k, (cells.filter fun c => c.1 / 8 == k).map fun c => (c.1 % 8, c.2))

/-- An item with some of its bytes replaced. -/
def mergeItem (old : Nat) (cells : List (Nat × Byte)) : Nat :=
  bytesVal ((upTo 8).map fun i => ((cells.find? (·.1 == i)).map (·.2)).getD (BitVec.ofNat 8 (old / 2 ^ (8 * i))))

/-- Data written from the index upward, item by item. -/
def State.mgmtData (s : State) (idx : Nat) (bytes : List Byte) : State :=
  (itemPieces idx bytes).foldl (fun (s : State) x =>
    s.mgmtWrite x.1 (BitVec.ofNat 64 (mergeItem (s.dev.mgmtOld x.1) x.2))) s

/-- Changes the management port. -/
def Device.withMgmt (dv : Device) (f : Mgmt → Mgmt) : Device := { dv with mgmt := f dv.mgmt }

/-- The answer of the management port to a command; it works while the power input is in range (R393). -/
def State.mgmtAnswer (s : State) (a : Option (List Byte)) : State := s.withDev fun dv => dv.withMgmt fun m => { m with answer := a }

/-- A command of the management port, which does nothing while the power input is out of range (R393). -/
def State.onMgmt (s : State) (f : State → State) : Host.Outcome State Fault Refusal := .next (if s.dev.power.inRange then f s else s)

/-- I3C_PRIVATE_WRITE: a 2-byte index, then data from that index upward, at most 256 bytes of it (R393). -/
def State.privateWrite (s : State) (bytes : List Byte) : State :=
  match bytes with
  | lo :: hi :: data =>
    let idx := lo.toNat + 256 * hi.toNat
    ((s.withDev fun dv => dv.withMgmt fun m => { m with index := idx }).mgmtData idx (data.take 256)).mgmtAnswer (some [])
  | _ => s.mgmtAnswer (some [])

/-- I3C_PRIVATE_WRITE (R393). -/
def execI3cPrivateWrite (bytes : List Byte) (s : State) : Host.Outcome State Fault Refusal := s.onMgmt fun s => s.privateWrite bytes

/-- I3C_PRIVATE_READ: bytes from the index, at most 64 at a time, which it advances by (R393). -/
def State.privateRead (s : State) (n : Nat) : State :=
  let n := Nat.min n 64
  let i := s.dev.mgmt.index
  let bytes := (upTo n).map fun k => s.dev.mgmtByte ((i + k) % 65536)
  (s.mgmtAnswer (some bytes)).withDev fun dv => { dv.withMgmt fun m => { m with index := (i + n) % 65536 } with free := dv.free + 2 ^ 16 }

/-- I3C_PRIVATE_READ (R393). -/
def execI3cPrivateRead (n : Nat) (s : State) : Host.Outcome State Fault Refusal := s.onMgmt fun s => s.privateRead n

/-- What the standard fixes of a command's answer: `n` bytes (entry 9). -/
def i3cBytes (code n : Nat) : List Byte := (upTo n).map (Config.i3cAnswer code)

/-- ENTDAA: a port without a dynamic address takes the one assigned, answering with its identity (R393; entry 9). -/
def execEntdaa (addr : BitVec 7) (s : State) : Host.Outcome State Fault Refusal :=
  s.onMgmt fun s => if s.dev.mgmt.dyn.isSome then s.mgmtAnswer none
    else (s.mgmtAnswer (some (i3cBytes 0x07 8))).withDev fun dv => dv.withMgmt fun m => { m with dyn := some addr.toNat }

/-- SETDASA: the port, addressed by its static address 0x3A, takes a dynamic one (R393). -/
def execSetdasa (addr : BitVec 7) (s : State) : Host.Outcome State Fault Refusal :=
  s.onMgmt fun s => if s.dev.mgmt.dyn.isSome then s.mgmtAnswer none
    else (s.mgmtAnswer (some [])).withDev fun dv => dv.withMgmt fun m => { m with dyn := some addr.toNat }

/-- RSTDAA: the dynamic address is given up (R393). -/
def execRstdaa (s : State) : Host.Outcome State Fault Refusal :=
  s.onMgmt fun s => (s.mgmtAnswer (some [])).withDev fun dv => dv.withMgmt fun m => { m with dyn := none }

/-- ENEC: bit 0 of the mask enables in-band interrupts (R393; entry 9). -/
def execEnec (mask : Byte) (s : State) : Host.Outcome State Fault Refusal :=
  s.onMgmt fun s => (s.mgmtAnswer (some [])).withDev fun dv => dv.withMgmt fun m => { m with events := m.events || mask.getLsbD 0 }

/-- DISEC: bit 0 of the mask disables them (R393; entry 9). -/
def execDisec (mask : Byte) (s : State) : Host.Outcome State Fault Refusal :=
  s.onMgmt fun s => (s.mgmtAnswer (some [])).withDev fun dv => dv.withMgmt fun m => { m with events := m.events && !mask.getLsbD 0 }

/-- GETPID: the provisioned ID, 6 bytes (R393; entry 9). -/
def execGetpid (s : State) : Host.Outcome State Fault Refusal := s.onMgmt fun s => s.mgmtAnswer (some (i3cBytes 0x8D 6))

/-- GETBCR (R393; entry 9). -/
def execGetbcr (s : State) : Host.Outcome State Fault Refusal := s.onMgmt fun s => s.mgmtAnswer (some (i3cBytes 0x8E 1))

/-- GETDCR (R393; entry 9). -/
def execGetdcr (s : State) : Host.Outcome State Fault Refusal := s.onMgmt fun s => s.mgmtAnswer (some (i3cBytes 0x8F 1))

/-- GETSTATUS: two bytes, which may differ each time (R393; entry 9). -/
def execGetstatus (s : State) : Host.Outcome State Fault Refusal :=
  s.onMgmt fun s => (s.mgmtAnswer (some (s.dev.freeBytes 2))).withDev fun dv => { dv with free := dv.free + 2 }

/-- GETMWL: 258, the high byte first (R393; entry 9). -/
def execGetmwl (s : State) : Host.Outcome State Fault Refusal := s.onMgmt fun s => s.mgmtAnswer (some [0x01#8, 0x02#8])

/-- GETMRL: 64, the high byte first (R393; entry 9). -/
def execGetmrl (s : State) : Host.Outcome State Fault Refusal := s.onMgmt fun s => s.mgmtAnswer (some [0x00#8, 0x40#8])

/-- The codes of the commands that the port answers, broadcast and direct, as MIPI I3C numbers them (R393; entry 9). -/
def supportedCcc : List Nat := [0x00, 0x01, 0x06, 0x07, 0x80, 0x81, 0x86, 0x87, 0x8B, 0x8C, 0x8D, 0x8E, 0x8F, 0x90]

/-- UNSUPPORTED_CCC: no other command is acknowledged (R393). -/
def execUnsupportedCcc (code : Byte) (s : State) : Host.Outcome State Fault Refusal :=
  s.onMgmt fun s => if supportedCcc.elem code.toNat then s else s.mgmtAnswer none

end Sys2Proof.Machine
end

