-- ==== Sys2Proof/Machine/Power.lean ====
section
/-! DEFINITION. Power, heat and the failure of a Flue port (R78, R79, R120, R373, R402 to R404). -/

namespace Sys2Proof.Machine

/-- The grants before R404, as DAMPER_STEP computes them from the requests (R402). -/
def damperGrants (modcap : Nat) (q : List Nat) : List Nat :=
  let sum := q.foldl (· + ·) 0
  if sum ≤ modcap then q
  else
    let g := q.map fun x => x * modcap / sum
    let left := modcap - g.foldl (· + ·) 0
    ((g.zip q).foldl (fun (acc : List Nat × Nat) x =>
      if 0 < acc.2 && decide (x.1 < x.2) then (acc.1 ++ [x.1 + 1], acc.2 - 1) else (acc.1 ++ [x.1], acc.2)) ([], left)).1

/-- A region takes a grant: its voltage cap of R403, the limits of R404, and the clock step that fits it (R402). A region is kept
at nominal voltage while FORCENOM is set, and else may be below it, by a free choice (R373). -/
def Region.take (x : Region) (r : Nat) (capped : Bool) (g : Nat) (low : Bool) : Region :=
  let g := if capped then Nat.min g 80 else g
  let g := if 95 ≤ x.junction then g / 2 else g
  let step := Config.clockStep r g
  let stop := decide (105 ≤ x.junction)
  { x with
    grant := g
    therm := decide (95 ≤ x.junction)
    fstep := if stop then 0 else (step.map fun (k : Fin 17) => k.val).getD 0
    gated := stop || step.isNone
    under := low && !x.forcenom }

/-- The input voltage as the Damper finds it now: back in the normal range, or as it was, by a free choice (R403; entry 11). -/
def Device.voltageNow (dv : Device) : Device :=
  if dv.power.capped && Config.freeBit dv.free then
    { dv.draw.draw with power := { dv.power with capped := false, mv := 50000 + dv.draw.freeBits 32 % 6001 } }
  else dv.draw

/-- A junction as the Damper finds it now: cooled below 95 °C, or as it was, by a free choice (R404; entry 11). -/
def Region.cooled (x : Region) (cool : Bool) : Region := if cool then { x with junction := 0 } else x

/-- DAMPER_STEP (R402, R404). -/
def Device.damperStep (dv : Device) : Device :=
  let dv := dv.voltageNow
  let f := dv.free
  let rs := ((upTo dv.regions.length).zip dv.regions).map fun (x : Nat × Region) => x.2.cooled (Config.freeBit (f + x.1))
  let q := rs.map fun (x : Region) => Nat.min (Nat.min x.req x.ceil) 160
  let g := damperGrants dv.bar0.modcap q
  { dv with
    free := f + 128
    regions := ((upTo rs.length).zip (rs.zip g)).map fun (x : Nat × Region × Nat) =>
      x.2.1.take x.1 dv.power.capped x.2.2 (Config.freeBit (f + 64 + x.1)) }

/-- DAMPER_STEP (R402). -/
def execDamperStep (s : State) : Host.Outcome State Fault Refusal :=
  .next (if s.dev.power.on then s.withDev Device.damperStep else s)

/-- VOLTAGE_WARNING: the input leaves 50 to 56 V and stays within 48 to 58 V: every grant is capped at 80 units and a warning
goes out; the voltage is free within those bounds (R403). -/
def Device.voltageWarning (dv : Device) : Device :=
  let k := dv.freeBits 32 % 4000
  let mv := if k < 2000 then 48000 + k else 56001 + (k - 2000)
  let dv := { dv.draw with
    power := { dv.power with capped := true, mv := mv }
    regions := dv.regions.map fun (x : Region) => { x with grant := Nat.min x.grant 80 } }
  dv.eventAll 0x02#8

/-- VOLTAGE_WARNING (R403). -/
def execVoltageWarning (s : State) : Host.Outcome State Fault Refusal :=
  .next (if s.dev.power.on then s.withDev Device.voltageWarning else s)

/-- What is left when the wafer has lost its power: what the host holds, what the Kiln keeps in fuses, and what has gone out;
nothing else is saved. The management port works on while its input is in range (R393, R403; entry 6). -/
def Device.powerOff (dv : Device) (mv : Nat) : Device :=
  let dv := dv.dropReady
  let k := dv.kiln
  { Device.zero with
    free := dv.free, nextId := dv.nextId, down := dv.down, hosts := dv.hosts, hostSeals := dv.hostSeals
    mgmt := if decide (48000 ≤ mv) && decide (mv ≤ 58000) then { dv.mgmt with kstat := 0, kresp := [] } else Device.zero.mgmt
    remoteOut := dv.remoteOut, msix := dv.msix, power := ⟨false, false, true, mv⟩
    kiln := { Kiln.zero with
      material := k.material, operator := k.operator, enrolCount := k.enrolCount, rollback := k.rollback, leaf := k.leaf
      boot := k.boot } }

/-- The module removes power from the wafer: nothing is saved, and every host link drops (R403). -/
def State.shutdown (s : State) (mv : Nat) : State :=
  { agenda := [], core := Tile.none_, bundle := none, others := [], dev := s.dev.powerOff mv }

/-- POWER_REMOVAL: the input has been below 48 V or above 58 V for 1 ms; the voltage is free within that (R403). -/
def execPowerRemoval (s : State) : Host.Outcome State Fault Refusal :=
  .next (let k := s.dev.freeBits 16
    if s.dev.power.on then (s.withDev Device.draw).shutdown (if k < 48000 then k else k + 10001) else s)

/-- COOLANT_FLOW_SHUTDOWN: module shutdown as in R403 (R404); the power input itself stays in range. -/
def execCoolantFlowShutdown (s : State) : Host.Outcome State Fault Refusal :=
  .next (if s.dev.power.on then s.shutdown s.dev.power.mv else s)

/-- A junction reaches a threshold: the grant is halved, or also the clock stepped down and MX issue gated (R404). -/
def Region.heat (x : Region) (j : Nat) : Region :=
  { x with
    junction := j
    grant := if x.therm then x.grant else x.grant / 2
    therm := true
    fstep := if 105 ≤ j then 0 else x.fstep
    gated := x.gated || decide (105 ≤ j) }

/-- THERMAL_LIMIT: which threshold the junction has crossed is a free choice; at 115 °C the module shuts down (R404). -/
def State.thermalLimit (s : State) (r : Nat) : State :=
  if !s.dev.power.on || !(decide (r < 64)) then s
  else
    let k := s.dev.freeBits 32 % 3
    let s := s.withDev Device.draw
    if k = 2 then s.shutdown s.dev.power.mv
    else s.withDev fun dv => (dv.withRegion r fun x => x.heat (95 + 10 * k)).eventAll 0x02#8

/-- THERMAL_LIMIT (R404). -/
def execThermalLimit (r : Nat) (s : State) : Host.Outcome State Fault Refusal := .next (s.thermalLimit r)

/-- Requests that wait at a failed home port fail with GUARDERR (R120). -/
def State.failWaiters (s : State) (p : Nat) : State :=
  (s.dev.waits.filter fun w => stackOf w.line == p).foldl (fun (s : State) w =>
    (s.unqueue w).answerGuard w.who w.seq (some .guarderr) none) s

/-- A store to a replicated line that was in its write step at the port: it completes on the other replicas, leaves this one
marked poisoned, and is reported, not to the tile (R78). -/
def State.halfCommit (s : State) (p : Nat) (t : Tile) (a : BulkAcc) (x : Xlat) : State :=
  match s.dev.keyOf t.ctx x with
  | .error _ => s
  | .ok key =>
    let mine := x.replicas.filter fun r => stackOf r == p
    let rest := x.replicas.filter fun r => stackOf r != p
    let s := s.withDev fun dv =>
      let dv := rest.foldl (fun (dv : Device) r => dv.writeLine (r / 64 * 64) (r % 64) a.data key false) dv
      let dv := { dv with poison := NatSet.addAll dv.poison (mine.map fun r => r / 64 * 64) }
      dv.sayAt t.ctx 7 .bxrepl false t.coord t.ctl.nodeid.toNat
    s.setTile (t.setAcc { a with stage := .answered none [] none })

/-- A commit under way when a port fails: it may have been in its write step there; where the port was its home it may instead
leave its locks on the other replicas; or it had not begun, as one must that another replica unreachable or locked keeps from
beginning. Which, is a free choice (R78, R79; entry 7). -/
def State.caughtCommit (s : State) (p : Nat) (t : Tile) (a : BulkAcc) : State :=
  match a.stage with
  | .atTarget x =>
    if !a.kind.writes || x.reps.isEmpty || !(x.replicas.any fun r => stackOf r == p)
      || x.replicas.any fun r => s.dev.portGone (stackOf r) || s.dev.locked r then s
    else
      let k := s.dev.freeBits 2
      let s := s.withDev Device.draw
      if k = 0 then s.halfCommit p t a x
      else if decide (k = 1) && stackOf x.pa == p then
        s.withDev fun dv => { dv with locks := dv.locks ++ (x.replicas.filter fun r => stackOf r != p).map fun r => ⟨p, r / 64 * 64⟩ }
      else s
  | _ => s

/-- FLUE_PORT_FAILURE: waiting guard requests fail, commits under way are caught, later accesses to the stack fail with BXECC,
regions take another entry port, and the surviving ports release the failed one's locks next. A port that had come up shows
RETIRED, one whose bring-up it was FAILED (R61, R78, R79, R120, R394, Table 21-2). -/
def State.portFails (s : State) (p : Nat) : State :=
  if !(decide (p < 40)) || s.dev.portGone p then s
  else
    let s := s.failWaiters p
    let ids := (s.core :: s.others).flatMap fun t => t.accs.map fun a => evId t.coord a.seq
    let s := ids.foldl (fun (s : State) id => s.withAcc id fun t a => s.caughtCommit p t a) s
    let s := s.withDev fun dv =>
      (dv.setReady (64 + p) fun x => { x with ready := false, busy := false, failed := !x.ready, retired := x.ready }).setEntries
    if s.dev.locks.any fun l => l.home == p then s.push [.homeLockRelease p] else s

/-- FLUE_PORT_FAILURE (R120). -/
def execFluePortFailure (port : Nat) (s : State) : Host.Outcome State Fault Refusal := .next (s.portFails port)

end Sys2Proof.Machine
end

