-- ==== Sys2Proof/Machine/Refine.lean ====
section
/-! DEFINITION. The refinement loop controller (R363 to R365). -/

namespace Sys2Proof.Machine

/-- WIDEN: FP32 to FP64, exact (R365). -/
def widen64 (w : Nat) : Nat := ((RCtx.full f64 .rne).val (f32.unpack w)).1

/-- The ladder entries of a block (Table 17-7). -/
def blkLadder (b i : Nat) : Word := BitVec.ofNat 32 (bitsOf b (640 + 32 * i) 32)

/-- ACT of an exit reason: 1 stagnated, 2 diverged, 3 reached MAXIT. -/
def blkAct (b e : Nat) : Nat := if e = 1 then bitsOf b 594 2 else if e = 2 then bitsOf b 596 2 else bitsOf b 598 2

/-- The checks of R364 on the block itself. -/
def blkBad (b : Nat) : Bool :=
  let tau := f64.unpack (bitsOf b 384 64)
  let sigma := f64.unpack (bitsOf b 448 64)
  let rho := f64.unpack (bitsOf b 512 64)
  bitsOf b 960 64 != 0 || bitsOf b 864 32 != 0 || bitsOf b 806 26 != 0 || bitsOf b 788 12 != 0 || bitsOf b 600 40 != 0
    || bitOf b 319 || bitsOf b 576 16 == 0 || decide (2 ≤ blkAct b 1) || decide (2 ≤ blkAct b 2) || decide (2 ≤ blkAct b 3)
    || tau.isNan || fcmp 2 tau (.zero false) || !(fcmp 2 (.zero false) sigma && fcmp 3 sigma rho)
    || ((upTo (bitsOf b 592 2 + 1)).any fun i => fmtRefused (blkLadder b i)) || decide (bitsOf b 280 12 < bitsOf b 304 12)

/-- The check of R364 on the norm tree: the combine entries NTREE of the route image of the residual graph's node
(entry 81). -/
def Device.normTreeBad (dv : Device) (ctx b : Nat) : Except Cause Bool × Device :=
  let r := dv.hRead ctx (bitsOf b 128 64 + 128 * bitsOf b 304 12) 128
  match r.1 with
  | .error c => (.error c, r.2)
  | .ok bytes =>
    let n := newNode 0 0 0 (bytesVal bytes) 0 []
    let size := n.place.size
    if n.field 576 64 = 0 then (.ok true, r.2)
    else
      let q := r.2.readImage ctx (n.field 576 64) (576 * size)
      match q.1 with
      | .error c => (.error c, q.2)
      | .ok img =>
        let es := ((upTo size).map fun k => imageEntry (img.drop (576 * k)) (64 + bitsOf b 316 3)).filter entryV
        (.ok (es.isEmpty || es.any fun e => bitOf e.toNat 54 || bitsOf e.toNat 52 2 != 1), q.2)

/-- A graph of the loop: its address, its nodes, the fmt appended to its presets (R364). -/
def LoopCtl.graphAt (l : LoopCtl) (a : LoopAt) : Nat × Nat × Option Word :=
  let b := l.blk
  let i : Nat := match a with
    | .fact => 0
    | .solv => 1
    | .res => 2
    | .corr => 3
  (bitsOf b (64 * i) 64, bitsOf b (256 + 12 * i) 12 + 1, if i < 2 then some (blkLadder b l.lvl) else none)

/-- Replaces a loop. -/
def Device.setLoop (dv : Device) (l : LoopCtl) : Device :=
  { dv with loops := l :: dv.loops.filter fun x => x.queue != l.queue || x.uid != l.uid }

/-- A loop is over. -/
def Device.dropLoop (dv : Device) (l : LoopCtl) : Device :=
  { dv with loops := dv.loops.filter fun x => x.queue != l.queue || x.uid != l.uid }

/-- The tag of a loop's packet. -/
def Device.loopTag (dv : Device) (l : LoopCtl) : Option Nat :=
  ((dv.queue l.queue).packets.find? (·.uid == l.uid)).map fun p => pktTag p.bits

/-- A fault of a block access: the queue halts and the packet completes (R364). -/
def State.loopFault (s : State) (l : LoopCtl) (c : Cause) : State :=
  State.afterStart { s with dev :=
    ((s.dev.dropLoop l).haltQueue l.queue c (s.dev.loopTag l) false).completePacket l.queue l.uid } l.queue

/-- FINISH: EXIT is written, the rest of its byte, LEVEL with it, as it was last read or written, and the packet completes (R365;
entry 81). -/
def State.finishLoop (s : State) (l : LoopCtl) (e : Nat) : State :=
  let r := s.dev.hWrite l.ctx (l.blkva + 100) (valBytes 1 (l.shown / 16 * 16 + e))
  let s := { s with dev := r.2 }
  match r.1 with
  | some c => s.loopFault l c
  | none => State.afterStart { s with dev := (s.dev.dropLoop l).completePacket l.queue l.uid } l.queue

/-- The loop ends with EXIT 4 and a fatal record that carries a cause code (R364). -/
def State.failLoopAs (s : State) (l : LoopCtl) (code nodeid : Nat) : State :=
  (s.withDev fun dv => dv.sayCode l.ctx 8 code true (l.queue / 64) nodeid l.queue).finishLoop l 4

/-- The loop ends with EXIT 4 and a fatal record (R364). -/
def State.failLoop (s : State) (l : LoopCtl) (c : Cause) (nodeid : Nat) : State := s.failLoopAs l c.code nodeid

/-- RUN: the graph is launched as R354 has it, without a status line; one that is refused has failed, and a context that is not valid
halts the queue (R354, R364). -/
def State.runLoop (s : State) (l : LoopCtl) (a : LoopAt) : State :=
  if !s.dev.ctxValid l.ctx then s.loopFault l .illfld
  else
  let x := l.graphAt a
  let gseq := bitsOf l.blk 768 20
  let r := s.dev.readGraph l.ctx x.1 x.2.1
  let s := { s with dev := r.2 }
  match r.1 with
  | .error c => (s.withDev fun dv => dv.say l.ctx 4 c true (l.queue / 64) 0 0 none).failLoop l c 0
  | .ok g =>
    let k := s.dev.takeGraph l.queue l.ctx gseq x.1 none x.2.2 g
    { s with dev := k.2.setLoop { l with graph := k.1, at_ := a } }

/-- REFINE: the block is read and checked, and the factor graph runs (R363, R364). -/
def State.refineStart (s : State) (q : Nat) (p : Packet) : State :=
  let ctx := (s.dev.queue q).ctx
  let va := bitsOf p.bits 64 64
  let dv := s.dev.startPacket q p.uid []
  let r := dv.hRead ctx va 128
  let l0 : LoopCtl := ⟨q, p.uid, ctx, va, 0, 0, .fact, 0, 0, 0, none, 0, 0⟩
  let s := { s with dev := r.2 }
  match r.1 with
  | .error c => s.loopFault l0 c
  | .ok bytes =>
    let l := { l0 with blk := bytesVal bytes, shown := bitsOf (bytesVal bytes) 800 8 }
    if blkBad l.blk then s.failLoop l .illfld 0
    else
      let t := s.dev.normTreeBad ctx l.blk
      let s := { s with dev := t.2 }
      match t.1 with
      | .error c => s.loopFault l c
      | .ok true => s.failLoop l .illfld 0
      | .ok false => (s.runLoop l .fact).afterStart q

/-- REFINE (R363). -/
def execRefine (q : Nat) (s : State) : Host.Outcome State Fault Refusal :=
  .next (match s.dev.begun q 6 with
    | some p => s.refineStart q p
    | none => s)

/-- The tests of the loop on a norm r: the exit reason, none to go on (R365). -/
def loopTest (b : Nat) (r : Nat) (prev : Option Nat) (k : Nat) : Option Nat :=
  let v := f64.unpack r
  let tau := f64.unpack (bitsOf b 384 64)
  let times (x : Nat) : FVal := (f64.unpack (bitsOf b x 64)).times (f64.unpack (prev.getD 0))
  if v.isNan || v == .inf false then some 2
  else if fcmp 3 v tau then some 0
  else if prev.isSome && fcmp 4 v (times 512) then some 2
  else if prev.isSome && fcmp 4 v (times 448) then some 1
  else if bitsOf b 576 16 ≤ k then some 3
  else none

/-- The record of an exit that did not converge (R365). -/
def exitCause (e : Nat) : Cause := if e = 1 then .rlcstag else if e = 2 then .rlcdiv else .rlcmax

/-- The loop leaves its inner loop: it finishes, or climbs the ladder (R365). -/
def State.loopExit (s : State) (l : LoopCtl) (e : Nat) : State :=
  if e = 0 then s.finishLoop l 0
  else if blkAct l.blk e = 1 && decide (l.lvl < bitsOf l.blk 592 2) then
    s.runLoop { l with lvl := l.lvl + 1, k := 0, prev := none } .fact
  else
    (s.withDev fun dv => dv.report (recordOf l.ctx 8 (exitCause e) false (l.queue / 64) 0 l.queue
      (BitVec.ofNat 64 (atBits 0 32 l.iter + atBits 32 2 l.lvl)))).finishLoop l e

/-- A residual has been evaluated: its norm is read, STATUS written, and the tests made (R365). -/
def State.loopNorm (s : State) (l : LoopCtl) : State :=
  let w := s.dev.hRead l.ctx (bitsOf l.blk 320 64) 4
  let s := { s with dev := w.2 }
  match w.1 with
  | .error c => s.failLoop l c 0
  | .ok bytes =>
    let r := widen64 (bytesVal bytes)
    let l := { l with k := l.k + 1, iter := (l.iter + 1) % 2 ^ 32, norm := r, shown := 15 + 16 * l.lvl }
    let st := s.dev.hWrite l.ctx (l.blkva + 100) (valBytes 1 l.shown ++ valBytes 3 0 ++ valBytes 4 l.iter ++ valBytes 4 0
      ++ valBytes 8 r)
    let s := { s with dev := st.2 }
    match st.1 with
    | some c => s.loopFault l c
    | none => match loopTest l.blk r l.prev l.k with
      | some e => s.loopExit l e
      | none => s.runLoop { l with prev := some r } .corr

/-- REFINE_STEP: a graph of a loop of the queue has ended; the controller goes on (R365). -/
def State.refineStep (s : State) (q : Nat) : State :=
  match s.dev.loops.find? fun l => l.queue == q && ((s.dev.graph? l.graph).map (·.ended)).getD false with
  | none => s
  | some l =>
    match s.dev.graph? l.graph with
    | none => s
    | some g =>
      if 0 < g.nfail then
        s.failLoopAs l g.fcause (atBits 12 20 g.gseq + atBits 0 12 g.fnode)
      else
        match l.at_ with
        | .fact => s.runLoop l .solv
        | .solv => s.runLoop { l with k := 0, prev := none } .res
        | .res => s.loopNorm l
        | .corr => s.runLoop l .res

/-- REFINE_STEP (R365). -/
def execRefineStep (q : Nat) (s : State) : Host.Outcome State Fault Refusal := .next (s.refineStep q)

end Sys2Proof.Machine
end

