-- ==== Sys2Proof/Machine/Dispatch.lean ====
section
/-! DEFINITION. The dispatch: one arm for each instruction, each a call of its meaning. -/

namespace Sys2Proof.Machine

/-- What an instruction does: a slot of a bundle, or a step of the device around the tile. -/
def exec (i : Instr) (s : State) : Host.Outcome State Fault Refusal :=
  match i with
  | .nop h => Sys2Proof.Machine.execNop h s
  | .add h d a b => Sys2Proof.Machine.execAdd h d a b s
  | .sub h d a b => Sys2Proof.Machine.execSub h d a b s
  | .and h d a b => Sys2Proof.Machine.execAnd h d a b s
  | .or h d a b => Sys2Proof.Machine.execOr h d a b s
  | .xor h d a b => Sys2Proof.Machine.execXor h d a b s
  | .andn h d a b => Sys2Proof.Machine.execAndn h d a b s
  | .shl h d a b => Sys2Proof.Machine.execShl h d a b s
  | .shr h d a b => Sys2Proof.Machine.execShr h d a b s
  | .sar h d a b => Sys2Proof.Machine.execSar h d a b s
  | .rotl h d a b => Sys2Proof.Machine.execRotl h d a b s
  | .mul h d a b u => Sys2Proof.Machine.execMul h d a b u s
  | .mulh h d a b u => Sys2Proof.Machine.execMulh h d a b u s
  | .min h d a b u => Sys2Proof.Machine.execMin h d a b u s
  | .max h d a b u => Sys2Proof.Machine.execMax h d a b u s
  | .cmp h p a b cond => Sys2Proof.Machine.execCmp h p a b cond s
  | .sel h d a b p => Sys2Proof.Machine.execSel h d a b p s
  | .clz h d a => Sys2Proof.Machine.execClz h d a s
  | .ctz h d a => Sys2Proof.Machine.execCtz h d a s
  | .popc h d a => Sys2Proof.Machine.execPopc h d a s
  | .brev h d a => Sys2Proof.Machine.execBrev h d a s
  | .bfx h d a b sx => Sys2Proof.Machine.execBfx h d a b sx s
  | .bfi h d a b => Sys2Proof.Machine.execBfi h d a b s
  | .div h d a b t u => Sys2Proof.Machine.execDiv h d a b t u s
  | .rem h d a b t u => Sys2Proof.Machine.execRem h d a b t u s
  | .addi h d a i0 => Sys2Proof.Machine.execAddi h d a i0 s
  | .andi h d a i0 => Sys2Proof.Machine.execAndi h d a i0 s
  | .ori h d a i0 => Sys2Proof.Machine.execOri h d a i0 s
  | .xori h d a i0 => Sys2Proof.Machine.execXori h d a i0 s
  | .shli h d a k => Sys2Proof.Machine.execShli h d a k s
  | .shri h d a k => Sys2Proof.Machine.execShri h d a k s
  | .sari h d a k => Sys2Proof.Machine.execSari h d a k s
  | .cmpeqi h p a i0 => Sys2Proof.Machine.execCmpeqi h p a i0 s
  | .cmplti h p a i0 => Sys2Proof.Machine.execCmplti h p a i0 s
  | .cmpltui h p a i0 => Sys2Proof.Machine.execCmpltui h p a i0 s
  | .muli h d a i0 => Sys2Proof.Machine.execMuli h d a i0 s
  | .movi h d i0 => Sys2Proof.Machine.execMovi h d i0 s
  | .movhi h d i0 => Sys2Proof.Machine.execMovhi h d i0 s
  | .xtoa h d a => Sys2Proof.Machine.execXtoa h d a s
  | .atox h d a => Sys2Proof.Machine.execAtox h d a s
  | .xtov h d a lane => Sys2Proof.Machine.execXtov h d a lane s
  | .vtox h d a lane => Sys2Proof.Machine.execVtox h d a lane s
  | .xtop h p a => Sys2Proof.Machine.execXtop h p a s
  | .ptox h d p => Sys2Proof.Machine.execPtox h d p s
  | .ldb h s0 bs o q t => Sys2Proof.Machine.execLdb h s0 bs o q t s
  | .ldbu h s0 bs o q t => Sys2Proof.Machine.execLdbu h s0 bs o q t s
  | .ldh h s0 bs o q t => Sys2Proof.Machine.execLdh h s0 bs o q t s
  | .ldhu h s0 bs o q t => Sys2Proof.Machine.execLdhu h s0 bs o q t s
  | .ldw h s0 bs o q t => Sys2Proof.Machine.execLdw h s0 bs o q t s
  | .stb h s0 bs o q => Sys2Proof.Machine.execStb h s0 bs o q s
  | .sth h s0 bs o q => Sys2Proof.Machine.execSth h s0 bs o q s
  | .stw h s0 bs o q => Sys2Proof.Machine.execStw h s0 bs o q s
  | .ldv h s0 bs o q t => Sys2Proof.Machine.execLdv h s0 bs o q t s
  | .stv h s0 bs o q => Sys2Proof.Machine.execStv h s0 bs o q s
  | .ldvb h s0 bs o q t => Sys2Proof.Machine.execLdvb h s0 bs o q t s
  | .ldvg h s0 bs o q t => Sys2Proof.Machine.execLdvg h s0 bs o q t s
  | .stvg h s0 bs o q => Sys2Proof.Machine.execStvg h s0 bs o q s
  | .ldt h r bs o col q t => Sys2Proof.Machine.execLdt h r bs o col q t s
  | .stt h r bs o col q => Sys2Proof.Machine.execStt h r bs o col q s
  | .spill h f bs n c t => Sys2Proof.Machine.execSpill h f bs n c t s
  | .fill h f bs n c t => Sys2Proof.Machine.execFill h f bs n c t s
  | .aadd h d bs a o t => Sys2Proof.Machine.execAadd h d bs a o t s
  | .aand h d bs a o t => Sys2Proof.Machine.execAand h d bs a o t s
  | .aor h d bs a o t => Sys2Proof.Machine.execAor h d bs a o t s
  | .axor h d bs a o t => Sys2Proof.Machine.execAxor h d bs a o t s
  | .amin h d bs a o t => Sys2Proof.Machine.execAmin h d bs a o t s
  | .amax h d bs a o t => Sys2Proof.Machine.execAmax h d bs a o t s
  | .aminu h d bs a o t => Sys2Proof.Machine.execAminu h d bs a o t s
  | .amaxu h d bs a o t => Sys2Proof.Machine.execAmaxu h d bs a o t s
  | .afadd h d bs a o t => Sys2Proof.Machine.execAfadd h d bs a o t s
  | .aswap h d bs a o t => Sys2Proof.Machine.execAswap h d bs a o t s
  | .acas h d bs a o t => Sys2Proof.Machine.execAcas h d bs a o t s
  | .barinit h s0 bs o => Sys2Proof.Machine.execBarinit h s0 bs o s
  | .bararr h s0 bs o t => Sys2Proof.Machine.execBararr h s0 bs o t s
  | .bartxAdd h s0 bs o => Sys2Proof.Machine.execBartxAdd h s0 bs o s
  | .bartxDec h s0 bs o => Sys2Proof.Machine.execBartxDec h s0 bs o s
  | .barwait h s0 bs o => Sys2Proof.Machine.execBarwait h s0 bs o s
  | .barrd h s0 bs o k t => Sys2Proof.Machine.execBarrd h s0 bs o k t s
  | .feset h s0 bs o => Sys2Proof.Machine.execFeset h s0 bs o s
  | .feclr h s0 bs o => Sys2Proof.Machine.execFeclr h s0 bs o s
  | .ferd h s0 bs o t => Sys2Proof.Machine.execFerd h s0 bs o t s
  | .bldw h s0 bs bb t => Sys2Proof.Machine.execBldw h s0 bs bb t s
  | .bldd h s0 bs bb t => Sys2Proof.Machine.execBldd h s0 bs bb t s
  | .bstw h s0 bs bb t => Sys2Proof.Machine.execBstw h s0 bs bb t s
  | .bstd h s0 bs bb t => Sys2Proof.Machine.execBstd h s0 bs bb t s
  | .lea h d a i0 => Sys2Proof.Machine.execLea h d a i0 s
  | .adda h d a s0 sh => Sys2Proof.Machine.execAdda h d a s0 sh s
  | .vadd h d a b t n => Sys2Proof.Machine.execVadd h d a b t n s
  | .vsub h d a b t n => Sys2Proof.Machine.execVsub h d a b t n s
  | .vmul h d a b t n => Sys2Proof.Machine.execVmul h d a b t n s
  | .vfma h d a b t n => Sys2Proof.Machine.execVfma h d a b t n s
  | .vfms h d a b t n => Sys2Proof.Machine.execVfms h d a b t n s
  | .vfnma h d a b t n => Sys2Proof.Machine.execVfnma h d a b t n s
  | .vdiv h d a b t n => Sys2Proof.Machine.execVdiv h d a b t n s
  | .vsqrt h d a t n => Sys2Proof.Machine.execVsqrt h d a t n s
  | .vrsqrt h d a t n => Sys2Proof.Machine.execVrsqrt h d a t n s
  | .vrcp h d a t n => Sys2Proof.Machine.execVrcp h d a t n s
  | .vmin h d a b t n => Sys2Proof.Machine.execVmin h d a b t n s
  | .vmax h d a b t n => Sys2Proof.Machine.execVmax h d a b t n s
  | .vabs h d a t n => Sys2Proof.Machine.execVabs h d a t n s
  | .vneg h d a t n => Sys2Proof.Machine.execVneg h d a t n s
  | .vmaxa h d a b t n => Sys2Proof.Machine.execVmaxa h d a b t n s
  | .vcmp h d a b cond => Sys2Proof.Machine.execVcmp h d a b cond s
  | .vsgn h p all pos a t => Sys2Proof.Machine.execVsgn h p all pos a t s
  | .vthr h p all ge a b t => Sys2Proof.Machine.execVthr h p all ge a b t s
  | .vsel h d a b t => Sys2Proof.Machine.execVsel h d a b t s
  | .vmov h d a t => Sys2Proof.Machine.execVmov h d a t s
  | .vcvt h d a code t => Sys2Proof.Machine.execVcvt h d a code t s
  | .vred h d a t n => Sys2Proof.Machine.execVred h d a t n s
  | .vdot h d a b t n => Sys2Proof.Machine.execVdot h d a b t n s
  | .viadd h d a b t => Sys2Proof.Machine.execViadd h d a b t s
  | .visub h d a b t => Sys2Proof.Machine.execVisub h d a b t s
  | .vimul h d a b t => Sys2Proof.Machine.execVimul h d a b t s
  | .vand h d a b t => Sys2Proof.Machine.execVand h d a b t s
  | .vor h d a b t => Sys2Proof.Machine.execVor h d a b t s
  | .vxor h d a b t => Sys2Proof.Machine.execVxor h d a b t s
  | .vshli h d a k t => Sys2Proof.Machine.execVshli h d a k t s
  | .vshri h d a k t => Sys2Proof.Machine.execVshri h d a k t s
  | .vsari h d a k t => Sys2Proof.Machine.execVsari h d a k t s
  | .vshuf h d a b t => Sys2Proof.Machine.execVshuf h d a b t s
  | .vbcst h d a lane t => Sys2Proof.Machine.execVbcst h d a lane t s
  | .viota h d a t => Sys2Proof.Machine.execViota h d a t s
  | .vclamp h d a b t => Sys2Proof.Machine.execVclamp h d a b t s
  | .vrndb h d a t => Sys2Proof.Machine.execVrndb h d a t s
  | .vimin h d a b t u => Sys2Proof.Machine.execVimin h d a b t u s
  | .vimax h d a b t u => Sys2Proof.Machine.execVimax h d a b t u s
  | .vcmpi h d a i0 cond => Sys2Proof.Machine.execVcmpi h d a i0 cond s
  | .ringdef h r f n => Sys2Proof.Machine.execRingdef h r f n s
  | .ringrst h r => Sys2Proof.Machine.execRingrst h r s
  | .mxw h src t => Sys2Proof.Machine.execMxw h src t s
  | .mxf h z src t => Sys2Proof.Machine.execMxf h z src t s
  | .mxr h z src t => Sys2Proof.Machine.execMxr h z src t s
  | .mxp h z va sb t => Sys2Proof.Machine.execMxp h z va sb t s
  | .mxz h z src t => Sys2Proof.Machine.execMxz h z src t s
  | .mxo h dst z t => Sys2Proof.Machine.execMxo h dst z t s
  | .mxq h dst z t => Sys2Proof.Machine.execMxq h dst z t s
  | .xpt h dst src t => Sys2Proof.Machine.execXpt h dst src t s
  | .xpc h dst src code t => Sys2Proof.Machine.execXpc h dst src code t s
  | .upadm h w g m v t => Sys2Proof.Machine.execUpadm h w g m v t s
  | .upsgd h w g m t => Sys2Proof.Machine.execUpsgd h w g m t s
  | .upaxp h y x t => Sys2Proof.Machine.execUpaxp h y x t s
  | .rnmask h dst sr sc t => Sys2Proof.Machine.execRnmask h dst sr sc t s
  | .rnuni h dst sr sc t => Sys2Proof.Machine.execRnuni h dst sr sc t s
  | .chsendv h c v k t => Sys2Proof.Machine.execChsendv h c v k t s
  | .chsendt h c src t => Sys2Proof.Machine.execChsendt h c src t s
  | .chsendm h c bs l k t => Sys2Proof.Machine.execChsendm h c bs l k t s
  | .chrecv h c bs sink => Sys2Proof.Machine.execChrecv h c bs sink s
  | .chred h j v cnt32 int t => Sys2Proof.Machine.execChred h j v cnt32 int t s
  | .charr h c bs l t => Sys2Proof.Machine.execCharr h c bs l t s
  | .chwin h c l k => Sys2Proof.Machine.execChwin h c l k s
  | .chseq h c l => Sys2Proof.Machine.execChseq h c l s
  | .cbopen h sc handler => Sys2Proof.Machine.execCbopen h sc handler s
  | .cbclose h => Sys2Proof.Machine.execCbclose h s
  | .portw h l t => Sys2Proof.Machine.execPortw h l t s
  | .bnop h => Sys2Proof.Machine.execBnop h s
  | .br h o hint => Sys2Proof.Machine.execBr h o hint s
  | .call h o hint => Sys2Proof.Machine.execCall h o hint s
  | .ret h => Sys2Proof.Machine.execRet h s
  | .jr h a => Sys2Proof.Machine.execJr h a s
  | .loopset h d n mod => Sys2Proof.Machine.execLoopset h d n mod s
  | .loopsetPop h => Sys2Proof.Machine.execLoopsetPop h s
  | .loop h o hint => Sys2Proof.Machine.execLoop h o hint s
  | .loopc h o hint => Sys2Proof.Machine.execLoopc h o hint s
  | .setfmt h d => Sys2Proof.Machine.execSetfmt h d s
  | .setc h d n => Sys2Proof.Machine.execSetc h d n s
  | .getc h d n => Sys2Proof.Machine.execGetc h d n s
  | .pand h d a b => Sys2Proof.Machine.execPand h d a b s
  | .por h d a b => Sys2Proof.Machine.execPor h d a b s
  | .pxor h d a b => Sys2Proof.Machine.execPxor h d a b s
  | .pandn h d a b => Sys2Proof.Machine.execPandn h d a b s
  | .pmov h d a => Sys2Proof.Machine.execPmov h d a s
  | .endTask h => Sys2Proof.Machine.execEndTask h s
  | .trap h n => Sys2Proof.Machine.execTrap h n s
  | .rft h => Sys2Proof.Machine.execRft h s
  | .bkpt h n => Sys2Proof.Machine.execBkpt h n s
  | .wait h m hold => Sys2Proof.Machine.execWait h m hold s
  | .fence h s0 => Sys2Proof.Machine.execFence h s0 s
  | .acq h bs bb shared t => Sys2Proof.Machine.execAcq h bs bb shared t s
  | .rel h bs bb t => Sys2Proof.Machine.execRel h bs bb t s
  | .waitfe h s0 bs => Sys2Proof.Machine.execWaitfe h s0 bs s
  | .cewait h s0 ch => Sys2Proof.Machine.execCewait h s0 ch s
  | .waitall h hold => Sys2Proof.Machine.execWaitall h hold s
  | .invalidBundle cause slot => Sys2Proof.Machine.execInvalidBundle cause slot s
  | .storePerform c => Sys2Proof.Machine.execStorePerform c s
  | .copyRow c ch => Sys2Proof.Machine.execCopyRow c ch s
  | .copyComplete c ch => Sys2Proof.Machine.execCopyComplete c ch s
  | .feWaitTimeout c => Sys2Proof.Machine.execFeWaitTimeout c s
  | .sendWaitTimeout c => Sys2Proof.Machine.execSendWaitTimeout c s
  | .barwaitTimeout c => Sys2Proof.Machine.execBarwaitTimeout c s
  | .producerLand c => Sys2Proof.Machine.execProducerLand c s
  | .vDecide c => Sys2Proof.Machine.execVDecide c s
  | .engineFire c e => Sys2Proof.Machine.execEngineFire c e s
  | .engineComplete c e => Sys2Proof.Machine.execEngineComplete c e s
  | .routeFlit k => Sys2Proof.Machine.execRouteFlit k s
  | .linkResend c d => Sys2Proof.Machine.execLinkResend c d s
  | .linkDown c d => Sys2Proof.Machine.execLinkDown c d s
  | .receive c ich => Sys2Proof.Machine.execReceive c ich s
  | .creditArrive c och => Sys2Proof.Machine.execCreditArrive c och s
  | .sendFaultNotice c och => Sys2Proof.Machine.execSendFaultNotice c och s
  | .remoteArrival c ich => Sys2Proof.Machine.execRemoteArrival c ich s
  | .arrivalResult c och => Sys2Proof.Machine.execArrivalResult c och s
  | .reductionInput c j p => Sys2Proof.Machine.execReductionInput c j p s
  | .heldResultDeliver c j => Sys2Proof.Machine.execHeldResultDeliver c j s
  | .roundAbandon c j => Sys2Proof.Machine.execRoundAbandon c j s
  | .abandonNotice c j => Sys2Proof.Machine.execAbandonNotice c j s
  | .bulkRequest id => Sys2Proof.Machine.execBulkRequest id s
  | .faultRecordRelease ctx => Sys2Proof.Machine.execFaultRecordRelease ctx s
  | .retryReplay port word => Sys2Proof.Machine.execRetryReplay port word s
  | .retryAbort port word => Sys2Proof.Machine.execRetryAbort port word s
  | .portwAtPort id => Sys2Proof.Machine.execPortwAtPort id s
  | .bulkPerform id => Sys2Proof.Machine.execBulkPerform id s
  | .replicaCommit id => Sys2Proof.Machine.execReplicaCommit id s
  | .lockedReadResume id => Sys2Proof.Machine.execLockedReadResume id s
  | .lockedReadTimeout id => Sys2Proof.Machine.execLockedReadTimeout id s
  | .homeLockRelease port => Sys2Proof.Machine.execHomeLockRelease port s
  | .hostTimeout id => Sys2Proof.Machine.execHostTimeout id s
  | .requestAcceptTimeout id => Sys2Proof.Machine.execRequestAcceptTimeout id s
  | .externalLinkDrop l => Sys2Proof.Machine.execExternalLinkDrop l s
  | .bulkResponse id => Sys2Proof.Machine.execBulkResponse id s
  | .acqAtHome id => Sys2Proof.Machine.execAcqAtHome id s
  | .guardWaitTimeout id => Sys2Proof.Machine.execGuardWaitTimeout id s
  | .relDepart id => Sys2Proof.Machine.execRelDepart id s
  | .relAtHome id => Sys2Proof.Machine.execRelAtHome id s
  | .guardResponse id => Sys2Proof.Machine.execGuardResponse id s
  | .hearthGuardRelease node => Sys2Proof.Machine.execHearthGuardRelease node s
  | .pairCompare c => Sys2Proof.Machine.execPairCompare c s
  | .pairTimeout c => Sys2Proof.Machine.execPairTimeout c s
  | .trapTake c => Sys2Proof.Machine.execTrapTake c s
  | .trapRecordRelease ctx => Sys2Proof.Machine.execTrapRecordRelease ctx s
  | .containmentAbort c => Sys2Proof.Machine.execContainmentAbort c s
  | .preemptStop c => Sys2Proof.Machine.execPreemptStop c s
  | .stopAck c u => Sys2Proof.Machine.execStopAck c u s
  | .savePhase node => Sys2Proof.Machine.execSavePhase node s
  | .preemptComplete node => Sys2Proof.Machine.execPreemptComplete node s
  | .restore node => Sys2Proof.Machine.execRestore node s
  | .launchNode node => Sys2Proof.Machine.execLaunchNode node s
  | .startMulticast node => Sys2Proof.Machine.execStartMulticast node s
  | .tileStart c => Sys2Proof.Machine.execTileStart c s
  | .nodeComplete node => Sys2Proof.Machine.execNodeComplete node s
  | .nodeFail node => Sys2Proof.Machine.execNodeFail node s
  | .shiftMigration c => Sys2Proof.Machine.execShiftMigration c s
  | .migrationRemap k => Sys2Proof.Machine.execMigrationRemap k s
  | .migrationTimeout k => Sys2Proof.Machine.execMigrationTimeout k s
  | .hearthFrame h => Sys2Proof.Machine.execHearthFrame h s
  | .hearthStop h => Sys2Proof.Machine.execHearthStop h s
  | .qbroken q => Sys2Proof.Machine.execQbroken q s
  | .nopPacket q => Sys2Proof.Machine.execNopPacket q s
  | .launch q => Sys2Proof.Machine.execLaunch q s
  | .ibcall q => Sys2Proof.Machine.execIbcall q s
  | .signal q => Sys2Proof.Machine.execSignal q s
  | .waitv q => Sys2Proof.Machine.execWaitv q s
  | .copy q => Sys2Proof.Machine.execCopy q s
  | .refine q => Sys2Proof.Machine.execRefine q s
  | .refineStep q => Sys2Proof.Machine.execRefineStep q s
  | .preemptPacket q => Sys2Proof.Machine.execPreemptPacket q s
  | .resume q => Sys2Proof.Machine.execResume q s
  | .lichen q => Sys2Proof.Machine.execLichen q s
  | .mapsync q => Sys2Proof.Machine.execMapsync q s
  | .rasWindow r => Sys2Proof.Machine.execRasWindow r s
  | .shadowReplay c e => Sys2Proof.Machine.execShadowReplay c e s
  | .lichenPassStart c => Sys2Proof.Machine.execLichenPassStart c s
  | .lichenPassEnd c => Sys2Proof.Machine.execLichenPassEnd c s
  | .exposureReportWrite q => Sys2Proof.Machine.execExposureReportWrite q s
  | .injctlWrite req r v => Sys2Proof.Machine.execInjctlWrite req r v s
  | .bringUp => Sys2Proof.Machine.execBringUp s
  | .fluePortBringUp port => Sys2Proof.Machine.execFluePortBringUp port s
  | .regionBringUp r => Sys2Proof.Machine.execRegionBringUp r s
  | .mapBuild r => Sys2Proof.Machine.execMapBuild r s
  | .hostLinkUp port => Sys2Proof.Machine.execHostLinkUp port s
  | .opticalPortReady port => Sys2Proof.Machine.execOpticalPortReady port s
  | .opticalLinkTrain port => Sys2Proof.Machine.execOpticalLinkTrain port s
  | .opticalAttestExchange port peer => Sys2Proof.Machine.execOpticalAttestExchange port peer s
  | .hostPortReset port => Sys2Proof.Machine.execHostPortReset port s
  | .devrst req v => Sys2Proof.Machine.execDevrst req v s
  | .rreset req v => Sys2Proof.Machine.execRreset req v s
  | .waferidWrite req v => Sys2Proof.Machine.execWaferidWrite req v s
  | .registerWrite req addr v => Sys2Proof.Machine.execRegisterWrite req addr v s
  | .bar2Access port addr op => Sys2Proof.Machine.execBar2Access port addr op s
  | .kattest port => Sys2Proof.Machine.execKattest port s
  | .kgen port => Sys2Proof.Machine.execKgen port s
  | .kunwrap port => Sys2Proof.Machine.execKunwrap port s
  | .kunload port => Sys2Proof.Machine.execKunload port s
  | .keySlotClear slot => Sys2Proof.Machine.execKeySlotClear slot s
  | .kcfg port => Sys2Proof.Machine.execKcfg port s
  | .kcommit port => Sys2Proof.Machine.execKcommit port s
  | .kfwload port => Sys2Proof.Machine.execKfwload port s
  | .mgmtKattest => Sys2Proof.Machine.execMgmtKattest s
  | .i3cPrivateWrite bytes => Sys2Proof.Machine.execI3cPrivateWrite bytes s
  | .i3cPrivateRead n => Sys2Proof.Machine.execI3cPrivateRead n s
  | .entdaa addr => Sys2Proof.Machine.execEntdaa addr s
  | .setdasa addr => Sys2Proof.Machine.execSetdasa addr s
  | .rstdaa => Sys2Proof.Machine.execRstdaa s
  | .enec mask => Sys2Proof.Machine.execEnec mask s
  | .disec mask => Sys2Proof.Machine.execDisec mask s
  | .getpid => Sys2Proof.Machine.execGetpid s
  | .getbcr => Sys2Proof.Machine.execGetbcr s
  | .getdcr => Sys2Proof.Machine.execGetdcr s
  | .getstatus => Sys2Proof.Machine.execGetstatus s
  | .getmwl => Sys2Proof.Machine.execGetmwl s
  | .getmrl => Sys2Proof.Machine.execGetmrl s
  | .damperStep => Sys2Proof.Machine.execDamperStep s
  | .voltageWarning => Sys2Proof.Machine.execVoltageWarning s
  | .powerRemoval => Sys2Proof.Machine.execPowerRemoval s
  | .thermalLimit r => Sys2Proof.Machine.execThermalLimit r s
  | .coolantFlowShutdown => Sys2Proof.Machine.execCoolantFlowShutdown s
  | .fluePortFailure port => Sys2Proof.Machine.execFluePortFailure port s
  | .unsupportedCcc code => Sys2Proof.Machine.execUnsupportedCcc code s

end Sys2Proof.Machine
end

