-- ==== Sys2Proof/Machine/Pending.lean ====
section
/-! DEFINITION. Which step comes next: the events of a tile that are due, the steps that are pending in the device, and how
the turn passes from tile to tile (entry 1). -/

namespace Sys2Proof.Machine

/-- The engine of a tile that has something due, and what. -/
def Tile.engineDue (t : Tile) : Option Due :=
  (queuedEngines.findSome? fun e => if (t.nextDone e).isSome then some (Due.engineComplete t.coord e) else none).or
    (queuedEngines.findSome? fun e => if t.fireDue e then some (Due.engineFire t.coord e) else none)

/-- The time-out of an expired wait. -/
def Tile.timeoutDue (t : Tile) : Option Due :=
  match t.sch.stall with
  | some st =>
    if !st.expired then none
    else match st.kind with
      | .fe => some (.feWaitTimeout t.coord)
      | .send => some (.sendWaitTimeout t.coord)
      | .bar => some (.barwaitTimeout t.coord)
      | _ => none
  | none => none

/-- Whether the access at the head of port A's queue is due: a store in a cycle after its own, a BARARR in its third cycle after
issue (R108, R249). -/
def Tile.storeDue (t : Tile) : Bool :=
  match t.pad.queue with
  | q :: _ => (decide (q.at_ < t.sch.cycle) || !q.act.isStore) && t.mayPerform q
  | [] => false

/-- Whether a tile's clock runs and its results still come in (R137, R331). -/
def Tile.live (t : Tile) : Bool := t.sch.status == .running || t.sch.status == .halted || t.sch.status == .ended

/-- Whether a stopped tile still has fired engine operations, which complete before their units report stopped (R284, R337). -/
def Tile.draining (t : Tile) : Bool := t.sch.status == .stopped && queuedEngines.any fun e => !(t.eng.get e).fired.isEmpty

/-- The event of a tile that comes before its next bundle: results that land, then decisions, engines, stores, the causes
that wait for a boundary, and time-outs. -/
def Tile.dueEvent (t : Tile) : Option Due :=
  if t.draining then queuedEngines.findSome? fun e => if (t.nextDone e).isSome then some (Due.engineComplete t.coord e) else none
  else if !t.live then none
  else if t.landDue then some (.producerLand t.coord)
  else if t.decidesNow then some (.vDecide t.coord)
  else
    match t.engineDue with
    | some e => some e
    | none =>
      if t.storeDue then some (.storePerform t.coord)
      else if t.sch.status != .running then none
      else if !t.sch.tm && !t.sch.pend.isEmpty then
        some (if t.pendAborts then .containmentAbort t.coord else .trapTake t.coord)
      else t.timeoutDue

/-- Whether the tile may issue its bundle now: it runs, no hold or cost keeps it, and no SPILL or FILL is under way that is
untagged and has a bulk element or that RFT re-injected unparked (R159, R219, R244, R328). -/
def Tile.mayIssue (t : Tile) : Bool :=
  t.sch.status == .running && decide (t.sch.ready ≤ t.sch.cycle) && t.lists.all fun l => (l.tag != 0#3 || !l.bulk t.ctl) && !l.hold

/-- A cycle in which the tile issues nothing. -/
def Tile.idleTick (t : Tile) : Tile := if t.live || t.draining then t.tick else t

/-- The steps that a bulk access waits for. -/
def accSteps (c : Coord) (a : BulkAcc) : List Due :=
  let id := evId c a.seq
  match a.stage with
  | .inTile => if a.staged then [] else [.bulkRequest id]
  | .atTarget x => if a.kind.writes && !x.reps.isEmpty then [.replicaCommit id] else [.bulkPerform id]
  | .locked _ _ => [.lockedReadResume id, .lockedReadTimeout id]
  | .parked _ _ _ _ => if a.notice || a.dropped then [.bulkResponse id] else []
  | .answered _ _ _ => [.bulkResponse id]

/-- The steps that a guard request waits for. -/
def guardSteps (c : Coord) (g : GuardReq) : List Due :=
  let id := evId c g.seq
  match g.stage with
  | .inTile => if g.rel then [.relDepart id] else [.bulkRequest id]
  | .sent _ => if g.rel then [.relAtHome id] else [.acqAtHome id]
  | .queued _ => [.guardWaitTimeout id]
  | .parked _ _ _ _ => if g.notice then [.guardResponse id] else []
  | .answered _ _ => [.guardResponse id]

/-- The steps that a tile's copies wait for; an inbound line that stalls at a locked replica waits for its bound too (R79). -/
def State.copySteps (s : State) (t : Tile) : List Due :=
  (upTo 8).flatMap fun n =>
    let c := t.copyCh n
    (match t.copyNext n (s.copyStop t) with
      | some j => .copyRow t.coord (BitVec.ofNat 3 n) :: if j.lock.isSome then [.lockedReadTimeout (copyId t.coord n)] else []
      | none => [])
      ++ (if c.jobs.any fun j => j.rowsDone && !j.complete then [.copyComplete t.coord (BitVec.ofNat 3 n)] else [])

/-- The steps that a tile's own requests wait for. -/
def State.tileSteps (s : State) (t : Tile) : List Due :=
  t.accs.flatMap (accSteps t.coord) ++ t.guards.flatMap (guardSteps t.coord) ++ s.copySteps t
    ++ t.out.filterMap fun m => match m with
      | .portw _ a _ => some (.portwAtPort (evId t.coord a))
      | _ => none

/-- Whether a context's held fault record can be written now (R73). -/
def Device.faultRoom (dv : Device) (ctx : Nat) : Bool :=
  let d := dv.desc ctx
  (bitsOf d 208 32 + 2 ^ 32 - bitsOf d 240 32) % 2 ^ 32 != 2 ^ (bitsOf d 192 4 + 6)

/-- The records that waited and can be written now (R73, R335, R381). -/
def Device.recordSteps (dv : Device) : List Due :=
  ((dv.rings.filter fun r => !r.held.isEmpty && !trapFull (dv.desc r.ctx)).map fun r => Due.trapRecordRelease (BitVec.ofNat 8 r.ctx))
    ++ (((dv.faults.map (·.ctx)).dedup.filter dv.faultRoom).map fun c => Due.faultRecordRelease (BitVec.ofNat 8 c))
    ++ ((dv.exposures.map (·.region)).dedup.filter fun r => (dv.freeReport r).isSome).map Due.exposureReportWrite

/-- Locks left by failed home ports, and refinement loops whose graph has ended (R79, R365). -/
def Device.restSteps (dv : Device) : List Due :=
  ((dv.locks.map (·.home)).dedup.map Due.homeLockRelease)
    ++ (dv.loops.filter fun l => ((dv.graph? l.graph).map (·.ended)).getD false).map fun l => Due.refineStep l.queue

/-- The frames of the running Hearths: when they come between the cycles of the tiles is a free choice (R344; entry 7). -/
def Device.frameSteps (dv : Device) : List Due :=
  if Config.freeBit dv.free then ((upTo 64).filter dv.runs).map Due.hearthFrame else []

/-- The steps that are pending in the device. -/
def State.pendingSteps (s : State) : List Due :=
  (s.core :: s.others).flatMap s.tileSteps ++ s.fabricSteps ++ s.dev.nodes.flatMap s.nodeSteps ++ s.migrationSteps
    ++ s.dev.recordSteps ++ s.dev.restSteps ++ s.dev.kilnSteps

/-- The turn passes: memory sends read on (R305), injected reports are counted, the next tile comes, and the pending steps of the
device go on the agenda. While a bundle is open nothing comes between its slots (R6). -/
def State.turn (s : State) : State :=
  if s.bundle.isSome then s
  else
    let s := State.countInjected { s with core := s.core.progressSends }
    let s := match s.others with
      | [] => s
      | t :: l => { s with core := t, others := l ++ [s.core] }
    let s := { s with agenda := s.agenda ++ s.pendingSteps }
    if s.dev.lead.isNone then s else (s.push s.dev.frameSteps).withDev Device.draw

end Sys2Proof.Machine
end

