-- ==== Sys2Proof/Machine/Run.lean ====
section
/-! DEFINITION. How a step of the device that waits on the agenda is run: by the meaning of its row (entry 1). -/

namespace Sys2Proof.Machine

/-- The state after the slots of the open bundle have run. -/
def State.afterBundle : Nat → State → State
  | 0, s => s
  | n + 1, s =>
    match s.bundle.bind Bundle.next with
    | some i => (match exec i s with
      | .next s' => State.afterBundle n s'
      | _ => s)
    | none => s

/-- Whether the bundle that the tile at a coordinate would issue now ends in a trap at issue, or in a double trap: it is taken before
a stop that reaches the tile at the same boundary (R323, R342). -/
def State.trapsFirst (s : State) (c : Coord) : Bool :=
  match s.tileAt c with
  | none => false
  | some t =>
    t.mayIssue && t.dueEvent.isNone && (match t.fetchBundle with
      | .error _ => true
      | .ok _ =>
        let u := (State.afterBundle 8 { s with
          core := t, others := s.core :: s.others.filter fun u => !u.isAt c, agenda := [], bundle := some ⟨t, 0, none, none, none⟩ }).core
        (u.sch.tm && !t.sch.tm) || u.sch.status == .halted)

/-- Runs a step of the device. -/
def runDue (e : Due) (s : State) : Host.Outcome State Fault Refusal :=
  match e with
  | .invalidBundle cause slot => execInvalidBundle cause slot s
  | .storePerform c => execStorePerform c s
  | .copyRow c ch => execCopyRow c ch s
  | .copyComplete c ch => execCopyComplete c ch s
  | .feWaitTimeout c => execFeWaitTimeout c s
  | .sendWaitTimeout c => execSendWaitTimeout c s
  | .barwaitTimeout c => execBarwaitTimeout c s
  | .producerLand c => execProducerLand c s
  | .vDecide c => execVDecide c s
  | .engineFire c e => execEngineFire c e s
  | .engineComplete c e => execEngineComplete c e s
  | .routeFlit k => execRouteFlit k s
  | .linkResend c d => execLinkResend c d s
  | .linkDown c d => execLinkDown c d s
  | .receive c ich => execReceive c ich s
  | .creditArrive c och => execCreditArrive c och s
  | .sendFaultNotice c och => execSendFaultNotice c och s
  | .remoteArrival c ich => execRemoteArrival c ich s
  | .arrivalResult c och => execArrivalResult c och s
  | .reductionInput c j p => execReductionInput c j p s
  | .heldResultDeliver c j => execHeldResultDeliver c j s
  | .roundAbandon c j => execRoundAbandon c j s
  | .abandonNotice c j => execAbandonNotice c j s
  | .bulkRequest id => execBulkRequest id s
  | .faultRecordRelease ctx => execFaultRecordRelease ctx s
  | .retryReplay port word => execRetryReplay port word s
  | .retryAbort port word => execRetryAbort port word s
  | .portwAtPort id => execPortwAtPort id s
  | .bulkPerform id => execBulkPerform id s
  | .replicaCommit id => execReplicaCommit id s
  | .lockedReadResume id => execLockedReadResume id s
  | .lockedReadTimeout id => execLockedReadTimeout id s
  | .homeLockRelease port => execHomeLockRelease port s
  | .hostTimeout id => execHostTimeout id s
  | .requestAcceptTimeout id => execRequestAcceptTimeout id s
  | .externalLinkDrop l => execExternalLinkDrop l s
  | .bulkResponse id => execBulkResponse id s
  | .acqAtHome id => execAcqAtHome id s
  | .guardWaitTimeout id => execGuardWaitTimeout id s
  | .relDepart id => execRelDepart id s
  | .relAtHome id => execRelAtHome id s
  | .guardResponse id => execGuardResponse id s
  | .hearthGuardRelease node => execHearthGuardRelease node s
  | .pairCompare c => execPairCompare c s
  | .pairTimeout c => execPairTimeout c s
  | .trapTake c => execTrapTake c s
  | .trapRecordRelease ctx => execTrapRecordRelease ctx s
  | .containmentAbort c => execContainmentAbort c s
  | .preemptStop c => if s.trapsFirst c then .next s else execPreemptStop c s
  | .stopAck c u => execStopAck c u s
  | .savePhase node => execSavePhase node s
  | .preemptComplete node => execPreemptComplete node s
  | .restore node => execRestore node s
  | .launchNode node => execLaunchNode node s
  | .startMulticast node => execStartMulticast node s
  | .tileStart c => execTileStart c s
  | .nodeComplete node => execNodeComplete node s
  | .nodeFail node => execNodeFail node s
  | .shiftMigration c => execShiftMigration c s
  | .migrationRemap k => execMigrationRemap k s
  | .migrationTimeout k => execMigrationTimeout k s
  | .hearthFrame h => execHearthFrame h s
  | .hearthStop h => execHearthStop h s
  | .qbroken q => execQbroken q s
  | .nopPacket q => execNopPacket q s
  | .launch q => execLaunch q s
  | .ibcall q => execIbcall q s
  | .signal q => execSignal q s
  | .waitv q => execWaitv q s
  | .copy q => execCopy q s
  | .refine q => execRefine q s
  | .refineStep q => execRefineStep q s
  | .preemptPacket q => execPreemptPacket q s
  | .resume q => execResume q s
  | .lichen q => execLichen q s
  | .mapsync q => execMapsync q s
  | .rasWindow r => execRasWindow r s
  | .shadowReplay c e => execShadowReplay c e s
  | .lichenPassStart c => execLichenPassStart c s
  | .lichenPassEnd c => execLichenPassEnd c s
  | .exposureReportWrite q => execExposureReportWrite q s
  | .injctlWrite req r v => execInjctlWrite req r v s
  | .bringUp => execBringUp s
  | .fluePortBringUp port => execFluePortBringUp port s
  | .regionBringUp r => execRegionBringUp r s
  | .mapBuild r => execMapBuild r s
  | .hostLinkUp port => execHostLinkUp port s
  | .opticalPortReady port => execOpticalPortReady port s
  | .opticalLinkTrain port => execOpticalLinkTrain port s
  | .opticalAttestExchange port peer => execOpticalAttestExchange port peer s
  | .hostPortReset port => execHostPortReset port s
  | .devrst req v => execDevrst req v s
  | .rreset req v => execRreset req v s
  | .waferidWrite req v => execWaferidWrite req v s
  | .registerWrite req addr v => execRegisterWrite req addr v s
  | .bar2Access port addr op => execBar2Access port addr op s
  | .kattest port => execKattest port s
  | .kgen port => execKgen port s
  | .kunwrap port => execKunwrap port s
  | .kunload port => execKunload port s
  | .keySlotClear slot => execKeySlotClear slot s
  | .kcfg port => execKcfg port s
  | .kcommit port => execKcommit port s
  | .kfwload port => execKfwload port s
  | .mgmtKattest => execMgmtKattest s
  | .i3cPrivateWrite bytes => execI3cPrivateWrite bytes s
  | .i3cPrivateRead n => execI3cPrivateRead n s
  | .entdaa addr => execEntdaa addr s
  | .setdasa addr => execSetdasa addr s
  | .rstdaa => execRstdaa s
  | .enec mask => execEnec mask s
  | .disec mask => execDisec mask s
  | .getpid => execGetpid s
  | .getbcr => execGetbcr s
  | .getdcr => execGetdcr s
  | .getstatus => execGetstatus s
  | .getmwl => execGetmwl s
  | .getmrl => execGetmrl s
  | .damperStep => execDamperStep s
  | .voltageWarning => execVoltageWarning s
  | .powerRemoval => execPowerRemoval s
  | .thermalLimit r => execThermalLimit r s
  | .coolantFlowShutdown => execCoolantFlowShutdown s
  | .fluePortFailure port => execFluePortFailure port s
  | .unsupportedCcc code => execUnsupportedCcc code s

end Sys2Proof.Machine
end

