-- ==== Sys2Proof/Machine/Step.lean ====
section
/-! DEFINITION. One step of the machine: the device step whose turn it is, or the slot that the tile in turn issues, its
own event, or a cycle in which it waits. And placing an instruction where the next step fetches it. -/

namespace Sys2Proof.Machine

/-- An instruction of the tile in turn is run; then the turn passes on. -/
def issued (i : Instr) (s : State) : Host.Outcome State Fault Refusal :=
  match exec i s with
  | .next s' => .next s'.turn
  | o => o

/-- The tile in turn issues its bundle, unless a stage is replayed first or an error that the fetch meets halts it: the invalid
bundle's cause, the slot of a bundle of one, or the first slot of a bundle of several. -/
def issueBundle (s : State) : Host.Outcome State Fault Refusal :=
  match s.core.replayFirst with
  | some t => .next (State.turn { s with core := t })
  | none =>
    let s := { s with core := s.core.fetchMeet }
    if s.core.sch.status != .running then .next (State.flush s).turn
    else
      match s.core.fetchBundle with
      | .error (k, c) => issued (.invalidBundle c (BitVec.ofNat 3 k)) s
      | .ok [] => .next s
      | .ok [i] => issued i s
      | .ok (i :: _) => issued i { s with bundle := some ⟨s.core, 0, none, none, none⟩ }

/-- The machine's step. -/
def step (s : State) : Host.Outcome State Fault Refusal :=
  match s.agenda with
  | e :: rest => runDue e { s with agenda := rest }
  | [] =>
    if s.dev.power.shutdown then .fault .unpowered
    else
      match s.bundle with
      | some b => (match b.next with
        | some i => issued i s
        | none => .next { s with bundle := none })
      | none =>
        match s.core.dueEvent with
        | some e => runDue e s
        | none => if s.core.mayIssue then issueBundle s else .next (State.turn { s with core := s.core.idleTick })

/-- The word that ends a bundle: NOP with E set. -/
def closingNop : Word := 0x80000000#32

/-- Words written at consecutive code addresses. -/
def putWords (m : Memory) (a : Nat) : List Word → Memory
  | [] => m
  | w :: l => putWords (m.putVal a 4 w.toNat) (a + 4) l

/-- Whether the last slot word of the instruction at the head of words ends its bundle. -/
def endsBundle (l : List Word) : Bool :=
  match l with
  | w :: v :: _ => slotLast w || (acceptsY w && isY v && slotLast v)
  | [w] => slotLast w
  | [] => false

/-- The state with an instruction where step fetches its next one: the tile in turn runs and is ready, nothing else is due,
and the code SRAM holds the words at its pc, with a NOP that ends the bundle behind a word that does not. This stands for the
launch that writes the code image (entry 14). -/
def State.withFetchWord (s : State) (nbits w : Nat) : State :=
  let words := tableWords ((nbits + 31) / 32) w
  let code := if endsBundle words then words else words ++ [closingNop]
  let t := s.core
  { s with
    agenda := []
    bundle := none
    core := { t with
      pad := { t.pad with code := putWords t.pad.code t.sch.pc.toNat code, codeBad := [], codeSoft := [] }
      sch := { t.sch with status := .running, ready := 0, waited := 0, stall := none, pend := [] } } }

end Sys2Proof.Machine
end

