-- ==== Sys2Proof/Safety.lean ====
section
/-! DEFINITION. What a safe run is, and the terms in which the statements speak of a tile between two bundles: no step of a
safe run ends in a fault or a refusal. -/

namespace Sys2Proof

/-- A run of `n` steps from a state that stops nowhere. -/
def Safe (n : Nat) (s : Machine.State) : Prop := ∃ s', core.run n s = .next s'

/-- What a slot carries beside its operands: its E bit and its guard; a step of a device is no slot. -/
def Instr.hdr : Instr → Option Hdr
  | .nop h => some h
  | .add h _ _ _ => some h
  | .sub h _ _ _ => some h
  | .and h _ _ _ => some h
  | .or h _ _ _ => some h
  | .xor h _ _ _ => some h
  | .andn h _ _ _ => some h
  | .shl h _ _ _ => some h
  | .shr h _ _ _ => some h
  | .sar h _ _ _ => some h
  | .rotl h _ _ _ => some h
  | .mul h _ _ _ _ => some h
  | .mulh h _ _ _ _ => some h
  | .min h _ _ _ _ => some h
  | .max h _ _ _ _ => some h
  | .cmp h _ _ _ _ => some h
  | .sel h _ _ _ _ => some h
  | .clz h _ _ => some h
  | .ctz h _ _ => some h
  | .popc h _ _ => some h
  | .brev h _ _ => some h
  | .bfx h _ _ _ _ => some h
  | .bfi h _ _ _ => some h
  | .div h _ _ _ _ _ => some h
  | .rem h _ _ _ _ _ => some h
  | .addi h _ _ _ => some h
  | .andi h _ _ _ => some h
  | .ori h _ _ _ => some h
  | .xori h _ _ _ => some h
  | .shli h _ _ _ => some h
  | .shri h _ _ _ => some h
  | .sari h _ _ _ => some h
  | .cmpeqi h _ _ _ => some h
  | .cmplti h _ _ _ => some h
  | .cmpltui h _ _ _ => some h
  | .muli h _ _ _ => some h
  | .movi h _ _ => some h
  | .movhi h _ _ => some h
  | .xtoa h _ _ => some h
  | .atox h _ _ => some h
  | .xtov h _ _ _ => some h
  | .vtox h _ _ _ => some h
  | .xtop h _ _ => some h
  | .ptox h _ _ => some h
  | .ldb h _ _ _ _ _ => some h
  | .ldbu h _ _ _ _ _ => some h
  | .ldh h _ _ _ _ _ => some h
  | .ldhu h _ _ _ _ _ => some h
  | .ldw h _ _ _ _ _ => some h
  | .stb h _ _ _ _ => some h
  | .sth h _ _ _ _ => some h
  | .stw h _ _ _ _ => some h
  | .ldv h _ _ _ _ _ => some h
  | .stv h _ _ _ _ => some h
  | .ldvb h _ _ _ _ _ => some h
  | .ldvg h _ _ _ _ _ => some h
  | .stvg h _ _ _ _ => some h
  | .ldt h _ _ _ _ _ _ => some h
  | .stt h _ _ _ _ _ => some h
  | .spill h _ _ _ _ _ => some h
  | .fill h _ _ _ _ _ => some h
  | .aadd h _ _ _ _ _ => some h
  | .aand h _ _ _ _ _ => some h
  | .aor h _ _ _ _ _ => some h
  | .axor h _ _ _ _ _ => some h
  | .amin h _ _ _ _ _ => some h
  | .amax h _ _ _ _ _ => some h
  | .aminu h _ _ _ _ _ => some h
  | .amaxu h _ _ _ _ _ => some h
  | .afadd h _ _ _ _ _ => some h
  | .aswap h _ _ _ _ _ => some h
  | .acas h _ _ _ _ _ => some h
  | .barinit h _ _ _ => some h
  | .bararr h _ _ _ _ => some h
  | .bartxAdd h _ _ _ => some h
  | .bartxDec h _ _ _ => some h
  | .barwait h _ _ _ => some h
  | .barrd h _ _ _ _ _ => some h
  | .feset h _ _ _ => some h
  | .feclr h _ _ _ => some h
  | .ferd h _ _ _ _ => some h
  | .bldw h _ _ _ _ => some h
  | .bldd h _ _ _ _ => some h
  | .bstw h _ _ _ _ => some h
  | .bstd h _ _ _ _ => some h
  | .lea h _ _ _ => some h
  | .adda h _ _ _ _ => some h
  | .vadd h _ _ _ _ _ => some h
  | .vsub h _ _ _ _ _ => some h
  | .vmul h _ _ _ _ _ => some h
  | .vfma h _ _ _ _ _ => some h
  | .vfms h _ _ _ _ _ => some h
  | .vfnma h _ _ _ _ _ => some h
  | .vdiv h _ _ _ _ _ => some h
  | .vsqrt h _ _ _ _ => some h
  | .vrsqrt h _ _ _ _ => some h
  | .vrcp h _ _ _ _ => some h
  | .vmin h _ _ _ _ _ => some h
  | .vmax h _ _ _ _ _ => some h
  | .vabs h _ _ _ _ => some h
  | .vneg h _ _ _ _ => some h
  | .vmaxa h _ _ _ _ _ => some h
  | .vcmp h _ _ _ _ => some h
  | .vsgn h _ _ _ _ _ => some h
  | .vthr h _ _ _ _ _ _ => some h
  | .vsel h _ _ _ _ => some h
  | .vmov h _ _ _ => some h
  | .vcvt h _ _ _ _ => some h
  | .vred h _ _ _ _ => some h
  | .vdot h _ _ _ _ _ => some h
  | .viadd h _ _ _ _ => some h
  | .visub h _ _ _ _ => some h
  | .vimul h _ _ _ _ => some h
  | .vand h _ _ _ _ => some h
  | .vor h _ _ _ _ => some h
  | .vxor h _ _ _ _ => some h
  | .vshli h _ _ _ _ => some h
  | .vshri h _ _ _ _ => some h
  | .vsari h _ _ _ _ => some h
  | .vshuf h _ _ _ _ => some h
  | .vbcst h _ _ _ _ => some h
  | .viota h _ _ _ => some h
  | .vclamp h _ _ _ _ => some h
  | .vrndb h _ _ _ => some h
  | .vimin h _ _ _ _ _ => some h
  | .vimax h _ _ _ _ _ => some h
  | .vcmpi h _ _ _ _ => some h
  | .ringdef h _ _ _ => some h
  | .ringrst h _ => some h
  | .mxw h _ _ => some h
  | .mxf h _ _ _ => some h
  | .mxr h _ _ _ => some h
  | .mxp h _ _ _ _ => some h
  | .mxz h _ _ _ => some h
  | .mxo h _ _ _ => some h
  | .mxq h _ _ _ => some h
  | .xpt h _ _ _ => some h
  | .xpc h _ _ _ _ => some h
  | .upadm h _ _ _ _ _ => some h
  | .upsgd h _ _ _ _ => some h
  | .upaxp h _ _ _ => some h
  | .rnmask h _ _ _ _ => some h
  | .rnuni h _ _ _ _ => some h
  | .chsendv h _ _ _ _ => some h
  | .chsendt h _ _ _ => some h
  | .chsendm h _ _ _ _ _ => some h
  | .chrecv h _ _ _ => some h
  | .chred h _ _ _ _ _ => some h
  | .charr h _ _ _ _ => some h
  | .chwin h _ _ _ => some h
  | .chseq h _ _ => some h
  | .cbopen h _ _ => some h
  | .cbclose h => some h
  | .portw h _ _ => some h
  | .bnop h => some h
  | .br h _ _ => some h
  | .call h _ _ => some h
  | .ret h => some h
  | .jr h _ => some h
  | .loopset h _ _ _ => some h
  | .loopsetPop h => some h
  | .loop h _ _ => some h
  | .loopc h _ _ => some h
  | .setfmt h _ => some h
  | .setc h _ _ => some h
  | .getc h _ _ => some h
  | .pand h _ _ _ => some h
  | .por h _ _ _ => some h
  | .pxor h _ _ _ => some h
  | .pandn h _ _ _ => some h
  | .pmov h _ _ => some h
  | .endTask h => some h
  | .trap h _ => some h
  | .rft h => some h
  | .bkpt h _ => some h
  | .wait h _ _ => some h
  | .fence h _ => some h
  | .acq h _ _ _ _ => some h
  | .rel h _ _ _ => some h
  | .waitfe h _ _ => some h
  | .cewait h _ _ => some h
  | .waitall h _ => some h
  | _ => none

end Sys2Proof

namespace Sys2Proof.Machine

/-- A tile between two bundles: it runs, has nothing to report, and no slot of a bundle has acted yet (R191, R208). -/
structure Tile.Between (t : Tile) : Prop where
  running : t.sch.status = .running
  noReports : t.recs = []
  noTags : t.sch.alloc = []
  noTransfer : t.sch.xfer = none
  noCost : t.sch.cost = 0
  noClosing : t.sch.closing = []

/-- The tile in turn is between two bundles, and its next bundle has the slot alone whose guard is `g`: the guard is true
(R194). -/
structure State.Ready (s : State) (g : BitVec 3) : Prop where
  alone : s.bundle = none
  between : s.core.Between
  guard : s.core.rp g = true

/-- The words that the tile in turn fetches from: up to eight from its pc on, within the code SRAM (R191). -/
def Tile.ahead (t : Tile) : List Word :=
  ((upTo 8).filter fun k => decide (t.sch.pc.toNat + 4 * k < 0x4000)).map fun k => t.pad.code.word (t.sch.pc.toNat + 4 * k)

/-- The next step issues the bundle at the pc of the tile in turn: nothing else is due, the tile may issue, no stage is replayed
before it (R370), the words there can be read, and no error that the fetch meets halts the tile (R330, R366). -/
structure State.Fetches (s : State) : Prop where
  noSteps : s.agenda = []
  powered : s.dev.power.shutdown = false
  alone : s.bundle = none
  noEvent : s.core.dueEvent = none
  ready : s.core.mayIssue = true
  aligned : s.core.sch.pc.toNat % 4 = 0
  inside : s.core.sch.pc.toNat < 0x4000
  sound : ∀ k, k < 8 → s.core.pad.codeFails (s.core.sch.pc.toNat + 4 * k) = false
  noReplay : s.core.replayFirst = none
  unhurt : s.core.fetchMeet.sch.status = .running

/-- The state with another tile in turn. -/
def State.withCore (s : State) (t : Tile) : State := { s with core := t }

/-- The state in which the bundle at pc issues: its fetch has met the correctable errors of its words and of the core's files
(R366, R367). -/
def State.met (s : State) : State := s.withCore s.core.fetchMeet

/-- What a slot that issued alone leaves, its effect being `t`: the bundle closes behind it (R191, R193). -/
def State.after (s : State) (i : Instr) (t : Tile) : State := s.withCore (t.bump.close (encode i).length)

/-- A slot alone in its bundle issues, its effect being `t`: exec answers the next state, in which the bundle has closed
behind that effect and nothing else has changed. -/
def Issues (i : Instr) (s : State) (t : Tile) : Prop := exec i s = .next (s.after i t)

/-- The tile with a result in flight (R151): its writes land `lat` cycles after issue, when its tag becomes free. -/
def Tile.loading (t : Tile) (lat : Nat) (tag : BitVec 3) (ws : List RegWrite) (kind : Nat) (opx : DWord) (opy : Word)
    (data : List Byte) (ring : Option (Nat × Nat)) (i : Instr) : Tile :=
  t.withSch fun c =>
    { c with
      alloc := if tag = 0#3 then c.alloc else tag.toNat :: c.alloc
      flights := c.flights ++ [⟨c.seq, c.cycle + lat, tag, ws, ring, kind, opx, opy, data, t.slotInfo i 0⟩] }

/-- The same for one register written. -/
def Tile.flying (t : Tile) (lat : Nat) (tag : BitVec 3) (w : RegWrite) (kind : Nat) (opx : DWord) (i : Instr) : Tile :=
  t.loading lat tag [w] kind opx 0#32 [] none i

/-- The tile with an access that waits at port A, to be performed from `delay` cycles after issue on (R108, R238). -/
def Tile.queued (t : Tile) (tag : BitVec 3) (act : PortAct) (delay : Nat) (i : Instr) : Tile :=
  { t with
    sch := { t.sch with alloc := if tag = 0#3 then t.sch.alloc else tag.toNat :: t.sch.alloc }
    pad := { t.pad with queue := t.pad.queue ++ [⟨t.sch.seq, t.sch.cycle, t.sch.cycle + delay, act, t.slotInfo i 0⟩] } }

/-- Every byte of a list can be read: no error, no poison (R41), no injected report (R375). -/
def Tile.Readable (t : Tile) (l : List Nat) : Prop :=
  (∀ a ∈ l, a < padSize → (a / 4 ∉ t.pad.bad ∧ a / 4 ∉ t.pad.soft) ∧ a / 16 ∉ t.pad.poison) ∧ t.pad.inj.armed = 0

/-- A word as a signed number, an unsigned number, and back modulo 2^32. -/
def sNum (x : Word) : Int := x.toInt
/-- A word as an unsigned number. -/
def uNum (x : Word) : Int := (x.toNat : Int)
/-- The word congruent to a number modulo 2^32. -/
def num (i : Int) : Word := BitVec.ofInt 32 i

/-- The condition of a CMP by its code (Table 10-3), over numbers. -/
def cmpHolds (code : Nat) (a b : Word) : Prop :=
  match code with
  | 0 => sNum a = sNum b
  | 1 => sNum a ≠ sNum b
  | 2 => sNum a < sNum b
  | 3 => sNum b ≤ sNum a
  | 4 => sNum a ≤ sNum b
  | 5 => sNum b < sNum a
  | 6 => uNum a < uNum b
  | 7 => uNum b ≤ uNum a
  | 8 => uNum a ≤ uNum b
  | _ => uNum b < uNum a

/-- A word as MIN and MAX read it: unsigned with `u`, else signed. -/
def numBy (u : Bool) (x : Word) : Int := if u then uNum x else sNum x

/-- The immediate of Table 09-2 as a number: two's complement, or IMM32. -/
def immNum {n : Nat} : Imm n 32 → Int
  | .short i => i.toInt
  | .long w => w.toInt

/-- A V slot issues (R263, R266): its operation is among those in progress, reads and feeds no link, completes at `due` and
then writes `ws` and records `fl`; its tag is allocated. -/
def VIssues (i : Instr) (s : State) (tag : BitVec 3) (due : Nat) (ws : List RegWrite) (fl : Flags5) : Prop :=
  ∃ o : VOp, Issues i s ((s.core.allocTag tag).withSch fun c => { c with vops := c.vops ++ [o] }) ∧
    o.seq = s.core.sch.seq ∧ o.tag = tag ∧ o.due = due ∧ o.writes = ws ∧ o.flags = fl ∧ o.dest = none ∧ o.srcs = [] ∧
    o.decider = none

/-- An E slot issues (R280): its operation, with what it sampled, is the last in its engine's queue. -/
def EIssues (i : Instr) (s : State) (tag : BitVec 3) (vec : VReg) (sc0 sc1 : Word) : Prop :=
  ∃ o : EOp, Issues i s ((s.core.allocTag tag).withEng fun e =>
      e.set (engineOf i) { e.get (engineOf i) with queue := (e.get (engineOf i)).queue ++ [o] }) ∧
    o.seq = s.core.sch.seq ∧ o.issued = s.core.sch.cycle ∧ o.inst = i ∧ o.tag = tag ∧ o.fmt = s.core.ctl.fmt ∧
    o.tsh = s.core.ctl.tsh ∧ o.hy = s.core.ctl.hy ∧ o.vec = vec ∧ o.sc0 = sc0 ∧ o.sc1 = sc1 ∧
    o.rn = [s.core.ctl.rnseed, s.core.ctl.rnstep, s.core.ctl.rnstream, s.core.ctl.rnkeep]

/-- The checks of R280 on an engine operation pass: its rings are declared and none is both source and destination, the
shapes of the registers it names are valid and fit it, and its engine's queue has room. -/
def EReady (i : Instr) (t : Tile) : Prop :=
  (∀ n ∈ engRings i, (t.ring n).defd = true) ∧ ringTwice i = false ∧
    (∀ r, .tile r ∈ engReads i ++ engWrites i → shapeValid (t.tshOf r.toNat) = true) ∧
    formOk i t.ctl.fmt (shapeAtIssue t) = true ∧ (t.eng.get (engineOf i)).queue.length < 8

/-- The lanes of a v register as words of 16 lanes. -/
def laneWord (t : Tile) (c : BitVec 5) (k : Nat) : Word := lane (t.rv c.toNat) k

/-- An FP operand of a lane: the register, or in FP64 the register pair (R146), as a number of its format. -/
def fpLane (t : Tile) (c : BitVec 5) (k : Nat) : FVal :=
  if fmtPrec64 t.ctl.fmt then f64.unpack (lane (t.rv (c.toNat + 1)) k ++ lane (t.rv c.toNat) k).toNat
  else f32.unpack (lane (t.rv c.toNat) k).toNat

/-- What an FP result writes: a register, or in FP64 a pair, the low words first (R146). -/
def fpWrites (t : Tile) (d : BitVec 5) (f : Nat → Nat) : List RegWrite :=
  if fmtPrec64 t.ctl.fmt then
    [.v (rotV t.ctl.rrb d.toNat) (vreg fun k => BitVec.ofNat 32 (f k)),
     .v (rotV t.ctl.rrb (d.toNat + 1)) (vreg fun k => BitVec.ofNat 32 (f k / 2 ^ 32))]
  else [.v (rotV t.ctl.rrb d.toNat) (vreg fun k => BitVec.ofNat 32 (f k))]

/-- The exceptions of sixteen lanes together. -/
def laneFlags (f : Nat → Flags5) : Flags5 := (upTo 16).foldl (fun x k => x ||| f k) 0#5

/-- The rounding of a lane (R182, R183): under the budget, but an operand that is special makes it the IEEE result. -/
def laneCtx (t : Tile) (n : Bool) (ops : List FVal) : RCtx :=
  let f := precFmt (fmtPrec64 t.ctl.fmt)
  if ops.any FVal.special then RCtx.full f (fmtRnd t.ctl.fmt)
  else RCtx.budget f (fmtRnd t.ctl.fmt) (if n then t.ctl.vbud else 28)

/-- The cycles a budget saves (R152): none when an operand of any lane is special. -/
def saves (t : Tile) (n : Bool) (cs : List (BitVec 5)) : Nat :=
  let full := if fmtPrec64 t.ctl.fmt then 28 else 13
  if (upTo 16).any fun k => cs.any fun c => (fpLane t c k).special then 0
  else (full - min (if n then t.ctl.vbud else 28) full) / 4

/-- A step of one tile: exec answers the state in which the tile at `c` is `t` and every other tile, the device and what is
to come are as they were. -/
def Becomes (i : Instr) (s : State) (c : Coord) (t : Tile) : Prop :=
  ∃ u, exec i s = .next u ∧ u.tileAt c = some t ∧ (∀ d, d ≠ c → u.tileAt d = s.tileAt d) ∧ u.dev = s.dev ∧
    u.agenda = s.agenda ∧ u.bundle = s.bundle

/-- The same for a step that leaves the device as `dv`. -/
def BecomesWith (i : Instr) (s : State) (c : Coord) (t : Tile) (dv : Device) : Prop :=
  ∃ u, exec i s = .next u ∧ u.tileAt c = some t ∧ (∀ d, d ≠ c → u.tileAt d = s.tileAt d) ∧ u.dev = dv ∧
    u.agenda = s.agenda ∧ u.bundle = s.bundle

/-- A message has arrived at the tile `t` at `c`, alone in the fabric; the tile has nothing to report. -/
structure State.Arrived (s : State) (c : Coord) (t : Tile) (m : Msg) : Prop where
  tile : s.tileAt c = some t
  flit : ∃ f, s.dev.net = [f] ∧ f.arrived = true ∧ f.at_ = c ∧ f.msg = m
  noReports : t.recs = []

/-- A cause waits in a tile for its boundary, with its FADDR and INFO (R323). -/
def Tile.Pends (t : Tile) (cause : Cause) (faddr info : DWord) : Prop :=
  ∃ p ∈ t.sch.pend, p.cause = cause ∧ p.faddr = faddr ∧ p.info = info

/-- A bulk access of a tile, by its number. -/
structure State.HasAcc (s : State) (id : Nat) (t : Tile) (a : BulkAcc) : Prop where
  tile : s.tileAt (evCoord id) = some t
  acc : t.acc? (evSeq id) = some a
  moving : t.frozen = false
  noReports : t.recs = []
  kept : a.dropped = false

/-- A guard request of a tile without a partner, by its number. -/
structure State.HasGuard (s : State) (id : Nat) (t : Tile) (g : GuardReq) : Prop where
  tile : s.tileAt (evCoord id) = some t
  request : t.guard? (evSeq id) = some g
  unpaired : t.pair = none
  noReports : t.recs = []

/-- A line of HBM without replicas that a key slot of the context opens: its port serves, its key is loaded, and it holds no
error, one to correct or not, no poison and that key's seal (R76, R77). -/
structure Device.Opens (dv : Device) (ctx : Nat) (x : Xlat) (m : Nat) : Prop where
  hbm : x.tgt = 0
  single : x.reps = []
  key : x.key ≠ 0
  loaded : dv.keyFor ctx x.key = some m
  serves : dv.portUp (stackOf x.pa) = true
  sound : dv.portGone (stackOf x.pa) = false
  unlocked : ∀ l ∈ dv.locks, l.line ≠ x.pa / 64 * 64
  whole : dv.bad.has (x.pa / 64 * 64) = false
  clean : dv.poison.has (x.pa / 64 * 64) = false
  steady : dv.soft.has (x.pa / 64 * 64) = false
  sealed : dv.sealOf (x.pa / 64 * 64) = some m
  canonical : Memory.wf dv.hbm = true

/-- A queue serves alone, and its one packet is the next to start (R344, R353); it asks for no message. -/
structure State.Submits (s : State) (x : Queue) (p : Packet) (type : Nat) : Prop where
  alone : s.dev.queues = [x]
  single : x.packets = [p]
  fresh : p.started = false
  open_ : p.done = false
  whole : p.rest.2 = 0
  later : p.frame < s.dev.queueFrame x.q
  quiet : bitOf p.bits 3 = false
  kind : pktType p.bits = type

/-- A node on one tile alone in the machine: the tile in turn is its, and no other tile or node is there. -/
structure State.OneNode (s : State) (n : Node) (t : Tile) : Prop where
  node : s.dev.nodes = [n]
  tile : s.core = t
  alone : s.others = []
  place : n.coords = [t.coord]
  covers : n.covers t.coord = true
  noReports : t.recs = []
  still : s.dev.migrations = []
  noQueue : s.dev.queues = []
  noLoop : s.dev.loops = []

/-- A tile whose results still come in, with nothing to report. -/
structure Tile.Live (t : Tile) : Prop where
  moving : t.frozen = false
  noReports : t.recs = []

/-- The number that a finite value of a format is (R169). -/
def FVal.rat : FVal → ℚ
  | .fin neg m e => (if neg then -(m : ℚ) else m) * 2 ^ e
  | _ => 0

/-- The numbers that a rounding to `p` significand bits chooses from (R171, R182); the quantum is no finer than one that is given. -/
def OnGrid (p : Nat) (least : Option Int) (y : ℚ) : Prop :=
  ∃ n q : Int, n.natAbs < 2 ^ p ∧ (∀ k ∈ least, k ≤ q) ∧ y = n * 2 ^ q

/-- The number that a rounding mode chooses for an exact one: the nearest, and of two nearest the even one; or the nearest on the
mode's side (IEEE 754). -/
def Rnd.Picks (r : Rnd) (grid : ℚ → Prop) (x y : ℚ) : Prop :=
  grid y ∧ match r with
    | .rne => (∀ z, grid z → |x - y| ≤ |x - z|) ∧
        ∀ z, grid z → z ≠ y → |x - z| = |x - y| → ∃ k q : Int, y = 2 * k * 2 ^ q ∧ |z - y| = 2 ^ q
    | .rtz => |y| ≤ |x| ∧ 0 ≤ x * y ∧ ∀ z, grid z → |z| ≤ |x| → 0 ≤ x * z → |z| ≤ |y|
    | .rup => x ≤ y ∧ ∀ z, grid z → x ≤ z → y ≤ z
    | .rdn => y ≤ x ∧ ∀ z, grid z → z ≤ x → z ≤ y

/-- A result is an exact number that is not zero, rounded once (R171, R182): `y` is what the mode picks, subnormals kept, and the
result has its value and the sign of the exact number, with inexact, or underflow where the rounding without a least quantum, `u`,
is tiny; a result too great is the mode's, with overflow. -/
def RCtx.Rounds (c : RCtx) (x : ℚ) (w : Nat × Flags5) : Prop :=
  let neg := decide (x < 0)
  ∃ y u : ℚ, c.mode.Picks (OnGrid c.prec (some c.f.qmin)) x y ∧ c.mode.Picks (OnGrid c.prec none) x u ∧
    (|y| < 2 ^ (c.f.emax + 1) → (c.f.unpack w.1).finite = true ∧ (c.f.unpack w.1).rat = y ∧ (c.f.unpack w.1).neg = neg ∧
      w.2 = if y = x then 0#5 else if |u| < 2 ^ (c.f.qmin + c.f.p - 1) then flUnderflow else flInexact) ∧
    (2 ^ (c.f.emax + 1) ≤ |y| → w.2 = flOverflow ∧ w.1 = match c.mode with
      | .rne => c.f.infBits neg
      | .rtz => c.f.maxBits neg
      | .rup => if neg then c.f.maxBits neg else c.f.infBits neg
      | .rdn => if neg then c.f.infBits neg else c.f.maxBits neg)

/-- The shape of an operand of an engine operation that is about to fire (R280): a register that is read and written has one. -/
def EOp.shapeIn (o : EOp) (t : Tile) (x : TileRef) : Word :=
  o.shapeAt t ((engWrites o.inst).elem x && !(engReads o.inst).elem x) x

/-- The state of the array that an operation needs (R288, R290 to R294, R177): weights and one input type for what accumulates or
promotes, no sums to promote for what reads, residues that agree for what promotes. -/
def EOp.ArrayReady (o : EOp) (a : Mx) : Prop :=
  let typed (z : BitVec 2) : Prop := a.wvalid = true ∧ ∀ x, a.z[z.toNat]? = some x → x.pend = true → x.ptype = fmtMxin o.fmt
  match o.inst with
  | .mxf _ z _ _ | .mxr _ z _ _ => typed z
  | .mxp _ z _ _ _ => typed z ∧ (fmtMxin o.fmt ≠ 1 → ∀ x, a.z[z.toNat]? = some x → ∀ y ∈ x.el.toList,
      y.nan = true ∨ (y.p.toInt % 63).toNat = y.res)
  | .mxo _ _ z _ | .mxq _ _ z _ => ∀ x, a.z[z.toNat]? = some x → x.pend = false
  | _ => True

/-- The head of an engine's queue fires and meets no fault (R281, R283): its conditions hold, its operands have shapes it accepts,
and no detector of its unit has found or is to report anything. -/
structure Tile.MayFire (t : Tile) (e : Engine) (o : EOp) (l : List EOp) : Prop where
  live : t.Live
  going : t.sch.status ≠ .halted
  queue : (t.eng.get e).queue = o :: l
  unit : engineOf o.inst = e
  may : t.canFire (t.eng.get e) o = true
  valid : ∀ x ∈ engReads o.inst ++ engWrites o.inst, shapeValid (o.shapeIn t x) = true
  fits : formOk o.inst o.fmt (fun x => some (shapeOf (o.shapeIn t x))) = true
  array : o.ArrayReady t.eng.arr
  rows : t.eng.arr.failed = false
  unarmed : t.inj.armed = 0
  sound : t.eng.strikes = []

/-- An image holds an element at each row and column (R167). -/
def HoldsImage (b : List Byte) (ew rows cols : Nat) (g : Nat → Nat → Nat) : Prop :=
  b.length = ew * (rows * cols) ∧ ∀ i j, i < rows → j < cols → elemAt b ew (i * cols + j) = g i j % 256 ^ ew

/-- What products, activation and weight, add to an element of an accumulator (Table 08-4, R177, R290): FP8 and INT8 to the exact
partial and the residue, an FP8 NaN to the flag; BF16 to ACC, each rounded on its own, in order. -/
def ZElem.Gains (mxin : Nat) (z u : ZElem) (l : List (Nat × Nat)) : Prop :=
  if mxin = 1 then
    u = { z with acc := l.foldl (fun x y => BitVec.ofNat 32 (fma32 (widenBf16 y.1) (widenBf16 y.2) x.toNat)) z.acc }
  else
    let bad (y : Nat × Nat) : Bool := mxin == 0 && ((decE4M3 y.1).isNan || (decE4M3 y.2).isNan)
    let img (x : Nat) : Int := if mxin = 0 then imgE4M3 x else sxt 8 x
    let k := l.filter fun y => !bad y
    u.acc = z.acc ∧ u.nan = (z.nan || l.any bad) ∧
      u.p = z.p + BitVec.ofInt 56 (k.map fun y => img y.1 * img y.2).sum ∧
      u.res % 63 = (z.res + (k.map fun y => ((img y.1 % 63) * (img y.2 % 63)).toNat).sum) % 63

/-- What promotion makes of an element under FP8 or INT8 (R175): FP8 adds to ACC the exact partial in units of 2^-18 times the
rounded product of the scales, rounded once; INT8 adds the partial modulo 2^32. -/
def ZElem.Promotes (mxin : Nat) (z u : ZElem) (sa sw : Word) : Prop :=
  let s := f32.unpack (mul32 sa.toNat sw.toNat)
  let x : ℚ := (z.p.toInt : ℚ) * 2 ^ (-18 : Int) * s.rat
  u.p = 0#56 ∧ u.nan = false ∧ u.res = 0 ∧
    if mxin ≠ 0 then u.acc = z.acc + BitVec.ofInt 32 z.p.toInt
    else if z.nan then u.acc = 0x7FC00000#32
    else ∃ q fl, u.acc = BitVec.ofNat 32 (add32 z.acc.toNat q) ∧
      (s.finite = true → x ≠ 0 → (RCtx.full f32 .rne).Rounds x (q, fl)) ∧ (s.finite = true → x = 0 → q = 0) ∧
      (s.isNan = true → q = 0x7FC00000) ∧
      ∀ n, s = .inf n → q = if z.p = 0#56 then 0x7FC00000 else f32.infBits (n != z.p.msb)

/-- What the trap of a cause leaves, where the tile can take it: traps are unmasked, there is a handler, and nothing overflows
as the tile settles (R322, R330). -/
structure Tile.Traps (t : Tile) (u : Tile) (cause : Cause) (after : Bool) (slot : Nat) (faddr info : DWord) : Prop where
  taken : u = t.takeTrap cause after slot faddr info t.sch.pc
  masked : u.sch.tm = true
  handler : u.sch.pc = t.ctl.tvec
  later : t.sch.cycle + 12 ≤ u.sch.ready

end Sys2Proof.Machine
end

