-- ==== Sys2Proof/Certificates/Slice0/Obligations.lean ====
section
/-! DEFINITION. The statements about the machine that the provers take up. -/

section

open Sys2Proof Sys2Proof.Machine

/-- A step runs what its bundle decodes to (R191, R199, R208): where nothing else comes first, the instruction that the words
at pc decode to, alone or with the slots of its bundle after it, once the fetch has met the errors of its words (R366, R367), which
changes no register and no memory, and nothing where there is none; then the turn passes; words that decode to nothing run the
invalid bundle's step with their cause; a device step that is due, an event of the tile, the next slot of an open bundle, or the
replay of a stage (R370) comes before a bundle; and exec answers a next state for every instruction in every state. How turns
pass, a memory send going on as its tile's turn ends, is the model's own choice (entry 1). -/
def Obligations.StepRunsDecoded : Prop :=
  (∀ (i : Instr) (s : State), ∃ u, exec i s = .next u) ∧
  (∀ (s : State) (i : Instr) (h : Hdr) (r : List Word), s.Fetches → decodeHead s.core.ahead = .ok (i, r) → i.hdr = some h →
    vEncOk s.core.ctl.fmt i = true →
      (h.last = true → ∃ u, exec i s.met = .next u ∧ step s = .next u.turn) ∧
      (∀ j l, h.last = false → s.met.core.fetchBundle = .ok (i :: j :: l) →
        ∃ u, exec i { s.met with bundle := some ⟨s.met.core, 0, none, none, none⟩ } = .next u ∧ step s = .next u.turn)) ∧
  (∀ (s : State) (c : Cause), s.Fetches → decodeHead s.core.ahead = .error c →
    ∃ u, exec (.invalidBundle c 0#3) s.met = .next u ∧ step s = .next u.turn) ∧
  (∀ t : Tile, t.fetchMeet.files = t.files ∧ t.fetchMeet.pad = t.pad ∧ t.fetchMeet.ctl = t.ctl ∧ t.fetchMeet.sch.pc = t.sch.pc ∧
    (t.pad.codeSoft = [] → t.fileSoft = 0 → t.fileBad = false → t.inj.armed = 0 → t.fetchMeet = t)) ∧
  (∀ (s : State) (t : Tile), s.agenda = [] → s.dev.power.shutdown = false → s.bundle = none → s.core.dueEvent = none →
    s.core.mayIssue = true → s.core.replayFirst = some t →
    step s = .next (s.withCore t).turn ∧ t.files = s.core.files ∧ t.pad = s.core.pad ∧ t.sch.pc = s.core.sch.pc ∧
      t.sch.ready = Nat.max s.core.sch.ready s.core.sch.cycle + 2) ∧
  (∀ (s : State) (b : Bundle) (i : Instr) (l : List Instr), s.agenda = [] → s.dev.power.shutdown = false →
    s.bundle = some b → b.start.scan (8 - b.pos) b.pos false = .ok (i :: l) →
    ∃ u, exec i s = .next u ∧ step s = .next u.turn) ∧
  (∀ (s : State) (e : Due) (l : List Due), s.agenda = e :: l → step s = runDue e { s with agenda := l }) ∧
  (∀ (s : State) (e : Due), s.agenda = [] → s.dev.power.shutdown = false → s.bundle = none → s.core.dueEvent = some e →
    step s = runDue e s) ∧
  (∀ (s : State) (t : Tile) (l : List Tile), s.bundle = none → s.others = t :: l →
    (∀ x ∈ s.core.progressSends :: s.others, x.hits.isEmpty = true) →
    s.turn.core = t ∧ s.turn.others = l ++ [s.core.progressSends] ∧ s.turn.dev.hbm = s.dev.hbm ∧ ∃ m, s.turn.agenda = s.agenda ++ m)

/-- Decoding an encoding gives the instruction back with every operand, for every well-formed slot, whatever follows it; and
every word that decodes is the encoding of the one well-formed slot it decodes to (R190 to R198). -/
def Obligations.DecodeEncodeAgree : Prop :=
  (∀ (i : Instr) (h : Hdr) (r : List Word), i.hdr = some h → i.wf = true →
    (h.last = true ∨ ∀ w ∈ r.head?, isY w = false) → decodeHead (encode i ++ r) = .ok (i, r)) ∧
  (∀ (l r : List Word) (i : Instr), decodeHead l = .ok (i, r) → l = encode i ++ r ∧ i.wf = true ∧ ∃ h, i.hdr = some h)

/-- The words of the code image of Table 09-14, and a word of each class written out from the formats of Table 09-3, decode
to the slots they stand for. -/
def Obligations.DecodedWords : Prop :=
  let e : Hdr := ⟨true, 0#3⟩
  let m : Hdr := ⟨false, 0#3⟩
  decodeHead [0x09804200#32] = .ok (.xtoa m 1#4 1#5, []) ∧
  decodeHead [0x89808400#32] = .ok (.xtoa e 2#4 2#5, []) ∧
  decodeHead [0x91010401#32] = .ok (.ldw e 4#5 1#4 (.short 0#5) 0#2 1#3, []) ∧
  decodeHead [0x91014422#32] = .ok (.ldw e 5#5 1#4 (.short 1#5) 0#2 2#3, []) ∧
  decodeHead [0x50003000#32] = .ok (.wait m 3#7 0#3, []) ∧
  decodeHead [0x80418850#32] = .ok (.add e 6#5 4#5 5#5, []) ∧
  decodeHead [0x91C18808#32] = .ok (.stw e 6#5 2#4 (.short 0#5) 1#2, []) ∧
  decodeHead [0xC4000000#32] = .ok (.endTask e, []) ∧
  decodeHead [0b00001001000000101000000000000111#32, 0b11110001001000110100010101100111#32] =
    .ok (.movi e 5#5 (.long 0x12345677#32), []) ∧
  decodeHead [0b10100000110100001100001000101001#32] = .ok (.vfma ⟨true, 2#3⟩ 3#5 1#5 2#5 4#3 true, []) ∧
  decodeHead [0b10110010010000001001100000101100#32] = .ok (.xpt e (.ring 1#3) (.ring 3#3) 4#3, []) ∧
  decodeHead [0b11000001100111111111111111111001#32] = .ok (.loop ⟨true, 3#3⟩ (.short 0xFFFF#16) true, [])

/-- What reset leaves (R47, R134, R135, R146, R400): the tile in turn idle, its registers zero but for p0, scratchpad empty
and zero, no copy issued, tags free; nothing powered, ready, keyed, queued or enrolled. That a tile stands as at a launch,
and the contents of memory, are the model's choice (entries 2, 5, 6). -/
def Obligations.ResetValues : Prop :=
  let s := State.reset
  let t := s.core
  s.agenda = [] ∧ s.bundle = none ∧ s.others = [] ∧ t.sch.status = .idle ∧ t.sch.tm = false ∧ t.sch.cycle = 0 ∧
  (∀ r, t.rs r = 0#32) ∧ (∀ r, t.ra r = 0#32) ∧ (∀ r, t.rp r = decide (r = 0#3)) ∧ (∀ r k, laneWord t r k = 0#32) ∧
  (∀ n, n < 8 → t.tagSt n = .free) ∧ (∀ a, t.pad.mem.read a = 0#8) ∧ (∀ g, t.pad.full.has g = false) ∧
  (∀ n, n < 8 → (t.copyCh n).issued = 0#32 ∧ (t.copyCh n).done = 1#32 ∧ (t.copyCh n).halted = none) ∧
  t.ctl.vbud = 28 ∧ t.ctl.fmt = 0#32 ∧ t.ctl.rrb = 0 ∧ t.ctl.tvec = 0#32 ∧ (∀ n, (t.inCh n).bound = false) ∧
  Memory.wf t.pad.mem = true ∧ Memory.wf t.pad.code = true ∧ Memory.wf s.dev.hbm = true ∧
  s.dev.power.on = false ∧ s.dev.power.shutdown = false ∧ s.dev.bar0.waferid = 0 ∧
  (∀ k, (s.dev.readyOf k).ready = false ∧ (s.dev.readyOf k).failed = false) ∧ s.dev.queues = [] ∧ s.dev.nodes = [] ∧
  s.dev.kiln.keys = [] ∧ s.dev.kiln.operator = none ∧ s.dev.kiln.enrolCount ≤ 15 ∧ s.dev.kiln.leaf ≤ 2 ^ 20

/-- Register names (R146, R149, R150): s0 reads zero and p0 true whatever is written; a written register reads as written by
its own name, every other name as before; s16 to s31 and p4 to p7 rotate with rrb, so that a value is read under the next
name once LOOP has rotated. -/
def Obligations.RegisterNames : Prop :=
  ∀ (t : Tile) (d r : BitVec 5) (p q : BitVec 3) (x : Word) (v : Bool),
    t.rs 0#5 = 0#32 ∧ t.rp 0#3 = true ∧
    (t.write1 (t.ws 0#5 x)).files = t.files ∧ (t.write1 (t.wp 0#3 v)).files = t.files ∧
    (t.write1 (t.ws d x)).rs r = (if d ≠ 0#5 ∧ r = d then x else t.rs r) ∧
    (t.write1 (t.wp p v)).rp q = (if p ≠ 0#3 ∧ q = p then v else t.rp q) ∧
    (t.write1 (t.ws d x)).rp q = t.rp q ∧
    rotS t.ctl.rrb r = (if r.toNat < 16 then r.toNat else 16 + (r.toNat - 16 + t.ctl.rrb) % 16) ∧
    rotP t.ctl.rrb q = (if q.toNat < 4 then q.toNat else 4 + (q.toNat - 4 + t.ctl.rrb) % 4) ∧
    rotV t.ctl.rrb r.toNat = (if r.toNat < 12 then r.toNat else 12 + (r.toNat - 12 + t.ctl.rrb) % 16) ∧
    (16 ≤ r.toNat → r.toNat < 31 → (t.rotateLoop v).rs (r + 1#5) = t.rs r) ∧
    (4 ≤ q.toNat → q.toNat < 7 → (t.rotateLoop v).rp (q + 1#3) = t.rp q) ∧ (t.rotateLoop v).rp 4#3 = v

/-- The checks of an access of one item (Table 11-1, checks 3 to 5; R27 to R29): an unaligned address, a byte outside Table
02-1, and what Table 02-2 refuses, each with its cause and the address; the general scratchpad allows every access. -/
def Obligations.AccessChecks : Prop :=
  ∀ (t : Tile) (k : AKind) (n a : Nat) (alc : Cause) (q : Bool), n ∈ [1, 2, 4, 16, 64] →
    let c := accessCheck t k n alc q [itemOf a n]
    let stop (x : Cause) : Check := .raise x (BitVec.ofNat 64 a) 0#64 []
    let writes : Bool := k = .store ∨ k = .storeW ∨ k = .wideStore ∨ k = .eval
    (a % n ≠ 0 → c = stop alc) ∧
    (a % n = 0 →
      (a < 0x2F000 → c = .ok) ∧
      (0x2F000 ≤ a → a < 0x30000 → c = if writes && !t.sch.tm then stop .carve else .ok) ∧
      (0x30000 ≤ a ∧ a < 0x40000 ∨ 0x40600 ≤ a ∧ a < 0x50000 ∨ 0x50040 ≤ a ∧ a < 0x60000 ∨ 0x60100 ≤ a → c = stop .sprange) ∧
      (0x40000 ≤ a ∧ a < 0x40600 ∨ 0x60000 ≤ a ∧ a < 0x60100 →
        c = if q then stop .apert else match k with
          | .load | .loadW => .ok
          | .store | .storeW | .wideStore => stop .spwro
          | .wideLoad => stop .apert
          | .eval => stop .atomop) ∧
      (0x50000 ≤ a ∧ a < 0x50040 →
        c = if q then stop .apert else match k with
          | .loadW => .ok
          | .storeW => if a % 8 = 0 then .ok else stop .apert
          | .load | .store | .wideLoad | .wideStore => stop .apert
          | .eval => stop .atomop))

/-- Memories (R4): a wide write reads back as the value it wrote, little-endian byte by byte, and leaves every other byte;
two memories in canonical form that read alike everywhere are one. -/
def Obligations.MemoryReadsBack : Prop :=
  ∀ (m : Memory) (a n v : Nat), Memory.wf m = true →
    (m.putVal a n v).val a n = v % 256 ^ n ∧
    (∀ k, k < n → (m.putVal a n v).read (a + k) = BitVec.ofNat 8 (v / 256 ^ k)) ∧
    (∀ x, x < a ∨ a + n ≤ x → (m.putVal a n v).read x = m.read x) ∧
    (∀ m' : Memory, Memory.wf m' = true → (∀ x, m'.read x = m.read x) → m' = m)

/-- No slot stops the machine or reaches into another tile (R26, R27): exec answers a next state in every state; every other
tile stays as it is, and the tile in turn stays at its place. Of the device a slot changes only what a report does (R332, R335):
the record, its ring and its message, the cause of the tile's node and the failure of a migration that moves the tile; a slot that
leaves its tile running changes nothing of the device and adds nothing to what is to come. -/
def Obligations.SlotsStayInTheirTile : Prop :=
  ∀ (i : Instr) (h : Hdr) (s : State), i.hdr = some h →
    ∃ u, exec i s = .next u ∧ u.others = s.others ∧ u.core.coord = s.core.coord ∧ u.core.pos = s.core.pos ∧
      u.core.recs = [] ∧ (∃ l, u.agenda = s.agenda ++ l) ∧ u.dev.kiln = s.dev.kiln ∧ u.dev.net = s.dev.net ∧
      u.dev.queues = s.dev.queues ∧ u.dev.graphs = s.dev.graphs ∧ u.dev.regions = s.dev.regions ∧
      u.dev.ready = s.dev.ready ∧ u.dev.bar0 = s.dev.bar0 ∧ u.dev.loops = s.dev.loops ∧ u.dev.locks = s.dev.locks ∧
      u.dev.ports = s.dev.ports ∧ u.dev.power = s.dev.power ∧ u.dev.waits = s.dev.waits ∧
      u.dev.boxes = s.dev.boxes ∧ u.dev.exposures = s.dev.exposures ∧
      u.dev.nodes.map (fun n => { n with cause := 0 }) = s.dev.nodes.map (fun n => { n with cause := 0 }) ∧
      u.dev.migrations.map (fun m => { m with failed := false }) = s.dev.migrations.map (fun m => { m with failed := false }) ∧
      (s.core.recs = [] → u.core.sch.status = .running → u.dev = s.dev ∧ u.agenda = s.agenda)

/-- What the Kiln holds in fuses never falls (R397, R398, R400): every step keeps the anti-rollback counter, the enrolment
counter, which stays at most 15, and the number of signatures made, at most 2^20, or raises them. -/
def Obligations.KilnCountersNeverFall : Prop :=
  ∀ (s u : State), step s = .next u → s.dev.kiln.enrolCount ≤ 15 → s.dev.kiln.leaf ≤ 2 ^ 20 →
    s.dev.kiln.rollback ≤ u.dev.kiln.rollback ∧ s.dev.kiln.enrolCount ≤ u.dev.kiln.enrolCount ∧
      u.dev.kiln.enrolCount ≤ 15 ∧ s.dev.kiln.leaf ≤ u.dev.kiln.leaf ∧ u.dev.kiln.leaf ≤ 2 ^ 20

/-- ADD, SUB, AND, OR, XOR, ANDN and the shifts: the result of Table 10-1, in numbers, written with latency 1; a shift amount
is the low five bits of its operand (R210, R213). -/
def Obligations.RegisterArithmetic : Prop :=
  ∀ (s : State) (h : Hdr) (d a b : BitVec 5), s.Ready h.guard →
    let x := s.core.rs a
    let y := s.core.rs b
    let k := y.toNat % 32
    let put (w : Word) : Tile := s.core.write1 (s.core.ws d w)
    Issues (.add h d a b) s (put (num (sNum x + sNum y))) ∧
    Issues (.sub h d a b) s (put (num (sNum x - sNum y))) ∧
    Issues (.and h d a b) s (put (x &&& y)) ∧
    Issues (.or h d a b) s (put (x ||| y)) ∧
    Issues (.xor h d a b) s (put (x ^^^ y)) ∧
    Issues (.andn h d a b) s (put (x &&& ~~~y)) ∧
    Issues (.shl h d a b) s (put (num (uNum x * 2 ^ k))) ∧
    Issues (.shr h d a b) s (put (num (uNum x / 2 ^ k))) ∧
    Issues (.sar h d a b) s (put (num (sNum x / 2 ^ k))) ∧
    Issues (.rotl h d a b) s (put (num (uNum x * 2 ^ k + uNum x / 2 ^ (32 - k))))

/-- MUL, MULH and MULI land the low or the high word of the product three cycles after issue, XTOV one lane after two cycles,
VTOX a lane after three (R210, R217). DIV and REM with a free tag: quotient and remainder toward zero land 18 cycles after
issue; division by zero gives all ones and the dividend, the one overflow 0x80000000 and 0 (R212). -/
def Obligations.ProductsAndDivision : Prop :=
  (∀ (s : State) (h : Hdr) (d a b : BitVec 5) (u : Bool) (m : Imm 9 32) (l : BitVec 4), s.Ready h.guard →
     let x := s.core.rs a
     let y := s.core.rs b
     let fly (lat : Nat) (w : RegWrite) (i : Instr) : Tile := s.core.flying lat 0#3 w 0 0#64 i
     Issues (.mul h d a b u) s (fly 3 (s.core.ws d (num (sNum x * sNum y))) (.mul h d a b u)) ∧
     Issues (.mulh h d a b u) s (fly 3 (s.core.ws d (num (numBy u x * numBy u y / 2 ^ 32))) (.mulh h d a b u)) ∧
     Issues (.muli h d a m) s (fly 3 (s.core.ws d (num (sNum x * immNum m))) (.muli h d a m)) ∧
     Issues (.xtov h d a l) s (fly 2 (.vLane (rotV s.core.ctl.rrb d.toNat) l.toNat x) (.xtov h d a l)) ∧
     Issues (.vtox h d a l) s (fly 3 (s.core.ws d (lane (s.core.rv a.toNat) l.toNat)) (.vtox h d a l))) ∧
  (∀ (s : State) (h : Hdr) (d a b : BitVec 5) (t : BitVec 3) (u : Bool), s.Ready h.guard → s.core.tagFree t = true →
     let x := s.core.rs a
     let y := s.core.rs b
     let q := if y = 0#32 then num (-1) else num ((numBy u x).tdiv (numBy u y))
     let r := if y = 0#32 then x else num ((numBy u x).tmod (numBy u y))
     Issues (.div h d a b t u) s (s.core.flying 18 t (s.core.ws d q) 4 (y ++ x) (.div h d a b t u)) ∧
     Issues (.rem h d a b t u) s (s.core.flying 18 t (s.core.ws d r) 4 (y ++ x) (.rem h d a b t u)))

/-- CLZ, CTZ, POPC, BREV, BFX and BFI (R210, R211): what their result word is, bit by bit. -/
def Obligations.BitFields : Prop :=
  ∀ (s : State) (h : Hdr) (d a b : BitVec 5) (sx : Bool), s.Ready h.guard →
    let x := s.core.rs a
    let y := s.core.rs b
    let put (w : Word) : Tile := s.core.write1 (s.core.ws d w)
    let pos := y.toNat % 32
    let wid := Nat.min (y.toNat / 256 % 32 + 1) (32 - pos)
    let f := x.toNat / 2 ^ pos % 2 ^ wid
    (∃ n, Issues (.clz h d a) s (put (BitVec.ofNat 32 n)) ∧ n ≤ 32 ∧ x.toNat < 2 ^ (32 - n) ∧
      (n < 32 → 2 ^ (31 - n) ≤ x.toNat)) ∧
    (∃ n, Issues (.ctz h d a) s (put (BitVec.ofNat 32 n)) ∧ n ≤ 32 ∧ (∀ i, i < n → x.getLsbD i = false) ∧
      (n < 32 → x.getLsbD n = true)) ∧
    Issues (.popc h d a) s (put (BitVec.ofNat 32 ((List.range 32).filter fun i => x.getLsbD i).length)) ∧
    (∃ w, Issues (.brev h d a) s (put w) ∧ ∀ i, i < 32 → w.getLsbD i = x.getLsbD (31 - i)) ∧
    Issues (.bfx h d a b sx) s (put (num (if sx = true ∧ 2 ^ (wid - 1) ≤ f then (f : Int) - 2 ^ wid else f))) ∧
    (∃ w, Issues (.bfi h d a b) s (put w) ∧ ∀ i, i < 32 →
      w.getLsbD i = if pos ≤ i ∧ i < pos + wid then x.getLsbD (i - pos) else (s.core.rs d).getLsbD i)

/-- CMP and its immediate forms, MIN, MAX and SEL (R210, R215, R216), over signed and unsigned numbers. The copies between register
files of Table 10-4, the predicate operations of R224, and the two instructions that do nothing (R217, Table 10-5). -/
def Obligations.ComparesAndCopies : Prop :=
  (∀ (s : State) (h : Hdr) (d a b : BitVec 5) (p : BitVec 3) (c : BitVec 4) (m : Imm 9 32) (u : Bool), s.Ready h.guard →
     let x := s.core.rs a
     let y := s.core.rs b
     let put (w : Word) : Tile := s.core.write1 (s.core.ws d w)
     let putP (v : Bool) : Tile := s.core.write1 (s.core.wp p v)
     (∃ v, Issues (.cmp h p a b c) s (putP v) ∧ (c.toNat < 10 → (v = true ↔ cmpHolds c.toNat x y))) ∧
     (∃ v, Issues (.cmpeqi h p a m) s (putP v) ∧ (v = true ↔ sNum x = immNum m)) ∧
     (∃ v, Issues (.cmplti h p a m) s (putP v) ∧ (v = true ↔ sNum x < immNum m)) ∧
     (∃ v, Issues (.cmpltui h p a m) s (putP v) ∧ (v = true ↔ uNum x < uNum (num (immNum m)))) ∧
     (∃ w, Issues (.min h d a b u) s (put w) ∧ (w = x ∨ w = y) ∧ numBy u w ≤ numBy u x ∧ numBy u w ≤ numBy u y) ∧
     (∃ w, Issues (.max h d a b u) s (put w) ∧ (w = x ∨ w = y) ∧ numBy u x ≤ numBy u w ∧ numBy u y ≤ numBy u w) ∧
     Issues (.sel h d a b p) s (put (if s.core.rp p then x else y))) ∧
  (∀ (s : State) (h : Hdr) (d : BitVec 5) (a : BitVec 5) (e : BitVec 4) (p q r : BitVec 3), s.Ready h.guard →
     let putP (v : Bool) : Tile := s.core.write1 (s.core.wp p v)
     Issues (.xtoa h e a) s (s.core.write1 (.a e.toNat (s.core.rs a))) ∧
     Issues (.atox h d e) s (s.core.write1 (s.core.ws d (s.core.ra e))) ∧
     Issues (.xtop h p a) s (putP (decide (uNum (s.core.rs a) % 2 = 1))) ∧
     Issues (.ptox h d p) s (s.core.write1 (s.core.ws d (if s.core.rp p then 1#32 else 0#32))) ∧
     Issues (.pand h p q r) s (putP (s.core.rp q && s.core.rp r)) ∧
     Issues (.por h p q r) s (putP (s.core.rp q || s.core.rp r)) ∧
     Issues (.pxor h p q r) s (putP (s.core.rp q ^^ s.core.rp r)) ∧
     Issues (.pandn h p q r) s (putP (s.core.rp q && !s.core.rp r)) ∧
     Issues (.pmov h p q) s (putP (s.core.rp q)) ∧
     Issues (.nop h) s s.core ∧
     Issues (.bnop h) s s.core)

/-- The immediate forms of Table 10-2, MOVI and MOVHI, LEA and ADDA (R213, R214, R258). -/
def Obligations.Immediates : Prop :=
  ∀ (s : State) (h : Hdr) (d a k : BitVec 5) (m : Imm 9 32) (v : Imm 14 32) (w : BitVec 14) (e f : BitVec 4)
    (o : BitVec 11) (l : Word) (sh : BitVec 2), s.Ready h.guard →
    let x := s.core.rs a
    let put (w : Word) : Tile := s.core.write1 (s.core.ws d w)
    let putA (w : Word) : Tile := s.core.write1 (.a e.toNat w)
    Issues (.addi h d a m) s (put (num (sNum x + immNum m))) ∧
    Issues (.andi h d a m) s (put (x &&& num (immNum m))) ∧
    Issues (.ori h d a m) s (put (x ||| num (immNum m))) ∧
    Issues (.xori h d a m) s (put (x ^^^ num (immNum m))) ∧
    Issues (.shli h d a k) s (put (num (uNum x * 2 ^ k.toNat))) ∧
    Issues (.shri h d a k) s (put (num (uNum x / 2 ^ k.toNat))) ∧
    Issues (.sari h d a k) s (put (num (sNum x / 2 ^ k.toNat))) ∧
    Issues (.movi h d v) s (put (num (immNum v))) ∧
    Issues (.movhi h d w) s (put (num (w.toNat * 2 ^ 18 + uNum (s.core.rs d) % 2 ^ 18))) ∧
    Issues (.lea h e f (.short o)) s (putA (num (sNum (s.core.ra f) + 16 * o.toInt))) ∧
    Issues (.lea h e f (.long l)) s (putA (num (sNum (s.core.ra f) + sNum l))) ∧
    Issues (.adda h e f a sh) s (putA (num (sNum (s.core.ra f) + sNum x * 2 ^ sh.toNat)))

/-- BR, JR, CALL and RET (R218, R219): where the next bundle is, the cost of a hint that was wrong, and what CALL pushes. -/
def Obligations.Transfers : Prop :=
  ∀ (s : State) (h : Hdr) (o : Imm 16 32) (hint : Bool) (a : BitVec 4), s.Ready h.guard →
    let target := num (sNum s.core.sch.pc + match o with
      | .short v => 4 * v.toInt
      | .long w => w.toInt)
    Issues (.br h o hint) s (s.core.transfer target (if hint then 0 else 2)) ∧
    Issues (.jr h a) s (s.core.transfer (s.core.ra a) 2) ∧
    (∀ l r, s.core.sch.rstk = l ++ [r] →
      Issues (.ret h) s ((s.core.transfer r 0).withSch fun c => { c with rstk := l })) ∧
    (s.core.sch.rstk.length < 16 → ∃ t, exec (.call h o hint) s = .next t ∧
      t.core.sch.rstk = s.core.sch.rstk ++ [s.core.sch.pc + BitVec.ofNat 32 (4 * (encode (.call h o hint)).length)] ∧
      t.core.sch.pc = target ∧ t.core.sch.ready = s.core.sch.cycle + 1 + (if hint then 0 else 2) ∧
      t.core.files = s.core.files ∧ t.core.pad = s.core.pad ∧ t.others = s.others ∧ t.dev = s.dev)

/-- LOOPSET, its pop form, LOOP and LOOPC (R220, R221): the loop stack, lc and ec, one rotation, and the transfer. -/
def Obligations.Loops : Prop :=
  ∀ (s : State) (h : Hdr) (d : BitVec 5) (n : BitVec 9) (o : Imm 16 32) (hint : Bool), s.Ready h.guard →
    let c := s.core.ctl
    let lc1 (t : Tile) : Tile := t.withCtl fun c => { c with lc := c.lc - 1#32 }
    let back (t : Tile) : Tile := t.transfer (branchTo s.core o) 0
    (s.core.sch.lstk.length < 4 →
      Issues (.loopset h d n false) s
        ((s.core.withSch fun k => { k with lstk := k.lstk ++ [(c.lc, c.ec)] }).withCtl fun k =>
          { k with lc := s.core.rs d, ec := n.setWidth 32, rrb := 0 }) ∧
      ∃ t, exec (.loopset h d n true) s = .next t ∧ t.core.ctl.lc = s.core.rs d ∧ t.core.ctl.ec = n.setWidth 32 ∧
        t.core.ctl.rrb = 0 ∧ t.core.sch.lstk = s.core.sch.lstk ++ [(c.lc, c.ec)] ∧
        t.core.files.getP 4 = true ∧ t.core.files.getP 5 = false ∧ t.core.files.getP 6 = false ∧
        t.core.files.getP 7 = false ∧ (∀ r, r < 4 → t.core.files.getP r = s.core.files.getP r) ∧
        t.core.files.s = s.core.files.s ∧ t.core.pad = s.core.pad) ∧
    (∀ l x, s.core.sch.lstk = l ++ [x] → ∃ t, exec (.loopsetPop h) s = .next t ∧ t.core.ctl.lc = x.1 ∧
      t.core.ctl.ec = x.2 ∧ t.core.sch.lstk = l ∧ t.core.files = s.core.files ∧ t.core.pad = s.core.pad) ∧
    (c.lc ≠ 0#32 → Issues (.loopc h o hint) s (back (lc1 s.core)) ∧
      Issues (.loop h o hint) s (back ((lc1 s.core).rotateLoop true))) ∧
    (c.lc = 0#32 → 1 < c.ec.toNat →
      Issues (.loop h o hint) s (back ((s.core.withCtl fun c => { c with ec := c.ec - 1#32 }).rotateLoop false))) ∧
    (c.lc = 0#32 → Issues (.loopc h o hint) s (s.core.popLoop.addCost 2) ∧
      (c.ec = 1#32 → Issues (.loop h o hint) s
        (((s.core.withCtl fun c => { c with ec := 0#32 }).rotateLoop false).popLoop.addCost 2)) ∧
      (c.ec = 0#32 → Issues (.loop h o hint) s (s.core.popLoop.addCost 2)))

/-- How a bundle closes in which no slot acts at the close (R157, R163, R191, R193): one cycle passes, the next bundle is the
one in sequence or the target of a transfer, no earlier than its costs allow, the tags its slots named become outstanding,
and nothing else of the tile changes but fmt values that come into force. A slot whose guard is false (R194, R219) does nothing but
cost what its row of Table 10-6 gives, whatever its instruction, and its bundle closes. -/
def Obligations.BundleClose : Prop :=
  (∀ (t : Tile) (n : Nat), t.sch.closing = [] →
     t.close n = { t with
       ctl := t.ctl.settleFmt (t.sch.cycle + 1)
       sch := { t.sch with
         cycle := t.sch.cycle + 1
         pc := t.sch.xfer.getD (t.sch.pc + BitVec.ofNat 32 (4 * n))
         ready := t.sch.cycle + 1 + t.sch.cost
         waited := 0
         stall := none
         xfer := none
         cost := 0
         tags := t.sch.alloc.foldl (fun v k => v.setIfInBounds k .outstanding) t.sch.tags
         own := if t.sch.tm then t.sch.alloc ++ t.sch.own else t.sch.own
         alloc := [] } }) ∧
  (∀ (s : State) (i : Instr) (h : Hdr), s.bundle = none → s.core.Between → s.core.rp h.guard = false →
     vEncOk s.core.ctl.fmt i = true → i.hdr = some h →
     exec i s = .next (s.withCore ((s.core.withSch fun c => { c with cost := match i with
       | .br _ _ hint => if hint then 2 else 0
       | .call _ _ hint => if hint then 2 else 0
       | .loop _ _ _ => 2
       | .loopc _ _ _ => 2
       | _ => 0 }).close (encode i).length)))

/-- LDB, LDBU, LDH, LDHU and LDW (R236, R237, Table 11-2) that pass their checks behind no queued store: the extended value
of the bytes at their address lands four cycles after issue. The form that takes its granule is in GranulesTaken. -/
def Obligations.ScalarLoads : Prop :=
  ∀ (s : State) (h : Hdr) (d : BitVec 5) (bs : BitVec 4) (o : Imm 5 32) (q : BitVec 2) (t : BitVec 3), s.Ready h.guard →
    s.core.tagFree t = true → s.core.pad.queue = [] → q ≠ 2#2 →
    let a (n : Nat) : Nat := eaOf s.core n bs o
    let may (k : AKind) (n : Nat) : Prop := accessCheck s.core k n .spalign (q != 0#2) [itemOf (a n) n] = .ok ∧
      loadQual s.core q [itemOf (a n) n] = .ok ∧ s.core.Readable ((upTo n).map (a n + ·))
    let fly (x : Int) (i : Instr) : Tile :=
      s.core.loading 4 t [.s (rotS s.core.ctl.rrb d) (num x)] 1 0#64 (num x) [] none i
    let v (n : Nat) : Nat := s.core.valAt (a n) n
    (may .load 1 → Issues (.ldb h d bs o q t) s (fly (if v 1 < 2 ^ 7 then v 1 else v 1 - 2 ^ 8) (.ldb h d bs o q t))) ∧
    (may .load 1 → Issues (.ldbu h d bs o q t) s (fly (v 1) (.ldbu h d bs o q t))) ∧
    (may .load 2 → Issues (.ldh h d bs o q t) s (fly (if v 2 < 2 ^ 15 then v 2 else v 2 - 2 ^ 16) (.ldh h d bs o q t))) ∧
    (may .load 2 → Issues (.ldhu h d bs o q t) s (fly (v 2) (.ldhu h d bs o q t))) ∧
    (may .loadW 4 → Issues (.ldw h d bs o q t) s (fly (v 4) (.ldw h d bs o q t)))

/-- LDV and LDVB (R239, Table 11-2) behind no queued access: sixteen words, or 32 BF16 elements widened into a pair of
registers (a NaN to the default NaN), land five cycles after issue. LDVG (R240): each lane whose index has its sign bit clear
takes the word at aB plus its index, the others keep their value; the latency is five cycles and one for each further bank
cycle. LDT (R241, R242): the image at its address, in row or column order and swizzled, lands in the register or ring slot 8
cycles and one for each row after issue; a ring slot is reserved. -/
def Obligations.WideLoads : Prop :=
  (∀ (s : State) (h : Hdr) (d : BitVec 5) (bs : BitVec 4) (o : Imm 5 32) (q : BitVec 2) (t : BitVec 3), s.Ready h.guard →
     s.core.tagFree t = true → s.core.pad.queue = [] → q ≠ 2#2 →
     let a := eaOf s.core 64 bs o
     let dest (n : Nat) : Nat := rotV s.core.ctl.rrb (d.toNat + n)
     let w (k : Nat) : Word := BitVec.ofNat 32 (s.core.valAt (a + 4 * k) 4)
     let wide (k : Nat) : Word :=
       let v := s.core.valAt (a + 2 * k) 2
       if v / 2 ^ 7 % 2 ^ 8 = 255 ∧ v % 2 ^ 7 ≠ 0 then 0x7FC00000#32 else BitVec.ofNat 32 (v * 2 ^ 16)
     accessCheck s.core .load 64 .spalign (q != 0#2) [itemOf a 64] = .ok → loadQual s.core q [itemOf a 64] = .ok →
     s.core.Readable ((upTo 64).map (a + ·)) →
       Issues (.ldv h d bs o q t) s (s.core.loading 5 t [.v (dest 0) (vreg w)] 2 0#64 0#32
         ((upTo 64).map fun i => s.core.byteAt (a + i)) none (.ldv h d bs o q t)) ∧
       Issues (.ldvb h d bs o q t) s (s.core.loading 5 t [.v (dest 0) (vreg wide), .v (dest 1) (vreg fun k => wide (16 + k))]
         2 0#64 0#32 ((upTo 32).flatMap fun k => wordBytes (wide k)) none (.ldvb h d bs o q t))) ∧
  (∀ (s : State) (h : Hdr) (d : BitVec 5) (bs : BitVec 4) (x : BitVec 5) (q : BitVec 2) (t : BitVec 3), s.Ready h.guard →
     s.core.tagFree t = true → s.core.pad.queue = [] → q ≠ 2#2 →
     let l := gatherLanes s.core bs x
     accessCheck s.core .wideLoad 4 .spalign (q != 0#2) (gatherItems l) = .ok →
     loadQual s.core q (gatherItems l) = .ok → s.core.Readable (l.flatMap fun p => (upTo 4).map (p.2 + ·)) →
     ∃ u f, exec (.ldvg h d bs x q t) s = .next u ∧ u.core.sch.flights = s.core.sch.flights ++ [f] ∧
       f.due = s.core.sch.cycle + 4 + gatherCycles l ∧ f.tag = t ∧ u.core.files = s.core.files ∧ u.core.pad = s.core.pad ∧
       ∀ k, k < 16 → lane ((s.core.files.putAll f.writes).getV (rotV s.core.ctl.rrb d.toNat)) k =
         if (laneWord s.core x k).getLsbD 31 then laneWord s.core d k
         else BitVec.ofNat 32 (s.core.valAt (s.core.ra bs + laneWord s.core x k).toNat 4)) ∧
  (∀ (s : State) (h : Hdr) (r : TileRef) (bs : BitVec 4) (o : Imm 4 32) (col : Bool) (q : BitVec 2) (t : BitVec 3),
     s.Ready h.guard → s.core.tagFree t = true → s.core.pad.queue = [] → q ≠ 2#2 →
     let a := eaLt s.core bs o
     let reg := s.core.refReg true r
     let w := s.core.tshOf reg
     let n := (shapeOf w).rows * (shapeOf w).rowBytes
     tileCheck s.core true r col a = .ok →
     accessCheck s.core .wideLoad 64 .spalign (q != 0#2) [imageItem a w col] = .ok →
     loadQual s.core q [imageItem a w col] = .ok →
     s.core.waitsRead s.core.sch.seq r reg = false → s.core.waitsWrite s.core.sch.seq r reg = false →
     (∀ g, r = .ring g → (s.core.ring g.toNat).canPut = true) →
     s.core.Readable (imageAddrs a (shapeOf w) col) →
     ∃ u f, exec (.ldt h r bs o col q t) s = .next u ∧ u.core.sch.flights = s.core.sch.flights ++ [f] ∧
       f.due = s.core.sch.cycle + 8 + (shapeOf w).rows ∧ f.tag = t ∧ u.core.files = s.core.files ∧ u.core.pad = s.core.pad ∧
       f.writes = [.t reg ((upTo n).map fun k => s.core.byteAt (imageAddr a (shapeOf w) col k))] ∧
       (∀ g, r = .ring g → u.core.ring g.toNat = (s.core.ring g.toNat).reserve) ∧
       (∀ g : BitVec 3, r ≠ .ring g → u.core.ring g.toNat = s.core.ring g.toNat))

/-- A load with the qualifier that takes its granules (R39, Table 02-3), scalar, wide, gathered or of a tile image: the granules it
reads are empty after it, every other keeps its bit, and no byte of memory changes. -/
def Obligations.GranulesTaken : Prop :=
  ∀ (s : State) (h : Hdr) (d x : BitVec 5) (bs : BitVec 4) (o : Imm 5 32) (o' : Imm 4 32) (r : TileRef) (col : Bool)
    (t : BitVec 3), s.Ready h.guard →
    s.core.tagFree t = true → s.core.pad.queue = [] → NatSet.wf s.core.pad.full = true →
    let a (n : Nat) : Nat := eaOf s.core n bs o
    let may (k : AKind) (n : Nat) : Prop := accessCheck s.core k n .spalign true [itemOf (a n) n] = .ok ∧
      loadQual s.core 2#2 [itemOf (a n) n] = .ok ∧ s.core.Readable ((upTo n).map (a n + ·))
    let empties (i : Instr) (p : Nat → Bool) : Prop := ∃ u, exec i s = .next u ∧ u.core.files = s.core.files ∧
      u.core.pad.mem = s.core.pad.mem ∧ ∀ g, u.core.pad.full.has g = (s.core.pad.full.has g && !p g)
    let takes (i : Instr) (n : Nat) : Prop := empties i fun g => decide (a n / 16 ≤ g) && decide (g ≤ (a n + n - 1) / 16)
    let l := gatherLanes s.core bs x
    let reg := s.core.refReg true r
    let img := imageAddrs (eaLt s.core bs o') (shapeOf (s.core.tshOf reg)) col
    (may .load 1 → takes (.ldb h d bs o 2#2 t) 1 ∧ takes (.ldbu h d bs o 2#2 t) 1) ∧
    (may .load 2 → takes (.ldh h d bs o 2#2 t) 2 ∧ takes (.ldhu h d bs o 2#2 t) 2) ∧
    (may .loadW 4 → takes (.ldw h d bs o 2#2 t) 4) ∧
    (may .load 64 → takes (.ldv h d bs o 2#2 t) 64 ∧ takes (.ldvb h d bs o 2#2 t) 64) ∧
    (accessCheck s.core .wideLoad 4 .spalign true (gatherItems l) = .ok → loadQual s.core 2#2 (gatherItems l) = .ok →
      s.core.Readable (l.flatMap fun p => (upTo 4).map (p.2 + ·)) →
      empties (.ldvg h d bs x 2#2 t) fun g => l.any fun p => p.2 / 16 == g) ∧
    (tileCheck s.core true r col (eaLt s.core bs o') = .ok →
      accessCheck s.core .wideLoad 64 .spalign true [⟨eaLt s.core bs o', img⟩] = .ok →
      loadQual s.core 2#2 [⟨eaLt s.core bs o', img⟩] = .ok →
      s.core.waitsRead s.core.sch.seq r reg = false → s.core.waitsWrite s.core.sch.seq r reg = false →
      (∀ g, r = .ring g → (s.core.ring g.toNat).canPut = true) → s.core.Readable img →
      empties (.ldt h r bs o' col 2#2 t) fun g => img.any fun y => y / 16 == g)

/-- STB, STH, STW and STV (R236 to R238): the low bytes of the register, little-endian, wait in the store queue for their
address, with the granules a qualifier fills; nothing in memory changes before the store is performed. STW at the copy
aperture (R46, R255): the store that waits in the queue starts the copy of the template it names on the channel of its
address. -/
def Obligations.ScalarStores : Prop :=
  (∀ (s : State) (h : Hdr) (d : BitVec 5) (bs : BitVec 4) (o : Imm 5 32) (q : BitVec 2), s.Ready h.guard →
     let a (n : Nat) : Nat := eaOf s.core n bs o
     let may (k : AKind) (n : Nat) : Prop := accessCheck s.core k n .spalign (q != 0#2) [itemOf (a n) n] = .ok ∧
       storeQual s.core q [itemOf (a n) n] = .ok ∧ rangeOf (a n) ≠ .aperture
     let put (n : Nat) (byte : Nat → Nat) (i : Instr) : Tile :=
       s.core.queued 0#3 (.store ((upTo n).map fun k => (a n + k, BitVec.ofNat 8 (byte k)))
         (if q = 0#2 then [] else granules (a n) n)) 0 i
     let low (k : Nat) : Nat := (s.core.rs d).toNat / 256 ^ k
     (may .store 1 → Issues (.stb h d bs o q) s (put 1 low (.stb h d bs o q))) ∧
     (may .store 2 → Issues (.sth h d bs o q) s (put 2 low (.sth h d bs o q))) ∧
     (may .storeW 4 → Issues (.stw h d bs o q) s (put 4 low (.stw h d bs o q))) ∧
     (may .store 64 → Issues (.stv h d bs o q) s
       (put 64 (fun k => (laneWord s.core d (k / 4)).toNat / 256 ^ (k % 4)) (.stv h d bs o q)))) ∧
  (∀ (s : State) (h : Hdr) (d : BitVec 5) (bs : BitVec 4) (o : Imm 5 32), s.Ready h.guard →
     let a := eaOf s.core 4 bs o
     let ch := (a - 0x50000) / 8
     0x50000 ≤ a → a < 0x50040 → a % 8 = 0 → (s.core.rs d).toNat < 64 → s.core.chHalted ch = false →
     s.core.roomFor 32 = true → s.core.copiesOpen ch < 16 →
     Issues (.stw h d bs o 0#2) s
       (s.core.queued 0#3 (.start ch (s.core.rs d).toNat (!s.core.blocks.isEmpty)) 0 (.stw h d bs o 0#2)))

/-- STVG and STT (R240 to R242): the words of the active lanes, or the bytes of the image, wait in the store queue for their
addresses; a store from a ring frees its slot. -/
def Obligations.WideStores : Prop :=
  ∀ (s : State) (h : Hdr) (d x : BitVec 5) (r : TileRef) (bs : BitVec 4) (o : Imm 4 32) (col : Bool) (q : BitVec 2),
    s.Ready h.guard →
    let l := gatherLanes s.core bs x
    let a := eaLt s.core bs o
    let reg := s.core.refReg false r
    let sh := shapeOf (s.core.tshOf reg)
    let img := imageItem a (s.core.tshOf reg) col
    (accessCheck s.core .wideStore 4 .spalign (q != 0#2) (gatherItems l) = .ok → storeQual s.core q (gatherItems l) = .ok →
      Issues (.stvg h d bs x q) s (s.core.queued 0#3
        (.store (l.flatMap fun p => (upTo 4).map fun k =>
          (p.2 + k, BitVec.ofNat 8 ((laneWord s.core d p.1).toNat / 256 ^ k)))
          (if q = 0#2 then [] else itemGrans (gatherItems l))) 0 (.stvg h d bs x q))) ∧
    (tileCheck s.core false r col a = .ok → accessCheck s.core .wideStore 64 .spalign (q != 0#2) [img] = .ok →
      storeQual s.core q [img] = .ok → (∀ g, r = .ring g → (s.core.ring g.toNat).canTake = true) →
      ∃ u, exec (.stt h r bs o col q) s = .next u ∧ u.core.files = s.core.files ∧ u.core.pad.mem = s.core.pad.mem ∧
        (∃ e, u.core.pad.queue = s.core.pad.queue ++ [e] ∧ e.at_ = s.core.sch.cycle ∧
          e.act = .store ((imageAddrs a sh col).zip (s.core.files.getT reg (sh.rows * sh.rowBytes)))
            (if q = 0#2 then [] else itemGrans [img])) ∧
        (∀ g, r = .ring g → u.core.ring g.toNat = (s.core.ring g.toNat).take) ∧
        (∀ g : BitVec 3, r ≠ .ring g → u.core.ring g.toNat = s.core.ring g.toNat))

/-- The bank atomics (R246, Table 02-7) behind no queued access: the word at their address takes the result of the table and
its old value lands six cycles after issue. -/
def Obligations.BankAtomics : Prop :=
  ∀ (s : State) (h : Hdr) (d : BitVec 5) (bs : BitVec 4) (v : BitVec 5) (o : Imm 2 30) (t : BitVec 3), s.Ready h.guard →
    s.core.tagFree t = true → s.core.pad.queue = [] →
    let a := (s.core.ra bs + immLa o).toNat
    accessCheck s.core .eval 4 .spalign false [itemOf a 4] = .ok → s.core.Readable ((upTo 4).map (a + ·)) →
    let old := s.core.pad.mem.word a
    let x := s.core.rs v
    let swaps (w : Word) (i : Instr) : Prop := Issues i s
      ((s.core.withPad fun p => { p with mem := p.mem.putVal a 4 w.toNat }).loading 6 t
        [.s (rotS s.core.ctl.rrb d) old] 3 0#64 old [] none i)
    swaps (num (uNum old + uNum x)) (.aadd h d bs v o t) ∧
    swaps (old &&& x) (.aand h d bs v o t) ∧
    swaps (old ||| x) (.aor h d bs v o t) ∧
    swaps (old ^^^ x) (.axor h d bs v o t) ∧
    swaps (num (min (sNum old) (sNum x))) (.amin h d bs v o t) ∧
    swaps (num (max (sNum old) (sNum x))) (.amax h d bs v o t) ∧
    swaps (num (min (uNum old) (uNum x))) (.aminu h d bs v o t) ∧
    swaps (num (max (uNum old) (uNum x))) (.amaxu h d bs v o t) ∧
    swaps (BitVec.ofNat 32 (add32 old.toNat x.toNat)) (.afadd h d bs v o t) ∧
    swaps x (.aswap h d bs v o t) ∧
    swaps (if old = s.core.rs d then x else old) (.acas h d bs v o t)

/-- The barrier instructions (R247 to R252) behind no queued access: BARINIT writes the object, BARTX changes TXPEND, BARRD
reads a field, BARWAIT passes once the phase has moved on, and BARARR's arrival comes three cycles after issue. FESET, FECLR
and FERD (R253, R37) behind no queued access: a run of granules becomes full or empty, every other keeps its bit and no byte
of memory changes; FERD reads sixteen bits. -/
def Obligations.BarriersAndGranules : Prop :=
  (∀ (s : State) (h : Hdr) (r : BitVec 5) (bs : BitVec 4) (o : Imm 5 32) (k : BitVec 2) (t : BitVec 3), s.Ready h.guard →
     s.core.tagFree t = true → s.core.pad.queue = [] →
     let a := eaOf s.core 16 bs o
     accessCheck s.core .eval 16 .baraln false [itemOf a 16] = .ok → s.core.Readable ((upTo 16).map (a + ·)) →
     let b := s.core.pad.bar a
     let x := (s.core.rs r).toNat
     let y := (s.core.rs (r + 1#5)).toNat
     let put (b : Bar) : Tile := s.core.withPad fun p => { p with mem := p.mem.putVal a 16 b.toVal }
     let field : Word := if k = 0#2 then s.core.pad.mem.word a else if k = 1#2 then BitVec.ofNat 32 b.pend
       else if k = 2#2 then BitVec.ofNat 32 b.txpend else BitVec.ofNat 32 b.arrseq
     (1 ≤ x → x ≤ 65535 → Issues (.barinit h r bs o) s
       (put { phase := 0, ovr := false, txu := false, tmo := false, bit7 := false, expect := x, pend := x, txpend := y,
              reload := y, arrseq := 0 })) ∧
     (1 ≤ x → x ≤ 65535 → Issues (.bararr h r bs o t) s (s.core.queued t (.arrive a x t) 3 (.bararr h r bs o t))) ∧
     (x ≠ 0 → b.txpend + x < 2 ^ 32 → Issues (.bartxAdd h r bs o) s (put { b with txpend := b.txpend + x })) ∧
     (x ≠ 0 → x ≤ b.txpend → Issues (.bartxDec h r bs o) s
       (put (if b.pend = 0 ∧ b.txpend = x then
           { b with phase := (b.phase + 1) % 16, pend := b.expect, txpend := b.reload }
         else { b with txpend := b.txpend - x }))) ∧
     (x ≠ 0 → b.txpend < x → Issues (.bartxDec h r bs o) s (put { b with txu := true })) ∧
     (b.txu = false → b.phase ≠ x % 16 → Issues (.barwait h r bs o) s s.core) ∧
     (Issues (.barrd h r bs o k t) s
       (s.core.loading 4 t [.s (rotS s.core.ctl.rrb r) field] 1 0#64 field [] none (.barrd h r bs o k t)))) ∧
  (∀ (s : State) (h : Hdr) (r : BitVec 5) (bs : BitVec 4) (o : Imm 5 32) (t : BitVec 3), s.Ready h.guard →
     s.core.pad.queue = [] → NatSet.wf s.core.pad.full = true →
     let a := eaOf s.core 16 bs o
     let n := (s.core.rs r).toNat % 16 + 1
     let inRun (g : Nat) : Bool := decide (a / 16 ≤ g) && decide (g < a / 16 + n)
     let runs (i : Instr) (f : Nat → Bool) : Prop := ∃ u, exec i s = .next u ∧ u.core.files = s.core.files ∧
       u.core.pad.mem = s.core.pad.mem ∧ ∀ g, u.core.pad.full.has g = f g
     (accessCheck s.core .eval 16 .spalign false (runItems s.core r a) = .ok →
       runs (.feset h r bs o) (fun g => s.core.pad.full.has g || inRun g) ∧
       runs (.feclr h r bs o) (fun g => s.core.pad.full.has g && !inRun g)) ∧
     (accessCheck s.core .eval 16 .spalign false [itemOf a 16] = .ok → s.core.tagFree t = true →
       ∃ v, Issues (.ferd h r bs o t) s (s.core.loading 4 t [.s (rotS s.core.ctl.rrb r) v] 1 0#64 v [] none (.ferd h r bs o t)) ∧
         ∀ i, i < 32 → v.getLsbD i = (decide (i < 16) && s.core.pad.full.has (a / 16 + i))))

/-- SPILL and FILL (R243 to R245) within the carve-out and behind no queued access: SPILL stores each register of its list at
its place and nothing else; FILL puts a result in flight for each, with the element at its place. The bulk loads and stores
(R254, R80, R314): an access of their own at the address bb pair plus aB; a load of a line of the read buffer, when no earlier load
of it is out (R113) and no ACQ (R119), is served from it after six cycles; a store takes its data at issue, and is staged while a
block is open. -/
def Obligations.SpillsAndBulkAccesses : Prop :=
  (∀ (s : State) (h : Hdr) (f : BitVec 5) (bs n : BitVec 4) (c : BitVec 2) (t : BitVec 3), s.Ready h.guard →
     s.core.tagFree t = true → s.core.pad.queue = [] → Memory.wf s.core.pad.mem = true →
     (∀ l ∈ s.core.lists, l.seq ≠ s.core.sch.seq) →
     let ea := (s.core.ra bs).toNat
     let size := fileSize c
     let regs := listRegs s.core f n c
     ea % size = 0 → s.core.ctl.carveBase ≤ ea → ea + size * (n.toNat + 1) ≤ s.core.ctl.carveEnd →
     (∃ u, exec (.spill h f bs n c t) s = .next u ∧ u.core.files = s.core.files ∧
       (∀ k r, regs[k]? = some r → u.core.pad.mem.bytes (ea + size * k) size = elementBytes s.core.files c.toNat r) ∧
       ∀ a, (a < ea ∨ ea + size * (n.toNat + 1) ≤ a) → u.core.pad.mem.read a = s.core.pad.mem.read a) ∧
     (s.core.Readable ((upTo (size * (n.toNat + 1))).map (ea + ·)) → s.core.ctl.carveEnd ≤ padSize →
       ∃ u, exec (.fill h f bs n c t) s = .next u ∧ u.core.files = s.core.files ∧ u.core.pad.mem = s.core.pad.mem ∧
         ∀ k r, regs[k]? = some r → ∃ x ∈ u.core.sch.flights, x.seq = s.core.sch.seq ∧
           x.writes = [elementWrite c.toNat r (s.core.pad.mem.bytes (ea + size * k) size)])) ∧
  (∀ (s : State) (h : Hdr) (r : BitVec 5) (bs : BitVec 4) (bb t : BitVec 3), s.Ready h.guard →
     s.core.tagFree t = true →
     let va := (((s.core.ctl.bb[bb.toNat]?).getD 0#64).toNat + (s.core.ra bs).toNat) % 2 ^ 64
     let dest (k : Nat) : Nat := rotS s.core.ctl.rrb (r + BitVec.ofNat 5 k)
     let acc (kind : AccKind) (n : Nat) (data : List Byte) (ds : List Nat) (staged : Bool) : BulkAcc :=
       { seq := s.core.sch.seq, kind := kind, va := va, len := n, data := data, tag := t, dest := ds, stage := .inTile,
         noticed := false, notice := false, dropped := false, staged := staged }
     let load (a : BulkAcc) : Tile := { s.core.allocTag t with accs := s.core.accs ++ [a] }
     let word (k : Nat) : List Byte := wordBytes (s.core.rs (r + BitVec.ofNat 5 k))
     let stores (i : Instr) (kind : AccKind) (n : Nat) (data : List Byte) : Prop :=
       (s.core.blocks = [] → s.core.pad.bufLine va = none →
         Issues i s { s.core.allocTag t with accs := s.core.accs ++ [acc kind n data [] false] }) ∧
       (∀ b l, s.core.blocks = b :: l → s.core.roomFor 32 = true → s.core.pad.bufLine va = none →
         Issues i s { s.core.allocTag t with
           accs := s.core.accs ++ [acc kind n data [] true]
           blocks := { b with staged := b.staged ++ [.store s.core.sch.seq] } :: l })
     (va % 4 = 0 → s.core.pad.bufLine va = none →
       Issues (.bldw h r bs bb t) s (load (acc .bldw 4 [] [dest 0] false))) ∧
     (va % 8 = 0 → s.core.pad.bufLine va = none →
       Issues (.bldd h r bs bb t) s (load (acc .bldd 8 [] [dest 0, dest 1] false))) ∧
     (va % 4 = 0 → stores (.bstw h r bs bb t) .bstw 4 (word 0)) ∧
     (va % 8 = 0 → stores (.bstd h r bs bb t) .bstd 8 (word 0 ++ word 1)) ∧
     (∀ b, va % 4 = 0 → s.core.acqOut = false → s.core.loadOut va = false → s.core.pad.bufLine va = some b →
       ∃ u x, exec (.bldw h r bs bb t) s = .next u ∧ u.core.sch.flights = s.core.sch.flights ++ [x] ∧
         x.due = s.core.sch.cycle + 6 ∧ x.tag = t ∧
         x.writes = [.s (dest 0) (BitVec.ofNat 32 (bytesVal ((b.bytes.drop (va % 64)).take 4)))] ∧
         u.core.accs = s.core.accs ∧ u.core.files = s.core.files ∧ u.core.pad.mem = s.core.pad.mem))

/-- SETFMT, SETC and GETC (R163, R165, R225): a value the instruction accepts is in force for the next bundle, for fmt four
cycles after issue; a register reads as it stands, and GETC of cyclelo latches the high half. A control register that SETC
writes reads back as the written value in its writable bits, every other reads as before (R5, R163, R225). -/
def Obligations.ControlRegisters : Prop :=
  (∀ (s : State) (h : Hdr) (d : BitVec 5) (n : BitVec 9) (v : Word), s.Ready h.guard →
     let x := s.core.rs d
     (fmtRefused x = false → Issues (.setfmt h d) s
       (s.core.withCtl fun c => { c with fmtNext := c.fmtNext ++ [(s.core.sch.cycle + 4, x)] })) ∧
     (settable n.toNat = true → ctlRefusal s.core.ctl n.toNat x true = none → n ≠ 0x038#9 →
       Issues (.setc h d n) s (s.core.withCtl fun c => c.set n.toNat x)) ∧
     Issues (.setc h d 0x038#9) s { s.core with copy := s.core.copy.clear x } ∧
     (s.core.getCtl n.toNat = some v → n ≠ 0x060#9 → Issues (.getc h d n) s (s.core.write1 (s.core.ws d v))) ∧
     Issues (.getc h d 0x060#9) s
       ((s.core.write1 (s.core.ws d (BitVec.ofNat 32 s.core.sch.cycle))).withCtl fun c =>
         { c with cyclehi := BitVec.ofNat 32 (s.core.sch.cycle / 2 ^ 32) })) ∧
  (∀ (t : Tile) (n : Nat) (v : Word), settable n = true → n ≠ 0x038 → ctlRefusal t.ctl n v true = none →
     (t.setCtl n v).getCtl n = some (v &&& ctlMask n) ∧
     ∀ k, k ≠ n → (t.setCtl n v).getCtl k = t.getCtl k)

/-- WAIT, WAITALL, FENCE, WAITFE and CEWAIT (R158, R159, R230 to R234) when what they wait for has come: nothing changes but
the hold of the waits. ACQ and REL (R115, R118, R232) outside a block: the hold table gains or loses the guard, and the
request leaves with its tag; a REL carries the line of its grant. -/
def Obligations.WaitsAndGuards : Prop :=
  (∀ (s : State) (h : Hdr) (m : BitVec 7) (hold : BitVec 3) (f r : BitVec 5) (bs : BitVec 4) (ch : BitVec 3),
     s.Ready h.guard →
     let a := (s.core.ra bs).toNat
     let held : Tile := s.core.withSch fun c => { c with cost := hold.toNat }
     let c := s.core.copyCh ch.toNat
     ((∀ i, i < 7 → m.getLsbD i = true → s.core.tagSt (i + 1) = .free) → Issues (.wait h m hold) s held) ∧
     ((∀ n, 1 ≤ n → n ≤ 7 → s.core.tagSt n = .free) → s.core.sch.flights = [] → s.core.sch.vops = [] → s.core.lists = [] →
       s.core.sch.links.toList.all (·.isNone) = true → (∀ q ∈ s.core.pad.queue, q.act.produces = false) →
       s.core.restLanded = true → Issues (.waitall h hold) s held) ∧
     (s.core.fenceDone f = true → Issues (.fence h f) s s.core) ∧
     (a % 16 = 0 → a + 16 * (r.toNat % 16 + 1) ≤ padSize → s.core.pad.queue = [] →
       (∀ i, i ≤ r.toNat % 16 → s.core.pad.full.has (a / 16 + i) = !r.getLsbD 4) →
       Issues (.waitfe h r bs) s s.core) ∧
     (1 ≤ (c.done - s.core.rs r).toNat → (c.done - s.core.rs r).toNat ≤ 2 ^ 31 → Issues (.cewait h r ch) s s.core)) ∧
  (∀ (s : State) (h : Hdr) (bs : BitVec 4) (bb : BitVec 3) (shared : Bool) (t : BitVec 3), s.Ready h.guard →
     s.core.tagFree t = true → s.core.blocks = [] →
     let va := (((s.core.ctl.bb[bb.toNat]?).getD 0#64).toNat + (s.core.ra bs).toNat) % 2 ^ 64
     let req (rel : Bool) (pa : Option Xlat) (sh : Bool) : GuardReq :=
       { seq := s.core.sch.seq, rel := rel, va := va, pa := pa, shared := sh, tag := t, stage := .inTile, notice := false,
         noticed := false }
     (va % 64 = 0 → (∀ x ∈ s.core.holds, x.va ≠ va) → s.core.holds.length < 4 →
       Issues (.acq h bs bb shared t) s { s.core.allocTag t with
         holds := s.core.holds ++ [{ va := va, shared := shared, pa := none }]
         guards := s.core.guards ++ [req false none shared] }) ∧
     (∀ x l r, s.core.holds = l ++ x :: r → x.va = va → (∀ y ∈ l, y.va ≠ va) →
       Issues (.rel h bs bb t) s { s.core.allocTag t with
         holds := l ++ r
         guards := s.core.guards ++ [req true x.pa x.shared] }))

/-- END (R137, R227) with nothing outstanding: the task ends when its bundle closes, the stacks are discarded, inbound
channels are unbound, and the register files and memory stay. -/
def Obligations.EndOfTask : Prop :=
  ∀ (s : State) (h : Hdr), s.Ready h.guard →
    (∀ n, 1 ≤ n → n ≤ 7 → s.core.tagSt n = .free) → s.core.sch.flights = [] → s.core.sch.vops = [] → s.core.lists = [] →
    s.core.sch.links.toList.all (·.isNone) = true → (∀ q ∈ s.core.pad.queue, q.act.produces = false) →
    s.core.enginesDone = true → s.core.holds = [] → s.core.blocks = [] →
    ∃ u, exec (.endTask h) s = .next u ∧ u.core.sch.status = .ended ∧ u.core.sch.rstk = [] ∧ u.core.sch.lstk = [] ∧
      (∀ n, (u.core.inCh n).bound = false) ∧ u.core.files = s.core.files ∧ u.core.pad = s.core.pad ∧
      u.core.outs = s.core.outs ∧ u.dev = s.dev ∧ u.others = s.others

/-- TRAP (R228): with traps unmasked its bundle issues and TRAPI, with the number as its address, waits for the boundary
behind every cause found before; inside the handler it is a double trap. BKPT (R228, R322): with traps unmasked and a
handler, its bundle does not issue: the trap BRKPT is taken at it, when no 33rd pending cause turns up as the tile settles
(R330); with traps masked it is a double trap at issue, and the tile halts. -/
def Obligations.TrapSlots : Prop :=
  (∀ (s : State) (h : Hdr) (n : BitVec 9), s.Ready h.guard →
     (s.core.sch.tm = false → s.core.sch.pend.length < 32 → ∃ u, exec (.trap h n) s = .next u ∧
       u.core.sch.pend = insertPending ⟨.trapi, n.setWidth 64, 0#64, s.core.sch.cycle, 0, some s.core.sch.seq⟩ s.core.sch.pend ∧
       u.core.sch.pc = s.core.sch.pc + 4#32 ∧ u.core.files = s.core.files ∧ u.core.pad = s.core.pad ∧ u.dev = s.dev) ∧
     (s.core.sch.tm = true → s.core.sch.tmSeq ≤ s.core.sch.seq → ∃ u, exec (.trap h n) s = .next u ∧
       u.core.sch.status = .halted ∧ u.core.files = s.core.files ∧ u.core.pad.mem = s.core.pad.mem)) ∧
  (∀ (s : State) (h : Hdr) (n : BitVec 9), s.Ready h.guard → s.core.sch.tm = false → s.core.ctl.tvec ≠ 0#32 →
     (s.core.takeTrap .brkpt false 0 0#64 0#64 s.core.sch.pc).recs = [] →
     ∃ u, exec (.bkpt h n) s = .next u ∧ u.core = s.core.takeTrap .brkpt false 0 0#64 0#64 s.core.sch.pc ∧
       u.core.sch.tm = true ∧ u.core.sch.pc = u.core.ctl.tvec ∧ u.core.ctl.tvec = s.core.ctl.tvec ∧ u.dev = s.dev) ∧
  (∀ (s : State) (h : Hdr) (n : BitVec 9), s.Ready h.guard → s.core.sch.tm = true →
     ∃ u, exec (.bkpt h n) s = .next u ∧ u.core.sch.status = .halted ∧ u.core.sch.pc = s.core.sch.pc ∧
       u.core.files = s.core.files ∧ u.core.pad = s.core.pad ∧ u.others = s.others)

/-- RFT (R229, R328, R332): with traps masked, the handler's tags free and its V operations complete, it reloads the frame as
its bundle closes. A frame that is in order and has ESC = 0 unmasks traps, gives rrb, vbud, fmt, lc, ec and PC, and the next
bundle issues no earlier than eight cycles and four for each replay entry later; with no entry both stacks come from it too,
and registers and memory stay. A malformed frame, or one with ESC = 1, halts the tile. With traps unmasked RFT takes ILLOP. -/
def Obligations.ReturnFromTrap : Prop :=
  ∀ (s : State) (h : Hdr), s.Ready h.guard →
    let t := s.core.bump.close 1
    let m := t.frameMem
    let f := m.val 0x2F000 8
    (s.core.sch.tm = true → s.core.sch.own = [] → s.core.sch.vops = [] →
      (t.frameBad = false → bitOf f 45 = false → ∃ u, exec (.rft h) s = .next u ∧ u.core.sch.tm = false ∧
        u.core.sch.pc = BitVec.ofNat 32 (4 * bitsOf f 20 12) ∧ u.core.ctl.rrb = bitsOf f 8 4 ∧
        u.core.ctl.vbud = bitsOf f 32 5 ∧ u.core.ctl.fmt = m.word 0x2F03C ∧ u.core.ctl.lc = m.word 0x2F040 ∧
        u.core.ctl.ec = m.word 0x2F044 ∧ u.core.sch.own = [] ∧
        s.core.sch.cycle + 8 + 4 * bitsOf f 12 5 ≤ u.core.sch.ready ∧ u.others = s.others ∧
        (bitsOf f 12 5 = 0 → u.core.files = s.core.files ∧ u.core.pad = s.core.pad ∧ u.dev = s.dev ∧
          u.core.sch.lstk = ((upTo (bitsOf f 37 3)).map fun i => (m.word (0x2F048 + 8 * i), m.word (0x2F04C + 8 * i))) ∧
          u.core.sch.rstk = ((upTo (bitsOf f 40 5)).map fun i =>
            BitVec.ofNat 32 (4 * bitsOf (m.val 0x2F068 24) (12 * i) 12)))) ∧
      (t.frameBad = true ∨ bitOf f 45 = true → ∃ u, exec (.rft h) s = .next u ∧ u.core.sch.status = .halted ∧
        u.core.files = s.core.files ∧ u.core.pad = s.core.pad ∧ u.others = s.others)) ∧
    (s.core.sch.tm = false → s.core.ctl.tvec ≠ 0#32 → (s.core.takeTrap .illop false 0 0#64 0#64 s.core.sch.pc).recs = [] →
      ∃ u, exec (.rft h) s = .next u ∧ u.core = s.core.takeTrap .illop false 0 0#64 0#64 s.core.sch.pc ∧
        u.core.sch.tm = true ∧ u.core.sch.pc = u.core.ctl.tvec ∧ u.core.ctl.tvec = s.core.ctl.tvec ∧ u.dev = s.dev)

/-- The integer, bitwise and lane instructions of V (R275) on v registers: lane by lane, complete two cycles after issue.
VCMPI (R275) and VCMP (R269) on v registers: all ones where the condition holds, zero where it does not; a comparison with a
NaN is unordered. VCMPI completes two cycles after issue, VCMP three, in FP64 four. -/
def Obligations.VectorIntegers : Prop :=
  (∀ (s : State) (h : Hdr) (d a b k : BitVec 5) (t : BitVec 3) (l : BitVec 4) (u : Bool), s.Ready h.guard →
     s.core.tagFree t = true → d.toNat < 28 → a.toNat < 28 → b.toNat < 28 →
     let x (i : Nat) : Word := laneWord s.core a i
     let y (i : Nat) : Word := laneWord s.core b i
     let z (i : Nat) : Word := laneWord s.core d i
     let gives (i : Instr) (f : Nat → Word) : Prop :=
       VIssues i s t (s.core.sch.cycle + 2) [.v (rotV s.core.ctl.rrb d.toNat) (vreg f)] 0#5
     gives (.viadd h d a b t) (fun i => num (uNum (x i) + uNum (y i))) ∧
     gives (.visub h d a b t) (fun i => num (uNum (x i) - uNum (y i))) ∧
     gives (.vimul h d a b t) (fun i => num (uNum (x i) * uNum (y i))) ∧
     gives (.vand h d a b t) (fun i => x i &&& y i) ∧
     gives (.vor h d a b t) (fun i => x i ||| y i) ∧
     gives (.vxor h d a b t) (fun i => x i ^^^ y i) ∧
     gives (.vshli h d a k t) (fun i => num (uNum (x i) * 2 ^ k.toNat)) ∧
     gives (.vshri h d a k t) (fun i => num (uNum (x i) / 2 ^ k.toNat)) ∧
     gives (.vsari h d a k t) (fun i => num (sNum (x i) / 2 ^ k.toNat)) ∧
     gives (.vshuf h d a b t) (fun i => if (y i).getLsbD 31 then 0#32 else x ((y i).toNat % 16)) ∧
     gives (.vbcst h d a l t) (fun _ => x l.toNat) ∧
     gives (.viota h d a t) (fun i => num (uNum (x 0) + i)) ∧
     gives (.vimin h d a b t u) (fun i => num (min (numBy u (x i)) (numBy u (y i)))) ∧
     gives (.vimax h d a b t u) (fun i => num (max (numBy u (x i)) (numBy u (y i)))) ∧
     gives (.vsel h d a b t) (fun i => if (x i).getLsbD 31 then y i else z i) ∧
     gives (.vmov h d a t) x) ∧
  (∀ (s : State) (h : Hdr) (d a b : BitVec 5) (m : Imm 6 32) (c : BitVec 3), s.Ready h.guard →
     d.toNat < 28 → a.toNat < 28 → b.toNat < 28 →
     let mask (v : Bool) : Word := if v then 0xFFFFFFFF#32 else 0#32
     let x (i : Nat) : Word := laneWord s.core a i
     let w := immNum m
     let holds (i : Nat) : Bool :=
       if c = 0#3 then decide (sNum (x i) = sNum (num w)) else if c = 1#3 then decide (sNum (x i) ≠ sNum (num w))
       else if c = 2#3 then decide (sNum (x i) < sNum (num w)) else if c = 3#3 then decide (sNum (num w) ≤ sNum (x i))
       else if c = 4#3 then decide (uNum (x i) < uNum (num w)) else decide (uNum (num w) ≤ uNum (x i))
     VIssues (.vcmpi h d a m c) s 0#3 (s.core.sch.cycle + 2)
       [.v (rotV s.core.ctl.rrb d.toNat) (vreg fun i => mask (holds i))] 0#5 ∧
     (vEncOk s.core.ctl.fmt (.vcmp h d a b c) = true →
       VIssues (.vcmp h d a b c) s 0#3 (s.core.sch.cycle + if fmtPrec64 s.core.ctl.fmt then 4 else 3)
         [.v (rotV s.core.ctl.rrb d.toNat)
           (vreg fun i => mask (fcmp c.toNat (fpLane s.core a i) (fpLane s.core b i)))] 0#5))

/-- The FP arithmetic of R263 and R264 on v registers: each lane is the rounded exact result, in FP32 or in FP64 pairs, with
its exceptions, at the latency of Table 12-1 less what the budget saves (R152, R183). -/
def Obligations.VectorArithmetic : Prop :=
  ∀ (s : State) (h : Hdr) (d a b : BitVec 5) (t : BitVec 3) (n : Bool), s.Ready h.guard →
    s.core.tagFree t = true → d.toNat < 28 → a.toNat < 28 → b.toNat < 28 →
    vEncOk s.core.ctl.fmt (.vadd h d a b t n) = true →
    let p64 := fmtPrec64 s.core.ctl.fmt
    let x (k : Nat) : FVal := fpLane s.core a k
    let y (k : Nat) : FVal := fpLane s.core b k
    let z (k : Nat) : FVal := fpLane s.core d k
    let c1 (k : Nat) : RCtx := laneCtx s.core n [x k]
    let c2 (k : Nat) : RCtx := laneCtx s.core n [x k, y k]
    let c3 (k : Nat) : RCtx := laneCtx s.core n [x k, y k, z k]
    let gives (i : Instr) (short long : Nat) (cs : List (BitVec 5)) (f : Nat → Nat × Flags5) : Prop :=
      VIssues i s t (s.core.sch.cycle + ((if p64 then long else short) - saves s.core n cs))
        (fpWrites s.core d fun k => (f k).1) (laneFlags fun k => (f k).2)
    gives (.vadd h d a b t n) 5 9 [a, b] (fun k => (c2 k).add (x k) (y k)) ∧
    gives (.vsub h d a b t n) 5 9 [a, b] (fun k => (c2 k).add (x k) (y k).flip) ∧
    gives (.vmul h d a b t n) 6 10 [a, b] (fun k => (c2 k).mul (x k) (y k)) ∧
    gives (.vfma h d a b t n) 6 10 [a, b, d] (fun k => (c3 k).fma (x k) (y k) (z k)) ∧
    gives (.vfms h d a b t n) 6 10 [a, b, d] (fun k => (c3 k).fma (x k) (y k) (z k).flip) ∧
    gives (.vfnma h d a b t n) 6 10 [a, b, d] (fun k => (c3 k).fma (x k).flip (y k) (z k)) ∧
    gives (.vdiv h d a b t n) 9 16 [a, b] (fun k => (c2 k).div (x k) (y k)) ∧
    gives (.vsqrt h d a t n) 9 16 [a] (fun k => (c1 k).sqrt (x k)) ∧
    gives (.vrsqrt h d a t n) 9 16 [a] (fun k => (c1 k).rsqrt (x k)) ∧
    gives (.vrcp h d a t n) 9 16 [a] (fun k => (c1 k).rcp (x k)) ∧
    gives (.vmin h d a b t n) 5 9 [a, b] (fun k => (c2 k).min (x k) (y k)) ∧
    gives (.vmax h d a b t n) 5 9 [a, b] (fun k => (c2 k).max (x k) (y k)) ∧
    gives (.vabs h d a t n) 5 9 [a] (fun k => (c1 k).val ((x k).withSign false)) ∧
    gives (.vneg h d a t n) 5 9 [a] (fun k => (c1 k).val (x k).flip) ∧
    gives (.vmaxa h d a b t n) 5 9 [a, b] (fun k => (c2 k).maxa (x k) (y k))

/-- VRED, VDOT, VCLAMP, VRNDB and VCVT on v registers (R265, R273, R274), and the deciders VSGN and VTHR (R270): the sum of
all lanes in every lane, the clamped, rounded or converted lanes, the predicate over all or any lane. That a sum is rounded in full
when any of its lanes is special, and that the flags of VDOT are those of its products and of its sum together, are the model's own
readings (entries 36 and 44, DEDUCED). -/
def Obligations.VectorReductions : Prop :=
  ∀ (s : State) (h : Hdr) (d a b : BitVec 5) (p : BitVec 3) (t : BitVec 3) (n all flag : Bool) (code : BitVec 6),
    s.Ready h.guard → s.core.tagFree t = true → d.toNat < 28 → a.toNat < 28 → b.toNat < 28 →
    let p64 := fmtPrec64 s.core.ctl.fmt
    let mode := fmtRnd s.core.ctl.fmt
    let c := s.core.sch.cycle
    let x (k : Nat) : FVal := fpLane s.core a k
    let y (k : Nat) : FVal := fpLane s.core b k
    let z (k : Nat) : FVal := fpLane s.core d k
    let near := RCtx.full (precFmt p64) .rne
    let total := (laneCtx s.core n ((upTo 16).map x)).sum ((upTo 16).map x)
    let dot := (laneCtx s.core n ((upTo 16).map x ++ (upTo 16).map y)).sum ((upTo 16).map fun k => (x k).times (y k))
    let bad := (upTo 16).any fun k => (x k).badTimes (y k)
    let clamp (k : Nat) : Nat × Flags5 := if (x k).isNan || (y k).isNan || (z k).isNan then near.nan
      else near.max (x k) ((precFmt p64).unpack (near.min (z k) (y k)).1)
    let rndb (k : Nat) : Nat × Flags5 := (RCtx.budget (precFmt p64) .rne s.core.ctl.vbud).val (x k)
    let cvt (k : Nat) : Nat × Flags5 := cvtLane code.toNat mode
      ((laneWord s.core a k).toNat +
        if cvtFrom64 code.toNat then (lane (s.core.rv (a.toNat + 1)) k).toNat * 2 ^ 32 else 0)
    let putP (v : Bool) : List RegWrite := [.p (rotP s.core.ctl.rrb p) v]
    let every (f : Nat → Bool) : Bool := if all then (upTo 16).all f else (upTo 16).any f
    (vEncOk s.core.ctl.fmt (.vred h d a t n) = true →
      VIssues (.vred h d a t n) s t (c + ((if p64 then 11 else 7) - saves s.core n [a])) (fpWrites s.core d fun _ => total.1)
        total.2) ∧
    (vEncOk s.core.ctl.fmt (.vdot h d a b t n) = true →
      VIssues (.vdot h d a b t n) s t (c + ((if p64 then 12 else 8) - saves s.core n [a, b]))
        (fpWrites s.core d fun _ => dot.1) (dot.2 ||| if bad then flInvalid else 0#5)) ∧
    (vEncOk s.core.ctl.fmt (.vclamp h d a b t) = true →
      VIssues (.vclamp h d a b t) s t (c + if p64 then 4 else 3) (fpWrites s.core d fun k => (clamp k).1)
        (laneFlags fun k => (clamp k).2)) ∧
    (vEncOk s.core.ctl.fmt (.vrndb h d a t) = true →
      VIssues (.vrndb h d a t) s t (c + if p64 then 4 else 3) (fpWrites s.core d fun k => (rndb k).1)
        (laneFlags fun k => (rndb k).2)) ∧
    VIssues (.vcvt h d a code t) s t (c + 4)
      (.v (rotV s.core.ctl.rrb d.toNat) (vreg fun k => BitVec.ofNat 32 (cvt k).1) ::
        if cvtTo64 code.toNat then
          [.v (rotV s.core.ctl.rrb (d.toNat + 1)) (vreg fun k => BitVec.ofNat 32 ((cvt k).1 / 2 ^ 32))]
        else [])
      (laneFlags fun k => (cvt k).2) ∧
    (vEncOk s.core.ctl.fmt (.vsgn h p all flag a t) = true →
      VIssues (.vsgn h p all flag a t) s t (c + if p64 then 4 else 3)
        (putP (every fun k => !(x k).isNan && if flag then FVal.numLt (.zero false) (x k) else (x k).numLt (.zero false))) 0#5) ∧
    (vEncOk s.core.ctl.fmt (.vthr h p all flag a b t) = true →
      VIssues (.vthr h p all flag a b t) s t (c + if p64 then 4 else 3)
        (putP (every fun k => fcmp (if flag then 5 else 4) (x k) (y k))) 0#5)

/-- A digit link (R266 to R268), in FP32 and in FP64: an arithmetic V instruction whose destination names a dead link feeds it with
its rounded results and writes no register; a consumer of its precision reads the link's values, claims the link, and completes no
earlier than the link's producer and its chain increment (R152). A decider on a link (R270, R271) decides by the full-length values,
no earlier than two cycles after issue and no later than the full-length bound, exactly then where a value on the link or its
producer takes the bypass (R183, R186). Once V_DECIDE has decided it (R187, R272), a producer that is not complete is cancelled: it
writes and records nothing, its tag becomes free and its link dies. -/
def Obligations.DigitLinks : Prop :=
  (∀ (s : State) (h : Hdr) (l : Fin 4) (a b : BitVec 5) (t : BitVec 3) (n : Bool), s.Ready h.guard →
     s.core.tagFree t = true → a.toNat < 28 → b.toNat < 28 → vEncOk s.core.ctl.fmt (.vadd h 28#5 a b t n) = true →
     let p64 := fmtPrec64 s.core.ctl.fmt
     let code := BitVec.ofNat 5 (28 + l.val)
     let x (i : Nat) : FVal := fpLane s.core a i
     let y (i : Nat) : FVal := fpLane s.core b i
     let c1 (i : Nat) : RCtx := laneCtx s.core n [x i]
     let c2 (i : Nat) : RCtx := laneCtx s.core n [x i, y i]
     let feeds (i : Instr) (short long : Nat) (cs : List (BitVec 5)) (f : Nat → Nat × Flags5) : Prop :=
       s.core.link l.val = none →
       ∃ u o k, exec i s = .next u ∧ u.core.sch.vops = s.core.sch.vops ++ [o] ∧ o.writes = [] ∧ o.dest = some l.val ∧
         o.srcs = [] ∧ o.decider = none ∧ o.due = s.core.sch.cycle + ((if p64 then long else short) - saves s.core n cs) ∧
         o.flags = laneFlags (fun i => (f i).2) ∧ u.core.link l.val = some k ∧ k.producer = s.core.sch.seq ∧ k.consumer = none ∧
         k.prec64 = p64 ∧ k.done = o.due ∧ u.core.files = s.core.files ∧
         ∀ i, i < 16 → (k.value[i]?).getD 0#64 = BitVec.ofNat 64 (f i).1
     feeds (.vadd h code a b t n) 5 9 [a, b] (fun i => (c2 i).add (x i) (y i)) ∧
     feeds (.vsub h code a b t n) 5 9 [a, b] (fun i => (c2 i).add (x i) (y i).flip) ∧
     feeds (.vmul h code a b t n) 6 10 [a, b] (fun i => (c2 i).mul (x i) (y i)) ∧
     feeds (.vdiv h code a b t n) 9 16 [a, b] (fun i => (c2 i).div (x i) (y i)) ∧
     feeds (.vmin h code a b t n) 5 9 [a, b] (fun i => (c2 i).min (x i) (y i)) ∧
     feeds (.vmax h code a b t n) 5 9 [a, b] (fun i => (c2 i).max (x i) (y i)) ∧
     feeds (.vmaxa h code a b t n) 5 9 [a, b] (fun i => (c2 i).maxa (x i) (y i)) ∧
     feeds (.vsqrt h code a t n) 9 16 [a] (fun i => (c1 i).sqrt (x i)) ∧
     feeds (.vrsqrt h code a t n) 9 16 [a] (fun i => (c1 i).rsqrt (x i)) ∧
     feeds (.vrcp h code a t n) 9 16 [a] (fun i => (c1 i).rcp (x i)) ∧
     feeds (.vabs h code a t n) 5 9 [a] (fun i => (c1 i).val ((x i).withSign false)) ∧
     feeds (.vneg h code a t n) 5 9 [a] (fun i => (c1 i).val (x i).flip)) ∧
  (∀ (s : State) (h : Hdr) (l : Fin 4) (k : Link) (d b : BitVec 5) (p : BitVec 3) (cond t : BitVec 3) (n all flag : Bool),
     s.Ready h.guard → s.core.tagFree t = true → d.toNat < 28 → b.toNat < 28 →
     let p64 := fmtPrec64 s.core.ctl.fmt
     let code := BitVec.ofNat 5 (28 + l.val)
     let c := s.core.sch.cycle
     let x (i : Nat) : FVal := (precFmt p64).unpack ((k.value[i]?).getD 0#64).toNat
     let y (i : Nat) : FVal := fpLane s.core b i
     let c1 (i : Nat) : RCtx := laneCtx s.core n [x i]
     let c2 (i : Nat) : RCtx := laneCtx s.core n [x i, y i]
     let digits : Nat := if p64 then 28 else 13
     let saved (both : Bool) : Nat :=
       if (upTo 16).any fun i => (x i).special || (both && (y i).special) then 0
       else (digits - min (if n then s.core.ctl.vbud else 28) digits) / 4
     let claims (i : Instr) (o : VOp) : Prop := ∃ u, exec i s = .next u ∧ u.core.sch.vops = s.core.sch.vops ++ [o] ∧
       o.srcs = [l.val] ∧ o.dest = none ∧ u.core.link l.val = some { k with consumer := some s.core.sch.seq } ∧
       u.core.files = s.core.files
     let reads (i : Instr) (short long chain : Nat) (both : Bool) (f : Nat → Nat × Flags5) : Prop :=
       ∃ o, claims i o ∧ o.writes = fpWrites s.core d (fun i => (f i).1) ∧ o.flags = laneFlags (fun i => (f i).2) ∧
         o.decider = none ∧ o.due = max (c + ((if p64 then long else short) - saved both)) (k.done + chain)
     let decides (i : Instr) (w : List RegWrite) : Prop :=
       let full := max (c + if p64 then 4 else 3) (k.done + 1)
       ∃ o e, claims i o ∧ o.writes = w ∧ o.flags = 0#5 ∧ o.decider = some e ∧ o.due = e.hi ∧ e.hi ≤ full ∧
         if ((upTo 16).any fun i => (x i).special) || k.chained then e.lo = full ∧ e.hi = full
         else e.lo = c + 2 ∧ c + 2 ≤ e.hi
     let every (f : Nat → Bool) : Bool := if all then (upTo 16).all f else (upTo 16).any f
     let mask (v : Bool) : Word := if v then 0xFFFFFFFF#32 else 0#32
     s.core.link l.val = some k → k.consumer = none → k.prec64 = p64 →
     vEncOk s.core.ctl.fmt (.vadd h d code b t n) = true →
       (∃ o, claims (.vmov h d code t) o ∧ o.decider = none ∧ o.due = max (c + 2) (k.done + 1) ∧ o.writes =
         .v (rotV s.core.ctl.rrb d.toNat) (k.value.map fun x => x.setWidth 32) ::
           if p64 then [.v (rotV s.core.ctl.rrb (d.toNat + 1)) (k.value.map fun x : DWord => (x >>> 32).setWidth 32)] else []) ∧
       reads (.vadd h d code b t n) 5 9 1 true (fun i => (c2 i).add (x i) (y i)) ∧
       reads (.vsub h d code b t n) 5 9 1 true (fun i => (c2 i).add (x i) (y i).flip) ∧
       reads (.vmul h d code b t n) 6 10 2 true (fun i => (c2 i).mul (x i) (y i)) ∧
       reads (.vdiv h d code b t n) 9 16 3 true (fun i => (c2 i).div (x i) (y i)) ∧
       reads (.vsqrt h d code t n) 9 16 3 false (fun i => (c1 i).sqrt (x i)) ∧
       reads (.vneg h d code t n) 5 9 1 false (fun i => (c1 i).val (x i).flip) ∧
       decides (.vcmp h d code b cond) [.v (rotV s.core.ctl.rrb d.toNat) (vreg fun i => mask (fcmp cond.toNat (x i) (y i)))] ∧
       decides (.vsgn h p all flag code t) [.p (rotP s.core.ctl.rrb p) (every fun i =>
         !(x i).isNan && if flag then FVal.numLt (.zero false) (x i) else (x i).numLt (.zero false))] ∧
       decides (.vthr h p all flag code b t)
         [.p (rotP s.core.ctl.rrb p) (every fun i => fcmp (if flag then 5 else 4) (x i) (y i))]) ∧
  (∀ (s : State) (c : Coord) (t : Tile) (u o : VOp) (e : Decider) (n : Nat) (k : Link), s.tileAt c = some t → t.Live →
     t.sch.vops = [u, o] → u.seq < o.seq → u.dest = some n → u.decider = none → u.srcs = [] → t.sch.cycle < u.due →
     o.decider = some e → e.hi ≤ t.sch.cycle → o.srcs = [n] → o.flags = 0#5 → t.blocks = [] → n < 4 → t.link n = some k →
     k.producer = u.seq → k.consumer = some o.seq →
     ∃ v, Becomes (.vDecide c) s c v ∧ v.files = t.files.putAll (t.surviving o.writes) ∧ v.sch.vops = [] ∧ v.link n = none ∧
       v.ctl = t.ctl ∧ v.pad = t.pad ∧ (u.tag ≠ 0#3 → v.tagSt u.tag.toNat = .free) ∧
       (o.tag ≠ 0#3 → v.tagSt o.tag.toNat = .free))

/-- The arithmetic behind every FP result (R169, R171, R182): the sum, the product, the quotient, the fused product and sum, and the
sum of a list are the exact numbers rounded once; an exact zero has its stated sign; NaNs, infinities and zeros give their stated
results and exceptions. The greater and the lesser of two numbers are one of them. BF16 narrowing rounds to nearest even
(R172), and RNE32 of R171 is the same arithmetic in FP32, to nearest. -/
def Obligations.RoundedArithmetic : Prop :=
  (∀ (c : RCtx) (a b d : Nat), c.f = f32 ∨ c.f = f64 → 1 ≤ c.prec → c.prec ≤ c.f.p →
     let x := c.f.unpack a
     let y := c.f.unpack b
     let z := c.f.unpack d
     let zero (neg : Bool) : Nat × Flags5 := (c.f.zeroBits neg, 0#5)
     let inf (neg : Bool) : Nat × Flags5 := (c.f.infBits neg, 0#5)
     let invalid : Nat × Flags5 := (c.f.nanBits, flInvalid)
     (x.finite = true → y.finite = true →
       (x.rat + y.rat ≠ 0 → c.Rounds (x.rat + y.rat) (c.add x y)) ∧
       (x.rat + y.rat = 0 → c.add x y = zero (if x.neg = y.neg then x.neg else c.zneg)) ∧
       (x.rat * y.rat ≠ 0 → c.Rounds (x.rat * y.rat) (c.mul x y)) ∧
       (x.rat * y.rat = 0 → c.mul x y = zero (x.neg != y.neg)) ∧
       (x.rat ≠ 0 → y.rat ≠ 0 → c.Rounds (x.rat / y.rat) (c.div x y)) ∧
       (x.rat ≠ 0 → y.rat = 0 → c.div x y = (c.f.infBits (x.neg != y.neg), flDivZero)) ∧
       (x.rat = 0 → y.rat ≠ 0 → c.div x y = zero (x.neg != y.neg)) ∧
       (z.finite = true → x.rat * y.rat + z.rat ≠ 0 → c.Rounds (x.rat * y.rat + z.rat) (c.fma x y z)) ∧
       (z.finite = true → x.rat * y.rat + z.rat = 0 →
         c.fma x y z = zero (if (x.neg != y.neg) = z.neg then z.neg else c.zneg)) ∧
       (c.prec = c.f.p → ∃ w, c.max x y = (w, 0#5) ∧ (c.f.unpack w = x ∨ c.f.unpack w = y) ∧
         x.rat ≤ (c.f.unpack w).rat ∧ y.rat ≤ (c.f.unpack w).rat) ∧
       (c.prec = c.f.p → ∃ w, c.min x y = (w, 0#5) ∧ (c.f.unpack w = x ∨ c.f.unpack w = y) ∧
         (c.f.unpack w).rat ≤ x.rat ∧ (c.f.unpack w).rat ≤ y.rat)) ∧
     (x.isNan = true ∨ y.isNan = true → c.add x y = (c.f.nanBits, 0#5) ∧ c.mul x y = (c.f.nanBits, 0#5) ∧
       c.div x y = (c.f.nanBits, 0#5) ∧ c.max x y = (c.f.nanBits, 0#5) ∧ c.min x y = (c.f.nanBits, 0#5)) ∧
     (∀ n, x = .inf n →
       (y.finite = true → c.add x y = inf n ∧ c.add y x = inf n ∧ c.div x y = inf (n != y.neg) ∧
         c.div y x = zero (y.neg != n) ∧ c.mul x y = if y.rat = 0 then invalid else inf (n != y.neg)) ∧
       (∀ m, y = .inf m → c.add x y = (if n = m then inf n else invalid) ∧ c.mul x y = inf (n != m) ∧ c.div x y = invalid))) ∧
  (∀ (c : RCtx) (l : List Nat), c.f = f32 ∨ c.f = f64 → 1 ≤ c.prec → c.prec ≤ c.f.p →
     (∀ a ∈ l, (c.f.unpack a).finite = true) → (l.map fun a => (c.f.unpack a).rat).sum ≠ 0 →
     c.Rounds (l.map fun a => (c.f.unpack a).rat).sum (c.sum (l.map c.f.unpack))) ∧
  (∀ a b : Nat, add32 a b = ((RCtx.full f32 .rne).add (f32.unpack a) (f32.unpack b)).1 ∧
     mul32 a b = ((RCtx.full f32 .rne).mul (f32.unpack a) (f32.unpack b)).1 ∧
     ((f32.unpack a).isNan = true → cvtBf16 a = 0x7FC0) ∧
     ((f32.unpack a).finite = true → (f32.unpack a).rat ≠ 0 →
       ∃ fl, (RCtx.full bf16 .rne).Rounds (f32.unpack a).rat (cvtBf16 a, fl)))

/-- The engine operations (R280, R289 to R299): an operation whose checks pass takes its place in its engine's queue with
what it sampled: fmt, shapes, hyperparameters, and its v and s operands. RINGDEF and RINGRST (R285): a ring of registers that
no declared ring owns is declared with every slot free; a ring that nothing in progress names is undeclared. -/
def Obligations.EngineIssue : Prop :=
  (∀ (s : State) (h : Hdr) (z : BitVec 2) (x y : TileRef) (ox : Option TileRef) (w g m v c : BitVec 4) (va sb sc : BitVec 5)
     (t : BitVec 3), s.Ready h.guard → s.core.tagFree t = true →
     let queues (i : Instr) (vec : VReg) (sc0 sc1 : Word) : Prop := EReady i s.core → EIssues i s t vec sc0 sc1
     let plain (i : Instr) : Prop := queues i vzero 0#32 0#32
     plain (.mxw h x t) ∧ plain (.mxf h z x t) ∧ plain (.mxr h z x t) ∧
     queues (.mxp h z va sb t) (s.core.rv va.toNat) (s.core.rs sb) 0#32 ∧
     plain (.mxz h z ox t) ∧ plain (.mxo h x z t) ∧ plain (.mxq h x z t) ∧ plain (.xpt h y x t) ∧ plain (.xpc h y x c t) ∧
     plain (.upadm h w g m v t) ∧ plain (.upsgd h w g m t) ∧ plain (.upaxp h w g t) ∧
     queues (.rnmask h x sb sc t) vzero (s.core.rs sb) (s.core.rs sc) ∧
     queues (.rnuni h x sb sc t) vzero (s.core.rs sb) (s.core.rs sc)) ∧
  (∀ (s : State) (h : Hdr) (r : BitVec 3) (f n : BitVec 4), s.Ready h.guard →
     let put (x : Ring) : Tile := s.core.withEng fun e => { e with rings := e.rings.setIfInBounds r.toNat x }
     (f.toNat + n.toNat < 16 → (s.core.ring r.toNat).defd = false →
       (∀ k, k ≤ n.toNat → ∀ g ∈ s.core.eng.rings.toList, g.owns (f.toNat + k) = false) →
       Issues (.ringdef h r f n) s (put { defd := true, first := f.toNat, sizem1 := n.toNat, pptr := 0, cptr := 0,
                                          slots := List.replicate (n.toNat + 1) .free })) ∧
     (s.core.ringBusy r.toNat = false →
       Issues (.ringrst h r) s (put { defd := false, first := 0, sizem1 := 0, pptr := 0, cptr := 0, slots := [] })))

/-- CHSENDV, CHSENDT and CHSENDM (R90, R305, R306) with credit for every packet, on a channel that no memory send reads for:
outside a block and a pair the payload leaves in packets of at most 256 bytes with rising SEQ, and CREDIT falls by their
number; in a block they are staged. A CHSENDM of more than 64 bytes reads its first 64 at issue and goes on as a memory send;
with wfe every granule that is read becomes empty, and no other. That the packets of such a send leave once its last bytes are read
is the model's own reading (entry 45, DEDUCED). CHRED (R100, R309) outside a pair: the lanes go to the tree's local input with the
tile's round, and the round counter rises; a round already abandoned sends nothing and raises RDTMO. -/
def Obligations.ChannelSends : Prop :=
  (∀ (s : State) (h : Hdr) (c v l : BitVec 5) (k q : BitVec 2) (src : TileRef) (bs : BitVec 4) (t : BitVec 3),
     s.Ready h.guard → s.core.tagFree t = true →
     let o := s.core.outCh c.toNat
     o.entry.getLsbD 63 = true → o.dead = false → s.core.reading c.toNat = false →
     let head (j : Nat) : PHead :=
       { src := ⟨none, s.core.coord⟩, dst := entryDest s.core.coord o.entry, och := c.toNat, ich := bitsOf o.entry.toNat 54 5,
         seq := o.seq + BitVec.ofNat 32 (j + 1), vc := bitsOf o.entry.toNat 60 2, yx := o.entry.getLsbD 59 }
     let moves (u : State) (n : Nat) : Prop := u.core.files = s.core.files ∧ u.core.pad.mem = s.core.pad.mem ∧
       (u.core.outCh c.toNat).credit = o.credit - n ∧ (∀ m, m ≠ c.toNat → u.core.outCh m = s.core.outCh m)
     let leaves (i : Instr) (payload : List Byte) (poison : NatSet) : Prop :=
       let n := (payload.length + 255) / 256
       let part (j : Nat) : List Byte := (payload.drop (256 * j)).take 256
       let spoilt (j : Nat) : NatSet := packetPoison poison j
       n ≤ o.credit →
       (s.core.blocks = [] → s.core.pair = none → ∃ u, exec i s = .next u ∧ moves u n ∧
         (u.core.outCh c.toNat).seq = o.seq + BitVec.ofNat 32 n ∧
         u.core.out = s.core.out ++ (upTo n).map fun j => .packet (head j) (part j) (spoilt j) false) ∧
       (∀ b bl, s.core.blocks = b :: bl → b.seq ≤ s.core.sch.seq → s.core.roomFor (sendRoom payload.length) = true →
         ∃ u, exec i s = .next u ∧ moves u n ∧
         (u.core.outCh c.toNat).seq = o.seq ∧ u.core.out = s.core.out ∧
         u.core.blocks = { b with staged := b.staged ++ (upTo n).map fun j => .packet c.toNat (part j) (spoilt j) } :: bl)
     let vectors : List Byte := (upTo (k.toNat + 1)).flatMap fun i => (upTo 16).flatMap fun j =>
       wordBytes (lane (s.core.rv (v.toNat + i)) j)
     let reg := s.core.refReg false src
     let sh := shapeOf (s.core.tshOf reg)
     let a := (s.core.ra bs).toNat
     let len := (s.core.rs l).toNat
     leaves (.chsendv h c v k t) vectors [] ∧
     (shapeValid (s.core.tshOf reg) = true → (∀ g, src = .ring g → (s.core.ring g.toNat).defd = true ∧
         (s.core.ring g.toNat).canTake = true) →
       leaves (.chsendt h c src t) (s.core.files.getT reg (sh.rows * sh.rowBytes)) []) ∧
     (a % 4 = 0 → len % 4 = 0 → 4 ≤ len → len ≤ 2048 → a + len ≤ padSize →
       (q ≠ 0#2 → a % 16 = 0 ∧ len % 16 = 0 ∧ ∀ g ∈ granules a len, s.core.pad.full.has g = true) →
       (q = 2#2 → ∀ m, (s.core.inCh m).bound = false) →
       (len ≤ 64 → leaves (.chsendm h c bs l q t) (s.core.pad.mem.bytes a len) (sourcePoison s.core.pad a len)) ∧
       (len ≤ 64 → 1 ≤ o.credit → s.core.blocks = [] → NatSet.wf s.core.pad.full = true →
         ∃ u, exec (.chsendm h c bs l q t) s = .next u ∧ ∀ g, u.core.pad.full.has g =
           (s.core.pad.full.has g && !(q == 2#2 && decide (a / 16 ≤ g) && decide (g < (a + len) / 16)))) ∧
       (64 < len → s.core.roomFor (sendRoom len) = true → let n := (len + 255) / 256
         n ≤ o.credit → ∃ u e, exec (.chsendm h c bs l q t) s = .next u ∧ moves u n ∧ u.core.out = s.core.out ∧
           (u.core.outCh c.toNat).seq = (if s.core.blocks = [] then o.seq + BitVec.ofNat 32 n else o.seq) ∧
           u.core.blocks = s.core.blocks ∧ u.core.sends = s.core.sends ++ [e] ∧ e.seq = s.core.sch.seq ∧
           e.issued = s.core.sch.cycle ∧ e.ch = c.toNat ∧ e.addr = a ∧ e.len = len ∧ e.take = (q == 2#2) ∧
           e.data = s.core.pad.mem.bytes a 64 ∧ e.heads = (if s.core.blocks = [] then some ((upTo n).map head) else none) ∧
           e.msgs = [] ∧ e.effs = [] ∧ e.gone = false ∧ e.done = s.core.sch.cycle + (len + 63) / 64 + 1 ∧
           (NatSet.wf s.core.pad.full = true → ∀ g, u.core.pad.full.has g =
             (s.core.pad.full.has g && !(q == 2#2 && decide (a / 16 ≤ g) && decide (g < a / 16 + 4))))))) ∧
  (∀ (t : Tile) (o : SendOp) (hs : List PHead), t.sends = [o] → t.pair = none → t.pad.bad = [] → t.pad.poison = [] →
     o.gone = false → o.heads = some hs → o.msgs = [] → o.effs = [] → o.poison = [] →
     (o.take = true → o.addr % 16 = 0 ∧ o.len % 16 = 0 ∧ o.data.length % 16 = 0 ∧ t.pad.queue = [] ∧
       ∀ m, (t.inCh m).bound = false) → NatSet.wf t.pad.full = true → hs.length = (o.len + 255) / 256 →
     let k := o.data.length
     let all := o.data ++ t.pad.mem.bytes (o.addr + k) (o.len - k)
     k < o.len → o.len ≤ k + 64 → o.issued + k / 64 ≤ t.sch.cycle →
     t.progressSends.out = t.out ++ (((upTo hs.length).zip hs).map fun x =>
       .packet x.2 ((all.drop (256 * x.1)).take 256) [] false) ∧
     t.progressSends.files = t.files ∧ t.progressSends.pad.mem = t.pad.mem ∧
     (∀ g, t.progressSends.pad.full.has g = (t.pad.full.has g &&
       !(o.take && decide ((o.addr + k) / 16 ≤ g) && decide (g < (o.addr + o.len) / 16)))) ∧
     (o.done ≤ t.sch.cycle → t.progressSends.sends = [])) ∧
  (∀ (s : State) (h : Hdr) (j : BitVec 3) (v : BitVec 5) (two int : Bool) (t : BitVec 3), s.Ready h.guard →
     s.core.tagFree t = true → s.core.pair = none →
     let x := s.core.tree j.toNat
     let data : List Word := (upTo (if two then 2 else 1)).flatMap fun i => (upTo 16).map fun k => lane (s.core.rv (v.toNat + i)) k
     x.entry.getLsbD 63 = true → x.entry.getLsbD 55 = true → x.entry.getLsbD 51 = two → x.entry.getLsbD 54 = int →
     (x.count ∉ x.abandoned → s.core.localBusy j.toNat = false → ∃ u, exec (.chred h j v two int t) s = .next u ∧
       u.core.out = s.core.out ++ [.partial_ s.core.coord j.toNat .loc x.count data] ∧
       (u.core.tree j.toNat).count = (x.count + 1) % 2 ^ 16 ∧ u.core.files = s.core.files ∧ u.core.pad = s.core.pad) ∧
     (x.count ∈ x.abandoned → s.core.sch.tm = false → s.core.sch.pend.length < 32 →
       ∃ u p, exec (.chred h j v two int t) s = .next u ∧ u.core.out = s.core.out ∧ p ∈ u.core.sch.pend ∧ p.cause = .rdtmo ∧
         p.info = BitVec.ofNat 64 (j.toNat * 2 ^ 32 + x.count) ∧ (u.core.tree j.toNat).count = (x.count + 1) % 2 ^ 16 ∧
         u.core.files = s.core.files ∧ u.core.pad = s.core.pad))

/-- CHRECV (R91, R307, R308): an accepted binding is taken for the task; a channel that is no sink grants its sender one
credit for each slot, at most 16. -/
def Obligations.ReceiveBinding : Prop :=
  ∀ (s : State) (h : Hdr) (c : BitVec 5) (bs : BitVec 4) (sink : Bool), s.Ready h.guard → s.core.pad.queue = [] →
    s.core.pair = none →
    let i := s.core.inCh c.toNat
    let a := (s.core.ra bs).toNat
    let w := s.core.pad.mem.val a 16
    i.entry.getLsbD 63 = true → i.entry.getLsbD 61 = sink → i.once = false → a % 16 = 0 → a + 16 ≤ carveOut →
    s.core.Readable ((upTo 16).map (a + ·)) → bindingRefused w = false →
    ∃ u, exec (.chrecv h c bs sink) s = .next u ∧
      u.core.inCh c.toNat = { i with bound := true, once := true, binding := BitVec.ofNat 128 w } ∧
      (∀ m, m ≠ c.toNat → u.core.inCh m = s.core.inCh m) ∧
      u.core.out = s.core.out ++ (if sink then [] else
        [.credit (entryDest s.core.coord i.entry) (bitsOf i.entry.toNat 54 5) (min 16 (bitsOf w 32 8))]) ∧
      u.core.files = s.core.files ∧ u.core.pad.mem = s.core.pad.mem

/-- CHARR (R95, R310): a remote arrival leaves with its count, address, SEQ and tag, or is staged in an open block; CHWIN and
CHSEQ (R311) read the channel. PORTW (R318): a load whose park notice the tile has had is sent the value; without such a load
nothing is sent. -/
def Obligations.ChannelQueries : Prop :=
  (∀ (s : State) (h : Hdr) (c r : BitVec 5) (bs : BitVec 4) (k : BitVec 2) (t : BitVec 3), s.Ready h.guard →
     let o := s.core.outCh c.toNat
     let n := (s.core.rs r).toNat
     let put (w : Word) : Tile := s.core.write1 (s.core.ws r w)
     (o.entry.getLsbD 63 = true → o.dead = false → s.core.tagFree t = true → 1 ≤ n → n ≤ 65535 →
       s.core.reading c.toNat = false →
       (s.core.blocks = [] → s.core.pair = none → ∃ u, exec (.charr h c bs r t) s = .next u ∧
         (u.core.outCh c.toNat).seq = o.seq + 1#32 ∧ (u.core.outCh c.toNat).credit = o.credit ∧
         u.core.out = s.core.out ++ [.arrival
           { src := ⟨none, s.core.coord⟩, dst := entryDest s.core.coord o.entry, och := c.toNat, ich := bitsOf o.entry.toNat 54 5,
             seq := o.seq + 1#32, vc := bitsOf o.entry.toNat 60 2, yx := o.entry.getLsbD 59 } (s.core.ra bs) n t] ∧
         (t ≠ 0#3 → u.core.tagSt t.toNat = .outstanding) ∧ u.core.files = s.core.files ∧ u.core.pad = s.core.pad) ∧
       (∀ b l, s.core.blocks = b :: l → s.core.roomFor 32 = true → ∃ u, exec (.charr h c bs r t) s = .next u ∧
         u.core.outs = s.core.outs ∧ u.core.out = s.core.out ∧
         u.core.blocks = { b with staged := b.staged ++ [.arrival c.toNat (s.core.ra bs) n t] } :: l ∧
         u.core.files = s.core.files ∧ u.core.pad = s.core.pad)) ∧
     Issues (.chwin h c r k) s (put (if k = 0#2 then BitVec.ofNat 32 ((if o.dead then 2 ^ 31 else 0) + o.credit % 32)
       else if k = 1#2 then (s.core.inCh c.toNat).rcnt else (s.core.inCh c.toNat).free)) ∧
     (o.entry.getLsbD 63 = true → Issues (.chseq h c r) s (put o.seq))) ∧
  (∀ (s : State) (h : Hdr) (r : BitVec 5) (t : BitVec 3), s.Ready h.guard →
     (∀ a, s.core.portwTarget t = some a → Issues (.portw h r t) s { s.core with
       out := s.core.out ++ [.portw s.core.coord a.seq (wordBytes (s.core.rs r) ++
         if a.kind = .bldd then wordBytes (s.core.rs (r + 1#5)) else [])] }) ∧
     (s.core.portwTarget t = none → Issues (.portw h r t) s s.core))

/-- CBOPEN and CBCLOSE (R313, R315), which act when their bundle closes: a block opens with a checkpoint of the registers and
stacks; an inner block gives what it staged to the outer one, an outer block hands its staged effects over in order.
CONTAINMENT_ABORT (R316): the oldest pending cause, a containment error, restores the innermost block's checkpoint but for
its cause register, which takes the code; what it staged is discarded and its handler issues next. -/
def Obligations.Containment : Prop :=
  (∀ (s : State) (h : Hdr) (r : BitVec 5) (w : Word), s.Ready h.guard →
     let same (u : State) : Prop := u.core.files = s.core.files ∧ u.core.pad = s.core.pad ∧ u.core.out = s.core.out ∧
       u.dev = s.dev
     (s.core.blocks.length < 2 → ∃ u b, exec (.cbopen h r w) s = .next u ∧ u.core.blocks = b :: s.core.blocks ∧ same u ∧
       b.handler = w ∧ b.creg = rotS s.core.ctl.rrb r ∧ b.staged = [] ∧ b.chk.s = s.core.files.s ∧ b.chk.a = s.core.files.a ∧
       b.chk.p = s.core.files.p ∧ b.chk.rrb = s.core.ctl.rrb ∧ b.chk.lc = s.core.ctl.lc ∧ b.chk.ec = s.core.ctl.ec ∧
       b.chk.rstk = s.core.sch.rstk ∧ b.chk.lstk = s.core.sch.lstk) ∧
     (∀ b, s.core.blocks = [b] → b.staged = [] → b.submitted = false → s.core.blockDone b.seq = true →
       ∃ u, exec (.cbclose h) s = .next u ∧ u.core.blocks = [] ∧ same u) ∧
     (∀ b, s.core.blocks = [b] → b.submitted = false → s.core.pair = none → s.core.blockDone b.seq = true →
       ∃ u, exec (.cbclose h) s = .next u ∧ u.core.blocks = [] ∧ u.core.files = s.core.files ∧
         u.core.out = (b.staged.foldl (Tile.handOver false) { s.core with blocks := [] }).out) ∧
     (∀ b o l, s.core.blocks = b :: o :: l → s.core.blockDone b.seq = true →
       ∃ u, exec (.cbclose h) s = .next u ∧ u.core.blocks = { o with staged := o.staged ++ b.staged } :: l ∧ same u)) ∧
  (∀ (s : State) (c : Coord) (t : Tile) (p : Pending) (l : List Pending) (b : Block) (bs : List Block), s.tileAt c = some t →
     t.Live → t.sch.tm = false → t.sch.pend = p :: l → isContainment p.cause = true → t.blocks = b :: bs → t.pad.queue = [] →
     ∃ v, Becomes (.containmentAbort c) s c v ∧ v.blocks = bs ∧ v.sch.pc = b.handler ∧ v.sch.tm = false ∧
       v.files.s = (if b.creg = 0 then b.chk.s else b.chk.s.setIfInBounds b.creg (BitVec.ofNat 32 p.cause.code)) ∧
       v.files.a = b.chk.a ∧ v.files.p = b.chk.p ∧ v.files.v = t.files.v ∧ v.ctl.rrb = b.chk.rrb ∧ v.ctl.lc = b.chk.lc ∧
       v.ctl.ec = b.chk.ec ∧ v.sch.rstk = b.chk.rstk ∧ v.sch.lstk = b.chk.lstk ∧ v.pad.mem = t.pad.mem ∧ v.out = t.out ∧
       (∀ f ∈ v.sch.flights, f.seq < b.seq))

/-- STORE_PERFORM (R108, R237): the oldest access of port A, a store whose cycle has come, leaves the queue; its cells take
their bytes and every other byte keeps its own, and its granules become full. STORE_PERFORM of an arrival (R54, R249): COUNT
is taken from PEND and added to ARRSEQ, and the phase advances when nothing is left to come; a count above PEND sets OVR,
raises BAROVR and leaves the tag faulted. PRODUCER_LAND (R153, R157): the only result in flight lands, and its tag becomes
free; V_DECIDE (R271, R272): a decider whose window is over writes its predicate or lanes and completes. -/
def Obligations.QueuedAccesses : Prop :=
  (∀ (s : State) (c : Coord) (t : Tile) (q : PortQ) (l : List PortQ) (cells : List (Nat × Byte)) (full : List Nat),
     s.tileAt c = some t → t.Live → t.pad.queue = q :: l → q.act = .store cells full → q.at_ ≤ t.sch.cycle →
     t.pad.bad = [] → t.pad.inj.armed = 0 → NatSet.wf t.pad.full = true → Memory.wf t.pad.mem = true →
     ∃ v, Becomes (.storePerform c) s c v ∧ v.pad.queue = l ∧ v.files = t.files ∧ v.sch = t.sch ∧
       (∀ a, (∀ x ∈ cells, x.1 ≠ a) → v.pad.mem.read a = t.pad.mem.read a) ∧
       ((cells.map (·.1)).Nodup → ∀ x ∈ cells, v.pad.mem.read x.1 = x.2) ∧
       ∀ g, v.pad.full.has g = (t.pad.full.has g || full.elem g)) ∧
  (∀ (s : State) (c : Coord) (t : Tile) (q : PortQ) (l : List PortQ) (a n : Nat) (tag : BitVec 3),
     s.tileAt c = some t → t.Live → t.pad.queue = q :: l → q.act = .arrive a n tag → q.at_ ≤ t.sch.cycle →
     t.Readable ((upTo 16).map (a + ·)) → a + 16 ≤ padSize →
     let b := t.pad.bar a
     let put (b : Bar) : Memory := t.pad.mem.putVal a 16 b.toVal
     (n ≤ b.pend → ∃ v, Becomes (.storePerform c) s c v ∧ v.pad.queue = l ∧ v.files = t.files ∧
       (tag ≠ 0#3 → v.tagSt tag.toNat = .free) ∧
       v.pad.mem = put (if b.pend = n ∧ b.txpend = 0 then
           { b with pend := b.expect, txpend := b.reload, phase := (b.phase + 1) % 16, arrseq := (b.arrseq + n) % 2 ^ 24 }
         else { b with pend := b.pend - n, arrseq := (b.arrseq + n) % 2 ^ 24 })) ∧
     (b.pend < n → t.sch.tm = false → t.sch.pend.length < 32 → ∃ v p, Becomes (.storePerform c) s c v ∧
       v.pad.mem = put { b with ovr := true } ∧ (tag ≠ 0#3 → v.tagSt tag.toNat = .faulted) ∧ p ∈ v.sch.pend ∧
       p.cause = .barovr ∧ p.faddr = BitVec.ofNat 64 a ∧ p.seq = some q.seq)) ∧
  (∀ (s : State) (c : Coord) (t : Tile), s.tileAt c = some t → t.Live →
     (∀ f, t.sch.flights = [f] → t.sch.vops = [] → f.due ≤ t.sch.cycle → f.ring = none → t.blocks = [] →
       ∃ v, Becomes (.producerLand c) s c v ∧ v.files = t.files.putAll (t.surviving f.writes) ∧ v.sch.flights = [] ∧
         (f.tag ≠ 0#3 → v.tagSt f.tag.toNat = .free) ∧ v.pad = t.pad ∧ v.ctl = t.ctl) ∧
     (∀ o d, t.sch.vops = [o] → o.decider = some d → d.hi ≤ t.sch.cycle → o.flags = 0#5 → t.blocks = [] →
       (∀ n ∈ o.srcs, n < 4 ∧ ∃ k, t.link n = some k ∧ k.consumer = some o.seq) →
       ∃ v, Becomes (.vDecide c) s c v ∧ v.files = t.files.putAll (t.surviving o.writes) ∧ v.sch.vops = [] ∧
         (o.tag ≠ 0#3 → v.tagSt o.tag.toNat = .free) ∧ (∀ n ∈ o.srcs, v.link n = none) ∧ v.pad = t.pad ∧ v.ctl = t.ctl))

/-- ENGINE_FIRE (R281, R282, R288 to R299): the head of a queue whose conditions hold fires, reads its sources, and is to write, at
its completion, what its operation gives; MXW, MXF and MXR change the array as they fire. Its unit is taken and its completion comes as
Table 13-5 says, and the tag of MXF and MXR is free at once. ENGINE_COMPLETE (R282, R300): every destination is written in one step,
and the tag of any other operation becomes free. -/
def Obligations.EngineOperations : Prop :=
  (∀ (s : State) (c : Coord) (t : Tile) (e : Engine) (o : EOp) (l : List EOp), s.tileAt c = some t → t.MayFire e o l →
     let sh (x : TileRef) : Shape := shapeOf (o.shapeIn t x)
     let src (x : TileRef) : List Byte := t.files.getT (t.engReg false x) ((sh x).rows * (sh x).rowBytes)
     let elem (x : TileRef) (i j : Nat) : Nat := elemAt (src x) (sh x).ew (i * (sh x).cols + j)
     let wide (x : TileRef) (i j : Nat) : Nat := if (sh x).ew = 2 then widenBf16 (elem x i j) else elem x i j
     let mxin := fmtMxin o.fmt
     let z (n : BitVec 2) : ZAcc := (t.eng.arr.z[n.toNat]?).getD ZAcc.zero
     let hy (k : Nat) : Nat := ((o.hy[k]?).getD 0#32).toNat
     let a := t.eng.arr
     ∃ v f, Becomes (.engineFire c e) s c v ∧ (v.eng.get e).queue = l ∧ (v.eng.get e).fired = (t.eng.get e).fired ++ [f] ∧
       f.op = o ∧ f.fired = t.sch.cycle ∧ f.fault = none ∧ f.dropped = false ∧ v.files = t.files ∧ v.pad = t.pad ∧
       let takes (busy done : Nat) : Prop := f.busyTo = t.sch.cycle + busy ∧ f.done = t.sch.cycle + done
       let calm : Prop := v.eng.arr = a
       let image (d : TileRef) (w : EWrite) (g : Nat → Nat → Nat) : Prop :=
         ∃ b, w = t.engDest d b ∧ HoldsImage b (sh d).ew (sh d).rows (sh d).cols g
       let one (d : TileRef) (g : Nat → Nat → Nat) : Prop := ∃ w, f.writes = [w] ∧ image d w g
       let per (x : TileRef) : Nat := ((sh x).rows * (sh x).cols + 15) / 16
       let pass (n : BitVec 2) (x : TileRef) (flip : Bool) : Prop :=
         let act := if a.loaded then a.shadow else a.active
         let w (k j : Nat) : Nat := ((if flip then act[16 * j + k]? else act[16 * k + j]?).getD 0#16).toNat
         f.writes = [] ∧ v.eng.arr.active = act ∧ v.eng.arr.loaded = false ∧ v.eng.arr.shadow = a.shadow ∧
         (∀ m, m ≠ n.toNat → v.eng.arr.z[m]? = a.z[m]?) ∧
         (∃ u, v.eng.arr.z[n.toNat]? = some u ∧ u.pend = ((z n).pend || mxin != 1) ∧
           u.ptype = (if mxin = 1 then (z n).ptype else mxin) ∧
           ∀ i j, i < 16 → j < 16 → ∃ y y', (z n).el[16 * i + j]? = some y ∧ u.el[16 * i + j]? = some y' ∧
             if i < (sh x).rows then y.Gains mxin y' ((upTo 16).map fun k => (elem x i k, w k j)) else y' = y) ∧
         takes (if mxin = 1 then 2 * (sh x).rows else (sh x).rows) ((if mxin = 1 then 2 * (sh x).rows else (sh x).rows) + 18) ∧
         (o.tag ≠ 0#3 → v.tagSt o.tag.toNat = .free)
       match o.inst with
       | .mxw _ x _ => f.writes = [] ∧ takes 16 16 ∧ v.eng.arr = { a with
           shadow := Vector.ofFn fun k => BitVec.ofNat 16 (elem x (k.val / 16) (k.val % 16))
           wvalid := true, loaded := true, loadDone := t.sch.cycle + 16 }
       | .mxf _ n x _ => pass n x false
       | .mxr _ n x _ => pass n x true
       | .mxp _ n _ _ _ => calm ∧ (if mxin = 1 then takes 1 1 else takes 4 8) ∧ ∃ u, f.writes = [.acc n.toNat u] ∧
           if mxin = 1 then u = z n
           else u.pend = false ∧ ∀ k, k < 256 → ∃ y y', (z n).el[k]? = some y ∧ u.el[k]? = some y' ∧
             y.Promotes mxin y' (lane o.vec (k / 16)) o.sc0
       | .mxz _ n x _ => calm ∧ (if x.isSome then takes 16 18 else takes 1 2) ∧ ∃ u, f.writes = [.acc n.toNat u] ∧
           u.pend = false ∧ ∀ i j, i < 16 → j < 16 → u.el[16 * i + j]? = some ⟨0#56,
             (match x with
               | some x => BitVec.ofNat 32 (elem x i j)
               | none => 0#32), false, 0⟩
       | .mxo _ d n _ => calm ∧ takes (sh d).rows ((sh d).rows + 4) ∧ one d fun i j =>
           let y := (z n).accAt (16 * i + j)
           if fmtMxo o.fmt = 1 then cvtBf16 y else if fmtMxo o.fmt = 2 then cvtE4M3 y else y
       | .mxq _ d n _ => calm ∧ takes 4 6 ∧ one d fun i _ =>
           let l := (upTo 16).map fun j => (z n).accAt (16 * i + j)
           if mxin = 2 then (l.map fun y => (BitVec.ofNat 32 y).toInt.natAbs).foldl Nat.max 0
           else if l.any (fun y => (f32.unpack y).isNan) then 0x7FC00000
           else (l.map fun y => y % 2 ^ 31).foldl Nat.max 0
       | .xpt _ d x _ => calm ∧ takes (sh x).rows ((sh x).rows + 4) ∧ one d fun i j => elem x j i
       | .xpc _ d x code _ => calm ∧ takes (sh x).rows ((sh x).rows + 3) ∧ one d fun i j =>
           let y := elem x i j
           match code.toNat with
           | 0 => cvtBf16 y
           | 1 => cvtE4M3 y
           | 2 => widenBf16 y
           | 3 => widenE4M3 y
           | 4 => cvtE4M3 (widenBf16 y)
           | _ => cvtBf16 (widenE4M3 y)
       | .upadm _ w g m u _ => calm ∧ takes (4 * per (.tile w)) (4 * per (.tile w) + 12) ∧
           let m' (i j : Nat) : Nat := add32 (mul32 (hy 1) (elem (.tile m) i j)) (mul32 (hy 2) (wide (.tile g) i j))
           let v' (i j : Nat) : Nat := add32 (mul32 (hy 3) (elem (.tile u) i j))
             (mul32 (hy 4) (mul32 (wide (.tile g) i j) (wide (.tile g) i j)))
           let u' (i j : Nat) : Nat := div32 (mul32 (hy 7) (m' i j)) (add32 (sqrt32 (v' i j)) (hy 5))
           ∃ w1 w2 w3, f.writes = [w1, w2, w3] ∧ image (.tile m) w2 m' ∧ image (.tile u) w3 v' ∧
             image (.tile w) w1 fun i j =>
               add32 (elem (.tile w) i j) (neg32 (mul32 (hy 0) (add32 (u' i j) (mul32 (hy 6) (elem (.tile w) i j)))))
       | .upsgd _ w g m _ => calm ∧ takes (2 * per (.tile w)) (2 * per (.tile w) + 6) ∧
           let m' (i j : Nat) : Nat := add32 (mul32 (hy 1) (elem (.tile m) i j))
             (add32 (wide (.tile g) i j) (mul32 (hy 2) (elem (.tile w) i j)))
           ∃ w1 w2, f.writes = [w1, w2] ∧ image (.tile m) w2 m' ∧
             image (.tile w) w1 fun i j => add32 (elem (.tile w) i j) (neg32 (mul32 (hy 0) (m' i j)))
       | .upaxp _ y x _ => calm ∧ takes (per (.tile y)) (per (.tile y) + 4) ∧
           one (.tile y) fun i j => fma32 (hy 0) (wide (.tile x) i j) (elem (.tile y) i j)
       | .rnmask _ d _ _ _ => calm ∧ takes (per d) (per d + 5) ∧ one d fun i j =>
           let x := spore (o.rn.getD 0 0#32) (o.rn.getD 1 0#32) (o.rn.getD 2 0#32) (o.sc0 + BitVec.ofNat 32 i)
             (o.sc1 + BitVec.ofNat 32 j)
           if x.toNat / 2 ^ 16 < (o.rn.getD 3 0#32).toNat then 2 ^ (8 * (sh d).ew) - 1 else 0
       | .rnuni _ d _ _ _ => calm ∧ takes (per d) (per d + 5) ∧ ∃ g, one d g ∧ ∀ i j, i < (sh d).rows → j < (sh d).cols →
           let x := spore (o.rn.getD 0 0#32) (o.rn.getD 1 0#32) (o.rn.getD 2 0#32) (o.sc0 + BitVec.ofNat 32 i)
             (o.sc1 + BitVec.ofNat 32 j)
           (f32.unpack (g i j)).finite = true ∧ (f32.unpack (g i j)).rat = (x.toNat / 2 ^ 8 : Nat) * 2 ^ (-24 : Int)
       | _ => False) ∧
  (∀ seed step stream row col : Word,
     let key := seed ^^^ (BitVec.ofNat 32 (stream.toNat % 256) <<< 24) ^^^ (step * 0x27D4EB2F#32)
     let x1 := (col ^^^ key) * 0x9E3779B1#32
     let x2 := ((x1 ^^^ (x1 >>> 16)) ^^^ row) * 0x85EBCA6B#32
     spore seed step stream row col = x2 ^^^ (x2 >>> 13)) ∧
  (∀ (s : State) (c : Coord) (t : Tile) (e : Engine) (f : EFired), s.tileAt c = some t → t.Live → t.inj.armed = 0 →
     t.eng.strikes = [] → (t.eng.get e).fired = [f] → f.done ≤ t.sch.cycle → f.fault = none → f.dropped = false →
     ∃ v, Becomes (.engineComplete c e) s c v ∧ (v.eng.get e).fired = [] ∧ (v.eng.get e).queue = (t.eng.get e).queue ∧
       v.pad = t.pad ∧ (streams f.op.inst = false → f.op.tag ≠ 0#3 → v.tagSt f.op.tag.toNat = .free) ∧
       (streams f.op.inst = true → v.sch = t.sch) ∧
       (∀ l : List (Nat × List Byte), f.writes = l.map (fun x => .tile x.1 x.2) →
         v.files = t.files.putAll (l.map fun x => .t x.1 x.2) ∧ v.eng.arr = t.eng.arr ∧ v.eng.rings = t.eng.rings) ∧
       (∀ n x, n < 4 → f.writes = [.acc n x] → v.files = t.files ∧ v.eng.arr.z[n]? = some x ∧
         (∀ m, m ≠ n → v.eng.arr.z[m]? = t.eng.arr.z[m]?) ∧ v.eng.arr.active = t.eng.arr.active ∧
         v.eng.arr.shadow = t.eng.arr.shadow) ∧
       (∀ n k r b, f.writes = [.ring n k r b] → v.files = t.files.put (.t r b) ∧ v.ring n = (t.ring n).land k))

/-- COPY_ROW of an inbound copy and COPY_COMPLETE (R47, R50, R64): its next line is performed on its own, the row's count rises behind
its last line, and a line that parks stays parked; a last line that translates to a line of HBM that can be read is written into
scratchpad byte by byte. A copy whose rows are done completes: cedone passes its ID. That a runnable copy's row of several lines goes
on to its next lines in one step is the model's own reading (entry 50, DEDUCED). -/
def Obligations.CopyLines : Prop :=
  ∀ (s : State) (c : Coord) (t : Tile) (ch : BitVec 3) (j : CopyJob), s.tileAt c = some t → t.Live →
    let k := t.copyCh ch.toNat
    let ls := j.tpl.rowLines j.row
    (∀ l, s.copyStop t = false → t.acks.elem .copy = false → k.runnable = some j → j.tpl.out = false → ls[j.line]? = some l →
      let place (i : Nat) : Nat := j.tpl.spAt j.row (l.2.1 + i)
      (∀ s' t', s.copyLine t ch.toNat j l = (.done, s') → s'.tileAt c = some t' → t'.recs = [] → t'.coord = c →
        (j.line + 1 = ls.length → ∃ u, exec (.copyRow c ch) s = .next u ∧ u.dev = s'.dev ∧
          u.tileAt c = some (t'.setCopyCh ch.toNat ((t'.copyCh ch.toNat).setJob j.nextRow))) ∧
        (j.line + 1 < ls.length → exec (.copyRow c ch) s = .next (State.copyLines false c ch.toNat ls.length j.nextLine
          (s'.setTile (t'.setCopyCh ch.toNat ((t'.copyCh ch.toNat).setJob { j with line := j.line + 1, lock := none })))))) ∧
      (∀ s' t' p i q, s.copyLine t ch.toNat j l = (.parked p i q, s') → s'.tileAt c = some t' → t'.recs = [] → t'.coord = c →
        ∃ u, exec (.copyRow c ch) s = .next u ∧ u.dev = s'.dev ∧
          u.tileAt c = some (t'.setCopyCh ch.toNat ((t'.copyCh ch.toNat).setJob { j with parked := some (p, i, q) }))) ∧
      (∀ x dv m, j.line + 1 = ls.length → j.lock = none → j.tpl.setf = false → t.lineBusy j.seq l.1 = false →
        s.dev.translate (s.dev.entryPort t.coord) t.ctx l.1 false = (.ok x, dv) → dv.keyLeaves t.ctx x = false →
        dv.Opens t.ctx x m → s.portFull (s.dev.targetPort (s.dev.entryPort t.coord) false x) = false → x.pa % 64 + l.2.2 ≤ 64 →
        ((upTo l.2.2).map place).Nodup → Memory.wf t.pad.mem = true →
        ∃ v, BecomesWith (.copyRow c ch) s c v dv ∧ (∀ i, i < l.2.2 → v.pad.mem.read (place i) = dv.hbm.read (x.pa + i)) ∧
          (∀ a, (∀ i, i < l.2.2 → place i ≠ a) → v.pad.mem.read a = t.pad.mem.read a) ∧
          v.copyCh ch.toNat = k.setJob j.nextRow ∧ v.files = t.files ∧ v.sch = t.sch)) ∧
    (k.jobs = [j] → k.done = j.id → j.rowsDone = true → j.complete = false → j.tpl.out = false → j.tpl.bar = false →
      ∃ v, Becomes (.copyComplete c ch) s c v ∧ (v.copyCh ch.toNat).done = j.id + 1#32 ∧ (v.copyCh ch.toNat).jobs = [] ∧
        v.files = t.files ∧ v.pad = t.pad)

/-- The time-outs of waits (R39, R90, R251): a bundle whose bound has expired takes its trap, FETMO, CHWTMO or BARTMO, at
issue; BARTMO also sets the object's TMO. TRAP_TAKE and INVALID_BUNDLE (R201, R322, R323): with traps unmasked and a handler,
the oldest pending cause that aborts no block is taken at the boundary, and an invalid bundle's cause at the bundle; FETCHECC is
counted (R367). -/
def Obligations.EventsThatTrap : Prop :=
  (∀ (s : State) (c : Coord) (t : Tile) (st : Stall), s.tileAt c = some t → t.Live → t.sch.tm = false → t.ctl.tvec ≠ 0#32 →
     t.blocks = [] → t.sch.stall = some st → st.expired = true →
     let clear (t : Tile) : Tile := { t with sch := { t.sch with stall := none, waited := 0 } }
     let marked : Tile := t.withPad fun p => { p with mem := p.mem.putVal st.obj 16 { p.bar st.obj with tmo := true }.toVal }
     let ends (i : Instr) (t : Tile) (cause : Cause) : Prop :=
       ((clear t).takeTrap cause false st.slot st.faddr st.info t.sch.pc).recs = [] →
       ∃ v, Becomes i s c v ∧ (clear t).Traps v cause false st.slot st.faddr st.info
     (st.kind = .fe → ends (.feWaitTimeout c) t .fetmo) ∧ (st.kind = .send → ends (.sendWaitTimeout c) t .chwtmo) ∧
     (st.kind = .bar → ends (.barwaitTimeout c) marked .bartmo)) ∧
  (∀ (s : State) (t : Tile) (c : Coord) (p : Pending) (l : List Pending) (cause : Cause) (slot : BitVec 3),
     (s.tileAt c = some t → t.Live → t.sch.status = .running → t.sch.tm = false → t.ctl.tvec ≠ 0#32 → t.sch.pend = p :: l →
       (isContainment p.cause = false ∨ t.blocks = []) →
       let t' := t.withSch fun k => { k with pend := l }
       (t'.takeTrap p.cause true 0 p.faddr p.info t.sch.pc).recs = [] →
       ∃ v, Becomes (.trapTake c) s c v ∧ t'.Traps v p.cause true 0 p.faddr p.info) ∧
     (s.core.sch.tm = false → s.core.ctl.tvec ≠ 0#32 → cause ≠ .fetch →
       let met : Tile := if cause = .fetchecc then { s.core with counts := addCount (some .fetchecc) 1 s.core.counts } else s.core
       (met.takeTrap cause false slot.toNat 0#64 0#64 s.core.sch.pc).recs = [] →
       ∃ u, exec (.invalidBundle cause slot) s = .next u ∧ met.Traps u.core cause false slot.toNat 0#64 0#64 ∧
         u.bundle = none ∧ u.others = s.others ∧ u.dev = s.dev))

/-- Taking a trap with nothing in progress (R322, R325): the frame's header holds the cause, rrb, the slot, PC, vbud, the
stack depths, the boundary, the cycle, FADDR, INFO, tstat, fmt, lc and ec; traps are masked and the handler issues twelve
cycles later; the register files and memory below the carve-out stay. A cause raised by an instruction of the handler (R330):
the tile halts with DBLTRAP and the frame stays as it was. -/
def Obligations.TrapEntry : Prop :=
  (∀ (t : Tile) (cause : Cause) (after : Bool) (slot : Nat) (faddr info : DWord), t.pad.queue = [] → t.sch.flights = [] →
     t.sch.vops = [] → t.lists = [] → t.sch.links = Vector.replicate 4 none → t.ctl.tvec ≠ 0#32 → slot < 8 → t.ctl.rrb < 16 →
     t.ctl.vbud < 32 → t.sch.rstk.length ≤ 16 → t.sch.lstk.length ≤ 4 → t.sch.pc.toNat < 0x4000 → t.sch.cycle < 2 ^ 64 →
     t.tstat < 2 ^ 32 → Memory.wf t.pad.mem = true →
     let u := t.takeTrap cause after slot faddr info t.sch.pc
     let m := u.pad.mem
     let w := m.val 0x2F000 8
     bitsOf w 0 8 = cause.code ∧ bitsOf w 8 4 = t.ctl.rrb ∧ bitsOf w 12 5 = 0 ∧ bitsOf w 17 3 = slot ∧
       bitsOf w 20 12 = t.sch.pc.toNat / 4 ∧ bitsOf w 32 5 = t.ctl.vbud ∧ bitsOf w 37 3 = t.sch.lstk.length ∧
       bitsOf w 40 5 = t.sch.rstk.length ∧ bitOf w 45 = false ∧ bitOf w 46 = after ∧
       m.val 0x2F008 8 = t.sch.cycle ∧ m.val 0x2F028 8 = faddr.toNat ∧ m.val 0x2F030 8 = info.toNat ∧
       m.val 0x2F038 4 = t.tstat ∧ m.word 0x2F03C = t.ctl.fmt ∧ m.word 0x2F040 = t.ctl.lc ∧ m.word 0x2F044 = t.ctl.ec ∧
       (∀ a, a < 0x2F000 → m.read a = t.pad.mem.read a) ∧ u.files = t.files ∧ u.ctl = t.ctl ∧ u.sch.tm = true ∧
       u.sch.pc = t.ctl.tvec ∧ u.sch.ready = t.sch.cycle + 12 ∧ u.sch.captured = []) ∧
  (∀ (t : Tile) (cause : Cause) (slot : Nat) (faddr info : DWord), t.sch.tm = true →
     let u := t.issueTrap cause slot faddr info
     u.sch.status = .halted ∧ u.pad = t.pad ∧ u.files = t.files ∧ u.ctl = t.ctl ∧
       ∃ r, u.recs = t.recs ++ [r] ∧ r.cause = .dbltrap ∧ r.cause2 = cause.code ∧ r.fatal = true ∧
         r.pc = bitsOf (t.pad.mem.val 0x2F000 8) 20 12)

/-- The hops of a flit (R82, R83, R85): a flit with no hop left has arrived; one whose next link is up moves to the neighbour
in X before Y, or in Y before X; at a down link a packet is discarded, and its sender is told and given its credit back, over
an optical link where it is a peer wafer's. A failed resend is counted at the link's end and its region (LINK_RESEND), and the
16th in a row takes the link down at both ends (LINK_DOWN). A frame of a secure optical link whose tag fails is counted at its
port, and the 16th in a row takes that link down (R83, R401); that no region counts it is the model's own choice (entry 83,
DESIGN CHOICE). -/
def Obligations.FabricHops : Prop :=
  ∀ (s : State) (f : Flit) (c : Coord) (d : Dir),
    (s.dev.net = [f] → f.arrived = false → f.msg.vc ≤ 3 → s.core.out = [] → (∀ t ∈ s.others, t.out = []) → s.dev.bufSoft = [] → s.dev.bufBad = [] →
      let calm (d : Dir) : Prop := ∀ t, s.tileAt (neighbour f.at_ d) = some t → t.inj.armed = 0 ∧ t.recs = []
      (f.dx = 0 → f.dy = 0 →
        exec (.routeFlit 0) s = .next (s.withDev fun dv => { dv with net := [{ f with arrived := true }] })) ∧
      (f.dx ≠ 0 → (f.yx = true → f.dy = 0) → s.dev.noHop f.at_ (if f.dx < 0 then .w else .e) f.msg.vc = false →
        s.dev.refuses f.at_ (if f.dx < 0 then .w else .e) f.msg.vc = false → calm (if f.dx < 0 then .w else .e) →
        ∃ u g, exec (.routeFlit 0) s = .next u ∧ u.dev.net = [g] ∧ g.msg = f.msg ∧ g.at_.row = f.at_.row ∧
          g.at_.col = (f.at_.col + if f.dx < 0 then 999 else 1) % 1000 ∧ g.dx = f.dx + (if f.dx < 0 then 1 else -1) ∧
          g.dy = f.dy ∧ g.yx = f.yx ∧ ∀ e, u.tileAt e = s.tileAt e) ∧
      (f.dy ≠ 0 → (f.yx = false → f.dx = 0) → s.dev.noHop f.at_ (if f.dy < 0 then .n else .s) f.msg.vc = false →
        s.dev.refuses f.at_ (if f.dy < 0 then .n else .s) f.msg.vc = false → calm (if f.dy < 0 then .n else .s) →
        ∃ u g, exec (.routeFlit 0) s = .next u ∧ u.dev.net = [g] ∧ g.msg = f.msg ∧ g.at_.col = f.at_.col ∧
          g.at_.row = (f.at_.row + if f.dy < 0 then 999 else 1) % 1000 ∧ g.dy = f.dy + (if f.dy < 0 then 1 else -1) ∧
          g.dx = f.dx ∧ g.yx = f.yx ∧ ∀ e, u.tileAt e = s.tileAt e) ∧
      (∀ h p q b, f.msg = .packet h p q b → f.dx ≠ 0 → f.yx = false →
        (f.at_, if f.dx < 0 then Dir.w else .e) ∈ s.dev.down →
        s.dev.refuses f.at_ (if f.dx < 0 then .w else .e) f.msg.vc = false →
        let tell : Msg := .notice h.src h.och h.seq .lnkdn 0#3
        let give : Msg := .credit h.src h.och 1
        ∃ u, exec (.routeFlit 0) s = .next u ∧ u.core = s.core ∧ u.others = s.others ∧
          (h.src.remote = none → ∃ n k, u.dev.net = [n, k] ∧ n.msg = tell ∧ k.msg = give ∧ n.at_ = f.at_ ∧ k.at_ = f.at_) ∧
          (∀ o w, h.src.remote = some (o, w) → o < 32 → s.dev.secure o w = true →
            u.dev.net = [] ∧ u.dev.remoteOut = s.dev.remoteOut ++ [tell, give]))) ∧
    (∀ x, s.dev.regions[regionOf (neighbour c d)]? = some x →
      let n := s.dev.resendsOf c d + 1
      ∃ u, exec (.linkResend (.tile c) d) s = .next u ∧ u.dev.resendsOf c d = n ∧
        u.dev.regions[regionOf (neighbour c d)]? = some { x with linkrty := (x.linkrty + 1) % 2 ^ 32 } ∧
        u.agenda = s.agenda ++ (if n = 16 then [.linkDown (.tile c) d] else []) ∧ u.dev.net = s.dev.net ∧ u.core = s.core ∧
        u.others = s.others) ∧
    (16 ≤ s.dev.resendsOf c d → (c, d) ∉ s.dev.down →
      ∃ u q, exec (.linkDown (.tile c) d) s = .next u ∧ u.dev.down = s.dev.down ++ [(c, d), (neighbour c d, oppDir d)] ∧
        (q = c ∨ q = neighbour c d) ∧ u.agenda = s.agenda ++ [.shiftMigration q] ∧ u.dev.net = s.dev.net ∧ u.core = s.core ∧
        u.others = s.others) ∧
    (∀ p : Nat, p < 32 → (s.dev.readyOf (108 + p)).kstate = 3 →
      let n := s.dev.framesOf p + 1
      (∃ u, exec (.linkResend (.optical p) d) s = .next u ∧ u.dev.framesOf p = n ∧
        (∀ q, q ≠ p → u.dev.framesOf q = s.dev.framesOf q) ∧ u.dev.regions = s.dev.regions ∧
        u.agenda = s.agenda ++ (if n = 16 then [.linkDown (.optical p) .e] else []) ∧ u.core = s.core ∧ u.others = s.others) ∧
      (16 ≤ s.dev.framesOf p → (∀ t ∈ s.core :: s.others, t.accs = []) →
        ∃ u, exec (.linkDown (.optical p) d) s = .next u ∧ (u.dev.readyOf (108 + p)).kstate = 0 ∧ u.dev.framesOf p = 0 ∧
          (∀ w, u.dev.secure p w = false) ∧ u.dev.net = s.dev.net ∧ u.core = s.core ∧ u.others = s.others))

/-- What has come for an unpaired tile that runs, and for no pre-empted node (R91, R92, R94, R95): a packet for a bound channel is written into its next
slot; credit is added to its channel; a notice raises its cause and with CHDEAD leaves the channel dead; an arrival is
evaluated on its barrier and answered; an answer frees the tag, or leaves it faulted and raises its cause. -/
def Obligations.ReceiptSteps : Prop :=
  ∀ (s : State) (c : Coord) (t : Tile) (m : Msg) (n : BitVec 5), s.Arrived c t m → t.pair = none → t.sch.pend.length < 32 →
    let dv := { s.dev with net := [] }
    let i := t.inCh n.toNat
    let at_ := i.slotAddr i.rcnt.toNat
    (∀ h payload, m = .packet h payload [] false → h.ich = n.toNat → t.fromSender i h = true → s.dev.awaitsRestore c h = false →
      t.sch.status = .running → i.bound = true → bitOf i.binding.toNat 48 = false → payload.length ≤ 16 * i.slotG → t.slotEmpty i = true →
      t.beforeB (t.slotGranules n.toNat) = t → Memory.wf t.pad.mem = true →
      ∃ v, BecomesWith (.receive c n) s c v dv ∧ (v.inCh n.toNat).rcnt = i.rcnt + 1#32 ∧
        (∀ k x, payload[k]? = some x → v.pad.mem.read (at_ + k) = x) ∧
        (∀ b, b < at_ ∨ at_ + payload.length ≤ b → v.pad.mem.read b = t.pad.mem.read b) ∧
        (∀ g ∈ granules at_ payload.length, v.pad.full.has g = true) ∧ v.files = t.files ∧ v.sch = t.sch) ∧
    (∀ d x, m = .credit d n.toNat x → s.savedFor c n.toNat = none →
      ∃ v, BecomesWith (.creditArrive c n) s c v dv ∧ (v.outCh n.toNat).credit = Nat.min 31 ((t.outCh n.toNat).credit + x) ∧
        (∀ k, k ≠ n.toNat → v.outCh k = t.outCh k) ∧ v.files = t.files ∧ v.pad = t.pad ∧ v.sch = t.sch) ∧
    (∀ d q cz tag, m = .notice d n.toNat q cz tag → s.savedFor c n.toNat = none →
      ∃ v, BecomesWith (.sendFaultNotice c n) s c v dv ∧ (cz = .chdead → (v.outCh n.toNat).dead = true) ∧
        (tag ≠ 0#3 → v.tagSt tag.toNat = .faulted) ∧ v.Pends cz 0#64 (BitVec.ofNat 64 (n.toNat * 2 ^ 32 + q.toNat)) ∧
        v.files = t.files ∧ v.pad = t.pad) ∧
    (∀ h (a : Word) cnt tag, m = .arrival h a cnt tag → h.ich = n.toNat → t.fromSender i h = true → s.dev.awaitsRestore c h = false →
      t.sch.status = .running → i.broken = false → a.toNat % 16 = 0 → a.toNat + 16 ≤ 0x2F000 → a.toNat / 16 ∉ t.pad.poison →
      (∀ w ∈ t.pad.bad, w / 4 ≠ a.toNat / 16) → t.pad.inj.armed = 0 →
      let b := t.pad.bar a.toNat
      cnt ≤ b.pend →
      ∃ u v, exec (.remoteArrival c n) s = .next u ∧ u.tileAt c = some v ∧
        u.dev = dv.enter c none (.result h.src h.och h.seq tag none) ∧
        (h.src.remote = none → ∃ x, u.dev = { dv with net := [x] } ∧ x.at_ = c ∧ x.msg = .result h.src h.och h.seq tag none) ∧
        v.files = t.files ∧ v.sch = t.sch ∧
        v.pad.mem = t.pad.mem.putVal a.toNat 16 (Bar.toVal
          (if b.pend = cnt ∧ b.txpend = 0 then
            { b with pend := b.expect, txpend := b.reload, phase := (b.phase + 1) % 16, arrseq := (b.arrseq + cnt) % 2 ^ 24 }
          else { b with pend := b.pend - cnt, arrseq := (b.arrseq + cnt) % 2 ^ 24 }))) ∧
    (∀ d q tag r, m = .result d n.toNat q tag r → s.savedFor c n.toNat = none →
      ∃ v, BecomesWith (.arrivalResult c n) s c v dv ∧ v.files = t.files ∧ v.pad = t.pad ∧
        match r with
        | none => (tag ≠ 0#3 → v.tagSt tag.toNat = .free) ∧ v.sch.pend = t.sch.pend
        | some cz => (tag ≠ 0#3 → v.tagSt tag.toNat = .faulted) ∧
            v.Pends cz 0#64 (BitVec.ofNat 64 (n.toNat * 2 ^ 32 + q.toNat)))

/-- A reduction tree's router in an unpaired tile (R100 to R102): the last input of a round sends the combination of all to
the parent; a root writes the result it holds into its sink once the slot is empty; a round whose time is over, or that a
neighbour has abandoned, is given up: its inputs go, ROUND passes it and the parent is told. -/
def Obligations.TreeSteps : Prop :=
  ∀ (s : State) (c : Coord) (t : Tile) (j : BitVec 3) (x : Tree), s.tileAt c = some t → t.recs = [] → t.pair = none →
    t.sch.pend.length < 32 → t.trees[j.toNat]? = some x →
    let up := treeParent x.entry
    let told (u : State) (r : Nat) : Prop :=
      ∃ g ∈ u.dev.net, g.at_ = c ∧ g.msg = .abandon (neighbour c up) j.toNat (some (dirPort (oppDir up))) r
    (∀ d p data, s.Arrived c t (.partial_ d j.toNat p x.round data) → p ≠ .loc → x.held = none →
      (∀ y ∈ x.inputs, y.1 ≠ p) → x.entry.getLsbD 62 = false →
      (∀ q ∈ treePorts x.entry, q = p ∨ ∃ y ∈ x.inputs, y.1 = q) →
      let l := x.inputs ++ [(p, data)]
      ∃ u v g, exec (.reductionInput c j p) s = .next u ∧ u.tileAt c = some v ∧ u.dev.net = [g] ∧ g.at_ = c ∧
        g.msg = .partial_ (neighbour c up) j.toNat (dirPort (oppDir up)) x.round
          (combineAll x.entry ((treePorts x.entry).filterMap fun q => (l.find? (·.1 == q)).map (·.2))) ∧
        (v.tree j.toNat).inputs = [] ∧ (v.tree j.toNat).round = (x.round + 1) % 2 ^ 16 ∧ v.files = t.files ∧ v.pad = t.pad ∧
        v.sch = t.sch) ∧
    (∀ w, x.held = some w →
      let n := bitsOf x.entry.toNat 46 5
      let i := t.inCh n
      let at_ := i.slotAddr i.rcnt.toNat
      n < 32 → i.bound = true → entrySink i.entry = true → 4 * w.length ≤ 16 * i.slotG → t.slotEmpty i = true →
      t.beforeB (t.slotGranules n) = t → bitOf i.binding.toNat 48 = false → Memory.wf t.pad.mem = true →
      ∃ v, Becomes (.heldResultDeliver c j) s c v ∧ (v.tree j.toNat).held = none ∧ (v.inCh n).rcnt = i.rcnt + 1#32 ∧
        (∀ k y, (w.flatMap wordBytes)[k]? = some y → v.pad.mem.read (at_ + k) = y) ∧ v.files = t.files ∧ v.sch = t.sch) ∧
    (bitsOf x.entry.toNat 0 24 ≠ 0 → x.timer ≠ 0 → x.inputs ≠ [] → x.timer + bitsOf x.entry.toNat 0 24 ≤ t.sch.cycle + 1 →
      x.entry.getLsbD 62 = false →
      ∃ u v, exec (.roundAbandon c j) s = .next u ∧ u.tileAt c = some v ∧ (v.tree j.toNat).inputs = [] ∧
        (v.tree j.toNat).round = (x.round + 1) % 2 ^ 16 ∧ told u x.round ∧ v.files = t.files ∧ v.pad = t.pad ∧
        (roundPast x.count x.round = true → treeChild x.entry .loc = true →
          v.Pends .rdtmo 0#64 (BitVec.ofNat 64 (j.toNat * 2 ^ 32 + x.round)))) ∧
    (∀ d p, s.Arrived c t (.abandon d j.toNat p x.round) → x.entry.getLsbD 62 = false → p ≠ some (dirPort up) →
      ∃ u v, exec (.abandonNotice c j) s = .next u ∧ u.tileAt c = some v ∧ (v.tree j.toNat).inputs = [] ∧
        (v.tree j.toNat).round = (x.round + 1) % 2 ^ 16 ∧ told u x.round ∧ v.files = t.files ∧ v.pad = t.pad)

/-- The comparison of a pair (R142, R143): an item leaves the primary when the shadow's CRC matches; a mismatch, or 65,536
cycles without one, discards it and raises PAIRMIS in both tiles. -/
def Obligations.PairSteps : Prop :=
  ∀ (s : State) (c : Coord) (t w : Tile) (p : Pair) (x : PairItem) (m : Msg), s.tileAt c = some t → t.recs = [] →
    t.pair = some p → p.primary = true → p.held = [x] → x.item = some m → x.group = false → x.matched = false →
    t.inj.armed = 0 → s.tileAt p.partner = some w → w.recs = [] → p.partner ≠ c → t.sch.pend.length < 32 →
    w.sch.pend.length < 32 →
    let fails (i : Instr) : Prop := ∃ u v v', exec i s = .next u ∧ u.tileAt c = some v ∧ u.tileAt p.partner = some v' ∧
      v.pair = some { p with held := [], ok := p.ok.filter (· != x.key) } ∧ v.out = t.out ∧ v.Pends .pairmis 0#64 0#64 ∧ v'.Pends .pairmis 0#64 0#64 ∧
      v.files = t.files ∧ v'.files = w.files
    (∀ d k, s.Arrived c t (.crc d x.key k) →
      (k = x.crc → (∀ e, m ≠ .token e) → ∃ v, BecomesWith (.pairCompare c) s c v { s.dev with net := [] } ∧
        v.out = t.out ++ [m] ∧ v.pair = some { p with held := [] } ∧ v.files = t.files ∧ v.sch = t.sch) ∧
      (k ≠ x.crc → fails (.pairCompare c))) ∧
    (keyUnbounded x.key = false → x.at_ + 65536 ≤ t.sch.cycle → fails (.pairTimeout c))

/-- A bulk access up to its target (R64, R70 to R72, R78 to R80): at its entry port it is translated and goes on, or parks
with the port's next SEQ; a load takes its bytes of the line, a store writes its bytes and no others, one to a replicated
line at every replica; a read of a locked line stalls there, to read once it unlocks or to fail with BXLOCKTMO after 2 µs.
That a park takes the lowest free entry and the SEQ one above the last is the model's own choice (entry 74, DESIGN CHOICE). -/
def Obligations.BulkAccessSteps : Prop :=
  ∀ (s : State) (id : Nat) (t : Tile) (a : BulkAcc) (x : Xlat) (m : Nat), s.HasAcc id t a → t.pair = none →
    let c := evCoord id
    let p := s.dev.entryPort c
    let at_ (st : AccStage) : Tile := t.setAcc { a with stage := st }
    let line := s.dev.hbm.bytes (x.pa / 64 * 64) 64
    let ready : Prop := a.stage = .inTile ∧ a.staged = false ∧ t.acqOpen a.seq = false ∧ t.lineBusy a.seq a.va = false
    (∀ dv, ready → s.dev.translate p t.ctx a.va a.kind.writes = (.ok x, dv) →
      (x.tgt = 0 → s.atPort (s.dev.targetPort p a.kind.writes x) < 8192) → s.dev.keyLeaves t.ctx x = false →
      BecomesWith (.bulkRequest id) s c (at_ (.atTarget x)) dv) ∧
    (∀ f dv, ready → s.dev.translate p t.ctx a.va a.kind.writes = (.error f, dv) → s.dev.ctxValid t.ctx = true →
      s.dev.recordWaits p t.ctx = false → s.atPort p < 8192 → (dv.port p).retry.length < 1024 →
      ∃ dv', BecomesWith (.bulkRequest id) s c (t.setAcc { a with
        stage := .parked p (freeIdx (dv.port p).retry) (((dv.port p).seqn + 1) % 2 ^ 32) f.cause, notice := true }) dv') ∧
    (a.stage = .atTarget x → a.kind.writes = false → s.dev.Opens t.ctx x m →
      BecomesWith (.bulkPerform id) s c (at_ (.answered none ((line.drop (x.pa % 64)).take a.len) (some line))) s.dev) ∧
    (a.stage = .atTarget x → a.kind.writes = true → s.dev.Opens t.ctx x m → x.pa % 64 + a.data.length ≤ 64 →
      ∃ dv', BecomesWith (.bulkPerform id) s c (at_ (.answered none [] none)) dv' ∧
        (∀ k y, a.data[k]? = some y → dv'.hbm.read (x.pa + k) = y) ∧
        (∀ b, b < x.pa ∨ x.pa + a.data.length ≤ b → dv'.hbm.read b = s.dev.hbm.read b) ∧
        dv'.sealOf (x.pa / 64 * 64) = some m) ∧
    (a.stage = .atTarget x → a.kind.writes = true → x.tgt = 0 → x.reps ≠ [] → x.key ≠ 0 → s.dev.keyFor t.ctx x.key = some m →
      s.dev.awaits x = false → (∀ r ∈ x.replicas, s.dev.locked r = false ∧ s.dev.portGone (stackOf r) = false) →
      x.pa % 64 + a.data.length ≤ 64 → Memory.wf s.dev.hbm = true →
      ∃ dv', BecomesWith (.replicaCommit id) s c (at_ (.answered none [] none)) dv' ∧
        ∀ r ∈ x.replicas, ∀ k y, a.data[k]? = some y → dv'.hbm.read (r + k) = y) ∧
    (a.stage = .atTarget x → a.kind.writes = false → s.dev.awaits x = false → s.dev.readLocked p x = true →
      BecomesWith (.bulkPerform id) s c (at_ (.locked x s.dev.now)) s.dev) ∧
    (∀ n, a.stage = .locked x n → s.dev.Opens t.ctx x m →
      BecomesWith (.lockedReadResume id) s c (at_ (.answered none ((line.drop (x.pa % 64)).take a.len) (some line))) s.dev) ∧
    (∀ n, a.stage = .locked x n → n + 2 ≤ s.dev.now → evSeq id < 2 ^ 32 - 8 →
      BecomesWith (.lockedReadTimeout id) s c (at_ (.answered (some .bxlocktmo) [] none)) s.dev) ∧
    (∀ port, exec (.homeLockRelease port) s =
      .next (s.withDev fun dv => { dv with locks := dv.locks.filter (·.home != port) }))

/-- How a bulk access ends (R74, R75, R77, R318): a host that does not answer, or does not accept, and a link that drops fail
it; a retry word releases a parked access to be translated again, or fails it; PORTW gives it its data; an answer writes the
registers of a load and frees the tag, or leaves the tag faulted and raises the cause. -/
def Obligations.BulkAccessEnds : Prop :=
  ∀ (s : State) (id : Nat) (t : Tile) (a : BulkAcc) (x : Xlat), s.HasAcc id t a → t.pair = none → t.accs = [a] →
    t.guards = [] → t.inj.armed = 0 →
    let c := evCoord id
    let at_ (st : AccStage) : Tile := t.setAcc { a with stage := st }
    (a.stage = .atTarget x → x.tgt = 1 → a.kind.writes = false → evSeq id < 2 ^ 32 - 8 →
      ∃ dv', BecomesWith (.hostTimeout id) s c (at_ (.answered (some .bxhost) [] none)) dv' ∧ dv'.hbm = s.dev.hbm ∧
        dv'.hosts = s.dev.hosts) ∧
    (a.stage = .atTarget x → x.tgt = 1 → s.dev.hostUp x.hport = true → evSeq id < 2 ^ 32 - 8 →
      BecomesWith (.requestAcceptTimeout id) s c (at_ (.answered (some .bxfull) [] none)) s.dev) ∧
    (∀ n, a.stage = .atTarget x → x.tgt = 1 → x.hport = n → n < 4 → s.core = t → s.others = [] →
      ∃ u, exec (.externalLinkDrop (.hostPort n)) s = .next u ∧ u.core = at_ (.answered (some .bxhost) [] none) ∧
        u.dev.hostUp n = false) ∧
    (∀ port e cz, e.idx < 1024 → e.seqn < 2 ^ 32 → e.who = c → e.acc = a.seq → e.copy = none → port < 40 →
      s.dev.ports[port]? = some ⟨(s.dev.port port).seqn, [e]⟩ → a.stage = .parked port e.idx e.seqn cz →
      (∀ co data, .portw co a.seq data ∉ t.out) →
      let w (fail : Bool) : DWord := BitVec.ofNat 64 (e.idx + 1024 * b2n fail + 2 ^ 32 * e.seqn)
      let dv := s.dev.setPort port ⟨(s.dev.port port).seqn, []⟩
      exec (.retryReplay port (w false)) s = .next ((({ s with dev := dv }).setTile (at_ .inTile)).bulkRequest id) ∧
        BecomesWith (.retryAbort port (w true)) s c (at_ (.answered (some cz) (valBytes 4 e.seqn) none)) dv) ∧
    (∀ p i q cz co data, a.stage = .parked p i q cz → t.out = [.portw co (evSeq id) data] →
      BecomesWith (.portwAtPort id) s c { at_ (.answered none (data.take a.len) none) with out := [] } (s.dev.unpark p i q)) ∧
    (∀ data l, a.stage = .answered none data l → a.kind = .bldw ∨ a.kind = .bldd → t.blocks = [] →
      ∃ v, BecomesWith (.bulkResponse id) s c v s.dev ∧ v.accs = [] ∧ (a.tag ≠ 0#3 → v.tagSt a.tag.toNat = .free) ∧
        v.files = t.files.putAll (t.surviving (((upTo a.dest.length).zip a.dest).map fun y =>
          .s y.2 (BitVec.ofNat 32 (bytesVal ((data.drop (4 * y.1)).take 4))))) ∧ v.pad.mem = t.pad.mem ∧ v.ctl = t.ctl) ∧
    (∀ data l, a.stage = .answered none data l → a.kind = .bstw ∨ a.kind = .bstd →
      ∃ v, BecomesWith (.bulkResponse id) s c v s.dev ∧ v.accs = [] ∧ (a.tag ≠ 0#3 → v.tagSt a.tag.toNat = .free) ∧
        v.files = t.files ∧ v.pad = t.pad ∧ v.ctl = t.ctl) ∧
    (∀ cz data l, a.stage = .answered (some cz) data l → a.kind ≠ .spill → a.kind ≠ .fill → a.noticed = false →
      t.sch.tm = false → t.sch.pend.length < 32 →
      ∃ v, BecomesWith (.bulkResponse id) s c v s.dev ∧ v.accs = [] ∧ (a.tag ≠ 0#3 → v.tagSt a.tag.toNat = .faulted) ∧
        v.Pends cz (BitVec.ofNat 64 a.va) (BitVec.ofNat 64 (bytesVal data)) ∧ v.files = t.files ∧ v.pad = t.pad) ∧
    (∀ (ctx : BitVec 8) h d, d = s.dev.desc ctx.toNat → s.dev.faults = [h] → h.ctx = ctx.toNat →
      (bitsOf d 208 32 + 2 ^ 32 - bitsOf d 240 32) % 2 ^ 32 ≠ 2 ^ (bitsOf d 192 4 + 6) → bitOf d 196 = false →
      let dv := { s.dev with faults := [] }
      exec (.faultRecordRelease ctx) s = .next { s with
        dev := (dv.putPhys (bitsOf d 128 64 + 64 * (bitsOf d 208 32 % 2 ^ (bitsOf d 192 4 + 6))) 64 h.bits).putPhys
          (s.dev.descAt ctx.toNat + 26) 4 ((bitsOf d 208 32 + 1) % 2 ^ 32) })

/-- Guards at home and at the tile (R114 to R120): a free guard is granted in the mode asked, one that is not queues the
request, which fails with GUARDTMO at its deadline; a release departs once its accesses are performed, and clears what its
grant had set; the answer to an ACQ frees the tag, completes the hold and empties the read buffer, or leaves the tag faulted,
removes the hold and raises its cause; the Hearth ends a failed node's hold with ERR set. -/
def Obligations.GuardSteps : Prop :=
  ∀ (s : State) (id : Nat) (t : Tile) (g : GuardReq) (x : Xlat) (o : Nat), s.HasGuard id t g →
    let c := evCoord id
    let w : Who := ⟨t.ctx, t.ctl.nodeid.toNat, c⟩
    let at_ (st : GuardStage) : Tile := t.setGuard { g with stage := st }
    let unowned (q : Nat) : Prop := bitsOf q 148 28 = 0 ∧ bitsOf q 192 32 = 0
    (∀ m, g.stage = .sent x → s.dev.Opens t.ctx x m → s.dev.readGuard t.ctx x = .ok o → s.dev.waits = [] →
      (g.rel = false → guardBad o = false →
        (bitsOf o 0 2 = 0 → ∃ dv' o', BecomesWith (.acqAtHome id) s c (at_ (.answered none (some x))) dv' ∧ dv'.waits = [] ∧
          dv'.readGuard t.ctx x = .ok o' ∧ (g.shared = true → bitsOf o' 0 2 = 2 ∧ bitsOf o' 224 32 = 1 ∧ unowned o') ∧
          (g.shared = false → bitsOf o' 0 2 = 1 ∧ bitsOf o' 224 32 = 0 ∧ guardOwned o' w = true)) ∧
        (bitsOf o 0 2 = 2 → g.shared = true → ∃ dv' o', BecomesWith (.acqAtHome id) s c (at_ (.answered none (some x))) dv' ∧
          dv'.readGuard t.ctx x = .ok o' ∧ bitsOf o' 0 2 = 2 ∧ bitsOf o' 224 32 = (bitsOf o 224 32 + 1) % 2 ^ 32) ∧
        (bitsOf o 0 2 ≠ 0 → (g.shared = true → bitsOf o 0 2 = 1) →
          BecomesWith (.acqAtHome id) s c (at_ (.queued x)) { s.dev with
            waits := [⟨x.pa / 64 * 64, c, g.seq, g.shared, t.ctx, t.ctl.nodeid.toNat,
              if bitsOf o 176 16 = 0 then none else some (s.dev.now + bitsOf o 176 16)⟩] })) ∧
      (g.rel = true →
        (g.shared = false → bitsOf o 0 2 = 1 → guardOwned o w = true →
          ∃ dv' o', BecomesWith (.relAtHome id) s c (at_ (.answered none none)) dv' ∧ dv'.readGuard t.ctx x = .ok o' ∧
            bitsOf o' 0 2 = 0 ∧ unowned o' ∧ bitsOf o' 256 64 = (bitsOf o 256 64 + 1) % 2 ^ 64) ∧
        (g.shared = true → bitsOf o 0 2 = 2 → bitsOf o 224 32 ≠ 0 →
          ∃ dv' o', BecomesWith (.relAtHome id) s c (at_ (.answered none none)) dv' ∧ dv'.readGuard t.ctx x = .ok o' ∧
            bitsOf o' 0 2 = (if bitsOf o 224 32 = 1 then 0 else 2) ∧ bitsOf o' 224 32 = bitsOf o 224 32 - 1))) ∧
    (∀ q d, g.stage = .queued x → s.dev.waits = [q] → q.who = c → q.seq = g.seq → q.deadline = some d → d ≤ s.dev.now →
      BecomesWith (.guardWaitTimeout id) s c (at_ (.answered (some .guardtmo) none)) { s.dev with waits := [] }) ∧
    (g.rel = true → g.stage = .inTile → g.pa = some x → t.accs = [] → t.pad.queue = [] → (∀ k, k < 8 → (t.copyCh k).jobs = []) →
      s.atPort (stackOf x.pa) < 8192 → BecomesWith (.relDepart id) s c (at_ (.sent x)) s.dev) ∧
    (g.stage = .answered none (some x) → g.rel = false → t.guards = [g] →
      ∃ v, BecomesWith (.guardResponse id) s c v s.dev ∧ v.guards = [] ∧ (g.tag ≠ 0#3 → v.tagSt g.tag.toNat = .free) ∧
        v.pad.buf = [] ∧ v.holds = t.holds.map (fun h => if h.va = g.va then { h with pa := some x } else h) ∧
        v.files = t.files ∧ v.pad.mem = t.pad.mem) ∧
    (∀ cz, g.stage = .answered (some cz) none → g.rel = false → t.guards = [g] → g.noticed = false → t.sch.tm = false →
      t.sch.pend.length < 32 →
      ∃ v, BecomesWith (.guardResponse id) s c v s.dev ∧ v.guards = [] ∧ (g.tag ≠ 0#3 → v.tagSt g.tag.toNat = .faulted) ∧
        v.holds = t.holds.filter (·.va != g.va) ∧ v.Pends cz (BitVec.ofNat 64 g.va) 0#64 ∧ v.files = t.files ∧ v.pad = t.pad) ∧
    (∀ n m h, s.dev.nodes = [n] → n.st = .failed → n.image = [] → s.core = t → s.others = [] → n.covers c = true → t.sch.status = .halted →
      t.accs = [] → t.guards = [g] → g.rel = false → t.sends = [] → t.out = [] → (∀ k, k < 8 → (t.copyCh k).jobs = []) →
      t.holds = [h] → h.shared = false → h.pa = some x → s.dev.Opens t.ctx x m → s.dev.waits = [] →
      s.dev.readGuard t.ctx x = .ok o → bitsOf o 0 2 = 1 → guardOwned o w = true →
      ∃ u o', exec (.hearthGuardRelease n.id) s = .next u ∧ u.tileAt c = none ∧ u.dev.readGuard t.ctx x = .ok o' ∧
        bitsOf o' 0 2 = 0 ∧ bitOf o' 2 = true ∧ unowned o')

/-- The packets of a submission queue (R68, R350, R353 to R355, R376, Table 17-5): what each does when it starts. A packet
that completes leaves the queue; one that faults also halts it. QBROKEN (R361, R362, R367) is counted, and a queue that is rebuilt
goes back to RDPUB at least; that what has started stays in the table, and that what does not stay is taken again, is the model's own
reading (entry 72, DEDUCED). -/
def Obligations.PacketSteps : Prop :=
  ∀ (s : State) (x : Queue) (p : Packet) (dv : Device),
    let q := x.q
    let done (dv : Device) : State := { s with dev := { dv with queues := [{ x with packets := [] }] } }
    let field (lo len : Nat) : Nat := bitsOf p.bits lo len
    let ctxs := pktContexts p.bits
    let clear (t : Tile) : Tile := if ctxs.elem t.ctx then t.withPad fun y => { y with buf := [] } else t
    (s.Submits x p 0 → exec (.nopPacket q) s = .next (done s.dev)) ∧
    (s.Submits x p 1 → ∀ g d', s.dev.ctxValid x.ctx = true → s.dev.readGraph x.ctx (field 64 64) (field 128 12 + 1) = (.ok g, dv) →
      dv.writeStatus ⟨0, q, x.ctx, field 140 20, some (field 160 64), 0, 0, 0, 0xFFFF, false, none⟩ 0 = (none, d') →
      d'.queues = [x] → d'.nodes = s.dev.nodes → g.2.length = g.1.length →
      ∃ u, exec (.launch q) s = .next u ∧ u.dev.nodes.length = s.dev.nodes.length + g.1.length ∧
        (∀ i b, g.1[i]? = some b → ∃ n, u.dev.nodes[s.dev.nodes.length + i]? = some n ∧ n.bits = b ∧ n.index = i ∧
          n.left = bitsOf b 424 12 ∧ n.st = (if n.left = 0 then .ready else .waiting)) ∧ u.core = s.core ∧ u.others = s.others) ∧
    (s.Submits x p 2 → p.calls.length < 4 → exec (.ibcall q) s = .next { s with dev := { s.dev with
      queues := [{ x with packets := [{ p with started := true, rest := (field 64 64, field 128 16 + 1) }] }] } }) ∧
    (s.Submits x p 3 → s.dev.hWrite x.ctx (field 64 64) (valBytes 8 (field 128 64)) = (none, dv) → dv.queues = [x] →
      exec (.signal q) s = .next (done dv)) ∧
    (∀ c, s.Submits x p 3 → s.dev.hWrite x.ctx (field 64 64) (valBytes 8 (field 128 64)) = (some c, dv) → dv.queues = [x] →
      ∃ u, exec (.signal q) s = .next u ∧ (u.dev.queue q).state = 3 ∧ (u.dev.queue q).packets = [] ∧ u.core = s.core) ∧
    (∀ bytes, s.dev.queues = [x] → x.packets = [p] → p.started = true → p.done = false → pktType p.bits = 4 →
      bitOf p.bits 3 = false → x.state = 2 → s.dev.hRead x.ctx (field 64 64) 8 = (.ok bytes, dv) → dv.queues = [x] →
      if waitMet (field 192 2) (bytesVal bytes) (field 128 64) = true then
        ∃ u, exec (.waitv q) s = .next u ∧ (u.dev.queue q).state = 1 ∧ (u.dev.queue q).packets = [] ∧ u.core = s.core
      else exec (.waitv q) s = .next { s with dev := dv }) ∧
    (s.Submits x p 5 → Device.copyLines x.ctx (field 192 32 / 64) (field 64 64) (field 128 64) s.dev = (none, dv) →
      dv.queues = [x] → exec (.copy q) s = .next (done dv)) ∧
    (∀ n sl, s.Submits x p 7 → s.dev.nodes = [n] → n.st = .running → s.dev.migrations = [] → (s.dev.graphOf n).ctx = field 128 8 → bitOf p.bits 136 = false →
      n.preempt = true → s.dev.takeSlots n = (some sl, dv) → dv = s.dev.draw →
      ∃ u, exec (.preemptPacket q) s = .next u ∧ u.core = s.core ∧ u.dev.nodes = [{ n with
        slots := some sl, stoppedRegions := [], held := true, st := .stopping, stopDue := false }]) ∧
    (∀ n, s.Submits x p 8 → s.dev.nodes = [n] → n.held = true → n.st = .saved → (s.dev.graphOf n).ctx = field 128 8 →
      bitOf p.bits 136 = false → exec (.resume q) s = .next (done { s.dev with
        nodes := [{ n with held := false, st := .ready, agedAt := s.dev.now }] })) ∧
    (∀ c y r, s.Submits x p 9 → pktRect p.bits = some ⟨c.row, c.row, c.col, c.col⟩ → coordOk c = true → s.dev.absent c = false →
      s.dev.posOf c = some y → s.dev.regions[y.region]? = some r →
      ∃ u, exec (.lichen q) s = .next u ∧ u.core = s.core ∧
        u.dev.regions[y.region]? = some { r with wanted := r.wanted ++ [(y, p.uid)] }) ∧
    (s.Submits x p 10 → (∀ t ∈ s.core :: s.others, t.accs = [] ∧ t.guards = [] ∧ t.lockKeys = []) → exec (.mapsync q) s = .next { done s.dev with
      core := clear s.core, others := s.others.map clear,
      dev := { s.dev with queues := [{ x with packets := [] }], cache := s.dev.cache.filter fun c => !ctxs.elem c.ctx } }) ∧
    (s.dev.queues = [x] → ∃ u, exec (.qbroken q) s = .next u ∧ u.core = s.core ∧ u.others = s.others ∧
      (∀ r, s.dev.regions[s.dev.server q]? = some r →
        (u.dev.regions[s.dev.server q]?).map (·.uecnt) = some ((r.uecnt + 1) % 2 ^ 32)) ∧
      ((u.dev.queue q).state = 3 ∨ ∃ c, s.dev.checkOf q = some c ∧ (u.dev.queue q).rd ≤ x.rdpub ∧
        (∀ y ∈ x.packets, y.started = true → ∃ z ∈ (u.dev.queue q).packets, z.uid = y.uid ∧ z.started = true) ∧
        (∀ z ∈ (u.dev.queue q).packets, ∃ y ∈ x.packets, y.uid = z.uid ∧ y.bits = z.bits ∧
          (y.started = true ∨ ((∃ k ∈ c.packets, k.uid = y.uid) ∧ ∀ i, y.ix = some i → i < x.rdpub))) ∧
        (∀ y ∈ x.packets, y.started = false → (¬ (∃ k ∈ c.packets, k.uid = y.uid) ∨ ∃ i, y.ix = some i ∧ x.rdpub ≤ i) →
          ∀ i, y.ix = some i → (u.dev.queue q).rd ≤ i)))

/-- The life of a node on one tile (R134 to R139, R335): launch, from a record that stands as it was taken, loads its images,
arguments and entry and the start multicast lets it run; once its task has ended and nothing of it is under way it completes,
its dependant is counted and its tile is free; a failing node's tile stops, its graph counts it, and ends where no record of
its context waits. A record held behind a full ring is written after RINGLOST. -/
def Obligations.NodeSteps : Prop :=
  (∀ (s : State) (n : Node) (c : Coord) (pos : Pos) (im : Images) (ctl : Ctl) (dv d0 : Device) (bytes : List Byte),
    s.dev.nodes = [n] →
    n.st = .claimed → n.image = [] → n.coords = [c] → n.place = ⟨c.row, c.row, c.col, c.col⟩ → n.shadow = none →
    s.core.sch.status = .idle → s.others = [] → s.dev.placesOk n = true →
    s.dev.hRead (s.dev.graphOf n).ctx n.va 128 = (.ok bytes, d0) → bytesVal bytes = n.bits → d0.nodes = [n] → recRefusal n = none →
    d0.readImages (s.dev.graphOf n).ctx n = (.ok im, dv) → dv.judge (s.dev.graphOf n) n im = .ok ctl → dv.nodes = [n] →
    dv.posOf c = some pos → n.field 396 14 * 16 + im.data.length ≤ 0x2F000 →
    ∃ u v, exec (.launchNode n.id) s = .next u ∧ u.dev.nodes = [{ n with st := .loading }] ∧ u.tileAt c = some v ∧
      v.sch.status = .loaded ∧ v.sch.pc = BitVec.ofNat 32 (4 * n.field 371 12) ∧ v.pos = pos ∧
      (∀ k, k < 8 → v.files.s[k + 1]? = some (n.arg (k + 1))) ∧ v.files.a[15]? = some (BitVec.ofNat 32 (16 * n.field 357 14)) ∧
      (∀ k b, im.code[k]? = some b → v.pad.code.read k = b) ∧
      (∀ k b, im.data[k]? = some b → v.pad.mem.read (16 * n.field 396 14 + k) = b) ∧
      v.ctl.nodeid = nodeidOf (s.dev.graphOf n) n ∧ v.ctl.ctxid = BitVec.ofNat 32 (s.dev.graphOf n).ctx ∧
      v.ctl.fmt = ctl.fmt ∧ (∀ k, k < 32 → (v.outCh k).entry = im.route_ 0 k)) ∧
  (∀ (s : State) (n : Node), s.dev.nodes = [n] → n.st = .loading → s.dev.migrations = [] → n.stopDue = false →
    exec (.startMulticast n.id) s = .next (s.withDev fun dv => { dv with nodes := [{ n with st := .running }] })) ∧
  (∀ (s : State) (c : Coord) (n : Node) (t : Tile), s.dev.nodeAt c = some n → n.st = .running → s.tileAt c = some t → t.recs = [] →
    t.sch.status = .loaded →
    Becomes (.tileStart c) s c (t.withSch fun x => { x with status := .running })) ∧
  (∀ (s : State) (n m : Node) (t : Tile) (g : Graph), s.dev.nodes = [n, m] → s.core = t → s.others = [] → n.coords = [t.coord] →
    n.covers t.coord = true → s.dev.queues = [] → s.dev.loops = [] → n.st = .running → t.sch.status = .ended → t.accs = [] →
    t.pad.queue = [] → (∀ k, k < 8 → (t.copyCh k).jobs = []) → t.holds = [] → t.out = [] → t.sends = [] → t.pair = none →
    s.dev.net = [] → s.dev.graphs = [g] →
    g.id = n.graph → m.graph = n.graph → m.id ≠ n.id → m.st = .waiting → m.left = 1 → n.succ = [m.index] → n.index ≠ m.index →
    ∃ u n' m', exec (.nodeComplete n.id) s = .next u ∧ u.tileAt t.coord = none ∧ u.dev.nodes = [n', m'] ∧ n'.st = .complete ∧
      m'.st = .ready ∧ m'.left = 0 ∧ u.dev.graphs = [{ g with ndone := g.ndone + 1 }]) ∧
  (∀ (s : State) (n : Node) (t : Tile) (g : Graph), s.OneNode n t → n.st = .running → t.sch.status = .running →
    s.dev.graphs = [g] → g.id = n.graph → g.ended = false → t.guards = [] → t.sends = [] →
    (s.dev.ringOf g.ctx).held = [] → ∃ u n' g', exec (.nodeFail n.id) s = .next u ∧ u.dev.nodes = [n'] ∧ n'.st = .failed ∧ u.core.sch.status = .halted ∧
      u.core.files = t.files ∧ u.core.holds = t.holds ∧ u.core.guards = [] ∧ u.core.out = t.out.filter (fun m => match m with
        | .portw _ _ _ => false
        | _ => true) ∧ u.dev.graphs = [g'] ∧
      g'.nfail = g.nfail + 1 ∧ g'.ended = true ∧ (g.nfail = 0 → g'.fcause = n.cause - 1 ∧ g'.fnode = n.index)) ∧
  (∀ (s : State) (ctx : BitVec 8) (r : TrapRec), (s.dev.ringOf ctx.toNat).held = [r] → trapFull (s.dev.desc ctx.toNat) = false →
    (∀ g ∈ s.dev.graphs, g.ended = true ∨ g.ctx ≠ ctx.toNat) →
    exec (.trapRecordRelease ctx) s = .next (s.withDev fun dv =>
      ((dv.setRing { dv.ringOf ctx.toNat with held := [] }).putTrap
        (recordOf ctx.toNat 10 .ringlost false 0 0 0 1#64)).report r))

/-- Pre-emption, restore and migration (R20 to R24, R337 to R341): a tile told to stop that has no release under way keeps what
it holds; each unit
acknowledges once, and with the last the region has stopped; the images are saved and the placement becomes free; a restore
brings registers, memory and pc back. A quarantined tile's row takes a spare; the map swaps the two positions. -/
def Obligations.PreemptionSteps : Prop :=
  (∀ (s : State) (c : Coord) (n : Node) (t : Tile), s.dev.nodeAt c = some n → n.st = .stopping → s.dev.migrations = [] →
    s.tileAt c = some t → t.recs = [] → t.sch.status = .running → t.sch.pend = [] → s.bundle = none →
    (∀ g ∈ t.guards, g.rel = false) →
    (∃ v, BecomesWith (.preemptStop c) s c v (s.dev.forget c) ∧ v.pad.buf = [] ∧
      (t.pad.queue = [] → t.sch.flights = [] → t.sch.vops = [] → t.lists = [] → t.sends = [] →
        v.sch.status = .stopped ∧ v.files = t.files ∧ v.pad.mem = t.pad.mem ∧ v.sch.pc = t.sch.pc ∧ v.ctl = t.ctl))) ∧
  (∀ (s : State) (n : Node) (t : Tile) (u : TUnit), s.OneNode n t → n.st = .stopping → t.sch.status = .stopped → u ∉ t.acks →
    t.unitStopped s.dev u = true →
    (t.acks.length < 7 → BecomesWith (.stopAck t.coord u) s t.coord { t with acks := t.acks ++ [u] } s.dev) ∧
    (t.acks.length = 7 → n.stoppedRegions = [] →
      BecomesWith (.stopAck t.coord u) s t.coord { t with acks := t.acks ++ [u] }
        { s.dev with nodes := [{ n with stoppedRegions := [regionOf t.coord] }] })) ∧
  (∀ (s : State) (n : Node) (t : Tile) (sl : Nat × Nat) (dv : Device), s.OneNode n t → n.st = .stopping →
    t.sch.status = .stopped → n.stoppedRegions = [regionOf t.coord] → n.slots = some sl → s.dev.writeSlots n sl = some dv →
    ∃ u n' im, exec (.savePhase n.id) s = .next u ∧ u.dev.nodes = [n'] ∧ n'.st = .saving ∧ n'.image = [im] ∧ n'.home = n.place ∧
      im.files = t.files ∧ im.pad = t.pad ∧ im.ctl = t.ctl ∧ im.sch = t.sch ∧ im.eng = t.eng) ∧
  (∀ (s : State) (n : Node) (t : Tile), s.OneNode n t → n.st = .saving →
    ∃ u n', exec (.preemptComplete n.id) s = .next u ∧ u.tileAt t.coord = none ∧ u.dev.nodes = [n'] ∧ n'.image = n.image ∧
      n'.st = (if n.held = true then .saved else .ready)) ∧
  (∀ (s : State) (n : Node) (im : Tile) (sl : Nat × Nat) (pos : Pos) (code : List Byte) (dv : Device), s.dev.nodes = [n] →
    n.st = .claimed → n.image = [im] → n.slots = some sl → s.core.sch.status = .idle → s.others = [] → n.shadow = none →
    n.homeShadow = none → n.home = ⟨im.coord.row, im.coord.row, im.coord.col, im.coord.col⟩ →
    n.place.rowhi = n.place.rowlo → n.place.colhi = n.place.collo → s.dev.placesOk n = true → s.dev.slotsGood n sl = true →
    s.dev.readImage (s.dev.graphOf n).ctx (n.field 704 64) (4 * n.field 383 13) = (.ok code, dv) → dv.nodes = [n] →
    im.holds = [] → im.pair = none → im.sch.flights = [] → n.kept = [] → im.sch.status = .stopped → dv.posOf ⟨n.place.rowlo, n.place.collo⟩ = some pos →
    ∃ u v, exec (.restore n.id) s = .next u ∧ u.tileAt ⟨n.place.rowlo, n.place.collo⟩ = some v ∧ v.files = im.files ∧
      v.pad.mem = im.pad.mem ∧ v.pad.full = im.pad.full ∧ v.sch = { im.sch with status := .loaded } ∧
      bitsOf v.ctl.coordrow.toNat 0 10 = n.place.rowlo % 1024 ∧ bitsOf v.ctl.coordcol.toNat 0 10 = n.place.collo % 1024 ∧
      v.ctl.rank = 0#32 ∧ v.ctl.fmt = im.ctl.fmt ∧ u.dev.nodes = [{ n with st := .loading, image := [], kept := [], slots := none }]) ∧
  (∀ (s : State) (c : Coord) (p : Pos) (r : Region), s.dev.posOf c = some p → s.dev.regions[p.region]? = some r → c ∉ r.holes →
    s.dev.migrations = [] → s.dev.nodeAt c = none →
    (∀ sp, nearestSpare p.pos (r.row p.prow).spares = some sp → let moved := s.dev.movedTiles p.region p.prow p.pos sp
      ∃ u, exec (.shiftMigration c) s = .next u ∧ u.dev.migrations =
        [⟨s.dev.nextId, p.region, p.prow, p.pos, sp, moved, true, s.dev.now, s.dev.movedNodes moved, false⟩] ∧
      (∃ r', u.dev.regions[p.region]? = some r' ∧ r'.quar = (r.quar + 1) % 2 ^ 16 ∧ r'.rows = r.rows) ∧ u.core = s.core) ∧
    ((r.row p.prow).spares = [] → ∃ u, exec (.shiftMigration c) s = .next u ∧ u.dev.migrations = [] ∧
      (∃ r', u.dev.regions[p.region]? = some r' ∧ r'.holes = r.holes ++ [c]) ∧ u.core = s.core)) ∧
  (∀ (s : State) (m : Migration) (r : Region) (x : RowRec), s.dev.migrations = [m] → m.started = true →
    s.dev.regions[m.region]? = some r → r.rows[m.prow]? = some x → s.dev.nodes = [] → s.others = [] →
    (∀ c ∈ m.moved, s.tileAt c = none) → m.fail ≠ m.spare →
    let swaps (i : Instr) : Prop := ∃ u r' y, exec i s = .next u ∧ u.dev.migrations = [] ∧ u.dev.regions[m.region]? = some r' ∧
      r'.rows[m.prow]? = some y ∧ r'.gen = (r.gen + 1) % 2 ^ 32 ∧ bitOf y.qmask m.fail = true ∧ bitOf y.posmap m.fail = false ∧
      bitOf y.posmap m.spare = true ∧ (∀ k, k ≠ m.fail → k ≠ m.spare → bitOf y.posmap k = bitOf x.posmap k) ∧ u.core = s.core
    swaps (.migrationRemap m.k) ∧ (m.since + 500 ≤ s.dev.now → swaps (.migrationTimeout m.k)))

/-- The Hearths and the reliability functions. A Hearth that runs ends a frame, and FRAME counts one more (R344); one that
stops has HSTATE 1, and its error is counted (R361, R367). At the end of a window RATE is the window's corrected errors and replays, at most 65,535, and the
threshold for the next window is PFTSET, an order of the step that the model has inferred (entry 17, DEDUCED); a RATE above a non-zero threshold asks for retirement where the window before was
above it too, or forces the nominal step below nominal voltage, and one not above it does neither (R371, R372). A replay of
a tile that has replayed fewer than 64 times costs it 2 cycles and counts in SHREPL (R370). A Lichen pass starts on
an idle tile and ends (R376). The one report that waits is written into the free slot the Hearth picks, whole where no
context is named (R380, R381). INJCTL of a present tile, written by a host or
by the Kiln, arms its injections, and reads back each of its fields (R374). A REFINE packet
whose block is well formed starts the loop with the factor graph, and a factor graph that has ended without a failed node is
followed by the solve graph (R363 to R365). -/
def Obligations.FrameSteps : Prop :=
  ∀ (s : State) (h : Nat) (r : Region), s.dev.regions[h]? = some r → h < 64 →
    (s.dev.runs h = true → ∃ u r', exec (.hearthFrame h) s = .next u ∧ u.dev.regions[h]? = some r' ∧ r'.frame = r.frame + 1) ∧
    (s.dev.runs h = true → (∃ k, k ≠ h ∧ k < 64 ∧ s.dev.runs k = true) → ∃ u, exec (.hearthStop h) s = .next u ∧
      u.dev.regions[h]? = some { r with hstate := 1, missed := 0, uecnt := (r.uecnt + 1) % 2 ^ 32 } ∧ u.core = s.core) ∧
    ((s.dev.readyOf h).ready = true → s.core.counts = [] → s.others = [] →
      let rate := Nat.min 65535 ((r.cecnt + r.shrepl + 2 ^ 34 - r.atWindow) % 2 ^ 32)
      let hot : Prop := r.pft ≠ 0 ∧ r.pft < rate
      ∃ u r', exec (.rasWindow h) s = .next u ∧ u.dev.regions[h]? = some r' ∧ r'.rate = rate ∧ r'.pft = r.pftset ∧
        (hot → r.under = false → r.above = true → r'.retire = true) ∧ (hot → r.under = true → r'.forcenom = true) ∧
        (¬hot → r'.retire = r.retire ∧ r'.above = false)) ∧
    (∀ c t, s.tileAt c = some t → t.recs = [] → regionOf c = h → t.health.replays.length < 64 → ∀ e,
      ∃ u v, exec (.shadowReplay c e) s = .next u ∧ u.tileAt c = some v ∧ v.sch.ready = Nat.max t.sch.ready t.sch.cycle + 2 ∧
        v.files = t.files ∧ v.pad = t.pad ∧ u.dev.regions[h]? = some { r with shrepl := (r.shrepl + 1) % 2 ^ 32 }) ∧
    (∀ c, (physPos c).region = h → s.dev.queues = [] →
      (s.idleAt (physPos c) = true → physPos c ∉ r.passes → ∃ u, exec (.lichenPassStart c) s = .next u ∧
        u.dev.regions[h]? = some { r with
          passes := r.passes ++ [physPos c], wanted := r.wanted.eraseP (·.1 == physPos c) } ∧ u.core = s.core) ∧
      (physPos c ∈ r.passes → ∃ u r', exec (.lichenPassEnd c) s = .next u ∧ u.dev.regions[h]? = some r' ∧
        physPos c ∉ r'.passes ∧ (∀ x ∈ r'.passes, x ∈ r.passes) ∧
        (∀ x ∈ r.passes, x ≠ physPos c → x ∈ r'.passes ∨ u.dev.chosenSpare x = true) ∧ u.core.files = s.core.files)) ∧
    (∀ e i, s.dev.exposures = [e] → e.region = h → s.dev.freeReport h = some i →
      ∃ u, exec (.exposureReportWrite h) s = .next u ∧ u.dev.exposures = [] ∧ u.core = s.core ∧
        (e.ctxs = [] → u.dev = { s.dev with exposures := [] }.putPhys (reportSlot h i) e.bytes.length (bytesVal e.bytes))) ∧
    (∀ req p (v : DWord) c t, req = .host p ∨ req = .kiln → c = ⟨bitsOf v.toNat 54 10, bitsOf v.toNat 44 10⟩ → coordOk c = true → regionOf c = h →
      s.dev.absent c = false → s.core = t → t.coord = c → bitOf v.toNat 31 = true →
      ∃ u, exec (.injctlWrite req h v) s = .next u ∧ u.core.inj.armed = 4 * bitsOf v.toNat 2 8 ∧
        u.core.pad.inj.armed = bitsOf v.toNat 0 2 ∧ u.core.inj.again = bitOf v.toNat 30 ∧ u.core.files = t.files ∧
        let x := u.dev.bar0Read p (0x30000 + 8 * h)
        bitsOf x.toNat 0 10 = bitsOf v.toNat 0 10 ∧ bitOf x.toNat 30 = bitOf v.toNat 30 ∧ bitOf x.toNat 31 = true ∧
          bitsOf x.toNat 44 10 = c.col ∧ bitsOf x.toNat 54 10 = c.row) ∧
    (∀ x p bytes d1 d2 d3 g, s.Submits x p 6 →
      (s.dev.startPacket x.q p.uid []).hRead x.ctx (bitsOf p.bits 64 64) 128 = (.ok bytes, d1) →
      blkBad (bytesVal bytes) = false → d1.normTreeBad x.ctx (bytesVal bytes) = (.ok false, d2) → d2.ctxValid x.ctx = true →
      d2.readGraph x.ctx (bitsOf (bytesVal bytes) 0 64) (bitsOf (bytesVal bytes) 256 12 + 1) = (.ok g, d3) →
      g.2.length = g.1.length → ∃ u l, exec (.refine x.q) s = .next u ∧ l ∈ u.dev.loops ∧ l.at_ = .fact ∧
        l.blk = bytesVal bytes ∧ l.lvl = 0 ∧ l.graph = d3.nextId ∧ u.dev.nodes.length = d3.nodes.length + g.1.length) ∧
    (∀ l g gg d1, s.dev.loops = [l] → s.dev.graphs = [g] → g.id = l.graph → g.ended = true → g.nfail = 0 → l.at_ = .fact → s.dev.ctxValid l.ctx = true →
      s.dev.readGraph l.ctx (bitsOf l.blk 64 64) (bitsOf l.blk 268 12 + 1) = (.ok gg, d1) → d1.loops = [l] →
      ∃ u, exec (.refineStep l.queue) s = .next u ∧ u.dev.loops = [{ l with graph := d1.nextId, at_ := .solv }] ∧
        u.core = s.core)

/-- Bring-up, reset and links (R12, R391, R392, R394 to R396, R401): verified firmware brings every function into bring-up; a
port or region comes up or is marked failed, a good region with 125 used rows; links train and become secure, or the refusal
is counted; a port reset, a device reset and a region reset leave what the spec says; that a port reset abandons the port's
commands is the model's reading (entry 80). That a stack which has come up reads as zero throughout is the model's own choice
(entry 5, DESIGN CHOICE), and that a device reset keeps bulk and host memory its reading (entry 19, DEDUCED). -/
def Obligations.BootSteps : Prop :=
  ∀ (s : State) (n : Nat), s.dev.ready.length = 140 → s.dev.regions.length = 64 →
    let dv := s.dev
    let rec_ (u : State) (k : Nat) : Ready := u.dev.readyOf k
    let upOrBad (u : State) (k : Nat) : Prop := (rec_ u k).busy = false ∧ ((rec_ u k).ready = true ∨ (rec_ u k).failed = true)
    (dv.power.on = false → dv.kiln.boot.ecdsa = true → dv.kiln.boot.lms = true → dv.kiln.boot.imageOk = true →
      dv.kiln.rollback ≤ dv.kiln.boot.svn →
      ∃ u, exec .bringUp s = .next u ∧ u.dev.power.on = true ∧ 48000 ≤ u.dev.power.mv ∧ u.dev.power.mv ≤ 58000 ∧
        u.dev.kiln.firmwareOk = true ∧ u.dev.kiln.svn = dv.kiln.boot.svn ∧ (∀ k, k < 140 → (rec_ u k).busy = true) ∧
        (∀ k, k < 64 → .regionBringUp k ∈ u.agenda) ∧ u.dev.hbm = dv.hbm) ∧
    (n < 40 → dv.comesUp (64 + n) = true → ∃ u, exec (.fluePortBringUp n) s = .next u ∧ upOrBad u (64 + n) ∧ u.core = s.core ∧
      ((rec_ u (64 + n)).ready = true → ∀ a, a / 2 ^ 36 = n → u.dev.hbm.read a = 0#8)) ∧
    (n < 64 → dv.comesUp n = true → (dv.region n).tested = false → ∃ u, exec (.regionBringUp n) s = .next u ∧ u.core = s.core ∧
      ((rec_ u n).failed = true ∨ ((u.dev.region n).tested = true ∧ u.agenda = s.agenda ++ [.mapBuild n]))) ∧
    (n < 64 → dv.comesUp n = true → (dv.region n).tested = true → (dv.region n).defects = [] → (dv.region n).bypassBad = [] →
      ∃ u, exec (.mapBuild n) s = .next u ∧ (rec_ u n).ready = true ∧ (rec_ u n).kstate % 4 = 1 ∧ (u.dev.region n).gen = 1 ∧
        (∀ i, i < 125 → ((u.dev.region n).row i).state = 1 ∧ ((u.dev.region n).row i).lrow = i) ∧
        (∀ i, 125 ≤ i → i < 128 → ((u.dev.region n).row i).state = 2)) ∧
    (n < 4 → dv.comesUp (104 + n) = true →
      ∃ u, exec (.hostLinkUp n) s = .next u ∧ (rec_ u (104 + n)).ready = true ∧ (rec_ u (104 + n)).busy = false) ∧
    (n < 32 → dv.comesUp (108 + n) = true → ∃ u, exec (.opticalPortReady n) s = .next u ∧ upOrBad u (108 + n)) ∧
    (n < 32 → (dv.readyOf (108 + n)).ready = true → dv.bar0.waferid ≠ 0 → (dv.readyOf (108 + n)).kstate = 0 →
      ∃ u, exec (.opticalLinkTrain n) s = .next u ∧ (rec_ u (108 + n)).kstate = 1) ∧
    (∀ x, n < 32 → (dv.readyOf (108 + n)).kstate = 1 → ∃ u, exec (.opticalAttestExchange n x) s = .next u ∧
      ((rec_ u (108 + n)).kstate = 1 ∧ u.dev.bar0.seccnt = (dv.bar0.seccnt + 1) % 2 ^ 64 ∨
        (rec_ u (108 + n)).kstate = 3 ∧ (rec_ u (108 + n)).peer = x.wafer % 256 ∧ dv.acceptsPeer x = true)) ∧
    (n < 4 → s.core.accs = [] → s.others = [] → ∃ u, exec (.hostPortReset n) s = .next u ∧ u.dev.hostUp n = false ∧
      u.dev.box n = Mailbox.zero ∧ u.core = s.core ∧ (∀ x ∈ u.dev.kiln.pending, x.1 ≠ n) ∧
      (∀ k, k ≠ n → (∀ x ∈ dv.kiln.pending, x.1 = k → 1 ≤ x.2 ∧ x.2 ≤ 7) → u.dev.box k = dv.box k)) ∧
    (∀ v : DWord, (dv.rstok n = false → exec (.devrst (.host n) v) s = .next (s.withDev fun d =>
        { d with bar0 := { d.bar0 with seccnt := (d.bar0.seccnt + 1) % 2 ^ 64 } })) ∧
      (dv.rstok n = true → v.setWidth 32 = 0x5EED#32 → ∃ u, exec (.devrst (.host n) v) s = .next u ∧ u.agenda = [.bringUp] ∧
        u.others = [] ∧ (∀ c, u.tileAt c = none) ∧ u.dev.kiln.keys = [] ∧ u.dev.nodes = [] ∧ u.dev.queues = [] ∧
        u.dev.ready = List.replicate 140 Ready.zero ∧ u.dev.hbm = dv.hbm ∧ u.dev.hosts = dv.hosts)) ∧
    (∀ v : DWord, bitOf v.toNat 8 = true → let r := bitsOf v.toNat 0 6
      (dv.regionBusy r = true → ∃ u, exec (.rreset (.host n) v) s = .next u ∧
        u.dev.bar0.seccnt = (dv.bar0.seccnt + 1) % 2 ^ 64 ∧ u.dev.regions = dv.regions ∧ u.core = s.core) ∧
      (dv.regionBusy r = false → ∃ u, exec (.rreset (.host n) v) s = .next u ∧ rec_ u r = { Ready.zero with busy := true } ∧
        (u.dev.region r).holes = [] ∧ (u.dev.region r).retire = false ∧ (u.dev.region r).quar = 0 ∧
        (u.dev.region r).hstate = 0 ∧ u.agenda = s.agenda ++ [.regionBringUp r])) ∧
    (∀ v : DWord, (∀ p, p < 32 → (dv.readyOf (108 + p)).kstate % 2 = 0) → ∃ u, exec (.waferidWrite (.host n) v) s = .next u ∧
      u.dev.bar0 = { dv.bar0 with waferid := bitsOf v.toNat 0 8 } ∧ u.core = s.core)

/-- Registers and the aperture (R390, Table 21-1) and the Kiln's commands (R76, R397 to R400, R407): a command whose turn it
is does what Table 21-4 gives it and ends with its status, its requester told. What a KUNWRAP that fails ends with is free (entry 12,
DESIGN CHOICE). The model's own readings are that a KFWLOAD keeps bulk memory (entry 19, DEDUCED), that a refused one ends with
status 2, holds every function not ready and leaves the container to start from (entry 20, DEDUCED), and that CEIL is the low byte of
what is written (entry 25, DEDUCED). -/
def Obligations.KilnSteps : Prop :=
  ∀ (s : State) (p : Nat), p < 4 →
    let k := s.dev.kiln
    let l := s.dev.kreq p
    let slot := reqByte l 0
    let turn (code : Nat) : Prop := s.dev.kiln.pending = [(p, code)]
    let ends (u : State) (st : Nat) : Prop := (u.dev.box p).kstat = st ∧ u.dev.kiln.pending = [] ∧
      u.dev.bar0.seccnt = (if st = 0 then s.dev.bar0.seccnt else (s.dev.bar0.seccnt + 1) % 2 ^ 64) ∧ u.core = s.core
    (turn 1 → reqClean l [(0, 48)] = true → (k.leaf < 2 ^ 20 → ∃ u w, exec (.kattest p) s = .next u ∧ ends u 0 ∧
        u.dev.kiln.leaf = k.leaf + 1 ∧ w.length = 3021 ∧ (u.dev.box p).kresp = s.dev.attestBody (l.take 48) ++ w) ∧
      (2 ^ 20 ≤ k.leaf → ∃ u, exec (.kattest p) s = .next u ∧ ends u 5 ∧ (u.dev.box p).kresp = (s.dev.box p).kresp)) ∧
    (k.pending = [(4, 1)] → k.leaf < 2 ^ 20 → ∃ u w, exec .mgmtKattest s = .next u ∧ u.dev.mgmt.kstat = 0 ∧
      u.dev.kiln.leaf = k.leaf + 1 ∧ u.dev.mgmt.kresp = s.dev.attestBody (s.dev.mgmt.nonce.bytes 0 48) ++ w) ∧
    (turn 2 → reqClean l [(0, 2)] = true → slot ≠ 0 →
      ((∀ y ∈ k.keys, y.slot ≠ slot) → ∃ u, exec (.kgen p) s = .next u ∧ ends u 0 ∧
        u.dev.kiln.keys = k.keys ++ [⟨slot, reqByte l 1, k.material, false⟩] ∧ u.dev.kiln.material = k.material + 1) ∧
      ((∃ y ∈ k.keys, y.slot = slot) → ∃ u, exec (.kgen p) s = .next u ∧ ends u 4 ∧ u.dev.kiln.keys = k.keys)) ∧
    (turn 3 → reqClean l [(0, 2), (8, 105), (112, 216)] = true → slot ≠ 0 → (∀ y ∈ k.keys, y.slot ≠ slot) →
      ∃ u st, exec (.kunwrap p) s = .next u ∧ ends u st ∧ (st = 0 ∨ st = 1 ∨ st = 2) ∧
        (if st = 0 then ∃ m, u.dev.kiln.keys = k.keys ++ [⟨slot, reqByte l 1, m, false⟩] else u.dev.kiln.keys = k.keys)) ∧
    (turn 4 → reqClean l [(0, 1)] = true → slot ≠ 0 → (∃ y ∈ k.keys, y.slot = slot) →
      exec (.kunload p) s = .next (s.withDev fun dv => { dv with kiln := { k with keys := k.keys.map fun y =>
        if y.slot = slot then { y with unloading := true } else y } })) ∧
    (∀ y, turn 4 → k.keys = [y] → y.unloading = true → (∀ t ∈ s.core :: s.others, t.usesKey y.slot = false) →
      ∃ u, exec (.keySlotClear y.slot) s = .next u ∧ ends u 0 ∧ u.dev.kiln.keys = []) ∧
    (∀ bytes key dv, turn 5 → reqClean l [(0, 12)] = true →
      s.dev.barBytes (bytesVal (l.take 8)) (bytesVal ((l.drop 8).take 4)) = (some bytes, dv) → Config.enrolOf bytes = none →
      k.operator = some key → let v := Config.configVerdict key bytes
      (v.ecdsa = true → v.lms = true → ∃ u, exec (.kcfg p) s = .next u ∧ ends u 0 ∧
        u.dev.kiln.config = some (Config.configOf bytes)) ∧
      ((v.ecdsa && v.lms) = false → ∃ u, exec (.kcfg p) s = .next u ∧ (u.dev.box p).kstat = 2 ∧
        u.dev.kiln.config = k.config)) ∧
    (turn 6 → reqClean l [] = true → ∃ u, exec (.kcommit p) s = .next u ∧ ends u 0 ∧
      u.dev.kiln.rollback = Nat.max k.rollback k.svn) ∧
    (∀ b d dv, turn 7 → reqClean l [(0, 8)] = true → s.dev.barBytes (bytesVal (l.take 8)) 1 = (some b, dv) →
      direct (s.dev.bar0.apbase + bytesVal (l.take 8)) = some d → let v := Config.containerVerdict d dv.hbm
      (v.ecdsa = true → v.lms = true → v.imageOk = true → k.rollback ≤ v.svn → ∃ u, exec (.kfwload p) s = .next u ∧
        u.agenda = [.bringUp] ∧ u.dev.kiln.boot = v ∧ u.dev.kiln.keys = [] ∧ u.dev.hbm = dv.hbm) ∧
      ((v.ecdsa && v.lms && v.imageOk) = false → ∃ u, exec (.kfwload p) s = .next u ∧ (u.dev.box p).kstat = 2 ∧
        u.dev.kiln.boot = k.boot ∧ u.dev.kiln.firmwareOk = false ∧ (∀ n, n < 140 → (u.dev.readyOf n).ready = false) ∧
        u.core = s.core)) ∧
    (∀ v : DWord, s.dev.hostUp p = true →
      exec (.registerWrite (.host p) 0x08 v) s = .next (s.withDev fun dv => { dv with
        bar0 := { dv.bar0 with ctxbase := v.toNat / 2 ^ 15 * 2 ^ 15 } }) ∧
      exec (.registerWrite (.host p) 0x18 v) s = .next (s.withDev fun dv => { dv with
        bar0 := { dv.bar0 with apbase := v.toNat / 2 ^ 32 * 2 ^ 32 } }) ∧
      exec (.registerWrite (.host p) 0x20 v) s = .next (s.withDev fun dv => { dv with
        bar0 := { dv.bar0 with modcap := Nat.min v.toNat 8000 } }) ∧
      (∀ r x, r < 64 → s.dev.regions[r]? = some x → exec (.registerWrite (.host p) (0x40000 + 8 * r) v) s =
        .next (s.withDev fun dv => { dv with regions := dv.regions.set r { x with ceil := Nat.min (v.toNat % 256) 160 } }))) ∧
    (∀ a n, s.dev.hostUp p = true → s.dev.bar0.apbase % 2 ^ 32 = 0 →
      ((∀ i, i < n → ∃ d, a + i < 2 ^ 32 ∧ direct (s.dev.bar0.apbase + a + i) = some d ∧ inSysWin d = false ∧
          s.dev.portGone (stackOf d) = false ∧ s.dev.portUp (stackOf d) = true ∧ s.dev.sealOf (d / 64 * 64) = none ∧
          s.dev.bad.has (d / 64 * 64) = false ∧ s.dev.poison.has (d / 64 * 64) = false ∧ s.dev.soft.has (d / 64 * 64) = false) →
        ∃ u bs, exec (.bar2Access p a (.read n)) s = .next u ∧ u.dev = { s.dev with bar2 := some (bs, false) } ∧ bs.length = n ∧
          ∀ i d, i < n → direct (s.dev.bar0.apbase + a + i) = some d → bs[i]? = some (s.dev.hbm.read d)) ∧
      (2 ^ 32 ≤ a → 0 < n → exec (.bar2Access p a (.read n)) s =
        .next (s.withDev fun dv => { dv with bar2 := some (List.replicate n 0xFF#8, true) })))

/-- The management port while its input is in range (R393): private writes and reads by index, and the common command codes. The
lengths of the answers, the byte order of GETMWL and GETMRL, bit 0 of the event mask and what ENTDAA and SETDASA do while an address
is held are presumed (entry 9, PRESUMED); how a transfer moves the index is the model's reading (entry 23, DEDUCED). -/
def Obligations.ManagementSteps : Prop :=
  ∀ (s : State), s.dev.power.inRange = true →
    let m := s.dev.mgmt
    let answers (m : Mgmt) (a : Option (List Byte)) : State := s.withDev fun dv => { dv with mgmt := { m with answer := a } }
    (∀ lo hi : Byte, exec (.i3cPrivateWrite [lo, hi]) s =
      .next (answers { m with index := lo.toNat + 256 * hi.toNat } (some []))) ∧
    (∀ v : DWord, s.dev.mgmtw = true → ∃ u, exec (.i3cPrivateWrite (0x08#8 :: 0x00#8 :: valBytes 8 v.toNat)) s = .next u ∧
      u.dev.bar0.modcap = Nat.min v.toNat 8000 ∧ u.dev.mgmt.answer = some [] ∧ u.core = s.core) ∧
    (∀ n, n ≤ 64 → ∃ u bs, exec (.i3cPrivateRead n) s = .next u ∧ u.dev.mgmt.answer = some bs ∧ bs.length = n ∧
      u.dev.mgmt.index = (m.index + n) % 65536 ∧ (∀ k, k < n → bs[k]? = some (s.dev.mgmtByte ((m.index + k) % 65536))) ∧
      (n = 8 → m.index = 8 → bytesVal bs = s.dev.bar0.modcap % 2 ^ 64) ∧ u.core = s.core) ∧
    (∀ a, (m.dyn = none → ∃ bs : List Byte, bs.length = 8 ∧
        exec (.entdaa a) s = .next (answers { m with dyn := some a.toNat } (some bs)) ∧
        exec (.setdasa a) s = .next (answers { m with dyn := some a.toNat } (some []))) ∧
      (m.dyn ≠ none → exec (.entdaa a) s = .next (answers m none) ∧ exec (.setdasa a) s = .next (answers m none))) ∧
    exec .rstdaa s = .next (answers { m with dyn := none } (some [])) ∧
    (∀ k : Byte, exec (.enec k) s = .next (answers { m with events := m.events || k.getLsbD 0 } (some [])) ∧
      exec (.disec k) s = .next (answers { m with events := m.events && !k.getLsbD 0 } (some []))) ∧
    (∃ pid bcr dcr : List Byte, pid.length = 6 ∧ bcr.length = 1 ∧ dcr.length = 1 ∧
      exec .getpid s = .next (answers m (some pid)) ∧ exec .getbcr s = .next (answers m (some bcr)) ∧
      exec .getdcr s = .next (answers m (some dcr))) ∧
    (∃ u bs, exec .getstatus s = .next u ∧ u.dev.mgmt = { m with answer := some bs } ∧ bs.length = 2 ∧ u.core = s.core) ∧
    exec .getmwl s = .next (answers m (some [0x01#8, 0x02#8])) ∧ exec .getmrl s = .next (answers m (some [0x00#8, 0x40#8])) ∧
    (∀ code : Byte, code.toNat ∉ supportedCcc → exec (.unsupportedCcc code) s = .next (answers m none))

/-- Power, heat and port failure (R120, R402 to R404): no grant passes its region's demand and all together keep within MODCAP;
a warning caps every grant at 80; a shutdown leaves no tile and no bulk memory; a hot junction halves its region's grant; a
Flue port that fails serves no more: where no access is under way and no guard waits, no tile and no memory changes, and the
one guard request that waits there is answered with GUARDERR. That nothing is listed of bulk memory after a shutdown, and the values
that a voltage and a junction are found at, are the model's own choices (entries 5 and 11, DESIGN CHOICE). -/
def Obligations.PowerSteps : Prop :=
  ∀ (s : State), s.dev.power.on = true →
    (∃ u, exec .damperStep s = .next u ∧ u.core = s.core ∧ u.others = s.others ∧
      (∀ (r : Nat) (x y : Region), s.dev.regions[r]? = some x → u.dev.regions[r]? = some y →
        y.grant ≤ Nat.min (Nat.min x.req x.ceil) 160) ∧
      (u.dev.regions.map (·.grant)).sum ≤ s.dev.bar0.modcap ∧ u.dev.hbm = s.dev.hbm) ∧
    (∃ u, exec .voltageWarning s = .next u ∧ u.core = s.core ∧ u.dev.power.capped = true ∧
      (48000 ≤ u.dev.power.mv ∧ u.dev.power.mv < 50000 ∨ 56000 < u.dev.power.mv ∧ u.dev.power.mv ≤ 58000) ∧
      u.dev.regions = s.dev.regions.map fun x => { x with grant := Nat.min x.grant 80 }) ∧
    (∃ u, exec .powerRemoval s = .next u ∧ u.dev.power.on = false ∧ u.dev.power.shutdown = true ∧
      (u.dev.power.mv < 48000 ∨ 58000 < u.dev.power.mv) ∧ (∀ c, u.tileAt c = none) ∧ u.dev.hbm = [] ∧ u.dev.kiln.keys = []) ∧
    (∃ u, exec .coolantFlowShutdown s = .next u ∧ u.dev.power = ⟨false, false, true, s.dev.power.mv⟩ ∧
      (∀ c, u.tileAt c = none) ∧ u.dev.hbm = [] ∧ u.dev.kiln.keys = []) ∧
    (∀ r x, r < 64 → s.dev.regions[r]? = some x → x.therm = false → ∃ u, exec (.thermalLimit r) s = .next u ∧
      (u.dev.power.shutdown = true ∧ (∀ c, u.tileAt c = none) ∨ u.core = s.core ∧
        ∃ y, u.dev.regions[r]? = some y ∧ y.therm = true ∧ y.grant = x.grant / 2 ∧ (y.junction = 95 ∨ y.junction = 105 ∧ y.fstep = 0))) ∧
    (∀ p, p < 40 → s.dev.portGone p = false → s.dev.ready.length = 140 → (∀ t ∈ s.core :: s.others, t.accs = []) →
      s.dev.waits = [] → ∃ u, exec (.fluePortFailure p) s = .next u ∧ u.dev.portUp p = false ∧ u.dev.portGone p = true ∧
        u.core = s.core ∧ u.others = s.others ∧ u.dev.hbm = s.dev.hbm) ∧
    (∀ p id t g x q, p < 40 → s.dev.portGone p = false → s.dev.ready.length = 140 → (∀ t ∈ s.core :: s.others, t.accs = []) →
      s.HasGuard id t g → g.stage = .queued x → s.dev.waits = [q] → stackOf q.line = p → q.who = evCoord id → q.seq = g.seq →
      ∃ u, exec (.fluePortFailure p) s = .next u ∧ u.dev.portUp p = false ∧ u.dev.waits = [] ∧ u.dev.hbm = s.dev.hbm ∧
        u.tileAt (evCoord id) = some (t.setGuard { g with stage := .answered (some .guarderr) none }))

end
end

