-- ==== Sys2Proof/Laws/Slot.lean ====
section
/-! SUPPORT. What issuing a slot that stands alone in its bundle does (R191, R194, R208): the spec lemmas of `runSlot`. -/

namespace Sys2Proof.Machine

/-- A tile that has nothing to report and has not ended passes through the two last operations of a slot unchanged. -/
theorem flush_noteEnd_quiet {s : State} (hr : s.core.recs = []) (he : s.core.sch.status ≠ .ended) :
    State.flush (State.noteEnd s) = s := by
  unfold State.noteEnd
  rw [if_neg he]
  unfold State.flush
  rw [hr]

theorem Tile.tick_sch (t : Tile) : t.tick.sch = { t.sch with cycle := t.sch.cycle + 1 } := rfl

/-- Closing a bundle in which nothing acts at the close. -/
theorem Tile.close_plain {t : Tile} (n : Nat) (hc : t.sch.closing = []) :
    t.close n =
      (t.withSch fun s =>
        { s.commitTags with
          pc := match s.xfer with
            | some a => a
            | none => t.sch.pc + BitVec.ofNat 32 (4 * n)
          ready := t.sch.cycle + 1 + s.cost
          waited := 0
          stall := none
          xfer := none
          cost := 0
          closing := [] }).tick := by
  unfold Tile.close
  rw [hc]
  rfl

theorem Tile.close_status {t : Tile} (n : Nat) (hc : t.sch.closing = []) :
    (t.close n).sch.status = t.sch.status := by
  rw [Tile.close_plain n hc]; rfl

theorem Tile.close_recs {t : Tile} (n : Nat) (hc : t.sch.closing = []) : (t.close n).recs = t.recs := by
  rw [Tile.close_plain n hc]; rfl

/-- A slot alone in its bundle whose guard is true and whose checks pass: its effect, then the close. -/
theorem runSlot_alone {i : Instr} {h : Hdr} {sem : SlotInfo → Sem} {s : State} (hs : s.Ready h.guard)
    (henc : (sem (s.core.slotInfo i 0)).enc s.core = true)
    (hchk : (sem (s.core.slotInfo i 0)).check s.core = .ok) :
    runSlot i h sem s =
      .next (State.flush (State.noteEnd (s.after i ((sem (s.core.slotInfo i 0)).eff s.core s.core)))) := by
  obtain ⟨hb, -, hg⟩ := hs
  simp only [runSlot, issueSlot, hb, Tile.issueOne, henc, hg, hchk, State.after, State.withCore, Bool.not_true,
    Bool.false_eq_true, if_false]

/-- The same for an effect that reports nothing and leaves the closing acts empty: the state after is the effect's. -/
theorem runSlot_quiet {i : Instr} {h : Hdr} {sem : SlotInfo → Sem} {s : State} (hs : s.Ready h.guard)
    (henc : (sem (s.core.slotInfo i 0)).enc s.core = true)
    (hchk : (sem (s.core.slotInfo i 0)).check s.core = .ok)
    (hc : ((sem (s.core.slotInfo i 0)).eff s.core s.core).sch.closing = [])
    (hst : ((sem (s.core.slotInfo i 0)).eff s.core s.core).sch.status = .running)
    (hr : ((sem (s.core.slotInfo i 0)).eff s.core s.core).recs = []) :
    runSlot i h sem s = .next (s.after i ((sem (s.core.slotInfo i 0)).eff s.core s.core)) := by
  rw [runSlot_alone hs henc hchk, flush_noteEnd_quiet]
  · show (Tile.close _ _).recs = []
    rw [Tile.close_recs]
    · exact hr
    · exact hc
  · show (Tile.close _ _).sch.status ≠ .ended
    rw [Tile.close_status]
    · show (Tile.bump _).sch.status ≠ .ended
      rw [show (Tile.bump ((sem (s.core.slotInfo i 0)).eff s.core s.core)).sch.status = _ from hst]
      decide
    · exact hc

/-- A slot that writes one register with latency 1 and makes no check. -/
theorem runSlot_semWrite {i : Instr} {h : Hdr} {w : Tile → RegWrite} {s : State} (hs : s.Ready h.guard) :
    runSlot i h (semWrite w) s = .next (s.after i (s.core.write1 (w s.core))) :=
  runSlot_quiet (sem := semWrite w) hs rfl rfl hs.between.noClosing hs.between.running hs.between.noReports

end Sys2Proof.Machine
end

