-- ==== Sys2Proof/Laws/PortA.lean ====
section
/-! SUPPORT. What an access of port A does (R108, R237, R238): the spec lemmas of `portA`. -/

namespace Sys2Proof.Machine

/-- An access that can be performed at once, behind no queued one, is performed at once. -/
theorem Tile.portA_now {t : Tile} {seq : Nat} {act : PortAct} {info : SlotInfo} (hq : t.pad.queue = [])
    (ha : act.isStore = false) :
    t.portA seq act 0 info = t.perform ⟨seq, t.sch.cycle, t.sch.cycle, act, info⟩ := by
  rcases t with ⟨_, _, _, _, _, ⟨_, _, _, _, _, _, queue, _, _⟩, _⟩
  subst hq
  cases act <;> simp_all [Tile.portA, PortAct.isStore, Tile.drainReady, Tile.mayPerform, Tile.performHead]

/-- A store, or an evaluation of a later cycle, waits in the queue. -/
theorem Tile.portA_later {t : Tile} {seq : Nat} {act : PortAct} {delay : Nat} {info : SlotInfo}
    (ha : act.isStore = true ∨ delay ≠ 0) :
    t.portA seq act delay info = { t with pad := { t.pad with
      queue := t.pad.queue ++ [⟨seq, t.sch.cycle, t.sch.cycle + delay, act, info⟩] } } := by
  unfold Tile.portA
  rw [if_pos]
  rcases ha with h | h <;> simp [h]

/-- Errors that no word met has: nothing is found. -/
theorem Tile.meetErrors_none {t : Tile} {hit : Nat → Bool} (hb : ∀ w ∈ t.pad.bad, hit w = false)
    (hs : ∀ w ∈ t.pad.soft, hit w = false) : t.meetErrors hit = t := by
  have e1 : t.pad.bad.filter hit = [] := by simpa [List.filter_eq_nil_iff] using hb
  have e2 : t.pad.soft.filter hit = [] := by simpa [List.filter_eq_nil_iff] using hs
  simp [Tile.meetErrors, e1, e2]

/-- A read of bytes that can all be read finds nothing and changes nothing. -/
theorem Tile.Readable.readPad {t : Tile} {l : List Nat} (h : t.Readable l) (hl : ∀ a ∈ l, a < padSize) :
    t.readPad l = (none, t) := by
  obtain ⟨h1, h2⟩ := h
  have e : ∀ w, (w ∈ t.pad.bad ∨ w ∈ t.pad.soft) → (l.any fun a => a / 4 == w) = false := by
    intro w hw
    simp only [List.any_eq_false, beq_iff_eq]
    intro a ha e
    have := (h1 a ha (hl a ha)).1
    rcases hw with hw | hw <;> simp_all
  have e1 : (t.pad.bad.any fun w => l.any fun a => a / 4 == w) = false := by
    simp only [List.any_eq_false]
    intro w hw
    simp [e w (.inl hw)]
  have e2 : (t.pad.poison.any fun g => l.any fun a => a / 16 == g) = false := by
    simp only [List.any_eq_false, List.any_eq_true, beq_iff_eq, not_exists, not_and]
    intro w hw a ha e
    exact (h1 a ha (hl a ha)).2 (e ▸ hw)
  have e3 := Tile.meetErrors_none (t := t) (hit := fun w => l.any fun a => a / 4 == w) (fun w hw => e w (.inl hw))
    (fun w hw => e w (.inr hw))
  have e4 : ∀ i, t.pad.inj.has i = false := by intro i; simp [Inject.has, h2]
  simp only [Tile.readPad, Tile.readWords, Pad.readCause, Pad.report, e1, e2, e3, e4, Bool.or_false, Bool.false_and,
    Bool.false_eq_true, if_false, ite_self, Tile.withPad]

end Sys2Proof.Machine
end

