-- ==== Sys2Proof/Laws/State.lean ====
section
/-! SUPPORT. What each update of a state or a tile leaves in each field, so that no proof unfolds a record update. -/

namespace Sys2Proof.Machine

@[simp] theorem Tile.withSch_coord (t : Tile) (f : Sched → Sched) : (t.withSch f).coord = t.coord := rfl
@[simp] theorem Tile.withSch_pos (t : Tile) (f : Sched → Sched) : (t.withSch f).pos = t.pos := rfl
@[simp] theorem Tile.withSch_files (t : Tile) (f : Sched → Sched) : (t.withSch f).files = t.files := rfl
@[simp] theorem Tile.withSch_ctl (t : Tile) (f : Sched → Sched) : (t.withSch f).ctl = t.ctl := rfl
@[simp] theorem Tile.withSch_sch (t : Tile) (f : Sched → Sched) : (t.withSch f).sch = f t.sch := rfl
@[simp] theorem Tile.withSch_pad (t : Tile) (f : Sched → Sched) : (t.withSch f).pad = t.pad := rfl
@[simp] theorem Tile.withSch_copy (t : Tile) (f : Sched → Sched) : (t.withSch f).copy = t.copy := rfl
@[simp] theorem Tile.withSch_eng (t : Tile) (f : Sched → Sched) : (t.withSch f).eng = t.eng := rfl
@[simp] theorem Tile.withSch_outs (t : Tile) (f : Sched → Sched) : (t.withSch f).outs = t.outs := rfl
@[simp] theorem Tile.withSch_ins (t : Tile) (f : Sched → Sched) : (t.withSch f).ins = t.ins := rfl
@[simp] theorem Tile.withSch_trees (t : Tile) (f : Sched → Sched) : (t.withSch f).trees = t.trees := rfl
@[simp] theorem Tile.withSch_accs (t : Tile) (f : Sched → Sched) : (t.withSch f).accs = t.accs := rfl
@[simp] theorem Tile.withSch_guards (t : Tile) (f : Sched → Sched) : (t.withSch f).guards = t.guards := rfl
@[simp] theorem Tile.withSch_holds (t : Tile) (f : Sched → Sched) : (t.withSch f).holds = t.holds := rfl
@[simp] theorem Tile.withSch_lists (t : Tile) (f : Sched → Sched) : (t.withSch f).lists = t.lists := rfl
@[simp] theorem Tile.withSch_blocks (t : Tile) (f : Sched → Sched) : (t.withSch f).blocks = t.blocks := rfl
@[simp] theorem Tile.withSch_sends (t : Tile) (f : Sched → Sched) : (t.withSch f).sends = t.sends := rfl
@[simp] theorem Tile.withSch_pair (t : Tile) (f : Sched → Sched) : (t.withSch f).pair = t.pair := rfl
@[simp] theorem Tile.withSch_health (t : Tile) (f : Sched → Sched) : (t.withSch f).health = t.health := rfl
@[simp] theorem Tile.withSch_acks (t : Tile) (f : Sched → Sched) : (t.withSch f).acks = t.acks := rfl
@[simp] theorem Tile.withSch_out (t : Tile) (f : Sched → Sched) : (t.withSch f).out = t.out := rfl
@[simp] theorem Tile.withSch_recs (t : Tile) (f : Sched → Sched) : (t.withSch f).recs = t.recs := rfl
@[simp] theorem Tile.withSch_counts (t : Tile) (f : Sched → Sched) : (t.withSch f).counts = t.counts := rfl
@[simp] theorem Tile.withSch_inj (t : Tile) (f : Sched → Sched) : (t.withSch f).inj = t.inj := rfl
@[simp] theorem Tile.withSch_free (t : Tile) (f : Sched → Sched) : (t.withSch f).free = t.free := rfl

@[simp] theorem Tile.withCtl_coord (t : Tile) (f : Ctl → Ctl) : (t.withCtl f).coord = t.coord := rfl
@[simp] theorem Tile.withCtl_pos (t : Tile) (f : Ctl → Ctl) : (t.withCtl f).pos = t.pos := rfl
@[simp] theorem Tile.withCtl_files (t : Tile) (f : Ctl → Ctl) : (t.withCtl f).files = t.files := rfl
@[simp] theorem Tile.withCtl_ctl (t : Tile) (f : Ctl → Ctl) : (t.withCtl f).ctl = f t.ctl := rfl
@[simp] theorem Tile.withCtl_sch (t : Tile) (f : Ctl → Ctl) : (t.withCtl f).sch = t.sch := rfl
@[simp] theorem Tile.withCtl_pad (t : Tile) (f : Ctl → Ctl) : (t.withCtl f).pad = t.pad := rfl
@[simp] theorem Tile.withCtl_copy (t : Tile) (f : Ctl → Ctl) : (t.withCtl f).copy = t.copy := rfl
@[simp] theorem Tile.withCtl_eng (t : Tile) (f : Ctl → Ctl) : (t.withCtl f).eng = t.eng := rfl
@[simp] theorem Tile.withCtl_outs (t : Tile) (f : Ctl → Ctl) : (t.withCtl f).outs = t.outs := rfl
@[simp] theorem Tile.withCtl_ins (t : Tile) (f : Ctl → Ctl) : (t.withCtl f).ins = t.ins := rfl
@[simp] theorem Tile.withCtl_trees (t : Tile) (f : Ctl → Ctl) : (t.withCtl f).trees = t.trees := rfl
@[simp] theorem Tile.withCtl_accs (t : Tile) (f : Ctl → Ctl) : (t.withCtl f).accs = t.accs := rfl
@[simp] theorem Tile.withCtl_guards (t : Tile) (f : Ctl → Ctl) : (t.withCtl f).guards = t.guards := rfl
@[simp] theorem Tile.withCtl_holds (t : Tile) (f : Ctl → Ctl) : (t.withCtl f).holds = t.holds := rfl
@[simp] theorem Tile.withCtl_lists (t : Tile) (f : Ctl → Ctl) : (t.withCtl f).lists = t.lists := rfl
@[simp] theorem Tile.withCtl_blocks (t : Tile) (f : Ctl → Ctl) : (t.withCtl f).blocks = t.blocks := rfl
@[simp] theorem Tile.withCtl_sends (t : Tile) (f : Ctl → Ctl) : (t.withCtl f).sends = t.sends := rfl
@[simp] theorem Tile.withCtl_pair (t : Tile) (f : Ctl → Ctl) : (t.withCtl f).pair = t.pair := rfl
@[simp] theorem Tile.withCtl_health (t : Tile) (f : Ctl → Ctl) : (t.withCtl f).health = t.health := rfl
@[simp] theorem Tile.withCtl_acks (t : Tile) (f : Ctl → Ctl) : (t.withCtl f).acks = t.acks := rfl
@[simp] theorem Tile.withCtl_out (t : Tile) (f : Ctl → Ctl) : (t.withCtl f).out = t.out := rfl
@[simp] theorem Tile.withCtl_recs (t : Tile) (f : Ctl → Ctl) : (t.withCtl f).recs = t.recs := rfl
@[simp] theorem Tile.withCtl_counts (t : Tile) (f : Ctl → Ctl) : (t.withCtl f).counts = t.counts := rfl
@[simp] theorem Tile.withCtl_inj (t : Tile) (f : Ctl → Ctl) : (t.withCtl f).inj = t.inj := rfl
@[simp] theorem Tile.withCtl_free (t : Tile) (f : Ctl → Ctl) : (t.withCtl f).free = t.free := rfl

@[simp] theorem Tile.withPad_coord (t : Tile) (f : Pad → Pad) : (t.withPad f).coord = t.coord := rfl
@[simp] theorem Tile.withPad_pos (t : Tile) (f : Pad → Pad) : (t.withPad f).pos = t.pos := rfl
@[simp] theorem Tile.withPad_files (t : Tile) (f : Pad → Pad) : (t.withPad f).files = t.files := rfl
@[simp] theorem Tile.withPad_ctl (t : Tile) (f : Pad → Pad) : (t.withPad f).ctl = t.ctl := rfl
@[simp] theorem Tile.withPad_sch (t : Tile) (f : Pad → Pad) : (t.withPad f).sch = t.sch := rfl
@[simp] theorem Tile.withPad_pad (t : Tile) (f : Pad → Pad) : (t.withPad f).pad = f t.pad := rfl
@[simp] theorem Tile.withPad_copy (t : Tile) (f : Pad → Pad) : (t.withPad f).copy = t.copy := rfl
@[simp] theorem Tile.withPad_eng (t : Tile) (f : Pad → Pad) : (t.withPad f).eng = t.eng := rfl
@[simp] theorem Tile.withPad_outs (t : Tile) (f : Pad → Pad) : (t.withPad f).outs = t.outs := rfl
@[simp] theorem Tile.withPad_ins (t : Tile) (f : Pad → Pad) : (t.withPad f).ins = t.ins := rfl
@[simp] theorem Tile.withPad_trees (t : Tile) (f : Pad → Pad) : (t.withPad f).trees = t.trees := rfl
@[simp] theorem Tile.withPad_accs (t : Tile) (f : Pad → Pad) : (t.withPad f).accs = t.accs := rfl
@[simp] theorem Tile.withPad_guards (t : Tile) (f : Pad → Pad) : (t.withPad f).guards = t.guards := rfl
@[simp] theorem Tile.withPad_holds (t : Tile) (f : Pad → Pad) : (t.withPad f).holds = t.holds := rfl
@[simp] theorem Tile.withPad_lists (t : Tile) (f : Pad → Pad) : (t.withPad f).lists = t.lists := rfl
@[simp] theorem Tile.withPad_blocks (t : Tile) (f : Pad → Pad) : (t.withPad f).blocks = t.blocks := rfl
@[simp] theorem Tile.withPad_sends (t : Tile) (f : Pad → Pad) : (t.withPad f).sends = t.sends := rfl
@[simp] theorem Tile.withPad_pair (t : Tile) (f : Pad → Pad) : (t.withPad f).pair = t.pair := rfl
@[simp] theorem Tile.withPad_health (t : Tile) (f : Pad → Pad) : (t.withPad f).health = t.health := rfl
@[simp] theorem Tile.withPad_acks (t : Tile) (f : Pad → Pad) : (t.withPad f).acks = t.acks := rfl
@[simp] theorem Tile.withPad_out (t : Tile) (f : Pad → Pad) : (t.withPad f).out = t.out := rfl
@[simp] theorem Tile.withPad_recs (t : Tile) (f : Pad → Pad) : (t.withPad f).recs = t.recs := rfl
@[simp] theorem Tile.withPad_counts (t : Tile) (f : Pad → Pad) : (t.withPad f).counts = t.counts := rfl
@[simp] theorem Tile.withPad_inj (t : Tile) (f : Pad → Pad) : (t.withPad f).inj = t.inj := rfl
@[simp] theorem Tile.withPad_free (t : Tile) (f : Pad → Pad) : (t.withPad f).free = t.free := rfl

@[simp] theorem Tile.withEng_coord (t : Tile) (f : Engines → Engines) : (t.withEng f).coord = t.coord := rfl
@[simp] theorem Tile.withEng_pos (t : Tile) (f : Engines → Engines) : (t.withEng f).pos = t.pos := rfl
@[simp] theorem Tile.withEng_files (t : Tile) (f : Engines → Engines) : (t.withEng f).files = t.files := rfl
@[simp] theorem Tile.withEng_ctl (t : Tile) (f : Engines → Engines) : (t.withEng f).ctl = t.ctl := rfl
@[simp] theorem Tile.withEng_sch (t : Tile) (f : Engines → Engines) : (t.withEng f).sch = t.sch := rfl
@[simp] theorem Tile.withEng_pad (t : Tile) (f : Engines → Engines) : (t.withEng f).pad = t.pad := rfl
@[simp] theorem Tile.withEng_copy (t : Tile) (f : Engines → Engines) : (t.withEng f).copy = t.copy := rfl
@[simp] theorem Tile.withEng_eng (t : Tile) (f : Engines → Engines) : (t.withEng f).eng = f t.eng := rfl
@[simp] theorem Tile.withEng_outs (t : Tile) (f : Engines → Engines) : (t.withEng f).outs = t.outs := rfl
@[simp] theorem Tile.withEng_ins (t : Tile) (f : Engines → Engines) : (t.withEng f).ins = t.ins := rfl
@[simp] theorem Tile.withEng_trees (t : Tile) (f : Engines → Engines) : (t.withEng f).trees = t.trees := rfl
@[simp] theorem Tile.withEng_accs (t : Tile) (f : Engines → Engines) : (t.withEng f).accs = t.accs := rfl
@[simp] theorem Tile.withEng_guards (t : Tile) (f : Engines → Engines) : (t.withEng f).guards = t.guards := rfl
@[simp] theorem Tile.withEng_holds (t : Tile) (f : Engines → Engines) : (t.withEng f).holds = t.holds := rfl
@[simp] theorem Tile.withEng_lists (t : Tile) (f : Engines → Engines) : (t.withEng f).lists = t.lists := rfl
@[simp] theorem Tile.withEng_blocks (t : Tile) (f : Engines → Engines) : (t.withEng f).blocks = t.blocks := rfl
@[simp] theorem Tile.withEng_sends (t : Tile) (f : Engines → Engines) : (t.withEng f).sends = t.sends := rfl
@[simp] theorem Tile.withEng_pair (t : Tile) (f : Engines → Engines) : (t.withEng f).pair = t.pair := rfl
@[simp] theorem Tile.withEng_health (t : Tile) (f : Engines → Engines) : (t.withEng f).health = t.health := rfl
@[simp] theorem Tile.withEng_acks (t : Tile) (f : Engines → Engines) : (t.withEng f).acks = t.acks := rfl
@[simp] theorem Tile.withEng_out (t : Tile) (f : Engines → Engines) : (t.withEng f).out = t.out := rfl
@[simp] theorem Tile.withEng_recs (t : Tile) (f : Engines → Engines) : (t.withEng f).recs = t.recs := rfl
@[simp] theorem Tile.withEng_counts (t : Tile) (f : Engines → Engines) : (t.withEng f).counts = t.counts := rfl
@[simp] theorem Tile.withEng_inj (t : Tile) (f : Engines → Engines) : (t.withEng f).inj = t.inj := rfl
@[simp] theorem Tile.withEng_free (t : Tile) (f : Engines → Engines) : (t.withEng f).free = t.free := rfl

@[simp] theorem Tile.write1_coord (t : Tile) (w : RegWrite) : (t.write1 w).coord = t.coord := rfl
@[simp] theorem Tile.write1_pos (t : Tile) (w : RegWrite) : (t.write1 w).pos = t.pos := rfl
@[simp] theorem Tile.write1_ctl (t : Tile) (w : RegWrite) : (t.write1 w).ctl = t.ctl := rfl
@[simp] theorem Tile.write1_pad (t : Tile) (w : RegWrite) : (t.write1 w).pad = t.pad := rfl
@[simp] theorem Tile.write1_copy (t : Tile) (w : RegWrite) : (t.write1 w).copy = t.copy := rfl
@[simp] theorem Tile.write1_eng (t : Tile) (w : RegWrite) : (t.write1 w).eng = t.eng := rfl
@[simp] theorem Tile.write1_outs (t : Tile) (w : RegWrite) : (t.write1 w).outs = t.outs := rfl
@[simp] theorem Tile.write1_ins (t : Tile) (w : RegWrite) : (t.write1 w).ins = t.ins := rfl
@[simp] theorem Tile.write1_trees (t : Tile) (w : RegWrite) : (t.write1 w).trees = t.trees := rfl
@[simp] theorem Tile.write1_accs (t : Tile) (w : RegWrite) : (t.write1 w).accs = t.accs := rfl
@[simp] theorem Tile.write1_guards (t : Tile) (w : RegWrite) : (t.write1 w).guards = t.guards := rfl
@[simp] theorem Tile.write1_holds (t : Tile) (w : RegWrite) : (t.write1 w).holds = t.holds := rfl
@[simp] theorem Tile.write1_lists (t : Tile) (w : RegWrite) : (t.write1 w).lists = t.lists := rfl
@[simp] theorem Tile.write1_blocks (t : Tile) (w : RegWrite) : (t.write1 w).blocks = t.blocks := rfl
@[simp] theorem Tile.write1_sends (t : Tile) (w : RegWrite) : (t.write1 w).sends = t.sends := rfl
@[simp] theorem Tile.write1_pair (t : Tile) (w : RegWrite) : (t.write1 w).pair = t.pair := rfl
@[simp] theorem Tile.write1_health (t : Tile) (w : RegWrite) : (t.write1 w).health = t.health := rfl
@[simp] theorem Tile.write1_acks (t : Tile) (w : RegWrite) : (t.write1 w).acks = t.acks := rfl
@[simp] theorem Tile.write1_out (t : Tile) (w : RegWrite) : (t.write1 w).out = t.out := rfl
@[simp] theorem Tile.write1_recs (t : Tile) (w : RegWrite) : (t.write1 w).recs = t.recs := rfl
@[simp] theorem Tile.write1_counts (t : Tile) (w : RegWrite) : (t.write1 w).counts = t.counts := rfl
@[simp] theorem Tile.write1_inj (t : Tile) (w : RegWrite) : (t.write1 w).inj = t.inj := rfl
@[simp] theorem Tile.write1_free (t : Tile) (w : RegWrite) : (t.write1 w).free = t.free := rfl
@[simp] theorem Tile.write1_files (t : Tile) (w : RegWrite) : (t.write1 w).files = t.files.put w := rfl

@[simp] theorem Tile.bump_coord (t : Tile) : t.bump.coord = t.coord := rfl
@[simp] theorem Tile.bump_pos (t : Tile) : t.bump.pos = t.pos := rfl
@[simp] theorem Tile.bump_files (t : Tile) : t.bump.files = t.files := rfl
@[simp] theorem Tile.bump_ctl (t : Tile) : t.bump.ctl = t.ctl := rfl
@[simp] theorem Tile.bump_pad (t : Tile) : t.bump.pad = t.pad := rfl
@[simp] theorem Tile.bump_copy (t : Tile) : t.bump.copy = t.copy := rfl
@[simp] theorem Tile.bump_eng (t : Tile) : t.bump.eng = t.eng := rfl
@[simp] theorem Tile.bump_outs (t : Tile) : t.bump.outs = t.outs := rfl
@[simp] theorem Tile.bump_ins (t : Tile) : t.bump.ins = t.ins := rfl
@[simp] theorem Tile.bump_trees (t : Tile) : t.bump.trees = t.trees := rfl
@[simp] theorem Tile.bump_accs (t : Tile) : t.bump.accs = t.accs := rfl
@[simp] theorem Tile.bump_guards (t : Tile) : t.bump.guards = t.guards := rfl
@[simp] theorem Tile.bump_holds (t : Tile) : t.bump.holds = t.holds := rfl
@[simp] theorem Tile.bump_lists (t : Tile) : t.bump.lists = t.lists := rfl
@[simp] theorem Tile.bump_blocks (t : Tile) : t.bump.blocks = t.blocks := rfl
@[simp] theorem Tile.bump_sends (t : Tile) : t.bump.sends = t.sends := rfl
@[simp] theorem Tile.bump_pair (t : Tile) : t.bump.pair = t.pair := rfl
@[simp] theorem Tile.bump_health (t : Tile) : t.bump.health = t.health := rfl
@[simp] theorem Tile.bump_acks (t : Tile) : t.bump.acks = t.acks := rfl
@[simp] theorem Tile.bump_out (t : Tile) : t.bump.out = t.out := rfl
@[simp] theorem Tile.bump_recs (t : Tile) : t.bump.recs = t.recs := rfl
@[simp] theorem Tile.bump_counts (t : Tile) : t.bump.counts = t.counts := rfl
@[simp] theorem Tile.bump_inj (t : Tile) : t.bump.inj = t.inj := rfl
@[simp] theorem Tile.bump_free (t : Tile) : t.bump.free = t.free := rfl
@[simp] theorem Tile.bump_sch (t : Tile) : t.bump.sch = { t.sch with seq := t.sch.seq + 1 } := rfl

@[simp] theorem Tile.tick_coord (t : Tile) : t.tick.coord = t.coord := rfl
@[simp] theorem Tile.tick_pos (t : Tile) : t.tick.pos = t.pos := rfl
@[simp] theorem Tile.tick_files (t : Tile) : t.tick.files = t.files := rfl
@[simp] theorem Tile.tick_pad (t : Tile) : t.tick.pad = t.pad := rfl
@[simp] theorem Tile.tick_copy (t : Tile) : t.tick.copy = t.copy := rfl
@[simp] theorem Tile.tick_eng (t : Tile) : t.tick.eng = t.eng := rfl
@[simp] theorem Tile.tick_outs (t : Tile) : t.tick.outs = t.outs := rfl
@[simp] theorem Tile.tick_ins (t : Tile) : t.tick.ins = t.ins := rfl
@[simp] theorem Tile.tick_trees (t : Tile) : t.tick.trees = t.trees := rfl
@[simp] theorem Tile.tick_accs (t : Tile) : t.tick.accs = t.accs := rfl
@[simp] theorem Tile.tick_guards (t : Tile) : t.tick.guards = t.guards := rfl
@[simp] theorem Tile.tick_holds (t : Tile) : t.tick.holds = t.holds := rfl
@[simp] theorem Tile.tick_lists (t : Tile) : t.tick.lists = t.lists := rfl
@[simp] theorem Tile.tick_blocks (t : Tile) : t.tick.blocks = t.blocks := rfl
@[simp] theorem Tile.tick_sends (t : Tile) : t.tick.sends = t.sends := rfl
@[simp] theorem Tile.tick_pair (t : Tile) : t.tick.pair = t.pair := rfl
@[simp] theorem Tile.tick_health (t : Tile) : t.tick.health = t.health := rfl
@[simp] theorem Tile.tick_acks (t : Tile) : t.tick.acks = t.acks := rfl
@[simp] theorem Tile.tick_out (t : Tile) : t.tick.out = t.out := rfl
@[simp] theorem Tile.tick_recs (t : Tile) : t.tick.recs = t.recs := rfl
@[simp] theorem Tile.tick_counts (t : Tile) : t.tick.counts = t.counts := rfl
@[simp] theorem Tile.tick_inj (t : Tile) : t.tick.inj = t.inj := rfl
@[simp] theorem Tile.tick_free (t : Tile) : t.tick.free = t.free := rfl

@[simp] theorem Tile.loading_coord (t : Tile) (lat : Nat) (tag : BitVec 3) (ws : List RegWrite) (kind : Nat) (opx : DWord)
    (opy : Word) (data : List Byte) (ring : Option (Nat × Nat)) (i : Instr) :
    (t.loading lat tag ws kind opx opy data ring i).coord = t.coord := rfl
@[simp] theorem Tile.loading_pos (t : Tile) (lat : Nat) (tag : BitVec 3) (ws : List RegWrite) (kind : Nat) (opx : DWord)
    (opy : Word) (data : List Byte) (ring : Option (Nat × Nat)) (i : Instr) :
    (t.loading lat tag ws kind opx opy data ring i).pos = t.pos := rfl
@[simp] theorem Tile.loading_files (t : Tile) (lat : Nat) (tag : BitVec 3) (ws : List RegWrite) (kind : Nat) (opx : DWord)
    (opy : Word) (data : List Byte) (ring : Option (Nat × Nat)) (i : Instr) :
    (t.loading lat tag ws kind opx opy data ring i).files = t.files := rfl
@[simp] theorem Tile.loading_ctl (t : Tile) (lat : Nat) (tag : BitVec 3) (ws : List RegWrite) (kind : Nat) (opx : DWord)
    (opy : Word) (data : List Byte) (ring : Option (Nat × Nat)) (i : Instr) :
    (t.loading lat tag ws kind opx opy data ring i).ctl = t.ctl := rfl
@[simp] theorem Tile.loading_pad (t : Tile) (lat : Nat) (tag : BitVec 3) (ws : List RegWrite) (kind : Nat) (opx : DWord)
    (opy : Word) (data : List Byte) (ring : Option (Nat × Nat)) (i : Instr) :
    (t.loading lat tag ws kind opx opy data ring i).pad = t.pad := rfl
@[simp] theorem Tile.loading_copy (t : Tile) (lat : Nat) (tag : BitVec 3) (ws : List RegWrite) (kind : Nat) (opx : DWord)
    (opy : Word) (data : List Byte) (ring : Option (Nat × Nat)) (i : Instr) :
    (t.loading lat tag ws kind opx opy data ring i).copy = t.copy := rfl
@[simp] theorem Tile.loading_eng (t : Tile) (lat : Nat) (tag : BitVec 3) (ws : List RegWrite) (kind : Nat) (opx : DWord)
    (opy : Word) (data : List Byte) (ring : Option (Nat × Nat)) (i : Instr) :
    (t.loading lat tag ws kind opx opy data ring i).eng = t.eng := rfl
@[simp] theorem Tile.loading_outs (t : Tile) (lat : Nat) (tag : BitVec 3) (ws : List RegWrite) (kind : Nat) (opx : DWord)
    (opy : Word) (data : List Byte) (ring : Option (Nat × Nat)) (i : Instr) :
    (t.loading lat tag ws kind opx opy data ring i).outs = t.outs := rfl
@[simp] theorem Tile.loading_ins (t : Tile) (lat : Nat) (tag : BitVec 3) (ws : List RegWrite) (kind : Nat) (opx : DWord)
    (opy : Word) (data : List Byte) (ring : Option (Nat × Nat)) (i : Instr) :
    (t.loading lat tag ws kind opx opy data ring i).ins = t.ins := rfl
@[simp] theorem Tile.loading_trees (t : Tile) (lat : Nat) (tag : BitVec 3) (ws : List RegWrite) (kind : Nat) (opx : DWord)
    (opy : Word) (data : List Byte) (ring : Option (Nat × Nat)) (i : Instr) :
    (t.loading lat tag ws kind opx opy data ring i).trees = t.trees := rfl
@[simp] theorem Tile.loading_accs (t : Tile) (lat : Nat) (tag : BitVec 3) (ws : List RegWrite) (kind : Nat) (opx : DWord)
    (opy : Word) (data : List Byte) (ring : Option (Nat × Nat)) (i : Instr) :
    (t.loading lat tag ws kind opx opy data ring i).accs = t.accs := rfl
@[simp] theorem Tile.loading_guards (t : Tile) (lat : Nat) (tag : BitVec 3) (ws : List RegWrite) (kind : Nat) (opx : DWord)
    (opy : Word) (data : List Byte) (ring : Option (Nat × Nat)) (i : Instr) :
    (t.loading lat tag ws kind opx opy data ring i).guards = t.guards := rfl
@[simp] theorem Tile.loading_holds (t : Tile) (lat : Nat) (tag : BitVec 3) (ws : List RegWrite) (kind : Nat) (opx : DWord)
    (opy : Word) (data : List Byte) (ring : Option (Nat × Nat)) (i : Instr) :
    (t.loading lat tag ws kind opx opy data ring i).holds = t.holds := rfl
@[simp] theorem Tile.loading_lists (t : Tile) (lat : Nat) (tag : BitVec 3) (ws : List RegWrite) (kind : Nat) (opx : DWord)
    (opy : Word) (data : List Byte) (ring : Option (Nat × Nat)) (i : Instr) :
    (t.loading lat tag ws kind opx opy data ring i).lists = t.lists := rfl
@[simp] theorem Tile.loading_blocks (t : Tile) (lat : Nat) (tag : BitVec 3) (ws : List RegWrite) (kind : Nat) (opx : DWord)
    (opy : Word) (data : List Byte) (ring : Option (Nat × Nat)) (i : Instr) :
    (t.loading lat tag ws kind opx opy data ring i).blocks = t.blocks := rfl
@[simp] theorem Tile.loading_sends (t : Tile) (lat : Nat) (tag : BitVec 3) (ws : List RegWrite) (kind : Nat) (opx : DWord)
    (opy : Word) (data : List Byte) (ring : Option (Nat × Nat)) (i : Instr) :
    (t.loading lat tag ws kind opx opy data ring i).sends = t.sends := rfl
@[simp] theorem Tile.loading_pair (t : Tile) (lat : Nat) (tag : BitVec 3) (ws : List RegWrite) (kind : Nat) (opx : DWord)
    (opy : Word) (data : List Byte) (ring : Option (Nat × Nat)) (i : Instr) :
    (t.loading lat tag ws kind opx opy data ring i).pair = t.pair := rfl
@[simp] theorem Tile.loading_health (t : Tile) (lat : Nat) (tag : BitVec 3) (ws : List RegWrite) (kind : Nat) (opx : DWord)
    (opy : Word) (data : List Byte) (ring : Option (Nat × Nat)) (i : Instr) :
    (t.loading lat tag ws kind opx opy data ring i).health = t.health := rfl
@[simp] theorem Tile.loading_acks (t : Tile) (lat : Nat) (tag : BitVec 3) (ws : List RegWrite) (kind : Nat) (opx : DWord)
    (opy : Word) (data : List Byte) (ring : Option (Nat × Nat)) (i : Instr) :
    (t.loading lat tag ws kind opx opy data ring i).acks = t.acks := rfl
@[simp] theorem Tile.loading_out (t : Tile) (lat : Nat) (tag : BitVec 3) (ws : List RegWrite) (kind : Nat) (opx : DWord)
    (opy : Word) (data : List Byte) (ring : Option (Nat × Nat)) (i : Instr) :
    (t.loading lat tag ws kind opx opy data ring i).out = t.out := rfl
@[simp] theorem Tile.loading_recs (t : Tile) (lat : Nat) (tag : BitVec 3) (ws : List RegWrite) (kind : Nat) (opx : DWord)
    (opy : Word) (data : List Byte) (ring : Option (Nat × Nat)) (i : Instr) :
    (t.loading lat tag ws kind opx opy data ring i).recs = t.recs := rfl
@[simp] theorem Tile.loading_counts (t : Tile) (lat : Nat) (tag : BitVec 3) (ws : List RegWrite) (kind : Nat) (opx : DWord)
    (opy : Word) (data : List Byte) (ring : Option (Nat × Nat)) (i : Instr) :
    (t.loading lat tag ws kind opx opy data ring i).counts = t.counts := rfl
@[simp] theorem Tile.loading_inj (t : Tile) (lat : Nat) (tag : BitVec 3) (ws : List RegWrite) (kind : Nat) (opx : DWord)
    (opy : Word) (data : List Byte) (ring : Option (Nat × Nat)) (i : Instr) :
    (t.loading lat tag ws kind opx opy data ring i).inj = t.inj := rfl
@[simp] theorem Tile.loading_free (t : Tile) (lat : Nat) (tag : BitVec 3) (ws : List RegWrite) (kind : Nat) (opx : DWord)
    (opy : Word) (data : List Byte) (ring : Option (Nat × Nat)) (i : Instr) :
    (t.loading lat tag ws kind opx opy data ring i).free = t.free := rfl

@[simp] theorem Tile.queued_coord (t : Tile) (tag : BitVec 3) (act : PortAct) (delay : Nat) (i : Instr) :
    (t.queued tag act delay i).coord = t.coord := rfl
@[simp] theorem Tile.queued_pos (t : Tile) (tag : BitVec 3) (act : PortAct) (delay : Nat) (i : Instr) :
    (t.queued tag act delay i).pos = t.pos := rfl
@[simp] theorem Tile.queued_files (t : Tile) (tag : BitVec 3) (act : PortAct) (delay : Nat) (i : Instr) :
    (t.queued tag act delay i).files = t.files := rfl
@[simp] theorem Tile.queued_ctl (t : Tile) (tag : BitVec 3) (act : PortAct) (delay : Nat) (i : Instr) :
    (t.queued tag act delay i).ctl = t.ctl := rfl
@[simp] theorem Tile.queued_copy (t : Tile) (tag : BitVec 3) (act : PortAct) (delay : Nat) (i : Instr) :
    (t.queued tag act delay i).copy = t.copy := rfl
@[simp] theorem Tile.queued_eng (t : Tile) (tag : BitVec 3) (act : PortAct) (delay : Nat) (i : Instr) :
    (t.queued tag act delay i).eng = t.eng := rfl
@[simp] theorem Tile.queued_outs (t : Tile) (tag : BitVec 3) (act : PortAct) (delay : Nat) (i : Instr) :
    (t.queued tag act delay i).outs = t.outs := rfl
@[simp] theorem Tile.queued_ins (t : Tile) (tag : BitVec 3) (act : PortAct) (delay : Nat) (i : Instr) :
    (t.queued tag act delay i).ins = t.ins := rfl
@[simp] theorem Tile.queued_trees (t : Tile) (tag : BitVec 3) (act : PortAct) (delay : Nat) (i : Instr) :
    (t.queued tag act delay i).trees = t.trees := rfl
@[simp] theorem Tile.queued_accs (t : Tile) (tag : BitVec 3) (act : PortAct) (delay : Nat) (i : Instr) :
    (t.queued tag act delay i).accs = t.accs := rfl
@[simp] theorem Tile.queued_guards (t : Tile) (tag : BitVec 3) (act : PortAct) (delay : Nat) (i : Instr) :
    (t.queued tag act delay i).guards = t.guards := rfl
@[simp] theorem Tile.queued_holds (t : Tile) (tag : BitVec 3) (act : PortAct) (delay : Nat) (i : Instr) :
    (t.queued tag act delay i).holds = t.holds := rfl
@[simp] theorem Tile.queued_lists (t : Tile) (tag : BitVec 3) (act : PortAct) (delay : Nat) (i : Instr) :
    (t.queued tag act delay i).lists = t.lists := rfl
@[simp] theorem Tile.queued_blocks (t : Tile) (tag : BitVec 3) (act : PortAct) (delay : Nat) (i : Instr) :
    (t.queued tag act delay i).blocks = t.blocks := rfl
@[simp] theorem Tile.queued_sends (t : Tile) (tag : BitVec 3) (act : PortAct) (delay : Nat) (i : Instr) :
    (t.queued tag act delay i).sends = t.sends := rfl
@[simp] theorem Tile.queued_pair (t : Tile) (tag : BitVec 3) (act : PortAct) (delay : Nat) (i : Instr) :
    (t.queued tag act delay i).pair = t.pair := rfl
@[simp] theorem Tile.queued_health (t : Tile) (tag : BitVec 3) (act : PortAct) (delay : Nat) (i : Instr) :
    (t.queued tag act delay i).health = t.health := rfl
@[simp] theorem Tile.queued_acks (t : Tile) (tag : BitVec 3) (act : PortAct) (delay : Nat) (i : Instr) :
    (t.queued tag act delay i).acks = t.acks := rfl
@[simp] theorem Tile.queued_out (t : Tile) (tag : BitVec 3) (act : PortAct) (delay : Nat) (i : Instr) :
    (t.queued tag act delay i).out = t.out := rfl
@[simp] theorem Tile.queued_recs (t : Tile) (tag : BitVec 3) (act : PortAct) (delay : Nat) (i : Instr) :
    (t.queued tag act delay i).recs = t.recs := rfl
@[simp] theorem Tile.queued_counts (t : Tile) (tag : BitVec 3) (act : PortAct) (delay : Nat) (i : Instr) :
    (t.queued tag act delay i).counts = t.counts := rfl
@[simp] theorem Tile.queued_inj (t : Tile) (tag : BitVec 3) (act : PortAct) (delay : Nat) (i : Instr) :
    (t.queued tag act delay i).inj = t.inj := rfl
@[simp] theorem Tile.queued_free (t : Tile) (tag : BitVec 3) (act : PortAct) (delay : Nat) (i : Instr) :
    (t.queued tag act delay i).free = t.free := rfl

@[simp] theorem State.withCore_agenda (s : State) (t : Tile) : (s.withCore t).agenda = s.agenda := rfl
@[simp] theorem State.withCore_core (s : State) (t : Tile) : (s.withCore t).core = t := rfl
@[simp] theorem State.withCore_bundle (s : State) (t : Tile) : (s.withCore t).bundle = s.bundle := rfl
@[simp] theorem State.withCore_others (s : State) (t : Tile) : (s.withCore t).others = s.others := rfl
@[simp] theorem State.withCore_dev (s : State) (t : Tile) : (s.withCore t).dev = s.dev := rfl

@[simp] theorem State.withDev_agenda (s : State) (f : Device → Device) : (s.withDev f).agenda = s.agenda := rfl
@[simp] theorem State.withDev_core (s : State) (f : Device → Device) : (s.withDev f).core = s.core := rfl
@[simp] theorem State.withDev_bundle (s : State) (f : Device → Device) : (s.withDev f).bundle = s.bundle := rfl
@[simp] theorem State.withDev_others (s : State) (f : Device → Device) : (s.withDev f).others = s.others := rfl
@[simp] theorem State.withDev_dev (s : State) (f : Device → Device) : (s.withDev f).dev = f s.dev := rfl

@[simp] theorem State.push_agenda (s : State) (l : List Due) : (s.push l).agenda = s.agenda ++ l := rfl
@[simp] theorem State.push_core (s : State) (l : List Due) : (s.push l).core = s.core := rfl
@[simp] theorem State.push_bundle (s : State) (l : List Due) : (s.push l).bundle = s.bundle := rfl
@[simp] theorem State.push_others (s : State) (l : List Due) : (s.push l).others = s.others := rfl
@[simp] theorem State.push_dev (s : State) (l : List Due) : (s.push l).dev = s.dev := rfl

@[simp] theorem State.after_agenda (s : State) (i : Instr) (t : Tile) : (s.after i t).agenda = s.agenda := rfl
@[simp] theorem State.after_core (s : State) (i : Instr) (t : Tile) : (s.after i t).core = t.bump.close (encode i).length := rfl
@[simp] theorem State.after_bundle (s : State) (i : Instr) (t : Tile) : (s.after i t).bundle = s.bundle := rfl
@[simp] theorem State.after_others (s : State) (i : Instr) (t : Tile) : (s.after i t).others = s.others := rfl
@[simp] theorem State.after_dev (s : State) (i : Instr) (t : Tile) : (s.after i t).dev = s.dev := rfl

/-- A tag's allocation changes nothing but the list of the bundle's tags. -/
theorem Tile.allocTag_eq (t : Tile) (n : BitVec 3) :
    t.allocTag n = t.withSch fun c => { c with alloc := if n = 0#3 then c.alloc else n.toNat :: c.alloc } := by
  unfold Tile.allocTag
  split <;> simp [Tile.withSch, *]

@[simp] theorem Tile.allocTag_coord (t : Tile) (n : BitVec 3) : (t.allocTag n).coord = t.coord := by rw [Tile.allocTag_eq]; rfl
@[simp] theorem Tile.allocTag_pos (t : Tile) (n : BitVec 3) : (t.allocTag n).pos = t.pos := by rw [Tile.allocTag_eq]; rfl
@[simp] theorem Tile.allocTag_files (t : Tile) (n : BitVec 3) : (t.allocTag n).files = t.files := by rw [Tile.allocTag_eq]; rfl
@[simp] theorem Tile.allocTag_ctl (t : Tile) (n : BitVec 3) : (t.allocTag n).ctl = t.ctl := by rw [Tile.allocTag_eq]; rfl
@[simp] theorem Tile.allocTag_pad (t : Tile) (n : BitVec 3) : (t.allocTag n).pad = t.pad := by rw [Tile.allocTag_eq]; rfl
@[simp] theorem Tile.allocTag_copy (t : Tile) (n : BitVec 3) : (t.allocTag n).copy = t.copy := by rw [Tile.allocTag_eq]; rfl
@[simp] theorem Tile.allocTag_eng (t : Tile) (n : BitVec 3) : (t.allocTag n).eng = t.eng := by rw [Tile.allocTag_eq]; rfl
@[simp] theorem Tile.allocTag_outs (t : Tile) (n : BitVec 3) : (t.allocTag n).outs = t.outs := by rw [Tile.allocTag_eq]; rfl
@[simp] theorem Tile.allocTag_ins (t : Tile) (n : BitVec 3) : (t.allocTag n).ins = t.ins := by rw [Tile.allocTag_eq]; rfl
@[simp] theorem Tile.allocTag_trees (t : Tile) (n : BitVec 3) : (t.allocTag n).trees = t.trees := by rw [Tile.allocTag_eq]; rfl
@[simp] theorem Tile.allocTag_accs (t : Tile) (n : BitVec 3) : (t.allocTag n).accs = t.accs := by rw [Tile.allocTag_eq]; rfl
@[simp] theorem Tile.allocTag_guards (t : Tile) (n : BitVec 3) : (t.allocTag n).guards = t.guards := by rw [Tile.allocTag_eq]; rfl
@[simp] theorem Tile.allocTag_holds (t : Tile) (n : BitVec 3) : (t.allocTag n).holds = t.holds := by rw [Tile.allocTag_eq]; rfl
@[simp] theorem Tile.allocTag_lists (t : Tile) (n : BitVec 3) : (t.allocTag n).lists = t.lists := by rw [Tile.allocTag_eq]; rfl
@[simp] theorem Tile.allocTag_blocks (t : Tile) (n : BitVec 3) : (t.allocTag n).blocks = t.blocks := by rw [Tile.allocTag_eq]; rfl
@[simp] theorem Tile.allocTag_sends (t : Tile) (n : BitVec 3) : (t.allocTag n).sends = t.sends := by rw [Tile.allocTag_eq]; rfl
@[simp] theorem Tile.allocTag_pair (t : Tile) (n : BitVec 3) : (t.allocTag n).pair = t.pair := by rw [Tile.allocTag_eq]; rfl
@[simp] theorem Tile.allocTag_health (t : Tile) (n : BitVec 3) : (t.allocTag n).health = t.health := by rw [Tile.allocTag_eq]; rfl
@[simp] theorem Tile.allocTag_acks (t : Tile) (n : BitVec 3) : (t.allocTag n).acks = t.acks := by rw [Tile.allocTag_eq]; rfl
@[simp] theorem Tile.allocTag_out (t : Tile) (n : BitVec 3) : (t.allocTag n).out = t.out := by rw [Tile.allocTag_eq]; rfl
@[simp] theorem Tile.allocTag_recs (t : Tile) (n : BitVec 3) : (t.allocTag n).recs = t.recs := by rw [Tile.allocTag_eq]; rfl
@[simp] theorem Tile.allocTag_counts (t : Tile) (n : BitVec 3) : (t.allocTag n).counts = t.counts := by rw [Tile.allocTag_eq]; rfl
@[simp] theorem Tile.allocTag_inj (t : Tile) (n : BitVec 3) : (t.allocTag n).inj = t.inj := by rw [Tile.allocTag_eq]; rfl
@[simp] theorem Tile.allocTag_free (t : Tile) (n : BitVec 3) : (t.allocTag n).free = t.free := by rw [Tile.allocTag_eq]; rfl

end Sys2Proof.Machine
end

