-- ==== Sys2Proof/Laws/Loads.lean ====
section
/-! SUPPORT. What a load does that can be performed at once (R108, R236, R239): the spec lemmas of `perform` and `semLoad`. -/

namespace Sys2Proof.Machine

/-- A tag that may be named passes its check. -/
theorem Tile.needTag_free {t : Tile} {tag : BitVec 3} {f : DWord} (h : t.tagFree tag = true) : t.needTag tag f = .ok := by
  simp [Tile.needTag, need, h]

theorem Tile.Readable.alloc {t : Tile} {tag : BitVec 3} {l : List Nat} (h : t.Readable l) : (t.allocTag tag).Readable l := by
  unfold Tile.allocTag
  split <;> exact h

/-- The operand a load's operand block shows: the mask of a gather. -/
def LoadPlan.opx : LoadPlan → DWord
  | .gather l _ => BitVec.ofNat 64 (laneMask l).toNat
  | _ => 0#64

/-- A load that takes no granule and reads bytes that can all be read puts its result in flight, and does nothing else. -/
theorem Tile.perform_load {t : Tile} {seq lat : Nat} {tag : BitVec 3} {plan : LoadPlan} {info : SlotInfo} (hl : 1 ≤ lat)
    (h : t.Readable plan.addrs) :
    t.perform ⟨seq, t.sch.cycle, t.sch.cycle, .load tag lat plan [], info⟩ =
      t.withSch fun c => { c with flights := c.flights ++ [⟨seq, c.cycle + lat, tag, (plan.writes t).1, plan.ringSlot,
        (plan.writes t).2.1, plan.opx, firstWord (plan.writes t).1, (plan.writes t).2.2, info⟩] } := by
  have hr : Tile.Readable t (plan.addrs.filter (· < padSize)) := ⟨fun a ha => h.1 a (List.mem_filter.1 ha).1, h.2⟩
  have hf := hr.readPad (fun a ha => by simpa using (List.mem_filter.1 ha).2)
  have hm : Nat.max (t.sch.cycle + lat) (t.sch.cycle + 1) = t.sch.cycle + lat := by simp; omega
  simp only [Tile.perform, hf, Tile.launchFlight, Tile.setEmpty, List.isEmpty_nil, if_true, hm, Tile.withSch]
  cases plan <;> rfl

/-- A load that passes its checks behind no queued access: its result is in flight, and the bundle closes. -/
theorem runSlot_semLoad {i : Instr} {s : State} {h : Hdr} {kind : AKind} {size lat : Nat} {plan : Tile → Nat → LoadPlan}
    {bs : BitVec 4} {o : Imm 5 32} {q : BitVec 2} {tag : BitVec 3} {p : LoadPlan} (hs : s.Ready h.guard)
    (ht : s.core.tagFree tag = true) (hp : s.core.pad.queue = []) (hq : q ≠ 2#2)
    (h1 : accessCheck s.core kind size .spalign (q != 0#2) [itemOf (eaOf s.core size bs o) size] = .ok)
    (h2 : loadQual s.core q [itemOf (eaOf s.core size bs o) size] = .ok) (hl : 1 ≤ lat)
    (hpl : plan s.core (eaOf s.core size bs o) = p) (h3 : s.core.Readable p.addrs) :
    let w := p.writes (s.core.allocTag tag)
    runSlot i h (semLoad kind size lat plan bs o q tag) s =
      .next (s.after i (s.core.loading lat tag w.1 w.2.1 p.opx (firstWord w.1) w.2.2 p.ringSlot i)) := by
  intro w
  have e : ((semLoad kind size lat plan bs o q tag) (s.core.slotInfo i 0)).eff s.core s.core =
      s.core.loading lat tag w.1 w.2.1 p.opx (firstWord w.1) w.2.2 p.ringSlot i := by
    have hq' : (s.core.allocTag tag).pad.queue = [] := by rw [Tile.allocTag_eq]; exact hp
    simp only [semLoad, hpl, loadTakes, hq, if_false]
    rw [Tile.portA_now hq' rfl, Tile.perform_load hl h3.alloc]
    simp only [Tile.allocTag_eq, Tile.loading, Tile.withSch, w]
  rw [← e]
  apply runSlot_quiet hs rfl
  · simp [semLoad, Check.all, Tile.needTag_free ht, h1, h2]
  · rw [e]; exact hs.between.noClosing
  · rw [e]; exact hs.between.running
  · rw [e]; exact hs.between.noReports

end Sys2Proof.Machine
end

