-- ==== Sys2Proof/Laws/Memory.lean ====
section
/-! SUPPORT. The laws of memories and of sets of numbers: every operation keeps the canonical form, a byte written reads as
written, and every other byte as before. -/

namespace Sys2Proof.Machine

theorem Memory.wfFrom_mono {m : Memory} {a b : Nat} (h : Memory.wfFrom b m = true) (hab : a ≤ b) :
    Memory.wfFrom a m = true := by
  cases m with
  | nil => rfl
  | cons c m =>
    simp only [Memory.wfFrom, Bool.and_eq_true, decide_eq_true_eq] at h ⊢
    exact ⟨⟨by omega, h.1.2⟩, h.2⟩

/-- A byte written at or above a bound keeps the form above it. -/
theorem Memory.write_wfFrom {m : Memory} {lo x : Nat} {v : Byte} (h : Memory.wfFrom lo m = true) (hx : lo ≤ x) :
    Memory.wfFrom lo (m.write x v) = true := by
  induction m generalizing lo with
  | nil =>
    unfold Memory.write
    split <;> simp_all [Memory.wfFrom]
  | cons c m ih =>
    obtain ⟨a, b⟩ := c
    simp only [Memory.wfFrom, Bool.and_eq_true, decide_eq_true_eq] at h
    obtain ⟨⟨h1, h2⟩, h3⟩ := h
    unfold Memory.write
    split
    · next hlt =>
      split
      · simp [Memory.wfFrom, h1, h2, h3]
      · next hv => simp [Memory.wfFrom, hx, hv, h2, h3]; omega
    · split
      · next heq =>
        subst heq
        split
        · exact Memory.wfFrom_mono h3 (by omega)
        · next hv => simp [Memory.wfFrom, hx, hv, h3]
      · simp only [Memory.wfFrom, Bool.and_eq_true, decide_eq_true_eq]
        exact ⟨⟨h1, h2⟩, ih h3 (by omega)⟩

/-- Writing a byte keeps the canonical form. -/
theorem Memory.write_wf {m : Memory} (x : Nat) (v : Byte) (h : Memory.wf m = true) : Memory.wf (m.write x v) = true :=
  Memory.write_wfFrom h (Nat.zero_le x)

/-- Writing a run of bytes keeps the canonical form. -/
theorem Memory.put_wf {m : Memory} (a : Nat) (l : List Byte) (h : Memory.wf m = true) : Memory.wf (m.put a l) = true := by
  induction l generalizing m a with
  | nil => exact h
  | cons b l ih => exact ih _ (Memory.write_wf a b h)

/-- Writing a value keeps the canonical form. -/
theorem Memory.putVal_wf {m : Memory} (a n v : Nat) (h : Memory.wf m = true) : Memory.wf (m.putVal a n v) = true :=
  Memory.put_wf a _ h

/-- Writing cells keeps the canonical form. -/
theorem Memory.foldl_write_wf {m : Memory} (l : List (Nat × Byte)) (h : Memory.wf m = true) :
    Memory.wf (l.foldl (fun m c => m.write c.1 c.2) m) = true := by
  induction l generalizing m with
  | nil => exact h
  | cons c l ih => exact ih (Memory.write_wf c.1 c.2 h)

/-- The same for the scratchpad. -/
theorem Pad.writeCells_wf {p : Pad} (l : List (Nat × Byte)) (h : Memory.wf p.mem = true) :
    Memory.wf (p.writeCells l).mem = true := Memory.foldl_write_wf l h

/-- Taking cells away keeps the canonical form. -/
theorem Memory.filter_wf {m : Memory} {lo : Nat} (f : Host.Cell → Bool) (h : Memory.wfFrom lo m = true) :
    Memory.wfFrom lo (m.filter f) = true := by
  induction m generalizing lo with
  | nil => rfl
  | cons c m ih =>
    simp only [Memory.wfFrom, Bool.and_eq_true, decide_eq_true_eq] at h
    rw [List.filter_cons]
    split
    · simp only [Memory.wfFrom, Bool.and_eq_true, decide_eq_true_eq]
      exact ⟨h.1, ih h.2⟩
    · exact Memory.wfFrom_mono (ih h.2) (by omega)

/-- Below the bound of its form a memory reads as zero. -/
theorem Memory.read_below {m : Memory} {lo x : Nat} (h : Memory.wfFrom lo m = true) (hx : x < lo) : m.read x = 0#8 := by
  cases m with
  | nil => rfl
  | cons c m =>
    obtain ⟨a, b⟩ := c
    simp only [Memory.wfFrom, Bool.and_eq_true, decide_eq_true_eq] at h
    unfold Memory.read
    rw [if_neg (by omega), if_pos (by omega)]

/-- A byte written reads as written, every other byte as before. -/
theorem Memory.read_write {m : Memory} {lo : Nat} (h : Memory.wfFrom lo m = true) (x y : Nat) (v : Byte) :
    (m.write x v).read y = if y = x then v else m.read y := by
  induction m generalizing lo with
  | nil =>
    unfold Memory.write
    by_cases hy : y = x
    · subst hy; by_cases hv : v = 0#8 <;> simp [Memory.read, hv]
    · have hx : ¬ x = y := fun e => hy e.symm
      by_cases hv : v = 0#8 <;> simp [Memory.read, hv, hx, hy]
  | cons c m ih =>
    obtain ⟨a, b⟩ := c
    simp only [Memory.wfFrom, Bool.and_eq_true, decide_eq_true_eq] at h
    obtain ⟨⟨h1, h2⟩, h3⟩ := h
    have below : ∀ z, z < a + 1 → Memory.read m z = 0#8 := fun z hz => Memory.read_below h3 hz
    unfold Memory.write
    split
    · next hlt =>
      split
      · next hv =>
        by_cases hy : y = x
        · subst hy; rw [if_pos rfl, hv]; unfold Memory.read; rw [if_neg (by omega), if_pos hlt]
        · rw [if_neg hy]
      · by_cases hy : y = x
        · subst hy; simp [Memory.read]
        · rw [if_neg hy]
          by_cases hyx : y < x
          · have h1 : ¬ x = y := by omega
            have h2 : ¬ a = y := by omega
            have h3 : y < a := by omega
            simp [Memory.read, h1, h2, h3, hyx]
          · have h1 : ¬ x = y := by omega
            rw [Memory.read, if_neg h1, if_neg hyx]
    · split
      · next heq =>
        subst heq
        split
        · next hv =>
          by_cases hy : y = x
          · subst hy; rw [if_pos rfl, below y (by omega), hv]
          · rw [if_neg hy]
            by_cases hyx : y < x
            · rw [below y (by omega), Memory.read, if_neg (by omega), if_pos hyx]
            · rw [Memory.read, if_neg (by omega), if_neg hyx]
        · by_cases hy : y = x
          · subst hy; simp [Memory.read]
          · rw [if_neg hy]
            have h1 : ¬ x = y := by omega
            simp [Memory.read, h1]
      · next hn1 hn2 =>
        by_cases ha : a = y
        · subst ha
          rw [if_neg (by omega)]
          simp [Memory.read]
        · by_cases hlt : y < a
          · rw [Memory.read, if_neg ha, if_pos hlt, if_neg (by omega), Memory.read, if_neg ha, if_pos hlt]
          · rw [Memory.read, if_neg ha, if_neg hlt, ih h3, Memory.read, if_neg ha, if_neg hlt]

theorem NatSet.wfFrom_mono {l : NatSet} {a b : Nat} (h : NatSet.wfFrom b l = true) (hab : a ≤ b) :
    NatSet.wfFrom a l = true := by
  cases l with
  | nil => rfl
  | cons c l =>
    simp only [NatSet.wfFrom, Bool.and_eq_true, decide_eq_true_eq] at h ⊢
    exact ⟨by omega, h.2⟩

theorem NatSet.add_wfFrom {l : NatSet} {lo x : Nat} (h : NatSet.wfFrom lo l = true) (hx : lo ≤ x) :
    NatSet.wfFrom lo (NatSet.add l x) = true := by
  induction l generalizing lo with
  | nil => simp [NatSet.add, NatSet.wfFrom, hx]
  | cons a l ih =>
    simp only [NatSet.wfFrom, Bool.and_eq_true, decide_eq_true_eq] at h
    unfold NatSet.add
    split
    · simp [NatSet.wfFrom, hx, h.2]; omega
    · split
      · simp [NatSet.wfFrom, h.1, h.2]
      · simp only [NatSet.wfFrom, Bool.and_eq_true, decide_eq_true_eq]
        exact ⟨h.1, ih h.2 (by omega)⟩

theorem NatSet.del_wfFrom {l : NatSet} {lo : Nat} (x : Nat) (h : NatSet.wfFrom lo l = true) :
    NatSet.wfFrom lo (NatSet.del l x) = true := by
  induction l generalizing lo with
  | nil => rfl
  | cons a l ih =>
    simp only [NatSet.wfFrom, Bool.and_eq_true, decide_eq_true_eq] at h
    unfold NatSet.del
    split
    · simp [NatSet.wfFrom, h.1, h.2]
    · split
      · exact NatSet.wfFrom_mono h.2 (by omega)
      · simp only [NatSet.wfFrom, Bool.and_eq_true, decide_eq_true_eq]
        exact ⟨h.1, ih h.2⟩

/-- Putting a number into a set keeps its form. -/
theorem NatSet.add_wf {l : NatSet} (x : Nat) (h : NatSet.wf l = true) : NatSet.wf (NatSet.add l x) = true :=
  NatSet.add_wfFrom h (Nat.zero_le x)

/-- Taking a number out of a set keeps its form. -/
theorem NatSet.del_wf {l : NatSet} (x : Nat) (h : NatSet.wf l = true) : NatSet.wf (NatSet.del l x) = true :=
  NatSet.del_wfFrom x h

theorem NatSet.addAll_wf {l : NatSet} (xs : List Nat) (h : NatSet.wf l = true) : NatSet.wf (NatSet.addAll l xs) = true := by
  induction xs generalizing l with
  | nil => exact h
  | cons x xs ih => exact ih (NatSet.add_wf x h)

theorem NatSet.delAll_wf {l : NatSet} (xs : List Nat) (h : NatSet.wf l = true) : NatSet.wf (NatSet.delAll l xs) = true := by
  induction xs generalizing l with
  | nil => exact h
  | cons x xs ih => exact ih (NatSet.del_wf x h)

theorem NatSet.has_below {l : NatSet} {lo x : Nat} (h : NatSet.wfFrom lo l = true) (hx : x < lo) : l.has x = false := by
  cases l with
  | nil => rfl
  | cons a l =>
    simp only [NatSet.wfFrom, Bool.and_eq_true, decide_eq_true_eq] at h
    unfold NatSet.has
    rw [if_neg (by omega), if_pos (by omega)]

/-- A set holds what was put in and what it held. -/
theorem NatSet.has_add {l : NatSet} {lo : Nat} (h : NatSet.wfFrom lo l = true) (x y : Nat) :
    (NatSet.add l x).has y = (decide (y = x) || l.has y) := by
  induction l generalizing lo with
  | nil =>
    by_cases hy : y = x
    · subst hy; simp [NatSet.add, NatSet.has]
    · have hx : ¬ x = y := fun e => hy e.symm
      simp [NatSet.add, NatSet.has, hx, hy]
  | cons a l ih =>
    simp only [NatSet.wfFrom, Bool.and_eq_true, decide_eq_true_eq] at h
    unfold NatSet.add
    split
    · next hlt =>
      by_cases hy : y = x
      · subst hy; simp [NatSet.has]
      · by_cases hyx : y < x
        · have h1 : ¬ x = y := by omega
          have h2 : ¬ a = y := by omega
          have h3 : y < a := by omega
          simp [NatSet.has, h1, h2, h3, hyx, hy]
        · have h1 : ¬ x = y := by omega
          rw [NatSet.has, if_neg h1, if_neg hyx]; simp [hy]
    · split
      · next heq =>
        subst heq
        by_cases hy : y = x
        · subst hy; simp [NatSet.has]
        · simp [hy]
      · by_cases ha : a = y
        · subst ha; simp [NatSet.has]
        · by_cases hlt : y < a
          · have hy : ¬ y = x := by omega
            rw [NatSet.has, if_neg ha, if_pos hlt, NatSet.has, if_neg ha, if_pos hlt]; simp [hy]
          · rw [NatSet.has, if_neg ha, if_neg hlt, ih h.2, NatSet.has, if_neg ha, if_neg hlt]

/-- A set without a number holds the others. -/
theorem NatSet.has_del {l : NatSet} {lo : Nat} (h : NatSet.wfFrom lo l = true) (x y : Nat) :
    (NatSet.del l x).has y = (!decide (y = x) && l.has y) := by
  induction l generalizing lo with
  | nil => simp [NatSet.del, NatSet.has]
  | cons a l ih =>
    simp only [NatSet.wfFrom, Bool.and_eq_true, decide_eq_true_eq] at h
    unfold NatSet.del
    split
    · by_cases hy : y = x
      · subst hy; rw [NatSet.has, if_neg (by omega), if_pos (by omega)]; simp
      · simp [hy]
    · split
      · next heq =>
        subst heq
        by_cases hy : y = x
        · subst hy; rw [NatSet.has_below h.2 (by omega)]; simp
        · by_cases hyx : y < x
          · rw [NatSet.has_below h.2 (by omega), NatSet.has, if_neg (by omega), if_pos hyx]; simp
          · have h1 : ¬ x = y := by omega
            conv_rhs => rw [NatSet.has, if_neg h1, if_neg hyx]
            simp [hy]
      · by_cases ha : a = y
        · subst ha
          have hx : ¬ a = x := by omega
          simp [NatSet.has, hx]
        · by_cases hlt : y < a
          · rw [NatSet.has, if_neg ha, if_pos hlt, NatSet.has, if_neg ha, if_pos hlt]; simp
          · rw [NatSet.has, if_neg ha, if_neg hlt, ih h.2, NatSet.has, if_neg ha, if_neg hlt]

/-- Reset's memories have the form. -/
theorem Pad.zero_wf : Memory.wf Pad.zero.mem = true ∧ Memory.wf Pad.zero.code = true ∧ NatSet.wf Pad.zero.full = true :=
  ⟨rfl, rfl, rfl⟩

end Sys2Proof.Machine
end

