-- ==== Sys2Proof/Laws/PerInstr.lean ====
section
/-! SUPPORT. How many words each instruction takes (R190, R191): a slot one, or two with its Y slot; a device step none. -/

namespace Sys2Proof.Laws

/-- A slot has an encoding of one or two words, a device step none. -/
def EncodedSize.Statement (i : Instr) : Prop :=
  (encode i).length ≤ 2 ∧ (i.hdr.isSome = true ↔ encode i ≠ [])

theorem slotWords_size (h : Hdr) (k : BitVec 9) (y : Option (BitVec 28)) (b : Word) :
    (slotWords h k y b).length ≤ 2 ∧ slotWords h k y b ≠ [] := by
  cases y <;> simp [slotWords]

/-- An instruction encoded as a slot with a header. -/
theorem EncodedSize.of_slot {i : Instr} {h : Hdr} {k : BitVec 9} {y : Option (BitVec 28)} {b : Word}
    (e : encode i = slotWords h k y b) (hh : i.hdr.isSome = true) : EncodedSize.Statement i := by
  have hs := slotWords_size h k y b
  unfold EncodedSize.Statement
  rw [e]
  exact ⟨hs.1, fun _ => hs.2, fun _ => hh⟩

/-- A device step, which has neither a header nor an encoding. -/
theorem EncodedSize.of_step {i : Instr} (e : encode i = []) (hh : i.hdr = none) : EncodedSize.Statement i := by
  unfold EncodedSize.Statement
  rw [e, hh]
  simp

theorem EncodedSize.nop (h : Hdr) :
    EncodedSize.Statement (Instr.nop h) :=
  EncodedSize.of_slot (by unfold encode; exact rfl) rfl
theorem EncodedSize.add (h : Hdr) (d a b : BitVec 5) :
    EncodedSize.Statement (Instr.add h d a b) :=
  EncodedSize.of_slot (by unfold encode; exact rfl) rfl
theorem EncodedSize.sub (h : Hdr) (d a b : BitVec 5) :
    EncodedSize.Statement (Instr.sub h d a b) :=
  EncodedSize.of_slot (by unfold encode; exact rfl) rfl
theorem EncodedSize.and (h : Hdr) (d a b : BitVec 5) :
    EncodedSize.Statement (Instr.and h d a b) :=
  EncodedSize.of_slot (by unfold encode; exact rfl) rfl
theorem EncodedSize.or (h : Hdr) (d a b : BitVec 5) :
    EncodedSize.Statement (Instr.or h d a b) :=
  EncodedSize.of_slot (by unfold encode; exact rfl) rfl
theorem EncodedSize.xor (h : Hdr) (d a b : BitVec 5) :
    EncodedSize.Statement (Instr.xor h d a b) :=
  EncodedSize.of_slot (by unfold encode; exact rfl) rfl
theorem EncodedSize.andn (h : Hdr) (d a b : BitVec 5) :
    EncodedSize.Statement (Instr.andn h d a b) :=
  EncodedSize.of_slot (by unfold encode; exact rfl) rfl
theorem EncodedSize.shl (h : Hdr) (d a b : BitVec 5) :
    EncodedSize.Statement (Instr.shl h d a b) :=
  EncodedSize.of_slot (by unfold encode; exact rfl) rfl
theorem EncodedSize.shr (h : Hdr) (d a b : BitVec 5) :
    EncodedSize.Statement (Instr.shr h d a b) :=
  EncodedSize.of_slot (by unfold encode; exact rfl) rfl
theorem EncodedSize.sar (h : Hdr) (d a b : BitVec 5) :
    EncodedSize.Statement (Instr.sar h d a b) :=
  EncodedSize.of_slot (by unfold encode; exact rfl) rfl
theorem EncodedSize.rotl (h : Hdr) (d a b : BitVec 5) :
    EncodedSize.Statement (Instr.rotl h d a b) :=
  EncodedSize.of_slot (by unfold encode; exact rfl) rfl
theorem EncodedSize.mul (h : Hdr) (d a b : BitVec 5) (u : Bool) :
    EncodedSize.Statement (Instr.mul h d a b u) :=
  EncodedSize.of_slot (by unfold encode; exact rfl) rfl
theorem EncodedSize.mulh (h : Hdr) (d a b : BitVec 5) (u : Bool) :
    EncodedSize.Statement (Instr.mulh h d a b u) :=
  EncodedSize.of_slot (by unfold encode; exact rfl) rfl
theorem EncodedSize.min (h : Hdr) (d a b : BitVec 5) (u : Bool) :
    EncodedSize.Statement (Instr.min h d a b u) :=
  EncodedSize.of_slot (by unfold encode; exact rfl) rfl
theorem EncodedSize.max (h : Hdr) (d a b : BitVec 5) (u : Bool) :
    EncodedSize.Statement (Instr.max h d a b u) :=
  EncodedSize.of_slot (by unfold encode; exact rfl) rfl
theorem EncodedSize.cmp (h : Hdr) (p : BitVec 3) (a b : BitVec 5) (cond : BitVec 4) :
    EncodedSize.Statement (Instr.cmp h p a b cond) :=
  EncodedSize.of_slot (by unfold encode; exact rfl) rfl
theorem EncodedSize.sel (h : Hdr) (d a b : BitVec 5) (p : BitVec 3) :
    EncodedSize.Statement (Instr.sel h d a b p) :=
  EncodedSize.of_slot (by unfold encode; exact rfl) rfl
theorem EncodedSize.clz (h : Hdr) (d a : BitVec 5) :
    EncodedSize.Statement (Instr.clz h d a) :=
  EncodedSize.of_slot (by unfold encode; exact rfl) rfl
theorem EncodedSize.ctz (h : Hdr) (d a : BitVec 5) :
    EncodedSize.Statement (Instr.ctz h d a) :=
  EncodedSize.of_slot (by unfold encode; exact rfl) rfl
theorem EncodedSize.popc (h : Hdr) (d a : BitVec 5) :
    EncodedSize.Statement (Instr.popc h d a) :=
  EncodedSize.of_slot (by unfold encode; exact rfl) rfl
theorem EncodedSize.brev (h : Hdr) (d a : BitVec 5) :
    EncodedSize.Statement (Instr.brev h d a) :=
  EncodedSize.of_slot (by unfold encode; exact rfl) rfl
theorem EncodedSize.bfx (h : Hdr) (d a b : BitVec 5) (sx : Bool) :
    EncodedSize.Statement (Instr.bfx h d a b sx) :=
  EncodedSize.of_slot (by unfold encode; exact rfl) rfl
theorem EncodedSize.bfi (h : Hdr) (d a b : BitVec 5) :
    EncodedSize.Statement (Instr.bfi h d a b) :=
  EncodedSize.of_slot (by unfold encode; exact rfl) rfl
theorem EncodedSize.div (h : Hdr) (d a b : BitVec 5) (t : BitVec 3) (u : Bool) :
    EncodedSize.Statement (Instr.div h d a b t u) :=
  EncodedSize.of_slot (by unfold encode; exact rfl) rfl
theorem EncodedSize.rem (h : Hdr) (d a b : BitVec 5) (t : BitVec 3) (u : Bool) :
    EncodedSize.Statement (Instr.rem h d a b t u) :=
  EncodedSize.of_slot (by unfold encode; exact rfl) rfl
theorem EncodedSize.addi (h : Hdr) (d a : BitVec 5) (i : Imm 9 32) :
    EncodedSize.Statement (Instr.addi h d a i) :=
  EncodedSize.of_slot (by unfold encode; exact rfl) rfl
theorem EncodedSize.andi (h : Hdr) (d a : BitVec 5) (i : Imm 9 32) :
    EncodedSize.Statement (Instr.andi h d a i) :=
  EncodedSize.of_slot (by unfold encode; exact rfl) rfl
theorem EncodedSize.ori (h : Hdr) (d a : BitVec 5) (i : Imm 9 32) :
    EncodedSize.Statement (Instr.ori h d a i) :=
  EncodedSize.of_slot (by unfold encode; exact rfl) rfl
theorem EncodedSize.xori (h : Hdr) (d a : BitVec 5) (i : Imm 9 32) :
    EncodedSize.Statement (Instr.xori h d a i) :=
  EncodedSize.of_slot (by unfold encode; exact rfl) rfl
theorem EncodedSize.shli (h : Hdr) (d a k : BitVec 5) :
    EncodedSize.Statement (Instr.shli h d a k) :=
  EncodedSize.of_slot (by unfold encode; exact rfl) rfl
theorem EncodedSize.shri (h : Hdr) (d a k : BitVec 5) :
    EncodedSize.Statement (Instr.shri h d a k) :=
  EncodedSize.of_slot (by unfold encode; exact rfl) rfl
theorem EncodedSize.sari (h : Hdr) (d a k : BitVec 5) :
    EncodedSize.Statement (Instr.sari h d a k) :=
  EncodedSize.of_slot (by unfold encode; exact rfl) rfl
theorem EncodedSize.cmpeqi (h : Hdr) (p : BitVec 3) (a : BitVec 5) (i : Imm 9 32) :
    EncodedSize.Statement (Instr.cmpeqi h p a i) :=
  EncodedSize.of_slot (by unfold encode; exact rfl) rfl
theorem EncodedSize.cmplti (h : Hdr) (p : BitVec 3) (a : BitVec 5) (i : Imm 9 32) :
    EncodedSize.Statement (Instr.cmplti h p a i) :=
  EncodedSize.of_slot (by unfold encode; exact rfl) rfl
theorem EncodedSize.cmpltui (h : Hdr) (p : BitVec 3) (a : BitVec 5) (i : Imm 9 32) :
    EncodedSize.Statement (Instr.cmpltui h p a i) :=
  EncodedSize.of_slot (by unfold encode; exact rfl) rfl
theorem EncodedSize.muli (h : Hdr) (d a : BitVec 5) (i : Imm 9 32) :
    EncodedSize.Statement (Instr.muli h d a i) :=
  EncodedSize.of_slot (by unfold encode; exact rfl) rfl
theorem EncodedSize.movi (h : Hdr) (d : BitVec 5) (i : Imm 14 32) :
    EncodedSize.Statement (Instr.movi h d i) :=
  EncodedSize.of_slot (by unfold encode; exact rfl) rfl
theorem EncodedSize.movhi (h : Hdr) (d : BitVec 5) (i : BitVec 14) :
    EncodedSize.Statement (Instr.movhi h d i) :=
  EncodedSize.of_slot (by unfold encode; exact rfl) rfl
theorem EncodedSize.xtoa (h : Hdr) (d : BitVec 4) (a : BitVec 5) :
    EncodedSize.Statement (Instr.xtoa h d a) :=
  EncodedSize.of_slot (by unfold encode; exact rfl) rfl
theorem EncodedSize.atox (h : Hdr) (d : BitVec 5) (a : BitVec 4) :
    EncodedSize.Statement (Instr.atox h d a) :=
  EncodedSize.of_slot (by unfold encode; exact rfl) rfl
theorem EncodedSize.xtov (h : Hdr) (d a : BitVec 5) (lane : BitVec 4) :
    EncodedSize.Statement (Instr.xtov h d a lane) :=
  EncodedSize.of_slot (by unfold encode; exact rfl) rfl
theorem EncodedSize.vtox (h : Hdr) (d a : BitVec 5) (lane : BitVec 4) :
    EncodedSize.Statement (Instr.vtox h d a lane) :=
  EncodedSize.of_slot (by unfold encode; exact rfl) rfl
theorem EncodedSize.xtop (h : Hdr) (p : BitVec 3) (a : BitVec 5) :
    EncodedSize.Statement (Instr.xtop h p a) :=
  EncodedSize.of_slot (by unfold encode; exact rfl) rfl
theorem EncodedSize.ptox (h : Hdr) (d : BitVec 5) (p : BitVec 3) :
    EncodedSize.Statement (Instr.ptox h d p) :=
  EncodedSize.of_slot (by unfold encode; exact rfl) rfl
theorem EncodedSize.ldb (h : Hdr) (s : BitVec 5) (bs : BitVec 4) (o : Imm 5 32) (q : BitVec 2) (t : BitVec 3) :
    EncodedSize.Statement (Instr.ldb h s bs o q t) :=
  EncodedSize.of_slot (by unfold encode; exact rfl) rfl
theorem EncodedSize.ldbu (h : Hdr) (s : BitVec 5) (bs : BitVec 4) (o : Imm 5 32) (q : BitVec 2) (t : BitVec 3) :
    EncodedSize.Statement (Instr.ldbu h s bs o q t) :=
  EncodedSize.of_slot (by unfold encode; exact rfl) rfl
theorem EncodedSize.ldh (h : Hdr) (s : BitVec 5) (bs : BitVec 4) (o : Imm 5 32) (q : BitVec 2) (t : BitVec 3) :
    EncodedSize.Statement (Instr.ldh h s bs o q t) :=
  EncodedSize.of_slot (by unfold encode; exact rfl) rfl
theorem EncodedSize.ldhu (h : Hdr) (s : BitVec 5) (bs : BitVec 4) (o : Imm 5 32) (q : BitVec 2) (t : BitVec 3) :
    EncodedSize.Statement (Instr.ldhu h s bs o q t) :=
  EncodedSize.of_slot (by unfold encode; exact rfl) rfl
theorem EncodedSize.ldw (h : Hdr) (s : BitVec 5) (bs : BitVec 4) (o : Imm 5 32) (q : BitVec 2) (t : BitVec 3) :
    EncodedSize.Statement (Instr.ldw h s bs o q t) :=
  EncodedSize.of_slot (by unfold encode; exact rfl) rfl
theorem EncodedSize.stb (h : Hdr) (s : BitVec 5) (bs : BitVec 4) (o : Imm 5 32) (q : BitVec 2) :
    EncodedSize.Statement (Instr.stb h s bs o q) :=
  EncodedSize.of_slot (by unfold encode; exact rfl) rfl
theorem EncodedSize.sth (h : Hdr) (s : BitVec 5) (bs : BitVec 4) (o : Imm 5 32) (q : BitVec 2) :
    EncodedSize.Statement (Instr.sth h s bs o q) :=
  EncodedSize.of_slot (by unfold encode; exact rfl) rfl
theorem EncodedSize.stw (h : Hdr) (s : BitVec 5) (bs : BitVec 4) (o : Imm 5 32) (q : BitVec 2) :
    EncodedSize.Statement (Instr.stw h s bs o q) :=
  EncodedSize.of_slot (by unfold encode; exact rfl) rfl
theorem EncodedSize.ldv (h : Hdr) (s : BitVec 5) (bs : BitVec 4) (o : Imm 5 32) (q : BitVec 2) (t : BitVec 3) :
    EncodedSize.Statement (Instr.ldv h s bs o q t) :=
  EncodedSize.of_slot (by unfold encode; exact rfl) rfl
theorem EncodedSize.stv (h : Hdr) (s : BitVec 5) (bs : BitVec 4) (o : Imm 5 32) (q : BitVec 2) :
    EncodedSize.Statement (Instr.stv h s bs o q) :=
  EncodedSize.of_slot (by unfold encode; exact rfl) rfl
theorem EncodedSize.ldvb (h : Hdr) (s : BitVec 5) (bs : BitVec 4) (o : Imm 5 32) (q : BitVec 2) (t : BitVec 3) :
    EncodedSize.Statement (Instr.ldvb h s bs o q t) :=
  EncodedSize.of_slot (by unfold encode; exact rfl) rfl
theorem EncodedSize.ldvg (h : Hdr) (s : BitVec 5) (bs : BitVec 4) (o : BitVec 5) (q : BitVec 2) (t : BitVec 3) :
    EncodedSize.Statement (Instr.ldvg h s bs o q t) :=
  EncodedSize.of_slot (by unfold encode; exact rfl) rfl
theorem EncodedSize.stvg (h : Hdr) (s : BitVec 5) (bs : BitVec 4) (o : BitVec 5) (q : BitVec 2) :
    EncodedSize.Statement (Instr.stvg h s bs o q) :=
  EncodedSize.of_slot (by unfold encode; exact rfl) rfl
theorem EncodedSize.ldt (h : Hdr) (r : TileRef) (bs : BitVec 4) (o : Imm 4 32) (col : Bool) (q : BitVec 2) (t : BitVec 3) :
    EncodedSize.Statement (Instr.ldt h r bs o col q t) :=
  EncodedSize.of_slot (by unfold encode; exact rfl) rfl
theorem EncodedSize.stt (h : Hdr) (r : TileRef) (bs : BitVec 4) (o : Imm 4 32) (col : Bool) (q : BitVec 2) :
    EncodedSize.Statement (Instr.stt h r bs o col q) :=
  EncodedSize.of_slot (by unfold encode; exact rfl) rfl
theorem EncodedSize.spill (h : Hdr) (f : BitVec 5) (bs n : BitVec 4) (c : BitVec 2) (t : BitVec 3) :
    EncodedSize.Statement (Instr.spill h f bs n c t) :=
  EncodedSize.of_slot (by unfold encode; exact rfl) rfl
theorem EncodedSize.fill (h : Hdr) (f : BitVec 5) (bs n : BitVec 4) (c : BitVec 2) (t : BitVec 3) :
    EncodedSize.Statement (Instr.fill h f bs n c t) :=
  EncodedSize.of_slot (by unfold encode; exact rfl) rfl
theorem EncodedSize.aadd (h : Hdr) (d : BitVec 5) (bs : BitVec 4) (a : BitVec 5) (o : Imm 2 30) (t : BitVec 3) :
    EncodedSize.Statement (Instr.aadd h d bs a o t) :=
  EncodedSize.of_slot (by unfold encode; exact rfl) rfl
theorem EncodedSize.aand (h : Hdr) (d : BitVec 5) (bs : BitVec 4) (a : BitVec 5) (o : Imm 2 30) (t : BitVec 3) :
    EncodedSize.Statement (Instr.aand h d bs a o t) :=
  EncodedSize.of_slot (by unfold encode; exact rfl) rfl
theorem EncodedSize.aor (h : Hdr) (d : BitVec 5) (bs : BitVec 4) (a : BitVec 5) (o : Imm 2 30) (t : BitVec 3) :
    EncodedSize.Statement (Instr.aor h d bs a o t) :=
  EncodedSize.of_slot (by unfold encode; exact rfl) rfl
theorem EncodedSize.axor (h : Hdr) (d : BitVec 5) (bs : BitVec 4) (a : BitVec 5) (o : Imm 2 30) (t : BitVec 3) :
    EncodedSize.Statement (Instr.axor h d bs a o t) :=
  EncodedSize.of_slot (by unfold encode; exact rfl) rfl
theorem EncodedSize.amin (h : Hdr) (d : BitVec 5) (bs : BitVec 4) (a : BitVec 5) (o : Imm 2 30) (t : BitVec 3) :
    EncodedSize.Statement (Instr.amin h d bs a o t) :=
  EncodedSize.of_slot (by unfold encode; exact rfl) rfl
theorem EncodedSize.amax (h : Hdr) (d : BitVec 5) (bs : BitVec 4) (a : BitVec 5) (o : Imm 2 30) (t : BitVec 3) :
    EncodedSize.Statement (Instr.amax h d bs a o t) :=
  EncodedSize.of_slot (by unfold encode; exact rfl) rfl
theorem EncodedSize.aminu (h : Hdr) (d : BitVec 5) (bs : BitVec 4) (a : BitVec 5) (o : Imm 2 30) (t : BitVec 3) :
    EncodedSize.Statement (Instr.aminu h d bs a o t) :=
  EncodedSize.of_slot (by unfold encode; exact rfl) rfl
theorem EncodedSize.amaxu (h : Hdr) (d : BitVec 5) (bs : BitVec 4) (a : BitVec 5) (o : Imm 2 30) (t : BitVec 3) :
    EncodedSize.Statement (Instr.amaxu h d bs a o t) :=
  EncodedSize.of_slot (by unfold encode; exact rfl) rfl
theorem EncodedSize.afadd (h : Hdr) (d : BitVec 5) (bs : BitVec 4) (a : BitVec 5) (o : Imm 2 30) (t : BitVec 3) :
    EncodedSize.Statement (Instr.afadd h d bs a o t) :=
  EncodedSize.of_slot (by unfold encode; exact rfl) rfl
theorem EncodedSize.aswap (h : Hdr) (d : BitVec 5) (bs : BitVec 4) (a : BitVec 5) (o : Imm 2 30) (t : BitVec 3) :
    EncodedSize.Statement (Instr.aswap h d bs a o t) :=
  EncodedSize.of_slot (by unfold encode; exact rfl) rfl
theorem EncodedSize.acas (h : Hdr) (d : BitVec 5) (bs : BitVec 4) (a : BitVec 5) (o : Imm 2 30) (t : BitVec 3) :
    EncodedSize.Statement (Instr.acas h d bs a o t) :=
  EncodedSize.of_slot (by unfold encode; exact rfl) rfl
theorem EncodedSize.barinit (h : Hdr) (s : BitVec 5) (bs : BitVec 4) (o : Imm 5 32) :
    EncodedSize.Statement (Instr.barinit h s bs o) :=
  EncodedSize.of_slot (by unfold encode; exact rfl) rfl
theorem EncodedSize.bararr (h : Hdr) (s : BitVec 5) (bs : BitVec 4) (o : Imm 5 32) (t : BitVec 3) :
    EncodedSize.Statement (Instr.bararr h s bs o t) :=
  EncodedSize.of_slot (by unfold encode; exact rfl) rfl
theorem EncodedSize.bartxAdd (h : Hdr) (s : BitVec 5) (bs : BitVec 4) (o : Imm 5 32) :
    EncodedSize.Statement (Instr.bartxAdd h s bs o) :=
  EncodedSize.of_slot (by unfold encode; exact rfl) rfl
theorem EncodedSize.bartxDec (h : Hdr) (s : BitVec 5) (bs : BitVec 4) (o : Imm 5 32) :
    EncodedSize.Statement (Instr.bartxDec h s bs o) :=
  EncodedSize.of_slot (by unfold encode; exact rfl) rfl
theorem EncodedSize.barwait (h : Hdr) (s : BitVec 5) (bs : BitVec 4) (o : Imm 5 32) :
    EncodedSize.Statement (Instr.barwait h s bs o) :=
  EncodedSize.of_slot (by unfold encode; exact rfl) rfl
theorem EncodedSize.barrd (h : Hdr) (s : BitVec 5) (bs : BitVec 4) (o : Imm 5 32) (k : BitVec 2) (t : BitVec 3) :
    EncodedSize.Statement (Instr.barrd h s bs o k t) :=
  EncodedSize.of_slot (by unfold encode; exact rfl) rfl
theorem EncodedSize.feset (h : Hdr) (s : BitVec 5) (bs : BitVec 4) (o : Imm 5 32) :
    EncodedSize.Statement (Instr.feset h s bs o) :=
  EncodedSize.of_slot (by unfold encode; exact rfl) rfl
theorem EncodedSize.feclr (h : Hdr) (s : BitVec 5) (bs : BitVec 4) (o : Imm 5 32) :
    EncodedSize.Statement (Instr.feclr h s bs o) :=
  EncodedSize.of_slot (by unfold encode; exact rfl) rfl
theorem EncodedSize.ferd (h : Hdr) (s : BitVec 5) (bs : BitVec 4) (o : Imm 5 32) (t : BitVec 3) :
    EncodedSize.Statement (Instr.ferd h s bs o t) :=
  EncodedSize.of_slot (by unfold encode; exact rfl) rfl
theorem EncodedSize.bldw (h : Hdr) (s : BitVec 5) (bs : BitVec 4) (bb t : BitVec 3) :
    EncodedSize.Statement (Instr.bldw h s bs bb t) :=
  EncodedSize.of_slot (by unfold encode; exact rfl) rfl
theorem EncodedSize.bldd (h : Hdr) (s : BitVec 5) (bs : BitVec 4) (bb t : BitVec 3) :
    EncodedSize.Statement (Instr.bldd h s bs bb t) :=
  EncodedSize.of_slot (by unfold encode; exact rfl) rfl
theorem EncodedSize.bstw (h : Hdr) (s : BitVec 5) (bs : BitVec 4) (bb t : BitVec 3) :
    EncodedSize.Statement (Instr.bstw h s bs bb t) :=
  EncodedSize.of_slot (by unfold encode; exact rfl) rfl
theorem EncodedSize.bstd (h : Hdr) (s : BitVec 5) (bs : BitVec 4) (bb t : BitVec 3) :
    EncodedSize.Statement (Instr.bstd h s bs bb t) :=
  EncodedSize.of_slot (by unfold encode; exact rfl) rfl
theorem EncodedSize.lea (h : Hdr) (d a : BitVec 4) (i : Imm 11 32) :
    EncodedSize.Statement (Instr.lea h d a i) :=
  EncodedSize.of_slot (by unfold encode; exact rfl) rfl
theorem EncodedSize.adda (h : Hdr) (d a : BitVec 4) (s : BitVec 5) (sh : BitVec 2) :
    EncodedSize.Statement (Instr.adda h d a s sh) :=
  EncodedSize.of_slot (by unfold encode; exact rfl) rfl
theorem EncodedSize.vadd (h : Hdr) (d a b : BitVec 5) (t : BitVec 3) (n : Bool) :
    EncodedSize.Statement (Instr.vadd h d a b t n) :=
  EncodedSize.of_slot (by unfold encode; exact rfl) rfl
theorem EncodedSize.vsub (h : Hdr) (d a b : BitVec 5) (t : BitVec 3) (n : Bool) :
    EncodedSize.Statement (Instr.vsub h d a b t n) :=
  EncodedSize.of_slot (by unfold encode; exact rfl) rfl
theorem EncodedSize.vmul (h : Hdr) (d a b : BitVec 5) (t : BitVec 3) (n : Bool) :
    EncodedSize.Statement (Instr.vmul h d a b t n) :=
  EncodedSize.of_slot (by unfold encode; exact rfl) rfl
theorem EncodedSize.vfma (h : Hdr) (d a b : BitVec 5) (t : BitVec 3) (n : Bool) :
    EncodedSize.Statement (Instr.vfma h d a b t n) :=
  EncodedSize.of_slot (by unfold encode; exact rfl) rfl
theorem EncodedSize.vfms (h : Hdr) (d a b : BitVec 5) (t : BitVec 3) (n : Bool) :
    EncodedSize.Statement (Instr.vfms h d a b t n) :=
  EncodedSize.of_slot (by unfold encode; exact rfl) rfl
theorem EncodedSize.vfnma (h : Hdr) (d a b : BitVec 5) (t : BitVec 3) (n : Bool) :
    EncodedSize.Statement (Instr.vfnma h d a b t n) :=
  EncodedSize.of_slot (by unfold encode; exact rfl) rfl
theorem EncodedSize.vdiv (h : Hdr) (d a b : BitVec 5) (t : BitVec 3) (n : Bool) :
    EncodedSize.Statement (Instr.vdiv h d a b t n) :=
  EncodedSize.of_slot (by unfold encode; exact rfl) rfl
theorem EncodedSize.vsqrt (h : Hdr) (d a : BitVec 5) (t : BitVec 3) (n : Bool) :
    EncodedSize.Statement (Instr.vsqrt h d a t n) :=
  EncodedSize.of_slot (by unfold encode; exact rfl) rfl
theorem EncodedSize.vrsqrt (h : Hdr) (d a : BitVec 5) (t : BitVec 3) (n : Bool) :
    EncodedSize.Statement (Instr.vrsqrt h d a t n) :=
  EncodedSize.of_slot (by unfold encode; exact rfl) rfl
theorem EncodedSize.vrcp (h : Hdr) (d a : BitVec 5) (t : BitVec 3) (n : Bool) :
    EncodedSize.Statement (Instr.vrcp h d a t n) :=
  EncodedSize.of_slot (by unfold encode; exact rfl) rfl
theorem EncodedSize.vmin (h : Hdr) (d a b : BitVec 5) (t : BitVec 3) (n : Bool) :
    EncodedSize.Statement (Instr.vmin h d a b t n) :=
  EncodedSize.of_slot (by unfold encode; exact rfl) rfl
theorem EncodedSize.vmax (h : Hdr) (d a b : BitVec 5) (t : BitVec 3) (n : Bool) :
    EncodedSize.Statement (Instr.vmax h d a b t n) :=
  EncodedSize.of_slot (by unfold encode; exact rfl) rfl
theorem EncodedSize.vabs (h : Hdr) (d a : BitVec 5) (t : BitVec 3) (n : Bool) :
    EncodedSize.Statement (Instr.vabs h d a t n) :=
  EncodedSize.of_slot (by unfold encode; exact rfl) rfl
theorem EncodedSize.vneg (h : Hdr) (d a : BitVec 5) (t : BitVec 3) (n : Bool) :
    EncodedSize.Statement (Instr.vneg h d a t n) :=
  EncodedSize.of_slot (by unfold encode; exact rfl) rfl
theorem EncodedSize.vmaxa (h : Hdr) (d a b : BitVec 5) (t : BitVec 3) (n : Bool) :
    EncodedSize.Statement (Instr.vmaxa h d a b t n) :=
  EncodedSize.of_slot (by unfold encode; exact rfl) rfl
theorem EncodedSize.vcmp (h : Hdr) (d a b : BitVec 5) (cond : BitVec 3) :
    EncodedSize.Statement (Instr.vcmp h d a b cond) :=
  EncodedSize.of_slot (by unfold encode; exact rfl) rfl
theorem EncodedSize.vsgn (h : Hdr) (p : BitVec 3) (all pos : Bool) (a : BitVec 5) (t : BitVec 3) :
    EncodedSize.Statement (Instr.vsgn h p all pos a t) :=
  EncodedSize.of_slot (by unfold encode; exact rfl) rfl
theorem EncodedSize.vthr (h : Hdr) (p : BitVec 3) (all ge : Bool) (a b : BitVec 5) (t : BitVec 3) :
    EncodedSize.Statement (Instr.vthr h p all ge a b t) :=
  EncodedSize.of_slot (by unfold encode; exact rfl) rfl
theorem EncodedSize.vsel (h : Hdr) (d a b : BitVec 5) (t : BitVec 3) :
    EncodedSize.Statement (Instr.vsel h d a b t) :=
  EncodedSize.of_slot (by unfold encode; exact rfl) rfl
theorem EncodedSize.vmov (h : Hdr) (d a : BitVec 5) (t : BitVec 3) :
    EncodedSize.Statement (Instr.vmov h d a t) :=
  EncodedSize.of_slot (by unfold encode; exact rfl) rfl
theorem EncodedSize.vcvt (h : Hdr) (d a : BitVec 5) (code : BitVec 6) (t : BitVec 3) :
    EncodedSize.Statement (Instr.vcvt h d a code t) :=
  EncodedSize.of_slot (by unfold encode; exact rfl) rfl
theorem EncodedSize.vred (h : Hdr) (d a : BitVec 5) (t : BitVec 3) (n : Bool) :
    EncodedSize.Statement (Instr.vred h d a t n) :=
  EncodedSize.of_slot (by unfold encode; exact rfl) rfl
theorem EncodedSize.vdot (h : Hdr) (d a b : BitVec 5) (t : BitVec 3) (n : Bool) :
    EncodedSize.Statement (Instr.vdot h d a b t n) :=
  EncodedSize.of_slot (by unfold encode; exact rfl) rfl
theorem EncodedSize.viadd (h : Hdr) (d a b : BitVec 5) (t : BitVec 3) :
    EncodedSize.Statement (Instr.viadd h d a b t) :=
  EncodedSize.of_slot (by unfold encode; exact rfl) rfl
theorem EncodedSize.visub (h : Hdr) (d a b : BitVec 5) (t : BitVec 3) :
    EncodedSize.Statement (Instr.visub h d a b t) :=
  EncodedSize.of_slot (by unfold encode; exact rfl) rfl
theorem EncodedSize.vimul (h : Hdr) (d a b : BitVec 5) (t : BitVec 3) :
    EncodedSize.Statement (Instr.vimul h d a b t) :=
  EncodedSize.of_slot (by unfold encode; exact rfl) rfl
theorem EncodedSize.vand (h : Hdr) (d a b : BitVec 5) (t : BitVec 3) :
    EncodedSize.Statement (Instr.vand h d a b t) :=
  EncodedSize.of_slot (by unfold encode; exact rfl) rfl
theorem EncodedSize.vor (h : Hdr) (d a b : BitVec 5) (t : BitVec 3) :
    EncodedSize.Statement (Instr.vor h d a b t) :=
  EncodedSize.of_slot (by unfold encode; exact rfl) rfl
theorem EncodedSize.vxor (h : Hdr) (d a b : BitVec 5) (t : BitVec 3) :
    EncodedSize.Statement (Instr.vxor h d a b t) :=
  EncodedSize.of_slot (by unfold encode; exact rfl) rfl
theorem EncodedSize.vshli (h : Hdr) (d a k : BitVec 5) (t : BitVec 3) :
    EncodedSize.Statement (Instr.vshli h d a k t) :=
  EncodedSize.of_slot (by unfold encode; exact rfl) rfl
theorem EncodedSize.vshri (h : Hdr) (d a k : BitVec 5) (t : BitVec 3) :
    EncodedSize.Statement (Instr.vshri h d a k t) :=
  EncodedSize.of_slot (by unfold encode; exact rfl) rfl
theorem EncodedSize.vsari (h : Hdr) (d a k : BitVec 5) (t : BitVec 3) :
    EncodedSize.Statement (Instr.vsari h d a k t) :=
  EncodedSize.of_slot (by unfold encode; exact rfl) rfl
theorem EncodedSize.vshuf (h : Hdr) (d a b : BitVec 5) (t : BitVec 3) :
    EncodedSize.Statement (Instr.vshuf h d a b t) :=
  EncodedSize.of_slot (by unfold encode; exact rfl) rfl
theorem EncodedSize.vbcst (h : Hdr) (d a : BitVec 5) (lane : BitVec 4) (t : BitVec 3) :
    EncodedSize.Statement (Instr.vbcst h d a lane t) :=
  EncodedSize.of_slot (by unfold encode; exact rfl) rfl
theorem EncodedSize.viota (h : Hdr) (d a : BitVec 5) (t : BitVec 3) :
    EncodedSize.Statement (Instr.viota h d a t) :=
  EncodedSize.of_slot (by unfold encode; exact rfl) rfl
theorem EncodedSize.vclamp (h : Hdr) (d a b : BitVec 5) (t : BitVec 3) :
    EncodedSize.Statement (Instr.vclamp h d a b t) :=
  EncodedSize.of_slot (by unfold encode; exact rfl) rfl
theorem EncodedSize.vrndb (h : Hdr) (d a : BitVec 5) (t : BitVec 3) :
    EncodedSize.Statement (Instr.vrndb h d a t) :=
  EncodedSize.of_slot (by unfold encode; exact rfl) rfl
theorem EncodedSize.vimin (h : Hdr) (d a b : BitVec 5) (t : BitVec 3) (u : Bool) :
    EncodedSize.Statement (Instr.vimin h d a b t u) :=
  EncodedSize.of_slot (by unfold encode; exact rfl) rfl
theorem EncodedSize.vimax (h : Hdr) (d a b : BitVec 5) (t : BitVec 3) (u : Bool) :
    EncodedSize.Statement (Instr.vimax h d a b t u) :=
  EncodedSize.of_slot (by unfold encode; exact rfl) rfl
theorem EncodedSize.vcmpi (h : Hdr) (d a : BitVec 5) (i : Imm 6 32) (cond : BitVec 3) :
    EncodedSize.Statement (Instr.vcmpi h d a i cond) :=
  EncodedSize.of_slot (by unfold encode; exact rfl) rfl
theorem EncodedSize.ringdef (h : Hdr) (r : BitVec 3) (f n : BitVec 4) :
    EncodedSize.Statement (Instr.ringdef h r f n) :=
  EncodedSize.of_slot (by unfold encode; exact rfl) rfl
theorem EncodedSize.ringrst (h : Hdr) (r : BitVec 3) :
    EncodedSize.Statement (Instr.ringrst h r) :=
  EncodedSize.of_slot (by unfold encode; exact rfl) rfl
theorem EncodedSize.mxw (h : Hdr) (src : TileRef) (t : BitVec 3) :
    EncodedSize.Statement (Instr.mxw h src t) :=
  EncodedSize.of_slot (by unfold encode; exact rfl) rfl
theorem EncodedSize.mxf (h : Hdr) (z : BitVec 2) (src : TileRef) (t : BitVec 3) :
    EncodedSize.Statement (Instr.mxf h z src t) :=
  EncodedSize.of_slot (by unfold encode; exact rfl) rfl
theorem EncodedSize.mxr (h : Hdr) (z : BitVec 2) (src : TileRef) (t : BitVec 3) :
    EncodedSize.Statement (Instr.mxr h z src t) :=
  EncodedSize.of_slot (by unfold encode; exact rfl) rfl
theorem EncodedSize.mxp (h : Hdr) (z : BitVec 2) (va sb : BitVec 5) (t : BitVec 3) :
    EncodedSize.Statement (Instr.mxp h z va sb t) :=
  EncodedSize.of_slot (by unfold encode; exact rfl) rfl
theorem EncodedSize.mxz (h : Hdr) (z : BitVec 2) (src : Option TileRef) (t : BitVec 3) :
    EncodedSize.Statement (Instr.mxz h z src t) :=
  EncodedSize.of_slot (by unfold encode; exact rfl) rfl
theorem EncodedSize.mxo (h : Hdr) (dst : TileRef) (z : BitVec 2) (t : BitVec 3) :
    EncodedSize.Statement (Instr.mxo h dst z t) :=
  EncodedSize.of_slot (by unfold encode; exact rfl) rfl
theorem EncodedSize.mxq (h : Hdr) (dst : TileRef) (z : BitVec 2) (t : BitVec 3) :
    EncodedSize.Statement (Instr.mxq h dst z t) :=
  EncodedSize.of_slot (by unfold encode; exact rfl) rfl
theorem EncodedSize.xpt (h : Hdr) (dst src : TileRef) (t : BitVec 3) :
    EncodedSize.Statement (Instr.xpt h dst src t) :=
  EncodedSize.of_slot (by unfold encode; exact rfl) rfl
theorem EncodedSize.xpc (h : Hdr) (dst src : TileRef) (code : BitVec 4) (t : BitVec 3) :
    EncodedSize.Statement (Instr.xpc h dst src code t) :=
  EncodedSize.of_slot (by unfold encode; exact rfl) rfl
theorem EncodedSize.upadm (h : Hdr) (w g m v : BitVec 4) (t : BitVec 3) :
    EncodedSize.Statement (Instr.upadm h w g m v t) :=
  EncodedSize.of_slot (by unfold encode; exact rfl) rfl
theorem EncodedSize.upsgd (h : Hdr) (w g m : BitVec 4) (t : BitVec 3) :
    EncodedSize.Statement (Instr.upsgd h w g m t) :=
  EncodedSize.of_slot (by unfold encode; exact rfl) rfl
theorem EncodedSize.upaxp (h : Hdr) (y x : BitVec 4) (t : BitVec 3) :
    EncodedSize.Statement (Instr.upaxp h y x t) :=
  EncodedSize.of_slot (by unfold encode; exact rfl) rfl
theorem EncodedSize.rnmask (h : Hdr) (dst : TileRef) (sr sc : BitVec 5) (t : BitVec 3) :
    EncodedSize.Statement (Instr.rnmask h dst sr sc t) :=
  EncodedSize.of_slot (by unfold encode; exact rfl) rfl
theorem EncodedSize.rnuni (h : Hdr) (dst : TileRef) (sr sc : BitVec 5) (t : BitVec 3) :
    EncodedSize.Statement (Instr.rnuni h dst sr sc t) :=
  EncodedSize.of_slot (by unfold encode; exact rfl) rfl
theorem EncodedSize.chsendv (h : Hdr) (c v : BitVec 5) (k : BitVec 2) (t : BitVec 3) :
    EncodedSize.Statement (Instr.chsendv h c v k t) :=
  EncodedSize.of_slot (by unfold encode; exact rfl) rfl
theorem EncodedSize.chsendt (h : Hdr) (c : BitVec 5) (src : TileRef) (t : BitVec 3) :
    EncodedSize.Statement (Instr.chsendt h c src t) :=
  EncodedSize.of_slot (by unfold encode; exact rfl) rfl
theorem EncodedSize.chsendm (h : Hdr) (c : BitVec 5) (bs : BitVec 4) (l : BitVec 5) (k : BitVec 2) (t : BitVec 3) :
    EncodedSize.Statement (Instr.chsendm h c bs l k t) :=
  EncodedSize.of_slot (by unfold encode; exact rfl) rfl
theorem EncodedSize.chrecv (h : Hdr) (c : BitVec 5) (bs : BitVec 4) (sink : Bool) :
    EncodedSize.Statement (Instr.chrecv h c bs sink) :=
  EncodedSize.of_slot (by unfold encode; exact rfl) rfl
theorem EncodedSize.chred (h : Hdr) (j : BitVec 3) (v : BitVec 5) (cnt32 int : Bool) (t : BitVec 3) :
    EncodedSize.Statement (Instr.chred h j v cnt32 int t) :=
  EncodedSize.of_slot (by unfold encode; exact rfl) rfl
theorem EncodedSize.charr (h : Hdr) (c : BitVec 5) (bs : BitVec 4) (l : BitVec 5) (t : BitVec 3) :
    EncodedSize.Statement (Instr.charr h c bs l t) :=
  EncodedSize.of_slot (by unfold encode; exact rfl) rfl
theorem EncodedSize.chwin (h : Hdr) (c l : BitVec 5) (k : BitVec 2) :
    EncodedSize.Statement (Instr.chwin h c l k) :=
  EncodedSize.of_slot (by unfold encode; exact rfl) rfl
theorem EncodedSize.chseq (h : Hdr) (c l : BitVec 5) :
    EncodedSize.Statement (Instr.chseq h c l) :=
  EncodedSize.of_slot (by unfold encode; exact rfl) rfl
theorem EncodedSize.cbopen (h : Hdr) (sc : BitVec 5) (handler : Word) :
    EncodedSize.Statement (Instr.cbopen h sc handler) :=
  EncodedSize.of_slot (by unfold encode; exact rfl) rfl
theorem EncodedSize.cbclose (h : Hdr) :
    EncodedSize.Statement (Instr.cbclose h) :=
  EncodedSize.of_slot (by unfold encode; exact rfl) rfl
theorem EncodedSize.portw (h : Hdr) (l : BitVec 5) (t : BitVec 3) :
    EncodedSize.Statement (Instr.portw h l t) :=
  EncodedSize.of_slot (by unfold encode; exact rfl) rfl
theorem EncodedSize.bnop (h : Hdr) :
    EncodedSize.Statement (Instr.bnop h) :=
  EncodedSize.of_slot (by unfold encode; exact rfl) rfl
theorem EncodedSize.br (h : Hdr) (o : Imm 16 32) (hint : Bool) :
    EncodedSize.Statement (Instr.br h o hint) :=
  EncodedSize.of_slot (by unfold encode; exact rfl) rfl
theorem EncodedSize.call (h : Hdr) (o : Imm 16 32) (hint : Bool) :
    EncodedSize.Statement (Instr.call h o hint) :=
  EncodedSize.of_slot (by unfold encode; exact rfl) rfl
theorem EncodedSize.ret (h : Hdr) :
    EncodedSize.Statement (Instr.ret h) :=
  EncodedSize.of_slot (by unfold encode; exact rfl) rfl
theorem EncodedSize.jr (h : Hdr) (a : BitVec 4) :
    EncodedSize.Statement (Instr.jr h a) :=
  EncodedSize.of_slot (by unfold encode; exact rfl) rfl
theorem EncodedSize.loopset (h : Hdr) (d : BitVec 5) (n : BitVec 9) (mod : Bool) :
    EncodedSize.Statement (Instr.loopset h d n mod) :=
  EncodedSize.of_slot (by unfold encode; exact rfl) rfl
theorem EncodedSize.loopsetPop (h : Hdr) :
    EncodedSize.Statement (Instr.loopsetPop h) :=
  EncodedSize.of_slot (by unfold encode; exact rfl) rfl
theorem EncodedSize.loop (h : Hdr) (o : Imm 16 32) (hint : Bool) :
    EncodedSize.Statement (Instr.loop h o hint) :=
  EncodedSize.of_slot (by unfold encode; exact rfl) rfl
theorem EncodedSize.loopc (h : Hdr) (o : Imm 16 32) (hint : Bool) :
    EncodedSize.Statement (Instr.loopc h o hint) :=
  EncodedSize.of_slot (by unfold encode; exact rfl) rfl
theorem EncodedSize.setfmt (h : Hdr) (d : BitVec 5) :
    EncodedSize.Statement (Instr.setfmt h d) :=
  EncodedSize.of_slot (by unfold encode; exact rfl) rfl
theorem EncodedSize.setc (h : Hdr) (d : BitVec 5) (n : BitVec 9) :
    EncodedSize.Statement (Instr.setc h d n) :=
  EncodedSize.of_slot (by unfold encode; exact rfl) rfl
theorem EncodedSize.getc (h : Hdr) (d : BitVec 5) (n : BitVec 9) :
    EncodedSize.Statement (Instr.getc h d n) :=
  EncodedSize.of_slot (by unfold encode; exact rfl) rfl
theorem EncodedSize.pand (h : Hdr) (d a b : BitVec 3) :
    EncodedSize.Statement (Instr.pand h d a b) :=
  EncodedSize.of_slot (by unfold encode; exact rfl) rfl
theorem EncodedSize.por (h : Hdr) (d a b : BitVec 3) :
    EncodedSize.Statement (Instr.por h d a b) :=
  EncodedSize.of_slot (by unfold encode; exact rfl) rfl
theorem EncodedSize.pxor (h : Hdr) (d a b : BitVec 3) :
    EncodedSize.Statement (Instr.pxor h d a b) :=
  EncodedSize.of_slot (by unfold encode; exact rfl) rfl
theorem EncodedSize.pandn (h : Hdr) (d a b : BitVec 3) :
    EncodedSize.Statement (Instr.pandn h d a b) :=
  EncodedSize.of_slot (by unfold encode; exact rfl) rfl
theorem EncodedSize.pmov (h : Hdr) (d a : BitVec 3) :
    EncodedSize.Statement (Instr.pmov h d a) :=
  EncodedSize.of_slot (by unfold encode; exact rfl) rfl
theorem EncodedSize.endTask (h : Hdr) :
    EncodedSize.Statement (Instr.endTask h) :=
  EncodedSize.of_slot (by unfold encode; exact rfl) rfl
theorem EncodedSize.trap (h : Hdr) (n : BitVec 9) :
    EncodedSize.Statement (Instr.trap h n) :=
  EncodedSize.of_slot (by unfold encode; exact rfl) rfl
theorem EncodedSize.rft (h : Hdr) :
    EncodedSize.Statement (Instr.rft h) :=
  EncodedSize.of_slot (by unfold encode; exact rfl) rfl
theorem EncodedSize.bkpt (h : Hdr) (n : BitVec 9) :
    EncodedSize.Statement (Instr.bkpt h n) :=
  EncodedSize.of_slot (by unfold encode; exact rfl) rfl
theorem EncodedSize.wait (h : Hdr) (m : BitVec 7) (hold : BitVec 3) :
    EncodedSize.Statement (Instr.wait h m hold) :=
  EncodedSize.of_slot (by unfold encode; exact rfl) rfl
theorem EncodedSize.fence (h : Hdr) (s : BitVec 5) :
    EncodedSize.Statement (Instr.fence h s) :=
  EncodedSize.of_slot (by unfold encode; exact rfl) rfl
theorem EncodedSize.acq (h : Hdr) (bs : BitVec 4) (bb : BitVec 3) (shared : Bool) (t : BitVec 3) :
    EncodedSize.Statement (Instr.acq h bs bb shared t) :=
  EncodedSize.of_slot (by unfold encode; exact rfl) rfl
theorem EncodedSize.rel (h : Hdr) (bs : BitVec 4) (bb t : BitVec 3) :
    EncodedSize.Statement (Instr.rel h bs bb t) :=
  EncodedSize.of_slot (by unfold encode; exact rfl) rfl
theorem EncodedSize.waitfe (h : Hdr) (s : BitVec 5) (bs : BitVec 4) :
    EncodedSize.Statement (Instr.waitfe h s bs) :=
  EncodedSize.of_slot (by unfold encode; exact rfl) rfl
theorem EncodedSize.cewait (h : Hdr) (s : BitVec 5) (ch : BitVec 3) :
    EncodedSize.Statement (Instr.cewait h s ch) :=
  EncodedSize.of_slot (by unfold encode; exact rfl) rfl
theorem EncodedSize.waitall (h : Hdr) (hold : BitVec 3) :
    EncodedSize.Statement (Instr.waitall h hold) :=
  EncodedSize.of_slot (by unfold encode; exact rfl) rfl
theorem EncodedSize.invalidBundle (cause : Cause) (slot : BitVec 3) :
    EncodedSize.Statement (Instr.invalidBundle cause slot) :=
  EncodedSize.of_step rfl rfl
theorem EncodedSize.storePerform (c : Coord) :
    EncodedSize.Statement (Instr.storePerform c) :=
  EncodedSize.of_step rfl rfl
theorem EncodedSize.copyRow (c : Coord) (ch : BitVec 3) :
    EncodedSize.Statement (Instr.copyRow c ch) :=
  EncodedSize.of_step rfl rfl
theorem EncodedSize.copyComplete (c : Coord) (ch : BitVec 3) :
    EncodedSize.Statement (Instr.copyComplete c ch) :=
  EncodedSize.of_step rfl rfl
theorem EncodedSize.feWaitTimeout (c : Coord) :
    EncodedSize.Statement (Instr.feWaitTimeout c) :=
  EncodedSize.of_step rfl rfl
theorem EncodedSize.sendWaitTimeout (c : Coord) :
    EncodedSize.Statement (Instr.sendWaitTimeout c) :=
  EncodedSize.of_step rfl rfl
theorem EncodedSize.barwaitTimeout (c : Coord) :
    EncodedSize.Statement (Instr.barwaitTimeout c) :=
  EncodedSize.of_step rfl rfl
theorem EncodedSize.producerLand (c : Coord) :
    EncodedSize.Statement (Instr.producerLand c) :=
  EncodedSize.of_step rfl rfl
theorem EncodedSize.vDecide (c : Coord) :
    EncodedSize.Statement (Instr.vDecide c) :=
  EncodedSize.of_step rfl rfl
theorem EncodedSize.engineFire (c : Coord) (e : Engine) :
    EncodedSize.Statement (Instr.engineFire c e) :=
  EncodedSize.of_step rfl rfl
theorem EncodedSize.engineComplete (c : Coord) (e : Engine) :
    EncodedSize.Statement (Instr.engineComplete c e) :=
  EncodedSize.of_step rfl rfl
theorem EncodedSize.routeFlit (k : Nat) :
    EncodedSize.Statement (Instr.routeFlit k) :=
  EncodedSize.of_step rfl rfl
theorem EncodedSize.linkResend (c : LinkEnd) (d : Dir) :
    EncodedSize.Statement (Instr.linkResend c d) :=
  EncodedSize.of_step rfl rfl
theorem EncodedSize.linkDown (c : LinkEnd) (d : Dir) :
    EncodedSize.Statement (Instr.linkDown c d) :=
  EncodedSize.of_step rfl rfl
theorem EncodedSize.receive (c : Coord) (ich : BitVec 5) :
    EncodedSize.Statement (Instr.receive c ich) :=
  EncodedSize.of_step rfl rfl
theorem EncodedSize.creditArrive (c : Coord) (och : BitVec 5) :
    EncodedSize.Statement (Instr.creditArrive c och) :=
  EncodedSize.of_step rfl rfl
theorem EncodedSize.sendFaultNotice (c : Coord) (och : BitVec 5) :
    EncodedSize.Statement (Instr.sendFaultNotice c och) :=
  EncodedSize.of_step rfl rfl
theorem EncodedSize.remoteArrival (c : Coord) (ich : BitVec 5) :
    EncodedSize.Statement (Instr.remoteArrival c ich) :=
  EncodedSize.of_step rfl rfl
theorem EncodedSize.arrivalResult (c : Coord) (och : BitVec 5) :
    EncodedSize.Statement (Instr.arrivalResult c och) :=
  EncodedSize.of_step rfl rfl
theorem EncodedSize.reductionInput (c : Coord) (j : BitVec 3) (p : Port) :
    EncodedSize.Statement (Instr.reductionInput c j p) :=
  EncodedSize.of_step rfl rfl
theorem EncodedSize.heldResultDeliver (c : Coord) (j : BitVec 3) :
    EncodedSize.Statement (Instr.heldResultDeliver c j) :=
  EncodedSize.of_step rfl rfl
theorem EncodedSize.roundAbandon (c : Coord) (j : BitVec 3) :
    EncodedSize.Statement (Instr.roundAbandon c j) :=
  EncodedSize.of_step rfl rfl
theorem EncodedSize.abandonNotice (c : Coord) (j : BitVec 3) :
    EncodedSize.Statement (Instr.abandonNotice c j) :=
  EncodedSize.of_step rfl rfl
theorem EncodedSize.bulkRequest (id : Nat) :
    EncodedSize.Statement (Instr.bulkRequest id) :=
  EncodedSize.of_step rfl rfl
theorem EncodedSize.faultRecordRelease (ctx : BitVec 8) :
    EncodedSize.Statement (Instr.faultRecordRelease ctx) :=
  EncodedSize.of_step rfl rfl
theorem EncodedSize.retryReplay (port : Nat) (word : DWord) :
    EncodedSize.Statement (Instr.retryReplay port word) :=
  EncodedSize.of_step rfl rfl
theorem EncodedSize.retryAbort (port : Nat) (word : DWord) :
    EncodedSize.Statement (Instr.retryAbort port word) :=
  EncodedSize.of_step rfl rfl
theorem EncodedSize.portwAtPort (id : Nat) :
    EncodedSize.Statement (Instr.portwAtPort id) :=
  EncodedSize.of_step rfl rfl
theorem EncodedSize.bulkPerform (id : Nat) :
    EncodedSize.Statement (Instr.bulkPerform id) :=
  EncodedSize.of_step rfl rfl
theorem EncodedSize.replicaCommit (id : Nat) :
    EncodedSize.Statement (Instr.replicaCommit id) :=
  EncodedSize.of_step rfl rfl
theorem EncodedSize.lockedReadResume (id : Nat) :
    EncodedSize.Statement (Instr.lockedReadResume id) :=
  EncodedSize.of_step rfl rfl
theorem EncodedSize.lockedReadTimeout (id : Nat) :
    EncodedSize.Statement (Instr.lockedReadTimeout id) :=
  EncodedSize.of_step rfl rfl
theorem EncodedSize.homeLockRelease (port : Nat) :
    EncodedSize.Statement (Instr.homeLockRelease port) :=
  EncodedSize.of_step rfl rfl
theorem EncodedSize.hostTimeout (id : Nat) :
    EncodedSize.Statement (Instr.hostTimeout id) :=
  EncodedSize.of_step rfl rfl
theorem EncodedSize.requestAcceptTimeout (id : Nat) :
    EncodedSize.Statement (Instr.requestAcceptTimeout id) :=
  EncodedSize.of_step rfl rfl
theorem EncodedSize.externalLinkDrop (l : ExtLink) :
    EncodedSize.Statement (Instr.externalLinkDrop l) :=
  EncodedSize.of_step rfl rfl
theorem EncodedSize.bulkResponse (id : Nat) :
    EncodedSize.Statement (Instr.bulkResponse id) :=
  EncodedSize.of_step rfl rfl
theorem EncodedSize.acqAtHome (id : Nat) :
    EncodedSize.Statement (Instr.acqAtHome id) :=
  EncodedSize.of_step rfl rfl
theorem EncodedSize.guardWaitTimeout (id : Nat) :
    EncodedSize.Statement (Instr.guardWaitTimeout id) :=
  EncodedSize.of_step rfl rfl
theorem EncodedSize.relDepart (id : Nat) :
    EncodedSize.Statement (Instr.relDepart id) :=
  EncodedSize.of_step rfl rfl
theorem EncodedSize.relAtHome (id : Nat) :
    EncodedSize.Statement (Instr.relAtHome id) :=
  EncodedSize.of_step rfl rfl
theorem EncodedSize.guardResponse (id : Nat) :
    EncodedSize.Statement (Instr.guardResponse id) :=
  EncodedSize.of_step rfl rfl
theorem EncodedSize.hearthGuardRelease (node : Nat) :
    EncodedSize.Statement (Instr.hearthGuardRelease node) :=
  EncodedSize.of_step rfl rfl
theorem EncodedSize.pairCompare (c : Coord) :
    EncodedSize.Statement (Instr.pairCompare c) :=
  EncodedSize.of_step rfl rfl
theorem EncodedSize.pairTimeout (c : Coord) :
    EncodedSize.Statement (Instr.pairTimeout c) :=
  EncodedSize.of_step rfl rfl
theorem EncodedSize.trapTake (c : Coord) :
    EncodedSize.Statement (Instr.trapTake c) :=
  EncodedSize.of_step rfl rfl
theorem EncodedSize.trapRecordRelease (ctx : BitVec 8) :
    EncodedSize.Statement (Instr.trapRecordRelease ctx) :=
  EncodedSize.of_step rfl rfl
theorem EncodedSize.containmentAbort (c : Coord) :
    EncodedSize.Statement (Instr.containmentAbort c) :=
  EncodedSize.of_step rfl rfl
theorem EncodedSize.preemptStop (c : Coord) :
    EncodedSize.Statement (Instr.preemptStop c) :=
  EncodedSize.of_step rfl rfl
theorem EncodedSize.stopAck (c : Coord) (u : TUnit) :
    EncodedSize.Statement (Instr.stopAck c u) :=
  EncodedSize.of_step rfl rfl
theorem EncodedSize.savePhase (node : Nat) :
    EncodedSize.Statement (Instr.savePhase node) :=
  EncodedSize.of_step rfl rfl
theorem EncodedSize.preemptComplete (node : Nat) :
    EncodedSize.Statement (Instr.preemptComplete node) :=
  EncodedSize.of_step rfl rfl
theorem EncodedSize.restore (node : Nat) :
    EncodedSize.Statement (Instr.restore node) :=
  EncodedSize.of_step rfl rfl
theorem EncodedSize.launchNode (node : Nat) :
    EncodedSize.Statement (Instr.launchNode node) :=
  EncodedSize.of_step rfl rfl
theorem EncodedSize.startMulticast (node : Nat) :
    EncodedSize.Statement (Instr.startMulticast node) :=
  EncodedSize.of_step rfl rfl
theorem EncodedSize.tileStart (c : Coord) :
    EncodedSize.Statement (Instr.tileStart c) :=
  EncodedSize.of_step rfl rfl
theorem EncodedSize.nodeComplete (node : Nat) :
    EncodedSize.Statement (Instr.nodeComplete node) :=
  EncodedSize.of_step rfl rfl
theorem EncodedSize.nodeFail (node : Nat) :
    EncodedSize.Statement (Instr.nodeFail node) :=
  EncodedSize.of_step rfl rfl
theorem EncodedSize.shiftMigration (c : Coord) :
    EncodedSize.Statement (Instr.shiftMigration c) :=
  EncodedSize.of_step rfl rfl
theorem EncodedSize.migrationRemap (k : Nat) :
    EncodedSize.Statement (Instr.migrationRemap k) :=
  EncodedSize.of_step rfl rfl
theorem EncodedSize.migrationTimeout (k : Nat) :
    EncodedSize.Statement (Instr.migrationTimeout k) :=
  EncodedSize.of_step rfl rfl
theorem EncodedSize.hearthFrame (h : Nat) :
    EncodedSize.Statement (Instr.hearthFrame h) :=
  EncodedSize.of_step rfl rfl
theorem EncodedSize.hearthStop (h : Nat) :
    EncodedSize.Statement (Instr.hearthStop h) :=
  EncodedSize.of_step rfl rfl
theorem EncodedSize.qbroken (q : Nat) :
    EncodedSize.Statement (Instr.qbroken q) :=
  EncodedSize.of_step rfl rfl
theorem EncodedSize.nopPacket (q : Nat) :
    EncodedSize.Statement (Instr.nopPacket q) :=
  EncodedSize.of_step rfl rfl
theorem EncodedSize.launch (q : Nat) :
    EncodedSize.Statement (Instr.launch q) :=
  EncodedSize.of_step rfl rfl
theorem EncodedSize.ibcall (q : Nat) :
    EncodedSize.Statement (Instr.ibcall q) :=
  EncodedSize.of_step rfl rfl
theorem EncodedSize.signal (q : Nat) :
    EncodedSize.Statement (Instr.signal q) :=
  EncodedSize.of_step rfl rfl
theorem EncodedSize.waitv (q : Nat) :
    EncodedSize.Statement (Instr.waitv q) :=
  EncodedSize.of_step rfl rfl
theorem EncodedSize.copy (q : Nat) :
    EncodedSize.Statement (Instr.copy q) :=
  EncodedSize.of_step rfl rfl
theorem EncodedSize.refine (q : Nat) :
    EncodedSize.Statement (Instr.refine q) :=
  EncodedSize.of_step rfl rfl
theorem EncodedSize.refineStep (q : Nat) :
    EncodedSize.Statement (Instr.refineStep q) :=
  EncodedSize.of_step rfl rfl
theorem EncodedSize.preemptPacket (q : Nat) :
    EncodedSize.Statement (Instr.preemptPacket q) :=
  EncodedSize.of_step rfl rfl
theorem EncodedSize.resume (q : Nat) :
    EncodedSize.Statement (Instr.resume q) :=
  EncodedSize.of_step rfl rfl
theorem EncodedSize.lichen (q : Nat) :
    EncodedSize.Statement (Instr.lichen q) :=
  EncodedSize.of_step rfl rfl
theorem EncodedSize.mapsync (q : Nat) :
    EncodedSize.Statement (Instr.mapsync q) :=
  EncodedSize.of_step rfl rfl
theorem EncodedSize.rasWindow (r : Nat) :
    EncodedSize.Statement (Instr.rasWindow r) :=
  EncodedSize.of_step rfl rfl
theorem EncodedSize.shadowReplay (c : Coord) (e : Engine) :
    EncodedSize.Statement (Instr.shadowReplay c e) :=
  EncodedSize.of_step rfl rfl
theorem EncodedSize.lichenPassStart (c : Coord) :
    EncodedSize.Statement (Instr.lichenPassStart c) :=
  EncodedSize.of_step rfl rfl
theorem EncodedSize.lichenPassEnd (c : Coord) :
    EncodedSize.Statement (Instr.lichenPassEnd c) :=
  EncodedSize.of_step rfl rfl
theorem EncodedSize.exposureReportWrite (q : Nat) :
    EncodedSize.Statement (Instr.exposureReportWrite q) :=
  EncodedSize.of_step rfl rfl
theorem EncodedSize.injctlWrite (req : Requester) (r : Nat) (v : DWord) :
    EncodedSize.Statement (Instr.injctlWrite req r v) :=
  EncodedSize.of_step rfl rfl
theorem EncodedSize.bringUp :
    EncodedSize.Statement (Instr.bringUp) :=
  EncodedSize.of_step rfl rfl
theorem EncodedSize.fluePortBringUp (port : Nat) :
    EncodedSize.Statement (Instr.fluePortBringUp port) :=
  EncodedSize.of_step rfl rfl
theorem EncodedSize.regionBringUp (r : Nat) :
    EncodedSize.Statement (Instr.regionBringUp r) :=
  EncodedSize.of_step rfl rfl
theorem EncodedSize.mapBuild (r : Nat) :
    EncodedSize.Statement (Instr.mapBuild r) :=
  EncodedSize.of_step rfl rfl
theorem EncodedSize.hostLinkUp (port : Nat) :
    EncodedSize.Statement (Instr.hostLinkUp port) :=
  EncodedSize.of_step rfl rfl
theorem EncodedSize.opticalPortReady (port : Nat) :
    EncodedSize.Statement (Instr.opticalPortReady port) :=
  EncodedSize.of_step rfl rfl
theorem EncodedSize.opticalLinkTrain (port : Nat) :
    EncodedSize.Statement (Instr.opticalLinkTrain port) :=
  EncodedSize.of_step rfl rfl
theorem EncodedSize.opticalAttestExchange (port : Nat) (peer : PeerReport) :
    EncodedSize.Statement (Instr.opticalAttestExchange port peer) :=
  EncodedSize.of_step rfl rfl
theorem EncodedSize.hostPortReset (port : Nat) :
    EncodedSize.Statement (Instr.hostPortReset port) :=
  EncodedSize.of_step rfl rfl
theorem EncodedSize.devrst (req : Requester) (v : DWord) :
    EncodedSize.Statement (Instr.devrst req v) :=
  EncodedSize.of_step rfl rfl
theorem EncodedSize.rreset (req : Requester) (v : DWord) :
    EncodedSize.Statement (Instr.rreset req v) :=
  EncodedSize.of_step rfl rfl
theorem EncodedSize.waferidWrite (req : Requester) (v : DWord) :
    EncodedSize.Statement (Instr.waferidWrite req v) :=
  EncodedSize.of_step rfl rfl
theorem EncodedSize.registerWrite (req : Requester) (addr : Nat) (v : DWord) :
    EncodedSize.Statement (Instr.registerWrite req addr v) :=
  EncodedSize.of_step rfl rfl
theorem EncodedSize.bar2Access (port : Nat) (addr : Nat) (op : Bar2Op) :
    EncodedSize.Statement (Instr.bar2Access port addr op) :=
  EncodedSize.of_step rfl rfl
theorem EncodedSize.kattest (port : Nat) :
    EncodedSize.Statement (Instr.kattest port) :=
  EncodedSize.of_step rfl rfl
theorem EncodedSize.kgen (port : Nat) :
    EncodedSize.Statement (Instr.kgen port) :=
  EncodedSize.of_step rfl rfl
theorem EncodedSize.kunwrap (port : Nat) :
    EncodedSize.Statement (Instr.kunwrap port) :=
  EncodedSize.of_step rfl rfl
theorem EncodedSize.kunload (port : Nat) :
    EncodedSize.Statement (Instr.kunload port) :=
  EncodedSize.of_step rfl rfl
theorem EncodedSize.keySlotClear (slot : Nat) :
    EncodedSize.Statement (Instr.keySlotClear slot) :=
  EncodedSize.of_step rfl rfl
theorem EncodedSize.kcfg (port : Nat) :
    EncodedSize.Statement (Instr.kcfg port) :=
  EncodedSize.of_step rfl rfl
theorem EncodedSize.kcommit (port : Nat) :
    EncodedSize.Statement (Instr.kcommit port) :=
  EncodedSize.of_step rfl rfl
theorem EncodedSize.kfwload (port : Nat) :
    EncodedSize.Statement (Instr.kfwload port) :=
  EncodedSize.of_step rfl rfl
theorem EncodedSize.mgmtKattest :
    EncodedSize.Statement (Instr.mgmtKattest) :=
  EncodedSize.of_step rfl rfl
theorem EncodedSize.i3cPrivateWrite (bytes : List Byte) :
    EncodedSize.Statement (Instr.i3cPrivateWrite bytes) :=
  EncodedSize.of_step rfl rfl
theorem EncodedSize.i3cPrivateRead (n : Nat) :
    EncodedSize.Statement (Instr.i3cPrivateRead n) :=
  EncodedSize.of_step rfl rfl
theorem EncodedSize.entdaa (addr : BitVec 7) :
    EncodedSize.Statement (Instr.entdaa addr) :=
  EncodedSize.of_step rfl rfl
theorem EncodedSize.setdasa (addr : BitVec 7) :
    EncodedSize.Statement (Instr.setdasa addr) :=
  EncodedSize.of_step rfl rfl
theorem EncodedSize.rstdaa :
    EncodedSize.Statement (Instr.rstdaa) :=
  EncodedSize.of_step rfl rfl
theorem EncodedSize.enec (mask : Byte) :
    EncodedSize.Statement (Instr.enec mask) :=
  EncodedSize.of_step rfl rfl
theorem EncodedSize.disec (mask : Byte) :
    EncodedSize.Statement (Instr.disec mask) :=
  EncodedSize.of_step rfl rfl
theorem EncodedSize.getpid :
    EncodedSize.Statement (Instr.getpid) :=
  EncodedSize.of_step rfl rfl
theorem EncodedSize.getbcr :
    EncodedSize.Statement (Instr.getbcr) :=
  EncodedSize.of_step rfl rfl
theorem EncodedSize.getdcr :
    EncodedSize.Statement (Instr.getdcr) :=
  EncodedSize.of_step rfl rfl
theorem EncodedSize.getstatus :
    EncodedSize.Statement (Instr.getstatus) :=
  EncodedSize.of_step rfl rfl
theorem EncodedSize.getmwl :
    EncodedSize.Statement (Instr.getmwl) :=
  EncodedSize.of_step rfl rfl
theorem EncodedSize.getmrl :
    EncodedSize.Statement (Instr.getmrl) :=
  EncodedSize.of_step rfl rfl
theorem EncodedSize.damperStep :
    EncodedSize.Statement (Instr.damperStep) :=
  EncodedSize.of_step rfl rfl
theorem EncodedSize.voltageWarning :
    EncodedSize.Statement (Instr.voltageWarning) :=
  EncodedSize.of_step rfl rfl
theorem EncodedSize.powerRemoval :
    EncodedSize.Statement (Instr.powerRemoval) :=
  EncodedSize.of_step rfl rfl
theorem EncodedSize.thermalLimit (r : Nat) :
    EncodedSize.Statement (Instr.thermalLimit r) :=
  EncodedSize.of_step rfl rfl
theorem EncodedSize.coolantFlowShutdown :
    EncodedSize.Statement (Instr.coolantFlowShutdown) :=
  EncodedSize.of_step rfl rfl
theorem EncodedSize.fluePortFailure (port : Nat) :
    EncodedSize.Statement (Instr.fluePortFailure port) :=
  EncodedSize.of_step rfl rfl
theorem EncodedSize.unsupportedCcc (code : Byte) :
    EncodedSize.Statement (Instr.unsupportedCcc code) :=
  EncodedSize.of_step rfl rfl

end Sys2Proof.Laws
end

