-- ==== Sys2Proof/Laws/Tiles.lean ====
section
/-! SUPPORT. Finding and replacing the tile at a coordinate: the spec lemmas of `tileAt`, `setTile` and `onTile`. -/

namespace Sys2Proof.Machine

/-- The tile found at a coordinate is the one there. -/
theorem State.tileAt_isAt {s : State} {c : Coord} {t : Tile} (h : s.tileAt c = some t) : t.isAt c = true := by
  unfold State.tileAt at h
  split at h
  · cases h; assumption
  · exact List.find?_some (p := fun x : Tile => x.isAt c) h

theorem Tile.isAt_coord {t : Tile} {c : Coord} (h : t.isAt c = true) : t.coord = c := by
  simp [Tile.isAt] at h
  exact h.1

/-- Replacing the tile in turn. -/
theorem State.setTile_core {s : State} {t : Tile} (h : s.core.isAt t.coord = true) : s.setTile t = s.withCore t := by
  unfold State.setTile
  rw [if_pos h]
  rfl

@[simp] theorem State.setTile_dev (s : State) (t : Tile) : (s.setTile t).dev = s.dev := by
  unfold State.setTile; split <;> rfl

@[simp] theorem State.setTile_agenda (s : State) (t : Tile) : (s.setTile t).agenda = s.agenda := by
  unfold State.setTile; split <;> rfl

@[simp] theorem State.setTile_bundle (s : State) (t : Tile) : (s.setTile t).bundle = s.bundle := by
  unfold State.setTile; split <;> rfl

theorem find_map_isAt (l : List Tile) (t v : Tile) (c : Coord) (h : l.find? (·.isAt c) = some t) (hv : v.isAt c = true) :
    (l.map fun u => if u.isAt v.coord then v else u).find? (·.isAt c) = some v := by
  have hc := Tile.isAt_coord hv
  induction l with
  | nil => cases h
  | cons x l ih =>
    rw [List.map_cons, List.find?_cons]
    by_cases hx : x.isAt c = true
    · simp [hc, hx, hv]
    · rw [List.find?_cons] at h
      simp only [hx] at h
      simp only [hc, hx, Bool.false_eq_true, if_false]
      rw [← hc]
      exact hc ▸ ih h

theorem find_map_other (l : List Tile) (v : Tile) (c d : Coord) (hv : v.isAt c = true) (hd : d ≠ c) :
    (l.map fun u => if u.isAt v.coord then v else u).find? (·.isAt d) = l.find? (·.isAt d) := by
  have hc := Tile.isAt_coord hv
  have far : ∀ u : Tile, u.isAt c = true → u.isAt d = false := by
    intro u hu
    have e := Tile.isAt_coord hu
    simp only [Tile.isAt, e, Bool.and_eq_false_iff, beq_eq_false_iff_ne, ne_eq]
    exact .inl fun e' => hd e'.symm
  induction l with
  | nil => rfl
  | cons x l ih =>
    rw [List.map_cons, List.find?_cons, List.find?_cons, ih]
    by_cases hx : x.isAt v.coord = true
    · rw [if_pos hx, far v hv, far x (hc ▸ hx)]
    · rw [if_neg hx]

/-- The tile put in place of the one found is found, and every other tile is found as before. -/
theorem State.tileAt_setTile {s : State} {c : Coord} {t v : Tile} (h : s.tileAt c = some t) (hv : v.isAt c = true) :
    (s.setTile v).tileAt c = some v ∧ ∀ d, d ≠ c → (s.setTile v).tileAt d = s.tileAt d := by
  have hc := Tile.isAt_coord hv
  have far : ∀ (u : Tile) d, d ≠ c → u.isAt c = true → u.isAt d = false := by
    intro u d hd hu
    have e := Tile.isAt_coord hu
    simp only [Tile.isAt, e, Bool.and_eq_false_iff, beq_eq_false_iff_ne, ne_eq]
    exact .inl fun e' => hd e'.symm
  unfold State.tileAt at h
  by_cases hcore : s.core.isAt c = true
  · rw [State.setTile_core (hc ▸ hcore)]
    refine ⟨by simp [State.tileAt, State.withCore, hv], fun d hd => ?_⟩
    simp [State.tileAt, State.withCore, far v d hd hv, far s.core d hd hcore]
  · rw [if_neg hcore] at h
    have e : s.setTile v = { s with others := s.others.map fun u => if u.isAt v.coord then v else u } := by
      unfold State.setTile
      rw [if_neg (hc ▸ hcore)]
    rw [e]
    refine ⟨?_, fun d hd => ?_⟩
    · simp only [State.tileAt, hcore, Bool.false_eq_true, if_false]
      exact find_map_isAt _ _ _ _ h hv
    · simp only [State.tileAt]
      rw [find_map_other _ _ _ _ hv hd]

/-- A change of a tile that leaves it nothing to report. -/
theorem State.onTile_quiet {s : State} {c : Coord} {t : Tile} (f : Tile → Tile) (h : s.tileAt c = some t)
    (hr : (f t).recs = []) : s.onTile c f = s.setTile (f t) := by
  have e : ({ f t with recs := [] } : Tile) = f t := by rw [← hr]
  unfold State.onTile
  rw [h]
  simp only [hr, List.foldl_nil, e]

/-- A step that changes one tile and leaves it in its place with nothing to report: the tile is the changed one, every other
tile, the device and what is to come are as before. -/
theorem Becomes.onTile {i : Instr} {s : State} {c : Coord} {t : Tile} (f : Tile → Tile) (h : s.tileAt c = some t)
    (he : exec i s = .next (s.onTile c f)) (hp : (f t).isAt c = true) (hr : (f t).recs = []) : Becomes i s c (f t) := by
  rw [State.onTile_quiet f h hr] at he
  obtain ⟨h1, h2⟩ := State.tileAt_setTile h hp
  exact ⟨_, he, h1, h2, State.setTile_dev _ _, State.setTile_agenda _ _, State.setTile_bundle _ _⟩

end Sys2Proof.Machine
end

