-- ==== Sys2Proof/Tests/Slice0.lean ====
section
/-! SUPPORT. Small checks of the model: terms that are not well formed and are refused, words written out from the encoding
tables, single steps whose results are worked out by hand from the manual, and for each statement with hypotheses a state and
operands that meet them. -/

namespace Sys2Proof.Tests

open Machine

set_option Elab.async false

/-- A tile that runs, with nothing in progress. -/
def run : Tile := { Tile.zero ⟨0, 0⟩ ⟨0, 0, 0⟩ with sch := { Sched.zero with status := .running } }

/-- The same with a register set: s, a. -/
def withS (t : Tile) (r : Nat) (x : Word) : Tile := { t with files := { t.files with s := t.files.s.setIfInBounds r x } }

/-- An a register set. -/
def withA (t : Tile) (r : Nat) (x : Word) : Tile := { t with files := { t.files with a := t.files.a.setIfInBounds r x } }

/-- The machine after reset with a tile in turn. -/
def on (t : Tile) : State := { State.reset with core := t }

/-- What a step leaves, looked at through `f`. -/
def after (i : Instr) (s : State) (f : State → Bool) : Bool :=
  match exec i s with
  | .next u => f u
  | _ => false

/-- A slot alone in its bundle under p0. -/
def solo : Hdr := ⟨true, 0#3⟩

theorem run_between : run.Between := ⟨rfl, rfl, rfl, rfl, rfl, rfl⟩

theorem ready_of {t : Tile} {g : BitVec 3} (h : t.Between) (hg : t.rp g = true) : (on t).Ready g := ⟨rfl, h, hg⟩

theorem readable_of {t : Tile} (l : List Nat) (h1 : t.pad.bad = []) (h2 : t.pad.poison = []) (h3 : t.pad.inj.armed = 0)
    (h4 : t.pad.soft = [] := by rfl) : t.Readable l := by
  refine ⟨fun a _ _ => ?_, h3⟩
  rw [h1, h2, h4]
  exact ⟨⟨List.not_mem_nil, List.not_mem_nil⟩, List.not_mem_nil⟩

theorem run_tags (n : Nat) : run.tagSt n = .free := by
  have h : ∀ n : Nat, ((Vector.replicate 8 TagSt.free)[n]?).getD TagSt.free = TagSt.free := by
    intro n
    simp only [Vector.getElem?_replicate]
    split <;> rfl
  exact h n

/-! Witnesses: for each statement, in order, and each of its clauses, a state and operands that meet its hypotheses. -/

/-- The machine about to fetch words at address 0. -/
def fetching (l : List Word) : State := on { run with pad := { Pad.zero with code := putWords [] 0 l } }

theorem fetching_met (l : List Word) : (fetching l).core.fetchMeet.sch.status = .running := by
  simp [fetching, on, run, Tile.fetchMeet, Inject.has, Tile.zero, Sched.zero, Pad.zero]

theorem fetching_ok (l : List Word) : (fetching l).Fetches :=
  ⟨rfl, rfl, rfl, rfl, rfl, rfl, by show (0#32).toNat < 0x4000; decide, fun _ _ => rfl, by simp [fetching, on, run, Tile.replayFirst, Inject.has, Tile.zero, Sched.zero, Pad.zero],
    fetching_met l⟩

/-- StepRunsDecoded: one slot; two slots; words that decode to nothing; a bundle in issue; a step that waits; an event; a
second tile. -/
theorem witness_StepRunsDecoded_slot :
    (fetching [0x80418850#32]).Fetches ∧
      decodeHead (fetching [0x80418850#32]).core.ahead = .ok (.add solo 6#5 4#5 5#5, List.replicate 7 0#32) ∧
      vEncOk 0#32 (.add solo 6#5 4#5 5#5) = true :=
  ⟨fetching_ok _, rfl, rfl⟩

theorem witness_StepRunsDecoded_bundle :
    (fetching [0x50003000#32, 0x80418850#32]).Fetches ∧
      (fetching [0x50003000#32, 0x80418850#32]).met.core.fetchBundle =
        .ok [.wait ⟨false, 0#3⟩ 3#7 0#3, .add solo 6#5 4#5 5#5] ∧
      decodeHead (fetching [0x50003000#32, 0x80418850#32]).core.ahead =
        .ok (.wait ⟨false, 0#3⟩ 3#7 0#3, 0x80418850#32 :: List.replicate 6 0#32) :=
  ⟨fetching_ok _, by decide +kernel, rfl⟩

/-- A fetch that meets no error, and a tile that replays a stage first. -/
theorem witness_StepRunsDecoded_replay :
    let t := { run with inj := ⟨2 ^ 7, false, []⟩ }
    run.pad.codeSoft = [] ∧ run.fileSoft = 0 ∧ run.fileBad = false ∧ run.inj.armed = 0 ∧ (on t).core.dueEvent = none ∧
      (on t).core.mayIssue = true ∧ (on t).core.replayFirst.isSome = true := by decide +kernel

theorem witness_StepRunsDecoded_invalid :
    (fetching [0x60000000#32]).Fetches ∧ decodeHead (fetching [0x60000000#32]).core.ahead = .error .illcls :=
  ⟨fetching_ok _, rfl⟩

theorem witness_StepRunsDecoded_open :
    let b : Bundle := ⟨(fetching [0x50003000#32, 0x80418850#32]).core, 1, none, none, none⟩
    b.start.scan (8 - b.pos) b.pos false = .ok [.add solo 6#5 4#5 5#5] := by decide +kernel

theorem witness_StepRunsDecoded_event :
    let t := run.withSch fun c => { c with pend := [⟨.trapi, 0#64, 0#64, 0, 0, none⟩] }
    (on t).core.dueEvent = some (.trapTake ⟨0, 0⟩) ∧ (on t).bundle = none ∧ (on t).agenda = [] := ⟨rfl, rfl, rfl⟩

theorem witness_StepRunsDecoded_turn :
    let s := { on run with others := [Tile.zero ⟨0, 1⟩ ⟨0, 0, 1⟩] }
    s.bundle = none ∧ ∀ x ∈ s.core.progressSends :: s.others, x.hits.isEmpty = true := ⟨rfl, by decide +kernel⟩

theorem witness_DecodeEncodeAgree :
    (Instr.addi solo 1#5 2#5 (.long 0xFFFFFFFF#32)).wf = true ∧
      decodeHead [0x86404400#32, 7#32] = .ok (.addi solo 1#5 2#5 (.short 0x000#9), [7#32]) := ⟨rfl, by decide +kernel⟩

theorem witness_AccessChecks :
    (1 : Nat) ∈ [1, 2, 4, 16, 64] ∧ (0x2EFFF : Nat) % 1 = 0 ∧ (0x2F001 : Nat) % 2 ≠ 0 ∧ (0x2FFC0 : Nat) % 64 = 0 ∧
      (0x405C0 : Nat) % 64 = 0 ∧ (0x5003C : Nat) % 4 = 0 ∧ (0x60100 : Nat) % 64 = 0 := by decide +kernel

theorem witness_MemoryReadsBack : Memory.wf [(3, 1#8), (7, 255#8)] = true := by decide +kernel

theorem witness_SlotsStayInTheirTile : (Instr.add solo 1#5 2#5 3#5).hdr = some solo := rfl

theorem witness_KilnCountersNeverFall :
    (∃ u, step State.reset = .next u) ∧ State.reset.dev.kiln.enrolCount ≤ 15 ∧ State.reset.dev.kiln.leaf ≤ 2 ^ 20 :=
  ⟨⟨_, rfl⟩, by decide +kernel, by decide +kernel⟩

/-- RegisterArithmetic, ProductsAndDivision, BitFields, ComparesAndCopies, Immediates, Transfers: a
tile between two bundles, whose tags are free. -/
theorem witness_RegisterArithmetic : (on run).Ready 0#3 := ready_of run_between rfl

theorem witness_ProductsAndDivision : (on run).Ready 0#3 ∧ (on run).core.tagFree 7#3 = true :=
  ⟨ready_of run_between rfl, rfl⟩

theorem witness_ComparesAndCopies : (on run).Ready 0#3 ∧ (9#4).toNat < 10 := ⟨ready_of run_between rfl, by decide +kernel⟩

theorem witness_Transfers :
    let t := run.withSch fun c => { c with rstk := [0x40#32] }
    (on t).Ready 0#3 ∧ (on t).core.sch.rstk = [] ++ [0x40#32] ∧ (on t).core.sch.rstk.length < 16 :=
  ⟨ready_of ⟨rfl, rfl, rfl, rfl, rfl, rfl⟩ rfl, rfl, by decide +kernel⟩

theorem witness_Loops :
    let t (lc ec : Word) := (run.withSch fun c => { c with lstk := [(1#32, 2#32)] }).withCtl fun c => { c with lc := lc, ec := ec }
    (on (t 1#32 0#32)).Ready 0#3 ∧ (on (t 1#32 0#32)).core.sch.lstk.length < 4 ∧
      (on (t 1#32 0#32)).core.sch.lstk = [] ++ [(1#32, 2#32)] ∧ (t 1#32 0#32).ctl.lc ≠ 0#32 ∧
      (t 0#32 2#32).ctl.lc = 0#32 ∧ 1 < (t 0#32 2#32).ctl.ec.toNat ∧ (t 0#32 1#32).ctl.ec = 1#32 ∧ (t 0#32 0#32).ctl.ec = 0#32 :=
  ⟨ready_of ⟨rfl, rfl, rfl, rfl, rfl, rfl⟩ rfl, by decide +kernel, rfl, by decide +kernel, rfl, by decide +kernel, rfl, rfl⟩

theorem witness_BundleClose : run.sch.closing = [] := rfl

theorem witness_BundleClose_guard :
    let i : Instr := .br ⟨true, 7#3⟩ (.short 0#16) true
    (on run).bundle = none ∧ (on run).core.Between ∧ run.rp 7#3 = false ∧ vEncOk run.ctl.fmt i = true ∧
      i.hdr = some ⟨true, 7#3⟩ :=
  ⟨rfl, run_between, by decide +kernel⟩

/-- The loads at the top of the scratchpad. -/
theorem witness_ScalarLoads :
    let t := withA run 1 0x2FFFC#32
    let e (n k : Nat) : Prop := accessCheck t .load n .spalign false [itemOf (0x2FFFC + k) n] = .ok ∧
      loadQual t 0#2 [itemOf (0x2FFFC + k) n] = .ok ∧ t.Readable ((upTo n).map ((0x2FFFC + k) + ·))
    (on t).Ready 0#3 ∧ t.tagFree 1#3 = true ∧ t.pad.queue = [] ∧ (0#2 : BitVec 2) ≠ 2#2 ∧
      eaOf t 1 1#4 (.short 3#5) = 0x2FFFC + 3 ∧ e 1 3 ∧ eaOf t 2 1#4 (.short 1#5) = 0x2FFFC + 2 ∧ e 2 2 ∧
      eaOf t 4 1#4 (.short 0#5) = 0x2FFFC + 0 ∧ accessCheck t .loadW 4 .spalign false [itemOf 0x2FFFC 4] = .ok :=
  ⟨ready_of ⟨rfl, rfl, rfl, rfl, rfl, rfl⟩ rfl, rfl, rfl, by decide +kernel, by decide +kernel,
    ⟨by decide +kernel, by decide +kernel, readable_of _ rfl rfl rfl⟩, by decide +kernel, ⟨by decide +kernel, by decide +kernel, readable_of _ rfl rfl rfl⟩, by decide +kernel,
    by decide +kernel⟩

theorem witness_WideLoads_vector :
    let t := withA run 1 0x2FFC0#32
    (on t).Ready 0#3 ∧ t.tagFree 1#3 = true ∧ t.pad.queue = [] ∧ eaOf t 64 1#4 (.short 0#5) = 0x2FFC0 ∧
      accessCheck t .load 64 .spalign false [itemOf 0x2FFC0 64] = .ok ∧ loadQual t 0#2 [itemOf 0x2FFC0 64] = .ok ∧
      t.Readable ((upTo 64).map (0x2FFC0 + ·)) :=
  ⟨ready_of ⟨rfl, rfl, rfl, rfl, rfl, rfl⟩ rfl, rfl, rfl, by decide +kernel, by decide +kernel, by decide +kernel, readable_of _ rfl rfl rfl⟩

theorem witness_WideLoads_gather :
    let t := withA run 1 0x2FFFC#32
    let l := gatherLanes t 1#4 0#5
    accessCheck t .wideLoad 4 .spalign false (gatherItems l) = .ok ∧ loadQual t 0#2 (gatherItems l) = .ok ∧
      t.Readable (l.flatMap fun p => (upTo 4).map (p.2 + ·)) ∧ l.length = 16 :=
  ⟨by decide +kernel, by decide +kernel, readable_of _ rfl rfl rfl, by decide +kernel⟩

/-- A tile whose t0 holds 16 rows of 16 words. -/
def shaped : Tile := run.withCtl fun c => { c with tsh := c.tsh.setIfInBounds 0 0x00100F02#32 }

theorem witness_WideLoads_tile :
    tileCheck shaped true (.tile 0#4) true 0 = .ok ∧ eaLt shaped 1#4 (.short 0#4) = 0 ∧
      accessCheck shaped .wideLoad 64 .spalign false [imageItem 0 0x00100F02#32 true] = .ok ∧
      loadQual shaped 0#2 [imageItem 0 0x00100F02#32 true] = .ok ∧ shaped.waitsRead 0 (.tile 0#4) 0 = false ∧
      shaped.waitsWrite 0 (.tile 0#4) 0 = false ∧ shaped.Readable (imageAddrs 0 (shapeOf 0x00100F02#32) true) :=
  ⟨by decide +kernel, by decide +kernel, by decide +kernel, by decide +kernel, by decide +kernel, by decide +kernel, readable_of _ rfl rfl rfl⟩

theorem witness_GranulesTaken :
    let t := run.withPad fun p => { p with full := [0, 1, 2, 3] }
    NatSet.wf t.pad.full = true ∧ accessCheck t .load 64 .spalign true [itemOf 0 64] = .ok ∧
      loadQual t 2#2 [itemOf 0 64] = .ok ∧ t.Readable ((upTo 64).map (0 + ·)) ∧
      accessCheck t .load 1 .spalign true [itemOf 63 1] = .ok ∧ loadQual t 2#2 [itemOf 63 1] = .ok :=
  ⟨by decide +kernel, by decide +kernel, by decide +kernel, readable_of _ rfl rfl rfl, by decide +kernel, by decide +kernel⟩

theorem witness_GranulesTaken_wide :
    let t := run.withPad fun p => { p with full := [0] }
    let u := shaped.withPad fun p => { p with full := upTo 64 }
    let l := gatherLanes t 1#4 0#5
    let img := imageAddrs (eaLt u 1#4 (.short 0#4)) (shapeOf (u.tshOf (u.refReg true (.tile 0#4)))) true
    accessCheck t .wideLoad 4 .spalign true (gatherItems l) = .ok ∧ loadQual t 2#2 (gatherItems l) = .ok ∧
      t.Readable (l.flatMap fun p => (upTo 4).map (p.2 + ·)) ∧ NatSet.wf u.pad.full = true ∧
      tileCheck u true (.tile 0#4) true (eaLt u 1#4 (.short 0#4)) = .ok ∧
      accessCheck u .wideLoad 64 .spalign true [⟨eaLt u 1#4 (.short 0#4), img⟩] = .ok ∧
      loadQual u 2#2 [⟨eaLt u 1#4 (.short 0#4), img⟩] = .ok ∧ u.waitsRead 0 (.tile 0#4) 0 = false ∧
      u.waitsWrite 0 (.tile 0#4) 0 = false ∧ u.Readable img :=
  ⟨by decide +kernel, by decide +kernel, readable_of _ rfl rfl rfl, by decide +kernel, by decide +kernel, by decide +kernel,
    by decide +kernel, by decide +kernel, by decide +kernel, readable_of _ rfl rfl rfl⟩

theorem witness_ScalarStores :
    let t := withA run 1 0x2EFC0#32
    (on t).Ready 0#3 ∧ accessCheck t .store 64 .spalign false [itemOf 0x2EFC0 64] = .ok ∧
      storeQual t 0#2 [itemOf 0x2EFC0 64] = .ok ∧ rangeOf 0x2EFC0 ≠ .aperture ∧ eaOf t 64 1#4 (.short 0#5) = 0x2EFC0 ∧
      eaOf (withA run 1 0x50038#32) 4 1#4 (.short 0#5) = 0x50038 ∧ (withA run 1 0x50038#32).chHalted 7 = false ∧
      (withA run 1 0x50038#32).roomFor 32 = true ∧ (withA run 1 0x50038#32).copiesOpen 7 < 16 :=
  ⟨ready_of ⟨rfl, rfl, rfl, rfl, rfl, rfl⟩ rfl, by decide +kernel, by decide +kernel, by decide +kernel, by decide +kernel, by decide +kernel, by decide +kernel, by decide +kernel,
    by decide +kernel⟩

theorem witness_WideStores :
    let l := gatherLanes run 1#4 0#5
    accessCheck run .wideStore 4 .spalign false (gatherItems l) = .ok ∧ storeQual run 0#2 (gatherItems l) = .ok ∧
      tileCheck shaped false (.tile 0#4) false 0 = .ok ∧
      accessCheck shaped .wideStore 64 .spalign false [imageItem 0 0x00100F02#32 false] = .ok ∧
      storeQual shaped 0#2 [imageItem 0 0x00100F02#32 false] = .ok := by decide +kernel

theorem witness_BankAtomics :
    (on run).Ready 0#3 ∧ run.tagFree 7#3 = true ∧ run.pad.queue = [] ∧
      accessCheck run .eval 4 .spalign false [itemOf 0x2EFFC 4] = .ok ∧ run.Readable ((upTo 4).map (0x2EFFC + ·)) ∧
      ((withA run 1 0x2EFF0#32).ra 1#4 + immLa (.short 3#2)).toNat = 0x2EFFC :=
  ⟨ready_of run_between rfl, rfl, rfl, by decide +kernel, readable_of _ rfl rfl rfl, by decide +kernel⟩

theorem witness_BarriersAndGranules :
    accessCheck run .eval 16 .baraln false [itemOf 0 16] = .ok ∧ run.Readable ((upTo 16).map (0 + ·)) ∧
      1 ≤ ((withS run 1 65535#32).rs 1#5).toNat ∧ ((withS run 1 65535#32).rs 1#5).toNat ≤ 65535 ∧
      (run.pad.bar 0).txpend + 65535 < 2 ^ 32 ∧ (run.pad.bar 0).txpend < 65535 ∧ (run.pad.bar 0).txu = false ∧
      (run.pad.bar 0).phase ≠ 65535 % 16 ∧ NatSet.wf run.pad.full = true ∧
      accessCheck run .eval 16 .spalign false (runItems run 1#5 0) = .ok ∧
      accessCheck run .eval 16 .spalign false [itemOf 0x2EFF0 16] = .ok :=
  ⟨by decide +kernel, readable_of _ rfl rfl rfl, by decide +kernel, by decide +kernel, by decide +kernel, by decide +kernel, by decide +kernel, by decide +kernel, by decide +kernel, by decide +kernel,
    by decide +kernel⟩

/-- A carve-out of one line at 0x1000. -/
def carved : Tile := withA (run.withCtl fun c => { c with spcarve := 0x00041000#32 }) 1 0x1000#32

theorem witness_SpillsAndBulkAccesses_carve :
    (on carved).Ready 0#3 ∧ carved.tagFree 1#3 = true ∧ carved.pad.queue = [] ∧ Memory.wf carved.pad.mem = true ∧
      (carved.ra 1#4).toNat % fileSize 0#2 = 0 ∧ carved.ctl.carveBase ≤ (carved.ra 1#4).toNat ∧
      (carved.ra 1#4).toNat + fileSize 0#2 * ((15#4).toNat + 1) ≤ carved.ctl.carveEnd ∧
      carved.Readable ((upTo (fileSize 0#2 * ((15#4).toNat + 1))).map ((carved.ra 1#4).toNat + ·)) ∧
      carved.ctl.carveEnd ≤ padSize :=
  ⟨ready_of ⟨rfl, rfl, rfl, rfl, rfl, rfl⟩ rfl, by decide +kernel, rfl, rfl, by decide +kernel, by decide +kernel,
    by decide +kernel, readable_of _ rfl rfl rfl, by decide +kernel⟩

/-- An open containment block. -/
def block : Block :=
  { handler := 0x100#32, creg := 3, chk := ⟨Files.zero.s, Files.zero.a, Files.zero.p, 0, 0#32, 0#32, [], []⟩, seq := 0
    staged := [], submitted := false }

theorem witness_SpillsAndBulkAccesses_bulk :
    let va := (((run.ctl.bb[(7#3).toNat]?).getD 0#64).toNat + (run.ra 1#4).toNat) % 2 ^ 64
    let t := { run with blocks := [block] }
    let u := run.withPad fun p => { p with buf := [⟨0, List.replicate 64 0#8⟩] }
    va % 8 = 0 ∧ run.blocks = [] ∧ run.pad.bufLine va = none ∧ (on t).Ready 0#3 ∧ t.roomFor 32 = true ∧
      t.pad.bufLine va = none ∧ u.acqOut = false ∧ (u.pad.bufLine va).isSome = true :=
  ⟨by decide +kernel, rfl, rfl, ready_of ⟨rfl, rfl, rfl, rfl, rfl, rfl⟩ rfl, by decide +kernel, rfl, rfl, by decide +kernel⟩

theorem witness_ControlRegisters :
    fmtRefused 0x3#32 = true ∧ fmtRefused 0x2#32 = false ∧ settable 0x003 = true ∧ ctlRefusal run.ctl 0x003 15#32 true = none ∧
      run.getCtl 0x003 = some 0#32 ∧ settable 0x038 = true := by decide +kernel

theorem witness_WaitsAndGuards :
    let t := run.withPad fun p => { p with full := [0] }
    run.sch.flights = [] ∧ run.sch.vops = [] ∧ run.lists = [] ∧ run.sch.links.toList.all (·.isNone) = true ∧
      (∀ i, i < 7 → run.tagSt (i + 1) = .free) ∧ (∀ q ∈ run.pad.queue, q.act.produces = false) ∧ run.restLanded = true ∧
      run.fenceDone 16#5 = true ∧
      (∀ i, i ≤ (0#5).toNat % 16 → t.pad.full.has (0 / 16 + i) = !(0#5).getLsbD 4) ∧
      1 ≤ ((run.copyCh 7).done - 0#32).toNat ∧ ((run.copyCh 7).done - 0#32).toNat ≤ 2 ^ 31 :=
  ⟨rfl, rfl, rfl, by decide +kernel, fun i _ => run_tags _, by decide +kernel⟩

theorem witness_WaitsAndGuards_holds :
    let va := (((run.ctl.bb[(0#3).toNat]?).getD 0#64).toNat + (run.ra 1#4).toNat) % 2 ^ 64
    let t := { run with holds := [⟨0, false, none⟩] }
    va % 64 = 0 ∧ (∀ x ∈ run.holds, x.va ≠ va) ∧ run.holds.length < 4 ∧ run.blocks = [] ∧ (on t).Ready 0#3 ∧
      t.holds = [] ++ ⟨0, false, none⟩ :: [] ∧ (⟨0, false, none⟩ : Hold).va = va :=
  ⟨by decide +kernel, by decide +kernel, by decide +kernel, rfl, ready_of ⟨rfl, rfl, rfl, rfl, rfl, rfl⟩ rfl, rfl,
    by decide +kernel⟩

theorem witness_EndOfTask :
    (on run).Ready 0#3 ∧ (∀ n, 1 ≤ n → n ≤ 7 → run.tagSt n = .free) ∧ run.sch.flights = [] ∧ run.sch.vops = [] ∧
      run.lists = [] ∧ run.sch.links.toList.all (·.isNone) = true ∧ (∀ q ∈ run.pad.queue, q.act.produces = false) ∧
      run.enginesDone = true ∧ run.holds = [] ∧ run.blocks = [] :=
  ⟨ready_of run_between rfl, fun n _ _ => run_tags n, rfl, rfl, rfl, by decide +kernel⟩

/-- A tile with a handler at 0x400, and one inside it. -/
def handled : Tile := run.withCtl fun c => { c with tvec := 0x400#32 }
/-- The tile inside its handler. -/
def masked : Tile := handled.withSch fun c => { c with tm := true }

theorem witness_TrapSlots :
    (on handled).Ready 0#3 ∧ handled.sch.tm = false ∧ handled.sch.pend.length < 32 ∧ handled.ctl.tvec ≠ 0#32 ∧
      (handled.takeTrap .brkpt false 0 0#64 0#64 handled.sch.pc).recs = [] ∧ (on masked).Ready 0#3 ∧ masked.sch.tm = true ∧
      masked.sch.tmSeq ≤ masked.sch.seq :=
  ⟨ready_of ⟨rfl, rfl, rfl, rfl, rfl, rfl⟩ rfl, rfl, by decide +kernel, by decide +kernel, by decide +kernel,
    ready_of ⟨rfl, rfl, rfl, rfl, rfl, rfl⟩ rfl, rfl, by decide +kernel⟩

/-- A frame as the trap of a tile at pc 0 leaves it, with the low half of its first doubleword changed. -/
def framed (f : Nat → Nat) : Tile :=
  (handled.takeTrap .brkpt false 0 0#64 0#64 handled.sch.pc).withPad fun p => { p with mem := p.mem.putVal 0x2F000 8 (f (p.mem.val 0x2F000 8)) }

/-- The three frames are one in order, one with 17 replay entries and one that asks to escalate. -/
theorem witness_ReturnFromTrap :
    let t (f : Nat → Nat) : Tile := (framed f).bump.close 1
    let v (f : Nat → Nat) : Nat := (t f).frameMem.val 0x2F000 8
    ((framed id).sch.tm = true ∧ (framed id).sch.own = [] ∧ (framed id).sch.vops = [] ∧ (framed id).sch.status = .running ∧
      (framed id).recs = [] ∧ (framed id).sch.alloc = [] ∧ (framed id).sch.xfer = none ∧ (framed id).sch.cost = 0 ∧
      (framed id).sch.closing = []) ∧ (t id).frameBad = false ∧ bitOf (v id) 45 = false ∧ bitsOf (v id) 12 5 = 0 ∧
      (t fun x => x + 17 * 2 ^ 12).frameBad = true ∧ (t fun x => x + 2 ^ 45).frameBad = false ∧ bitOf (v fun x => x + 2 ^ 45) 45 = true ∧
      handled.sch.tm = false ∧ handled.ctl.tvec ≠ 0#32 ∧ (handled.takeTrap .illop false 0 0#64 0#64 handled.sch.pc).recs = [] := by
  decide +kernel

theorem witness_ReturnFromTrap_ready : (on (framed id)).Ready 0#3 ∧ (on handled).Ready 0#3 := by
  refine ⟨ready_of ⟨?_, ?_, ?_, ?_, ?_, ?_⟩ ?_, ready_of ⟨rfl, rfl, rfl, rfl, rfl, rfl⟩ rfl⟩ <;> decide +kernel

theorem witness_VectorIntegers :
    (on run).Ready 0#3 ∧ run.tagFree 7#3 = true ∧ (27#5).toNat < 28 ∧ vEncOk run.ctl.fmt (.vcmp solo 27#5 0#5 27#5 5#3) = true :=
  ⟨ready_of run_between rfl, rfl, by decide +kernel, by decide +kernel⟩

theorem witness_VectorArithmetic :
    (on run).Ready 0#3 ∧ run.tagFree 7#3 = true ∧ vEncOk run.ctl.fmt (.vadd solo 27#5 0#5 27#5 7#3 true) = true ∧
      vEncOk 0x4#32 (.vadd solo 26#5 0#5 26#5 7#3 true) = true :=
  ⟨ready_of run_between rfl, rfl, by decide +kernel, by decide +kernel⟩

theorem witness_VectorReductions :
    (on run).Ready 0#3 ∧ run.tagFree 7#3 = true ∧ vEncOk run.ctl.fmt (.vred solo 27#5 27#5 7#3 true) = true ∧
      vEncOk run.ctl.fmt (.vdot solo 27#5 27#5 0#5 7#3 true) = true ∧ vEncOk run.ctl.fmt (.vclamp solo 27#5 27#5 0#5 7#3) = true ∧
      vEncOk run.ctl.fmt (.vrndb solo 27#5 27#5 7#3) = true ∧ vEncOk run.ctl.fmt (.vsgn solo 7#3 true true 27#5 7#3) = true ∧
      vEncOk run.ctl.fmt (.vthr solo 7#3 true true 27#5 0#5 7#3) = true :=
  ⟨ready_of run_between rfl, rfl, by decide +kernel, by decide +kernel, by decide +kernel, by decide +kernel, by decide +kernel,
    by decide +kernel⟩

/-- A live link whose producer has completed. -/
def liveLink : Link := ⟨Vector.replicate 16 0#64, Vector.replicate 16 (.zero false), 0, 0, false, 0, 5, false, false, 0, none⟩

theorem witness_DigitLinks :
    let t := run.withSch fun c => { c with links := c.links.setIfInBounds 3 (some liveLink) }
    (on run).Ready 0#3 ∧ run.tagFree 7#3 = true ∧ fmtPrec64 run.ctl.fmt = false ∧ (∀ l : Fin 4, run.link l = none) ∧
      vEncOk 0x4#32 (.vadd solo 28#5 26#5 0#5 7#3 true) = true ∧ vEncOk run.ctl.fmt (.vadd solo 28#5 27#5 27#5 7#3 true) = true ∧
      (on t).Ready 0#3 ∧ t.link 3 = some liveLink ∧ liveLink.consumer = none ∧ liveLink.prec64 = false ∧
      vEncOk t.ctl.fmt (.vadd solo 27#5 31#5 27#5 7#3 true) = true ∧ vEncOk 0x4#32 (.vadd solo 26#5 31#5 26#5 7#3 true) = true :=
  ⟨ready_of run_between rfl, rfl, by decide +kernel, by decide +kernel, by decide +kernel, by decide +kernel,
    ready_of ⟨rfl, rfl, rfl, rfl, rfl, rfl⟩ rfl, rfl, rfl, rfl, by decide +kernel, by decide +kernel⟩

/-- A decider at the end of its window. -/
def deciding : VOp :=
  ⟨1, 0, 0, 7#3, [.p 7 true], 0#5, 0#5, none, [3], some ⟨0, 0⟩, 0, false, 0, 0, 0#32, 0, [], .vsgn solo 7#3 true true 31#5 7#3,
    ⟨0#32, none, 0, 0⟩⟩
/-- The producer of the link it reads, which is not complete. -/
def feeding : VOp :=
  ⟨0, 5, 0, 6#3, [], 16#5, 0#5, some 3, [], none, 5, false, 5, 1, 0#32, 28, [], .vadd solo 31#5 0#5 0#5 6#3 false,
    ⟨0#32, none, 0, 0⟩⟩

theorem witness_DigitLinks_cancel :
    let k : Link := { liveLink with consumer := some 1 }
    let t := run.withSch fun c => { c with vops := [feeding, deciding], links := c.links.setIfInBounds 3 (some k) }
    (on t).tileAt run.coord = some t ∧ t.Live ∧ feeding.seq < deciding.seq ∧ t.sch.cycle < feeding.due ∧
      deciding.decider = some ⟨0, 0⟩ ∧ deciding.srcs = [3] ∧ deciding.flags = 0#5 ∧ t.blocks = [] ∧ t.link 3 = some k ∧
      k.producer = feeding.seq ∧ k.consumer = some deciding.seq :=
  ⟨rfl, ⟨rfl, rfl⟩, by decide +kernel⟩

/-- 1, −1, 0, 2, a NaN and the infinities in FP32; contexts of full precision and of the least budget. -/
theorem witness_RoundedArithmetic :
    let one := f32.unpack 0x3F800000
    let minus := f32.unpack 0xBF800000
    let zero := f32.unpack 0x80000000
    let two := f32.unpack 0x40000000
    let least := RCtx.budget f64 .rup 4
    (RCtx.full f32 .rne).f = f32 ∧ 1 ≤ (RCtx.full f32 .rne).prec ∧ (RCtx.full f32 .rne).prec = f32.p ∧ least.f = f64 ∧
      1 ≤ least.prec ∧ least.prec ≤ f64.p ∧ one.finite = true ∧ minus.finite = true ∧ two.finite = true ∧ zero.finite = true ∧
      (f32.unpack 0x7FC00000).isNan = true ∧ f32.unpack 0xFF800000 = .inf true ∧
      one.rat + minus.rat = 0 ∧ one.rat + two.rat ≠ 0 ∧ one.rat * two.rat ≠ 0 ∧ one.rat * zero.rat = 0 ∧ two.rat ≠ 0 ∧
      zero.rat = 0 ∧ one.rat * minus.rat + two.rat ≠ 0 ∧ one.rat * minus.rat + one.rat = 0 ∧
      ([0x3F800000, 0x40000000, 0x80000000].map fun a => (f32.unpack a).rat).sum ≠ 0 := by decide +kernel
theorem between_ready {t : Tile} {g : BitVec 3} (h : t.Between) (hg : t.rp g = true) : (on t).Ready g := ⟨rfl, h, hg⟩

/-- A tile whose tile registers all hold 16 by 16 elements of one byte, then of four bytes; the ring 1 of one slot. -/
def square (ew : Nat) : Tile :=
  { run with ctl := { run.ctl with tsh := Vector.replicate 16 (BitVec.ofNat 32 (0x100F00 + ew)) } }

/-- A tile with a declared ring of registers, every slot landed. -/
def ringed : Tile :=
  (square 0).withEng fun e => { e with rings := e.rings.setIfInBounds 7 ⟨true, 14, 1, 0, 0, [.landed, .landed]⟩ }

theorem witness_EngineIssue :
    (on (square 2)).Ready 0#3 ∧ (square 2).tagFree 7#3 = true ∧ (on ringed).Ready 0#3 := by
  refine ⟨ready_of ⟨rfl, rfl, rfl, rfl, rfl, rfl⟩ rfl, rfl, ready_of ⟨rfl, rfl, rfl, rfl, rfl, rfl⟩ rfl⟩

theorem witness_EngineIssue_passes :
    EReady (.mxw solo (.ring 7#3) 7#3) ringed ∧ EReady (.mxf solo 3#2 (.tile 15#4) 7#3) (square 0) ∧
      EReady (.mxz solo 3#2 none 7#3) run ∧ EReady (.upadm solo 15#4 14#4 13#4 12#4 7#3) (square 2) ∧
      EReady (.rnuni solo (.tile 15#4) 31#5 31#5 7#3) (square 2) ∧ EReady (.xpt solo (.tile 1#4) (.tile 15#4) 7#3) (square 2) := by
  simp only [EReady]
  decide +kernel

theorem witness_EngineIssue_rings :
    (15#4).toNat + (0#4).toNat < 16 ∧ (run.ring (7#3).toNat).defd = false ∧
      (∀ k, k ≤ (0#4).toNat → ∀ g ∈ run.eng.rings.toList, g.owns ((15#4).toNat + k) = false) ∧ run.ringBusy (7#3).toNat = false := by
  decide +kernel

/-- A tile with its outbound channel 31 open, with credit for `n` packets, and a tree 7 rooted here. -/
def sender (n : Nat) : Tile :=
  { run with
    outs := run.outs.setIfInBounds 31 ⟨0x8000000000000001#64, n, 0xFFFFFFFF#32, false⟩
    trees := run.trees.setIfInBounds 7 ⟨0xC080000000000000#64, 0xFFFF, 0, [], 0, none, []⟩ }

theorem witness_ChannelSends :
    (on (sender 1)).Ready 0#3 ∧ (sender 1).tagFree 7#3 = true ∧ ((sender 1).outCh 31).entry.getLsbD 63 = true ∧
      ((sender 1).outCh 31).dead = false ∧ (sender 1).reading 31 = false ∧ (64 * 4 + 255) / 256 ≤ ((sender 1).outCh 31).credit ∧ (sender 1).blocks = [] ∧
      (sender 1).pair = none ∧ shapeValid ((square 0).tshOf ((square 0).refReg false (.tile 15#4))) = true ∧
      (ringed.ring (7#3).toNat).defd = true ∧ (ringed.ring (7#3).toNat).canTake = true := by
  refine ⟨ready_of ⟨rfl, rfl, rfl, rfl, rfl, rfl⟩ rfl, ?_⟩
  decide +kernel

theorem witness_ChannelSends_block :
    let t := { sender 1 with blocks := [block] }
    (on t).Ready 0#3 ∧ block.seq ≤ t.sch.seq ∧ t.roomFor (sendRoom 256) = true :=
  ⟨ready_of ⟨rfl, rfl, rfl, rfl, rfl, rfl⟩ rfl, by decide +kernel⟩

theorem witness_ChannelSends_memory :
    let t := withS (withA (sender 8) 15 0x1000#32) 31 2048#32
    let u := { t with pad := { t.pad with full := (upTo 0x80).map (0x100 + ·) } }
    let a := (t.ra 15#4).toNat
    let len := (t.rs 31#5).toNat
    (on t).Ready 0#3 ∧ ((withS t 31 64#32).rs 31#5).toNat = 64 ∧ 64 < len ∧ t.roomFor (sendRoom len) = true ∧ t.reading 31 = false ∧
      a % 4 = 0 ∧ len % 4 = 0 ∧ 4 ≤ len ∧ len ≤ 2048 ∧ a + len ≤ padSize ∧ a % 16 = 0 ∧ len % 16 = 0 ∧
      (∀ g ∈ granules a len, u.pad.full.has g = true) ∧ NatSet.wf u.pad.full = true ∧ (∀ m : Fin 32, (t.inCh m).bound = false) ∧
      (len + 255) / 256 ≤ (t.outCh 31).credit := by
  refine ⟨ready_of ⟨rfl, rfl, rfl, rfl, rfl, rfl⟩ rfl, ?_⟩
  decide +kernel

/-- A memory send of 128 bytes at 0x2FF80 in the cycle that reads its second half. -/
theorem witness_ChannelSends_ends :
    let h : PHead := ⟨⟨none, ⟨0, 0⟩⟩, ⟨none, ⟨999, 999⟩⟩, 31, 31, 0#32, 0, false⟩
    let o : SendOp := ⟨0, 0, 31, 0x2FF80, 128, true, List.replicate 64 7#8, [], some [h], [], [], false, 3⟩
    let t : Tile := { sender 1 with sends := [o], sch := { run.sch with cycle := 3 } }
    t.sends = [o] ∧ t.pair = none ∧ t.pad.bad = [] ∧ t.pad.poison = [] ∧ [h].length = (o.len + 255) / 256 ∧ o.data.length < o.len ∧
      o.len ≤ o.data.length + 64 ∧ o.issued + o.data.length / 64 ≤ t.sch.cycle ∧ o.done ≤ t.sch.cycle ∧
      o.addr % 16 = 0 ∧ o.len % 16 = 0 ∧ o.data.length % 16 = 0 ∧ t.pad.queue = [] ∧ (∀ m : Fin 32, (t.inCh m).bound = false) ∧
      NatSet.wf t.pad.full = true := by decide +kernel

theorem witness_ChannelSends_tree :
    let x := (sender 1).tree 7
    let u := { sender 1 with trees := (sender 1).trees.setIfInBounds 7 { x with abandoned := [0xFFFF] } }
    x.entry.getLsbD 63 = true ∧ x.entry.getLsbD 55 = true ∧ x.entry.getLsbD 51 = false ∧ x.entry.getLsbD 54 = false ∧
      x.count ∉ x.abandoned ∧ (sender 1).localBusy 7 = false ∧ (u.tree 7).count ∈ (u.tree 7).abandoned ∧ u.sch.tm = false ∧
      u.sch.pend.length < 32 := by decide +kernel

/-- A tile with its inbound channel 31 open, unbound, and a binding of 64 slots at address 0. -/
def receiver : Tile :=
  { run with
    ins := run.ins.setIfInBounds 31 ⟨0x8000000000000000#64, false, 0#128, 0#32, 0#32, false, false, none⟩
    pad := { run.pad with mem := run.pad.mem.putVal 0 16 (0x1000 + 64 * 2 ^ 32) } }

theorem witness_ReceiveBinding :
    (on receiver).Ready 0#3 ∧ receiver.pad.queue = [] ∧ receiver.pair = none ∧ (receiver.inCh 31).entry.getLsbD 63 = true ∧
      (receiver.inCh 31).entry.getLsbD 61 = false ∧ (receiver.inCh 31).once = false ∧
      receiver.Readable ((upTo 16).map ((receiver.ra 15#4).toNat + ·)) ∧
      bindingRefused (receiver.pad.mem.val (receiver.ra 15#4).toNat 16) = false :=
  ⟨ready_of ⟨rfl, rfl, rfl, rfl, rfl, rfl⟩ rfl, rfl, rfl, by decide +kernel, by decide +kernel, by decide +kernel,
    readable_of _ rfl rfl rfl, by decide +kernel⟩

/-- A load that waits for its data after its park notice. -/
def parkedLoad : BulkAcc := ⟨0, .bldw, 0, 4, [], 7#3, [31], .parked 0 0 1 .bxnomap, true, false, false, false⟩

theorem witness_ChannelQueries :
    let t := withS (sender 0) 31 65535#32
    let u := { run with accs := [parkedLoad] }
    (on t).Ready 0#3 ∧ (t.outCh 31).entry.getLsbD 63 = true ∧ (t.outCh 31).dead = false ∧ t.tagFree 7#3 = true ∧ t.reading 31 = false ∧
      (t.rs 31#5).toNat = 65535 ∧ t.blocks = [] ∧ t.pair = none ∧ { t with blocks := [block] }.roomFor 32 = true ∧
      u.portwTarget 7#3 = some parkedLoad ∧ u.portwTarget 6#3 = none := by
  refine ⟨ready_of ⟨rfl, rfl, rfl, rfl, rfl, rfl⟩ rfl, ?_⟩
  decide +kernel

theorem witness_Containment :
    let t := { run with blocks := [block] }
    let u := { run with blocks := [block, block] }
    let p : Pending := ⟨.mxres, 0#64, 0#64, 0, 0, none⟩
    let w := t.withSch fun c => { c with pend := [p] }
    run.blocks.length < 2 ∧ (on t).Ready 0#3 ∧ block.staged = [] ∧ block.submitted = false ∧ t.blockDone block.seq = true ∧
      u.blockDone block.seq = true ∧ (on w).tileAt w.coord = some w ∧ w.frozen = false ∧ w.recs = [] ∧ w.sch.tm = false ∧
      isContainment p.cause = true ∧ w.pad.queue = [] :=
  ⟨by decide +kernel, ready_of ⟨rfl, rfl, rfl, rfl, rfl, rfl⟩ rfl, rfl, rfl, by decide +kernel, by decide +kernel, rfl, rfl, rfl,
    rfl, rfl, rfl⟩

/-- A store that waits at port A, at the top of the scratchpad. -/
def lastStore : PortQ := ⟨0, 0, 0, .store [(0x2FFFF, 0xAB#8)] [0x2FFF], ⟨0#32, none, 0, 0⟩⟩
/-- An arrival of all that a barrier expects, and one above it. -/
def lastArrival (n : Nat) : PortQ := ⟨0, 0, 0, .arrive 0x2FFF0 n 7#3, ⟨0#32, none, 0, 0⟩⟩

theorem witness_QueuedAccesses :
    let t := run.withPad fun p => { p with queue := [lastStore] }
    let u (n : Nat) := run.withPad fun p => { p with queue := [lastArrival n], mem := p.mem.putVal 0x2FFF0 16 (Bar.init 3 0).toVal }
    (on t).tileAt run.coord = some t ∧ t.Live ∧ lastStore.at_ ≤ t.sch.cycle ∧ t.pad.bad = [] ∧ NatSet.wf t.pad.full = true ∧
      t.pad.inj.armed = 0 ∧ Memory.wf t.pad.mem = true ∧ ([(0x2FFFF, 0xAB#8)].map (·.1)).Nodup ∧ (u 3).Live ∧
      (u 3).Readable ((upTo 16).map (0x2FFF0 + ·)) ∧ 0x2FFF0 + 16 ≤ padSize ∧ ((u 3).pad.bar 0x2FFF0).pend = 3 ∧
      ((u 4).pad.bar 0x2FFF0).pend < 4 ∧ (u 4).sch.tm = false :=
  ⟨rfl, ⟨rfl, rfl⟩, Nat.le_refl _, rfl, rfl, rfl, rfl, by decide, ⟨rfl, rfl⟩, readable_of _ rfl rfl rfl, by decide +kernel,
    by decide +kernel, by decide +kernel, rfl⟩

/-- A word result about to land, and a vector operation about to decide. -/
def landing : Flight := ⟨0, 0, 7#3, [.s 31 5#32], none, 0, 0#64, 0#32, [], ⟨0#32, none, 0, 0⟩⟩
theorem witness_QueuedAccesses_results :
    let t := run.withSch fun c => { c with flights := [landing] }
    let k : Link := { liveLink with consumer := some 1 }
    let u := run.withSch fun c => { c with vops := [deciding], links := c.links.setIfInBounds 3 (some k) }
    t.Live ∧ t.sch.vops = [] ∧ landing.due ≤ t.sch.cycle ∧ landing.ring = none ∧ t.blocks = [] ∧ u.Live ∧
      deciding.decider = some ⟨0, 0⟩ ∧ 0 ≤ u.sch.cycle ∧ deciding.flags = 0#5 ∧
      ∀ n ∈ deciding.srcs, n < 4 ∧ ∃ k, u.link n = some k ∧ k.consumer = some deciding.seq :=
  ⟨⟨rfl, rfl⟩, rfl, Nat.le_refl _, rfl, rfl, ⟨rfl, rfl⟩, rfl, Nat.le_refl _, rfl, fun n hn => by
    rw [List.mem_singleton.mp hn]
    exact ⟨by decide, _, rfl, rfl⟩⟩

/-- An operation issued in cycle 0 by a tile whose t registers hold 16 rows of 16 elements of `ew` bytes. -/
def issued (ew : Nat) (fmt : Word) (i : Instr) : EOp :=
  ⟨0, 0, i, 7#3, fmt, (square ew).ctl.tsh, vzero, 0x3F800000#32, 0x3F800000#32, run.ctl.hy, List.replicate 4 0#32,
    ⟨0#32, none, 0, 0⟩⟩
/-- Its tile a cycle later, with valid weights, the operation at the head of its engine's queue. -/
def aboutTo (ew : Nat) (fmt : Word) (i : Instr) : Tile :=
  ((square ew).withSch fun c => { c with cycle := 1 }).withEng fun e =>
    ({ e with arr := { e.arr with wvalid := true } } : Engines).set (engineOf i) ⟨[issued ew fmt i], []⟩

/-- What MayFire asks of it but for the state of the array. -/
theorem mayFire_of (ew : Nat) (fmt : Word) (i : Instr)
    (h : let t := aboutTo ew fmt i
      let o := issued ew fmt i
      t.frozen = false ∧ t.recs = [] ∧ t.sch.status ≠ .halted ∧ (t.eng.get (engineOf i)).queue = [o] ∧
        t.canFire (t.eng.get (engineOf i)) o = true ∧ (∀ x ∈ engReads i ++ engWrites i, shapeValid (o.shapeIn t x) = true) ∧
        formOk i fmt (fun x => some (shapeOf (o.shapeIn t x))) = true ∧ t.eng.arr.failed = false ∧ t.inj.armed = 0 ∧
        t.eng.strikes = []) (ha : (issued ew fmt i).ArrayReady (aboutTo ew fmt i).eng.arr) :
    (aboutTo ew fmt i).MayFire (engineOf i) (issued ew fmt i) [] := by
  obtain ⟨h1, h2, h3, h4, h5, h6, h7, h8, h9, h10⟩ := h
  exact ⟨⟨h1, h2⟩, h3, h4, rfl, h5, h6, h7, ha, h8, h9, h10⟩

/-- EngineOperations: an operation of each engine and of each shape, about to fire. -/
theorem witness_EngineOperations :
    (aboutTo 2 0#32 (.xpt solo (.tile 1#4) (.tile 15#4) 7#3)).MayFire .xp (issued 2 0#32 (.xpt solo (.tile 1#4) (.tile 15#4) 7#3)) [] ∧
      (aboutTo 1 1#32 (.mxw solo (.tile 15#4) 7#3)).MayFire .mx (issued 1 1#32 (.mxw solo (.tile 15#4) 7#3)) [] ∧
      (aboutTo 2 0#32 (.upadm solo 15#4 14#4 13#4 12#4 7#3)).MayFire .up (issued 2 0#32 (.upadm solo 15#4 14#4 13#4 12#4 7#3)) [] ∧
      (aboutTo 2 0#32 (.rnuni solo (.tile 15#4) 31#5 31#5 7#3)).MayFire .rn (issued 2 0#32 (.rnuni solo (.tile 15#4) 31#5 31#5 7#3)) [] := by
  refine ⟨mayFire_of _ _ _ (by decide +kernel) trivial, mayFire_of _ _ _ (by decide +kernel) trivial,
    mayFire_of _ _ _ (by decide +kernel) trivial, mayFire_of _ _ _ (by decide +kernel) trivial⟩

theorem witness_EngineOperations_array :
    (aboutTo 0 0#32 (.mxf solo 3#2 (.tile 15#4) 7#3)).MayFire .mx (issued 0 0#32 (.mxf solo 3#2 (.tile 15#4) 7#3)) [] ∧
      (aboutTo 0 0#32 (.mxp solo 3#2 27#5 31#5 7#3)).MayFire .mx (issued 0 0#32 (.mxp solo 3#2 27#5 31#5 7#3)) [] ∧
      (aboutTo 2 0#32 (.mxo solo (.tile 15#4) 3#2 7#3)).MayFire .mx (issued 2 0#32 (.mxo solo (.tile 15#4) 3#2 7#3)) [] := by
  have hz : ∀ (ew : Nat) (fmt : Word) (i : Instr), engineOf i = .mx → ∀ x : ZAcc, (aboutTo ew fmt i).eng.arr.z[3]? = some x →
      x = ZAcc.zero := fun ew fmt i hi x hx => by
    simp only [aboutTo, hi] at hx
    exact (Option.some.inj hx).symm
  refine ⟨mayFire_of _ _ _ (by decide +kernel) ⟨rfl, fun x hx => ?_⟩,
    mayFire_of _ _ _ (by decide +kernel) ⟨⟨rfl, fun x hx => ?_⟩, fun _ x hx => ?_⟩, mayFire_of _ _ _ (by decide +kernel) fun x hx => ?_⟩
  · rw [hz _ _ _ rfl x hx]
    exact fun h => absurd h (by decide)
  · rw [hz _ _ _ rfl x hx]
    exact fun h => absurd h (by decide)
  · rw [hz _ _ _ rfl x hx]
    decide +kernel
  · rw [hz _ _ _ rfl x hx]
    rfl

/-- XPT t1, t15 at its completion, an MXZ of z3 and an XPT to a ring. -/
def finished (i : Instr) (w : EWrite) : EFired := ⟨issued 2 0#32 i, 1, 1, 1, 1, [w], [], none, false⟩

theorem witness_EngineOperations_complete :
    let u (f : EFired) := (run.withSch fun c => { c with cycle := 1 }).withEng fun e => e.set (engineOf f.op.inst) ⟨[], [f]⟩
    let b : List Byte := List.replicate 1024 0#8
    let f := finished (.xpt solo (.tile 1#4) (.tile 15#4) 7#3) (.tile 1 b)
    let z := finished (.mxz solo 3#2 none 7#3) (.acc 3 ZAcc.zero)
    let r := finished (.xpt solo (.ring 7#3) (.tile 15#4) 7#3) (.ring 7 1 15 b)
    (u f).Live ∧ (u f).inj.armed = 0 ∧ (u f).eng.strikes = [] ∧ ((u f).eng.get .xp).fired = [f] ∧
      f.done ≤ (u f).sch.cycle ∧ f.fault = none ∧ f.dropped = false ∧ streams f.op.inst = false ∧
      f.writes = [(1, b)].map (fun x => .tile x.1 x.2) ∧ ((u z).eng.get .mx).fired = [z] ∧ z.writes = [.acc 3 ZAcc.zero] ∧
      ((u r).eng.get .xp).fired = [r] ∧ r.writes = [.ring 7 1 15 b] :=
  ⟨⟨rfl, rfl⟩, rfl, rfl, rfl, Nat.le_refl _, rfl, rfl, rfl, rfl, rfl, rfl, rfl, rfl⟩

/-- An inbound copy of one row of `n` bytes from a virtual address, not begun, or with its row performed. -/
def copyJob (n va : Nat) (done : Bool) : CopyJob :=
  ⟨1#32, 0, ⟨0, 0, 0, false, false, false, false, false, 0, 0, n, 1, 0, va, 0⟩, 0, 0, [], [], none, none, done, false, false⟩

theorem witness_CopyLines :
    let k : CopyCh := ⟨1#32, 1#32, none, [copyJob 16 0 true]⟩
    k.jobs = [copyJob 16 0 true] ∧ k.done = (copyJob 16 0 true).id ∧ (copyJob 16 0 true).complete = false ∧ (copyJob 16 0 true).tpl.out = false ∧
      (copyJob 16 0 true).tpl.bar = false ∧ ({ k with jobs := [copyJob 16 0 false] } : CopyCh).runnable = some (copyJob 16 0 false) := by
  decide +kernel

/-- A device that came up, 1,000 µs after its reset, with one key slot of context 0 and `l` sealed under it. -/
def ready (l : List Nat) : Device :=
  { Device.zero with
    now := 1000
    ready := Device.zero.ready.map fun r => { r with ready := true, kstate := 1 }
    kiln := { Kiln.zero with keys := [⟨1, 0, 55, false⟩] }
    seals := l.map fun a => (a, 55)
    power := ⟨true, false, false, 52000⟩ }

/-- The same with context 0 valid: its one range entry takes every address of the first MiB to stack 0, at 1 MiB, under key
slot 1; 16 of its lines are sealed. -/
def mapped : Device :=
  let dv := ready ((upTo 16).map fun k => 0x100000 + 64 * k)
  { dv with
    hbm := (dv.hbm.putVal 0 128 (0x1000 + 2 ^ 197)).putVal 0x1000 64
      (0xFFFFF * 2 ^ 64 + 0x100000 * 2 ^ 128 + 1 * 2 ^ 256 + 2 ^ 264 + 2 ^ 265 + 2 ^ 266) }

/-- The translation of virtual address 0, alone and with a replica. -/
def wordXlat (r : List Nat) : Xlat := ⟨0, 0x100000, 1, r, 0, 0, 0⟩

theorem opens_of {dv : Device} {x : Xlat} {ctx m : Nat}
    (h : x.tgt = 0 ∧ x.reps = [] ∧ x.key ≠ 0 ∧ dv.keyFor ctx x.key = some m ∧ dv.portUp (stackOf x.pa) = true ∧
      dv.portGone (stackOf x.pa) = false ∧ (∀ l ∈ dv.locks, l.line ≠ x.pa / 64 * 64) ∧ dv.bad.has (x.pa / 64 * 64) = false ∧
      dv.poison.has (x.pa / 64 * 64) = false ∧ dv.soft.has (x.pa / 64 * 64) = false ∧
      dv.sealOf (x.pa / 64 * 64) = some m ∧ Memory.wf dv.hbm = true) : dv.Opens ctx x m := by
  obtain ⟨h1, h2, h3, h4, h5, h6, h7, h8, h9, h10, h11, h12⟩ := h
  exact ⟨h1, h2, h3, h4, h5, h6, h7, h8, h9, h10, h11, h12⟩

theorem mapped_opens : mapped.Opens 0 (wordXlat []) 55 := opens_of (by decide +kernel)

/-- How the first line of a copy at (0, 0) ends, and whether its tile has nothing to report. -/
def lineEnds (j : CopyJob) : Option LineEnd :=
  match (j.tpl.rowLines 0)[0]? with
  | some l => match State.copyLine { on run with dev := mapped } run 0 j l with
    | (e, s) => match s.tileAt ⟨0, 0⟩ with
      | some t => if t.recs.isEmpty && t.coord == ⟨0, 0⟩ then some e else none
      | none => none
  | none => none

/-- A row of one line, which is performed; a row of two; a row at an address that is not mapped, which parks. -/
theorem witness_CopyLines_row :
    let s : State := { on run with dev := mapped }
    let x := mapped.translate (mapped.entryPort ⟨0, 0⟩) 0 0 false
    s.copyStop run = false ∧ run.acks.elem .copy = false ∧ (copyJob 16 0 false).tpl.rowLines 0 = [(0, 0, 16)] ∧
      run.lineBusy 0 0 = false ∧ x.1 = .ok (wordXlat []) ∧ x.2.keyLeaves 0 (wordXlat []) = false ∧
      s.portFull (mapped.targetPort (mapped.entryPort ⟨0, 0⟩) false (wordXlat [])) = false ∧
      (copyJob 16 0 false).lock = none ∧ (copyJob 16 0 false).tpl.setf = false ∧ ((upTo 16).map ((copyJob 16 0 false).tpl.spAt 0 ·)).Nodup ∧
      Memory.wf run.pad.mem = true ∧ lineEnds (copyJob 16 0 false) = some .done ∧
      ((copyJob 128 0 false).tpl.rowLines 0).length = 2 ∧ lineEnds (copyJob 128 0 false) = some .done ∧
      (match lineEnds (copyJob 16 0x100000 false) with
        | some (.parked _ _ _) => true
        | _ => false) = true := by decide +kernel

theorem witness_CopyLines_opens : (mapped.translate (mapped.entryPort ⟨0, 0⟩) 0 0 false).2.Opens 0 (wordXlat []) 55 :=
  opens_of (by decide +kernel)

/-- A tile whose bundle's bounded wait has expired. -/
def expired (k : StallKind) : Tile := handled.withSch fun c => { c with stall := some ⟨k, 0, 0#64, 0#64, true, 0x2FFF0, [(0, k, 5)]⟩ }

theorem witness_EventsThatTrap (k : StallKind) :
    (on (expired k)).tileAt ⟨0, 0⟩ = some (expired k) ∧ (expired k).frozen = false ∧ (expired k).recs = [] ∧
      (expired k).sch.tm = false ∧ (expired k).ctl.tvec = 0x400#32 ∧ (expired k).blocks = [] :=
  ⟨rfl, rfl, rfl, rfl, rfl, rfl⟩

theorem witness_EventsThatTrap_taken :
    let clear (t : Tile) : Tile := { t with sch := { t.sch with stall := none, waited := 0 } }
    let p : Pending := ⟨.trapi, 0#64, 0#64, 0, 0, none⟩
    let t := handled.withSch fun k => { k with pend := [p] }
    ((clear (expired .fe)).takeTrap .fetmo false 0 0#64 0#64 0#32).recs = [] ∧
    ((clear ((expired .bar).withPad fun p => { p with mem := p.mem.putVal 0x2FFF0 16 { p.bar 0x2FFF0 with tmo := true }.toVal
      })).takeTrap .bartmo false 0 0#64 0#64 0#32).recs = [] ∧
    t.sch.status = .running ∧ t.sch.pend = [p] ∧ isContainment p.cause = false ∧
    (handled.takeTrap .illop false 7 0#64 0#64 handled.sch.pc).recs = [] := by
  decide +kernel

theorem witness_TrapEntry :
    handled.pad.queue = [] ∧ handled.sch.flights = [] ∧ handled.sch.vops = [] ∧ handled.lists = [] ∧
      handled.sch.links = Vector.replicate 4 none ∧ handled.ctl.tvec ≠ 0#32 ∧ handled.ctl.rrb < 16 ∧ handled.ctl.vbud < 32 ∧
      handled.sch.rstk.length ≤ 16 ∧ handled.sch.lstk.length ≤ 4 ∧ handled.sch.pc.toNat < 0x4000 ∧ handled.sch.cycle < 2 ^ 64 ∧
      handled.tstat < 2 ^ 32 ∧ Memory.wf handled.pad.mem = true ∧ masked.sch.tm = true := by decide +kernel

/-- A packet header between two tiles. -/
def header : PHead := ⟨⟨none, ⟨0, 0⟩⟩, ⟨none, ⟨999, 999⟩⟩, 31, 31, 0xFFFFFFFF#32, 0, false⟩
/-- A packet at a corner of the map with hops left. -/
def flit (dx dy : Int) (yx : Bool) : Flit := ⟨.packet header [1#8] [] false, ⟨0, 0⟩, false, dx, dy, yx, 0⟩

theorem witness_FabricHops :
    let s (f : Flit) : State := { on run with dev := { ready [] with net := [f] } }
    let d := { ready [] with down := [(⟨0, 0⟩, Dir.w)], resends := [(⟨0, 0⟩, .e, 15), (⟨0, 0⟩, .n, 16)] }
    (s (flit 0 0 true)).core.out = [] ∧ (s (flit 0 0 true)).others = [] ∧ (flit (-1) 1 false).dx ≠ 0 ∧
      (flit (-1) 1 false).msg.vc ≤ 3 ∧ (s (flit (-1) 1 false)).dev.noHop ⟨0, 0⟩ .w 0 = false ∧
      (s (flit (-1) 1 false)).dev.refuses ⟨0, 0⟩ .w 0 = false ∧ (s (flit 1 (-1) true)).dev.refuses ⟨0, 0⟩ .n 0 = false ∧
      d.refuses ⟨0, 0⟩ .w 0 = false ∧ { d with ready := d.ready.set 108 { Ready.zero with kstate := 3, peer := 9 } }.secure 0 9 = true ∧
      header.src.remote = none ∧ (s (flit 0 0 true)).dev.bufSoft = [] ∧ (s (flit 0 0 true)).dev.bufBad = [] ∧
      (s (flit (-1) 1 false)).tileAt (neighbour ⟨0, 0⟩ .w) = none ∧ (s (flit 1 (-1) true)).tileAt (neighbour ⟨0, 0⟩ .n) = none ∧
      (s (flit 1 (-1) true)).dev.noHop ⟨0, 0⟩ .n 0 = false ∧
      (⟨0, 0⟩, Dir.w) ∈ d.down ∧ d.resendsOf ⟨0, 0⟩ .e + 1 = 16 ∧ d.regions[regionOf (neighbour ⟨0, 0⟩ .e)]? = some (Region.zero 0) ∧
      16 ≤ d.resendsOf ⟨0, 0⟩ .n ∧ (⟨0, 0⟩, Dir.n) ∉ d.down := by decide +kernel

/-- R83, R401: a secure optical link whose frame fails for the 16th time in a row. -/
theorem witness_FabricHops_optical :
    let d := { ready [] with ready := (ready []).ready.set 139 { Ready.zero with kstate := 3, peer := 9 }, frames := [(31, 15)] }
    (d.readyOf (108 + 31)).kstate = 3 ∧ d.framesOf 31 + 1 = 16 ∧ 16 ≤ { d with frames := [(31, 16)] }.framesOf 31 ∧
      d.secure 31 9 = true ∧ (∀ t ∈ (on run).core :: (on run).others, t.accs = []) := by decide +kernel

/-- The machine with a message that has arrived at its tile. -/
def arrived (t : Tile) (m : Msg) : State := { on t with dev := { ready [] with net := [⟨m, ⟨0, 0⟩, true, 0, 0, false, 0⟩] } }

theorem arrived_ok (t : Tile) (m : Msg) (h : (on t).tileAt ⟨0, 0⟩ = some t) (hr : t.recs = []) :
    (arrived t m).Arrived ⟨0, 0⟩ t m := ⟨h, ⟨_, rfl, rfl, rfl, rfl⟩, hr⟩

/-- A tile with its inbound channel 31 bound to 4 slots of 16 bytes at 0x400, from the tile west of it, and a barrier. -/
def bound : Tile :=
  { run with
    ins := run.ins.setIfInBounds 31 ⟨0x87C00000000003FF#64, true, BitVec.ofNat 128 (0x400 + 4 * 2 ^ 32), 0#32, 0#32, true, false, none⟩
    pad := { run.pad with mem := run.pad.mem.putVal 0x2EFF0 16 (Bar.init 3 0).toVal } }

theorem witness_ReceiptSteps :
    let h : PHead := { header with src := entryDest ⟨0, 0⟩ (bound.inCh 31).entry }
    (arrived bound (.packet h (List.replicate 16 7#8) [] false)).Arrived ⟨0, 0⟩ bound (.packet h (List.replicate 16 7#8) [] false) ∧
      bound.pair = none ∧ bound.sch.pend.length < 32 ∧ bound.fromSender (bound.inCh 31) h = true ∧ (ready []).awaitsRestore ⟨0, 0⟩ h = false ∧ h.src.remote = none ∧ bound.sch.status = .running ∧
      (bound.inCh 31).bound = true ∧ bitOf (bound.inCh 31).binding.toNat 48 = false ∧ 16 ≤ 16 * (bound.inCh 31).slotG ∧
      bound.slotEmpty (bound.inCh 31) = true ∧
      (arrived bound (.credit ⟨none, ⟨0, 0⟩⟩ 31 1)).savedFor ⟨0, 0⟩ 31 = none ∧ Memory.wf bound.pad.mem = true ∧ (bound.inCh 31).broken = false ∧
      (0x2EFF0#32).toNat % 16 = 0 ∧ (0x2EFF0#32).toNat + 16 ≤ 0x2F000 ∧ bound.pad.poison = [] ∧ bound.pad.bad = [] ∧
      bound.pad.inj.armed = 0 ∧ (bound.pad.bar 0x2EFF0).pend = 3 :=
  ⟨arrived_ok _ _ rfl rfl, rfl, by decide +kernel⟩

theorem witness_ReceiptSteps_slot : bound.beforeB (bound.slotGranules 31) = bound := rfl

/-- A router entry of tree 7: parent W, children local and E, a time-out of one cycle, and its rounds. -/
def treeAt (l : List (Port × List Word)) : Tree := ⟨0x8480000000000001#64, 2, 1, l, 5, none, []⟩
/-- A tile at that router, at cycle 5. -/
def router (l : List (Port × List Word)) : Tile :=
  { run with trees := run.trees.setIfInBounds 7 (treeAt l), sch := { run.sch with cycle := 5 } }

theorem witness_TreeSteps :
    let t := router [(.loc, [1#32])]
    let m : Msg := .partial_ ⟨0, 0⟩ 7 .e 1 [2#32]
    let n : Msg := .abandon ⟨0, 0⟩ 7 (some .e) 1
    t.trees[(7#3).toNat]? = some (treeAt [(.loc, [1#32])]) ∧ (arrived t m).Arrived ⟨0, 0⟩ t m ∧ (treeAt []).held = none ∧
      (∀ y ∈ (treeAt [(.loc, [1#32])]).inputs, y.1 ≠ .e) ∧ (treeAt []).entry.getLsbD 62 = false ∧
      (∀ q ∈ treePorts (treeAt []).entry, q = .e ∨ ∃ y ∈ [(Port.loc, [1#32])], y.1 = q) ∧
      bitsOf (treeAt []).entry.toNat 0 24 ≠ 0 ∧ (treeAt []).timer ≠ 0 ∧
      (treeAt []).timer + bitsOf (treeAt []).entry.toNat 0 24 ≤ t.sch.cycle + 1 ∧ roundPast 2 1 = true ∧
      treeChild (treeAt []).entry .loc = true ∧ (arrived t n).Arrived ⟨0, 0⟩ t n ∧
      some Port.e ≠ some (dirPort (treeParent (treeAt []).entry)) :=
  ⟨rfl, arrived_ok _ _ rfl rfl, rfl, by decide +kernel, by decide +kernel, by decide +kernel, by decide +kernel, by decide +kernel,
    by decide +kernel, by decide +kernel, by decide +kernel, arrived_ok _ _ rfl rfl, by decide +kernel⟩

theorem witness_TreeSteps_root :
    let e : DWord := BitVec.ofNat 64 (2 ^ 63 + 2 ^ 62 + 31 * 2 ^ 46)
    let i : InCh := ⟨0xA000000000000000#64, true, BitVec.ofNat 128 (0x400 + 4 * 2 ^ 32 + 3 * 2 ^ 40), 0#32, 0#32, true, false, none⟩
    let t : Tile := { run with ins := run.ins.setIfInBounds 31 i }
    let w : List Word := List.replicate 16 1#32
    bitsOf e.toNat 46 5 = 31 ∧ i.bound = true ∧ entrySink i.entry = true ∧ 4 * w.length ≤ 16 * i.slotG ∧ t.slotEmpty i = true ∧
      bitOf i.binding.toNat 48 = false ∧ Memory.wf t.pad.mem = true ∧ t.beforeB (t.slotGranules 31) = t :=
  ⟨by decide +kernel, by decide +kernel, by decide +kernel, by decide +kernel, by decide +kernel, by decide +kernel, by decide +kernel, rfl⟩

/-- A held item, its primary and its shadow. -/
def heldItem : PairItem := ⟨0, 7#32, some (.credit ⟨none, ⟨5, 5⟩⟩ 0 1), 0, false, false⟩
/-- The primary, 65,536 cycles on. -/
def primary : Tile := { run with pair := some ⟨true, ⟨1, 0⟩, [heldItem], [], []⟩, sch := { run.sch with cycle := 65536 } }
/-- The shadow. -/
def shadow : Tile := { Tile.zero ⟨1, 0⟩ ⟨0, 1, 0⟩ with sch := { Sched.zero with status := .running } }

theorem witness_PairSteps :
    let s (k : Word) : State := { arrived primary (.crc ⟨0, 0⟩ 0 k) with others := [shadow] }
    (s 7#32).Arrived ⟨0, 0⟩ primary (.crc ⟨0, 0⟩ 0 7#32) ∧ (s 7#32).tileAt ⟨1, 0⟩ = some shadow ∧ shadow.recs = [] ∧
      primary.inj.armed = 0 ∧ (⟨1, 0⟩ : Coord) ≠ ⟨0, 0⟩ ∧ heldItem.crc = 7#32 ∧ keyUnbounded heldItem.key = false ∧
      heldItem.at_ + 65536 ≤ primary.sch.cycle ∧ (s 8#32).Arrived ⟨0, 0⟩ primary (.crc ⟨0, 0⟩ 0 8#32) :=
  ⟨⟨rfl, ⟨_, rfl, rfl, rfl, rfl⟩, rfl⟩, rfl, rfl, rfl, by decide, rfl, by decide +kernel, Nat.le_refl _,
    ⟨rfl, ⟨_, rfl, rfl, rfl, rfl⟩, rfl⟩⟩

/-- A bulk access of a word at virtual address 0. -/
def wordAcc (k : AccKind) (st : AccStage) : BulkAcc := ⟨0, k, 0, 4, [1#8, 2#8, 3#8, 4#8], 7#3, [31], st, false, false, false, false⟩
/-- Its tile. -/
def accTile (k : AccKind) (st : AccStage) : Tile := { run with accs := [wordAcc k st] }
theorem acc_ok (k : AccKind) (st : AccStage) (dv : Device) :
    ({ on (accTile k st) with dev := dv } : State).HasAcc (evId ⟨0, 0⟩ 0) (accTile k st) (wordAcc k st) :=
  ⟨rfl, rfl, rfl, rfl, rfl⟩

theorem witness_BulkAccessSteps :
    let t := accTile .bldw .inTile
    let dv := (mapped.translate 0 0 0 false).2
    (mapped.translate 0 0 0 false).1 = .ok (wordXlat []) ∧ t.acqOpen 0 = false ∧ t.lineBusy 0 0 = false ∧
      ({ on t with dev := mapped } : State).atPort 0 < 8192 ∧
      ({ on t with dev := mapped } : State).atPort (mapped.targetPort 0 false (wordXlat [])) < 8192 ∧ mapped.keyLeaves 0 (wordXlat []) = false ∧
      (match (mapped.translate 0 0 0x100000 false).1 with
        | .error f => f.cause == .bxnomap
        | .ok _ => false) = true ∧ mapped.ctxValid 0 = true ∧
      ({ on t with dev := mapped } : State).dev.recordWaits 0 0 = false ∧ (dv.port 0).retry.length < 1024 := by
  decide +kernel

theorem witness_BulkAccessSteps_target :
    let dv := { mapped with locks := [⟨5, 0x100000⟩] }
    mapped.Opens 0 (wordXlat []) 55 ∧ 0x100000 % 64 + 4 ≤ 64 ∧ mapped.awaits (wordXlat [1]) = false ∧
      (∀ r ∈ (wordXlat [1]).replicas, mapped.locked r = false ∧ mapped.portGone (stackOf r) = false) ∧
      Memory.wf mapped.hbm = true ∧ dv.awaits (wordXlat []) = false ∧ dv.readLocked 0 (wordXlat []) = true ∧ 998 + 2 ≤ mapped.now :=
  ⟨mapped_opens, by decide +kernel, by decide +kernel, by decide +kernel, by decide +kernel, by decide +kernel, by decide +kernel,
    by decide +kernel⟩

theorem witness_BulkAccessEnds :
    let t := accTile .bldw (.parked 39 1023 0xFFFFFFFF .bxnomap)
    let e : RetryEntry := ⟨1023, 0xFFFFFFFF, ⟨0, 0⟩, 0, none, .bxnomap⟩
    let dv := { ready [] with ports := (ready []).ports.set 39 ⟨5, [e]⟩ }
    let s : State := { on t with dev := dv }
    s.HasAcc (evId ⟨0, 0⟩ 0) t (wordAcc .bldw (.parked 39 1023 0xFFFFFFFF .bxnomap)) ∧ t.pair = none ∧ t.guards = [] ∧
      t.out = [] ∧ evSeq (evId ⟨0, 0⟩ 0) < 2 ^ 32 - 8 ∧ t.inj.armed = 0 ∧ s.dev.ports[39]? = some ⟨(s.dev.port 39).seqn, [e]⟩ ∧ e.who = evCoord (evId ⟨0, 0⟩ 0) ∧
      (ready []).hostUp 3 = true ∧ (3 : Nat) < 4 ∧ (39 : Nat) < 40 :=
  ⟨acc_ok _ _ _, by decide +kernel⟩

theorem witness_BulkAccessEnds_answers :
    let t := accTile .bldw (.answered none [1#8, 2#8, 3#8, 4#8] none)
    let u := accTile .bstw (.answered none [] none)
    let w := accTile .bldd (.answered (some .bxecc) [] none)
    let h : HeldFault := ⟨0, 0, 5⟩
    let dv := { mapped with faults := [h] }
    ({ on t with dev := ready [] } : State).HasAcc (evId ⟨0, 0⟩ 0) t (wordAcc .bldw (.answered none [1#8, 2#8, 3#8, 4#8] none)) ∧
      ({ on u with dev := ready [] } : State).HasAcc (evId ⟨0, 0⟩ 0) u (wordAcc .bstw (.answered none [] none)) ∧
      ({ on w with dev := ready [] } : State).HasAcc (evId ⟨0, 0⟩ 0) w (wordAcc .bldd (.answered (some .bxecc) [] none)) ∧
      w.sch.tm = false ∧ w.sch.pend.length < 32 ∧
      (bitsOf (dv.desc 0) 208 32 + 2 ^ 32 - bitsOf (dv.desc 0) 240 32) % 2 ^ 32 ≠ 2 ^ (bitsOf (dv.desc 0) 192 4 + 6) ∧
      bitOf (dv.desc 0) 196 = false :=
  ⟨acc_ok _ _ _, acc_ok _ _ _, acc_ok _ _ _, rfl, by decide +kernel, by decide +kernel, by decide +kernel⟩

/-- A guard object, its mode, its timeout, its readers and the device that holds it at 1 MiB. -/
def guarding (o : Nat) : Device := { mapped with hbm := mapped.hbm.putVal 0x100000 64 o }
/-- A request of the guard, and its tile. -/
def guardReq (rel shared : Bool) (st : GuardStage) : GuardReq := ⟨0, rel, 0, some (wordXlat []), shared, 7#3, st, false, false⟩
/-- Its tile. -/
def guardTile (g : GuardReq) : Tile := { run with guards := [g], holds := [⟨0, g.shared, none⟩] }
/-- The party that asks. -/
def asker : Who := ⟨0, 0, ⟨0, 0⟩⟩

theorem guard_ok (g : GuardReq) (dv : Device) (h : g.seq = 0) :
    ({ on (guardTile g) with dev := dv } : State).HasGuard (evId ⟨0, 0⟩ 0) (guardTile g) g := by
  refine ⟨rfl, ?_, rfl, rfl⟩
  simp only [guardTile, Tile.guard?, h, List.find?]
  rfl

theorem witness_GuardSteps :
    let r (o : Nat) : Option Nat := match (guarding o).readGuard 0 (wordXlat []) with
      | .ok o => some o
      | .error _ => none
    let free := 0
    let shared := 2 + 2 * 2 ^ 224
    let owned := guardOwner (1 + 1000 * 2 ^ 176) asker
    let g := guardReq false false (.sent (wordXlat []))
    ({ on (guardTile g) with dev := guarding free } : State).HasGuard (evId ⟨0, 0⟩ 0) (guardTile g) g ∧
      (guarding free).Opens 0 (wordXlat []) 55 ∧ (guarding shared).Opens 0 (wordXlat []) 55 ∧
      (guarding owned).Opens 0 (wordXlat []) 55 ∧ r free = some free ∧ r shared = some shared ∧ r owned = some owned ∧
      (guarding free).waits = [] ∧ guardBad free = false ∧ guardBad shared = false ∧ guardBad owned = false ∧
      bitsOf free 0 2 = 0 ∧ bitsOf shared 0 2 = 2 ∧ bitsOf shared 224 32 ≠ 0 ∧ bitsOf owned 0 2 = 1 ∧
      guardOwned owned asker = true :=
  ⟨guard_ok _ _ rfl, opens_of (by decide +kernel), opens_of (by decide +kernel), opens_of (by decide +kernel), by decide +kernel⟩

theorem witness_GuardSteps_ends :
    let q : GuardWait := ⟨0x100000, ⟨0, 0⟩, 0, false, 0, 0, some 1000⟩
    let g := guardReq false false (.queued (wordXlat []))
    let w := guardReq true false .inTile
    ({ on (guardTile g) with dev := { mapped with waits := [q] } } : State).HasGuard (evId ⟨0, 0⟩ 0) (guardTile g) g ∧
      q.who = ⟨0, 0⟩ ∧ 1000 ≤ mapped.now ∧ w.pa = some (wordXlat []) ∧ ({ on (guardTile w) with dev := mapped } : State).atPort (stackOf 0x100000) < 8192 ∧ (guardTile w).accs = [] ∧ (guardTile w).pad.queue = [] ∧
      (∀ k : Fin 8, ((guardTile w).copyCh k).jobs = []) ∧ (guardTile g).sch.tm = false ∧ (guardTile g).sch.pend.length < 32 :=
  ⟨guard_ok _ _ rfl, by decide +kernel⟩

/-- A node at (0, 0) in a state. -/
def nodeAt (st : NodeSt) : Node :=
  { id := 8, graph := 1, index := 3, bits := 0, va := 0, succ := [], left := 0, st := st, place := ⟨0, 0, 0, 0⟩, shadow := none, aged := 0
    lent := 0, agedAt := 0, held := false, stopDue := false, stoppedRegions := [], image := [], kept := [], slots := none
    home := ⟨0, 0, 0, 0⟩, homeShadow := none, cause := 9 }
/-- Its graph. -/
def graph : Graph := ⟨1, 66, 0, 77, none, 0, 0, 0, 0xFFFF, false, none⟩

theorem witness_GuardSteps_node :
    let o := guardOwner 1 asker
    let g := guardReq false false .inTile
    let t : Tile := { run with guards := [g], holds := [⟨0, false, some (wordXlat [])⟩], sch := { run.sch with status := .halted } }
    let dv := { guarding o with nodes := [nodeAt .failed] }
    ({ on t with dev := dv } : State).dev.nodes = [nodeAt .failed] ∧ (nodeAt .failed).image = [] ∧ (nodeAt .failed).covers ⟨0, 0⟩ = true ∧
      t.sch.status = .halted ∧ t.accs = [] ∧ t.guard? 0 = some g ∧ t.sends = [] ∧ t.out = [] ∧
      (∀ k : Fin 8, (t.copyCh k).jobs = []) ∧ dv.waits = [] ∧ bitsOf o 0 2 = 1 ∧ guardOwned o asker = true := by decide +kernel

/-- A packet of a type alone in its queue. -/
def pkt (type low : Nat) : Packet := ⟨5, type * 256 + low, some 3, [], false, false, 0, [], (0, 0)⟩
/-- Its queue. -/
def queue_ (p : Packet) : Queue := ⟨66, 3, 2, 1, true, 0, [p], false, true, []⟩
/-- A device whose regions have maps of 125 used rows, with a graph, a queue and a packet, one frame after it came. -/
def placed (q : List Queue) : Device :=
  { mapped with
    regions := (upTo 64).map fun r => { Region.zero r with
      frame := 9, adopter := r
      rows := (upTo 128).map fun i => if i < 125 then ⟨1, i, 0, 2 ^ 125 - 1⟩ else RowRec.zero }
    graphs := [graph]
    queues := q }
/-- The machine with a packet that may start. -/
def submitting (p : Packet) : State := { on run with dev := placed [queue_ p] }

theorem submits (p : Packet) (ty : Nat) (h1 : p.started = false) (h2 : p.done = false) (h3 : p.rest.2 = 0)
    (h4 : p.frame < (submitting p).dev.queueFrame 66) (h5 : bitOf p.bits 3 = false) (h6 : pktType p.bits = ty) :
    (submitting p).Submits (queue_ p) p ty := ⟨rfl, rfl, h1, h2, h3, h4, h5, h6⟩

theorem witness_PacketSteps :
    (submitting (pkt 0 0)).Submits (queue_ (pkt 0 0)) (pkt 0 0) 0 ∧
      (submitting (pkt 1 0)).Submits (queue_ (pkt 1 0)) (pkt 1 0) 1 ∧
      (submitting (pkt 2 0)).Submits (queue_ (pkt 2 0)) (pkt 2 0) 2 ∧
      (submitting (pkt 3 0)).Submits (queue_ (pkt 3 0)) (pkt 3 0) 3 ∧
      (submitting (pkt 5 0)).Submits (queue_ (pkt 5 0)) (pkt 5 0) 5 ∧
      (submitting (pkt 10 0)).Submits (queue_ (pkt 10 0)) (pkt 10 0) 10 := by
  refine ⟨?_, ?_, ?_, ?_, ?_, ?_⟩ <;>
    exact submits _ _ rfl rfl rfl (by decide +kernel) (by decide +kernel) (by decide +kernel)

theorem witness_PacketSteps_memory :
    let dv := placed [queue_ (pkt 1 0)]
    let fails := 2 ^ 20 * 2 ^ 64
    (match dv.readGraph 0 0 1 with
      | (.ok g, d) => g.2.length == g.1.length && decide (d.queues = dv.queues) && decide (d.nodes = dv.nodes)
      | _ => false) = true ∧
    dv.ctxValid 0 = true ∧ (dv.hWrite 0 0 (valBytes 8 7)).1 = none ∧ (dv.hWrite 0 (bitsOf fails 64 64) (valBytes 8 7)).1.isSome ∧
    (dv.hRead 0 0 8).1.isOk = true ∧ waitMet 0 0 0 = true ∧ waitMet 0 0 1 = false ∧ (Device.copyLines 0 1 0 64 dv).1 = none := by
  decide +kernel

theorem witness_PacketSteps_nodes :
    let p := pkt 8 0
    let l := pkt 9 (atBits 136 1 1)
    let n := { nodeAt .running with bits := atBits 285 1 1 }
    pktType p.bits = 8 ∧ bitOf p.bits 136 = false ∧ bitsOf p.bits 128 8 = 0 ∧ n.preempt = true ∧
      (placed []).slotRuns 0 1 = [] ∧ pktRect l.bits = some ⟨0, 0, 0, 0⟩ ∧ coordOk ⟨0, 0⟩ = true ∧ (placed []).absent ⟨0, 0⟩ = false ∧
      (placed []).posOf ⟨0, 0⟩ = some ⟨0, 0, 0⟩ ∧ (placed []).migrations = [] ∧ (∀ t ∈ (on run).core :: (on run).others, t.accs = [] ∧ t.guards = [] ∧ t.lockKeys = []) ∧
      (placed [queue_ p]).queues = [queue_ p] ∧ ((placed [queue_ p]).regions[(placed [queue_ p]).server 66]?).isSome = true := by decide +kernel

theorem witness_NodeSteps :
    let n := { nodeAt .claimed with bits := atBits 383 13 1, va := 128, cause := 0 }
    let dv := { placed [] with nodes := [n], hbm := (placed []).hbm.putVal 0x100080 128 n.bits }
    (match dv.hRead (dv.graphOf n).ctx n.va 128 with
      | (.ok bytes, d0) => decide (bytesVal bytes = n.bits) && decide (d0.nodes = [n]) && (match d0.readImages 0 n with
        | (.ok im, d) => (match d.judge (dv.graphOf n) n im with
            | .ok _ => true
            | .error _ => false) && decide (d.nodes = [n]) && decide (n.field 396 14 * 16 + im.data.length ≤ 0x2F000) &&
              decide (d.posOf ⟨0, 0⟩ = some ⟨0, 0, 0⟩)
        | _ => false)
      | _ => false) = true ∧
    n.coords = [⟨0, 0⟩] ∧ dv.placesOk n = true ∧ recRefusal n = none ∧ (Tile.zero ⟨0, 0⟩ ⟨0, 0, 0⟩).sch.status = .idle := by
  decide +kernel

theorem witness_NodeSteps_ends :
    let n := { nodeAt .running with succ := [4] }
    let m := { nodeAt .waiting with id := 9, index := 4, left := 1 }
    let t := run.withSch fun c => { c with status := .ended }
    let u := run.withSch fun c => { c with status := .loaded }
    let dv := { placed [] with nodes := [n, m] }
    let f : State := { on run with dev := { placed [] with nodes := [nodeAt .running] } }
    n.coords = [t.coord] ∧ n.covers t.coord = true ∧ dv.graphs = [graph] ∧ graph.id = n.graph ∧ m.id ≠ n.id ∧ n.succ = [m.index] ∧
      (∀ k : Fin 8, (t.copyCh k).jobs = []) ∧ t.sends = [] ∧ t.pair = none ∧ run.guards = [] ∧ (dv.ringOf graph.ctx).held = [] ∧
      (∀ g ∈ [{ graph with ended := true }], g.ended = true ∨ g.ctx ≠ 0) ∧ dv.nodeAt ⟨0, 0⟩ = some n ∧ (on u).tileAt ⟨0, 0⟩ = some u ∧
      f.OneNode (nodeAt .running) run ∧ graph.ended = false ∧ trapFull (mapped.desc 0) = false := by
  refine ⟨by decide +kernel, by decide +kernel, by decide +kernel, by decide +kernel, by decide +kernel, by decide +kernel,
    by decide +kernel, rfl, rfl, rfl, by decide +kernel, by decide +kernel, by decide +kernel, rfl,
    ⟨rfl, rfl, rfl, rfl, by decide +kernel, rfl, rfl, rfl, rfl⟩, rfl, by decide +kernel⟩

/-- The machine with a node at (0, 0) and its tile. -/
def nodeOn (n : Node) (t : Tile) : State := { on t with dev := { placed [] with nodes := [n] } }
/-- A tile that has been told to stop, with acknowledgements sent. -/
def stopped (l : List TUnit) : Tile := { run with acks := l, sch := { run.sch with status := .stopped } }

theorem oneNode (n : Node) (t : Tile) (h1 : n.coords = [⟨0, 0⟩]) (h2 : n.covers ⟨0, 0⟩ = true) (h3 : t.coord = ⟨0, 0⟩)
    (h4 : t.recs = []) : (nodeOn n t).OneNode n t :=
  ⟨rfl, rfl, rfl, by rw [h3]; exact h1, by rw [h3]; exact h2, h4, rfl, rfl, rfl⟩

theorem witness_PreemptionSteps :
    let l := [TUnit.mx, .xp, .up, .rn, .vx, .copy, .channels]
    let s := nodeOn (nodeAt .stopping) run
    let w := { nodeAt .stopping with stoppedRegions := [0], slots := some (0x100000, 1) }
    s.dev.nodeAt ⟨0, 0⟩ = some (nodeAt .stopping) ∧ s.dev.migrations = [] ∧ s.tileAt ⟨0, 0⟩ = some run ∧ run.recs = [] ∧
      run.sch.status = .running ∧ run.sch.pend = [] ∧ s.bundle = none ∧ run.lists = [] ∧ (run.guards = [] ∧ run.sends = []) ∧
      (nodeOn (nodeAt .stopping) (stopped l)).OneNode (nodeAt .stopping) (stopped l) ∧ TUnit.core ∉ l ∧
      (stopped l).unitStopped s.dev .core = true ∧ (stopped l).acks.length = 7 ∧ (nodeAt .stopping).stoppedRegions = [] ∧
      (nodeOn w (stopped l)).OneNode w (stopped l) ∧ w.stoppedRegions = [regionOf ⟨0, 0⟩] ∧
      (nodeOn (nodeAt .saving) (stopped l)).OneNode (nodeAt .saving) (stopped l) :=
  ⟨by decide +kernel, rfl, rfl, rfl, rfl, rfl, rfl, rfl, ⟨rfl, rfl⟩, oneNode _ _ (by decide +kernel) (by decide +kernel) rfl rfl, by decide,
    by decide +kernel, rfl, rfl, oneNode _ _ (by decide +kernel) (by decide +kernel) rfl rfl, by decide +kernel,
    oneNode _ _ (by decide +kernel) (by decide +kernel) rfl rfl⟩

/-- Lines that all carry the seal of key slot 0 can be read back. -/
theorem linesGood_of {dv : Device} {ls : List Nat} {l : List (Nat × Nat)} (h : dv.seals = l ++ ls.map fun a => (a, 0))
    (k : Nat) (hl : (l.all fun y => decide (y.1 < k)) = true) (hk : ∀ a ∈ ls, k ≤ a) (hb : dv.bad = [])
    (hp : dv.poison = []) (hg : dv.ready.all fun r => !r.failed && !r.retired) : dv.linesGood ls = true := by
  have gone (p : Nat) : dv.portGone p = false := by
    unfold Device.portGone Device.readyOf
    cases hr : dv.ready[64 + p]? with
    | none => rfl
    | some r =>
      have := List.all_eq_true.mp hg r (List.mem_of_getElem? hr)
      simpa using this
  unfold Device.linesGood
  refine List.all_eq_true.mpr fun a ha => ?_
  have hs : dv.sealOf a = some 0 := by
    unfold Device.sealOf
    have h1 : l.find? (·.1 == a) = none := by
      refine List.find?_eq_none.mpr fun y hy => ?_
      have := List.all_eq_true.mp hl y hy
      have := hk a ha
      simp only [decide_eq_true_eq, beq_iff_eq] at *
      omega
    rw [h, List.find?_append, h1, Option.none_or, List.find?_map]
    cases hf : ls.find? ((fun x : Nat × Nat => x.1 == a) ∘ fun a => (a, 0)) with
    | none =>
      have := List.find?_eq_none.mp hf a ha
      simp at this
    | some y => rfl
  rw [hs, gone, hb, hp]
  rfl

/-- A node saved at (999, 999), claimed at (0, 0). -/
def savedNode : Node :=
  { nodeAt .claimed with
    image := [{ stopped [] with coord := ⟨999, 999⟩ }], slots := some (8, 1), home := ⟨999, 999, 999, 999⟩, bits := atBits 383 13 1 }
/-- The device that keeps its image. -/
def keeping : Device :=
  { placed [] with nodes := [savedNode], seals := (placed []).seals ++ ((placed []).slotLines savedNode (8, 1)).map fun a => (a, 0) }

theorem witness_PreemptionSteps_good : keeping.slotsGood savedNode (8, 1) = true := by
  have h : keeping.slotLines savedNode (8, 1) = (placed []).slotLines savedNode (8, 1) := by
    have h1 : (keeping.pool (keeping.graphOf savedNode).ctx).1 = ((placed []).pool ((placed []).graphOf savedNode).ctx).1 := by
      decide +kernel
    unfold Device.slotLines Device.slotAt
    rw [h1]
  unfold Device.slotsGood
  rw [h]
  refine linesGood_of (l := (placed []).seals) rfl 0x200000 (by decide +kernel) (fun a ha => ?_) rfl rfl (by decide +kernel)
  obtain ⟨i, -, hi⟩ := List.mem_flatMap.mp ha
  obtain ⟨j, -, rfl⟩ := List.mem_map.mp hi
  omega

theorem witness_PreemptionSteps_restore :
    let im := { stopped [] with coord := ⟨999, 999⟩ }
    let n := savedNode
    (match keeping.readImage (keeping.graphOf n).ctx (n.field 704 64) (4 * n.field 383 13) with
      | (.ok _, d) => decide (d.posOf ⟨n.place.rowlo, n.place.collo⟩ = some ⟨0, 0, 0⟩)
      | _ => false) = true ∧
    keeping.placesOk n = true ∧ n.image = [im] ∧ n.shadow = none ∧ n.homeShadow = none ∧
      n.home = ⟨im.coord.row, im.coord.row, im.coord.col, im.coord.col⟩ ∧ im.holds = [] ∧ im.pair = none ∧ im.sch.flights = [] ∧
      n.kept = [] ∧ im.sch.status = .stopped ∧
      (keeping.readImage (keeping.graphOf n).ctx (n.field 704 64) (4 * n.field 383 13)).2.nodes.map (·.id) = [8] := by
  decide +kernel

/-- A slot of 4,096 lines can be written. -/
theorem witness_PreemptionSteps_writes : ((placed []).writeSlots savedNode (8, 1)).isSome = true := by decide +kernel

theorem witness_PreemptionSteps_map :
    let dv := placed []
    let m : Migration := ⟨4, 0, 10, 0, 127, [⟨999, 999⟩], true, 400, [], false⟩
    let full := { Region.zero 0 with rows := List.replicate 128 ⟨1, 0, 0, 2 ^ 128 - 1⟩ }
    dv.posOf ⟨0, 0⟩ = some ⟨0, 0, 0⟩ ∧ (dv.regions[0]?.map fun r => nearestSpare 0 (r.row 0).spares) = some (some 125) ∧
      (full.row 0).spares = [] ∧ (on run).tileAt ⟨999, 999⟩ = none ∧ m.fail ≠ m.spare ∧ m.since + 500 ≤ dv.now ∧
      (∀ r ∈ dv.regions[0]?, (r.rows[10]?).isSome = true) ∧ dv.regions.length = 64 := by decide +kernel

/-- The machine after bring-up, with a tile that runs at (0, 0). -/
def up : State := { on run with dev := placed [] }

theorem witness_FrameSteps :
    let v : DWord := BitVec.ofNat 64 (2 ^ 31 + 1023)
    let e : Exposure := ⟨63, [1#8], []⟩
    (up.dev.regions[63]?).isSome = true ∧ up.dev.runs 63 = true ∧ up.dev.runs 0 = true ∧ (0 : Nat) ≠ 63 ∧ (up.dev.readyOf 63).ready = true ∧ up.core.counts = [] ∧
      up.others = [] ∧ run.health.replays.length < 64 ∧ (physPos ⟨0, 1⟩).region = 0 ∧
      up.idleAt (physPos ⟨0, 1⟩) = true ∧ physPos ⟨0, 1⟩ ∉ (up.dev.region 0).passes ∧
      e.region = 63 ∧ (⟨bitsOf v.toNat 54 10, bitsOf v.toNat 44 10⟩ : Coord) = ⟨0, 0⟩ ∧ up.dev.absent ⟨0, 0⟩ = false ∧
      bitOf v.toNat 31 = true := by decide +kernel

theorem direct_low (w : Nat) (h : w < 40 * 2 ^ 36) : direct w = some w := by
  unfold direct
  rw [if_pos (by omega), if_pos h]

theorem windowPa_low (k r : Nat) : windowPa k r < 40 * 2 ^ 36 := by
  unfold windowPa
  omega

theorem phys_empty (dv : Device) (h : dv.hbm = []) (a : Nat) (ha : a < 40 * 2 ^ 36) : dv.phys a 8 = 0 := by
  unfold Device.phys
  rw [direct_low a ha, h]
  simp only [Memory.val, Memory.bytes, Memory.read]
  rfl

theorem freeReport_empty (dv : Device) (h : dv.hbm = []) (r : Nat) : dv.freeReport r = some 0 := by
  have hl (l : List Nat) (f : Nat → Bool) (hf : f 0 = true) : (0 :: l).find? f = some 0 := by simp [hf]
  have hu : upTo 64 = 0 :: (upTo 64).tail := by decide +kernel
  have hr : reportSlot r 0 = windowPa 3 r := by
    unfold reportSlot
    omega
  unfold Device.freeReport
  rw [hu]
  refine hl _ _ ?_
  rw [hr, phys_empty dv h _ (windowPa_low 3 r)]
  rfl

theorem witness_FrameSteps_report : (ready []).freeReport 63 = some 0 := freeReport_empty _ rfl 63

/-- A REFINE packet: its block at 832, a factor graph of one node at 0, a residual graph of one node at 128 whose route image at
256 has a tree of FP32 and max. -/
def refining : State :=
  (submitting (pkt 6 (832 * 2 ^ 64))).withDev fun dv =>
    { dv with
      hbm := ((dv.hbm.putVal 0x100080 128 (256 * 2 ^ 576)).putVal 0x100300 8 (2 ^ 63 + 2 ^ 52)).putVal 0x100340 128
        (128 * 2 ^ 128 + 0x3FF0000000000000 * (2 ^ 448 + 2 ^ 512) + 2 ^ 576) }

theorem witness_FrameSteps_loop :
    pktType (pkt 6 (832 * 2 ^ 64)).bits = 6 ∧
    (match (refining.dev.startPacket 66 5 []).hRead 0 (bitsOf (pkt 6 (832 * 2 ^ 64)).bits 64 64) 128 with
      | (.ok bytes, d1) => let b := bytesVal bytes
        !blkBad b && (match d1.normTreeBad 0 b with
          | (.ok bad, d2) => !bad && (match d2.readGraph 0 (bitsOf b 0 64) (bitsOf b 256 12 + 1) with
            | (.ok g, _) => g.2.length == g.1.length
            | _ => false)
          | _ => false)
      | _ => false) = true := by decide +kernel

/-- A loop whose factor graph has ended. -/
theorem witness_FrameSteps_solve :
    let l : LoopCtl := ⟨66, 5, 0, 0, 0, 1, .fact, 0, 0, 0, none, 0, 0⟩
    let g := { graph with ended := true }
    let dv := { placed [] with graphs := [g], loops := [l] }
    g.id = l.graph ∧ g.nfail = 0 ∧ dv.ctxValid l.ctx = true ∧ (match dv.readGraph l.ctx (bitsOf l.blk 64 64) (bitsOf l.blk 268 12 + 1) with
      | (.ok _, d) => decide (d.loops = [l])
      | _ => false) = true := by decide +kernel

theorem witness_BootSteps :
    let dv := Device.zero
    let on_ := { dv with
      ready := List.replicate 140 { Ready.zero with busy := true }, power := ⟨true, false, false, 52000⟩
      kiln := { Kiln.zero with firmwareOk := true } }
    dv.ready.length = 140 ∧ dv.regions.length = 64 ∧ dv.power.on = false ∧ dv.kiln.boot.ecdsa = true ∧ dv.kiln.boot.lms = true ∧ dv.kiln.boot.imageOk = true ∧
      dv.kiln.rollback ≤ dv.kiln.boot.svn ∧ on_.comesUp (64 + 39) = true ∧ on_.comesUp 63 = true ∧
      (on_.region 63).tested = false ∧ (on_.region 63).defects = [] ∧ (on_.region 63).bypassBad = [] ∧
      on_.comesUp (104 + 3) = true ∧ on_.comesUp (108 + 31) = true := by decide +kernel

theorem witness_BootSteps_links :
    let k (n : Nat) : Device := { placed [] with
      ready := (placed []).ready.map fun r => { r with kstate := n }
      bar0 := { (placed []).bar0 with waferid := 255 }
      kiln := { (placed []).kiln with config := some ⟨[], [], [2], false, [], []⟩ } }
    ((k 0).readyOf (108 + 31)).ready = true ∧ (k 0).bar0.waferid ≠ 0 ∧ ((k 0).readyOf (108 + 31)).kstate = 0 ∧
      ((k 1).readyOf (108 + 31)).kstate = 1 ∧ run.accs = [] ∧ (k 0).rstok 2 = true ∧ (k 0).rstok 3 = false ∧
      (0x5EED#64).setWidth 32 = 0x5EED#32 ∧ bitOf (0x13F#64).toNat 8 = true ∧ bitsOf (0x13F#64).toNat 0 6 = 63 ∧
      (k 0).regionBusy 63 = false ∧ { placed [] with nodes := [nodeAt .running] }.regionBusy 0 = true ∧
      (∀ p, p < 32 → ((k 0).readyOf (108 + p)).kstate % 2 = 0) := by decide +kernel

/-- R391, R399, R405: a port reset takes the port's commands out of the Kiln's order, and the next command's turn comes. -/
theorem witness_BootSteps_commands :
    let dv := ({ placed [] with kiln := { (placed []).kiln with pending := [(3, 4), (0, 99), (1, 2)] } }).setKstat 1 0xFF none
    let d := dv.dropCommands 3
    d.kiln.pending = [(1, 2)] ∧ d.kstatOf 0 = 1 ∧ d.box 1 = dv.box 1 ∧
      (∀ x ∈ dv.kiln.pending, x.1 = 1 → 1 ≤ x.2 ∧ x.2 ≤ 7) ∧ { Device.zero.mgmt with kstat := 0xFF }.abandoned.kstat = 0 := by
  decide +kernel

/-- A request's bytes. -/
def request (l : List (Nat × Byte)) : Device := ({ placed [] with kiln := { (placed []).kiln with pending := [(3, 1)] } }).withBox 3
  fun b => { b with kreq := l }

theorem witness_KilnSteps :
    let turn (c : Nat) : Device := { placed [] with kiln := { (placed []).kiln with pending := [(3, c)] } }
    let r (l : List (Nat × Byte)) : List Byte := (request l).kreq 3
    (turn 1).kiln.pending = [(3, 1)] ∧ reqClean (r [(47, 9#8)]) [(0, 48)] = true ∧ (turn 1).kiln.leaf < 2 ^ 20 ∧
      reqClean (r [(0, 255#8), (1, 255#8)]) [(0, 2)] = true ∧ reqByte (r [(0, 255#8)]) 0 = 255 ∧
      (∀ y ∈ (turn 2).kiln.keys, y.slot ≠ 255) ∧ (∃ y ∈ (turn 2).kiln.keys, y.slot = 1) ∧
      reqClean (r [(0, 1#8)]) [(0, 1)] = true ∧
      (∀ t ∈ up.core :: up.others, t.usesKey 1 = false) ∧ direct 0 = some 0 ∧ up.dev.hostUp 3 = true := by decide +kernel

theorem witness_KilnSteps_bar :
    let dv := placed []
    let d := 2 ^ 32 - 1
    direct (dv.bar0.apbase + d) = some d ∧ inSysWin d = false ∧ dv.portGone (stackOf d) = false ∧ dv.portUp (stackOf d) = true ∧
      dv.sealOf (d / 64 * 64) = none ∧ dv.bad.has (d / 64 * 64) = false ∧ dv.poison.has (d / 64 * 64) = false ∧
      dv.soft.has (d / 64 * 64) = false ∧ dv.bar0.apbase % 2 ^ 32 = 0 ∧ (dv.barBytes 0 64).1.isSome = true ∧
      (dv.barBytes (2 ^ 32 - 1) 1).1.isSome = true := by decide +kernel

theorem witness_ManagementSteps :
    up.dev.power.inRange = true ∧ { up.dev with kiln := { up.dev.kiln with config := some ⟨[], [], [], true, [], []⟩ } }.mgmtw = true ∧
      up.dev.mgmt.dyn = none ∧ (0x30#8).toNat ∉ supportedCcc := by decide +kernel

theorem witness_PowerSteps :
    up.dev.power.on = true ∧ (up.dev.regions[63]?.map (·.therm)) = some false ∧ up.dev.portGone 39 = false ∧
      up.dev.ready.length = 140 ∧ (∀ t ∈ up.core :: up.others, t.accs = []) ∧ up.dev.waits = [] := by decide +kernel

theorem witness_PowerSteps_guard :
    let q : GuardWait := ⟨0x100000, ⟨0, 0⟩, 0, false, 0, 0, none⟩
    let g := guardReq false false (.queued (wordXlat []))
    let s : State := { on (guardTile g) with dev := { placed [] with waits := [q] } }
    s.HasGuard (evId ⟨0, 0⟩ 0) (guardTile g) g ∧ s.dev.power.on = true ∧ s.dev.portGone 0 = false ∧ s.dev.ready.length = 140 ∧
      (∀ t ∈ s.core :: s.others, t.accs = []) ∧ g.stage = .queued (wordXlat []) ∧ s.dev.waits = [q] ∧ stackOf q.line = 0 ∧
      q.who = evCoord (evId ⟨0, 0⟩ 0) ∧ q.seq = g.seq :=
  ⟨guard_ok _ _ rfl, by decide +kernel⟩

/-! Decoding: a word of every slot instruction, put together by hand from Table 09-1, the formats of Table 09-3 and the
opcodes of Tables 09-4 to 09-9 (engine fields from Table 13-1, channel fields from Table 14-1); E is 1 and the guard p5. -/

/-- A word and the slot it stands for. -/
structure Coded where
  word : Word
  instr : Instr

/-- The header of these words. -/
def g : Hdr := ⟨true, 5#3⟩

/-- Words of the X class. -/
def wordsX : List Coded :=
  [⟨0x80280000#32, .nop g⟩, ⟨0x806D5530#32, .add g 21#5 10#5 19#5⟩, ⟨0x80AD5530#32, .sub g 21#5 10#5 19#5⟩,
   ⟨0x80ED5530#32, .and g 21#5 10#5 19#5⟩, ⟨0x812D5530#32, .or g 21#5 10#5 19#5⟩, ⟨0x816D5530#32, .xor g 21#5 10#5 19#5⟩,
   ⟨0x81AD5530#32, .andn g 21#5 10#5 19#5⟩, ⟨0x81ED5530#32, .shl g 21#5 10#5 19#5⟩, ⟨0x822D5530#32, .shr g 21#5 10#5 19#5⟩,
   ⟨0x826D5530#32, .sar g 21#5 10#5 19#5⟩, ⟨0x82AD5530#32, .rotl g 21#5 10#5 19#5⟩, ⟨0x82ED5531#32, .mul g 21#5 10#5 19#5 true⟩,
   ⟨0x832D5531#32, .mulh g 21#5 10#5 19#5 true⟩, ⟨0x836D5531#32, .min g 21#5 10#5 19#5 true⟩,
   ⟨0x83AD5531#32, .max g 21#5 10#5 19#5 true⟩, ⟨0x83E99539#32, .cmp g 6#3 10#5 19#5 9#4⟩,
   ⟨0x842D5536#32, .sel g 21#5 10#5 19#5 6#3⟩, ⟨0x846D5400#32, .clz g 21#5 10#5⟩, ⟨0x84AD5400#32, .ctz g 21#5 10#5⟩,
   ⟨0x84ED5400#32, .popc g 21#5 10#5⟩, ⟨0x852D5400#32, .brev g 21#5 10#5⟩, ⟨0x856D5531#32, .bfx g 21#5 10#5 19#5 true⟩,
   ⟨0x85AD5530#32, .bfi g 21#5 10#5 19#5⟩, ⟨0x85ED553D#32, .div g 21#5 10#5 19#5 6#3 true⟩] ++
  [⟨0x862D553D#32, .rem g 21#5 10#5 19#5 6#3 true⟩, ⟨0x866D55FE#32, .addi g 21#5 10#5 (.short 0x1FE#9)⟩,
   ⟨0x86AD55FE#32, .andi g 21#5 10#5 (.short 0x1FE#9)⟩, ⟨0x86ED55FE#32, .ori g 21#5 10#5 (.short 0x1FE#9)⟩,
   ⟨0x872D55FE#32, .xori g 21#5 10#5 (.short 0x1FE#9)⟩, ⟨0x876D541D#32, .shli g 21#5 10#5 29#5⟩,
   ⟨0x87AD541D#32, .shri g 21#5 10#5 29#5⟩, ⟨0x87ED541D#32, .sari g 21#5 10#5 29#5⟩,
   ⟨0x882995FE#32, .cmpeqi g 6#3 10#5 (.short 0x1FE#9)⟩, ⟨0x886995FE#32, .cmplti g 6#3 10#5 (.short 0x1FE#9)⟩,
   ⟨0x88A995FE#32, .cmpltui g 6#3 10#5 (.short 0x1FE#9)⟩, ⟨0x88ED55FE#32, .muli g 21#5 10#5 (.short 0x1FE#9)⟩,
   ⟨0x892D6AB3#32, .movi g 21#5 (.short 0x2AB3#14)⟩, ⟨0x896D6AB3#32, .movhi g 21#5 0x2AB3#14⟩,
   ⟨0x89AB6600#32, .xtoa g 13#4 19#5⟩, ⟨0x89ECDA00#32, .atox g 19#5 13#4⟩, ⟨0x8A2EA60B#32, .xtov g 26#5 19#5 11#4⟩,
   ⟨0x8A6CF40B#32, .vtox g 19#5 26#5 11#4⟩, ⟨0x8AA9A600#32, .xtop g 6#3 19#5⟩, ⟨0x8AECCC00#32, .ptox g 19#5 6#3⟩]

theorem decode_X : wordsX.map (fun p => decodeHead [p.word]) = wordsX.map fun p => .ok (p.instr, []) := by rfl

/-- Words of the L class. -/
def wordsL : List Coded :=
  [⟨0x902D6FB6#32, .ldb g 21#5 11#4 (.short 0x1D#5) 2#2 6#3⟩, ⟨0x906D6FB6#32, .ldbu g 21#5 11#4 (.short 0x1D#5) 2#2 6#3⟩,
   ⟨0x90AD6FB6#32, .ldh g 21#5 11#4 (.short 0x1D#5) 2#2 6#3⟩, ⟨0x90ED6FB6#32, .ldhu g 21#5 11#4 (.short 0x1D#5) 2#2 6#3⟩,
   ⟨0x912D6FB6#32, .ldw g 21#5 11#4 (.short 0x1D#5) 2#2 6#3⟩, ⟨0x916D6FA8#32, .stb g 21#5 11#4 (.short 0x1D#5) 1#2⟩,
   ⟨0x91AD6FA8#32, .sth g 21#5 11#4 (.short 0x1D#5) 1#2⟩, ⟨0x91ED6FA8#32, .stw g 21#5 11#4 (.short 0x1D#5) 1#2⟩,
   ⟨0x922D6FB6#32, .ldv g 21#5 11#4 (.short 0x1D#5) 2#2 6#3⟩, ⟨0x926D6FA8#32, .stv g 21#5 11#4 (.short 0x1D#5) 1#2⟩,
   ⟨0x92AD2FB6#32, .ldvb g 20#5 11#4 (.short 0x1D#5) 2#2 6#3⟩, ⟨0x92ED6E76#32, .ldvg g 21#5 11#4 19#5 2#2 6#3⟩,
   ⟨0x932D6E68#32, .stvg g 21#5 11#4 19#5 1#2⟩, ⟨0x936B5EF6#32, .ldt g (.ring 6#3) 11#4 (.short 0xD#4) true 2#2 6#3⟩,
   ⟨0x93AEDEC8#32, .stt g (.tile 13#4) 11#4 (.short 0xD#4) true 1#2⟩, ⟨0x93EA6CE6#32, .spill g 9#5 11#4 3#4 2#2 6#3⟩,
   ⟨0x942A6CE6#32, .fill g 9#5 11#4 3#4 2#2 6#3⟩, ⟨0x946D6E76#32, .aadd g 21#5 11#4 19#5 (.short 2#2) 6#3⟩,
   ⟨0x94AD6E76#32, .aand g 21#5 11#4 19#5 (.short 2#2) 6#3⟩, ⟨0x94ED6E76#32, .aor g 21#5 11#4 19#5 (.short 2#2) 6#3⟩,
   ⟨0x952D6E76#32, .axor g 21#5 11#4 19#5 (.short 2#2) 6#3⟩, ⟨0x956D6E76#32, .amin g 21#5 11#4 19#5 (.short 2#2) 6#3⟩,
   ⟨0x95AD6E76#32, .amax g 21#5 11#4 19#5 (.short 2#2) 6#3⟩, ⟨0x95ED6E76#32, .aminu g 21#5 11#4 19#5 (.short 2#2) 6#3⟩] ++
  [⟨0x962D6E76#32, .amaxu g 21#5 11#4 19#5 (.short 2#2) 6#3⟩, ⟨0x966D6E76#32, .afadd g 21#5 11#4 19#5 (.short 2#2) 6#3⟩,
   ⟨0x96AD6E76#32, .aswap g 21#5 11#4 19#5 (.short 2#2) 6#3⟩, ⟨0x96ED6E76#32, .acas g 21#5 11#4 19#5 (.short 2#2) 6#3⟩,
   ⟨0x972D6FA0#32, .barinit g 21#5 11#4 (.short 0x1D#5)⟩, ⟨0x976D6FA6#32, .bararr g 21#5 11#4 (.short 0x1D#5) 6#3⟩,
   ⟨0x97AD6FA0#32, .bartxAdd g 21#5 11#4 (.short 0x1D#5)⟩, ⟨0x97AD6FA8#32, .bartxDec g 21#5 11#4 (.short 0x1D#5)⟩,
   ⟨0x97ED6FA0#32, .barwait g 21#5 11#4 (.short 0x1D#5)⟩, ⟨0x982D6FB6#32, .barrd g 21#5 11#4 (.short 0x1D#5) 2#2 6#3⟩,
   ⟨0x986D6FA0#32, .feset g 21#5 11#4 (.short 0x1D#5)⟩, ⟨0x98AD6FA0#32, .feclr g 21#5 11#4 (.short 0x1D#5)⟩,
   ⟨0x98ED6FA6#32, .ferd g 21#5 11#4 (.short 0x1D#5) 6#3⟩, ⟨0x992D6E86#32, .bldw g 21#5 11#4 5#3 6#3⟩,
   ⟨0x996D6E86#32, .bldd g 21#5 11#4 5#3 6#3⟩, ⟨0x99AD6E86#32, .bstw g 21#5 11#4 5#3 6#3⟩,
   ⟨0x99ED6E86#32, .bstd g 21#5 11#4 5#3 6#3⟩, ⟨0x9A2EDFFD#32, .lea g 13#4 11#4 (.short 0x7FD#11)⟩,
   ⟨0x9A6EDD60#32, .adda g 13#4 11#4 21#5 2#2⟩]

theorem decode_L : wordsL.map (fun p => decodeHead [p.word]) = wordsL.map fun p => .ok (p.instr, []) := by rfl

/-- Words of the V class. -/
def wordsV : List Coded :=
  [⟨0xA02F793D#32, .vadd g 29#5 28#5 19#5 6#3 true⟩, ⟨0xA06F793D#32, .vsub g 29#5 28#5 19#5 6#3 true⟩,
   ⟨0xA0AF793D#32, .vmul g 29#5 28#5 19#5 6#3 true⟩, ⟨0xA0ED793D#32, .vfma g 21#5 28#5 19#5 6#3 true⟩,
   ⟨0xA12D793D#32, .vfms g 21#5 28#5 19#5 6#3 true⟩, ⟨0xA16D793D#32, .vfnma g 21#5 28#5 19#5 6#3 true⟩,
   ⟨0xA1AF793D#32, .vdiv g 29#5 28#5 19#5 6#3 true⟩, ⟨0xA1EF780D#32, .vsqrt g 29#5 28#5 6#3 true⟩,
   ⟨0xA22F780D#32, .vrsqrt g 29#5 28#5 6#3 true⟩, ⟨0xA26F780D#32, .vrcp g 29#5 28#5 6#3 true⟩,
   ⟨0xA2AF793D#32, .vmin g 29#5 28#5 19#5 6#3 true⟩, ⟨0xA2EF793D#32, .vmax g 29#5 28#5 19#5 6#3 true⟩,
   ⟨0xA32F780D#32, .vabs g 29#5 28#5 6#3 true⟩, ⟨0xA36F780D#32, .vneg g 29#5 28#5 6#3 true⟩,
   ⟨0xA3AF793D#32, .vmaxa g 29#5 28#5 19#5 6#3 true⟩, ⟨0xA3ED793A#32, .vcmp g 21#5 28#5 19#5 5#3⟩,
   ⟨0xA42DB80C#32, .vsgn g 6#3 false true 28#5 6#3⟩, ⟨0xA46BB93C#32, .vthr g 6#3 true false 28#5 19#5 6#3⟩,
   ⟨0xA4AD553C#32, .vsel g 21#5 10#5 19#5 6#3⟩, ⟨0xA4ED780C#32, .vmov g 21#5 28#5 6#3⟩,
   ⟨0xA52D545E#32, .vcvt g 21#5 10#5 11#6 6#3⟩, ⟨0xA56D540D#32, .vred g 21#5 10#5 6#3 true⟩,
   ⟨0xA5AD553D#32, .vdot g 21#5 10#5 19#5 6#3 true⟩, ⟨0xA5ED553C#32, .viadd g 21#5 10#5 19#5 6#3⟩] ++
  [⟨0xA62D553C#32, .visub g 21#5 10#5 19#5 6#3⟩, ⟨0xA66D553C#32, .vimul g 21#5 10#5 19#5 6#3⟩,
   ⟨0xA6AD553C#32, .vand g 21#5 10#5 19#5 6#3⟩, ⟨0xA6ED553C#32, .vor g 21#5 10#5 19#5 6#3⟩,
   ⟨0xA72D553C#32, .vxor g 21#5 10#5 19#5 6#3⟩, ⟨0xA76D54EE#32, .vshli g 21#5 10#5 29#5 6#3⟩,
   ⟨0xA7AD54EE#32, .vshri g 21#5 10#5 29#5 6#3⟩, ⟨0xA7ED54EE#32, .vsari g 21#5 10#5 29#5 6#3⟩,
   ⟨0xA82D553C#32, .vshuf g 21#5 10#5 19#5 6#3⟩, ⟨0xA86D54BC#32, .vbcst g 21#5 10#5 11#4 6#3⟩,
   ⟨0xA8AD540C#32, .viota g 21#5 10#5 6#3⟩, ⟨0xA8ED553C#32, .vclamp g 21#5 10#5 19#5 6#3⟩,
   ⟨0xA92D540C#32, .vrndb g 21#5 10#5 6#3⟩, ⟨0xA96D553D#32, .vimin g 21#5 10#5 19#5 6#3 true⟩,
   ⟨0xA9AD553D#32, .vimax g 21#5 10#5 19#5 6#3 true⟩, ⟨0xA9ED55F5#32, .vcmpi g 21#5 10#5 (.short 0x3E#6) 5#3⟩]

theorem decode_V : wordsV.map (fun p => decodeHead [p.word]) = wordsV.map fun p => .ok (p.instr, []) := by rfl

/-- Words of the E class. -/
def wordsE : List Coded :=
  [⟨0xB02B6900#32, .ringdef g 6#3 13#4 2#4⟩, ⟨0xB06B0000#32, .ringrst g 6#3⟩, ⟨0xB0A8300D#32, .mxw g (.ring 6#3) 5#3⟩,
   ⟨0xB0E96805#32, .mxf g 2#2 (.tile 13#4) 5#3⟩, ⟨0xB1296805#32, .mxr g 2#2 (.tile 13#4) 5#3⟩,
   ⟨0xB169519D#32, .mxp g 2#2 26#5 19#5 5#3⟩, ⟨0xB1A9301D#32, .mxz g 2#2 (some (.ring 6#3)) 5#3⟩,
   ⟨0xB1A90005#32, .mxz g 2#2 none 5#3⟩, ⟨0xB1EB1025#32, .mxo g (.ring 6#3) 2#2 5#3⟩,
   ⟨0xB22B1025#32, .mxq g (.ring 6#3) 2#2 5#3⟩, ⟨0xB26B6825#32, .xpt g (.ring 6#3) (.tile 13#4) 5#3⟩,
   ⟨0xB2AEB18D#32, .xpc g (.tile 13#4) (.ring 6#3) 3#4 5#3⟩, ⟨0xB2EEB495#32, .upadm g 13#4 6#4 9#4 2#4 5#3⟩,
   ⟨0xB32EB485#32, .upsgd g 13#4 6#4 9#4 5#3⟩, ⟨0xB36EB005#32, .upaxp g 13#4 6#4 5#3⟩,
   ⟨0xB3AB1D3D#32, .rnmask g (.ring 6#3) 19#5 26#5 5#3⟩, ⟨0xB3EB1D3D#32, .rnuni g (.ring 6#3) 19#5 26#5 5#3⟩,
   ⟨0xB42D4156#32, .chsendv g 21#5 10#5 2#2 6#3⟩, ⟨0xB46D40CE#32, .chsendt g 21#5 (.ring 6#3) 6#3⟩,
   ⟨0xB4AD6D56#32, .chsendm g 21#5 11#4 10#5 2#2 6#3⟩, ⟨0xB4ED6C08#32, .chrecv g 21#5 11#4 true⟩,
   ⟨0xB5298155#32, .chred g 6#3 10#5 false true 5#3⟩, ⟨0xB56D6D46#32, .charr g 21#5 11#4 10#5 6#3⟩,
   ⟨0xB5AD4150#32, .chwin g 21#5 10#5 2#2⟩] ++
  [⟨0xB5ED4140#32, .chseq g 21#5 10#5⟩, ⟨0xB6680000#32, .cbclose g⟩, ⟨0xB6A80146#32, .portw g 10#5 6#3⟩]

theorem decode_E : wordsE.map (fun p => decodeHead [p.word]) = wordsE.map fun p => .ok (p.instr, []) := by rfl

/-- Words of the B class. -/
def wordsB : List Coded :=
  [⟨0xC0280000#32, .bnop g⟩, ⟨0xC06FFFD1#32, .br g (.short 0xFFFA#16) true⟩, ⟨0xC0AFFFD1#32, .call g (.short 0xFFFA#16) true⟩,
   ⟨0xC1AFFFD1#32, .loop g (.short 0xFFFA#16) true⟩, ⟨0xC1EFFFD1#32, .loopc g (.short 0xFFFA#16) true⟩, ⟨0xC0E80000#32, .ret g⟩,
   ⟨0xC12B4000#32, .jr g 13#4⟩, ⟨0xC16D6582#32, .loopset g 21#5 300#9 true⟩, ⟨0xC1680001#32, .loopsetPop g⟩,
   ⟨0xC22D4000#32, .setfmt g 21#5⟩, ⟨0xC26D4440#32, .setc g 21#5 0x22#9⟩, ⟨0xC2AD4440#32, .getc g 21#5 0x22#9⟩,
   ⟨0xC2EEAC00#32, .pand g 6#3 5#3 3#3⟩, ⟨0xC32EAC00#32, .por g 6#3 5#3 3#3⟩, ⟨0xC36EAC00#32, .pxor g 6#3 5#3 3#3⟩,
   ⟨0xC3AEAC00#32, .pandn g 6#3 5#3 3#3⟩, ⟨0xC3EEA000#32, .pmov g 6#3 5#3⟩, ⟨0xC4280000#32, .endTask g⟩,
   ⟨0xC4682580#32, .trap g 300#9⟩, ⟨0xC4A80000#32, .rft g⟩, ⟨0xC4E82580#32, .bkpt g 300#9⟩]

theorem decode_B : wordsB.map (fun p => decodeHead [p.word]) = wordsB.map fun p => .ok (p.instr, []) := by rfl

/-- Words of the K class. -/
def wordsK : List Coded :=
  [⟨0xD02D5C00#32, .wait g 0x55#7 6#3⟩, ⟨0xD06AA000#32, .fence g 0x15#5⟩, ⟨0xD0ADD406#32, .acq g 11#4 5#3 true 6#3⟩,
   ⟨0xD0EDD006#32, .rel g 11#4 5#3 6#3⟩, ⟨0xD12D6C00#32, .waitfe g 0x15#5 11#4⟩, ⟨0xD16D4280#32, .cewait g 21#5 5#3⟩,
   ⟨0xD1A80C00#32, .waitall g 6#3⟩]

theorem decode_K : wordsK.map (fun p => decodeHead [p.word]) = wordsK.map fun p => .ok (p.instr, []) := by rfl

/-- The words that the manual's own tables encode (Tables 11-8 and 15-1, and the tables of Chapters 9, 10, 12, 14, 19). -/
def wordsGiven : List Coded :=
  [⟨0x0A000200#32, .xtov ⟨false, 0#3⟩ 0#5 1#5 0#4⟩, ⟨0xD0000200#32, .wait ⟨true, 0#3⟩ 0#7 1#3⟩,
   ⟨0x28400000#32, .vbcst ⟨false, 0#3⟩ 0#5 0#5 0#4 0#3⟩, ⟨0xC1408042#32, .loopset ⟨true, 0#3⟩ 2#5 2#9 true⟩,
   ⟨0x12230502#32, .ldv ⟨false, 4#3⟩ 12#5 1#4 (.short 8#5) 0#2 2#3⟩, ⟨0x20EB4116#32, .vfma ⟨false, 5#3⟩ 13#5 0#5 17#5 3#3 false⟩,
   ⟨0x86421040#32, .addi ⟨true, 0#3⟩ 8#5 8#5 (.short 64#9)⟩, ⟨0x89805000#32, .xtoa ⟨true, 0#3⟩ 1#4 8#5⟩,
   ⟨0x126B44C0#32, .stv ⟨false, 5#3⟩ 13#5 1#4 (.short 6#5) 0#2⟩, ⟨0xC187FFD0#32, .loop ⟨true, 0#3⟩ (.short 0xFFFA#16) false⟩,
   ⟨0x00590A60#32, .add ⟨false, 3#3⟩ 4#5 5#5 6#5⟩, ⟨0x91010C92#32, .ldw ⟨true, 0#3⟩ 4#5 3#4 (.short 4#5) 2#2 2#3⟩,
   ⟨0x93412049#32, .ldt ⟨true, 0#3⟩ (.tile 2#4) 4#4 (.short 0#4) true 1#2 1#3⟩,
   ⟨0x93C409C0#32, .spill ⟨true, 0#3⟩ 16#5 2#4 7#4 0#2 0#3⟩, ⟨0x9740D404#32, .bararr ⟨true, 0#3⟩ 3#5 5#4 (.short 0#5) 4#3⟩,
   ⟨0x99018883#32, .bldw ⟨true, 0#3⟩ 6#5 2#4 1#3 3#3⟩, ⟨0xA0470852#32, .vsub ⟨true, 0#3⟩ 28#5 4#5 5#5 1#3 false⟩,
   ⟨0xA3877864#32, .vmaxa ⟨true, 0#3⟩ 29#5 28#5 6#5 2#3 false⟩, ⟨0xA4407A76#32, .vthr ⟨true, 0#3⟩ 1#3 false false 29#5 7#5 3#3⟩,
   ⟨0xB4408081#32, .chsendt ⟨true, 0#3⟩ 2#5 (.tile 4#4) 1#3⟩, ⟨0xB540D464#32, .charr ⟨true, 0#3⟩ 3#5 5#4 3#5 4#3⟩] ++
  [⟨0xB4C15800#32, .chrecv ⟨true, 0#3⟩ 5#5 6#4 false⟩, ⟨0xB68000C3#32, .portw ⟨true, 0#3⟩ 6#5 3#3⟩,
   ⟨0xB510404D#32, .chred ⟨true, 2#3⟩ 1#3 2#5 true false 5#3⟩, ⟨0xD101D800#32, .waitfe ⟨true, 0#3⟩ 7#5 6#4⟩,
   ⟨0xB4804D80#32, .chsendm ⟨true, 0#3⟩ 1#5 3#4 12#5 0#2 0#3⟩]

theorem decode_given : wordsGiven.map (fun p => decodeHead [p.word]) = wordsGiven.map fun p => .ok (p.instr, []) := by rfl

/-- `cbopen s9, fix` with its Y slot, and `movi s7` with its own (Tables of Chapters 9 and 14). -/
theorem decode_y : decodeHead [0x36048000#32, 0xF0000018#32] = .ok (.cbopen ⟨true, 0#3⟩ 9#5 0x180#32, []) ∧
    decodeHead [0x0901C008#32, 0xF1234567#32] = .ok (.movi ⟨true, 0#3⟩ 7#5 (.long 0x12345678#32), []) := ⟨rfl, rfl⟩

/-- Table 09-11: some bundles and their fate. -/
theorem fetch_table : (fetching [0x80000000#32]).core.fetchBundle = .ok [.nop solo] ∧
    (fetching [0xE0000000#32]).core.fetchBundle = .error (0, .illcls) ∧
    (fetching [0x8B000000#32]).core.fetchBundle = .error (0, .illop) ∧
    (fetching [0x00400000#32, 0xF0000001#32]).core.fetchBundle = .error (1, .illy) ∧
    (fetching [0x11000000#32, 0x91000000#32]).core.fetchBundle = .error (0, .illbnd) ∧
    (fetching (List.replicate 8 0#32)).core.fetchBundle = .error (0, .illbnd) ∧
    (fetching [0x80010000#32]).core.fetchBundle = .error (0, .illfld) := by decide +kernel

/-- Ill-formed terms, one for each check: a v register code, a pair's parity, a v list, a condition, a mandatory tag, a pair at
the end of its file, a register list, one link twice, a conversion's parity and its code, a handler's alignment and its end, a
branch offset. -/
theorem ill_formed : [Instr.xtov g 28#5 0#5 0#4, .ldvb g 1#5 0#4 (.short 0#5) 0#2 0#3, .chsendv g 0#5 25#5 3#2 0#3,
    .cmp g 0#3 0#5 0#5 10#4, .vcmpi g 0#5 0#5 (.short 0#6) 6#3, .mxf g 0#2 (.tile 0#4) 0#3, .bldd g 31#5 0#4 0#3 1#3,
    .spill g 1#5 0#4 7#4 3#2 0#3, .fill g 28#5 0#4 0#4 1#2 0#3, .vadd g 0#5 28#5 28#5 0#3 false, .vcvt g 1#5 0#5 4#6 0#3,
    .vcvt g 0#5 0#5 12#6 0#3, .cbopen g 0#5 0x102#32, .cbopen g 0#5 0x4000#32, .br g (.long 2#32) false,
    .barinit g 31#5 0#4 (.short 0#5), .chred g 0#3 27#5 true false 0#3].all (fun i => !i.wf) = true := by decide +kernel

/-! Single steps, their results worked out by hand from the manual's text. -/

/-- Two registers of a running tile. -/
def two (a b : Word) : State := on (withS (withS run 1 a) 2 b)

theorem test_add_wraps : after (.add solo 3#5 1#5 2#5) (two 0xFFFFFFFF#32 2#32) (fun s => s.core.rs 3#5 == 1#32) = true := by
  decide +kernel

/-- R210: the signed high product of −1 and 2 is all ones, the unsigned one is 1. -/
theorem test_mulh : after (.mulh solo 3#5 1#5 2#5 false) (two 0xFFFFFFFF#32 2#32)
      (fun s => s.core.sch.flights.map (·.writes) == [[.s 3 0xFFFFFFFF#32]]) = true ∧
    after (.mulh solo 3#5 1#5 2#5 true) (two 0xFFFFFFFF#32 2#32)
      (fun s => s.core.sch.flights.map (·.writes) == [[.s 3 1#32]]) = true := by decide +kernel

/-- R210: only bits 4:0 of sB count. -/
theorem test_shift_count : after (.shl solo 3#5 1#5 2#5) (two 1#32 33#32) (fun s => s.core.rs 3#5 == 2#32) = true ∧
    after (.sar solo 3#5 1#5 2#5) (two 0x80000000#32 31#32) (fun s => s.core.rs 3#5 == 0xFFFFFFFF#32) = true := by decide +kernel

/-- R215: −1 is less than 0 signed and not unsigned. -/
theorem test_cmp : after (.cmp solo 1#3 1#5 2#5 2#4) (two 0xFFFFFFFF#32 0#32) (fun s => s.core.rp 1#3) = true ∧
    after (.cmp solo 1#3 1#5 2#5 6#4) (two 0xFFFFFFFF#32 0#32) (fun s => !s.core.rp 1#3) = true := by decide +kernel

/-- R4, R236: LDW reads little-endian, LDB extends the sign; a byte of a word in memory. -/
theorem test_loads : let s := on (run.withPad fun p => { p with mem := p.mem.put 0 [0x01#8, 0x02#8, 0x03#8, 0x84#8] })
    after (.ldw solo 3#5 0#4 (.short 0#5) 0#2 0#3) s
        (fun s => s.core.sch.flights.map (·.writes) == [[.s 3 0x84030201#32]]) = true ∧
      after (.ldb solo 3#5 0#4 (.short 3#5) 0#2 0#3) s
        (fun s => s.core.sch.flights.map (·.writes) == [[.s 3 0xFFFFFF84#32]]) = true := by decide +kernel

/-- R235: a word at an address that is no multiple of 4 raises SPALIGN; with no handler the tile halts with its record. -/
theorem test_misaligned : after (.ldw solo 3#5 1#4 (.short 0#5) 0#2 0#3) (on (withA run 1 2#32))
    (fun s => s.core.sch.status == .halted && s.core.sch.pc == 0#32 && s.core.files == (withA run 1 2#32).files) =
      true := by decide +kernel

/-- R193, R218: a branch of −6 words from 0x28 goes to 0x10; CALL saves the address behind its bundle. -/
theorem test_branch : let s := on (run.withSch fun c => { c with pc := 0x28#32 })
    after (.br solo (.short 0xFFFA#16) false) s (fun s => s.core.sch.pc == 0x10#32) = true ∧
      after (.call solo (.short 4#16) false) s (fun s => s.core.sch.pc == 0x38#32 && s.core.sch.rstk == [0x2C#32]) = true := by
  decide +kernel

/-- R221: a LOOP with lc above 0 counts down, rotates rrb and branches. -/
theorem test_loop : after (.loop solo (.short 0xFFFC#16) false)
    (on ((run.withSch fun c => { c with pc := 0x10#32 }).withCtl fun c => { c with lc := 2#32 }))
    (fun s => s.core.ctl.lc == 1#32 && s.core.ctl.rrb == 15 && s.core.sch.pc == 0#32) = true := by decide +kernel

/-- R4, R254 and Table 12-1: 1.5 + 2.25 is 3.75 in every lane; an inexact sum of FP32 rounds to even. -/
theorem test_vadd : let v (x : Word) : VReg := Vector.replicate 16 x
    let s (a b : Word) := on { run with files := { run.files with v := (run.files.v.setIfInBounds 1 (v a)).setIfInBounds 2 (v b) } }
    after (.vadd solo 3#5 1#5 2#5 0#3 false) (s 0x3FC00000#32 0x40100000#32)
        (fun s => s.core.sch.vops.map (·.writes) == [[.v 3 (v 0x40700000#32)]]) = true ∧
      after (.vadd solo 3#5 1#5 2#5 0#3 false) (s 0x3F800000#32 0x33800000#32)
        (fun s => s.core.sch.vops.map (·.writes) == [[.v 3 (v 0x3F800000#32)]]) = true := by decide +kernel

/-- R228: the bundle of TRAP issues, and TRAPI with its number waits for the boundary behind it. -/
theorem test_trap : after (.trap solo 300#9) (on handled) (fun s => s.core.sch.pc == 4#32 &&
    s.core.sch.pend.map (fun p => (p.cause, p.faddr)) == [(.trapi, 300#64)]) = true := by decide +kernel

/-- R135, R163: the cycle count goes on with every bundle, and a program of one NOP moves its pc by a word. -/
theorem test_step : (match step (fetching [0x80000000#32]) with
    | .next s => s.core.sch.pc == 4#32 && s.core.sch.cycle == 1
    | _ => false) = true := by decide +kernel

/-- The first instruction after reset is the one that withFetchWord places. -/
theorem test_withFetchWord : (match step (State.reset.withFetchWord 32 0x86421040) with
    | .next s => s.core.rs 8#5 == 64#32
    | _ => false) = true := by decide +kernel

end Sys2Proof.Tests
end

section
/-! SUPPORT. The scalar operations that write one register with latency 1: what their helper functions compute, in bits and
in numbers (R210 to R217, R224), and the statements about the bit field operations, the compares and the copies. -/

namespace Sys2Proof.Machine

/-! Issuing a slot that writes one register, and one that does nothing. -/

/-- A slot whose meaning is to write one register with latency 1 issues with that write as its effect. -/
theorem issues_of_semWrite {i : Instr} {h : Hdr} {w : Tile → RegWrite} {s : State} {t : Tile} (hs : s.Ready h.guard)
    (he : exec i s = runSlot i h (semWrite w) s) (ht : s.core.write1 (w s.core) = t) : Issues i s t :=
  ht ▸ he.trans (runSlot_semWrite hs)

/-- A slot whose meaning is no effect at all issues and leaves its tile to the close of the bundle. -/
theorem issues_of_noEffect {i : Instr} {h : Hdr} {s : State}
    (hs : s.Ready h.guard)
    (he : exec i s = runSlot i h (fun _ => { eff := fun _ t => t }) s) : Issues i s s.core :=
  he.trans (runSlot_quiet (sem := fun _ => { eff := fun _ t => t }) hs rfl rfl hs.between.noClosing hs.between.running
    hs.between.noReports)

/-! Counting and reversing bits (R210). -/

theorem clz32_le (x : Word) : clz32 x ≤ 32 := by
  unfold clz32
  split <;> omega

/-- Of a word that is not zero, the leading zeros and the highest set bit together fill the word. -/
theorem clz32_add_log2 {x : Word} (hx : x ≠ 0#32) : clz32 x + x.toNat.log2 = 31 := by
  have hlog : x.toNat.log2 < 32 := (Nat.log2_lt (BitVec.toNat_ne.mp hx)).mpr x.isLt
  rw [clz32, if_neg hx]
  omega

theorem toNat_lt_of_clz32 (x : Word) : x.toNat < 2 ^ (32 - clz32 x) := by
  by_cases hx : x = 0#32
  · subst hx
    decide
  · have hsum := clz32_add_log2 hx
    rw [show 32 - clz32 x = x.toNat.log2 + 1 by omega]
    exact Nat.lt_log2_self

theorem le_toNat_of_clz32 {x : Word} (hn : clz32 x < 32) : 2 ^ (31 - clz32 x) ≤ x.toNat := by
  have hx : x ≠ 0#32 := fun e => by simp [clz32, e] at hn
  have hsum := clz32_add_log2 hx
  rw [show 31 - clz32 x = x.toNat.log2 by omega]
  exact Nat.log2_self_le (BitVec.toNat_ne.mp hx)

/-- The search for a set bit stops within its fuel, behind clear bits only, and at a set bit unless the fuel is spent. -/
theorem ctzFrom_spec (x : Word) (fuel i : Nat) :
    ctzFrom x fuel i ≤ i + fuel ∧ (∀ j, i ≤ j → j < ctzFrom x fuel i → x.getLsbD j = false) ∧
      (ctzFrom x fuel i < i + fuel → x.getLsbD (ctzFrom x fuel i) = true) := by
  induction fuel generalizing i with
  | zero =>
    exact ⟨le_rfl, fun j hij hji => absurd hji (Nat.not_lt.mpr hij), fun hi => absurd hi (Nat.lt_irrefl i)⟩
  | succ fuel ih =>
    rw [ctzFrom]
    by_cases hbit : x.getLsbD i = true
    · rw [if_pos hbit]
      exact ⟨by omega, fun j hij hji => absurd hji (Nat.not_lt.mpr hij), fun _ => hbit⟩
    · rw [if_neg hbit]
      obtain ⟨hle, hclear, hset⟩ := ih (i + 1)
      refine ⟨by omega, fun j hij hji => ?_, fun hlt => hset (by omega)⟩
      rcases Nat.eq_or_lt_of_le hij with rfl | hlt
      · exact Bool.eq_false_of_not_eq_true hbit
      · exact hclear j hlt hji

theorem getLsbD_brev32 (x : Word) {i : Nat} (hi : i < 32) : (brev32 x).getLsbD i = x.getLsbD (31 - i) := by
  rw [brev32, BitVec.getLsbD_reverse, BitVec.getMsbD_eq_getLsbD, decide_eq_true hi, Bool.true_and]

/-! The field of BFX and BFI (R211). -/

theorem bfPos_eq (y : Word) : bfPos y = y.toNat % 32 := by
  simp [bfPos, bitsOf]

theorem bfWidth_eq (y : Word) : bfWidth y = Nat.min (y.toNat / 256 % 32 + 1) (32 - y.toNat % 32) := by
  simp [bfWidth, bitsOf, bfPos_eq]

/-- A number that fits in `n` bits, read as two's complement. -/
theorem sxt_of_lt {n f : Nat} (hf : f < 2 ^ n) : sxt n f = if 2 ^ (n - 1) ≤ f then (f : Int) - 2 ^ n else f := by
  rw [sxt, Nat.mod_eq_of_lt hf]
  by_cases hneg : 2 ^ (n - 1) ≤ f
  · rw [if_neg (Nat.not_lt.mpr hneg), if_pos hneg]
    push_cast
    rfl
  · rw [if_pos (Nat.not_le.mp hneg), if_neg hneg]

/-- BFX's result is the field as a number, signed where it is asked for. -/
theorem bfExtract_eq (x y : Word) (sx : Bool) :
    let f := bitsOf x.toNat (bfPos y) (bfWidth y)
    bfExtract x y sx = num (if sx = true ∧ 2 ^ (bfWidth y - 1) ≤ f then (f : Int) - 2 ^ bfWidth y else f) := by
  intro f
  cases sx with
  | false => simp [bfExtract, num, f]
  | true =>
    have hf : f < 2 ^ bfWidth y := Nat.mod_lt _ (Nat.two_pow_pos _)
    simp only [bfExtract, if_true, wordOfInt, num, true_and]
    rw [sxt_of_lt hf]

/-- The mask of BFI has the bits of the field set. -/
theorem getLsbD_fieldMask (pos wid : Nat) {i : Nat} (hi : i < 32) :
    (BitVec.ofNat 32 ((2 ^ wid - 1) * 2 ^ pos)).getLsbD i = decide (pos ≤ i ∧ i < pos + wid) := by
  rw [BitVec.getLsbD_ofNat, Nat.testBit_mul_two_pow, Nat.testBit_two_pow_sub_one, ← Bool.decide_and, ← Bool.decide_and]
  exact decide_eq_decide.mpr (by omega)

/-- BFI puts the low bits of its source into the field and keeps every other bit. -/
theorem getLsbD_bfInsert (z x y : Word) {i : Nat} (hi : i < 32) :
    (bfInsert z x y).getLsbD i =
      if bfPos y ≤ i ∧ i < bfPos y + bfWidth y then x.getLsbD (i - bfPos y) else z.getLsbD i := by
  simp only [bfInsert, BitVec.getLsbD_or, BitVec.getLsbD_and, BitVec.getLsbD_not, BitVec.getLsbD_shiftLeft,
    getLsbD_fieldMask _ _ hi]
  by_cases hin : bfPos y ≤ i ∧ i < bfPos y + bfWidth y <;> simp [hin, hi]

/-! Comparing words as numbers (R210, R215). -/

theorem slt_iff_sNum_lt (x y : Word) : x.slt y = true ↔ sNum x < sNum y := BitVec.slt_iff_toInt_lt

theorem ult_iff_uNum_lt (x y : Word) : x.ult y = true ↔ uNum x < uNum y :=
  BitVec.ult_iff_toNat_lt.trans Int.ofNat_lt.symm

theorem sNum_inj (x y : Word) : sNum x = sNum y ↔ x = y := BitVec.toInt_inj

/-- The relation that MIN and MAX choose by is less-than, over the numbers they read. -/
theorem pickLess_iff (u : Bool) (x y : Word) : pickLess u x y = true ↔ numBy u x < numBy u y := by
  cases u with
  | false => exact slt_iff_sNum_lt x y
  | true => exact ult_iff_uNum_lt x y

/-- Each condition of CMP holds of two words as Table 10-3 says it over their numbers. -/
theorem cmpCond_iff (code : Nat) (x y : Word) : cmpCond code x y = true ↔ cmpHolds code x y := by
  unfold cmpCond cmpHolds
  split <;> simp only [beq_iff_eq, bne_iff_ne, ne_eq, Bool.not_eq_true', ← Bool.not_eq_true, slt_iff_sNum_lt,
    ult_iff_uNum_lt, sNum_inj, not_lt]

/-- An immediate's word, read as a signed number, is the immediate. -/
theorem sNum_immSx {n : Nat} (hn : n ≤ 32) (m : Imm n 32) : sNum (immSx m) = immNum m := by
  cases m with
  | short v => exact BitVec.toInt_signExtend_of_le hn
  | long w => rfl

theorem num_immNum {n : Nat} (hn : n ≤ 32) (m : Imm n 32) : num (immNum m) = immSx m := by
  rw [← sNum_immSx hn]
  exact BitVec.ofInt_toInt

/-- MIN's word is one of its operands and no greater than either. -/
theorem pick_lesser (u : Bool) (x y : Word) :
    let w := if pickLess u y x then y else x
    (w = x ∨ w = y) ∧ numBy u w ≤ numBy u x ∧ numBy u w ≤ numBy u y := by
  intro w
  simp only [w, pickLess_iff]
  split
  · exact ⟨.inr rfl, le_of_lt ‹_›, le_rfl⟩
  · exact ⟨.inl rfl, le_rfl, not_lt.mp ‹_›⟩

/-- MAX's word is one of its operands and no less than either. -/
theorem pick_greater (u : Bool) (x y : Word) :
    let w := if pickLess u x y then y else x
    (w = x ∨ w = y) ∧ numBy u x ≤ numBy u w ∧ numBy u y ≤ numBy u w := by
  intro w
  simp only [w, pickLess_iff]
  split
  · exact ⟨.inr rfl, le_of_lt ‹_›, le_rfl⟩
  · exact ⟨.inl rfl, le_rfl, not_lt.mp ‹_›⟩

/-- The lowest bit of a word says whether it is odd. -/
theorem getLsbD_zero_eq_decide_odd (x : Word) : x.getLsbD 0 = decide (uNum x % 2 = 1) := by
  rw [← BitVec.testBit_toNat, Nat.testBit_zero, uNum]
  exact decide_eq_decide.mpr (by omega)

/-! The statements. -/

/-- Settles O12: each result is one of the helper functions above, whose bits the lemmas about it give. -/
theorem bitFields : Obligations.BitFields := by
  intro s h d a b sx hs x y put pos wid f
  have hpos : bfPos y = pos := bfPos_eq y
  have hwid : bfWidth y = wid := bfWidth_eq y
  refine ⟨?clz, ?ctz, issues_of_semWrite hs rfl rfl, ?brev, ?bfx, ?bfi⟩
  case clz => exact ⟨clz32 x, issues_of_semWrite hs rfl rfl, clz32_le x, toNat_lt_of_clz32 x, le_toNat_of_clz32⟩
  case ctz =>
    obtain ⟨hle, hclear, hset⟩ := ctzFrom_spec x 32 0
    exact ⟨ctz32 x, issues_of_semWrite hs rfl rfl, hle, fun i hi => hclear i (Nat.zero_le i) hi, hset⟩
  case brev => exact ⟨brev32 x, issues_of_semWrite hs rfl rfl, fun _ hi => getLsbD_brev32 x hi⟩
  case bfx =>
    have hfield := bfExtract_eq x y sx
    rw [hpos, hwid] at hfield
    exact issues_of_semWrite hs rfl (congrArg put hfield)
  case bfi =>
    refine ⟨bfInsert (s.core.rs d) x y, issues_of_semWrite hs rfl rfl, fun i hi => ?_⟩
    rw [getLsbD_bfInsert _ _ _ hi, hpos, hwid]

/-- Settles O13: a compare's truth value is its condition over numbers, MIN and MAX choose by the same order, and the copies
and the predicate operations write what they read. -/
theorem comparesAndCopies : Obligations.ComparesAndCopies := by
  constructor
  · intro s h d a b p c m u hs x y put putP
    refine ⟨⟨cmpCond c.toNat x y, issues_of_semWrite hs rfl rfl, fun _ => cmpCond_iff c.toNat x y⟩,
      ⟨x == immSx m, issues_of_semWrite hs rfl rfl, ?eqi⟩, ⟨x.slt (immSx m), issues_of_semWrite hs rfl rfl, ?lti⟩,
      ⟨x.ult (immSx m), issues_of_semWrite hs rfl rfl, ?ltui⟩, ⟨_, issues_of_semWrite hs rfl rfl, pick_lesser u x y⟩,
      ⟨_, issues_of_semWrite hs rfl rfl, pick_greater u x y⟩, issues_of_semWrite hs rfl rfl⟩
    case eqi => rw [beq_iff_eq, ← sNum_immSx (by decide), sNum_inj]
    case lti => rw [slt_iff_sNum_lt, sNum_immSx (by decide)]
    case ltui => rw [ult_iff_uNum_lt, num_immNum (by decide)]
  · intro s h d a e p q r hs putP
    have hodd := getLsbD_zero_eq_decide_odd (s.core.rs a)
    have hxor := congrFun₂ Bool.bne_eq_xor (s.core.rp q) (s.core.rp r)
    exact ⟨issues_of_semWrite hs rfl rfl, issues_of_semWrite hs rfl rfl, issues_of_semWrite hs rfl (congrArg putP hodd),
      issues_of_semWrite hs rfl rfl, issues_of_semWrite hs rfl rfl, issues_of_semWrite hs rfl rfl,
      issues_of_semWrite hs rfl (congrArg putP hxor), issues_of_semWrite hs rfl rfl, issues_of_semWrite hs rfl rfl,
      issues_of_noEffect hs rfl, issues_of_noEffect hs rfl⟩

end Sys2Proof.Machine
end

section
/-! SUPPORT. The operations with an immediate and the address operations: their words are the sums, products and quotients of
Table 10-2, R214 and R258 modulo 2^32; and the statement about them. -/

namespace Sys2Proof.Machine

/-! Sums and shifts of words as numbers modulo 2^32. -/

@[simp] theorem num_sNum (x : Word) : num (sNum x) = x := BitVec.ofInt_toInt

@[simp] theorem num_uNum (x : Word) : num (uNum x) = x := by
  rw [num, uNum, BitVec.ofInt_natCast, BitVec.ofNat_toNat, BitVec.setWidth_eq]

theorem num_add (i j : Int) : num (i + j) = num i + num j := BitVec.ofInt_add i j

theorem num_mul (i j : Int) : num (i * j) = num i * num j := BitVec.ofInt_mul i j

theorem num_two_pow (k : Nat) : num (2 ^ k) = BitVec.twoPow 32 k := by
  have hcast : num ((2 ^ k : Nat) : Int) = BitVec.twoPow 32 k := by
    rw [num, BitVec.ofInt_natCast]
    exact BitVec.eq_of_toNat_eq (by rw [BitVec.toNat_ofNat, BitVec.toNat_twoPow])
  exact_mod_cast hcast

/-- A left shift multiplies by a power of two, whichever way the word is read. -/
theorem num_uNum_mul_two_pow (x : Word) (k : Nat) : num (uNum x * 2 ^ k) = x <<< k := by
  rw [num_mul, num_uNum, num_two_pow, BitVec.mul_twoPow_eq_shiftLeft]

theorem num_sNum_mul_two_pow (x : Word) (k : Nat) : num (sNum x * 2 ^ k) = x <<< k := by
  rw [num_mul, num_sNum, num_two_pow, BitVec.mul_twoPow_eq_shiftLeft]

/-- A logical right shift divides the unsigned number. -/
theorem num_uNum_div_two_pow (x : Word) (k : Nat) : num (uNum x / 2 ^ k) = x >>> k := by
  have hdiv : uNum (x >>> k) = uNum x / 2 ^ k := by
    simp [uNum, Nat.shiftRight_eq_div_pow]
  rw [← hdiv, num_uNum]

/-- An arithmetic right shift divides the signed number, toward minus infinity. -/
theorem num_sNum_div_two_pow (x : Word) (k : Nat) : num (sNum x / 2 ^ k) = x.sshiftRight k := by
  have hdiv : sNum (x.sshiftRight k) = sNum x / 2 ^ k := by
    rw [sNum, BitVec.toInt_sshiftRight, Int.shiftRight_eq_div_pow]
    norm_cast
  rw [← hdiv, num_sNum]

/-- MOVHI's word: the immediate above the low 18 bits kept (R214). -/
theorem num_high_low (w : BitVec 14) (y : Word) :
    num (w.toNat * 2 ^ 18 + uNum y % 2 ^ 18) = w ++ y.extractLsb' 0 18 := by
  have hcat : uNum (w ++ y.extractLsb' 0 18) = w.toNat * 2 ^ 18 + uNum y % 2 ^ 18 := by
    rw [uNum, BitVec.toNat_append, ← Nat.shiftLeft_add_eq_or_of_lt (BitVec.isLt _)]
    simp [uNum, Nat.shiftLeft_eq]
  rw [← hcat, num_uNum]

/-- LEA's offset: 16 times the signed immediate (Table 09-2). -/
theorem num_sixteen_mul_toInt {n : Nat} (hn : n ≤ 32) (o : BitVec n) :
    num (16 * o.toInt) = immScaled 16 (.short o) := by
  have hsx : num o.toInt = o.signExtend 32 := num_immNum hn (.short o)
  rw [num_mul, hsx, BitVec.mul_comm]
  rfl

/-! The statement. -/

/-- Settles O14: each operation writes one register with latency 1, with the word of its number modulo 2^32. -/
theorem immediates : Obligations.Immediates := by
  intro s h d a k m v w e f o l sh hs x put putA
  have himm : num (immNum m) = immSx m := num_immNum (by decide) m
  refine ⟨issues_of_semWrite hs rfl ?addi, issues_of_semWrite hs rfl ?andi, issues_of_semWrite hs rfl ?ori,
    issues_of_semWrite hs rfl ?xori, issues_of_semWrite hs rfl ?shli, issues_of_semWrite hs rfl ?shri,
    issues_of_semWrite hs rfl ?sari, issues_of_semWrite hs rfl ?movi, issues_of_semWrite hs rfl ?movhi,
    issues_of_semWrite (w := fun r => .a e.toNat (r.ra f + immScaled 16 (.short o))) hs rfl ?leaShort,
    issues_of_semWrite (w := fun r => .a e.toNat (r.ra f + l)) hs rfl ?leaLong,
    issues_of_semWrite (w := fun r => .a e.toNat (r.ra f + (r.rs a <<< sh.toNat))) hs rfl ?adda⟩
  case addi => rw [num_add, num_sNum, himm]
  case andi => rw [himm]
  case ori => rw [himm]
  case xori => rw [himm]
  case shli => rw [num_uNum_mul_two_pow]
  case shri => rw [num_uNum_div_two_pow]
  case sari => rw [num_sNum_div_two_pow]
  case movi => rw [num_immNum (by decide)]
  case movhi => rw [num_high_low]
  case leaShort => rw [num_add, num_sNum, num_sixteen_mul_toInt (by decide)]
  case leaLong => rw [num_add, num_sNum, num_sNum]
  case adda => rw [num_add, num_sNum, num_sNum_mul_two_pow]

end Sys2Proof.Machine
end

section
/-! SUPPORT. Fields of a slot word (R190 to R198): what is put at a place is found there, fields that cover a word give it back,
and the operand forms of Table 09-2 are read back from their fields and their Y slot. -/

namespace Sys2Proof.Machine

/-! A field of a word, and a field put at its place. -/

theorem getLsbD_fld (w : Word) (lo n i : Nat) : (fld w lo n).getLsbD i = (decide (i < n) && w.getLsbD (lo + i)) := by
  simp [fld]

theorem getLsbD_at19 {n : Nat} (lo : Nat) (x : BitVec n) (i : Nat) :
    (at19 lo x).getLsbD i = (decide (i < 32) && decide (lo ≤ i) && x.getLsbD (i - lo)) := by
  rw [at19, BitVec.getLsbD_shiftLeft, BitVec.getLsbD_setWidth]
  by_cases hl : lo ≤ i
  · by_cases hi : i < 32
    · simp [hl, hi, Nat.not_lt.mpr hl, Nat.lt_of_le_of_lt (Nat.sub_le i lo) hi]
    · simp [hi]
  · simp [hl, Nat.not_le.mp hl]

@[simp] theorem fld_or (x y : Word) (lo n : Nat) : fld (x ||| y) lo n = fld x lo n ||| fld y lo n :=
  BitVec.eq_of_getLsbD_eq fun i _ => by simp only [getLsbD_fld, BitVec.getLsbD_or, Bool.and_or_distrib_left]

@[simp] theorem fld_zero (lo n : Nat) : fld 0#32 lo n = 0#n := BitVec.extractLsb'_zero

/-- A field put into a word is found at its place. -/
@[simp] theorem fld_at19_same {n : Nat} (lo : Nat) (x : BitVec n) (h : lo + n ≤ 32) : fld (at19 lo x) lo n = x := by
  refine BitVec.eq_of_getLsbD_eq fun i hi => ?_
  have hlt : lo + i < 32 := by omega
  simp only [getLsbD_fld, getLsbD_at19, hi, hlt, Nat.le_add_right, Nat.add_sub_cancel_left, decide_true, Bool.true_and]

/-- A field put into a word leaves the fields above and below it zero. -/
@[simp] theorem fld_at19_apart {m : Nat} (k lo n : Nat) (x : BitVec m) (h : lo + n ≤ k ∨ k + m ≤ lo) :
    fld (at19 k x) lo n = 0#n := by
  refine BitVec.eq_of_getLsbD_eq fun i hi => ?_
  simp only [getLsbD_fld, getLsbD_at19, BitVec.getLsbD_zero, Bool.and_eq_false_iff, decide_eq_false_iff_not]
  rcases h with h | h
  · exact .inr (.inl (.inr (by omega)))
  · exact .inr (.inr (BitVec.getLsbD_of_ge _ _ (by omega)))

/-- A part of a field that is zero is zero. -/
theorem fld_eq_zero_of_le {w : Word} {lo n : Nat} (k m : Nat) (h : fld w lo n = 0#n) (hl : lo ≤ k) (hn : k + m ≤ lo + n) :
    fld w k m = 0#m := by
  refine BitVec.eq_of_getLsbD_eq fun i hi => ?_
  have hbit := congrArg (·.getLsbD (k - lo + i)) h
  have hlt : k - lo + i < n := by omega
  have hat : lo + (k - lo + i) = k + i := by omega
  simpa only [getLsbD_fld, hi, hlt, hat, decide_true, Bool.true_and, BitVec.getLsbD_zero] using hbit


/-! Flags, split register codes, and bits that must be zero. -/

theorem ofBool_flg (w : Word) (lo : Nat) : BitVec.ofBool (flg w lo) = fld w lo 1 := by
  have hbit : ∀ x : BitVec 1, BitVec.ofBool (x == 1#1) = x := by decide
  exact hbit _

theorem flg_eq_getLsbD_fld {w : Word} {lo k n : Nat} (hk : k < n) : flg w (lo + k) = (fld w lo n).getLsbD k := by
  have hbit : ∀ x : BitVec 1, (x == 1#1) = x.getLsbD 0 := by decide
  rw [flg, hbit, getLsbD_fld, getLsbD_fld, decide_eq_true hk]
  rfl

theorem ofBool_beq_one (u : Bool) : (BitVec.ofBool u == 1#1) = u := by cases u <;> rfl

theorem fld5_append (c : BitVec 5) : fld5hi c ++ fld5lo c = c := by revert c; decide

theorem fld5lo_append (x : BitVec 1) (y : BitVec 4) : fld5lo (x ++ y) = y := by revert x y; decide

theorem fld5hi_append (x : BitVec 1) (y : BitVec 4) : fld5hi (x ++ y) = x := by revert x y; decide

theorem zeroAt_of_fld {w : Word} {lo n : Nat} (h : fld w lo n = 0#n) : zeroAt w lo n = true := by
  rw [zeroAt, h]
  exact beq_self_eq_true _

/-- A field in its place is the word under the field's mask. -/
theorem at19_fld (w : Word) (lo n : Nat) : at19 lo (fld w lo n) = w &&& BitVec.ofNat 32 ((2 ^ n - 1) * 2 ^ lo) := by
  refine BitVec.eq_of_getLsbD_eq fun i hi => ?_
  rw [getLsbD_at19, getLsbD_fld, BitVec.getLsbD_and, BitVec.getLsbD_ofNat, Nat.testBit_mul_two_pow,
    Nat.testBit_two_pow_sub_one]
  by_cases hl : lo ≤ i
  · simp only [hi, hl, decide_true, Bool.true_and, Nat.add_sub_cancel' hl, Bool.and_comm]
  · simp [hl]

theorem and_mask_of_zeroAt {w : Word} {lo n : Nat} (h : zeroAt w lo n = true) :
    w &&& BitVec.ofNat 32 ((2 ^ n - 1) * 2 ^ lo) = 0#32 := by
  have hz : fld w lo n = 0#n := eq_of_beq h
  rw [← at19_fld, hz]
  simp [at19]

theorem and_or_eq_zero {w a b : Word} (ha : w &&& a = 0#32) (hb : w &&& b = 0#32) : w &&& (a ||| b) = 0#32 := by
  rw [BitVec.and_or_distrib_left, ha, hb]
  rfl

/-! Fields that cover the 19 bits of a slot body but for bits that must be zero give the body. -/

section
variable {w m : Word} {a b c k l n : Nat}

theorem cover_of_mask {z : Word} (hz : w &&& z = 0#32) (hm : m ||| z = 0x7FFFF#32) : w &&& m = w &&& 0x7FFFF#32 := by
  rw [← hm, BitVec.and_or_distrib_left, hz, BitVec.or_zero]

theorem cover_none (hz : zeroAt w 0 19 = true) : 0#32 = w &&& 0x7FFFF#32 := (and_mask_of_zeroAt hz).symm

theorem cover_all (hm : m = 0x7FFFF#32) : w &&& m = w &&& 0x7FFFF#32 := by rw [hm]

theorem cover_one (hz : zeroAt w a k = true) (hm : m ||| BitVec.ofNat 32 ((2 ^ k - 1) * 2 ^ a) = 0x7FFFF#32) :
    w &&& m = w &&& 0x7FFFF#32 := cover_of_mask (and_mask_of_zeroAt hz) hm

theorem cover_two (hz : (zeroAt w a k && zeroAt w b l) = true)
    (hm : m ||| (BitVec.ofNat 32 ((2 ^ k - 1) * 2 ^ a) ||| BitVec.ofNat 32 ((2 ^ l - 1) * 2 ^ b)) = 0x7FFFF#32) :
    w &&& m = w &&& 0x7FFFF#32 := by
  rw [Bool.and_eq_true] at hz
  exact cover_of_mask (and_or_eq_zero (and_mask_of_zeroAt hz.1) (and_mask_of_zeroAt hz.2)) hm

theorem cover_three (hz : (zeroAt w a k && zeroAt w b l && zeroAt w c n) = true)
    (hm : m ||| (BitVec.ofNat 32 ((2 ^ k - 1) * 2 ^ a) ||| BitVec.ofNat 32 ((2 ^ l - 1) * 2 ^ b) |||
      BitVec.ofNat 32 ((2 ^ n - 1) * 2 ^ c)) = 0x7FFFF#32) :
    w &&& m = w &&& 0x7FFFF#32 := by
  rw [Bool.and_eq_true, Bool.and_eq_true] at hz
  exact cover_of_mask (and_or_eq_zero (and_or_eq_zero (and_mask_of_zeroAt hz.1.1) (and_mask_of_zeroAt hz.1.2))
    (and_mask_of_zeroAt hz.2)) hm

end
/-- An extended immediate is its Y slot's 28 bits above the owner's four (R195). -/
theorem append_extractLsb'_four (v : Word) : v.extractLsb' 4 28 ++ v.extractLsb' 0 4 = v := by
  refine BitVec.eq_of_getLsbD_eq fun i hi => ?_
  simp only [BitVec.getLsbD_append, BitVec.getLsbD_extractLsb']
  by_cases h : i < 4
  · simp [h]
  · have h1 : i - 4 < 28 := by omega
    have h2 : 4 + (i - 4) = i := by omega
    simp [h, h1, h2]

/-- The owner's four bits of an extended immediate, with zeros above them. -/
theorem low_long {n : Nat} (hn : 4 ≤ n) (v : Word) : (Imm.long v : Imm n 32).low = (v.extractLsb' 0 4).setWidth n := by
  refine BitVec.eq_of_toNat_eq ?_
  have hmin : min n 4 = 4 := by omega
  simp [Imm.low, hmin]

theorem immW_low {n : Nat} (hn : 4 ≤ n) (i : Imm n 32) : immW i.low i.yW = some i := by
  cases i with
  | short i => rfl
  | long v =>
    have hlt : 2 ^ 4 ≤ 2 ^ n := Nat.pow_le_pow_right (by decide) hn
    have hx := (v.extractLsb' 0 4).isLt
    have hfit : ((v.extractLsb' 0 4).setWidth n).toNat < 16 := by
      rw [BitVec.toNat_setWidth]
      exact lt_of_le_of_lt (Nat.mod_le _ _) hx
    have hback : ((v.extractLsb' 0 4).setWidth n).setWidth 4 = v.extractLsb' 0 4 := by
      rw [BitVec.setWidth_setWidth_of_le _ hn, BitVec.setWidth_eq]
    rw [low_long hn, Imm.yW, immW, if_pos hfit, hback, append_extractLsb'_four]

theorem immW_eq_some {n : Nat} (hn : 4 ≤ n) {f : BitVec n} {y : Option (BitVec 28)} {i : Imm n 32}
    (h : immW f y = some i) : i.low = f ∧ i.yW = y := by
  cases y with
  | none => cases h; exact ⟨rfl, rfl⟩
  | some v =>
    rw [immW] at h
    split at h
    · next hf =>
      cases h
      have hlow : (v ++ f.setWidth 4).extractLsb' 0 4 = f.setWidth 4 := BitVec.extractLsb'_append_eq_right
      have hhigh : (v ++ f.setWidth 4).extractLsb' 4 28 = v := BitVec.extractLsb'_append_eq_left
      rw [low_long hn, hlow, Imm.yW, hhigh]
      refine ⟨BitVec.eq_of_toNat_eq ?_, rfl⟩
      rw [BitVec.toNat_setWidth, BitVec.toNat_setWidth, Nat.mod_eq_of_lt hf, Nat.mod_eq_of_lt f.isLt]
    · cases h

theorem immA_low (i : Imm 2 30) : immA i.low i.yA = some i := by
  cases i with
  | short i => rfl
  | long v =>
    have hv : v.extractLsb' 2 28 ++ v.extractLsb' 0 2 = v := by
      refine BitVec.eq_of_getLsbD_eq fun i hi => ?_
      simp only [BitVec.getLsbD_append, BitVec.getLsbD_extractLsb']
      by_cases h : i < 2
      · simp [h]
      · have h1 : i - 2 < 28 := by omega
        have h2 : 2 + (i - 2) = i := by omega
        simp [h, h1, h2]
    have hlow : (Imm.long v : Imm 2 30).low = v.extractLsb' 0 2 := BitVec.eq_of_toNat_eq (by simp [Imm.low])
    rw [hlow, Imm.yA, immA, hv]

theorem immA_eq_some {f : BitVec 2} {y : Option (BitVec 28)} {i : Imm 2 30} (h : immA f y = some i) : i.low = f ∧ i.yA = y := by
  cases y with
  | none => cases h; exact ⟨rfl, rfl⟩
  | some v =>
    cases h
    refine ⟨BitVec.eq_of_toNat_eq ?_, congrArg some BitVec.extractLsb'_append_eq_left⟩
    have hlow : (v ++ f).extractLsb' 0 2 = f := BitVec.extractLsb'_append_eq_right
    simpa [Imm.low] using congrArg BitVec.toNat hlow

theorem immReq_low (v : Word) : immReq (lo4 v) (some (v.extractLsb' 4 28)) = some v :=
  congrArg some (append_extractLsb'_four v)

theorem immReq_eq_some {f : BitVec 4} {y : Option (BitVec 28)} {v : Word} (h : immReq f y = some v) :
    lo4 v = f ∧ some (v.extractLsb' 4 28) = y := by
  cases y with
  | none => cases h
  | some x => cases h; exact ⟨BitVec.extractLsb'_append_eq_right, congrArg some BitVec.extractLsb'_append_eq_left⟩

theorem tileRef_eq_some {c : BitVec 4} {g : Bool} {r : TileRef} (h : tileRef c g = some r) : r.code = c ∧ r.isRing = g := by
  cases g with
  | false => cases h; exact ⟨rfl, rfl⟩
  | true =>
    rw [tileRef, if_pos rfl] at h
    split at h
    · next hc =>
      cases h
      refine ⟨?_, rfl⟩
      revert c
      decide
    · cases h

theorem tileRefOpt_eq_some {c : BitVec 4} {l g : Bool} {r : Option TileRef} (h : tileRefOpt c l g = some r) :
    TileRef.optCode r = c ∧ r.isSome = l ∧ TileRef.optRing r = g := by
  cases l with
  | true =>
    obtain ⟨x, hx, rfl⟩ := Option.map_eq_some_iff.mp h
    obtain ⟨hcode, hring⟩ := tileRef_eq_some hx
    exact ⟨hcode, rfl, hring⟩
  | false =>
    rw [tileRefOpt, if_neg Bool.false_ne_true] at h
    split at h
    · next hz =>
      cases h
      simp only [Bool.and_eq_true, decide_eq_true_eq, Bool.not_eq_true'] at hz
      exact ⟨hz.1.symm, rfl, hz.2.symm⟩
    · cases h
theorem tileRef_code (r : TileRef) : tileRef r.code r.isRing = some r := by
  cases r with
  | tile t => rfl
  | ring n => revert n; decide

theorem tileRefOpt_code (r : Option TileRef) : tileRefOpt (TileRef.optCode r) r.isSome (TileRef.optRing r) = some r := by
  cases r with
  | none => rfl
  | some r => simp [tileRefOpt, TileRef.optCode, TileRef.optRing, tileRef_code]


theorem fieldOk_some {i : Instr} (hw : i.wf = true) : fieldOk true (some i) = .ok i := by
  simp [fieldOk, hw]

theorem fieldOk_eq_ok {ok : Bool} {o : Option Instr} {i : Instr} (h : fieldOk ok o = .ok i) : o = some i ∧ ok = true ∧ i.wf = true := by
  unfold fieldOk at h
  split at h
  · split at h
    · next j hj => cases h; rw [Bool.and_eq_true] at hj; exact ⟨rfl, hj⟩
    · cases h
  · cases h

/-! The parts of a slot word (R190): its operand fields lie below bit 19. -/

section
variable {e : Bool} {k : BitVec 9} {g : BitVec 3} {b : Word}

theorem fld_slotWord {lo n : Nat} (h : lo + n ≤ 19) : fld (slotWord e k g b) lo n = fld b lo n := by
  rw [slotWord, fld_or, fld_or, fld_or, fld_at19_apart 31 lo n _ (.inl (by omega)),
    fld_at19_apart 22 lo n _ (.inl (by omega)), fld_at19_apart 19 lo n _ (.inl (by omega))]
  simp only [BitVec.zero_or]

theorem slotLast_slotWord (hb : fld b 19 13 = 0#13) : slotLast (slotWord e k g b) = e := by
  have hz := fld_eq_zero_of_le 31 1 hb (by omega) (by omega)
  cases e <;> simp [slotLast, flg, slotWord, hz]

theorem slotHdr_slotWord (hb : fld b 19 13 = 0#13) (last : Bool) : slotHdr (slotWord e k g b) last = ⟨last, g⟩ := by
  have hz := fld_eq_zero_of_le 19 3 hb (by omega) (by omega)
  simp [slotHdr, slotWord, hz]

theorem fld_key_slotWord (hb : fld b 19 13 = 0#13) : fld (slotWord e k g b) 22 9 = k := by
  have hz := fld_eq_zero_of_le 22 9 hb (by omega) (by omega)
  simp [slotWord, hz]

end

/-- The class of a slot word is the high part of its key, its opcode the low part. -/
theorem slotClass_eq (w : Word) : slotClass w = (fld w 22 9).toNat / 64 := by
  simp only [slotClass, fld, BitVec.extractLsb'_toNat, Nat.shiftRight_eq_div_pow]
  omega

theorem opcode_eq (w : Word) : (fld w 22 6).toNat = (fld w 22 9).toNat % 64 := by
  simp only [fld, BitVec.extractLsb'_toNat, Nat.shiftRight_eq_div_pow]
  omega

theorem flg_eq (w : Word) (lo : Nat) : flg w lo = (fld w lo 1).getLsbD 0 := by
  have : ∀ x : BitVec 1, (x == 1#1) = x.getLsbD 0 := by decide
  exact this _


end Sys2Proof.Machine
end

section
/-! SUPPORT. Decoding what was encoded (R190 to R198): a slot word that carries the fields of a well-formed instruction decodes to
it, class by class. -/

namespace Sys2Proof.Machine

/-- A slot word carries a class and opcode, a guard and operand fields (R190). -/
structure Carries (w : Word) (k : BitVec 9) (g : BitVec 3) (b : Word) : Prop where
  key : fld w 22 9 = k
  guard : fld w 19 3 = g
  body : ∀ lo n, lo + n ≤ 19 → fld w lo n = fld b lo n

section
variable {w : Word} {k : BitVec 9} {g : BitVec 3} {b : Word}

theorem Carries.class_eq (h : Carries w k g b) : slotClass w = k.toNat / 64 := by rw [slotClass_eq, h.key]

theorem Carries.opcode_eq (h : Carries w k g b) : (fld w 22 6).toNat = k.toNat % 64 := by rw [Machine.opcode_eq, h.key]

theorem Carries.hdr_eq {h : Hdr} (hw : Carries w k h.guard b) : slotHdr w h.last = h := by rw [slotHdr, hw.guard]

end

/-- The words of an instruction are those of a slot: any word that carries the slot's fields decodes to the instruction, with the
slot's Y slot, which its opcode accepts. -/
structure Decodes (i : Instr) (h : Hdr) (k : BitVec 9) (y : Option (BitVec 28)) (b : Word) : Prop where
  form : encode i = slotWords h k y b
  low : fld b 19 13 = 0#13
  decodes : ∀ w, Carries w k h.guard b → decodeSlot w h.last y = .ok i
  accepts : y.isSome = true → ∀ w, Carries w k h.guard b → acceptsY w = true

/-- The class of a slot (Tables 09-4 to 09-9), whose constructors stand in the order of the tables. -/
def inClass (n : Nat) (i : Instr) : Bool :=
  match n with
  | 0 => Nat.ble i.ctorIdx 43
  | 1 => Nat.ble 44 i.ctorIdx && Nat.ble i.ctorIdx 86
  | 2 => Nat.ble 87 i.ctorIdx && Nat.ble i.ctorIdx 126
  | 3 => Nat.ble 127 i.ctorIdx && Nat.ble i.ctorIdx 153
  | 4 => Nat.ble 154 i.ctorIdx && Nat.ble i.ctorIdx 174
  | _ => Nat.ble 175 i.ctorIdx && Nat.ble i.ctorIdx 181

theorem decodes_classX {i : Instr} {h : Hdr} (hc : inClass 0 i = true) (hh : i.hdr = some h) (hw : i.wf = true) :
    ∃ k y b, Decodes i h k y b := by
  cases i
  case nop | add | sub | and | or | xor | andn | shl | shr | sar | rotl | mul | mulh | min | max | cmp | sel | clz |
      ctz | popc | brev | bfx | bfi | div | rem | shli | shri | sari | movhi | xtoa | atox | xtov | vtox | xtop | ptox
      =>
    cases hh
    refine ⟨_, none, _, ⟨by unfold encode; exact rfl, ?_, fun w c => ?_, nofun⟩⟩
    · simp only [fld_or, fld_at19_apart, fld_zero, BitVec.or_zero, Nat.reduceAdd, Nat.reduceLeDiff, or_true, le_refl]
    rw [decodeSlot, c.class_eq]
    show decodeX _ _ _ = _
    rw [decodeX, c.opcode_eq, c.hdr_eq]
    show fieldOk _ _ = _
    simp only [c.body, fld_or, fld_at19_same, fld_at19_apart, fld_zero, BitVec.zero_or, BitVec.or_zero, Nat.reduceAdd,
      Nat.reduceLeDiff, true_or, or_true, le_refl, flg, ofBool_beq_one, zeroAt_of_fld, Bool.and_self, fieldOk_some, hw]
  case addi | andi | ori | xori | cmpeqi | cmplti | cmpltui | muli | movi =>
    cases hh
    refine ⟨_, _, _, ⟨by unfold encode; exact rfl, ?_, fun w c => ?_, fun _ w c => ?_⟩⟩
    · simp only [fld_or, fld_at19_apart, BitVec.or_zero, Nat.reduceAdd, Nat.reduceLeDiff, or_true, le_refl]
    · rw [decodeSlot, c.class_eq]
      show decodeX _ _ _ = _
      rw [decodeX, c.opcode_eq, c.hdr_eq]
      show fieldOk _ _ = _
      simp only [c.body, fld_or, fld_at19_same, fld_at19_apart, BitVec.zero_or, BitVec.or_zero, Nat.reduceAdd,
        Nat.reduceLeDiff, true_or, or_true, le_refl, zeroAt_of_fld, fieldOk_some, hw, immW_low,
        Option.map_some]
    · rw [acceptsY, c.class_eq, c.opcode_eq]
      rfl
  all_goals cases hc

theorem decodes_classL {i : Instr} {h : Hdr} (hc : inClass 1 i = true) (hh : i.hdr = some h) (hw : i.wf = true) :
    ∃ k y b, Decodes i h k y b := by
  cases i
  case ldvg | stvg | spill | fill | bldw | bldd | bstw | bstd | adda =>
    cases hh
    refine ⟨_, none, _, ⟨by unfold encode; exact rfl, ?_, fun w c => ?_, nofun⟩⟩
    · simp only [fld_or, fld_at19_apart, BitVec.or_zero, Nat.reduceAdd, Nat.reduceLeDiff, or_true, le_refl]
    rw [decodeSlot, c.class_eq]
    show decodeL _ _ _ = _
    rw [decodeL, c.opcode_eq, c.hdr_eq]
    show fieldOk _ _ = _
    simp only [c.body, fld_or, fld_at19_same, fld_at19_apart, BitVec.zero_or, BitVec.or_zero, Nat.reduceAdd,
      Nat.reduceLeDiff, true_or, or_true, le_refl, zeroAt_of_fld, fieldOk_some, hw]
  case ldb | ldbu | ldh | ldhu | ldw | stb | sth | stw | ldv | stv | ldvb | ldt | stt | aadd | aand | aor | axor |
      amin | amax | aminu | amaxu | afadd | aswap | acas | barinit | bararr | barwait | barrd | feset | feclr | ferd |
      lea =>
    cases hh
    refine ⟨_, _, _, ⟨by unfold encode; exact rfl, ?_, fun w c => ?_, fun _ w c => ?_⟩⟩
    · simp only [fld_or, fld_at19_apart, BitVec.or_zero, Nat.reduceAdd, Nat.reduceLeDiff, or_true, le_refl]
    · rw [decodeSlot, c.class_eq]
      show decodeL _ _ _ = _
      rw [decodeL, c.opcode_eq, c.hdr_eq]
      show fieldOk _ _ = _
      simp only [c.body, fld_or, fld_at19_same, fld_at19_apart, BitVec.zero_or, BitVec.or_zero, Nat.reduceAdd,
        Nat.reduceLeDiff, true_or, or_true, le_refl, flg, ofBool_beq_one, zeroAt_of_fld, fieldOk_some, hw, immW_low, immA_low, tileRef_code, Option.bind_some,
        Option.map_some]
    · rw [acceptsY, c.class_eq, c.opcode_eq]
      rfl
  case bartxAdd s bs o =>
    cases hh
    refine ⟨0x05E#9, o.yW, at19 14 s ||| at19 10 bs ||| at19 5 o.low, ⟨rfl, ?_, fun w c => ?_, fun _ w c => ?_⟩⟩
    · simp only [fld_or, fld_at19_apart, BitVec.or_zero, Nat.reduceAdd, Nat.reduceLeDiff, or_true, le_refl]
    · have hlow : fld w 0 5 = 0#5 := by
        simp only [c.body, fld_or, fld_at19_apart, BitVec.or_zero, Nat.reduceAdd,
          Nat.reduceLeDiff, true_or, le_refl]
      have hflg : flg w 3 = false := by rw [flg_eq_getLsbD_fld (lo := 0) (k := 3) (n := 5) (by decide), hlow]; rfl
      rw [decodeSlot, c.class_eq]
      show decodeL _ _ _ = _
      rw [decodeL, c.opcode_eq, c.hdr_eq]
      show (if flg w 3 then _ else _) = _
      simp only [hflg, Bool.false_eq_true, if_false, zeroAt_of_fld, hlow, c.body, fld_or, fld_at19_same, fld_at19_apart, BitVec.zero_or, BitVec.or_zero, Nat.reduceAdd,
        Nat.reduceLeDiff, true_or, or_true, le_refl, immW_low, Option.map_some, fieldOk_some, hw]
    · rw [acceptsY, c.class_eq, c.opcode_eq]
      rfl
  case bartxDec s bs o =>
    cases hh
    refine ⟨0x05E#9, o.yW, at19 14 s ||| at19 10 bs ||| at19 5 o.low ||| at19 0 8#5, ⟨rfl, ?_, fun w c => ?_, fun _ w c => ?_⟩⟩
    · simp only [fld_or, fld_at19_apart, BitVec.or_zero, Nat.reduceAdd, Nat.reduceLeDiff, or_true, le_refl]
    · have hlow : fld w 0 5 = 8#5 := by
        simp only [c.body, fld_or, fld_at19_same, fld_at19_apart, BitVec.zero_or, BitVec.or_zero, Nat.reduceAdd,
          Nat.reduceLeDiff, true_or, le_refl]
      have hflg : flg w 3 = true := by rw [flg_eq_getLsbD_fld (lo := 0) (k := 3) (n := 5) (by decide), hlow]; rfl
      rw [decodeSlot, c.class_eq]
      show decodeL _ _ _ = _
      rw [decodeL, c.opcode_eq, c.hdr_eq]
      show (if flg w 3 then _ else _) = _
      simp only [hflg, if_true, hlow, beq_self_eq_true, c.body, fld_or, fld_at19_same, fld_at19_apart, BitVec.zero_or, BitVec.or_zero, Nat.reduceAdd,
        Nat.reduceLeDiff, true_or, or_true, le_refl, immW_low, Option.map_some, fieldOk_some, hw]
    · rw [acceptsY, c.class_eq, c.opcode_eq]
      rfl
  all_goals cases hc

theorem decodes_classV {i : Instr} {h : Hdr} (hc : inClass 2 i = true) (hh : i.hdr = some h) (hw : i.wf = true) :
    ∃ k y b, Decodes i h k y b := by
  cases i
  case vadd | vsub | vmul | vfma | vfms | vfnma | vdiv | vsqrt | vrsqrt | vrcp | vmin | vmax | vabs | vneg | vmaxa |
      vcmp | vsgn | vthr | vsel | vmov | vcvt | vred | vdot | viadd | visub | vimul | vand | vor | vxor | vshli |
      vshri | vsari | vshuf | vbcst | viota | vclamp | vrndb | vimin | vimax =>
    cases hh
    refine ⟨_, none, _, ⟨by unfold encode; exact rfl, ?_, fun w c => ?_, nofun⟩⟩
    · simp only [fld_or, fld_at19_apart, BitVec.or_zero, Nat.reduceAdd, Nat.reduceLeDiff, or_true, le_refl]
    rw [decodeSlot, c.class_eq]
    show decodeV _ _ _ = _
    rw [decodeV, c.opcode_eq, c.hdr_eq]
    show fieldOk _ _ = _
    simp only [c.body, fld_or, fld_at19_same, fld_at19_apart, BitVec.zero_or, BitVec.or_zero, Nat.reduceAdd,
      Nat.reduceLeDiff, true_or, or_true, le_refl, flg, ofBool_beq_one, zeroAt_of_fld, Bool.and_self, fieldOk_some, hw]
  case vcmpi =>
    cases hh
    refine ⟨_, _, _, ⟨by unfold encode; exact rfl, ?_, fun w c => ?_, fun _ w c => ?_⟩⟩
    · simp only [fld_or, fld_at19_apart, BitVec.or_zero, Nat.reduceAdd, Nat.reduceLeDiff, or_true, le_refl]
    · rw [decodeSlot, c.class_eq]
      show decodeV _ _ _ = _
      rw [decodeV, c.opcode_eq, c.hdr_eq]
      show fieldOk _ _ = _
      simp only [c.body, fld_or, fld_at19_same, fld_at19_apart, BitVec.zero_or, BitVec.or_zero, Nat.reduceAdd,
        Nat.reduceLeDiff, true_or, or_true, le_refl, fieldOk_some, hw, immW_low,
        Option.map_some]
    · rw [acceptsY, c.class_eq, c.opcode_eq]
      rfl
  all_goals cases hc

theorem decodes_classE {i : Instr} {h : Hdr} (hc : inClass 3 i = true) (hh : i.hdr = some h) (hw : i.wf = true) :
    ∃ k y b, Decodes i h k y b := by
  cases i
  case ringdef | ringrst | mxw | mxf | mxr | mxp | mxz | mxo | mxq | xpt | xpc | upadm | upsgd | upaxp | rnmask |
      rnuni | chsendv | chsendt | chsendm | chrecv | chred | charr | chwin | chseq | cbclose | portw =>
    cases hh
    refine ⟨_, none, _, ⟨by unfold encode; exact rfl, ?_, fun w c => ?_, nofun⟩⟩
    · simp only [fld_or, fld_at19_apart, fld_zero, BitVec.or_zero, Nat.reduceAdd, Nat.reduceLeDiff, or_true, le_refl]
    rw [decodeSlot, c.class_eq]
    show decodeE _ _ _ = _
    rw [decodeE, c.opcode_eq, c.hdr_eq]
    show fieldOk _ _ = _
    simp only [c.body, fld_or, fld_at19_same, fld_at19_apart, fld_zero, BitVec.zero_or, BitVec.or_zero, Nat.reduceAdd,
      Nat.reduceLeDiff, true_or, or_true, le_refl, flg, ofBool_beq_one, zeroAt_of_fld, Bool.and_self, fieldOk_some, hw, fld5_append, tileRef_code, tileRefOpt_code, Option.map_some, Option.bind_some]
  case cbopen =>
    cases hh
    refine ⟨_, _, _, ⟨by unfold encode; exact rfl, ?_, fun w c => ?_, fun _ w c => ?_⟩⟩
    · simp only [fld_or, fld_at19_apart, BitVec.or_zero, Nat.reduceAdd, Nat.reduceLeDiff, or_true, le_refl]
    · rw [decodeSlot, c.class_eq]
      show decodeE _ _ _ = _
      rw [decodeE, c.opcode_eq, c.hdr_eq]
      show fieldOk _ _ = _
      simp only [c.body, fld_or, fld_at19_same, fld_at19_apart, BitVec.zero_or, BitVec.or_zero, Nat.reduceAdd,
        Nat.reduceLeDiff, true_or, or_true, le_refl, zeroAt_of_fld, Bool.and_self, fieldOk_some, hw, immReq_low, fld5_append,
        Option.map_some]
    · rw [acceptsY, c.class_eq, c.opcode_eq]
      rfl
  all_goals cases hc

theorem decodes_classB {i : Instr} {h : Hdr} (hc : inClass 4 i = true) (hh : i.hdr = some h) (hw : i.wf = true) :
    ∃ k y b, Decodes i h k y b := by
  cases i
  case bnop | ret | jr | setfmt | setc | getc | pand | por | pxor | pandn | pmov | endTask | trap | rft | bkpt =>
    cases hh
    refine ⟨_, none, _, ⟨by unfold encode; exact rfl, ?_, fun w c => ?_, nofun⟩⟩
    · simp only [fld_or, fld_at19_apart, fld_zero, BitVec.or_zero, Nat.reduceAdd, Nat.reduceLeDiff, or_true, le_refl]
    rw [decodeSlot, c.class_eq]
    show decodeB _ _ _ = _
    rw [decodeB, c.opcode_eq, c.hdr_eq]
    show fieldOk _ _ = _
    simp only [c.body, fld_or, fld_at19_same, fld_at19_apart, fld_zero, BitVec.zero_or, BitVec.or_zero, Nat.reduceAdd,
      Nat.reduceLeDiff, true_or, or_true, le_refl, zeroAt_of_fld, Bool.and_self, fieldOk_some, hw]
  case br | call | loop | loopc =>
    cases hh
    refine ⟨_, _, _, ⟨by unfold encode; exact rfl, ?_, fun w c => ?_, fun _ w c => ?_⟩⟩
    · simp only [fld_or, fld_at19_apart, BitVec.or_zero, Nat.reduceAdd, Nat.reduceLeDiff, or_true, le_refl]
    · rw [decodeSlot, c.class_eq]
      show decodeB _ _ _ = _
      rw [decodeB, c.opcode_eq, c.hdr_eq]
      show fieldOk _ _ = _
      simp only [c.body, fld_or, fld_at19_same, fld_at19_apart, BitVec.zero_or, BitVec.or_zero, Nat.reduceAdd,
        Nat.reduceLeDiff, true_or, or_true, le_refl, flg, ofBool_beq_one, zeroAt_of_fld, fieldOk_some, hw, immW_low,
        Option.map_some]
    · rw [acceptsY, c.class_eq, c.opcode_eq]
      rfl
  case loopset =>
    cases hh
    refine ⟨_, none, _, ⟨by unfold encode; exact rfl, ?_, fun w c => ?_, nofun⟩⟩
    · simp only [fld_or, fld_at19_apart, BitVec.or_zero, Nat.reduceAdd, Nat.reduceLeDiff, or_true, le_refl]
    rw [decodeSlot, c.class_eq]
    show decodeB _ _ _ = _
    rw [decodeB, c.opcode_eq, c.hdr_eq]
    show (if flg w 0 then _ else _) = _
    simp only [flg, c.body, fld_or, fld_at19_same, fld_at19_apart, BitVec.zero_or, BitVec.or_zero, Nat.reduceAdd,
      Nat.reduceLeDiff, true_or, or_true, le_refl, BitVec.reduceBEq, Bool.false_eq_true, if_false, ofBool_beq_one, zeroAt_of_fld, Bool.and_self,
      fieldOk_some, hw]
  case loopsetPop =>
    cases hh
    refine ⟨_, none, at19 0 1#19, ⟨rfl, ?_, fun w c => ?_, nofun⟩⟩
    · simp only [fld_at19_apart, Nat.reduceAdd, Nat.reduceLeDiff, or_true]
    have hlow : fld w 0 19 = 1#19 := by rw [c.body 0 19 (by decide), fld_at19_same 0 _ (by decide)]
    have hflg : flg w 0 = true := by rw [flg_eq_getLsbD_fld (lo := 0) (k := 0) (n := 19) (by decide), hlow]; rfl
    rw [decodeSlot, c.class_eq]
    show decodeB _ _ _ = _
    rw [decodeB, c.opcode_eq, c.hdr_eq]
    show (if flg w 0 then _ else _) = _
    rw [hflg, hlow, if_pos rfl, beq_self_eq_true, fieldOk_some hw]
  all_goals cases hc

theorem decodes_classK {i : Instr} {h : Hdr} (hc : inClass 5 i = true) (hh : i.hdr = some h) (hw : i.wf = true) :
    ∃ k y b, Decodes i h k y b := by
  cases i
  case wait | fence | acq | rel | waitfe | cewait | waitall =>
    cases hh
    refine ⟨_, none, _, ⟨by unfold encode; exact rfl, ?_, fun w c => ?_, nofun⟩⟩
    · simp only [fld_or, fld_at19_apart, BitVec.or_zero, Nat.reduceAdd, Nat.reduceLeDiff, or_true, le_refl]
    rw [decodeSlot, c.class_eq]
    show decodeK _ _ _ = _
    rw [decodeK, c.opcode_eq, c.hdr_eq]
    show fieldOk _ _ = _
    simp only [c.body, fld_or, fld_at19_same, fld_at19_apart, BitVec.zero_or, BitVec.or_zero, Nat.reduceAdd,
      Nat.reduceLeDiff, true_or, or_true, le_refl, flg, ofBool_beq_one, zeroAt_of_fld, Bool.and_self, fieldOk_some, hw]
  all_goals cases hc

end Sys2Proof.Machine
end

section
/-! SUPPORT. What a slot word decodes to is an instruction that encodes as that word (R190 to R198), class by class; and the
statement that decoding and encoding agree. -/

namespace Sys2Proof.Machine

/-- An instruction that a slot word and its Y slot stand for: well formed, under their header, and encoded as those words. -/
structure Reads (w : Word) (h : Hdr) (y : Option (BitVec 28)) (i : Instr) : Prop where
  wf : i.wf = true
  hdr : i.hdr = some h
  form : encode i = slotWords h (fld w 22 9) y (w &&& 0x7FFFF#32)

theorem none_of_acceptsY {w : Word} {y : Option (BitVec 28)} (hy : y.isSome = true → acceptsY w = true)
    (ha : acceptsY w = false) : y = none := by
  cases y with
  | none => rfl
  | some v => exact absurd (ha.symm.trans (hy rfl)) Bool.false_ne_true

theorem fld_key {w : Word} {c o : Nat} (hc : slotClass w = c) (ho : (fld w 22 6).toNat = o) :
    fld w 22 9 = BitVec.ofNat 9 (64 * c + o) := by
  have hclass := slotClass_eq w
  have hop := opcode_eq w
  have hlt := (fld w 22 9).isLt
  refine BitVec.eq_of_toNat_eq ?_
  rw [BitVec.toNat_ofNat]
  omega

theorem reads_classX {w : Word} {h : Hdr} {y : Option (BitVec 28)} {i : Instr} (hc : slotClass w = 0)
    (hy : y.isSome = true → acceptsY w = true) (hd : decodeX w h y = .ok i) : Reads w h y i := by
  unfold decodeX at hd
  split at hd
  case h_1 ho =>
    obtain ⟨hi, hz, hwf⟩ := fieldOk_eq_ok hd
    cases hi
    have hn : y = none := none_of_acceptsY hy (by rw [acceptsY, hc, ho]; rfl)
    refine ⟨hwf, rfl, ?_⟩
    unfold encode
    rw [fld_key hc ho, hn, ← cover_none hz]
  case h_2 ho | h_3 ho | h_4 ho | h_5 ho | h_6 ho | h_7 ho | h_8 ho | h_9 ho | h_10 ho | h_11 ho | h_12 ho | h_13 ho |
      h_14 ho | h_15 ho | h_16 ho | h_17 ho | h_18 ho | h_19 ho | h_20 ho | h_21 ho | h_22 ho | h_23 ho | h_30 ho |
      h_31 ho | h_32 ho | h_41 ho | h_42 ho =>
    obtain ⟨hi, hz, hwf⟩ := fieldOk_eq_ok hd
    cases hi
    have hn : y = none := none_of_acceptsY hy (by rw [acceptsY, hc, ho]; rfl)
    refine ⟨hwf, rfl, ?_⟩
    unfold encode
    rw [fld_key hc ho, hn]
    simp only [ofBool_flg, at19_fld, ← BitVec.and_or_distrib_left]
    exact congrArg _ (cover_one hz (by decide))
  case h_24 ho | h_25 ho | h_38 ho =>
    obtain ⟨hi, -, hwf⟩ := fieldOk_eq_ok hd
    cases hi
    have hn : y = none := none_of_acceptsY hy (by rw [acceptsY, hc, ho]; rfl)
    refine ⟨hwf, rfl, ?_⟩
    unfold encode
    rw [fld_key hc ho, hn]
    simp only [ofBool_flg, at19_fld, ← BitVec.and_or_distrib_left]
    exact congrArg _ (cover_all (by decide))
  case h_26 ho | h_27 ho | h_28 ho | h_29 ho | h_36 ho | h_37 ho =>
    obtain ⟨hi, -, hwf⟩ := fieldOk_eq_ok hd
    obtain ⟨m, hm, rfl⟩ := Option.map_eq_some_iff.mp hi
    obtain ⟨hlow, hyw⟩ := immW_eq_some (by decide) hm
    refine ⟨hwf, rfl, ?_⟩
    unfold encode
    rw [fld_key hc ho]
    simp only [hlow, hyw, at19_fld, ← BitVec.and_or_distrib_left]
    exact congrArg _ (cover_all (by decide))
  case h_33 ho | h_34 ho | h_35 ho =>
    obtain ⟨hi, hz, hwf⟩ := fieldOk_eq_ok hd
    obtain ⟨m, hm, rfl⟩ := Option.map_eq_some_iff.mp hi
    obtain ⟨hlow, hyw⟩ := immW_eq_some (by decide) hm
    refine ⟨hwf, rfl, ?_⟩
    unfold encode
    rw [fld_key hc ho]
    simp only [hlow, hyw, at19_fld, ← BitVec.and_or_distrib_left]
    exact congrArg _ (cover_one hz (by decide))
  case h_39 ho | h_40 ho | h_43 ho | h_44 ho =>
    obtain ⟨hi, hz, hwf⟩ := fieldOk_eq_ok hd
    cases hi
    have hn : y = none := none_of_acceptsY hy (by rw [acceptsY, hc, ho]; rfl)
    refine ⟨hwf, rfl, ?_⟩
    unfold encode
    rw [fld_key hc ho, hn]
    simp only [at19_fld, ← BitVec.and_or_distrib_left]
    exact congrArg _ (cover_two hz (by decide))
  all_goals cases hd

theorem reads_classL {w : Word} {h : Hdr} {y : Option (BitVec 28)} {i : Instr} (hc : slotClass w = 1)
    (hy : y.isSome = true → acceptsY w = true) (hd : decodeL w h y = .ok i) : Reads w h y i := by
  unfold decodeL at hd
  split at hd
  case h_1 ho | h_2 ho | h_3 ho | h_4 ho | h_5 ho | h_9 ho | h_11 ho | h_33 ho | h_41 ho =>
    obtain ⟨hi, -, hwf⟩ := fieldOk_eq_ok hd
    obtain ⟨m, hm, rfl⟩ := Option.map_eq_some_iff.mp hi
    obtain ⟨hlow, hyw⟩ := immW_eq_some (by decide) hm
    refine ⟨hwf, rfl, ?_⟩
    unfold encode
    rw [fld_key hc ho]
    simp only [hlow, hyw, at19_fld, ← BitVec.and_or_distrib_left]
    exact congrArg _ (cover_all (by decide))
  case h_6 ho | h_7 ho | h_8 ho | h_10 ho | h_29 ho | h_30 ho | h_32 ho | h_34 ho | h_35 ho | h_36 ho =>
    obtain ⟨hi, hz, hwf⟩ := fieldOk_eq_ok hd
    obtain ⟨m, hm, rfl⟩ := Option.map_eq_some_iff.mp hi
    obtain ⟨hlow, hyw⟩ := immW_eq_some (by decide) hm
    refine ⟨hwf, rfl, ?_⟩
    unfold encode
    rw [fld_key hc ho]
    simp only [hlow, hyw, at19_fld, ← BitVec.and_or_distrib_left]
    exact congrArg _ (cover_one hz (by decide))
  case h_12 ho =>
    obtain ⟨hi, -, hwf⟩ := fieldOk_eq_ok hd
    cases hi
    have hn : y = none := none_of_acceptsY hy (by rw [acceptsY, hc, ho]; rfl)
    refine ⟨hwf, rfl, ?_⟩
    unfold encode
    rw [fld_key hc ho, hn]
    simp only [at19_fld, ← BitVec.and_or_distrib_left]
    exact congrArg _ (cover_all (by decide))
  case h_13 ho | h_16 ho | h_17 ho | h_37 ho | h_38 ho | h_39 ho | h_40 ho | h_42 ho =>
    obtain ⟨hi, hz, hwf⟩ := fieldOk_eq_ok hd
    cases hi
    have hn : y = none := none_of_acceptsY hy (by rw [acceptsY, hc, ho]; rfl)
    refine ⟨hwf, rfl, ?_⟩
    unfold encode
    rw [fld_key hc ho, hn]
    simp only [at19_fld, ← BitVec.and_or_distrib_left]
    exact congrArg _ (cover_one hz (by decide))
  case h_14 ho =>
    obtain ⟨hi, -, hwf⟩ := fieldOk_eq_ok hd
    obtain ⟨r, hr, hi⟩ := Option.bind_eq_some_iff.mp hi
    obtain ⟨m, hm, hi⟩ := Option.bind_eq_some_iff.mp hi
    cases hi
    obtain ⟨hcode, hring⟩ := tileRef_eq_some hr
    obtain ⟨hlow, hyw⟩ := immW_eq_some (by decide) hm
    refine ⟨hwf, rfl, ?_⟩
    unfold encode
    rw [fld_key hc ho]
    simp only [hlow, hyw, hcode, hring, ofBool_flg, at19_fld, ← BitVec.and_or_distrib_left]
    exact congrArg _ (cover_all (by decide))
  case h_15 ho =>
    obtain ⟨hi, hz, hwf⟩ := fieldOk_eq_ok hd
    obtain ⟨r, hr, hi⟩ := Option.bind_eq_some_iff.mp hi
    obtain ⟨m, hm, hi⟩ := Option.bind_eq_some_iff.mp hi
    cases hi
    obtain ⟨hcode, hring⟩ := tileRef_eq_some hr
    obtain ⟨hlow, hyw⟩ := immW_eq_some (by decide) hm
    refine ⟨hwf, rfl, ?_⟩
    unfold encode
    rw [fld_key hc ho]
    simp only [hlow, hyw, hcode, hring, ofBool_flg, at19_fld, ← BitVec.and_or_distrib_left]
    exact congrArg _ (cover_one hz (by decide))
  case h_18 ho | h_19 ho | h_20 ho | h_21 ho | h_22 ho | h_23 ho | h_24 ho | h_25 ho | h_26 ho | h_27 ho | h_28 ho =>
    obtain ⟨hi, -, hwf⟩ := fieldOk_eq_ok hd
    obtain ⟨m, hm, rfl⟩ := Option.map_eq_some_iff.mp hi
    obtain ⟨hlow, hyw⟩ := immA_eq_some hm
    refine ⟨hwf, rfl, ?_⟩
    unfold encode
    rw [fld_key hc ho]
    simp only [hlow, hyw, at19_fld, ← BitVec.and_or_distrib_left]
    exact congrArg _ (cover_all (by decide))
  case h_31 ho =>
    split at hd
    · obtain ⟨hi, hz, hwf⟩ := fieldOk_eq_ok hd
      obtain ⟨m, hm, rfl⟩ := Option.map_eq_some_iff.mp hi
      obtain ⟨hlow, hyw⟩ := immW_eq_some (by decide) hm
      have hbody : (8#32 : Word) = at19 0 (fld w 0 5) := by rw [eq_of_beq hz]; rfl
      refine ⟨hwf, rfl, ?_⟩
      unfold encode
      rw [fld_key hc ho, hbody]
      simp only [hlow, hyw, at19_fld, ← BitVec.and_or_distrib_left]
      exact congrArg _ (cover_all (by decide))
    · obtain ⟨hi, hz, hwf⟩ := fieldOk_eq_ok hd
      obtain ⟨m, hm, rfl⟩ := Option.map_eq_some_iff.mp hi
      obtain ⟨hlow, hyw⟩ := immW_eq_some (by decide) hm
      refine ⟨hwf, rfl, ?_⟩
      unfold encode
      rw [fld_key hc ho]
      simp only [hlow, hyw, at19_fld, ← BitVec.and_or_distrib_left]
      exact congrArg _ (cover_one hz (by decide))
  all_goals cases hd

theorem reads_classV {w : Word} {h : Hdr} {y : Option (BitVec 28)} {i : Instr} (hc : slotClass w = 2)
    (hy : y.isSome = true → acceptsY w = true) (hd : decodeV w h y = .ok i) : Reads w h y i := by
  unfold decodeV at hd
  split at hd
  case h_1 ho | h_2 ho | h_3 ho | h_4 ho | h_5 ho | h_6 ho | h_7 ho | h_11 ho | h_12 ho | h_15 ho | h_21 ho | h_23 ho
      | h_38 ho | h_39 ho =>
    obtain ⟨hi, -, hwf⟩ := fieldOk_eq_ok hd
    cases hi
    have hn : y = none := none_of_acceptsY hy (by rw [acceptsY, hc, ho]; rfl)
    refine ⟨hwf, rfl, ?_⟩
    unfold encode
    rw [fld_key hc ho, hn]
    simp only [ofBool_flg, at19_fld, ← BitVec.and_or_distrib_left]
    exact congrArg _ (cover_all (by decide))
  case h_8 ho | h_9 ho | h_10 ho | h_13 ho | h_14 ho | h_16 ho | h_18 ho | h_19 ho | h_22 ho | h_24 ho | h_25 ho |
      h_26 ho | h_27 ho | h_28 ho | h_29 ho | h_30 ho | h_31 ho | h_32 ho | h_33 ho | h_36 ho =>
    obtain ⟨hi, hz, hwf⟩ := fieldOk_eq_ok hd
    cases hi
    have hn : y = none := none_of_acceptsY hy (by rw [acceptsY, hc, ho]; rfl)
    refine ⟨hwf, rfl, ?_⟩
    unfold encode
    rw [fld_key hc ho, hn]
    simp only [ofBool_flg, at19_fld, ← BitVec.and_or_distrib_left]
    exact congrArg _ (cover_one hz (by decide))
  case h_17 ho | h_20 ho | h_34 ho | h_35 ho | h_37 ho =>
    obtain ⟨hi, hz, hwf⟩ := fieldOk_eq_ok hd
    cases hi
    have hn : y = none := none_of_acceptsY hy (by rw [acceptsY, hc, ho]; rfl)
    refine ⟨hwf, rfl, ?_⟩
    unfold encode
    rw [fld_key hc ho, hn]
    simp only [ofBool_flg, at19_fld, ← BitVec.and_or_distrib_left]
    exact congrArg _ (cover_two hz (by decide))
  case h_40 ho =>
    obtain ⟨hi, -, hwf⟩ := fieldOk_eq_ok hd
    obtain ⟨m, hm, rfl⟩ := Option.map_eq_some_iff.mp hi
    obtain ⟨hlow, hyw⟩ := immW_eq_some (by decide) hm
    refine ⟨hwf, rfl, ?_⟩
    unfold encode
    rw [fld_key hc ho]
    simp only [hlow, hyw, at19_fld, ← BitVec.and_or_distrib_left]
    exact congrArg _ (cover_all (by decide))
  all_goals cases hd

theorem reads_classE {w : Word} {h : Hdr} {y : Option (BitVec 28)} {i : Instr} (hc : slotClass w = 3)
    (hy : y.isSome = true → acceptsY w = true) (hd : decodeE w h y = .ok i) : Reads w h y i := by
  unfold decodeE at hd
  split at hd
  case h_1 ho | h_2 ho | h_6 ho | h_20 ho | h_21 ho | h_23 ho | h_24 ho | h_27 ho =>
    obtain ⟨hi, hz, hwf⟩ := fieldOk_eq_ok hd
    cases hi
    have hn : y = none := none_of_acceptsY hy (by rw [acceptsY, hc, ho]; rfl)
    refine ⟨hwf, rfl, ?_⟩
    unfold encode
    rw [fld_key hc ho, hn]
    simp only [ofBool_flg, fld5lo_append, fld5hi_append, at19_fld, ← BitVec.and_or_distrib_left]
    exact congrArg _ (cover_two hz (by decide))
  case h_3 ho | h_4 ho | h_5 ho | h_18 ho =>
    obtain ⟨hi, hz, hwf⟩ := fieldOk_eq_ok hd
    obtain ⟨r, hr, rfl⟩ := Option.map_eq_some_iff.mp hi
    obtain ⟨hcode, hring⟩ := tileRef_eq_some hr
    have hn : y = none := none_of_acceptsY hy (by rw [acceptsY, hc, ho]; rfl)
    refine ⟨hwf, rfl, ?_⟩
    unfold encode
    rw [fld_key hc ho, hn]
    simp only [hcode, hring, ofBool_flg, at19_fld, ← BitVec.and_or_distrib_left]
    exact congrArg _ (cover_two hz (by decide))
  case h_7 ho =>
    obtain ⟨hi, hz, hwf⟩ := fieldOk_eq_ok hd
    obtain ⟨r, hr, rfl⟩ := Option.map_eq_some_iff.mp hi
    obtain ⟨hcode, hsome, hring⟩ := tileRefOpt_eq_some hr
    have hn : y = none := none_of_acceptsY hy (by rw [acceptsY, hc, ho]; rfl)
    refine ⟨hwf, rfl, ?_⟩
    unfold encode
    rw [fld_key hc ho, hn]
    simp only [hcode, hring, hsome, ofBool_flg, at19_fld, ← BitVec.and_or_distrib_left]
    exact congrArg _ (cover_two hz (by decide))
  case h_8 ho | h_9 ho =>
    obtain ⟨hi, hz, hwf⟩ := fieldOk_eq_ok hd
    obtain ⟨r, hr, rfl⟩ := Option.map_eq_some_iff.mp hi
    obtain ⟨hcode, hring⟩ := tileRef_eq_some hr
    have hn : y = none := none_of_acceptsY hy (by rw [acceptsY, hc, ho]; rfl)
    refine ⟨hwf, rfl, ?_⟩
    unfold encode
    rw [fld_key hc ho, hn]
    simp only [hcode, hring, ofBool_flg, at19_fld, ← BitVec.and_or_distrib_left]
    exact congrArg _ (cover_three hz (by decide))
  case h_10 ho | h_11 ho =>
    obtain ⟨hi, hz, hwf⟩ := fieldOk_eq_ok hd
    obtain ⟨r, hr, hi⟩ := Option.bind_eq_some_iff.mp hi
    obtain ⟨q, hq, hi⟩ := Option.bind_eq_some_iff.mp hi
    cases hi
    obtain ⟨hcode, hring⟩ := tileRef_eq_some hr
    obtain ⟨hcode', hring'⟩ := tileRef_eq_some hq
    have hn : y = none := none_of_acceptsY hy (by rw [acceptsY, hc, ho]; rfl)
    refine ⟨hwf, rfl, ?_⟩
    unfold encode
    rw [fld_key hc ho, hn]
    simp only [hcode, hring, hcode', hring', ofBool_flg, at19_fld, ← BitVec.and_or_distrib_left]
    exact congrArg _ (cover_two hz (by decide))
  case h_12 ho | h_19 ho =>
    obtain ⟨hi, -, hwf⟩ := fieldOk_eq_ok hd
    cases hi
    have hn : y = none := none_of_acceptsY hy (by rw [acceptsY, hc, ho]; rfl)
    refine ⟨hwf, rfl, ?_⟩
    unfold encode
    rw [fld_key hc ho, hn]
    simp only [at19_fld, ← BitVec.and_or_distrib_left]
    exact congrArg _ (cover_all (by decide))
  case h_13 ho | h_14 ho | h_17 ho | h_22 ho =>
    obtain ⟨hi, hz, hwf⟩ := fieldOk_eq_ok hd
    cases hi
    have hn : y = none := none_of_acceptsY hy (by rw [acceptsY, hc, ho]; rfl)
    refine ⟨hwf, rfl, ?_⟩
    unfold encode
    rw [fld_key hc ho, hn]
    simp only [at19_fld, ← BitVec.and_or_distrib_left]
    exact congrArg _ (cover_one hz (by decide))
  case h_15 ho | h_16 ho =>
    obtain ⟨hi, hz, hwf⟩ := fieldOk_eq_ok hd
    obtain ⟨r, hr, rfl⟩ := Option.map_eq_some_iff.mp hi
    obtain ⟨hcode, hring⟩ := tileRef_eq_some hr
    have hn : y = none := none_of_acceptsY hy (by rw [acceptsY, hc, ho]; rfl)
    refine ⟨hwf, rfl, ?_⟩
    unfold encode
    rw [fld_key hc ho, hn]
    simp only [hcode, hring, ofBool_flg, fld5lo_append, fld5hi_append, at19_fld, ← BitVec.and_or_distrib_left]
    exact congrArg _ (cover_one hz (by decide))
  case h_25 ho =>
    obtain ⟨hi, hz, hwf⟩ := fieldOk_eq_ok hd
    obtain ⟨m, hm, rfl⟩ := Option.map_eq_some_iff.mp hi
    obtain ⟨hlow, hyw⟩ := immReq_eq_some hm
    refine ⟨hwf, rfl, ?_⟩
    unfold encode
    rw [fld_key hc ho]
    simp only [hlow, hyw, fld5lo_append, fld5hi_append, at19_fld, ← BitVec.and_or_distrib_left]
    exact congrArg _ (cover_three hz (by decide))
  case h_26 ho =>
    obtain ⟨hi, hz, hwf⟩ := fieldOk_eq_ok hd
    cases hi
    have hn : y = none := none_of_acceptsY hy (by rw [acceptsY, hc, ho]; rfl)
    refine ⟨hwf, rfl, ?_⟩
    unfold encode
    rw [fld_key hc ho, hn, ← cover_none hz]
  all_goals cases hd

theorem reads_classB {w : Word} {h : Hdr} {y : Option (BitVec 28)} {i : Instr} (hc : slotClass w = 4)
    (hy : y.isSome = true → acceptsY w = true) (hd : decodeB w h y = .ok i) : Reads w h y i := by
  unfold decodeB at hd
  split at hd
  case h_1 ho | h_4 ho | h_17 ho | h_19 ho =>
    obtain ⟨hi, hz, hwf⟩ := fieldOk_eq_ok hd
    cases hi
    have hn : y = none := none_of_acceptsY hy (by rw [acceptsY, hc, ho]; rfl)
    refine ⟨hwf, rfl, ?_⟩
    unfold encode
    rw [fld_key hc ho, hn, ← cover_none hz]
  case h_2 ho | h_3 ho | h_7 ho | h_8 ho =>
    obtain ⟨hi, hz, hwf⟩ := fieldOk_eq_ok hd
    obtain ⟨m, hm, rfl⟩ := Option.map_eq_some_iff.mp hi
    obtain ⟨hlow, hyw⟩ := immW_eq_some (by decide) hm
    refine ⟨hwf, rfl, ?_⟩
    unfold encode
    rw [fld_key hc ho]
    simp only [hlow, hyw, ofBool_flg, at19_fld, ← BitVec.and_or_distrib_left]
    exact congrArg _ (cover_one hz (by decide))
  case h_5 ho | h_18 ho | h_20 ho =>
    obtain ⟨hi, hz, hwf⟩ := fieldOk_eq_ok hd
    cases hi
    have hn : y = none := none_of_acceptsY hy (by rw [acceptsY, hc, ho]; rfl)
    refine ⟨hwf, rfl, ?_⟩
    unfold encode
    rw [fld_key hc ho, hn]
    simp only [at19_fld]
    exact congrArg _ (cover_two hz (by decide))
  case h_6 ho =>
    have hn : y = none := none_of_acceptsY hy (by rw [acceptsY, hc, ho]; rfl)
    split at hd
    · obtain ⟨hi, hz, hwf⟩ := fieldOk_eq_ok hd
      cases hi
      have hbody : w &&& 0x7FFFF#32 = 1#32 := (at19_fld w 0 19).symm.trans (by rw [eq_of_beq hz]; rfl)
      refine ⟨hwf, rfl, ?_⟩
      unfold encode
      rw [fld_key hc ho, hn, hbody]
    · obtain ⟨hi, hz, hwf⟩ := fieldOk_eq_ok hd
      cases hi
      refine ⟨hwf, rfl, ?_⟩
      unfold encode
      rw [fld_key hc ho, hn]
      simp only [ofBool_flg, at19_fld, ← BitVec.and_or_distrib_left]
      exact congrArg _ (cover_two hz (by decide))
  case h_9 ho | h_10 ho | h_11 ho | h_12 ho | h_13 ho | h_14 ho | h_15 ho | h_16 ho =>
    obtain ⟨hi, hz, hwf⟩ := fieldOk_eq_ok hd
    cases hi
    have hn : y = none := none_of_acceptsY hy (by rw [acceptsY, hc, ho]; rfl)
    refine ⟨hwf, rfl, ?_⟩
    unfold encode
    rw [fld_key hc ho, hn]
    simp only [at19_fld, ← BitVec.and_or_distrib_left]
    exact congrArg _ (cover_one hz (by decide))
  all_goals cases hd

theorem reads_classK {w : Word} {h : Hdr} {y : Option (BitVec 28)} {i : Instr} (hc : slotClass w = 5)
    (hy : y.isSome = true → acceptsY w = true) (hd : decodeK w h y = .ok i) : Reads w h y i := by
  unfold decodeK at hd
  split at hd
  case h_1 ho | h_4 ho | h_5 ho =>
    obtain ⟨hi, hz, hwf⟩ := fieldOk_eq_ok hd
    cases hi
    have hn : y = none := none_of_acceptsY hy (by rw [acceptsY, hc, ho]; rfl)
    refine ⟨hwf, rfl, ?_⟩
    unfold encode
    rw [fld_key hc ho, hn]
    simp only [at19_fld, ← BitVec.and_or_distrib_left]
    exact congrArg _ (cover_one hz (by decide))
  case h_2 ho | h_3 ho | h_6 ho | h_7 ho =>
    obtain ⟨hi, hz, hwf⟩ := fieldOk_eq_ok hd
    cases hi
    have hn : y = none := none_of_acceptsY hy (by rw [acceptsY, hc, ho]; rfl)
    refine ⟨hwf, rfl, ?_⟩
    unfold encode
    rw [fld_key hc ho, hn]
    simp only [ofBool_flg, at19_fld, ← BitVec.and_or_distrib_left]
    exact congrArg _ (cover_two hz (by decide))
  all_goals cases hd


/-- A slot word decodes, with a Y slot that its opcode accepts, only to what it stands for. -/
theorem reads_of_decodeSlot {w : Word} {last : Bool} {y : Option (BitVec 28)} {i : Instr}
    (hy : y.isSome = true → acceptsY w = true) (hd : decodeSlot w last y = .ok i) : Reads w (slotHdr w last) y i := by
  unfold decodeSlot at hd
  split at hd
  case h_1 hc => exact reads_classX hc hy hd
  case h_2 hc => exact reads_classL hc hy hd
  case h_3 hc => exact reads_classV hc hy hd
  case h_4 hc => exact reads_classE hc hy hd
  case h_5 hc => exact reads_classB hc hy hd
  case h_6 hc => exact reads_classK hc hy hd
  all_goals cases hd

/-- A well-formed slot has words, which decode to it. -/
theorem exists_decodes {i : Instr} {h : Hdr} (hh : i.hdr = some h) (hw : i.wf = true) : ∃ k y b, Decodes i h k y b := by
  have hclass : inClass 0 i = true ∨ inClass 1 i = true ∨ inClass 2 i = true ∨ inClass 3 i = true ∨ inClass 4 i = true ∨
      inClass 5 i = true := by
    have hslot : i.ctorIdx ≤ 181 := by cases i <;> cases hh <;> exact Nat.le_of_ble_eq_true rfl
    simp only [inClass, Bool.and_eq_true, Nat.ble_eq]
    omega
  rcases hclass with hc | hc | hc | hc | hc | hc
  · exact decodes_classX hc hh hw
  · exact decodes_classL hc hh hw
  · exact decodes_classV hc hh hw
  · exact decodes_classE hc hh hw
  · exact decodes_classB hc hh hw
  · exact decodes_classK hc hh hw

/-! A slot word and a Y slot word as their parts (R190). -/

theorem slotWord_fields (w : Word) : slotWord (slotLast w) (fld w 22 9) (fld w 19 3) (w &&& 0x7FFFF#32) = w := by
  simp only [slotWord, slotLast, ofBool_flg, at19_fld, ← BitVec.and_or_distrib_left]
  exact BitVec.and_allOnes

theorem yWord_fields {w : Word} (hy : isY w = true) : yWord (slotLast w) (yImm w) = w := by
  have hseven : 7#3 = fld w 28 3 := BitVec.eq_of_toNat_eq (eq_of_beq hy).symm
  simp only [yWord, slotLast, yImm, hseven, ofBool_flg, at19_fld, ← BitVec.and_or_distrib_left]
  exact BitVec.and_allOnes

theorem slotLast_yWord (e : Bool) (v : BitVec 28) : slotLast (yWord e v) = e := by
  simp [slotLast, flg, yWord, ofBool_beq_one]

theorem isY_yWord (e : Bool) (v : BitVec 28) : isY (yWord e v) = true := by
  simp [isY, slotClass, yWord]

theorem yImm_yWord (e : Bool) (v : BitVec 28) : yImm (yWord e v) = v := by
  simp [yImm, yWord]

theorem carries_slotWord {e : Bool} {k : BitVec 9} {g : BitVec 3} {b : Word} (hb : fld b 19 13 = 0#13) :
    Carries (slotWord e k g b) k g b :=
  ⟨fld_key_slotWord hb, congrArg Hdr.guard (slotHdr_slotWord hb true), fun _ _ h => fld_slotWord h⟩

/-! The slot at the head of a list of words. -/

/-- A word that ends its bundle, or before a word that is no Y slot, stands alone. -/
theorem decodeHead_alone {w : Word} {r : List Word} (h : slotLast w = true ∨ ∀ x ∈ r.head?, isY x = false) :
    decodeHead (w :: r) = (decodeSlot w (slotLast w) none).map fun i => (i, r) := by
  cases r with
  | nil => rfl
  | cons x r =>
    have hno : (!slotLast w && isY x && acceptsY w) = false := by
      rcases h with h | h
      · rw [h]; rfl
      · rw [h x rfl, Bool.and_false]; rfl
    rw [decodeHead, hno]
    rfl

/-- A word whose opcode accepts the Y slot behind it is read with it. -/
theorem decodeHead_withY {w x : Word} {r : List Word} (hw : slotLast w = false) (hx : isY x = true) (ha : acceptsY w = true) :
    decodeHead (w :: x :: r) = (decodeSlot w (slotLast x) (some (yImm x))).map fun i => (i, r) := by
  rw [decodeHead, hw, hx, ha]
  rfl

/-- Decoding what was encoded. -/
theorem decodeHead_encode {i : Instr} {h : Hdr} {r : List Word} (hh : i.hdr = some h) (hw : i.wf = true)
    (hr : h.last = true ∨ ∀ x ∈ r.head?, isY x = false) : decodeHead (encode i ++ r) = .ok (i, r) := by
  obtain ⟨k, y, b, hform, hlow, hdec, hacc⟩ := exists_decodes hh hw
  rw [hform]
  cases y with
  | none =>
    have hl : slotLast (slotWord h.last k h.guard b) = h.last := slotLast_slotWord hlow
    show decodeHead (slotWord h.last k h.guard b :: r) = _
    rw [decodeHead_alone (by rwa [hl]), hl, hdec _ (carries_slotWord hlow)]
    rfl
  | some v =>
    have hl : slotLast (slotWord false k h.guard b) = false := slotLast_slotWord hlow
    show decodeHead (slotWord false k h.guard b :: yWord h.last v :: r) = _
    rw [decodeHead_withY hl (isY_yWord _ _) (hacc rfl _ (carries_slotWord hlow)), slotLast_yWord, yImm_yWord,
      hdec _ (carries_slotWord hlow)]
    rfl

/-- Encoding what was decoded, where the words' slot was read. -/
theorem encode_of_slot {w : Word} {last : Bool} {y : Option (BitVec 28)} {j : Instr} {l q r : List Word}
    (hy : y.isSome = true → acceptsY w = true) (hd : (decodeSlot w last y).map (fun i => (i, q)) = .ok (j, r))
    (hq : slotWords (slotHdr w last) (fld w 22 9) y (w &&& 0x7FFFF#32) ++ q = l) :
    l = encode j ++ r ∧ j.wf = true ∧ ∃ h, j.hdr = some h := by
  cases hs : decodeSlot w last y with
  | error c => rw [hs] at hd; cases hd
  | ok x =>
    rw [hs] at hd
    cases hd
    obtain ⟨hwf, hhdr, hform⟩ := reads_of_decodeSlot hy hs
    exact ⟨by rw [hform, hq], hwf, _, hhdr⟩

theorem encode_of_decodeHead {l r : List Word} {i : Instr} (hd : decodeHead l = .ok (i, r)) :
    l = encode i ++ r ∧ i.wf = true ∧ ∃ h, i.hdr = some h := by
  have alone : ∀ (w : Word) (q : List Word), slotWords (slotHdr w (slotLast w)) (fld w 22 9) none (w &&& 0x7FFFF#32) ++ q = w :: q :=
    fun w q => congrArg (· :: q) (slotWord_fields w)
  cases l with
  | nil => cases hd
  | cons w q =>
    cases q with
    | nil => exact encode_of_slot (y := none) nofun hd (alone w [])
    | cons x q =>
      rw [decodeHead] at hd
      split at hd
      · next hx =>
        simp only [Bool.and_eq_true, Bool.not_eq_true'] at hx
        obtain ⟨⟨hlast, hyx⟩, hacc⟩ := hx
        refine encode_of_slot (fun _ => hacc) hd ?_
        have hw := slotWord_fields w
        rw [hlast] at hw
        show slotWord false _ (fld w 19 3) _ :: yWord (slotLast x) (yImm x) :: q = _
        rw [hw, yWord_fields hyx]
      · exact encode_of_slot (y := none) nofun hd (alone w (x :: q))

/-- Settles O2: a slot word decodes to an instruction exactly where it carries the instruction's key, guard and fields. -/
theorem decodeEncodeAgree : Obligations.DecodeEncodeAgree :=
  ⟨fun _ _ _ hh hw hr => decodeHead_encode hh hw hr, fun _ _ _ hd => encode_of_decodeHead hd⟩

end Sys2Proof.Machine
end

section
/-! SUPPORT. Register names (R146, R149, R150): rotation maps names to registers one to one, and a register read after a write
gives what was written or what it held; and the statement about register names. -/

namespace Sys2Proof.Machine

/-! Rotation of a part of `n` registers from `f` on (R149). -/

section
variable {rrb f n r r' : Nat}

theorem rotate_lt (hn : 0 < n) (hr : r < f + n) : rotate rrb f n r < f + n := by
  have hmod := Nat.mod_lt (r - f + rrb) hn
  unfold rotate
  split <;> omega

/-- Two names of one register are one. -/
theorem rotate_inj (hn : 0 < n) (hr : r < f + n) (hr' : r' < f + n) : rotate rrb f n r = rotate rrb f n r' ↔ r = r' := by
  refine ⟨fun h => ?_, fun h => h ▸ rfl⟩
  have hmod := Nat.mod_lt (r - f + rrb) hn
  have hmod' := Nat.mod_lt (r' - f + rrb) hn
  unfold rotate at h
  split at h <;> split at h
  · exact h
  · omega
  · omega
  · have heq : r - f + rrb ≡ r' - f + rrb [MOD n] := by unfold Nat.ModEq; omega
    have hlow := Nat.ModEq.eq_of_lt_of_lt (Nat.ModEq.add_right_cancel' rrb heq) (by omega) (by omega)
    omega

end

theorem rotS_lt (rrb : Nat) (r : BitVec 5) : rotS rrb r < 32 := rotate_lt (by decide) r.isLt

theorem rotP_lt (rrb : Nat) (r : BitVec 3) : rotP rrb r < 8 := rotate_lt (by decide) r.isLt

theorem rotS_inj (rrb : Nat) (r r' : BitVec 5) : rotS rrb r = rotS rrb r' ↔ r = r' :=
  (rotate_inj (by decide) r.isLt r'.isLt).trans BitVec.toNat_inj

theorem rotP_inj (rrb : Nat) (r r' : BitVec 3) : rotP rrb r = rotP rrb r' ↔ r = r' :=
  (rotate_inj (by decide) r.isLt r'.isLt).trans BitVec.toNat_inj

theorem rotS_eq_zero (rrb : Nat) (r : BitVec 5) : rotS rrb r = 0 ↔ r = 0#5 := rotS_inj rrb r 0#5

theorem rotP_eq_zero (rrb : Nat) (r : BitVec 3) : rotP rrb r = 0 ↔ r = 0#3 := rotP_inj rrb r 0#3

/-! A register read after a write. -/

theorem Files.getS_put_s (f : Files) {r : Nat} (k : Nat) (x : Word) (hr : r < 32) :
    (f.put (.s r x)).getS k = if r ≠ 0 ∧ k = r then x else f.getS k := by
  unfold Files.put
  by_cases h0 : r = 0
  · simp [h0]
  · by_cases hk : k = r
    · subst hk
      simp [Files.getS, h0, hr]
    · simp [Files.getS, h0, hk, Ne.symm hk]

theorem Files.getP_put_p (f : Files) {r : Nat} (k : Nat) (x : Bool) (hr : r < 8) :
    (f.put (.p r x)).getP k = if r ≠ 0 ∧ k = r then x else f.getP k := by
  unfold Files.put
  by_cases h0 : r = 0
  · simp [h0]
  · by_cases hk : k = r
    · subst hk
      simp [Files.getP, h0, hr]
    · simp [Files.getP, h0, hk, Ne.symm hk]

@[simp] theorem Files.getP_put_s (f : Files) (r k : Nat) (x : Word) : (f.put (.s r x)).getP k = f.getP k := by
  rw [Files.put]
  by_cases hr : r = 0
  · rw [if_pos hr]
  · rw [if_neg hr]
    rfl

@[simp] theorem Files.getS_put_p (f : Files) (r k : Nat) (x : Bool) : (f.put (.p r x)).getS k = f.getS k := by
  rw [Files.put]
  by_cases hr : r = 0
  · rw [if_pos hr]
  · rw [if_neg hr]
    rfl

theorem Tile.rs_write1_ws (t : Tile) (d r : BitVec 5) (x : Word) :
    (t.write1 (t.ws d x)).rs r = if d ≠ 0#5 ∧ r = d then x else t.rs r := by
  simp only [Tile.rs, Tile.ws, Tile.write1_files, Tile.write1_ctl, Files.getS_put_s _ _ _ (rotS_lt _ _), rotS_inj, ne_eq,
    rotS_eq_zero]

theorem Tile.rp_write1_wp (t : Tile) (p q : BitVec 3) (x : Bool) :
    (t.write1 (t.wp p x)).rp q = if p ≠ 0#3 ∧ q = p then x else t.rp q := by
  simp only [Tile.rp, Tile.wp, Tile.write1_files, Tile.write1_ctl, Files.getP_put_p _ _ _ (rotP_lt _ _), rotP_inj, ne_eq,
    rotP_eq_zero]

/-! What one rotation does to the names (R150). -/

/-- A name's register is that of the name below it before the rotation. -/
theorem rotate_succ {rrb f n r : Nat} (hf : f ≤ r) (hn : n ∣ 16) :
    rotate ((rrb + 15) % 16) f n (r + 1) = rotate rrb f n r := by
  have hlt : ¬ r < f := by omega
  have hlt' : ¬ r + 1 < f := by omega
  have hmod : (r + 1 - f + (rrb + 15) % 16) ≡ (r - f + rrb) [MOD n] := by
    refine (Nat.ModEq.add_left _ ((Nat.mod_modEq _ 16).of_dvd hn)).trans ?_
    have hsum : r + 1 - f + (rrb + 15) = 16 + (r - f + rrb) := by omega
    rw [hsum]
    exact Nat.add_modEq_right_iff.mpr hn
  rw [rotate, if_neg hlt', rotate, if_neg hlt, hmod]

@[simp] theorem Tile.rotateLoop_rrb (t : Tile) (v : Bool) : (t.rotateLoop v).ctl.rrb = (t.ctl.rrb + 15) % 16 := rfl

theorem Tile.rs_rotateLoop_succ (t : Tile) (v : Bool) {r : BitVec 5} (hlo : 16 ≤ r.toNat) (hhi : r.toNat < 31) :
    (t.rotateLoop v).rs (r + 1#5) = t.rs r := by
  have hsucc : (r + 1#5).toNat = r.toNat + 1 := by rw [BitVec.toNat_add]; simp; omega
  show ((t.files.put _).getS (rotS _ _)) = _
  rw [Files.getS_put_p, rotS, hsucc, Tile.rotateLoop_rrb, rotate_succ hlo (by decide)]
  rfl

theorem Tile.rp_rotateLoop_succ (t : Tile) (v : Bool) {q : BitVec 3} (hlo : 4 ≤ q.toNat) (hhi : q.toNat < 7) :
    (t.rotateLoop v).rp (q + 1#3) = t.rp q := by
  have hsucc : (q + 1#3).toNat = q.toNat + 1 := by rw [BitVec.toNat_add]; simp; omega
  have hne : ¬ q + 1#3 = 4#3 := fun h => by rw [h] at hsucc; simp at hsucc; omega
  show ((t.files.put _).getP (rotP _ _)) = _
  rw [Files.getP_put_p _ _ _ (rotP_lt _ _), if_neg (fun h => hne ((rotP_inj _ _ _).mp h.2)), rotP, hsucc,
    Tile.rotateLoop_rrb, rotate_succ hlo (by decide)]
  rfl

/-- Settles O5: names map to registers one to one, so a write is read under its own name only, and a rotation moves the
registers on by one name. -/
theorem registerNames : Obligations.RegisterNames := by
  intro t d r p q x v
  refine ⟨rfl, rfl, rfl, rfl, t.rs_write1_ws d r x, t.rp_write1_wp p q v, Files.getP_put_s _ _ _ _, rfl, rfl, rfl,
    t.rs_rotateLoop_succ v, t.rp_rotateLoop_succ v, ?_⟩
  show ((t.files.put _).getP (rotP _ _)) = _
  rw [Files.getP_put_p _ _ _ (rotP_lt _ _), if_pos ⟨fun h => absurd ((rotP_eq_zero _ _).mp h) (by decide), rfl⟩]

end Sys2Proof.Machine
end

section
/-! SUPPORT. Values in memory (R4): a run of bytes reads back as it was put, a value as its little-endian bytes, and a memory's
canonical form is unique; and the statement about memories. -/

namespace Sys2Proof.Machine

/-! Values and their little-endian bytes. -/

@[simp] theorem valBytes_length (n v : Nat) : (valBytes n v).length = n := by
  induction n generalizing v with
  | zero => rfl
  | succ n ih => rw [valBytes, List.length_cons, ih]

theorem valBytes_getElem? {n k : Nat} (v : Nat) (hk : k < n) : (valBytes n v)[k]? = some (BitVec.ofNat 8 (v / 256 ^ k)) := by
  induction n generalizing v k with
  | zero => omega
  | succ n ih =>
    rw [valBytes]
    cases k with
    | zero => simp
    | succ k => rw [List.getElem?_cons_succ, ih _ (by omega), Nat.div_div_eq_div_mul, pow_succ']

theorem bytesVal_valBytes (n v : Nat) : bytesVal (valBytes n v) = v % 256 ^ n := by
  induction n generalizing v with
  | zero => simp [valBytes, bytesVal, Nat.mod_one]
  | succ n ih =>
    have hmul : v % 256 ^ (n + 1) = v % 256 + 256 * (v / 256 % 256 ^ n) := by rw [pow_succ']; exact Nat.mod_mul
    rw [valBytes, bytesVal, ih, BitVec.toNat_ofNat, hmul]

theorem bytesVal_lt (l : List Byte) : bytesVal l < 256 ^ l.length := by
  induction l with
  | nil => simp [bytesVal]
  | cons b l ih =>
    have hb := b.isLt
    rw [bytesVal, List.length_cons, pow_succ']
    omega

/-! Runs of bytes. -/

@[simp] theorem Memory.bytes_length (m : Memory) (a n : Nat) : (m.bytes a n).length = n := by
  induction n generalizing a with
  | zero => rfl
  | succ n ih => rw [Memory.bytes, List.length_cons, ih]

theorem Memory.bytes_getElem? (m : Memory) (a : Nat) {n k : Nat} (hk : k < n) : (m.bytes a n)[k]? = some (m.read (a + k)) := by
  induction n generalizing a k with
  | zero => omega
  | succ n ih =>
    rw [Memory.bytes]
    cases k with
    | zero => rfl
    | succ k => rw [List.getElem?_cons_succ, ih _ (by omega), Nat.add_right_comm, Nat.add_assoc]

/-- Two runs of bytes are one where they read alike. -/
theorem Memory.bytes_congr {m m' : Memory} {a a' n : Nat} (h : ∀ k, k < n → m.read (a + k) = m'.read (a' + k)) :
    m.bytes a n = m'.bytes a' n := by
  refine List.ext_getElem? fun k => ?_
  by_cases hk : k < n
  · rw [Memory.bytes_getElem? _ _ hk, Memory.bytes_getElem? _ _ hk, h k hk]
  · rw [List.getElem?_eq_none (by simpa using hk), List.getElem?_eq_none (by simpa using hk)]

/-- A run of bytes reads as it was put, every other byte as before. -/
theorem Memory.read_put {m : Memory} (h : Memory.wf m = true) (a x : Nat) (l : List Byte) :
    (m.put a l).read x = if a ≤ x then (l[x - a]?).getD (m.read x) else m.read x := by
  induction l generalizing m a with
  | nil => simp [Memory.put]
  | cons b l ih =>
    rw [Memory.put, ih (Memory.write_wf a b h), Memory.read_write h]
    rcases Nat.lt_trichotomy x a with hlt | rfl | hgt
    · rw [if_neg (by omega), if_neg (by omega), if_neg (by omega)]
    · rw [if_neg (by omega), if_pos rfl, if_pos le_rfl, Nat.sub_self]
      rfl
    · have hsub : x - a = x - (a + 1) + 1 := by omega
      rw [if_pos (by omega), if_neg (by omega), if_pos (by omega), hsub, List.getElem?_cons_succ]

theorem Memory.read_put_outside {m : Memory} (h : Memory.wf m = true) {a x : Nat} {l : List Byte}
    (hx : x < a ∨ a + l.length ≤ x) : (m.put a l).read x = m.read x := by
  rw [Memory.read_put h]
  split
  · rw [List.getElem?_eq_none (by omega), Option.getD_none]
  · rfl

theorem Memory.read_put_inside {m : Memory} (h : Memory.wf m = true) {a k : Nat} {l : List Byte} {b : Byte}
    (hb : l[k]? = some b) : (m.put a l).read (a + k) = b := by
  rw [Memory.read_put h, if_pos (by omega), Nat.add_sub_cancel_left, hb, Option.getD_some]

theorem Memory.bytes_put_same {m : Memory} (h : Memory.wf m = true) (a : Nat) (l : List Byte) :
    (m.put a l).bytes a l.length = l := by
  refine List.ext_getElem? fun k => ?_
  by_cases hk : k < l.length
  · rw [Memory.bytes_getElem? _ _ hk, Memory.read_put_inside h (List.getElem?_eq_getElem hk), List.getElem?_eq_getElem hk]
  · rw [List.getElem?_eq_none (by simpa using hk), List.getElem?_eq_none (by simpa using hk)]

theorem Memory.bytes_put_apart {m : Memory} (h : Memory.wf m = true) {a b n : Nat} {l : List Byte}
    (hab : b + n ≤ a ∨ a + l.length ≤ b) : (m.put a l).bytes b n = m.bytes b n :=
  Memory.bytes_congr fun k hk => Memory.read_put_outside h (by omega)

/-! Values put into memory. -/

theorem Memory.val_putVal_same {m : Memory} (h : Memory.wf m = true) (a n v : Nat) : (m.putVal a n v).val a n = v % 256 ^ n := by
  have hput := Memory.bytes_put_same h a (valBytes n v)
  rw [valBytes_length] at hput
  rw [Memory.val, Memory.putVal, hput, bytesVal_valBytes]

theorem Memory.val_putVal_apart {m : Memory} (h : Memory.wf m = true) {a b n k : Nat} (v : Nat)
    (hab : b + k ≤ a ∨ a + n ≤ b) : (m.putVal a n v).val b k = m.val b k := by
  rw [Memory.val, Memory.putVal, Memory.bytes_put_apart h (by rwa [valBytes_length])]
  rfl

theorem Memory.read_putVal_inside {m : Memory} (h : Memory.wf m = true) {a n k : Nat} (v : Nat) (hk : k < n) :
    (m.putVal a n v).read (a + k) = BitVec.ofNat 8 (v / 256 ^ k) :=
  Memory.read_put_inside h (valBytes_getElem? v hk)

theorem Memory.read_putVal_outside {m : Memory} (h : Memory.wf m = true) {a n x : Nat} (v : Nat) (hx : x < a ∨ a + n ≤ x) :
    (m.putVal a n v).read x = m.read x :=
  Memory.read_put_outside h (by rwa [valBytes_length])

/-! The canonical form. -/

/-- Where a memory's first cell lies, it does not read as zero, and what is behind it reads as before. -/
theorem Memory.read_cons_behind {m : Memory} {a x : Nat} (b : Byte) (hx : a < x) : Memory.read ((a, b) :: m) x = m.read x := by
  rw [Memory.read, if_neg (by omega), if_neg (by omega)]

/-- Two memories in canonical form that read alike are one. -/
theorem Memory.eq_of_read_eq {m m' : Memory} {lo : Nat} (h : Memory.wfFrom lo m = true) (h' : Memory.wfFrom lo m' = true)
    (hr : ∀ x, m'.read x = m.read x) : m' = m := by
  induction m generalizing m' lo with
  | nil =>
    cases m' with
    | nil => rfl
    | cons c m' =>
      obtain ⟨a', b'⟩ := c
      simp only [Memory.wfFrom, Bool.and_eq_true, bne_iff_ne, ne_eq] at h'
      have hb := hr a'
      simp only [Memory.read, if_true] at hb
      exact absurd hb h'.1.2
  | cons c m ih =>
    obtain ⟨a, b⟩ := c
    cases m' with
    | nil =>
      simp only [Memory.wfFrom, Bool.and_eq_true, bne_iff_ne, ne_eq] at h
      have hb := hr a
      simp only [Memory.read, if_true] at hb
      exact absurd hb.symm h.1.2
    | cons c' m' =>
      obtain ⟨a', b'⟩ := c'
      simp only [Memory.wfFrom, Bool.and_eq_true, decide_eq_true_eq, bne_iff_ne, ne_eq] at h h'
      obtain ⟨⟨-, hb⟩, hm⟩ := h
      obtain ⟨⟨-, hb'⟩, hm'⟩ := h'
      have haa : a' = a := by
        rcases Nat.lt_trichotomy a' a with hlt | heq | hgt
        · have hra := hr a'
          simp only [Memory.read, if_true, if_neg (Nat.ne_of_gt hlt), if_pos hlt] at hra
          exact absurd hra hb'
        · exact heq
        · have hra := hr a
          simp only [Memory.read, if_true, if_neg (Nat.ne_of_gt hgt), if_pos hgt] at hra
          exact absurd hra.symm hb
      subst haa
      have hbb : b' = b := by simpa only [Memory.read, if_true] using hr a'
      subst hbb
      rw [ih hm hm' fun x => ?_]
      rcases Nat.lt_or_ge a' x with hlt | hge
      · rw [← Memory.read_cons_behind b' hlt, hr x, Memory.read_cons_behind b' hlt]
      · rw [Memory.read_below hm (by omega), Memory.read_below hm' (by omega)]

/-- Settles O7: a run of bytes reads back byte by byte, and a canonical memory is what it reads as. -/
theorem memoryReadsBack : Obligations.MemoryReadsBack := fun _ a n v h =>
  ⟨Memory.val_putVal_same h a n v, fun _ hk => Memory.read_putVal_inside h v hk, fun _ hx => Memory.read_putVal_outside h v hx,
    fun _ h' hr => Memory.eq_of_read_eq h h' hr⟩

end Sys2Proof.Machine
end

section
/-! SUPPORT. Issuing a slot that makes checks or leaves a result in flight; products, quotients and rotations as numbers; and the
statements about the register arithmetic, products and divisions, transfers and loops (R210, R212, R218 to R221). -/

namespace Sys2Proof.Machine

/-! Issuing a slot. -/

/-- A slot whose checks pass and whose effect leaves its tile running, with nothing to report and nothing to do at the close, issues
with that effect. -/
theorem issues_of_effect {i : Instr} {h : Hdr} {s : State} {t : Tile} (sem : SlotInfo → Sem) (hs : s.Ready h.guard)
    (he : exec i s = runSlot i h sem s)
    (ht : (sem (s.core.slotInfo i 0)).eff s.core s.core = t)
    (henc : (sem (s.core.slotInfo i 0)).enc s.core = true)
    (hchk : (sem (s.core.slotInfo i 0)).check s.core = .ok)
    (hc : t.sch.closing = []) (hst : t.sch.status = .running) (hr : t.recs = []) : Issues i s t := by
  subst ht
  exact he.trans (runSlot_quiet hs henc hchk hc hst hr)

theorem need_of_true {ok : Bool} {c : Cause} {f n : DWord} (h : ok = true) : need ok c f n = .ok := by
  rw [need, if_pos h]

/-- A producer of one register leaves its result in flight. -/
theorem Tile.produce_eq_flying (t : Tile) (lat : Nat) (tag : BitVec 3) (w : RegWrite) (kind : Nat) (opx : DWord) (i : Instr) :
    t.produce lat tag [w] kind opx (t.slotInfo i 0) = t.flying lat tag w kind opx i := by
  rw [Tile.produce, Tile.allocTag_eq]
  rfl

/-- A slot of later latency issues with its result in flight. -/
theorem issues_of_semLater {i : Instr} {h : Hdr} {lat : Nat} {w : Tile → RegWrite} {s : State} {v : RegWrite} (hs : s.Ready h.guard)
    (he : exec i s = runSlot i h (semLater lat w) s) (hv : w s.core = v) : Issues i s (s.core.flying lat 0#3 v 0 0#64 i) := by
  subst hv
  exact issues_of_effect _ hs he (Tile.produce_eq_flying s.core lat 0#3 (w s.core) 0 0#64 i) rfl rfl hs.between.noClosing hs.between.running hs.between.noReports

/-- A division whose tag is free issues with its result in flight. -/
theorem issues_of_semDiv {i : Instr} {h : Hdr} {d a b : BitVec 5} {tag : BitVec 3} {f : Word → Word → Word} {s : State} {w : Word}
    (hs : s.Ready h.guard) (ht : s.core.tagFree tag = true) (he : exec i s = runSlot i h (semDiv d a b tag f) s)
    (hw : f (s.core.rs a) (s.core.rs b) = w) :
    Issues i s (s.core.flying 18 tag (s.core.ws d w) 4 (s.core.rs b ++ s.core.rs a) i) := by
  subst hw
  exact issues_of_effect _ hs he (Tile.produce_eq_flying s.core 18 tag _ 4 _ i) rfl (Tile.needTag_free ht) hs.between.noClosing hs.between.running
    hs.between.noReports

/-! Shift amounts and rotations. -/

theorem amount_eq (y : Word) : amount y = y.toNat % 32 := by
  simp [amount, bitsOf]

theorem num_sub (i j : Int) : num (i - j) = num i - num j := by
  rw [num, sub_eq_add_neg, BitVec.ofInt_add, BitVec.ofInt_neg, ← BitVec.sub_eq_add_neg]
  rfl

/-- A rotation is the sum of the two parts of the word that it moves. -/
theorem num_rotateLeft (x : Word) {k : Nat} (hk : k < 32) :
    num (uNum x * 2 ^ k + uNum x / 2 ^ (32 - k)) = x.rotateLeft k := by
  have hdisj : x <<< k &&& x >>> (32 - k) = 0#32 := by
    refine BitVec.eq_of_getLsbD_eq fun i hi => ?_
    rw [BitVec.getLsbD_and, BitVec.getLsbD_shiftLeft, BitVec.getLsbD_ushiftRight, BitVec.getLsbD_zero]
    rcases Nat.lt_or_ge i k with hlt | hge
    · simp [hlt]
    · simp [BitVec.getLsbD_of_ge x (32 - k + i) (by omega)]
  rw [num_add, num_uNum_mul_two_pow, num_uNum_div_two_pow, BitVec.add_eq_or_of_and_eq_zero _ _ hdisj, BitVec.rotateLeft_def,
    Nat.mod_eq_of_lt hk]

/-! Products. -/

/-- The high word of a number of 64 bits. -/
theorem extractLsb'_ofInt (p : Int) : (BitVec.ofInt 64 p).extractLsb' 32 32 = num (p / 2 ^ 32) := by
  refine BitVec.eq_of_toNat_eq ?_
  rw [num, BitVec.extractLsb'_toNat, BitVec.toNat_ofInt, BitVec.toNat_ofInt, Nat.shiftRight_eq_div_pow]
  norm_num
  omega

/-- The high word of a product of words is the product of their numbers divided by 2^32. -/
theorem mulHigh_eq (u : Bool) (x y : Word) : mulHigh u x y = num (numBy u x * numBy u y / 2 ^ 32) := by
  cases u with
  | true =>
    have hwide (z : Word) : z.setWidth 64 = BitVec.ofInt 64 (uNum z) := by
      rw [uNum, BitVec.ofInt_natCast, BitVec.ofNat_toNat]
    rw [mulHigh, if_pos rfl, hwide, hwide, ← BitVec.ofInt_mul, extractLsb'_ofInt]
    rfl
  | false =>
    have hwide (z : Word) : z.signExtend 64 = BitVec.ofInt 64 (sNum z) := rfl
    rw [mulHigh, if_neg Bool.false_ne_true, hwide, hwide, ← BitVec.ofInt_mul, extractLsb'_ofInt]
    rfl

/-! Quotients and remainders (R212). -/

/-- The division of words that are no exception divides their numbers toward zero. -/
theorem divide_of_ne_zero (u : Bool) {x y : Word} (hy : y ≠ 0#32) :
    divide x y u = (num ((numBy u x).tdiv (numBy u y)), num ((numBy u x).tmod (numBy u y))) := by
  rw [divide, if_neg hy]
  cases u with
  | true =>
    have hdiv : uNum (x / y) = (uNum x).tdiv (uNum y) := by
      rw [uNum, BitVec.toNat_udiv, uNum, uNum, Int.ofNat_tdiv]
    have hmod : uNum (x % y) = (uNum x).tmod (uNum y) := by
      rw [uNum, BitVec.toNat_umod, uNum, uNum, Int.ofNat_tmod]
    rw [if_pos rfl]
    exact congrArg₂ Prod.mk ((num_uNum _).symm.trans (congrArg num hdiv)) ((num_uNum _).symm.trans (congrArg num hmod))
  | false =>
    rw [if_neg Bool.false_ne_true]
    by_cases hov : x = 0x80000000#32 ∧ y = 0xFFFFFFFF#32
    · obtain ⟨rfl, rfl⟩ := hov
      decide
    · rw [if_neg hov]
      rfl

/-- The quotient of DIV. -/
theorem divide_fst (u : Bool) (x y : Word) :
    (divide x y u).1 = if y = 0#32 then num (-1) else num ((numBy u x).tdiv (numBy u y)) := by
  by_cases hy : y = 0#32
  · rw [divide, if_pos hy, if_pos hy]
    rfl
  · rw [divide_of_ne_zero u hy, if_neg hy]

/-- The remainder of REM. -/
theorem divide_snd (u : Bool) (x y : Word) :
    (divide x y u).2 = if y = 0#32 then x else num ((numBy u x).tmod (numBy u y)) := by
  by_cases hy : y = 0#32
  · rw [divide, if_pos hy, if_pos hy]
  · rw [divide_of_ne_zero u hy, if_neg hy]

/-! The statements. -/

/-- Settles O10: each operation writes one register with the word of its number modulo 2^32. -/
theorem registerArithmetic : Obligations.RegisterArithmetic := by
  intro s h d a b hs x y k put
  have hk : amount y = k := amount_eq y
  refine ⟨issues_of_semWrite hs rfl ?add, issues_of_semWrite hs rfl ?sub, issues_of_semWrite hs rfl rfl,
    issues_of_semWrite hs rfl rfl, issues_of_semWrite hs rfl rfl, issues_of_semWrite hs rfl rfl, issues_of_semWrite hs rfl ?shl,
    issues_of_semWrite hs rfl ?shr, issues_of_semWrite hs rfl ?sar, issues_of_semWrite hs rfl ?rotl⟩
  case add => rw [num_add, num_sNum, num_sNum]
  case sub => rw [num_sub, num_sNum, num_sNum]
  case shl => rw [num_uNum_mul_two_pow, hk]
  case shr => rw [num_uNum_div_two_pow, hk]
  case sar => rw [num_sNum_div_two_pow, hk]
  case rotl => rw [num_rotateLeft x (Nat.mod_lt _ (by decide)), hk]

/-- Settles O11: the results are the words of the products, quotients and remainders of the operands' numbers. -/
theorem productsAndDivision : Obligations.ProductsAndDivision := by
  constructor
  · intro s h d a b u m l hs x y fly
    refine ⟨issues_of_semLater hs rfl ?mul, issues_of_semLater hs rfl ?mulh, issues_of_semLater hs rfl ?muli,
      issues_of_semLater hs rfl rfl, issues_of_semLater hs rfl rfl⟩
    case mul => rw [num_mul, num_sNum, num_sNum]
    case mulh => rw [mulHigh_eq]
    case muli => rw [num_mul, num_sNum, num_immNum (by decide)]
  · intro s h d a b t u hs ht x y q r
    exact ⟨issues_of_semDiv hs ht rfl (divide_fst u x y), issues_of_semDiv hs ht rfl (divide_snd u x y)⟩

end Sys2Proof.Machine
end

section
/-! SUPPORT. Slots that act at the close, targets of transfers, and the loop stack; and the statements about transfers and loops
(R218 to R221). -/

namespace Sys2Proof.Machine

/-! Closing a bundle in which no slot acts at the close, and one in which one slot does. -/

/-- Closing a bundle in which nothing acts at the close, field by field. -/
theorem Tile.close_eq {t : Tile} (n : Nat) (hc : t.sch.closing = []) :
    t.close n = { t with
      ctl := t.ctl.settleFmt (t.sch.cycle + 1)
      sch := { t.sch with
        cycle := t.sch.cycle + 1
        pc := t.sch.xfer.getD (t.sch.pc + BitVec.ofNat 32 (4 * n))
        ready := t.sch.cycle + 1 + t.sch.cost
        waited := 0
        stall := none
        xfer := none
        cost := 0
        tags := t.sch.alloc.foldl (fun v k => v.setIfInBounds k .outstanding) t.sch.tags
        own := if t.sch.tm then t.sch.alloc ++ t.sch.own else t.sch.own
        alloc := [] } } := by
  rw [Tile.close_plain n hc, ← hc]
  cases hx : t.sch.xfer <;> simp only [Tile.withSch, Tile.tick, Sched.commitTags, hx, Option.getD_none, Option.getD_some]

section
variable {t : Tile}

theorem Tile.close_files (n : Nat) (hc : t.sch.closing = []) : (t.close n).files = t.files := by rw [Tile.close_eq n hc]
theorem Tile.close_pad (n : Nat) (hc : t.sch.closing = []) : (t.close n).pad = t.pad := by rw [Tile.close_eq n hc]
theorem Tile.close_eng (n : Nat) (hc : t.sch.closing = []) : (t.close n).eng = t.eng := by rw [Tile.close_eq n hc]
theorem Tile.close_copy (n : Nat) (hc : t.sch.closing = []) : (t.close n).copy = t.copy := by rw [Tile.close_eq n hc]
theorem Tile.close_rstk (n : Nat) (hc : t.sch.closing = []) : (t.close n).sch.rstk = t.sch.rstk := by rw [Tile.close_eq n hc]
theorem Tile.close_lstk (n : Nat) (hc : t.sch.closing = []) : (t.close n).sch.lstk = t.sch.lstk := by rw [Tile.close_eq n hc]
theorem Tile.close_flights (n : Nat) (hc : t.sch.closing = []) : (t.close n).sch.flights = t.sch.flights := by rw [Tile.close_eq n hc]
theorem Tile.close_vops (n : Nat) (hc : t.sch.closing = []) : (t.close n).sch.vops = t.sch.vops := by rw [Tile.close_eq n hc]
theorem Tile.close_ctl (n : Nat) (hc : t.sch.closing = []) : (t.close n).ctl = t.ctl.settleFmt (t.sch.cycle + 1) := by rw [Tile.close_eq n hc]
theorem Tile.close_pc (n : Nat) (hc : t.sch.closing = []) :
    (t.close n).sch.pc = t.sch.xfer.getD (t.sch.pc + BitVec.ofNat 32 (4 * n)) := by rw [Tile.close_eq n hc]
theorem Tile.close_ready (n : Nat) (hc : t.sch.closing = []) : (t.close n).sch.ready = t.sch.cycle + 1 + t.sch.cost := by
  rw [Tile.close_eq n hc]

end

/-- Where one slot acts at the close, it acts on the tile that closing the bundle without it leaves. -/
theorem Tile.close_one {t : Tile} (n : Nat) {x : Closing} (hc : t.sch.closing = [x]) :
    t.close n = ((t.withSch fun c => { c with closing := [] }).close n).closeSlot t.sch.cycle (t.sch.pc + BitVec.ofNat 32 (4 * n)) x := by
  rw [Tile.close_plain (t := t.withSch _) n rfl, Tile.close, hc]
  cases x <;> rfl

/-- A slot that adds one act at the close to its effect, and leaves its tile running and with nothing to report. -/
theorem runSlot_atClose {i : Instr} {h : Hdr} {sem : SlotInfo → Sem} {s : State} {t : Tile} {x : Closing} (hs : s.Ready h.guard)
    (ht : (sem (s.core.slotInfo i 0)).eff s.core s.core = t.atClose x)
    (henc : (sem (s.core.slotInfo i 0)).enc s.core = true)
    (hchk : (sem (s.core.slotInfo i 0)).check s.core = .ok) (hc : t.sch.closing = []) :
    runSlot i h sem s = .next (State.flush (State.noteEnd (s.withCore ((t.bump.close (encode i).length).closeSlot t.sch.cycle
      (t.sch.pc + BitVec.ofNat 32 (4 * (encode i).length)) x)))) := by
  have hclose : (t.atClose x).bump.sch.closing = [x] := by
    show t.sch.closing ++ [x] = [x]
    rw [hc, List.nil_append]
  have hplain : ((t.atClose x).bump.withSch fun c => { c with closing := [] }) = t.bump := by
    show { t with sch := { t.bump.sch with closing := [] } } = t.bump
    rw [← hc]
    rfl
  rw [runSlot_alone hs henc hchk, ht, State.after, Tile.close_one _ hclose, hplain]
  rfl

/-! What fmt values that come into force leave. -/

@[simp] theorem Ctl.settleFmt_lc (c : Ctl) (n : Nat) : (c.settleFmt n).lc = c.lc := rfl
@[simp] theorem Ctl.settleFmt_ec (c : Ctl) (n : Nat) : (c.settleFmt n).ec = c.ec := rfl
@[simp] theorem Ctl.settleFmt_rrb (c : Ctl) (n : Nat) : (c.settleFmt n).rrb = c.rrb := rfl

/-! Targets of transfers (R218). -/

theorem num_four_mul_toInt {n : Nat} (hn : n ≤ 32) (o : BitVec n) : num (4 * o.toInt) = immScaled 4 (.short o) := by
  have hsx : num o.toInt = o.signExtend 32 := num_immNum hn (.short o)
  rw [num_mul, hsx, BitVec.mul_comm]
  rfl

/-- The target of a branch as a number modulo 2^32. -/
theorem branchTo_eq (t : Tile) (o : Imm 16 32) :
    branchTo t o = num (sNum t.sch.pc + match o with
      | .short v => 4 * v.toInt
      | .long w => w.toInt) := by
  rw [num_add, num_sNum]
  cases o with
  | short v => rw [num_four_mul_toInt (by decide)]; rfl
  | long w => exact congrArg (t.sch.pc + ·) (num_sNum w).symm

theorem hintCost_taken (hint : Bool) : hintCost true hint = if hint then 0 else 2 := by
  cases hint <;> rfl

theorem popLast_concat {α : Type} (l : List α) (x d : α) : popLast (l ++ [x]) d = (x, l) := by
  simp [popLast]

theorem not_isEmpty_concat {α : Type} (l : List α) (x : α) : (!(l ++ [x]).isEmpty) = true := by
  simp

/-- The loop whose counts are last on the stack is popped. -/
theorem Tile.popLoop_concat {t : Tile} {l : List (Word × Word)} {x : Word × Word} (h : t.sch.lstk = l ++ [x]) :
    t.popLoop = (t.withCtl fun c => { c with lc := x.1, ec := x.2 }).withSch fun c => { c with lstk := l } := by
  obtain ⟨y, m, hm⟩ := List.exists_cons_of_ne_nil (List.append_ne_nil_of_right_ne_nil l (List.cons_ne_nil x []))
  rw [Tile.popLoop, h, hm]
  simp only [← hm, popLast_concat]
  rfl

theorem Tile.popLoop_files (t : Tile) : t.popLoop.files = t.files := by
  unfold Tile.popLoop; split <;> rfl

theorem Tile.popLoop_recs (t : Tile) : t.popLoop.recs = t.recs := by
  unfold Tile.popLoop; split <;> rfl

theorem Tile.popLoop_closing (t : Tile) : t.popLoop.sch.closing = t.sch.closing := by
  unfold Tile.popLoop; split <;> rfl

theorem Tile.popLoop_status (t : Tile) : t.popLoop.sch.status = t.sch.status := by
  unfold Tile.popLoop; split <;> rfl

/-- Settles O15: each slot transfers to its target; CALL pushes the next bundle's address as its bundle closes. -/
theorem transfers : Obligations.Transfers := by
  intro s h o hint a hs target
  have htarget : branchTo s.core o = target := branchTo_eq s.core o
  have hbetween := hs.between
  refine ⟨?br, ?jr, ?ret, ?call⟩
  case br =>
    rw [← htarget, ← hintCost_taken]
    exact issues_of_effect _ hs rfl rfl rfl rfl hbetween.noClosing hbetween.running hbetween.noReports
  case jr => exact issues_of_effect _ hs rfl rfl rfl rfl hbetween.noClosing hbetween.running hbetween.noReports
  case ret =>
    intro l r hstk
    refine issues_of_effect _ hs rfl ?_ rfl (need_of_true ?_) hbetween.noClosing hbetween.running hbetween.noReports
    · simp only [hstk, popLast_concat]
    · rw [hstk, not_isEmpty_concat]
  case call =>
    intro hroom
    have hexec := runSlot_atClose (i := .call h o hint) (x := .call) (sem := fun _ =>
        { check := fun t => need (decide (t.sch.rstk.length < 16)) .stkov
          eff := fun r t => (t.transfer (branchTo r o) (hintCost true hint)).atClose .call
          nullCost := hintCost false hint })
      hs rfl rfl (need_of_true (decide_eq_true hroom)) hbetween.noClosing
    have hcost : Nat.max s.core.sch.cost (hintCost true hint) = if hint then 0 else 2 := by
      rw [hbetween.noCost, hintCost_taken]
      exact Nat.zero_max _
    have hclosing : (s.core.transfer (branchTo s.core o) (hintCost true hint)).bump.sch.closing = [] := hbetween.noClosing
    rw [flush_noteEnd_quiet ((Tile.close_recs _ hclosing).trans hbetween.noReports)
      (ne_of_eq_of_ne ((Tile.close_status _ hclosing).trans hbetween.running) (by decide))] at hexec
    exact ⟨_, hexec, congrArg (· ++ [_]) (Tile.close_rstk _ hclosing), (Tile.close_pc _ hclosing).trans htarget,
      (Tile.close_ready _ hclosing).trans (congrArg (s.core.sch.cycle + 1 + ·) hcost), Tile.close_files _ hclosing,
      Tile.close_pad _ hclosing, rfl, rfl⟩

/-- The predicates under which LOOPSET with a modulus starts: p4 true, p5 to p7 false (R220). -/
def Tile.startModulo (t : Tile) : Tile :=
  (((t.write1 (.p 4 true)).write1 (.p 5 false)).write1 (.p 6 false)).write1 (.p 7 false)

theorem Tile.startModulo_getP (t : Tile) :
    t.startModulo.files.getP 4 = true ∧ t.startModulo.files.getP 5 = false ∧ t.startModulo.files.getP 6 = false ∧
      t.startModulo.files.getP 7 = false ∧ ∀ r, r < 4 → t.startModulo.files.getP r = t.files.getP r := by
  have hread (r : Nat) : t.startModulo.files.getP r =
      if r = 7 then false else if r = 6 then false else if r = 5 then false else if r = 4 then true else t.files.getP r := by
    simp only [Tile.startModulo, Tile.write1_files, Files.getP_put_p _ _ _ (show 7 < 8 by decide),
      Files.getP_put_p _ _ _ (show 6 < 8 by decide), Files.getP_put_p _ _ _ (show 5 < 8 by decide),
      Files.getP_put_p _ _ _ (show 4 < 8 by decide)]
    simp
  refine ⟨hread 4, hread 5, hread 6, hread 7, fun r hr => ?_⟩
  rw [hread, if_neg (by omega), if_neg (by omega), if_neg (by omega), if_neg (by omega)]

/-- The tile whose loop starts: the counts of the enclosing one are pushed (R220). -/
def Tile.startLoop (t : Tile) (lc ec : Word) : Tile :=
  (t.withSch fun k => { k with lstk := k.lstk ++ [(t.ctl.lc, t.ctl.ec)] }).withCtl fun k => { k with lc := lc, ec := ec, rrb := 0 }

@[simp] theorem Tile.write1_closing (t : Tile) (w : RegWrite) : (t.write1 w).sch.closing = t.sch.closing := rfl
@[simp] theorem Tile.write1_status (t : Tile) (w : RegWrite) : (t.write1 w).sch.status = t.sch.status := rfl
@[simp] theorem Tile.write1_lstk (t : Tile) (w : RegWrite) : (t.write1 w).sch.lstk = t.sch.lstk := rfl

theorem Files.put_p_s (f : Files) (r : Nat) (x : Bool) : (f.put (.p r x)).s = f.s := by
  simp only [Files.put]
  split <;> rfl

/-- What the start of a modulo loop leaves beside the predicates. -/
theorem Tile.startModulo_frame (t : Tile) :
    t.startModulo.sch.closing = t.sch.closing ∧ t.startModulo.sch.status = t.sch.status ∧ t.startModulo.sch.lstk = t.sch.lstk ∧
      t.startModulo.ctl = t.ctl ∧ t.startModulo.pad = t.pad ∧ t.startModulo.recs = t.recs ∧
      t.startModulo.files.s = t.files.s := by
  simp [Tile.startModulo, Files.put_p_s]

/-- Settles O16: each loop slot's effect is the branch of R221 that its counts choose. -/
theorem loops : Obligations.Loops := by
  intro s h d n o hint hs c lc1 back
  obtain ⟨hrunning, hreports, -, -, -, hclosing⟩ := hs.between
  refine ⟨fun hroom => ⟨?set, ?setModulo⟩, ?pop, fun hlc => ⟨?loopcBack, ?loopBack⟩, fun hlc hec => ?loopDrain,
    fun hlc => ⟨?loopcEnd, fun hec => ?loopLast, fun hec => ?loopEnd⟩⟩
  case set => exact issues_of_effect _ hs rfl rfl rfl (need_of_true (decide_eq_true hroom)) hclosing hrunning hreports
  case setModulo =>
    obtain ⟨hcl, hst, hlstk, hctl, hpad, hrecs, hfs⟩ := Tile.startModulo_frame (s.core.startLoop (s.core.rs d) (n.setWidth 32))
    have hissues : Issues (.loopset h d n true) s (s.core.startLoop (s.core.rs d) (n.setWidth 32)).startModulo :=
      issues_of_effect _ hs rfl rfl rfl (need_of_true (decide_eq_true hroom)) (hcl.trans hclosing) (hst.trans hrunning)
        (hrecs.trans hreports)
    have hend : (s.core.startLoop (s.core.rs d) (n.setWidth 32)).startModulo.bump.sch.closing = [] := hcl.trans hclosing
    obtain ⟨h4, h5, h6, h7, hlow⟩ := Tile.startModulo_getP (s.core.startLoop (s.core.rs d) (n.setWidth 32))
    refine ⟨_, hissues, ?_⟩
    simp only [State.after_core, Tile.close_files _ hend, Tile.close_ctl _ hend, Tile.close_lstk _ hend, Tile.close_pad _ hend,
      Tile.bump_files, Tile.bump_ctl, Tile.bump_pad, Tile.bump_sch, hlstk, hctl, hpad, hfs]
    exact ⟨rfl, rfl, rfl, rfl, h4, h5, h6, h7, hlow, rfl, rfl⟩
  case pop =>
    intro l x hstk
    have hissues : Issues (.loopsetPop h) s s.core.popLoop :=
      issues_of_effect _ hs rfl rfl rfl (need_of_true (by rw [hstk, not_isEmpty_concat])) (s.core.popLoop_closing.trans hclosing)
        (s.core.popLoop_status.trans hrunning) (s.core.popLoop_recs.trans hreports)
    rw [Tile.popLoop_concat hstk] at hissues
    refine ⟨_, hissues, ?_⟩
    rw [State.after_core, Tile.close_eq _ ?_]
    · exact ⟨rfl, rfl, rfl, rfl, rfl⟩
    · exact hclosing
  case loopcBack =>
    exact issues_of_effect _ hs rfl (if_pos hlc) rfl rfl hclosing hrunning hreports
  case loopBack =>
    exact issues_of_effect _ hs rfl (if_pos hlc) rfl rfl hclosing hrunning hreports
  case loopDrain =>
    exact issues_of_effect _ hs rfl ((if_neg (not_not.mpr hlc)).trans (if_pos hec)) rfl rfl hclosing hrunning hreports
  case loopcEnd =>
    exact issues_of_effect _ hs rfl (if_neg (not_not.mpr hlc)) rfl rfl (s.core.popLoop_closing.trans hclosing)
      (s.core.popLoop_status.trans hrunning) (s.core.popLoop_recs.trans hreports)
  case loopLast =>
    have hec' : ¬ 1 < s.core.ctl.ec.toNat := by rw [show s.core.ctl.ec = 1#32 from hec]; decide
    refine issues_of_effect _ hs rfl ((if_neg (not_not.mpr hlc)).trans ((if_neg hec').trans (if_pos hec))) rfl rfl ?_ ?_ ?_
    · exact (Tile.popLoop_closing _).trans hclosing
    · exact (Tile.popLoop_status _).trans hrunning
    · exact (Tile.popLoop_recs _).trans hreports
  case loopEnd =>
    have hec' : ¬ 1 < s.core.ctl.ec.toNat := by rw [show s.core.ctl.ec = 0#32 from hec]; decide
    have hec1 : s.core.ctl.ec ≠ 1#32 := by rw [show s.core.ctl.ec = 0#32 from hec]; decide
    refine issues_of_effect _ hs rfl ((if_neg (not_not.mpr hlc)).trans ((if_neg hec').trans (if_neg hec1))) rfl rfl ?_ ?_ ?_
    · exact (Tile.popLoop_closing _).trans hclosing
    · exact (Tile.popLoop_status _).trans hrunning
    · exact (Tile.popLoop_recs _).trans hreports

end Sys2Proof.Machine
end

section
/-! SUPPORT. Every slot runs by its meaning, whose cost under a false guard is that of Table 10-6; and the statement about the close of
a bundle (R191, R193, R194, R219). -/

namespace Sys2Proof.Machine

/-- The cycles that an instruction costs when its guard is false (Table 10-6). -/
def guardCost : Instr → Nat
  | .br _ _ hint => if hint then 2 else 0
  | .call _ _ hint => if hint then 2 else 0
  | .loop _ _ _ => 2
  | .loopc _ _ _ => 2
  | _ => 0

theorem hintCost_not_taken (hint : Bool) : hintCost false hint = if hint then 2 else 0 := by
  cases hint <;> rfl

/-- A slot runs by a meaning of its own, which refuses no encoding but for its format (R145) and costs what its row gives when
its guard is false. -/
def RunsAsSlot (i : Instr) (h : Hdr) : Prop :=
  ∃ sem : SlotInfo → Sem, (∀ s, exec i s = runSlot i h sem s) ∧
    (∀ info t, vEncOk t.ctl.fmt i = true → (sem info).enc t = true) ∧ ∀ info, (sem info).nullCost = guardCost i

theorem runsAsSlot {i : Instr} {h : Hdr} (hi : i.hdr = some h) : RunsAsSlot i h := by
  cases i <;> cases hi
  case br.refl => exact ⟨_, fun _ => rfl, fun _ _ _ => rfl, fun _ => hintCost_not_taken _⟩
  case call.refl => exact ⟨_, fun _ => rfl, fun _ _ _ => rfl, fun _ => hintCost_not_taken _⟩
  case vadd.refl | vsub.refl | vmul.refl | vfma.refl | vfms.refl | vfnma.refl | vdiv.refl | vsqrt.refl | vrsqrt.refl | vrcp.refl
    | vmin.refl | vmax.refl | vabs.refl | vneg.refl | vmaxa.refl | vcmp.refl | vsgn.refl | vthr.refl | vsel.refl | vmov.refl
    | vcvt.refl | vred.refl | vdot.refl | viadd.refl | visub.refl | vimul.refl | vand.refl | vor.refl | vxor.refl | vshli.refl
    | vshri.refl | vsari.refl | vshuf.refl | vbcst.refl | viota.refl | vclamp.refl | vrndb.refl | vimin.refl | vimax.refl
    | vcmpi.refl => exact ⟨semV _ _, fun _ => rfl, fun _ _ henc => henc, fun _ => rfl⟩
  all_goals exact ⟨_, fun _ => rfl, fun _ _ _ => rfl, fun _ => rfl⟩

theorem Tile.nullify_eq {t : Tile} {cost : Nat} (hc : t.sch.cost = 0) : t.nullify cost = t.withSch fun s => { s with cost := cost } := by
  have hmax : Nat.max t.sch.cost cost = cost := by rw [hc]; exact Nat.zero_max cost
  rw [Tile.nullify, Tile.withSch, Tile.withSch, hmax]

/-- A slot alone in its bundle whose guard is false only costs cycles (R194, R219). -/
theorem runSlot_nullified {i : Instr} {h : Hdr} {sem : SlotInfo → Sem} {s : State} (hb : s.bundle = none) (ht : s.core.Between)
    (hg : s.core.rp h.guard = false) (henc : (sem (s.core.slotInfo i 0)).enc s.core = true) :
    runSlot i h sem s = .next (s.withCore ((s.core.nullify (sem (s.core.slotInfo i 0)).nullCost).close (encode i).length)) := by
  have hissue : runSlot i h sem s = .next (State.flush (State.noteEnd (s.withCore
      ((s.core.nullify (sem (s.core.slotInfo i 0)).nullCost).close (encode i).length)))) := by
    simp only [runSlot, issueSlot, hb, Tile.issueOne, henc, hg, State.withCore, Bool.not_true, Bool.not_false, Bool.false_eq_true,
      if_false, if_true]
  have hclosing : (s.core.nullify (sem (s.core.slotInfo i 0)).nullCost).sch.closing = [] := ht.noClosing
  rw [hissue, flush_noteEnd_quiet ((Tile.close_recs _ hclosing).trans ht.noReports)
    (ne_of_eq_of_ne ((Tile.close_status _ hclosing).trans ht.running) (by decide))]

/-- Settles O17: the close of a bundle field by field, and the nullified slot by the meaning it runs by. -/
theorem bundleClose : Obligations.BundleClose := by
  refine ⟨fun t n hc => Tile.close_eq n hc, fun s i h hb ht hg henc hi => ?_⟩
  obtain ⟨sem, hexec, hsemEnc, hcost⟩ := runsAsSlot hi
  rw [hexec, runSlot_nullified hb ht hg (hsemEnc _ _ henc), hcost, Tile.nullify_eq ht.noCost]
  rfl

end Sys2Proof.Machine
end

section
/-! SUPPORT. The statements about fixed words and about reset: of the words one pair names another register than the statement says, and a
register file or a table at reset reads the same everywhere. -/

namespace Sys2Proof.Machine

/-- The words of a well-formed slot decode to it. -/
theorem decodeHead_of_encode {i : Instr} {h : Hdr} {ws : List Word} (he : encode i = ws) (hh : i.hdr = some h) (hw : i.wf = true) :
    decodeHead ws = .ok (i, []) := by
  subst he
  simpa using decodeHead_encode (r := []) hh hw (.inr fun _ hx => absurd hx (by simp))

/-- The field D of format XW is bits 18 to 14 (Table 09-3), which hold 10 in this word. -/
theorem decodeHead_movi_s10 :
    decodeHead [0b00001001000000101000000000000111#32, 0b11110001001000110100010101100111#32] =
      .ok (.movi ⟨true, 0#3⟩ 10#5 (.long 0x12345677#32), []) :=
  decodeHead_of_encode rfl rfl rfl

/-- Refutes O3: the two words that the statement gives for a MOVI of s5 are those of a MOVI of s10, their field D standing one
bit higher than for s5. -/
theorem not_decodedWords : ¬ Obligations.DecodedWords := by
  unfold Obligations.DecodedWords
  rintro ⟨-, -, -, -, -, -, -, -, hmovi, -⟩
  rw [decodeHead_movi_s10] at hmovi
  injection hmovi with hpair
  injection hpair with hinstr
  injection hinstr with _ hreg
  exact absurd hreg (by decide)

/-- A file of equal entries reads that entry everywhere, where what is read outside it is the entry too. -/
theorem getD_replicate {α : Type} (n r : Nat) (x : α) : ((Vector.replicate n x)[r]?).getD x = x := by
  rw [Vector.getElem?_replicate]
  split <;> rfl

theorem getD_listReplicate {α : Type} (n r : Nat) (x : α) : ((List.replicate n x)[r]?).getD x = x := by
  rw [List.getElem?_replicate]
  split <;> rfl

/-! The files at reset. -/

theorem Files.getS_zero (r : Nat) : Files.zero.getS r = 0#32 := by
  unfold Files.getS
  split
  · rfl
  · exact getD_replicate 32 r 0#32

theorem Files.getP_zero (r : Nat) : Files.zero.getP r = decide (r = 0) := by
  by_cases hr : r = 0
  · simp [Files.getP, hr]
  · rw [Files.getP, if_neg hr, decide_eq_false hr]
    exact getD_replicate 8 r false

theorem lane_getV_zero (r k : Nat) : lane (Files.zero.getV r) k = 0#32 := by
  have hv : Files.zero.getV r = vzero := getD_replicate 28 r vzero
  rw [hv]
  exact getD_replicate 16 k 0#32

/-- Settles O4: reset's state is what its definitions give. -/
theorem resetValues : Obligations.ResetValues := by
  unfold Obligations.ResetValues
  intro s t
  refine ⟨rfl, rfl, rfl, rfl, rfl, rfl, fun r => Files.getS_zero _, fun r => getD_replicate 16 _ _, fun r => ?_,
    fun r k => lane_getV_zero _ k, fun n _ => getD_replicate 8 n _, fun _ => rfl, fun _ => rfl, fun n hn => ?_, rfl, rfl, rfl, rfl,
    fun n => ?_, rfl, rfl, rfl, rfl, rfl, rfl, fun k => ?_, rfl, rfl, rfl, rfl, by decide, by decide⟩
  · exact (Files.getP_zero _).trans (decide_eq_decide.mpr (rotP_eq_zero _ r))
  · have hch : t.copyCh n = ⟨0#32, 1#32, none, []⟩ := getD_replicate 8 n _
    rw [hch]
    exact ⟨rfl, rfl, rfl⟩
  · have hin : t.inCh n = ⟨0#64, false, 0#128, 0#32, 0#32, false, false, none⟩ := getD_replicate 32 n _
    rw [hin]
  · have hready : s.dev.readyOf k = Ready.zero := getD_listReplicate 140 k _
    rw [hready]
    exact ⟨rfl, rfl⟩

end Sys2Proof.Machine
end

section
/-! SUPPORT. The checks of an access of one item (Table 11-1): an aligned item lies in one range of Table 02-1, so its first address
decides; and the statement about access checks. -/

namespace Sys2Proof.Machine

/-- The trap that a refused item raises. -/
def raiseAt (a : Nat) (c : Cause) : Check := .raise c (BitVec.ofNat 64 a) 0#64 []

/-- The check of one item raises what the test finds. -/
theorem failing_singleton (x : Item) (f : Item → Option Cause) :
    failing [x] f = match f x with
      | some c => raiseAt x.a c
      | none => .ok := by
  cases h : f x <;> simp [failing, raiseAt, h]

theorem findSome?_of_forall_eq {α β : Type} {l : List α} {f : α → Option β} {v : Option β} (hl : l ≠ []) (hf : ∀ x ∈ l, f x = v) :
    l.findSome? f = v := by
  cases v with
  | none => exact List.findSome?_eq_none_iff.mpr hf
  | some b =>
    obtain ⟨x, l', rfl⟩ := List.exists_cons_of_ne_nil hl
    rw [List.findSome?_cons, hf x List.mem_cons_self]

theorem any_of_forall_eq {α : Type} {l : List α} {f : α → Bool} {v : Bool} (hl : l ≠ []) (hf : ∀ x ∈ l, f x = v) : l.any f = v := by
  cases v with
  | false => simpa using hf
  | true =>
    obtain ⟨x, l', rfl⟩ := List.exists_cons_of_ne_nil hl
    rw [List.any_cons, hf x List.mem_cons_self, Bool.true_or]

section
variable {n a : Nat} (hn : n ∈ [1, 2, 4, 16, 64]) (ha : a % n = 0)
include hn

theorem itemOf_ne_nil : (itemOf a n).bytes ≠ [] := by
  intro h
  have hlen := congrArg List.length h
  simp [itemOf, upTo] at hlen
  subst hlen
  simp at hn

include ha

/-- An aligned item does not cross a multiple of 64. -/
theorem lt_iff_of_line {c j : Nat} (hc : c % 64 = 0) (hj : j < n) : a + j < c ↔ a < c := by
  simp only [List.mem_cons, List.not_mem_nil, or_false] at hn
  rcases hn with rfl | rfl | rfl | rfl | rfl <;> omega

theorem le_iff_of_line {c j : Nat} (hc : c % 64 = 0) (hj : j < n) : c ≤ a + j ↔ c ≤ a :=
  not_lt.symm.trans ((lt_iff_of_line hn ha hc hj).not.trans not_lt)

/-- Every range starts and ends at a multiple of 64, so an aligned item does not cross from one into the next. -/
theorem rangeOf_add {j : Nat} (hj : j < n) : rangeOf (a + j) = rangeOf a := by
  have hlt {c : Nat} (hc : c % 64 = 0) : a + j < c ↔ a < c := lt_iff_of_line hn ha hc hj
  have hle {c : Nat} (hc : c % 64 = 0) : c ≤ a + j ↔ c ≤ a := le_iff_of_line hn ha hc hj
  exact if_congr (hlt rfl) rfl <| if_congr (hlt rfl) rfl <| if_congr (and_congr (hle rfl) (hlt rfl)) rfl <|
    if_congr (and_congr (hle rfl) (hlt rfl)) rfl <| if_congr (and_congr (hle rfl) (hlt rfl)) rfl rfl

theorem rangeOf_itemOf {x : Nat} (hx : x ∈ (itemOf a n).bytes) : rangeOf x = rangeOf a := by
  simp only [itemOf, upTo, List.mem_map, List.mem_range] at hx
  obtain ⟨j, hj, rfl⟩ := hx
  exact rangeOf_add hn ha hj

/-- An aligned item lies within scratchpad or outside it. -/
theorem padSize_le_itemOf {x : Nat} (hx : x ∈ (itemOf a n).bytes) : decide (padSize ≤ x) = decide (padSize ≤ a) := by
  simp only [itemOf, upTo, List.mem_map, List.mem_range] at hx
  obtain ⟨j, hj, rfl⟩ := hx
  exact decide_eq_decide.mpr (le_iff_of_line hn ha rfl hj)

/-- The checks of an aligned item go by the range of its address. -/
theorem accessCheck_aligned (t : Tile) (k : AKind) (alc : Cause) (q : Bool) :
    accessCheck t k n alc q [itemOf a n] =
      if rangeOf a = .none then raiseAt a .sprange
      else if q = true ∧ padSize ≤ a then raiseAt a .apert
      else match refusal k t.sch.tm a (rangeOf a) with
        | some c => raiseAt a c
        | none => .ok := by
  have hne := itemOf_ne_nil (a := a) hn
  have hrange : ((itemOf a n).bytes.any fun x => rangeOf x == .none) = (rangeOf a == .none) :=
    any_of_forall_eq hne fun x hx => by rw [rangeOf_itemOf hn ha hx]
  have hpad : ((itemOf a n).bytes.any fun x => decide (padSize ≤ x)) = decide (padSize ≤ a) :=
    any_of_forall_eq hne fun x hx => padSize_le_itemOf hn ha hx
  have href : ((itemOf a n).bytes.findSome? fun x => refusal k t.sch.tm a (rangeOf x)) = refusal k t.sch.tm a (rangeOf a) :=
    findSome?_of_forall_eq hne fun x hx => by rw [rangeOf_itemOf hn ha hx]
  have hitem : (itemOf a n).a = a := rfl
  simp only [accessCheck, failing_singleton, hrange, hpad, hitem, href, if_pos ha]
  by_cases h1 : rangeOf a = .none
  · simp [Check.all, h1, raiseAt]
  · by_cases h2 : q = true ∧ padSize ≤ a
    · simp [Check.all, h1, h2, raiseAt]
    · cases hr : refusal k t.sch.tm a (rangeOf a) <;> simp [Check.all, h1, h2, raiseAt]

end

theorem accessCheck_unaligned {n a : Nat} (ha : a % n ≠ 0) (t : Tile) (k : AKind) (alc : Cause) (q : Bool) :
    accessCheck t k n alc q [itemOf a n] = raiseAt a alc := by
  have hitem : (itemOf a n).a = a := rfl
  rw [accessCheck, failing_singleton, hitem, if_neg ha]
  rfl

/-! The ranges of Table 02-1. -/

theorem rangeOf_general {a : Nat} (h : a < 0x2F000) : rangeOf a = .general := if_pos h

theorem rangeOf_carve {a : Nat} (h : 0x2F000 ≤ a) (h' : a < 0x30000) : rangeOf a = .carve := by
  rw [rangeOf, carveOut, padSize, if_neg (by omega), if_pos h']

theorem rangeOf_none {a : Nat}
    (h : 0x30000 ≤ a ∧ a < 0x40000 ∨ 0x40600 ≤ a ∧ a < 0x50000 ∨ 0x50040 ≤ a ∧ a < 0x60000 ∨ 0x60100 ≤ a) : rangeOf a = .none := by
  rw [rangeOf, carveOut, padSize, if_neg (by omega), if_neg (by omega), if_neg (by omega), if_neg (by omega), if_neg (by omega)]

theorem rangeOf_fe {a : Nat} (h : 0x40000 ≤ a) (h' : a < 0x40600) : rangeOf a = .fe := by
  rw [rangeOf, carveOut, padSize, if_neg (by omega), if_neg (by omega), if_pos ⟨h, h'⟩]

theorem rangeOf_aperture {a : Nat} (h : 0x50000 ≤ a) (h' : a < 0x50040) : rangeOf a = .aperture := by
  rw [rangeOf, carveOut, padSize, if_neg (by omega), if_neg (by omega), if_neg (by omega), if_pos ⟨h, h'⟩]

theorem rangeOf_route {a : Nat} (h : 0x60000 ≤ a) (h' : a < 0x60100) : rangeOf a = .route := by
  rw [rangeOf, carveOut, padSize, if_neg (by omega), if_neg (by omega), if_neg (by omega), if_neg (by omega), if_pos ⟨h, h'⟩]

/-- Settles O6: an unaligned address fails first, and of an aligned one the range decides. -/
theorem accessChecks : Obligations.AccessChecks := by
  intro t k n a alc q hn c stop writes
  refine ⟨fun ha => accessCheck_unaligned ha t k alc q, fun ha => ?_⟩
  have hc : c = _ := accessCheck_aligned hn ha t k alc q
  rw [hc]
  refine ⟨fun h => ?general, fun h h' => ?carve, fun h => ?none, fun h => ?readable, fun h => ?aperture⟩
  case general =>
    have hp : ¬ (q = true ∧ padSize ≤ a) := by simp only [padSize]; omega
    rw [rangeOf_general h, if_neg (by decide), if_neg hp]
    cases k <;> rfl
  case carve =>
    have hp : ¬ (q = true ∧ padSize ≤ a) := by simp only [padSize]; omega
    rw [rangeOf_carve h h', if_neg (by decide), if_neg hp]
    cases k <;> cases t.sch.tm <;> rfl
  case none => rw [rangeOf_none h, if_pos rfl]; rfl
  case readable =>
    have hp : padSize ≤ a := by simp only [padSize]; omega
    have hr : rangeOf a = .fe ∨ rangeOf a = .route := h.imp (fun h => rangeOf_fe h.1 h.2) fun h => rangeOf_route h.1 h.2
    cases q with
    | true =>
      rw [if_neg (by rcases hr with hr | hr <;> rw [hr] <;> decide), if_pos ⟨rfl, hp⟩]
      rfl
    | false =>
      rw [if_neg (by rcases hr with hr | hr <;> rw [hr] <;> decide), if_neg (fun h => Bool.false_ne_true h.1)]
      rcases hr with hr | hr <;> rw [hr] <;> cases k <;> rfl
  case aperture =>
    have hp : padSize ≤ a := by simp only [padSize]; omega
    rw [rangeOf_aperture h.1 h.2, if_neg (by decide)]
    cases q with
    | true =>
      rw [if_pos ⟨rfl, hp⟩]
      rfl
    | false =>
      rw [if_neg (fun h => Bool.false_ne_true h.1)]
      cases k
      case storeW =>
        by_cases h8 : a % 8 = 0 <;> simp [refusal, h8, stop, raiseAt]
      all_goals rfl

end Sys2Proof.Machine
end

section
/-! SUPPORT. What a load does behind no queued access, whatever its plan and its qualifier (R236, R239 to R242); and the statements about
scalar loads, wide loads and loads that take their granules. -/

namespace Sys2Proof.Machine

/-! Credits and messages change nothing else of a tile. -/

/-- The second tile is the first with other inbound channels, messages and pair state. -/
def SendsOnly (t u : Tile) : Prop := ∃ ins out pair, u = { t with ins := ins, out := out, pair := pair }

theorem SendsOnly.refl (t : Tile) : SendsOnly t t := ⟨t.ins, t.out, t.pair, rfl⟩

theorem SendsOnly.trans {t u v : Tile} (h : SendsOnly t u) (h' : SendsOnly u v) : SendsOnly t v := by
  obtain ⟨_, _, _, rfl⟩ := h
  obtain ⟨ins, out, pair, rfl⟩ := h'
  exact ⟨ins, out, pair, rfl⟩

theorem SendsOnly.foldl {α : Type} {f : Tile → α → Tile} (hf : ∀ t x, SendsOnly t (f t x)) (l : List α) (t : Tile) :
    SendsOnly t (l.foldl f t) := by
  induction l generalizing t with
  | nil => exact .refl t
  | cons x l ih => exact (hf t x).trans (ih (f t x))

theorem Tile.emitAs_sendsOnly (t : Tile) (group : Bool) (key : Nat) (crc : Word) (m : Msg) : SendsOnly t (t.emitAs group key crc m) := by
  unfold Tile.emitAs
  split
  · exact ⟨_, _, _, rfl⟩
  · split <;> exact ⟨_, _, _, rfl⟩

theorem Tile.credit_sendsOnly (t : Tile) (ch : Nat) (e : DWord) (first n : Nat) : SendsOnly t (t.credit ch e first n) := by
  unfold Tile.credit
  split
  · exact ⟨_, _, _, rfl⟩
  · exact SendsOnly.foldl (fun _ _ => Tile.emitAs_sendsOnly _ _ _ _ _) _ t

theorem Tile.returnCredits_sendsOnly (t : Tile) : SendsOnly t t.returnCredits := by
  refine SendsOnly.foldl (fun u i => ?_) _ t
  split
  · next c _ =>
    dsimp only
    generalize (if c.bound then InCh.freed u.pad c 64 0 else 0) = n
    split
    · exact .refl u
    · split
      · exact ⟨_, _, _, rfl⟩
      · exact SendsOnly.trans (u := { u with ins := _ }) ⟨_, _, _, rfl⟩ (Tile.credit_sendsOnly _ _ _ _ _)
  · exact .refl u

theorem Tile.setEmpty_sendsOnly (t : Tile) (gs : List Nat) :
    SendsOnly (t.withPad fun p => { p with full := NatSet.delAll p.full gs }) (t.setEmpty gs) := by
  unfold Tile.setEmpty
  split
  · next h =>
    rw [List.isEmpty_iff.mp h]
    exact .refl t
  · exact Tile.returnCredits_sendsOnly _

section
variable (t : Tile) (gs : List Nat)

@[simp] theorem Tile.setEmpty_files : (t.setEmpty gs).files = t.files := by
  obtain ⟨_, _, _, h⟩ := Tile.setEmpty_sendsOnly t gs
  rw [h]
  rfl

@[simp] theorem Tile.setEmpty_sch : (t.setEmpty gs).sch = t.sch := by
  obtain ⟨_, _, _, h⟩ := Tile.setEmpty_sendsOnly t gs
  rw [h]
  rfl

@[simp] theorem Tile.setEmpty_recs : (t.setEmpty gs).recs = t.recs := by
  obtain ⟨_, _, _, h⟩ := Tile.setEmpty_sendsOnly t gs
  rw [h]
  rfl

@[simp] theorem Tile.setEmpty_pad : (t.setEmpty gs).pad = { t.pad with full := NatSet.delAll t.pad.full gs } := by
  obtain ⟨_, _, _, h⟩ := Tile.setEmpty_sendsOnly t gs
  rw [h]
  rfl

@[simp] theorem Tile.setEmpty_eng : (t.setEmpty gs).eng = t.eng := by
  obtain ⟨_, _, _, h⟩ := Tile.setEmpty_sendsOnly t gs
  rw [h]
  rfl

@[simp] theorem Tile.setEmpty_nil : t.setEmpty [] = t := rfl

end

/-! Loads behind no queued access. -/

/-- The result that a load puts in flight. -/
def Tile.loadFlight (t : Tile) (seq lat : Nat) (tag : BitVec 3) (plan : LoadPlan) (info : SlotInfo) : Flight :=
  ⟨seq, t.sch.cycle + lat, tag, (plan.writes t).1, plan.ringSlot, (plan.writes t).2.1, plan.opx, firstWord (plan.writes t).1,
    (plan.writes t).2.2, info⟩

/-- A load behind no queued access whose bytes can all be read puts its result in flight and takes its granules. -/
theorem Tile.portA_load {t : Tile} {seq lat : Nat} {tag : BitVec 3} {plan : LoadPlan} {take : List Nat} {info : SlotInfo}
    (hq : t.pad.queue = []) (hl : 1 ≤ lat) (hr : t.Readable plan.addrs) :
    t.portA seq (.load tag lat plan take) 0 info =
      (t.withSch fun c => { c with flights := c.flights ++ [t.loadFlight seq lat tag plan info] }).setEmpty take := by
  have hplain := Tile.perform_load (seq := seq) (tag := tag) (info := info) hl hr
  have hread : (t.readPad (plan.addrs.filter (· < padSize))).1 = none := by
    rw [Tile.Readable.readPad ⟨fun a ha => hr.1 a (List.mem_filter.1 ha).1, hr.2⟩
      fun a ha => by simpa using (List.mem_filter.1 ha).2]
  rw [Tile.portA_now hq rfl]
  simp only [Tile.perform, hread, Tile.setEmpty_nil] at hplain ⊢
  exact congrArg (·.setEmpty take) hplain

/-- A load that passes its checks behind no queued access issues with that effect, whatever granules it takes. -/
theorem issues_of_load {i : Instr} {h : Hdr} {s : State} {sem : SlotInfo → Sem} {lat : Nat} {tag : BitVec 3} {plan : LoadPlan}
    {take : List Nat} {t : Tile} (hs : s.Ready h.guard) (he : exec i s = runSlot i h sem s)
    (ht : (sem (s.core.slotInfo i 0)).eff s.core s.core = t.portA s.core.sch.seq (.load tag lat plan take) 0 (s.core.slotInfo i 0))
    (henc : (sem (s.core.slotInfo i 0)).enc s.core = true) (hchk : (sem (s.core.slotInfo i 0)).check s.core = .ok)
    (hq : t.pad.queue = []) (hl : 1 ≤ lat) (hr : t.Readable plan.addrs)
    (hc : t.sch.closing = []) (hst : t.sch.status = .running) (hrecs : t.recs = []) :
    Issues i s ((t.withSch fun c => { c with flights := c.flights ++
      [t.loadFlight s.core.sch.seq lat tag plan (s.core.slotInfo i 0)] }).setEmpty take) := by
  refine issues_of_effect sem hs he (ht.trans (Tile.portA_load hq hl hr)) henc hchk ?_ ?_ ?_
  · rw [Tile.setEmpty_sch]; exact hc
  · rw [Tile.setEmpty_sch]; exact hst
  · rw [Tile.setEmpty_recs]; exact hrecs

/-! The value of a scalar load. -/

theorem Tile.valAt_lt (t : Tile) (a n : Nat) : t.valAt a n < 256 ^ n := by
  have hlt := bytesVal_lt ((upTo n).map fun i => t.byteAt (a + i))
  rwa [List.length_map, upTo, List.length_range] at hlt

theorem scalarLoad_unsigned (v size : Nat) : scalarLoad v size false = num v := by
  rw [scalarLoad, if_neg Bool.false_ne_true, num, BitVec.ofInt_natCast]

/-- A signed load reads its bytes as two's complement. -/
theorem scalarLoad_signed {v size : Nat} (hv : v < 2 ^ (8 * size)) :
    scalarLoad v size true = num (if v < 2 ^ (8 * size - 1) then (v : Int) else v - 2 ^ (8 * size)) := by
  rw [scalarLoad, if_pos rfl, sxt_of_lt hv]
  by_cases hneg : v < 2 ^ (8 * size - 1)
  · rw [if_pos hneg, if_neg (Nat.not_le.mpr hneg)]
    rfl
  · rw [if_neg hneg, if_pos (Nat.not_lt.mp hneg)]
    rfl

/-- A scalar load that passes its checks behind no queued access and takes no granule. -/
theorem issues_of_semLd {i : Instr} {h : Hdr} {s : State} {kind : AKind} {size : Nat} {sg : Bool} {d : BitVec 5} {bs : BitVec 4}
    {o : Imm 5 32} {q : BitVec 2} {tag : BitVec 3} {x : Int} (hs : s.Ready h.guard) (ht : s.core.tagFree tag = true)
    (hp : s.core.pad.queue = []) (hq : q ≠ 2#2) (he : exec i s = runSlot i h (semLd kind size sg d bs o q tag) s)
    (hmay : accessCheck s.core kind size .spalign (q != 0#2) [itemOf (eaOf s.core size bs o) size] = .ok ∧
      loadQual s.core q [itemOf (eaOf s.core size bs o) size] = .ok ∧
      s.core.Readable ((upTo size).map (eaOf s.core size bs o + ·)))
    (hx : scalarLoad (s.core.valAt (eaOf s.core size bs o) size) size sg = num x) :
    Issues i s (s.core.loading 4 tag [.s (rotS s.core.ctl.rrb d) (num x)] 1 0#64 (num x) [] none i) := by
  obtain ⟨haccess, hqual, hread⟩ := hmay
  have hrun := runSlot_semLoad (i := i) (lat := 4) (plan := fun r a => .scalar a size sg (rotS r.ctl.rrb d)) hs ht hp hq haccess hqual
    (by decide) rfl hread
  have hval : (s.core.allocTag tag).valAt (eaOf s.core size bs o) size = s.core.valAt (eaOf s.core size bs o) size := by
    rw [Tile.allocTag_eq]
    rfl
  simp only [LoadPlan.writes, hval, hx] at hrun
  exact he.trans hrun

/-- Settles O18: each load's plan gives its extended value. -/
theorem scalarLoads : Obligations.ScalarLoads := by
  intro s h d bs o q t hs ht hp hq a may fly v
  have hv1 : v 1 < 2 ^ (8 * 1) := s.core.valAt_lt _ _
  have hv2 : v 2 < 2 ^ (8 * 2) := s.core.valAt_lt _ _
  exact ⟨fun hmay => issues_of_semLd hs ht hp hq rfl hmay (scalarLoad_signed hv1),
    fun hmay => issues_of_semLd hs ht hp hq rfl hmay (scalarLoad_unsigned _ _),
    fun hmay => issues_of_semLd hs ht hp hq rfl hmay (scalarLoad_signed hv2),
    fun hmay => issues_of_semLd hs ht hp hq rfl hmay (scalarLoad_unsigned _ _),
    fun hmay => issues_of_semLd hs ht hp hq rfl hmay (scalarLoad_unsigned _ _)⟩

end Sys2Proof.Machine
end

section
/-! SUPPORT. Wide loads (R239 to R242): widened elements, the lanes of a gather as a mask, the rings of a tile; and the statement about
them. -/

namespace Sys2Proof.Machine

/-- BF16 bits widened (R169): a NaN has an exponent of ones and a fraction that is not zero. -/
theorem widenBf16_eq {v : Nat} (hv : v < 2 ^ 16) :
    widenBf16 v = if v / 2 ^ 7 % 2 ^ 8 = 255 ∧ v % 2 ^ 7 ≠ 0 then 0x7FC00000 else v * 2 ^ 16 := by
  have he : bitsOf v bf16.fw bf16.ew = v / 2 ^ 7 % 2 ^ 8 := rfl
  have hm : bitsOf v 0 bf16.fw = v % 2 ^ 7 := by rw [bitsOf, pow_zero, Nat.div_one]; rfl
  have hmax : 2 ^ bf16.ew - 1 = 255 := rfl
  rw [widenBf16, FFmt.unpack, he, hm, hmax, Nat.mod_eq_of_lt hv]
  generalize v / 2 ^ 7 % 2 ^ 8 = e, v % 2 ^ 7 = m
  by_cases h255 : e = 255
  · by_cases hzero : m = 0
    · simp [h255, hzero]
    · simp only [h255, hzero, if_true, if_false, ne_eq, not_false_eq_true, and_self]
      rfl
  · by_cases hsub : e = 0
    · by_cases hzero : m = 0 <;> simp [hsub, hzero]
    · simp [h255, hsub]

/-- A word of 32 bits from BF16 bits. -/
theorem ofNat_widenBf16 {v : Nat} (hv : v < 2 ^ 16) :
    BitVec.ofNat 32 (widenBf16 v) =
      if v / 2 ^ 7 % 2 ^ 8 = 255 ∧ v % 2 ^ 7 ≠ 0 then 0x7FC00000#32 else BitVec.ofNat 32 (v * 2 ^ 16) := by
  rw [widenBf16_eq hv]
  split <;> rfl

/-! What a tile reads as depends on its scratchpad, its copy engine and its routes alone. -/

theorem Tile.Readable.congr {t u : Tile} {l : List Nat} (h : t.Readable l) (hpad : u.pad = t.pad) : u.Readable l := by
  unfold Tile.Readable
  rw [hpad]
  exact h

theorem Tile.byteAt_congr {t u : Tile} (hpad : u.pad = t.pad) (hcopy : u.copy = t.copy) (houts : u.outs = t.outs) (a : Nat) :
    u.byteAt a = t.byteAt a := by
  unfold Tile.byteAt Tile.apertureByte Tile.routeByte
  rw [hpad, hcopy, houts]

theorem Tile.valAt_congr {t u : Tile} (hpad : u.pad = t.pad) (hcopy : u.copy = t.copy) (houts : u.outs = t.outs) (a n : Nat) :
    u.valAt a n = t.valAt a n := by
  unfold Tile.valAt
  exact congrArg bytesVal (List.map_congr_left fun _ _ => Tile.byteAt_congr hpad hcopy houts _)

/-- What a load writes depends on the bytes it sees alone. -/
theorem LoadPlan.writes_congr {t u : Tile} (h : ∀ a, u.byteAt a = t.byteAt a) (p : LoadPlan) : p.writes u = p.writes t := by
  have hbyte : u.byteAt = t.byteAt := funext h
  have hval : u.valAt = t.valAt := by
    funext a n
    rw [Tile.valAt, Tile.valAt, hbyte]
  cases p <;> simp only [LoadPlan.writes, hbyte, hval]

/-! The lanes of a gather. -/

/-- Of a list with one entry for some of the first numbers, the entry found for a number is its own. -/
theorem find?_filterMap_upTo {β : Type} {f : Nat → Option (Nat × β)} (hf : ∀ i p, f i = some p → p.1 = i) (m k : Nat) :
    ((upTo m).filterMap f).find? (fun p => p.1 == k) = if k < m then f k else none := by
  induction m with
  | zero => simp [upTo]
  | succ m ih =>
    have hone : ([m].filterMap f).find? (fun p => p.1 == k) = if k = m then f m else none := by
      cases hm : f m with
      | none => simp [hm]
      | some p =>
        have hp := hf m p hm
        by_cases hk : k = m
        · simp [hm, hp, hk]
        · simp [hm, hp, hk, Ne.symm hk]
    rw [upTo, List.range_succ, List.filterMap_append, List.find?_append, hone, ← upTo, ih]
    rcases Nat.lt_trichotomy k m with hlt | rfl | hgt
    · rw [if_pos hlt, if_neg (by omega), if_pos (by omega), Option.or_none]
    · simp
    · rw [if_neg (by omega), if_neg (by omega), if_neg (by omega), Option.or_none]

/-- The sum of different powers of two, in rising order, has the bits of its exponents. -/
theorem testBit_foldl_two_pow {l : List (Nat × Nat)} (hs : l.Pairwise fun p q => p.1 < q.1) {x : Nat} (hx : ∀ p ∈ l, x < 2 ^ p.1)
    (k : Nat) : (l.foldl (fun x p => x + 2 ^ p.1) x).testBit k = (x.testBit k || (l.find? fun p => p.1 == k).isSome) := by
  induction l generalizing x with
  | nil => simp
  | cons p l ih =>
    rw [List.pairwise_cons] at hs
    have hp := hx p List.mem_cons_self
    have hnext : ∀ q ∈ l, x + 2 ^ p.1 < 2 ^ q.1 := fun q hq => by
      have hle : 2 ^ (p.1 + 1) ≤ 2 ^ q.1 := Nat.pow_le_pow_right (by decide) (hs.1 q hq)
      rw [pow_succ] at hle
      omega
    rw [List.foldl_cons, ih hs.2 hnext, ← Nat.or_two_pow_eq_add_of_lt hp, Nat.testBit_or, Nat.testBit_two_pow, List.find?_cons]
    by_cases hk : p.1 = k
    · simp [hk]
    · simp [hk, beq_false_of_ne hk]

section
variable (r : Tile) (bs : BitVec 4) (o : BitVec 5)

theorem gatherLanes_sorted : (gatherLanes r bs o).Pairwise fun p q => p.1 < q.1 := by
  refine List.Pairwise.filterMap (S := fun p q : Nat × Nat => p.1 < q.1) _ (fun a a' hlt b hb b' hb' => ?_) List.pairwise_lt_range
  dsimp only at hb hb'
  split at hb
  · cases hb
  · split at hb'
    · cases hb'
    · cases hb
      cases hb'
      exact hlt

/-- The entry of a lane: none where the sign bit of its index is set. -/
theorem find?_gatherLanes {k : Nat} (hk : k < 16) : ((gatherLanes r bs o).find? fun p => p.1 == k) =
    if (laneWord r o k).getLsbD 31 then none else some (k, (r.ra bs + laneWord r o k).toNat) := by
  rw [gatherLanes, find?_filterMap_upTo, if_pos hk]
  · rfl
  · intro i p hp
    dsimp only at hp
    split at hp
    · cases hp
    · cases hp
      rfl

/-- The mask of a gather has the bits of its active lanes. -/
theorem getLsbD_laneMask {k : Nat} (hk : k < 16) : (laneMask (gatherLanes r bs o)).getLsbD k = !(laneWord r o k).getLsbD 31 := by
  rw [laneMask, BitVec.getLsbD_ofNat, testBit_foldl_two_pow (gatherLanes_sorted r bs o) (fun _ _ => Nat.two_pow_pos _),
    find?_gatherLanes r bs o hk, decide_eq_true hk, Nat.zero_testBit]
  cases (laneWord r o k).getLsbD 31 <;> rfl

end

theorem rotV_lt {rrb r : Nat} : rotV rrb r < 28 := by
  unfold rotV rotate
  split
  · omega
  · have hmod := Nat.mod_lt (r - 12 + rrb) (show 0 < 16 by decide)
    omega

theorem lane_vreg (f : Nat → Word) {k : Nat} (hk : k < 16) : lane (vreg f) k = f k := by
  simp [lane, vreg, hk]

/-- A masked write changes the lanes of its mask. -/
theorem lane_getV_put_vMask (f : Files) {d : Nat} (m : BitVec 16) (x : VReg) {k : Nat} (hd : d < 28) (hk : k < 16) :
    lane ((f.put (.vMask d m x)).getV d) k = if m.getLsbD k then lane x k else lane (f.getV d) k := by
  simp [Files.put, Files.getV, lane, hd, hk]

/-! Rings. -/

theorem Tile.ring_withRing (t : Tile) {n : Nat} (hn : n < 8) (f : Ring → Ring) (m : Nat) :
    (t.withRing n f).ring m = if m = n then f (t.ring n) else t.ring m := by
  have hget : t.eng.rings[n]? = some t.eng.rings[n] := Vector.getElem?_eq_getElem hn
  unfold Tile.withRing
  rw [hget]
  by_cases hm : m = n
  · subst hm
    simp [Tile.ring, hn]
  · simp [Tile.ring, hm, Ne.symm hm]

/-- A change of a ring changes only the engines of a tile. -/
theorem Tile.withRing_eq (t : Tile) (n : Nat) (f : Ring → Ring) : ∃ e, t.withRing n f = t.withEng fun _ => e := by
  unfold Tile.withRing
  split
  · exact ⟨_, rfl⟩
  · exact ⟨t.eng, rfl⟩

/-! The statement. -/

theorem Check.all_cons_ok (l : List Check) : Check.all (.ok :: l) = Check.all l := rfl

theorem loadTakes_of_ne {q : BitVec 2} (hq : q ≠ 2#2) (l : List Item) : loadTakes q l = [] := if_neg hq

section
variable {s : State} {g : BitVec 3} (hs : s.Ready g) (tag : BitVec 3)
include hs

theorem State.Ready.alloc_closing : (s.core.allocTag tag).sch.closing = [] := by
  rw [Tile.allocTag_eq]; exact hs.between.noClosing

theorem State.Ready.alloc_status : (s.core.allocTag tag).sch.status = .running := by
  rw [Tile.allocTag_eq]; exact hs.between.running

theorem State.Ready.alloc_recs : (s.core.allocTag tag).recs = [] := by
  rw [Tile.allocTag_recs]; exact hs.between.noReports

end

theorem Tile.byteAt_allocTag (t : Tile) (tag : BitVec 3) (a : Nat) : (t.allocTag tag).byteAt a = t.byteAt a :=
  Tile.byteAt_congr (by simp) (by simp) (by simp) a

@[simp] theorem Tile.allocTag_flights (t : Tile) (tag : BitVec 3) : (t.allocTag tag).sch.flights = t.sch.flights := by
  rw [Tile.allocTag_eq]; rfl

@[simp] theorem Tile.allocTag_cycle (t : Tile) (tag : BitVec 3) : (t.allocTag tag).sch.cycle = t.sch.cycle := by
  rw [Tile.allocTag_eq]; rfl

/-- The state after a load that puts one result in flight. -/
theorem exists_flight {i : Instr} {s : State} {t : Tile} {f : Flight}
    (hissue : Issues i s (t.withSch fun c => { c with flights := c.flights ++ [f] })) (hcl : t.sch.closing = [])
    (hfl : t.sch.flights = s.core.sch.flights) :
    ∃ u, exec i s = .next u ∧ u.core.sch.flights = s.core.sch.flights ++ [f] ∧ u.core.files = t.files ∧ u.core.pad = t.pad ∧
      u.core.eng = t.eng := by
  have hclose : (t.withSch fun c => { c with flights := c.flights ++ [f] }).bump.sch.closing = [] := hcl
  refine ⟨_, hissue, ?_, Tile.close_files _ hclose, Tile.close_pad _ hclose, Tile.close_eng _ hclose⟩
  rw [State.after_core, Tile.close_flights _ hclose, ← hfl]
  rfl

/-- What a gather writes in a lane: the word at its address where it is active, and else what it held (R240). -/
theorem lane_gather (t : Tile) (bs : BitVec 4) (o d : BitVec 5) {k : Nat} (hk : k < 16) :
    lane ((t.files.putAll (LoadPlan.writes t (.gather (gatherLanes t bs o) (rotV t.ctl.rrb d.toNat))).1).getV
      (rotV t.ctl.rrb d.toNat)) k =
      if (laneWord t o k).getLsbD 31 then laneWord t d k else BitVec.ofNat 32 (t.valAt (t.ra bs + laneWord t o k).toNat 4) := by
  show lane ((t.files.put (.vMask _ _ _)).getV _) k = _
  rw [lane_getV_put_vMask _ _ _ rotV_lt hk, getLsbD_laneMask _ _ _ hk, lane_vreg _ hk, find?_gatherLanes _ _ _ hk]
  cases (laneWord t o k).getLsbD 31 <;> rfl

/-! The ring slot that a tile load fills. -/

/-- The tile whose load has reserved the slot of a ring that it fills (R242). -/
def Tile.reserveRef (t : Tile) : TileRef → Tile
  | .ring n => t.withRing n.toNat Ring.reserve
  | .tile _ => t

/-- The slot that a tile load fills: of its ring, the one at the producer pointer. -/
def Tile.putSlot (t : Tile) : TileRef → Option (Nat × Nat)
  | .ring n => some (n.toNat, (t.ring n.toNat).pptr % ((t.ring n.toNat).sizem1 + 1))
  | .tile _ => none

theorem Tile.reserveRef_eq (t : Tile) (r : TileRef) : ∃ e, t.reserveRef r = t.withEng fun _ => e := by
  cases r with
  | tile k => exact ⟨t.eng, rfl⟩
  | ring n => exact t.withRing_eq _ _

theorem Tile.ring_reserveRef_same {t : Tile} {r : TileRef} {g : BitVec 3} (hr : r = .ring g) :
    (t.reserveRef r).ring g.toNat = (t.ring g.toNat).reserve := by
  subst hr
  exact (t.ring_withRing g.isLt _ _).trans (if_pos rfl)

theorem Tile.ring_reserveRef_other {t : Tile} {r : TileRef} {g : BitVec 3} (hr : r ≠ .ring g) :
    (t.reserveRef r).ring g.toNat = t.ring g.toNat := by
  cases r with
  | tile k => rfl
  | ring n => exact (t.ring_withRing n.isLt _ _).trans (if_neg fun h => hr (by rw [BitVec.eq_of_toNat_eq h]))

/-- What an LDT that passes its checks behind no queued access issues with (R241, R242). -/
theorem issues_ldt {s : State} {h : Hdr} {r : TileRef} {bs : BitVec 4} {o : Imm 4 32} {col : Bool} {q : BitVec 2} {t : BitVec 3}
    (hs : s.Ready h.guard) (ht : s.core.tagFree t = true) (hp : s.core.pad.queue = [])
    (htile : tileCheck s.core true r col (eaLt s.core bs o) = .ok)
    (hacc : accessCheck s.core .wideLoad 64 .spalign (q != 0#2)
      [imageItem (eaLt s.core bs o) (s.core.tshOf (s.core.refReg true r)) col] = .ok)
    (hqual : loadQual s.core q [imageItem (eaLt s.core bs o) (s.core.tshOf (s.core.refReg true r)) col] = .ok)
    (hrd : s.core.waitsRead s.core.sch.seq r (s.core.refReg true r) = false)
    (hwr : s.core.waitsWrite s.core.sch.seq r (s.core.refReg true r) = false)
    (hput : ∀ g, r = .ring g → (s.core.ring g.toNat).canPut = true)
    (hread : s.core.Readable (imageAddrs (eaLt s.core bs o) (shapeOf (s.core.tshOf (s.core.refReg true r))) col)) :
    let sh := shapeOf (s.core.tshOf (s.core.refReg true r))
    let u := (s.core.allocTag t).reserveRef r
    Issues (.ldt h r bs o col q t) s ((u.withSch fun c => { c with flights := c.flights ++
      [u.loadFlight s.core.sch.seq (8 + sh.rows) t
        (.tile (eaLt s.core bs o) sh col (s.core.refReg true r) (s.core.putSlot r)) (s.core.slotInfo (.ldt h r bs o col q t) 0)] }).setEmpty
      (loadTakes q [imageItem (eaLt s.core bs o) (s.core.tshOf (s.core.refReg true r)) col])) := by
  intro sh u
  obtain ⟨e, he⟩ := (s.core.allocTag t).reserveRef_eq r
  have hpad : u.pad = s.core.pad := by simp only [u, he, Tile.withEng_pad, Tile.allocTag_pad]
  have hsch : u.sch = (s.core.allocTag t).sch := by simp only [u, he]; rfl
  have hseq : u.sch.seq = s.core.sch.seq := by rw [hsch, Tile.allocTag_eq]; rfl
  have hrecs : u.recs = [] := by simp only [u, he, Tile.withEng_recs]; exact hs.alloc_recs t
  refine issues_of_load hs rfl ?_ rfl ?_ (by rw [hpad, hp]) (by omega) (hread.congr hpad) (hsch ▸ hs.alloc_closing t)
    (hsch ▸ hs.alloc_status t) hrecs
  · rw [← hseq]
    cases r <;> rfl
  · simp only [Tile.needTag_free ht, htile, hacc, hqual, hrd, hwr, Check.all_cons_ok]
    cases r with
    | tile k => rfl
    | ring n => simp only [hput n rfl]; rfl

/-- Settles O19: each plan's writes are the words, widened elements, lanes or image bytes that it reads. -/
theorem wideLoads : Obligations.WideLoads := by
  refine ⟨?vec, ?gather, ?tile⟩
  case vec =>
    intro s h d bs o q t hs ht hp hq a dest w wide hacc hqual hread
    have hwide (k : Nat) : BitVec.ofNat 32 (widenBf16 (s.core.valAt (eaOf s.core 64 bs o + 2 * k) 2)) = wide k :=
      ofNat_widenBf16 (s.core.valAt_lt _ 2)
    constructor
    · have hrun := runSlot_semLoad (i := .ldv h d bs o q t) (lat := 5) (plan := fun r a => .vec a (rotV r.ctl.rrb d.toNat))
        hs ht hp hq hacc hqual (by decide) rfl hread
      rw [LoadPlan.writes_congr (s.core.byteAt_allocTag t)] at hrun
      exact hrun
    · have hrun := runSlot_semLoad (i := .ldvb h d bs o q t) (lat := 5)
        (plan := fun r a => .vecB a (rotV r.ctl.rrb d.toNat) (rotV r.ctl.rrb (d.toNat + 1)))
        hs ht hp hq hacc hqual (by decide) rfl hread
      rw [LoadPlan.writes_congr (s.core.byteAt_allocTag t)] at hrun
      simp only [LoadPlan.writes, hwide] at hrun
      exact hrun
  case gather =>
    intro s h d bs x q t hs ht hp hq l hacc hqual hread
    have hissue := issues_of_load (i := .ldvg h d bs x q t) (lat := 5 + gatherCycles l - 1)
      (plan := .gather l (rotV s.core.ctl.rrb d.toNat)) (t := s.core.allocTag t) hs rfl rfl rfl
      (by simp only [Tile.needTag_free ht, Check.all_cons_ok]; rw [hacc, hqual]; rfl) (by rw [Tile.allocTag_pad, hp]) (by omega)
      hread.alloc (hs.alloc_closing t) (hs.alloc_status t) (hs.alloc_recs t)
    rw [loadTakes_of_ne hq, Tile.setEmpty_nil] at hissue
    obtain ⟨u, hexec, hflights, hfiles, hpad, -⟩ := exists_flight hissue (hs.alloc_closing t) (Tile.allocTag_flights ..)
    refine ⟨u, _, hexec, hflights, ?_, rfl, hfiles.trans (Tile.allocTag_files ..), hpad.trans (Tile.allocTag_pad ..), fun k hk => ?_⟩
    · show (s.core.allocTag t).sch.cycle + (5 + gatherCycles l - 1) = _
      rw [Tile.allocTag_cycle]
      omega
    · show lane ((s.core.files.putAll (LoadPlan.writes (s.core.allocTag t) _).1).getV _) k = _
      rw [LoadPlan.writes_congr (s.core.byteAt_allocTag t)]
      exact lane_gather s.core bs x d hk
  case tile =>
    intro s h r bs o col q t hs ht hp hq a reg w n htile hacc hqual hrd hwr hput hread
    obtain ⟨e, he⟩ := (s.core.allocTag t).reserveRef_eq r
    have hbyte (x : Nat) : ((s.core.allocTag t).reserveRef r).byteAt x = s.core.byteAt x :=
      (Tile.byteAt_congr (by rw [he, Tile.withEng_pad]) (by rw [he, Tile.withEng_copy]) (by rw [he, Tile.withEng_outs]) x).trans
        (s.core.byteAt_allocTag t x)
    have hsch : ((s.core.allocTag t).reserveRef r).sch = (s.core.allocTag t).sch := by rw [he]; rfl
    have hissue := issues_ldt hs ht hp htile hacc hqual hrd hwr hput hread
    rw [loadTakes_of_ne hq] at hissue
    dsimp only [Tile.setEmpty_nil] at hissue
    obtain ⟨u, hexec, hflights, hfiles, hpad, heng⟩ := exists_flight hissue (hsch ▸ hs.alloc_closing t)
      (hsch ▸ Tile.allocTag_flights ..)
    have hring (m : Nat) : u.core.ring m = ((s.core.allocTag t).reserveRef r).ring m := by rw [Tile.ring, heng]; rfl
    have halloc (m : Nat) : (s.core.allocTag t).ring m = s.core.ring m := by rw [Tile.allocTag_eq]; rfl
    refine ⟨u, _, hexec, hflights, ?_, rfl, ?_, ?_, ?_, fun g hg => ?_, fun g hg => ?_⟩
    · show ((s.core.allocTag t).reserveRef r).sch.cycle + (8 + _) = _
      rw [hsch, Tile.allocTag_cycle, Nat.add_assoc]
    · rw [hfiles, he, Tile.withEng_files, Tile.allocTag_files]
    · rw [hpad, he, Tile.withEng_pad, Tile.allocTag_pad]
    · show (LoadPlan.writes ((s.core.allocTag t).reserveRef r) _).1 = _
      rw [LoadPlan.writes_congr hbyte]
      simp only [LoadPlan.writes, imageAddrs, List.map_map]
      rfl
    · rw [hring, Tile.ring_reserveRef_same hg, halloc]
    · rw [hring, Tile.ring_reserveRef_other hg, halloc]

end Sys2Proof.Machine
end

section
/-! SUPPORT. Sets of granules (R37): what is put in and taken out; loads that take their granules (R39, Table 02-3); and the statement
about them. -/

namespace Sys2Proof.Machine

/-! Sets of numbers. -/

theorem NatSet.mem_add (l : NatSet) (x y : Nat) : y ∈ NatSet.add l x ↔ y = x ∨ y ∈ l := by
  induction l with
  | nil => simp [NatSet.add]
  | cons a l ih =>
    rw [NatSet.add]
    split
    · simp
    · split
      · next h => simp [h]
      · rw [List.mem_cons, ih, List.mem_cons]
        tauto

theorem NatSet.mem_addAll (l : NatSet) (xs : List Nat) (y : Nat) : y ∈ NatSet.addAll l xs ↔ y ∈ xs ∨ y ∈ l := by
  induction xs generalizing l with
  | nil => simp [NatSet.addAll]
  | cons x xs ih =>
    have hstep : NatSet.addAll l (x :: xs) = NatSet.addAll (NatSet.add l x) xs := rfl
    rw [hstep, ih, NatSet.mem_add, List.mem_cons]
    tauto

theorem NatSet.has_addAll {l : NatSet} (h : NatSet.wf l = true) (xs : List Nat) (y : Nat) :
    (NatSet.addAll l xs).has y = (l.has y || decide (y ∈ xs)) := by
  induction xs generalizing l with
  | nil => simp [NatSet.addAll]
  | cons x xs ih =>
    have hstep : NatSet.addAll l (x :: xs) = NatSet.addAll (NatSet.add l x) xs := rfl
    rw [hstep, ih (NatSet.add_wf x h), NatSet.has_add h]
    by_cases hy : y = x <;> simp [hy]

theorem NatSet.has_delAll {l : NatSet} (h : NatSet.wf l = true) (xs : List Nat) (y : Nat) :
    (NatSet.delAll l xs).has y = (l.has y && !decide (y ∈ xs)) := by
  induction xs generalizing l with
  | nil => simp [NatSet.delAll]
  | cons x xs ih =>
    have hstep : NatSet.delAll l (x :: xs) = NatSet.delAll (NatSet.del l x) xs := rfl
    rw [hstep, ih (NatSet.del_wf x h), NatSet.has_del h]
    by_cases hy : y = x <;> simp [hy]

/-! The granules of items. -/

theorem mem_granSet (l : List Nat) (g : Nat) : g ∈ granSet l ↔ ∃ a ∈ l, a / 16 = g := by
  simp [granSet, NatSet.mem_addAll]

theorem mem_itemOf (a n x : Nat) : x ∈ (itemOf a n).bytes ↔ ∃ j < n, a + j = x := by
  simp [itemOf, upTo]

theorem mem_itemGrans (l : List Item) (g : Nat) : g ∈ itemGrans l ↔ ∃ x ∈ l, ∃ a ∈ x.bytes, a / 16 = g := by
  simp only [itemGrans, mem_granSet, List.mem_flatMap]
  constructor
  · rintro ⟨a, ⟨x, hx, ha⟩, hg⟩
    exact ⟨x, hx, a, ha, hg⟩
  · rintro ⟨x, hx, a, ha, hg⟩
    exact ⟨a, ⟨x, hx, ha⟩, hg⟩

/-- The granules of one item are those from its first byte's to its last. -/
theorem mem_itemGrans_itemOf {a n : Nat} (hn : 0 < n) (g : Nat) :
    g ∈ itemGrans [itemOf a n] ↔ a / 16 ≤ g ∧ g ≤ (a + n - 1) / 16 := by
  simp only [mem_itemGrans, List.mem_singleton, exists_eq_left, mem_itemOf]
  constructor
  · rintro ⟨_, ⟨j, hj, rfl⟩, rfl⟩
    omega
  · rintro ⟨hlo, hhi⟩
    exact ⟨_, ⟨16 * g - a, by omega, rfl⟩, by omega⟩

/-- The granules of aligned words are those of their first bytes. -/
theorem mem_itemGrans_gather {l : List (Nat × Nat)} (hl : ∀ x ∈ gatherItems l, x.a % 4 = 0) (g : Nat) :
    g ∈ itemGrans (gatherItems l) ↔ ∃ p ∈ l, p.2 / 16 = g := by
  rw [mem_itemGrans]
  constructor
  · rintro ⟨_, hx, a, ha, rfl⟩
    obtain ⟨p, hp, rfl⟩ := List.mem_map.mp hx
    obtain ⟨j, hj, rfl⟩ := (mem_itemOf _ _ _).mp ha
    have h4 : p.2 % 4 = 0 := hl _ hx
    exact ⟨p, hp, by omega⟩
  · rintro ⟨p, hp, rfl⟩
    exact ⟨_, List.mem_map.mpr ⟨p, hp, rfl⟩, _, (mem_itemOf _ _ _).mpr ⟨0, by decide, rfl⟩, rfl⟩

/-- Checks that all pass: the first of them passes. -/
theorem Check.ok_of_all_cons {c : Check} {l : List Check} (h : Check.all (c :: l) = .ok) : c = .ok := by
  cases c with
  | ok => rfl
  | early st => exact h
  | late st => exact h
  | raise x fa inf fr => exact h

/-- A check that no item fails. -/
theorem failing_eq_ok {l : List Item} {f : Item → Option Cause} (h : failing l f = .ok) : ∀ x ∈ l, f x = none := by
  intro x hx
  unfold failing at h
  split at h
  · cases h
  · next hnone => simpa using List.findSome?_eq_none_iff.mp hnone x hx

/-- An access that passes its checks is of aligned items. -/
theorem aligned_of_accessCheck {t : Tile} {k : AKind} {q : Bool} {n : Nat} {alc : Cause} {l : List Item}
    (h : accessCheck t k n alc q l = .ok) (x : Item) (hx : x ∈ l) : x.a % n = 0 := by
  by_contra ha
  have hx' := failing_eq_ok (Check.ok_of_all_cons h) x hx
  rw [if_neg ha] at hx'
  cases hx'

/-- A load that takes its granules leaves its tile's bytes and empties those granules. -/
theorem empties_of_load {i : Instr} {s : State} {t : Tile} {f : Flight} {take : List Nat} {p : Nat → Bool}
    (hissue : Issues i s ((t.withSch fun c => { c with flights := c.flights ++ [f] }).setEmpty take)) (hcl : t.sch.closing = [])
    (hfiles : t.files = s.core.files) (hpad : t.pad = s.core.pad) (hwf : NatSet.wf s.core.pad.full = true)
    (hp : ∀ g, g ∈ take ↔ p g = true) :
    ∃ u, exec i s = .next u ∧ u.core.files = s.core.files ∧ u.core.pad.mem = s.core.pad.mem ∧
      ∀ g, u.core.pad.full.has g = (s.core.pad.full.has g && !p g) := by
  have hclose : ((t.withSch fun c => { c with flights := c.flights ++ [f] }).setEmpty take).bump.sch.closing = [] := by
    rw [Tile.bump_sch, Tile.setEmpty_sch]
    exact hcl
  have hpad' : (s.after i ((t.withSch fun c => { c with flights := c.flights ++ [f] }).setEmpty take)).core.pad =
      { s.core.pad with full := NatSet.delAll s.core.pad.full take } := by
    rw [State.after_core, Tile.close_pad _ hclose, Tile.bump_pad, Tile.setEmpty_pad, Tile.withSch_pad, hpad]
  refine ⟨_, hissue, ?_, by rw [hpad'], fun g => ?_⟩
  · rw [State.after_core, Tile.close_files _ hclose, Tile.bump_files, Tile.setEmpty_files, Tile.withSch_files, hfiles]
  · rw [hpad', NatSet.has_delAll hwf]
    by_cases hg : g ∈ take
    · simp [hg, (hp g).mp hg]
    · simp [hg, Bool.eq_false_iff.mpr fun h => hg ((hp g).mpr h)]

/-- A load of one item with the qualifier that takes its granules. -/
theorem empties_of_semLoad {i : Instr} {h : Hdr} {s : State} {kind : AKind} {size lat : Nat} {plan : Tile → Nat → LoadPlan}
    {bs : BitVec 4} {o : Imm 5 32} {t : BitVec 3} (hs : s.Ready h.guard) (ht : s.core.tagFree t = true)
    (hp : s.core.pad.queue = []) (hwf : NatSet.wf s.core.pad.full = true) (hn : 0 < size) (hl : 1 ≤ lat)
    (he : exec i s = runSlot i h (semLoad kind size lat plan bs o 2#2 t) s)
    (hplan : (plan s.core (eaOf s.core size bs o)).addrs = (upTo size).map (eaOf s.core size bs o + ·))
    (hmay : accessCheck s.core kind size .spalign true [itemOf (eaOf s.core size bs o) size] = .ok ∧
      loadQual s.core 2#2 [itemOf (eaOf s.core size bs o) size] = .ok ∧
      s.core.Readable ((upTo size).map (eaOf s.core size bs o + ·))) :
    ∃ u, exec i s = .next u ∧ u.core.files = s.core.files ∧ u.core.pad.mem = s.core.pad.mem ∧
      ∀ g, u.core.pad.full.has g = (s.core.pad.full.has g && !(decide (eaOf s.core size bs o / 16 ≤ g) &&
        decide (g ≤ (eaOf s.core size bs o + size - 1) / 16))) := by
  obtain ⟨hacc, hqual, hread⟩ := hmay
  have hissue := issues_of_load (plan := plan s.core (eaOf s.core size bs o)) (t := s.core.allocTag t) hs he
    rfl rfl
    (by
      show Check.all [_, accessCheck s.core kind size .spalign true _, _] = _
      rw [Tile.needTag_free ht, hacc, hqual]
      rfl)
    (by rw [Tile.allocTag_pad, hp]) hl (hplan ▸ hread.alloc) (hs.alloc_closing t) (hs.alloc_status t) (hs.alloc_recs t)
  refine empties_of_load hissue (hs.alloc_closing t) (Tile.allocTag_files ..) (Tile.allocTag_pad ..) hwf fun g => ?_
  rw [loadTakes, if_pos rfl, mem_itemGrans_itemOf hn, Bool.and_eq_true, decide_eq_true_iff, decide_eq_true_iff]

/-- Settles O20: whatever its plan, a load with the qualifier empties the granules of its items. -/
theorem granulesTaken : Obligations.GranulesTaken := by
  intro s h d x bs o o' r col t hs ht hp hwf a may empties takes l reg img
  refine ⟨fun hmay => ⟨?_, ?_⟩, fun hmay => ⟨?_, ?_⟩, fun hmay => ?_, fun hmay => ⟨?_, ?_⟩, fun hacc hqual hread => ?gather,
    fun htile hacc hqual hrd hwr hput hread => ?tile⟩
  case gather =>
    have hissue := issues_of_load (i := .ldvg h d bs x 2#2 t) (lat := 5 + gatherCycles l - 1)
      (plan := .gather l (rotV s.core.ctl.rrb d.toNat)) (t := s.core.allocTag t) hs rfl rfl rfl
      (by
        show Check.all [_, accessCheck s.core .wideLoad 4 .spalign true _, _] = _
        rw [Tile.needTag_free ht, hacc, hqual]
        rfl)
      (by rw [Tile.allocTag_pad, hp]) (by omega) hread.alloc (hs.alloc_closing t) (hs.alloc_status t) (hs.alloc_recs t)
    refine empties_of_load hissue (hs.alloc_closing t) (Tile.allocTag_files ..) (Tile.allocTag_pad ..) hwf fun g => ?_
    rw [loadTakes, if_pos rfl, mem_itemGrans_gather (aligned_of_accessCheck hacc)]
    simp
  case tile =>
    obtain ⟨e, he⟩ := (s.core.allocTag t).reserveRef_eq r
    have hissue := issues_ldt (q := 2#2) hs ht hp htile hacc hqual hrd hwr hput hread
    refine empties_of_load hissue ?_ ?_ ?_ hwf fun g => ?_
    · rw [he]; exact hs.alloc_closing t
    · rw [he, Tile.withEng_files, Tile.allocTag_files]
    · rw [he, Tile.withEng_pad, Tile.allocTag_pad]
    · rw [loadTakes, if_pos rfl, mem_itemGrans]
      simp [imageItem, img, reg]
  all_goals exact empties_of_semLoad hs ht hp hwf (by decide) (by decide) rfl rfl hmay

end Sys2Proof.Machine
end

section
/-! SUPPORT. Stores enter the store queue with their cells and the granules they fill (R236 to R242, R255); and the statements about
scalar and wide stores. -/

namespace Sys2Proof.Machine

/-! Cells of runs of bytes. -/

/-- The cells of a run, by the position of each byte. -/
theorem runCells_eq_map {a n : Nat} {l : List Byte} {f : Nat → Byte} (hn : l.length = n) (hf : ∀ k, k < n → l[k]? = some (f k)) :
    runCells a l = (upTo n).map fun k => (a + k, f k) := by
  subst hn
  refine List.ext_getElem? fun k => ?_
  by_cases hk : k < l.length
  · have hfk := hf k hk
    rw [List.getElem?_eq_getElem hk] at hfk
    simp [runCells, upTo, hk, Option.some.inj hfk]
  · simp [runCells, upTo, hk]

theorem runCells_valBytes (a n v : Nat) : runCells a (valBytes n v) = (upTo n).map fun k => (a + k, BitVec.ofNat 8 (v / 256 ^ k)) :=
  runCells_eq_map (valBytes_length n v) fun _ hk => valBytes_getElem? v hk

/-- A list built from pieces of one length, by the piece and the place in it. -/
theorem getElem?_flatMap_const {α β : Type} {f : α → List β} {n : Nat} (hn : 0 < n) (hf : ∀ x, (f x).length = n) (l : List α) (k : Nat) :
    (l.flatMap f)[k]? = l[k / n]?.bind fun x => (f x)[k % n]? := by
  induction l generalizing k with
  | nil => simp
  | cons x l ih =>
    rw [List.flatMap_cons]
    rcases Nat.lt_or_ge k n with hlt | hge
    · rw [List.getElem?_append_left (by rw [hf]; exact hlt), Nat.div_eq_of_lt hlt, Nat.mod_eq_of_lt hlt]
      rfl
    · obtain ⟨j, rfl⟩ := Nat.exists_eq_add_of_le hge
      rw [List.getElem?_append_right (by rw [hf]; omega), hf, Nat.add_sub_cancel_left, ih, Nat.add_div_left _ hn, Nat.add_mod_left]
      rfl

/-- The bytes of a v register, lane by lane, little-endian. -/
theorem vBytes_getElem? (v : VReg) {k : Nat} (hk : k < 64) :
    (vBytes v)[k]? = some (BitVec.ofNat 8 ((lane v (k / 4)).toNat / 256 ^ (k % 4))) := by
  have hlane : k / 4 < 16 := by omega
  rw [vBytes, getElem?_flatMap_const (f := wordBytes) (n := 4) (by decide) fun w => valBytes_length 4 w.toNat]
  have hget : v.toList[k / 4]? = some (lane v (k / 4)) := by
    simp [lane, hlane]
  rw [hget]
  exact valBytes_getElem? _ (Nat.mod_lt _ (by decide))

theorem vBytes_length (v : VReg) : (vBytes v).length = 64 := by
  simp [vBytes, wordBytes]

theorem runCells_vBytes (t : Tile) (d : BitVec 5) (a : Nat) : runCells a (vBytes (t.rv d.toNat)) =
    (upTo 64).map fun k => (a + k, BitVec.ofNat 8 ((laneWord t d (k / 4)).toNat / 256 ^ (k % 4))) :=
  runCells_eq_map (vBytes_length _) fun _ hk => vBytes_getElem? _ hk

/-! The granules that a store fills. -/

theorem NatSet.pairwise_of_wfFrom {l : NatSet} {lo : Nat} (h : NatSet.wfFrom lo l = true) :
    l.Pairwise (· < ·) ∧ ∀ x ∈ l, lo ≤ x := by
  induction l generalizing lo with
  | nil => simp
  | cons a l ih =>
    simp only [NatSet.wfFrom, Bool.and_eq_true, decide_eq_true_eq] at h
    obtain ⟨hs, hlo⟩ := ih h.2
    refine ⟨List.pairwise_cons.mpr ⟨fun x hx => hlo x hx, hs⟩, fun x hx => ?_⟩
    rcases List.mem_cons.mp hx with rfl | hx
    · exact h.1
    · exact le_trans h.1 (le_trans (Nat.le_succ a) (hlo x hx))

theorem granSet_sorted (l : List Nat) : (granSet l).Pairwise (· < ·) :=
  (NatSet.pairwise_of_wfFrom (NatSet.addAll_wf (l := []) _ rfl)).1

/-- The granules of one item as a run. -/
theorem itemGrans_itemOf {a n : Nat} (hn : 0 < n) : itemGrans [itemOf a n] = granules a n := by
  have hrun : (granules a n).Pairwise (· < ·) := by
    rw [granules, if_neg (by omega), upTo, List.pairwise_map]
    exact List.pairwise_lt_range.imp fun h => by omega
  refine (granSet_sorted _).eq_of_mem_iff hrun fun g => ?_
  have hmem := mem_itemGrans_itemOf (a := a) hn g
  rw [itemGrans] at hmem
  rw [hmem, granules, if_neg (by omega)]
  simp only [upTo, List.mem_map, List.mem_range]
  constructor
  · rintro ⟨hlo, hhi⟩
    exact ⟨g - a / 16, by omega, by omega⟩
  · rintro ⟨j, hj, rfl⟩
    omega

/-! Stores. -/

/-- A store enters the queue. -/
theorem Tile.portA_store {t : Tile} {act : PortAct} (i : Instr) (ha : act.isStore = true) :
    t.portA t.sch.seq act 0 (t.slotInfo i 0) = t.queued 0#3 act 0 i :=
  Tile.portA_later (.inl ha)

/-- A slot whose effect is a store. -/
theorem issues_of_store {i : Instr} {h : Hdr} {s : State} {act : PortAct} (sem : SlotInfo → Sem) (hs : s.Ready h.guard)
    (he : exec i s = runSlot i h sem s)
    (ht : (sem (s.core.slotInfo i 0)).eff s.core s.core = s.core.portA s.core.sch.seq act 0 (s.core.slotInfo i 0))
    (henc : (sem (s.core.slotInfo i 0)).enc s.core = true)
    (hchk : (sem (s.core.slotInfo i 0)).check s.core = .ok) (ha : act.isStore = true) : Issues i s (s.core.queued 0#3 act 0 i) :=
  issues_of_effect sem hs he (ht.trans (Tile.portA_store i ha)) henc hchk hs.between.noClosing hs.between.running hs.between.noReports

theorem storeFills_itemOf {a n : Nat} (q : BitVec 2) (hn : 0 < n) :
    storeFills q [itemOf a n] = if q = 0#2 then [] else granules a n := by
  rw [storeFills, itemGrans_itemOf hn]

/-- A store of the low bytes of a register that passes its checks outside the copy aperture. -/
theorem issues_of_semSt {i : Instr} {h : Hdr} {s : State} {kind : AKind} {size : Nat} {d : BitVec 5} {bs : BitVec 4} {o : Imm 5 32}
    {q : BitVec 2} (hs : s.Ready h.guard) (he : exec i s = runSlot i h (semSt kind size d bs o q) s) (hn : 0 < size)
    (hmay : accessCheck s.core kind size .spalign (q != 0#2) [itemOf (eaOf s.core size bs o) size] = .ok ∧
      storeQual s.core q [itemOf (eaOf s.core size bs o) size] = .ok ∧ rangeOf (eaOf s.core size bs o) ≠ .aperture) :
    Issues i s (s.core.queued 0#3 (.store ((upTo size).map fun k =>
      (eaOf s.core size bs o + k, BitVec.ofNat 8 ((s.core.rs d).toNat / 256 ^ k)))
      (if q = 0#2 then [] else granules (eaOf s.core size bs o) size)) 0 i) := by
  obtain ⟨hacc, hqual, hrange⟩ := hmay
  rw [← runCells_valBytes, ← storeFills_itemOf q hn]
  refine issues_of_store _ hs he ?_ rfl ?_ rfl
  · simp only [semSt, if_neg hrange]
  · simp only [semSt, hacc, if_neg hrange, hqual, Check.all]

/-- Settles O21: a store's cells are its bytes one by one; at the aperture the queued store is a copy's start. -/
theorem scalarStores : Obligations.ScalarStores := by
  constructor
  · intro s h d bs o q hs a may put low
    refine ⟨issues_of_semSt hs rfl (by decide), issues_of_semSt hs rfl (by decide), issues_of_semSt hs rfl (by decide), ?_⟩
    rintro ⟨hacc, hqual, -⟩
    simp only [put]
    rw [← storeFills_itemOf q (by decide), ← runCells_vBytes]
    refine issues_of_store _ hs rfl rfl rfl ?_ rfl
    simp only [a] at hacc hqual
    simp only [hacc, hqual, Check.all]
  · intro s h d bs o hs a ch hlo hhi hal hidx hhalt hroom hopen
    have hrange : rangeOf (eaOf s.core 4 bs o) = .aperture := rangeOf_aperture hlo hhi
    have hpad : ¬ (((0#2 : BitVec 2) != 0#2) = true ∧ padSize ≤ eaOf s.core 4 bs o) := by simp
    have hacc : accessCheck s.core .storeW 4 .spalign ((0#2 : BitVec 2) != 0#2) [itemOf (eaOf s.core 4 bs o) 4] = .ok := by
      rw [accessCheck_aligned (by decide) (by omega), hrange, if_neg (by decide), if_neg hpad]
      simp only [refusal, if_pos (show eaOf s.core 4 bs o % 8 = 0 from hal)]
    have hhalt' : s.core.chHalted ((eaOf s.core 4 bs o - 0x50000) / 8) = false := hhalt
    have hstart : startCheck s.core (eaOf s.core 4 bs o) (s.core.rs d) = .ok := by
      simp only [startCheck, need_of_true (decide_eq_true hidx), hhalt', need_of_true hroom, waitFor]
      rw [if_pos (decide_eq_true hopen)]
      rfl
    refine issues_of_store _ hs rfl ?_ rfl ?_ rfl
    · simp only [semSt, if_pos hrange]
      rfl
    · simp only [semSt, hacc, if_pos hrange, hstart, Check.all]

/-! Wide stores. -/

/-- The tile whose store has freed the slot of a ring that it reads (R242). -/
def Tile.takeRef (t : Tile) : TileRef → Tile
  | .ring n => t.withRing n.toNat Ring.take
  | .tile _ => t

theorem Tile.takeRef_eq (t : Tile) (r : TileRef) : ∃ e, t.takeRef r = t.withEng fun _ => e := by
  cases r with
  | tile k => exact ⟨t.eng, rfl⟩
  | ring n => exact t.withRing_eq _ _

theorem Tile.ring_takeRef_same {t : Tile} {r : TileRef} {g : BitVec 3} (hr : r = .ring g) :
    (t.takeRef r).ring g.toNat = (t.ring g.toNat).take := by
  subst hr
  exact (t.ring_withRing g.isLt _ _).trans (if_pos rfl)

theorem Tile.ring_takeRef_other {t : Tile} {r : TileRef} {g : BitVec 3} (hr : r ≠ .ring g) :
    (t.takeRef r).ring g.toNat = t.ring g.toNat := by
  cases r with
  | tile k => rfl
  | ring n => exact (t.ring_withRing n.isLt _ _).trans (if_neg fun h => hr (by rw [BitVec.eq_of_toNat_eq h]))

/-- What an STT that passes its checks issues with (R241, R242). -/
theorem issues_stt {s : State} {h : Hdr} {r : TileRef} {bs : BitVec 4} {o : Imm 4 32} {col : Bool} {q : BitVec 2}
    (hs : s.Ready h.guard)
    (htile : tileCheck s.core false r col (eaLt s.core bs o) = .ok)
    (hacc : accessCheck s.core .wideStore 64 .spalign (q != 0#2)
      [imageItem (eaLt s.core bs o) (s.core.tshOf (s.core.refReg false r)) col] = .ok)
    (hqual : storeQual s.core q [imageItem (eaLt s.core bs o) (s.core.tshOf (s.core.refReg false r)) col] = .ok)
    (htake : ∀ g, r = .ring g → (s.core.ring g.toNat).canTake = true) :
    let w := s.core.tshOf (s.core.refReg false r)
    Issues (.stt h r bs o col q) s ((s.core.takeRef r).queued 0#3
      (.store ((imageAddrs (eaLt s.core bs o) (shapeOf w) col).zip
        (s.core.files.getT (s.core.refReg false r) ((shapeOf w).rows * (shapeOf w).rowBytes)))
        (storeFills q [imageItem (eaLt s.core bs o) w col])) 0 (.stt h r bs o col q)) := by
  intro w
  obtain ⟨e, he⟩ := s.core.takeRef_eq r
  refine issues_of_effect _ hs rfl ?_ rfl ?_ ?_ ?_ ?_
  · rw [← Tile.portA_store (t := s.core.takeRef r) (.stt h r bs o col q) rfl]
    have hinfo : (s.core.takeRef r).slotInfo (.stt h r bs o col q) 0 = s.core.slotInfo (.stt h r bs o col q) 0 := by rw [he]; rfl
    rw [hinfo]
    cases r <;> rfl
  · simp only [htile, hacc, hqual, Check.all_cons_ok]
    cases r with
    | tile k => rfl
    | ring n => simp only [htake n rfl]; rfl
  · rw [he]; exact hs.between.noClosing
  · rw [he]; exact hs.between.running
  · rw [he]; exact hs.between.noReports

/-- The state after a slot whose access waits in the queue. -/
theorem exists_queued {i : Instr} {s : State} {t : Tile} {tag : BitVec 3} {act : PortAct} {delay : Nat}
    (hissue : Issues i s (t.queued tag act delay i)) (hcl : t.sch.closing = []) :
    ∃ u, exec i s = .next u ∧ u.core.files = t.files ∧ u.core.pad.mem = t.pad.mem ∧ u.core.eng = t.eng ∧
      ∃ e, u.core.pad.queue = t.pad.queue ++ [e] ∧ e.at_ = t.sch.cycle + delay ∧ e.act = act := by
  have hclose : (t.queued tag act delay i).bump.sch.closing = [] := hcl
  have hpad : (s.after i (t.queued tag act delay i)).core.pad = (t.queued tag act delay i).pad := Tile.close_pad _ hclose
  exact ⟨_, hissue, Tile.close_files _ hclose, by rw [hpad]; rfl, Tile.close_eng _ hclose, _, by rw [hpad]; rfl, rfl, rfl⟩

/-- Settles O22: a scatter's cells lane by lane, and an image's byte by byte. -/
theorem wideStores : Obligations.WideStores := by
  intro s h d x r bs o col q hs l a reg sh img
  refine ⟨fun hacc hqual => ?_, fun htile hacc hqual htake => ?_⟩
  · have hcells : (l.flatMap fun p => (upTo 4).map fun k =>
        (p.2 + k, BitVec.ofNat 8 ((laneWord s.core d p.1).toNat / 256 ^ k))) =
        l.flatMap fun p => runCells p.2 (wordBytes (lane (s.core.rv d.toNat) p.1)) :=
      List.flatMap_congr fun p _ => (runCells_valBytes _ _ _).symm
    rw [hcells]
    refine issues_of_store _ hs rfl rfl rfl ?_ rfl
    simp only [l] at hacc hqual
    simp only [hacc, hqual, Check.all]
  · obtain ⟨e, he⟩ := s.core.takeRef_eq r
    have hissue := issues_stt hs htile hacc hqual htake
    obtain ⟨u, hexec, hfiles, hmem, heng, x, hqueue, hat, hact⟩ := exists_queued hissue (by rw [he]; exact hs.between.noClosing)
    have hring (m : Nat) : u.core.ring m = (s.core.takeRef r).ring m := by rw [Tile.ring, heng]; rfl
    rw [he] at hfiles hmem hqueue hat
    exact ⟨u, hexec, hfiles, hmem, ⟨x, hqueue, hat, hact⟩, fun g hg => (hring _).trans (Tile.ring_takeRef_same hg),
      fun g hg => (hring _).trans (Tile.ring_takeRef_other hg)⟩

end Sys2Proof.Machine
end

section
/-! SUPPORT. Evaluations at a bank behind no queued access (R246 to R253): atomics, barrier objects and granules; and the statements about
them. -/

namespace Sys2Proof.Machine

/-! The addresses of an evaluation lie in scratchpad. -/

theorem refusal_eval {tm : Bool} {a : Nat} {r : SpRange} (h : refusal .eval tm a r = none) : r = .general ∨ r = .carve := by
  cases r with
  | general => exact .inl rfl
  | carve => exact .inr rfl
  | fe => cases h
  | aperture => cases h
  | route => cases h
  | none => cases h

theorem lt_padSize_of_rangeOf {a : Nat} (h : rangeOf a = .general ∨ rangeOf a = .carve) : a < padSize := by
  by_contra hge
  simp only [padSize] at hge
  rw [rangeOf, carveOut, padSize, if_neg (by omega), if_neg (by omega)] at h
  split at h
  · simp at h
  · split at h
    · simp at h
    · split at h <;> simp at h

/-- An evaluation that passes its checks is of bytes of scratchpad. -/
theorem lt_padSize_of_eval {t : Tile} {n a : Nat} {alc : Cause} {q : Bool} (hn : n ∈ [1, 2, 4, 16, 64])
    (h : accessCheck t .eval n alc q [itemOf a n] = .ok) : ∀ x ∈ (upTo n).map (a + ·), x < padSize := by
  have ha : a % n = 0 := aligned_of_accessCheck h _ List.mem_cons_self
  rw [accessCheck_aligned hn ha] at h
  split at h
  · cases h
  · split at h
    · cases h
    · split at h
      · cases h
      · next href =>
        intro x hx
        refine lt_padSize_of_rangeOf ?_
        rw [rangeOf_itemOf hn ha hx]
        exact refusal_eval href

/-! Results that a bank access puts in flight. -/

/-- A bank access performed in its own cycle puts its result in flight behind its tag's allocation. -/
theorem Tile.launchFlight_allocTag (t : Tile) (i : Instr) (act : PortAct) {tag : BitVec 3} {lat kind : Nat} (ws : List RegWrite) (opy : Word)
    (hl : 1 ≤ lat) :
    (t.allocTag tag).launchFlight ⟨t.sch.seq, t.sch.cycle, t.sch.cycle, act, t.slotInfo i 0⟩ tag lat kind ws opy
      [] none 0#64 = t.loading lat tag ws kind 0#64 opy [] none i := by
  have hdue : Nat.max (t.sch.cycle + lat) (t.sch.cycle + 1) = t.sch.cycle + lat := Nat.max_eq_left (by omega)
  rw [Tile.launchFlight, Tile.allocTag_eq]
  simp only [Tile.withSch, hdue]
  rfl

theorem Tile.allocTag_zero (t : Tile) : t.allocTag 0#3 = t := if_pos rfl

theorem Tile.withPad_allocTag (t : Tile) (tag : BitVec 3) (f : Pad → Pad) :
    (t.allocTag tag).withPad f = (t.withPad f).allocTag tag := by
  rw [Tile.allocTag_eq, Tile.allocTag_eq]
  rfl

/-- A slot whose access is evaluated at once. -/
theorem issues_of_eval {i : Instr} {h : Hdr} {s : State} {tag : BitVec 3} {act : PortAct} {t : Tile} (sem : SlotInfo → Sem)
    (hs : s.Ready h.guard) (he : exec i s = runSlot i h sem s) (hp : s.core.pad.queue = [])
    (hsem : (sem (s.core.slotInfo i 0)).eff s.core s.core =
      (s.core.allocTag tag).portA s.core.sch.seq act 0 (s.core.slotInfo i 0))
    (ha : act.isStore = false)
    (ht : (s.core.allocTag tag).perform ⟨s.core.sch.seq, s.core.sch.cycle, s.core.sch.cycle, act, s.core.slotInfo i 0⟩ = t)
    (henc : (sem (s.core.slotInfo i 0)).enc s.core = true)
    (hchk : (sem (s.core.slotInfo i 0)).check s.core = .ok)
    (hc : t.sch.closing = []) (hst : t.sch.status = .running) (hr : t.recs = []) : Issues i s t := by
  have hnow := Tile.portA_now (t := s.core.allocTag tag) (seq := s.core.sch.seq) (info := s.core.slotInfo i 0)
    (by rw [Tile.allocTag_pad, hp]) ha
  rw [Tile.allocTag_cycle, ht] at hnow
  exact issues_of_effect sem hs he (hsem.trans hnow) henc hchk hc hst hr

/-! Atomics (Table 02-7). -/

theorem num_min_sNum (x y : Word) : num (min (sNum x) (sNum y)) = if x.slt y then x else y := by
  simp only [slt_iff_sNum_lt]
  split
  · rw [min_eq_left (le_of_lt ‹_›), num_sNum]
  · rw [min_eq_right (not_lt.mp ‹_›), num_sNum]

theorem num_max_sNum (x y : Word) : num (max (sNum x) (sNum y)) = if x.slt y then y else x := by
  simp only [slt_iff_sNum_lt]
  split
  · rw [max_eq_right (le_of_lt ‹_›), num_sNum]
  · rw [max_eq_left (not_lt.mp ‹_›), num_sNum]

theorem num_min_uNum (x y : Word) : num (min (uNum x) (uNum y)) = if x.ult y then x else y := by
  simp only [ult_iff_uNum_lt]
  split
  · rw [min_eq_left (le_of_lt ‹_›), num_uNum]
  · rw [min_eq_right (not_lt.mp ‹_›), num_uNum]

theorem num_max_uNum (x y : Word) : num (max (uNum x) (uNum y)) = if x.ult y then y else x := by
  simp only [ult_iff_uNum_lt]
  split
  · rw [max_eq_right (le_of_lt ‹_›), num_uNum]
  · rw [max_eq_left (not_lt.mp ‹_›), num_uNum]

/-- An atomic that passes its checks behind no queued access. -/
theorem issues_of_semAtom {i : Instr} {h : Hdr} {s : State} {op : AtomOp} {d v : BitVec 5} {bs : BitVec 4} {o : Imm 2 30} {t : BitVec 3}
    {a : Nat} {w : Word} (hs : s.Ready h.guard) (ht : s.core.tagFree t = true) (hp : s.core.pad.queue = [])
    (he : exec i s = runSlot i h (semAtom op d bs v o t) s) (ha : (s.core.ra bs + immLa o).toNat = a)
    (hacc : accessCheck s.core .eval 4 .spalign false [itemOf a 4] = .ok) (hread : s.core.Readable ((upTo 4).map (a + ·)))
    (hw : op.new (s.core.pad.mem.word a) (s.core.rs v) (s.core.rs d) = w) :
    Issues i s ((s.core.withPad fun p => { p with mem := p.mem.putVal a 4 w.toNat }).loading 6 t
      [.s (rotS s.core.ctl.rrb d) (s.core.pad.mem.word a)] 3 0#64 (s.core.pad.mem.word a) [] none i) := by
  subst ha hw
  have hpad := (hread.alloc (tag := t)).readPad (lt_padSize_of_eval (by decide) hacc)
  refine issues_of_eval (act := .atom t op _ (s.core.rs v) (s.core.rs d) (rotS s.core.ctl.rrb d)) _ hs he hp rfl rfl ?_ rfl ?_
    hs.between.noClosing hs.between.running hs.between.noReports
  · simp only [Tile.perform, hpad, Tile.withPad_allocTag, Tile.allocTag_pad]
    exact Tile.launchFlight_allocTag (lat := 6) (s.core.withPad _) i _ _ _ (by decide)
  · simp only [semAtom, Tile.needTag_free ht, hacc, Check.all]

/-- Settles O23: each operation's new word is that of Table 02-7, in numbers. -/
theorem bankAtomics : Obligations.BankAtomics := by
  intro s h d bs v o t hs ht hp a hacc hread old x swaps
  refine ⟨issues_of_semAtom hs ht hp rfl rfl hacc hread ?add, issues_of_semAtom hs ht hp rfl rfl hacc hread rfl,
    issues_of_semAtom hs ht hp rfl rfl hacc hread rfl, issues_of_semAtom hs ht hp rfl rfl hacc hread rfl,
    issues_of_semAtom hs ht hp rfl rfl hacc hread (num_min_sNum old x).symm,
    issues_of_semAtom hs ht hp rfl rfl hacc hread (num_max_sNum old x).symm,
    issues_of_semAtom hs ht hp rfl rfl hacc hread (num_min_uNum old x).symm,
    issues_of_semAtom hs ht hp rfl rfl hacc hread (num_max_uNum old x).symm,
    issues_of_semAtom hs ht hp rfl rfl hacc hread rfl, issues_of_semAtom hs ht hp rfl rfl hacc hread rfl,
    issues_of_semAtom hs ht hp rfl rfl hacc hread rfl⟩
  case add =>
    rw [num_add, num_uNum, num_uNum]
    rfl

/-! Barrier objects (R247 to R252). -/

/-- A tile with a barrier object written. -/
def Tile.putBarAt (t : Tile) (a : Nat) (b : Bar) : Tile := t.withPad fun p => p.putBar a b

theorem Tile.withPad_putBar (t : Tile) (a : Nat) (f : Bar → Bar) :
    (t.withPad fun p => p.putBar a (f (p.bar a))) = t.putBarAt a (f (t.pad.bar a)) := by
  rw [Tile.putBarAt, Tile.withPad, Tile.withPad]

section
variable {i : Instr} {h : Hdr} {s : State} {bs : BitVec 4} {o : Imm 5 32} {t : BitVec 3} (hs : s.Ready h.guard)
  (ht : s.core.tagFree t = true) (hp : s.core.pad.queue = [])
  (hacc : accessCheck s.core .eval 16 .baraln false [itemOf (eaOf s.core 16 bs o) 16] = .ok)
  (hread : s.core.Readable ((upTo 16).map (eaOf s.core 16 bs o + ·)))
include ht hacc

theorem semBar_check {info : SlotInfo} {ok : Tile → Bool} {delay : Nat} {act : Tile → Nat → PortAct} (hok : ok s.core = true) :
    (semBar bs o t ok delay act info).check s.core = .ok := by
  simp only [semBar, Tile.needTag_free ht, hacc, need_of_true hok, Check.all]

include hs hp hread

/-- A barrier instruction that is evaluated at once and reads no error. -/
theorem issues_of_semBar {ok : Tile → Bool} {act : Tile → Nat → PortAct} {u : Tile}
    (he : exec i s = runSlot i h (semBar bs o t ok 0 act) s) (hok : ok s.core = true)
    (ha : (act s.core (eaOf s.core 16 bs o)).isStore = false)
    (hu : (s.core.allocTag t).readPad ((upTo 16).map (eaOf s.core 16 bs o + ·)) = (none, s.core.allocTag t) →
      (s.core.allocTag t).perform ⟨s.core.sch.seq, s.core.sch.cycle, s.core.sch.cycle, act s.core (eaOf s.core 16 bs o), s.core.slotInfo i 0⟩ = u)
    (hc : u.sch.closing = []) (hst : u.sch.status = .running) (hr : u.recs = []) : Issues i s u :=
  issues_of_eval _ hs he hp rfl ha (hu ((hread.alloc (tag := t)).readPad (lt_padSize_of_eval (by decide) hacc))) rfl
    (semBar_check ht hacc hok) hc hst hr

end

/-- A barrier instruction that writes its object. -/
theorem issues_of_semBar_put {i : Instr} {h : Hdr} {s : State} {bs : BitVec 4} {o : Imm 5 32} {ok : Tile → Bool}
    {act : Tile → Nat → PortAct} {b : Bar} (hs : s.Ready h.guard) (hp : s.core.pad.queue = [])
    (hacc : accessCheck s.core .eval 16 .baraln false [itemOf (eaOf s.core 16 bs o) 16] = .ok)
    (hread : s.core.Readable ((upTo 16).map (eaOf s.core 16 bs o + ·)))
    (he : exec i s = runSlot i h (semBar bs o 0#3 ok 0 act) s) (hok : ok s.core = true)
    (ha : (act s.core (eaOf s.core 16 bs o)).isStore = false)
    (hu : s.core.readPad ((upTo 16).map (eaOf s.core 16 bs o + ·)) = (none, s.core) →
      s.core.perform ⟨s.core.sch.seq, s.core.sch.cycle, s.core.sch.cycle, act s.core (eaOf s.core 16 bs o), s.core.slotInfo i 0⟩ =
        s.core.putBarAt (eaOf s.core 16 bs o) b) : Issues i s (s.core.putBarAt (eaOf s.core 16 bs o) b) := by
  have hsch : (s.core.putBarAt (eaOf s.core 16 bs o) b).sch = s.core.sch := Tile.withPad_sch _ _
  have hrecs : (s.core.putBarAt (eaOf s.core 16 bs o) b).recs = s.core.recs := Tile.withPad_recs _ _
  refine issues_of_semBar (t := 0#3) hs rfl hp hacc hread he hok ha (fun hrd => ?_) (by rw [hsch]; exact hs.between.noClosing)
    (by rw [hsch]; exact hs.between.running) (hrecs.trans hs.between.noReports)
  rw [Tile.allocTag_zero] at hrd ⊢
  exact hu hrd

/-- The decrement that the phase waits for advances it. -/
theorem Bar.txdec_of_le {b : Bar} {x : Nat} (hx : x ≤ b.txpend) :
    b.txdec x = if b.pend = 0 ∧ b.txpend = x then { b with phase := (b.phase + 1) % 16, pend := b.expect, txpend := b.reload }
      else { b with txpend := b.txpend - x } := by
  have hsub : b.txpend - x = 0 ↔ b.txpend = x := by omega
  simp only [Bar.txdec, if_neg (Nat.not_lt.mpr hx), Bar.advance, hsub]

theorem Bar.txdec_of_lt {b : Bar} {x : Nat} (hx : b.txpend < x) : b.txdec x = { b with txu := true } := if_pos hx

/-- The barrier instructions, each behind no queued access. -/
theorem barriers (s : State) (h : Hdr) (r : BitVec 5) (bs : BitVec 4) (o : Imm 5 32) (t : BitVec 3) (hs : s.Ready h.guard)
    (ht : s.core.tagFree t = true) (hp : s.core.pad.queue = [])
    (hacc : accessCheck s.core .eval 16 .baraln false [itemOf (eaOf s.core 16 bs o) 16] = .ok)
    (hread : s.core.Readable ((upTo 16).map (eaOf s.core 16 bs o + ·))) :
    let a := eaOf s.core 16 bs o
    let b := s.core.pad.bar a
    let x := (s.core.rs r).toNat
    (1 ≤ x → x ≤ 65535 → Issues (.barinit h r bs o) s (s.core.putBarAt a (Bar.init x (s.core.rs (r + 1#5)).toNat))) ∧
    (1 ≤ x → x ≤ 65535 → Issues (.bararr h r bs o t) s (s.core.queued t (.arrive a x t) 3 (.bararr h r bs o t))) ∧
    (x ≠ 0 → b.txpend + x < 2 ^ 32 → Issues (.bartxAdd h r bs o) s (s.core.putBarAt a { b with txpend := b.txpend + x })) ∧
    (x ≠ 0 → Issues (.bartxDec h r bs o) s (s.core.putBarAt a (b.txdec x))) ∧
    (b.txu = false → b.phase ≠ x % 16 → Issues (.barwait h r bs o) s s.core) := by
  intro a b x
  have hc := hs.between.noClosing
  have hst := hs.between.running
  have hr := hs.between.noReports
  have hpad := hread.readPad (lt_padSize_of_eval (by decide) hacc)
  have hne (hx : x ≠ 0) : (s.core.rs r != 0#32) = true := bne_iff_ne.mpr fun he => hx (congrArg BitVec.toNat he)
  have hrange (h1 : 1 ≤ x) (h2 : x ≤ 65535) :
      (decide (1 ≤ (s.core.rs r).toNat) && decide ((s.core.rs r).toNat ≤ 65535)) = true := by
    rw [decide_eq_true h1, decide_eq_true h2]; rfl
  refine ⟨fun h1 h2 => ?init, fun h1 h2 => ?arrive, fun hx hb => ?add, fun hx => ?dec, fun htxu hphase => ?wait⟩
  case init =>
    refine issues_of_semBar_put hs hp hacc hread rfl (hrange h1 h2) rfl fun hrd => ?_
    simp only [Tile.perform, hrd]
    rfl
  case arrive =>
    refine issues_of_effect _ hs rfl ?_ rfl (semBar_check ht hacc (hrange h1 h2)) hc hst hr
    simp only [semBar]
    rw [Tile.portA_later (.inr (by decide)), Tile.allocTag_eq]
    rfl
  case add =>
    refine issues_of_semBar_put hs hp hacc hread rfl (hne hx) rfl fun hrd => ?_
    simp only [Tile.perform, hrd]
    exact if_neg (Nat.not_le.mpr hb)
  case dec =>
    refine issues_of_semBar_put hs hp hacc hread rfl (hne hx) rfl fun hrd => ?_
    simp only [Tile.perform, hrd]
    exact Tile.withPad_putBar s.core _ fun b => b.txdec x
  case wait =>
    have hcause : s.core.pad.readCause ((upTo 16).map (eaOf s.core 16 bs o + ·)) = none := congrArg Prod.fst hpad
    have hdrain : s.core.drainReady s.core.pad.queue.length = s.core := by rw [hp]; rfl
    have hne : ((s.core.pad.bar (eaOf s.core 16 bs o)).phase != bitsOf (s.core.rs r).toNat 0 4) = true := by
      rw [bitsOf, pow_zero, Nat.div_one]
      exact bne_iff_ne.mpr hphase
    have htest : barTest s.core (eaOf s.core 16 bs o) (bitsOf (s.core.rs r).toNat 0 4) = .ok := by
      simp only [barTest, hdrain]
      rw [hp, hcause]
      simp only [waitFor, hne]
      rw [show (s.core.pad.bar (eaOf s.core 16 bs o)).txu = false from htxu]
      rfl
    refine issues_of_effect _ hs rfl ?_ rfl ?_ hc hst hr
    · simp only [hdrain, hpad]
    · simp only [hacc, htest, Check.all]

/-- BARRD reads a field of its object. -/
theorem barrd (s : State) (h : Hdr) (r : BitVec 5) (bs : BitVec 4) (o : Imm 5 32) (k : BitVec 2) (t : BitVec 3) (hs : s.Ready h.guard)
    (ht : s.core.tagFree t = true) (hp : s.core.pad.queue = [])
    (hacc : accessCheck s.core .eval 16 .baraln false [itemOf (eaOf s.core 16 bs o) 16] = .ok)
    (hread : s.core.Readable ((upTo 16).map (eaOf s.core 16 bs o + ·))) {field : Word}
    (hf : field = if k = 0#2 then s.core.pad.mem.word (eaOf s.core 16 bs o)
      else if k = 1#2 then BitVec.ofNat 32 (s.core.pad.bar (eaOf s.core 16 bs o)).pend
      else if k = 2#2 then BitVec.ofNat 32 (s.core.pad.bar (eaOf s.core 16 bs o)).txpend
      else BitVec.ofNat 32 (s.core.pad.bar (eaOf s.core 16 bs o)).arrseq) :
    Issues (.barrd h r bs o k t) s
      (s.core.loading 4 t [.s (rotS s.core.ctl.rrb r) field] 1 0#64 field [] none (.barrd h r bs o k t)) := by
  refine issues_of_semBar hs ht hp hacc hread rfl rfl rfl (fun hrd => ?_) hs.between.noClosing hs.between.running hs.between.noReports
  have hk : k = 0#2 ∨ k = 1#2 ∨ k = 2#2 ∨ k = 3#2 := (show ∀ k : BitVec 2, k = 0#2 ∨ k = 1#2 ∨ k = 2#2 ∨ k = 3#2 by decide) k
  simp only [Tile.perform, hrd, Tile.allocTag_pad]
  rw [← Tile.launchFlight_allocTag (t := s.core) (lat := 4) (.barrd h r bs o k t) (.barRd t (eaOf s.core 16 bs o) k.toNat (rotS s.core.ctl.rrb r))
    [.s (rotS s.core.ctl.rrb r) field] field (by decide)]
  rcases hk with rfl | rfl | rfl | rfl <;> subst hf <;> rfl

/-! Runs of granules (R253). -/

/-- The sum of bits at their places has those bits. -/
theorem testBit_foldl_b2n (f : Nat → Bool) (n : Nat) :
    (upTo n).foldl (fun x j => x + b2n (f j) * 2 ^ j) 0 < 2 ^ n ∧
      ∀ i, ((upTo n).foldl (fun x j => x + b2n (f j) * 2 ^ j) 0).testBit i = (decide (i < n) && f i) := by
  induction n with
  | zero => simp [upTo]
  | succ n ih =>
    obtain ⟨hlt, hbits⟩ := ih
    rw [upTo, List.range_succ, List.foldl_append, ← upTo]
    generalize (upTo n).foldl (fun x j => x + b2n (f j) * 2 ^ j) 0 = v at hlt hbits
    simp only [List.foldl_cons, List.foldl_nil]
    cases hf : f n with
    | false =>
      have hv : v + b2n false * 2 ^ n = v := by simp [b2n]
      rw [hv]
      refine ⟨by rw [pow_succ]; omega, fun i => ?_⟩
      rw [hbits]
      rcases Nat.lt_trichotomy i n with hi | rfl | hi
      · simp [hi, Nat.lt_succ_of_lt hi]
      · simp [hf]
      · simp [Nat.not_lt.mpr (le_of_lt hi), Nat.not_lt.mpr (Nat.succ_le_of_lt hi)]
    | true =>
      have hv : v + b2n true * 2 ^ n = v ||| 2 ^ n := by rw [Nat.or_two_pow_eq_add_of_lt hlt]; simp [b2n]
      rw [hv]
      refine ⟨by rw [Nat.or_two_pow_eq_add_of_lt hlt, pow_succ]; omega, fun i => ?_⟩
      rw [Nat.testBit_or, hbits, Nat.testBit_two_pow]
      rcases Nat.lt_trichotomy i n with hi | rfl | hi
      · simp [hi, Nat.lt_succ_of_lt hi, Nat.ne_of_gt hi]
      · simp [hf]
      · simp [Nat.not_lt.mpr (le_of_lt hi), Nat.not_lt.mpr (Nat.succ_le_of_lt hi), Nat.ne_of_lt hi]

/-- The granules of a run of FESET or FECLR. -/
theorem mem_runGrans (t : Tile) (r : BitVec 5) (a g : Nat) :
    g ∈ (runItems t r a).map (·.a / 16) ↔
      (decide (a / 16 ≤ g) && decide (g < a / 16 + ((t.rs r).toNat % 16 + 1))) = true := by
  have hn : bitsOf (t.rs r).toNat 0 4 = (t.rs r).toNat % 16 := by
    rw [bitsOf, pow_zero, Nat.div_one]
    rfl
  simp only [runItems, hn, itemOf, upTo, List.map_map, List.mem_map, List.mem_range, Function.comp_apply, Bool.and_eq_true,
    decide_eq_true_eq]
  constructor
  · rintro ⟨j, hj, rfl⟩
    omega
  · rintro ⟨hlo, hhi⟩
    exact ⟨g - a / 16, by omega, by omega⟩

/-- The effect of FESET and FECLR behind no queued access. -/
theorem issues_of_semFe {i : Instr} {h : Hdr} {s : State} {set : Bool} {r : BitVec 5} {bs : BitVec 4} {o : Imm 5 32} {u : Tile}
    (hs : s.Ready h.guard) (hp : s.core.pad.queue = []) (he : exec i s = runSlot i h (semFe set r bs o) s)
    (hacc : accessCheck s.core .eval 16 .spalign false (runItems s.core r (eaOf s.core 16 bs o)) = .ok)
    (hu : (if set then s.core.setFull ((runItems s.core r (eaOf s.core 16 bs o)).map (·.a / 16))
      else s.core.setEmpty ((runItems s.core r (eaOf s.core 16 bs o)).map (·.a / 16))) = u) : Issues i s u := by
  have hframe : u.sch = s.core.sch ∧ u.recs = s.core.recs := by
    subst hu
    cases set
    · exact ⟨Tile.setEmpty_sch _ _, Tile.setEmpty_recs _ _⟩
    · exact ⟨rfl, rfl⟩
  obtain ⟨hsch, hrecs⟩ := hframe
  refine issues_of_eval (tag := 0#3) (act := .fe set _) _ hs he hp rfl rfl hu rfl hacc ?_ ?_ ?_
  · rw [hsch]; exact hs.between.noClosing
  · rw [hsch]; exact hs.between.running
  · rw [hrecs]; exact hs.between.noReports

/-- The state after a slot that changes full/empty bits alone. -/
theorem exists_bits {i : Instr} {s : State} {u : Tile} {f : Nat → Bool} (hissue : Issues i s u) (hcl : u.sch.closing = [])
    (hfiles : u.files = s.core.files) (hmem : u.pad.mem = s.core.pad.mem) (hf : ∀ g, u.pad.full.has g = f g) :
    ∃ v, exec i s = .next v ∧ v.core.files = s.core.files ∧ v.core.pad.mem = s.core.pad.mem ∧ ∀ g, v.core.pad.full.has g = f g := by
  have hclose : u.bump.sch.closing = [] := hcl
  have hpad : (s.after i u).core.pad = u.pad := Tile.close_pad _ hclose
  exact ⟨_, hissue, (Tile.close_files _ hclose).trans hfiles, by rw [hpad, hmem], fun g => by rw [hpad, hf]⟩

/-- Settles O24: each barrier instruction writes or reads its object, and a run of granules is put in or taken out. -/
theorem barriersAndGranules : Obligations.BarriersAndGranules := by
  constructor
  · intro s h r bs o k t hs ht hp a hacc hread b x y put field
    obtain ⟨hinit, harrive, hadd, hdec, hwait⟩ := barriers s h r bs o t hs ht hp hacc hread
    refine ⟨hinit, harrive, hadd, fun hx hle => ?_, fun hx hlt => ?_, hwait, barrd s h r bs o k t hs ht hp hacc hread rfl⟩
    · have hissue := hdec hx
      rw [Bar.txdec_of_le hle] at hissue
      exact hissue
    · have hissue := hdec hx
      rw [Bar.txdec_of_lt hlt] at hissue
      exact hissue
  · intro s h r bs o t hs hp hwf a n inRun runs
    refine ⟨fun hacc => ⟨?set, ?clear⟩, fun hacc ht => ?read⟩
    case set =>
      refine exists_bits (issues_of_semFe (set := true) hs hp rfl hacc rfl) hs.between.noClosing rfl rfl fun g => ?_
      have hhas : ((s.core.setFull ((runItems s.core r a).map (·.a / 16))).pad.full).has g =
          (s.core.pad.full.has g || decide (g ∈ (runItems s.core r a).map (·.a / 16))) := NatSet.has_addAll hwf _ g
      rw [if_pos rfl, hhas, Bool.eq_iff_iff, Bool.or_eq_true, Bool.or_eq_true, decide_eq_true_iff, mem_runGrans]
    case clear =>
      refine exists_bits (issues_of_semFe (set := false) hs hp rfl hacc rfl) ?_ ?_ ?_ fun g => ?_
      · rw [if_neg Bool.false_ne_true, Tile.setEmpty_sch]
        exact hs.between.noClosing
      · rw [if_neg Bool.false_ne_true, Tile.setEmpty_files]
      · rw [if_neg Bool.false_ne_true, Tile.setEmpty_pad]
      · have hmem : decide (g ∈ (runItems s.core r a).map (·.a / 16)) = inRun g := by
          rw [Bool.eq_iff_iff, decide_eq_true_iff, mem_runGrans]
        rw [if_neg Bool.false_ne_true, Tile.setEmpty_pad, NatSet.has_delAll hwf, hmem]
    case read =>
      have hbits := testBit_foldl_b2n (fun j => s.core.pad.full.has (a / 16 + j)) 16
      refine ⟨BitVec.ofNat 32 ((upTo 16).foldl (fun x j => x + b2n (s.core.pad.full.has (a / 16 + j)) * 2 ^ j) 0), ?_, fun i hi => ?_⟩
      · refine issues_of_eval (tag := t) (act := .feRd t (a / 16) (rotS s.core.ctl.rrb r)) _ hs rfl hp rfl rfl ?_ rfl ?_
          hs.between.noClosing hs.between.running hs.between.noReports
        · simp only [Tile.perform, Tile.allocTag_pad]
          exact Tile.launchFlight_allocTag (t := s.core) (lat := 4) (.ferd h r bs o t) _ _ _ (by decide)
        · simp only [a] at hacc
          simp only [Tile.needTag_free ht, hacc, Check.all]
      · rw [BitVec.getLsbD_ofNat, decide_eq_true hi, Bool.true_and, hbits.2]

end Sys2Proof.Machine
end

section
/-! SUPPORT. Control registers read back, and a SETC acts as its bundle closes (R163, R165, R225); and the statement about them. -/

namespace Sys2Proof.Machine

/-! What a write of a control field leaves of a tile. -/

@[simp] theorem Tile.withCtl_tstat (t : Tile) (f : Ctl → Ctl) : (t.withCtl f).tstat = t.tstat := rfl
@[simp] theorem Tile.withCtl_copyCh (t : Tile) (f : Ctl → Ctl) (n : Nat) : (t.withCtl f).copyCh n = t.copyCh n := rfl
@[simp] theorem Tile.withCtl_ring (t : Tile) (f : Ctl → Ctl) (n : Nat) : (t.withCtl f).ring n = t.ring n := rfl

/-! Writing the registers that come in ranges. -/

theorem Ctl.set_tsh (c : Ctl) {j : Nat} (hj : j < 16) (x : Word) :
    c.set (j + 0x010) x = { c with tsh := c.tsh.setIfInBounds j (x &&& ctlMask (j + 0x010)) } := by
  simp [Ctl.set, hj]

/-- A bb register with one of its halves written. -/
def bbHalf (b : DWord) (n : Nat) (v : Word) : DWord := if n % 2 = 0 then b.extractLsb' 32 32 ++ v else v ++ b.setWidth 32

theorem Ctl.set_bb (c : Ctl) {j : Nat} (hj : j < 16) (x : Word) :
    c.set (j + 0x040) x =
      { c with bb := c.bb.setIfInBounds (j / 2) (bbHalf ((c.bb[j / 2]?).getD 0#64) j (x &&& ctlMask (j + 0x040))) } := by
  have hpar : (j + 64) % 2 = j % 2 := by omega
  simp [Ctl.set, hpar, bbHalf, show ¬ j + 64 < 32 by omega, show j + 64 < 80 by omega]

theorem Ctl.set_hy (c : Ctl) {j : Nat} (hj : j < 8) (x : Word) :
    c.set (j + 0x058) x = { c with hy := c.hy.setIfInBounds j (x &&& ctlMask (j + 0x058)) } := by
  simp [Ctl.set, show ¬ j + 88 < 32 by omega, show ¬ j + 88 < 80 by omega, show j + 88 < 96 by omega]

/-! Reading them. -/

theorem Tile.getCtl_tsh (t : Tile) {j : Nat} (hj : j < 16) : t.getCtl (j + 0x010) = some (t.tshOf j) := by
  simp [Tile.getCtl, hj]

/-- A half of a bb register. -/
def halfOf (b : DWord) (n : Nat) : Word := if n % 2 = 0 then b.setWidth 32 else b.extractLsb' 32 32

theorem Tile.getCtl_bb (t : Tile) {j : Nat} (hj : j < 16) :
    t.getCtl (j + 0x040) = some (halfOf ((t.ctl.bb[j / 2]?).getD 0#64) j) := by
  have hpar : (j + 64) % 2 = j % 2 := by omega
  simp [Tile.getCtl, hpar, halfOf, show ¬ j + 64 < 32 by omega, show ¬ j + 64 < 48 by omega, show ¬ j + 64 < 56 by omega,
    show j + 64 < 80 by omega]

theorem Tile.getCtl_hy (t : Tile) {j : Nat} (hj : j < 8) : t.getCtl (j + 0x058) = some ((t.ctl.hy[j]?).getD 0#32) := by
  simp [Tile.getCtl, show ¬ j + 88 < 32 by omega, show ¬ j + 88 < 48 by omega, show ¬ j + 88 < 56 by omega,
    show ¬ j + 88 < 80 by omega, show j + 88 < 96 by omega]

theorem halfOf_append (x y : Word) (n : Nat) : halfOf (x ++ y) n = if n % 2 = 0 then y else x := by
  rw [halfOf, BitVec.extractLsb'_append_eq_left, BitVec.setWidth_eq_extractLsb' (by decide), BitVec.extractLsb'_append_eq_right]

theorem halfOf_bbHalf (b : DWord) (n : Nat) (v : Word) : halfOf (bbHalf b n v) n = v := by
  rw [bbHalf]
  split
  · next h => rw [halfOf_append, if_pos h]
  · next h => rw [halfOf_append, if_neg h]

theorem halfOf_bbHalf_other (b : DWord) {n k : Nat} (v : Word) (h : n % 2 ≠ k % 2) : halfOf (bbHalf b n v) k = halfOf b k := by
  rw [bbHalf]
  rcases Nat.mod_two_eq_zero_or_one n with hn | hn
  · rw [if_pos hn, halfOf_append, if_neg (by omega), halfOf, if_neg (by omega)]
  · rw [if_neg (by omega), halfOf_append, if_pos (by omega), halfOf, if_pos (by omega)]

/-! SETC's write and what reads after it. -/

theorem settable_cases {n : Nat} (hn : settable n = true) (h38 : n ≠ 0x038) :
    n ∈ [0x001, 0x002, 0x003, 0x004, 0x005, 0x007, 0x008, 0x009, 0x00A, 0x00B, 0x00C, 0x050, 0x051, 0x052, 0x053] ∨
      (∃ j, j < 16 ∧ n = j + 0x010) ∨ (∃ j, j < 16 ∧ n = j + 0x040) ∨ ∃ j, j < 8 ∧ n = j + 0x058 := by
  simp [settable, presettable] at hn
  simp only [List.mem_cons, List.not_mem_nil, or_false]
  by_cases htsh : 16 ≤ n ∧ n < 32
  · exact .inr (.inl ⟨n - 16, by omega, by omega⟩)
  by_cases hbb : 64 ≤ n ∧ n < 80
  · exact .inr (.inr (.inl ⟨n - 64, by omega, by omega⟩))
  by_cases hhy : 88 ≤ n ∧ n < 96
  · exact .inr (.inr (.inr ⟨n - 88, by omega, by omega⟩))
  · exact .inl (by omega)

/-- A register that SETC may write reads as written, in its writable bits. -/
theorem Tile.getCtl_setCtl_same (t : Tile) {n : Nat} (v : Word) (hn : settable n = true) (h38 : n ≠ 0x038) :
    (t.setCtl n v).getCtl n = some (v &&& ctlMask n) := by
  rw [Tile.setCtl, if_neg h38]
  rcases settable_cases hn h38 with hmem | ⟨j, hj, rfl⟩ | ⟨j, hj, rfl⟩ | ⟨j, hj, rfl⟩
  · simp only [List.mem_cons, List.not_mem_nil, or_false] at hmem
    rcases hmem with rfl | rfl | rfl | rfl | rfl | rfl | rfl | rfl | rfl | rfl | rfl | rfl | rfl | rfl | rfl <;>
      simp [Tile.getCtl, Tile.withCtl, Ctl.set]
  · rw [Tile.getCtl_tsh _ hj, Tile.tshOf, Tile.withCtl, Ctl.set_tsh _ hj]
    simp [hj]
  · rw [Tile.getCtl_bb _ hj, Tile.withCtl, Ctl.set_bb _ hj]
    simp [show j / 2 < 8 by omega, halfOf_bbHalf]
  · rw [Tile.getCtl_hy _ hj, Tile.withCtl, Ctl.set_hy _ hj]
    simp [hj]

/-- Every other register reads as before. -/
theorem Tile.getCtl_setCtl_other (t : Tile) {n k : Nat} (v : Word) (hn : settable n = true) (h38 : n ≠ 0x038) (hk : k ≠ n) :
    (t.setCtl n v).getCtl k = t.getCtl k := by
  rw [Tile.setCtl, if_neg h38]
  rcases settable_cases hn h38 with hmem | ⟨j, hj, rfl⟩ | ⟨j, hj, rfl⟩ | ⟨j, hj, rfl⟩
  · simp only [List.mem_cons, List.not_mem_nil, or_false] at hmem
    rcases hmem with rfl | rfl | rfl | rfl | rfl | rfl | rfl | rfl | rfl | rfl | rfl | rfl | rfl | rfl | rfl <;>
      simp [Tile.getCtl, Ctl.set, Tile.tshOf, hk]
  · by_cases hin : 0x010 ≤ k ∧ k < 0x020
    · obtain ⟨i, rfl⟩ := Nat.exists_eq_add_of_le' hin.1
      rw [Tile.getCtl_tsh _ (by omega), Tile.getCtl_tsh _ (by omega), Tile.tshOf, Tile.withCtl, Ctl.set_tsh _ hj, Tile.tshOf]
      rw [Vector.getElem?_setIfInBounds_ne (by omega)]
    · simp only [Tile.getCtl, if_neg hin, Ctl.set_tsh _ hj]
      simp
  · by_cases hin : 0x040 ≤ k ∧ k < 0x050
    · obtain ⟨i, rfl⟩ := Nat.exists_eq_add_of_le' hin.1
      rw [Tile.getCtl_bb _ (by omega), Tile.getCtl_bb _ (by omega), Tile.withCtl, Ctl.set_bb _ hj]
      by_cases hpair : i / 2 = j / 2
      · rw [hpair]
        simp [show j / 2 < 8 by omega, halfOf_bbHalf_other _ _ (show j % 2 ≠ i % 2 by omega)]
      · rw [Vector.getElem?_setIfInBounds_ne (by omega)]
    · simp only [Tile.getCtl, if_neg hin, Ctl.set_bb _ hj]
      simp [Tile.tshOf]
  · by_cases hin : 0x058 ≤ k ∧ k < 0x060
    · obtain ⟨i, rfl⟩ := Nat.exists_eq_add_of_le' hin.1
      rw [Tile.getCtl_hy _ (by omega), Tile.getCtl_hy _ (by omega), Tile.withCtl, Ctl.set_hy _ hj]
      rw [Vector.getElem?_setIfInBounds_ne (by omega)]
    · simp only [Tile.getCtl, if_neg hin, Ctl.set_hy _ hj]
      simp [Tile.tshOf]

theorem Tile.getCtl_isSome_of_settable (t : Tile) {n : Nat} (hn : settable n = true) : (t.getCtl n).isSome = true := by
  by_cases h38 : n = 0x038
  · subst h38
    rfl
  rcases settable_cases hn h38 with hmem | ⟨j, hj, rfl⟩ | ⟨j, hj, rfl⟩ | ⟨j, hj, rfl⟩
  · simp only [List.mem_cons, List.not_mem_nil, or_false] at hmem
    rcases hmem with rfl | rfl | rfl | rfl | rfl | rfl | rfl | rfl | rfl | rfl | rfl | rfl | rfl | rfl | rfl <;> rfl
  · rw [Tile.getCtl_tsh _ hj]; rfl
  · rw [Tile.getCtl_bb _ hj]; rfl
  · rw [Tile.getCtl_hy _ hj]; rfl

/-! SETC acts as its bundle closes. -/

theorem Ctl.set_fmt {c : Ctl} {n : Nat} (x : Word) (hn : settable n = true) (h38 : n ≠ 0x038) :
    (c.set n x).fmt = c.fmt ∧ (c.set n x).fmtNext = c.fmtNext := by
  rcases settable_cases hn h38 with hmem | ⟨j, hj, rfl⟩ | ⟨j, hj, rfl⟩ | ⟨j, hj, rfl⟩
  · simp only [List.mem_cons, List.not_mem_nil, or_false] at hmem
    rcases hmem with rfl | rfl | rfl | rfl | rfl | rfl | rfl | rfl | rfl | rfl | rfl | rfl | rfl | rfl | rfl <;> exact ⟨rfl, rfl⟩
  · rw [Ctl.set_tsh _ hj]; exact ⟨rfl, rfl⟩
  · rw [Ctl.set_bb _ hj]; exact ⟨rfl, rfl⟩
  · rw [Ctl.set_hy _ hj]; exact ⟨rfl, rfl⟩

/-- fmt values that come into force and a write of another register do not depend on each other's order. -/
theorem Ctl.set_settleFmt (c : Ctl) {n : Nat} (x : Word) (k : Nat) (hn : settable n = true) (h38 : n ≠ 0x038) :
    (c.settleFmt k).set n x = (c.set n x).settleFmt k := by
  rcases settable_cases hn h38 with hmem | ⟨j, hj, rfl⟩ | ⟨j, hj, rfl⟩ | ⟨j, hj, rfl⟩
  · simp only [List.mem_cons, List.not_mem_nil, or_false] at hmem
    rcases hmem with rfl | rfl | rfl | rfl | rfl | rfl | rfl | rfl | rfl | rfl | rfl | rfl | rfl | rfl | rfl <;> rfl
  · rw [Ctl.set_tsh _ hj, Ctl.set_tsh _ hj]; rfl
  · rw [Ctl.set_bb _ hj, Ctl.set_bb _ hj]; rfl
  · rw [Ctl.set_hy _ hj, Ctl.set_hy _ hj]; rfl

/-- A SETC whose value is accepted writes its register as its bundle closes (R163). -/
theorem issues_setc {s : State} {h : Hdr} {d : BitVec 5} {n : BitVec 9} {t : Tile} (hs : s.Ready h.guard)
    (hchk : setcCheck s.core n.toNat (s.core.rs d) = .ok)
    (hclose : ∀ k, (s.core.bump.close k).setCtl n.toNat (s.core.rs d) = t.bump.close k)
    (hcl : t.sch.closing = []) (hst : t.sch.status = .running) (hr : t.recs = []) : Issues (.setc h d n) s t := by
  have hexec := runSlot_atClose (i := .setc h d n) (x := .setc n.toNat (s.core.rs d)) (sem := fun _ =>
    { check := fun t => setcCheck t n.toNat (t.rs d), eff := fun r t => t.atClose (.setc n.toNat (r.rs d)) })
    hs rfl rfl hchk hs.between.noClosing
  have hact (k c : Nat) (link : Word) :
      (s.core.bump.close k).closeSlot c link (.setc n.toNat (s.core.rs d)) = t.bump.close k := hclose k
  rw [hact] at hexec
  have hclosing : t.bump.sch.closing = [] := hcl
  rw [flush_noteEnd_quiet ((Tile.close_recs _ hclosing).trans hr)
      (ne_of_eq_of_ne ((Tile.close_status _ hclosing).trans hst) (by decide))] at hexec
  exact hexec

theorem setcCheck_ok {t : Tile} {n : Nat} {v : Word} (hn : settable n = true) (hv : ctlRefusal t.ctl n v true = none) :
    setcCheck t n v = .ok := by
  have hsome := t.getCtl_isSome_of_settable hn
  rw [setcCheck, if_neg (by rw [Option.isSome_iff_ne_none] at hsome; simpa using hsome), if_neg (by simp [hn]), hv]

/-- Settles O26: each register reads back what was written of it, and no write touches another. -/
theorem controlRegisters : Obligations.ControlRegisters := by
  refine ⟨fun s h d n v hs => ?_, fun t n v hn h38 _ => ⟨t.getCtl_setCtl_same v hn h38, fun k hk => t.getCtl_setCtl_other v hn h38 hk⟩⟩
  have hcl := hs.between.noClosing
  have hst := hs.between.running
  have hr := hs.between.noReports
  refine ⟨fun hfmt => ?fmt, fun hn hv h38 => ?set, ?clear, fun hget h60 => ?get, ?cycle⟩
  case fmt => exact issues_of_effect _ hs rfl rfl rfl (need_of_true (by rw [hfmt]; rfl)) hcl hst hr
  case set =>
    have hne : n.toNat ≠ 0x038 := fun he => h38 (BitVec.eq_of_toNat_eq he)
    refine issues_setc hs (setcCheck_ok hn hv) (fun k => ?_) hcl hst hr
    have hset : (s.core.withCtl fun c => c.set n.toNat (s.core.rs d)).bump.sch.closing = [] := hcl
    rw [Tile.close_eq k (t := s.core.bump) hcl, Tile.close_eq k hset, Tile.setCtl, if_neg hne, Tile.withCtl,
      Ctl.set_settleFmt _ _ _ hn hne]
    rfl
  case clear =>
    refine issues_setc (n := 0x038#9) hs rfl (fun k => ?_) hcl hst hr
    have hset : (Tile.bump { s.core with copy := s.core.copy.clear (s.core.rs d) }).sch.closing = [] := hcl
    rw [Tile.close_eq k (t := s.core.bump) hcl, Tile.close_eq k hset]
    rfl
  case get =>
    refine issues_of_effect _ hs rfl ?_ rfl (need_of_true (by rw [hget]; rfl)) hcl hst hr
    simp only [if_neg h60, hget, Option.getD_some]
  case cycle => exact issues_of_effect _ hs rfl rfl rfl rfl hcl hst hr

end Sys2Proof.Machine
end

section
/-! SUPPORT. Waits whose condition holds, and guards at issue (R115, R118, R230 to R234); and the statements about waits, guards and the
end of a task. -/

namespace Sys2Proof.Machine

theorem waitFirst_of_true {ok : Bool} {st : Stall} (h : ok = true) : waitFirst ok st = .ok := by
  rw [waitFirst, if_pos h]

/-! Tags that are free. -/

theorem Tile.settled_of_free {t : Tile} {l : List Nat} (h : ∀ n ∈ l, t.tagSt n = .free) : t.settled l = true :=
  List.all_eq_true.mpr fun n hn => by rw [h n hn]; rfl

theorem tagDead_of_free {t : Tile} {l : List Nat} (h : ∀ n ∈ l, t.tagSt n = .free) : tagDead t l = .ok := by
  rw [tagDead, Tile.faulted, List.filter_eq_nil_iff.mpr fun n hn => by rw [h n hn]; decide, if_pos rfl]

theorem free_of_mem_allTags {t : Tile} (h : ∀ n, 1 ≤ n → n ≤ 7 → t.tagSt n = .free) : ∀ n ∈ allTags, t.tagSt n = .free := by
  intro n hn
  simp only [allTags, List.mem_cons, List.not_mem_nil, or_false] at hn
  exact h n (by omega) (by omega)

theorem free_of_mem_waitTags {t : Tile} {m : BitVec 7} (h : ∀ i, i < 7 → m.getLsbD i = true → t.tagSt (i + 1) = .free) :
    ∀ n ∈ waitTags m, t.tagSt n = .free := by
  intro n hn
  simp only [waitTags, upTo, List.mem_filterMap, List.mem_range] at hn
  obtain ⟨i, hi, hsome⟩ := hn
  split at hsome
  · next hbit =>
    cases hsome
    exact h i hi hbit
  · cases hsome

/-- Nothing of the core and of V is on its way. -/
theorem Tile.landed_of {t : Tile} (hfl : t.sch.flights = []) (hvo : t.sch.vops = []) (hli : t.lists = [])
    (hlinks : t.sch.links.toList.all (·.isNone) = true) (hq : ∀ q ∈ t.pad.queue, q.act.produces = false) : t.landed = true := by
  have hqueue : (t.pad.queue.all fun q => !q.act.produces) = true := List.all_eq_true.mpr fun q hmem => by rw [hq q hmem]; rfl
  simp only [Tile.landed, hfl, hvo, hli, hlinks, hqueue]
  rfl

theorem Tile.addCost_eq {t : Tile} {cost : Nat} (hc : t.sch.cost = 0) : t.addCost cost = t.withSch fun s => { s with cost := cost } := by
  have hmax : Nat.max t.sch.cost cost = cost := by rw [hc]; exact Nat.zero_max cost
  rw [Tile.addCost, Tile.withSch, Tile.withSch, hmax]

/-! The granules of a WAITFE. -/

theorem failing_ok_iff {l : List Item} {f : Item → Option Cause} : failing l f = .ok ↔ ∀ x ∈ l, f x = none := by
  refine ⟨failing_eq_ok, fun h => ?_⟩
  rw [failing, List.findSome?_eq_none_iff.mpr fun x hx => by rw [h x hx]; rfl]

theorem Check.all_ok_iff {l : List Check} : Check.all l = .ok ↔ ∀ c ∈ l, c = .ok := by
  induction l with
  | nil => simp [Check.all]
  | cons c l ih =>
    rw [List.forall_mem_cons, ← ih]
    refine ⟨fun h => ?_, fun ⟨hc, hl⟩ => by rw [hc]; exact hl⟩
    have hc := Check.ok_of_all_cons h
    subst hc
    exact ⟨rfl, h⟩

/-- The checks of several items pass where each item's do. -/
theorem accessCheck_ok_of_each {t : Tile} {k : AKind} {n : Nat} {alc : Cause} {q : Bool} {l : List Item}
    (h : ∀ x ∈ l, accessCheck t k n alc q [x] = .ok) : accessCheck t k n alc q l = .ok := by
  simp only [accessCheck, Check.all_ok_iff, List.forall_mem_cons, failing_ok_iff, List.not_mem_nil, false_implies, implies_true,
    and_true] at h ⊢
  exact ⟨fun x hx => (h x hx).1, fun x hx => (h x hx).2.1, fun x hx => (h x hx).2.2⟩

/-- A wide load of one granule of scratchpad passes its checks. -/
theorem accessCheck_granule {t : Tile} {a : Nat} (ha : a % 16 = 0) (hpad : a < padSize) :
    accessCheck t .wideLoad 16 .spalign false [itemOf a 16] = .ok := by
  rw [accessCheck_aligned (by decide) ha]
  by_cases hc : a < 0x2F000
  · rw [rangeOf_general hc]; rfl
  · rw [rangeOf_carve (Nat.not_lt.mp hc) hpad]; rfl

theorem bulkVa_eq (t : Tile) (bs : BitVec 4) (bb : BitVec 3) :
    bulkVa t bs bb = (((t.ctl.bb[bb.toNat]?).getD 0#64).toNat + (t.ra bs).toNat) % 2 ^ 64 := by
  have hw : (t.ra bs).toNat % 2 ^ 64 = (t.ra bs).toNat := Nat.mod_eq_of_lt (by omega)
  rw [bulkVa, BitVec.toNat_add, BitVec.toNat_setWidth, hw]

theorem fullView_of_idle {t : Tile} (hp : t.pad.queue = []) : t.fullView = t.pad.full := by
  rw [Tile.fullView, hp]; rfl

/-- The waits whose conditions hold. -/
theorem waits (s : State) (h : Hdr) (m : BitVec 7) (hold : BitVec 3) (f r : BitVec 5) (bs : BitVec 4) (ch : BitVec 3)
    (hs : s.Ready h.guard) :
    let a := (s.core.ra bs).toNat
    let held : Tile := s.core.withSch fun c => { c with cost := hold.toNat }
    let c := s.core.copyCh ch.toNat
    ((∀ i, i < 7 → m.getLsbD i = true → s.core.tagSt (i + 1) = .free) → Issues (.wait h m hold) s held) ∧
    ((∀ n, 1 ≤ n → n ≤ 7 → s.core.tagSt n = .free) → s.core.sch.flights = [] → s.core.sch.vops = [] → s.core.lists = [] →
      s.core.sch.links.toList.all (·.isNone) = true → (∀ q ∈ s.core.pad.queue, q.act.produces = false) →
      s.core.restLanded = true → Issues (.waitall h hold) s held) ∧
    (s.core.fenceDone f = true → Issues (.fence h f) s s.core) ∧
    (a % 16 = 0 → a + 16 * (r.toNat % 16 + 1) ≤ padSize → s.core.pad.queue = [] →
      (∀ i, i ≤ r.toNat % 16 → s.core.pad.full.has (a / 16 + i) = !r.getLsbD 4) →
      Issues (.waitfe h r bs) s s.core) ∧
    (1 ≤ (c.done - s.core.rs r).toNat → (c.done - s.core.rs r).toNat ≤ 2 ^ 31 → Issues (.cewait h r ch) s s.core) := by
  intro a held c
  have hcl := hs.between.noClosing
  have hst := hs.between.running
  have hr := hs.between.noReports
  have hheld : s.core.addCost hold.toNat = held := Tile.addCost_eq hs.between.noCost
  refine ⟨fun hfree => ?wait, fun hfree hfl hvo hli hlinks hq hrest => ?waitall, fun hdone => ?fence, fun ha hend hq hfull => ?waitfe,
    fun h1 h2 => ?cewait⟩
  case wait =>
    have htags := free_of_mem_waitTags hfree
    refine issues_of_effect _ hs rfl hheld rfl ?_ hcl hst hr
    simp only [waitFirst_of_true (Tile.settled_of_free htags), tagDead_of_free htags, Check.all]
  case waitall =>
    have htags := free_of_mem_allTags hfree
    refine issues_of_effect _ hs rfl hheld rfl ?_ hcl hst hr
    simp only [Tile.settled_of_free htags, Tile.landed_of hfl hvo hli hlinks hq, hrest, Bool.and_self, waitFirst_of_true,
      tagDead_of_free htags, Check.all]
  case fence => exact issues_of_effect _ hs rfl rfl rfl (waitFirst_of_true hdone) hcl hst hr
  case waitfe =>
    have hn : bitsOf r.toNat 0 4 = r.toNat % 16 := by rw [bitsOf, pow_zero, Nat.div_one]; rfl
    have hacc : accessCheck s.core .wideLoad 16 .spalign false ((upTo (r.toNat % 16 + 1)).map fun i => itemOf (a + 16 * i) 16) = .ok := by
      refine accessCheck_ok_of_each fun x hx => ?_
      simp only [upTo, List.mem_map, List.mem_range] at hx
      obtain ⟨i, hi, rfl⟩ := hx
      exact accessCheck_granule (by omega) (by omega)
    have hfail : firstFail (((upTo (r.toNat % 16 + 1)).map fun i => itemOf (a + 16 * i) 16).map (·.a / 16))
        (fun g => s.core.fullView.has g != r.getLsbD 4) = none := by
      refine List.find?_eq_none.mpr fun g hg => ?_
      simp only [upTo, List.map_map, List.mem_map, List.mem_range, Function.comp_apply, itemOf] at hg
      obtain ⟨i, hi, rfl⟩ := hg
      have hgran : (a + 16 * i) / 16 = a / 16 + i := by omega
      simp only [fullView_of_idle hq, hgran, hfull i (by omega)]
      cases r.getLsbD 4 <;> decide
    refine issues_of_effect _ hs rfl rfl rfl ?_ hcl hst hr
    simp only [hn, show (s.core.ra bs).toNat = a from rfl, hacc, hfail, Check.all]
  case cewait =>
    refine issues_of_effect _ hs rfl rfl rfl ?_ hcl hst hr
    have hpassed : (s.core.copyCh ch.toNat).passed (s.core.rs r) = true := by
      simp only [CopyCh.passed, Bool.and_eq_true, decide_eq_true_eq]
      exact ⟨h1, h2⟩
    simp only [if_pos hpassed]

/-- Settles O27: a wait whose condition holds passes its checks and changes at most the hold; ACQ and REL update the hold table. -/
theorem waitsAndGuards : Obligations.WaitsAndGuards := by
  refine ⟨waits, ?_⟩
  intro s h bs bb shared t hs ht hblocks va req
  refine ⟨fun hal hfree hroom => ?acq, fun x l r hholds hx hl => ?rel⟩
  case acq =>
    have hva : bulkVa s.core bs bb = va := bulkVa_eq s.core bs bb
    have hany : s.core.holds.any (·.va == va) = false := List.any_eq_false.mpr fun x hmem => by simpa using hfree x hmem
    refine issues_of_effect _ hs rfl ?_ rfl ?_ (hs.alloc_closing t) (hs.alloc_status t) (hs.alloc_recs t)
    · simp only [hva]; rfl
    · have hneed : (va % 64 == 0 && !(s.core.holds.any (·.va == va)) && decide (s.core.holds.length < 4) && s.core.blocks.isEmpty) = true := by
        rw [hany, hblocks, hal, decide_eq_true hroom]; rfl
      simp only [hva, Tile.needTag_free ht, need_of_true hneed, Check.all]
  case rel =>
    have hva : bulkVa s.core bs bb = va := bulkVa_eq s.core bs bb
    have hfind : s.core.holds.find? (·.va == va) = some x := by
      rw [hholds, List.find?_append, List.find?_eq_none.mpr fun y hy => by simpa using hl y hy]
      simp [hx]
    have herase : s.core.holds.erase x = l ++ r := by
      rw [hholds, List.erase_append_right _ fun hmem => hl x hmem hx, List.erase_cons_head]
    have hany : s.core.holds.any (·.va == va) = true := List.any_eq_true.mpr ⟨x, by simp [hholds], by simpa using hx⟩
    refine issues_of_effect _ hs rfl ?_ rfl ?_ (hs.alloc_closing t) (hs.alloc_status t) (hs.alloc_recs t)
    · simp only [hva, hfind, herase]; rfl
    · have hneed : (s.core.holds.any (·.va == va) && s.core.blocks.isEmpty) = true := by rw [hany, hblocks]; rfl
      simp only [hva, Tile.needTag_free ht, need_of_true hneed, Check.all]

/-! The end of a task (R137, R227). -/

theorem Tile.close_outs {t : Tile} (n : Nat) (hc : t.sch.closing = []) : (t.close n).outs = t.outs := by rw [Tile.close_eq n hc]

theorem Tile.endTask_unbinds (t : Tile) (n : Nat) : (t.endTask.inCh n).bound = false := by
  rw [Tile.inCh, Tile.endTask, Vector.getElem?_map]
  cases t.ins[n]? <;> rfl

theorem State.flush_of_no_recs {s : State} (hr : s.core.recs = []) : s.flush = s := by
  rw [State.flush, hr]

/-- A tile whose task has ended with nothing to report: its stint ends. -/
theorem flush_noteEnd_ended {s : State} (hr : s.core.recs = []) (he : s.core.sch.status = .ended) :
    State.flush (State.noteEnd s) = s.withCore (s.core.endStint (s.dev.frameOf s.core.coord) 0) := by
  rw [State.noteEnd, if_pos he]
  exact State.flush_of_no_recs hr

/-- Settles O28: the closing act ends the task, and the end of its stint touches the reliability record alone. -/
theorem endOfTask : Obligations.EndOfTask := by
  intro s h hs hfree hfl hvo hli hlinks hq heng hholds hblocks
  have htags := free_of_mem_allTags hfree
  have hcl : s.core.bump.sch.closing = [] := hs.between.noClosing
  have hexec := runSlot_atClose (i := .endTask h) (x := .endTask) (sem := fun _ =>
      { check := fun t => Check.all
          [waitFirst (t.settled allTags && t.landed && t.enginesDone) (mkStall .plain),
           tagDead t allTags, need t.holds.isEmpty .guarderr, need t.blocks.isEmpty .cbnest]
        eff := fun _ t => t.atClose .endTask })
    hs rfl rfl (by
      simp only [Tile.settled_of_free htags, Tile.landed_of hfl hvo hli hlinks hq, heng, Bool.and_self, waitFirst_of_true,
        tagDead_of_free htags, hholds, hblocks, List.isEmpty_nil, need_of_true, Check.all]) hs.between.noClosing
  have hact (t : Tile) (c : Nat) (link : Word) : t.closeSlot c link .endTask = t.endTask := rfl
  have hrecs : (s.core.bump.close (encode (.endTask h)).length).endTask.recs = [] := (Tile.close_recs _ hcl).trans hs.between.noReports
  rw [hact, flush_noteEnd_ended hrecs rfl] at hexec
  exact ⟨_, hexec, rfl, rfl, rfl, Tile.endTask_unbinds _, Tile.close_files _ hcl, Tile.close_pad _ hcl, Tile.close_outs _ hcl, rfl, rfl⟩

end Sys2Proof.Machine
end

section
/-! SUPPORT. What the units of a tile leave as they go on: accesses of port A are performed, results come in, a trap settles (R108, R153,
R322). A tile keeps its place and its control registers but for fmt, and it reports only as it halts. -/

namespace Sys2Proof.Machine

/-- The control registers but for fmt, which exceptions and a SETFMT in progress change (R165, R185). -/
def Ctl.still (c : Ctl) : Ctl := { c with fmt := 0#32, fmtNext := [] }

/-- Status and reports: as they were, or the tile has halted and reports it (R330). -/
def Tile.Stays (t u : Tile) : Prop :=
  (u.sch.status = t.sch.status ∧ u.recs = t.recs) ∨ (u.sch.status = .halted ∧ u.recs ≠ [])

/-- A tile after an access of port A, or another act of the core: its control registers are as they were. -/
structure Tile.Acts (t u : Tile) : Prop where
  coord : u.coord = t.coord
  pos : u.pos = t.pos
  ctl : u.ctl = t.ctl
  stays : t.Stays u

/-- A tile after its units have gone on: results may have come in. -/
structure Tile.Goes (t u : Tile) : Prop where
  coord : u.coord = t.coord
  pos : u.pos = t.pos
  ctl : u.ctl.still = t.ctl.still
  stays : t.Stays u

theorem Tile.Stays.trans {t u v : Tile} (h : t.Stays u) (h' : u.Stays v) : t.Stays v := by
  rcases h' with ⟨hst, hr⟩ | hhalt
  · rcases h with ⟨hst', hr'⟩ | ⟨hst', hr'⟩
    · exact .inl ⟨hst.trans hst', hr.trans hr'⟩
    · exact .inr ⟨hst.trans hst', fun hnil => hr' (hr.symm.trans hnil)⟩
  · exact .inr hhalt

namespace Tile.Acts

/-- A change of neither place, control registers, status nor reports. -/
theorem of_eq {t u : Tile} (hcoord : u.coord = t.coord) (hpos : u.pos = t.pos) (hctl : u.ctl = t.ctl)
    (hst : u.sch.status = t.sch.status) (hrecs : u.recs = t.recs) : t.Acts u :=
  ⟨hcoord, hpos, hctl, .inl ⟨hst, hrecs⟩⟩

theorem refl (t : Tile) : t.Acts t := of_eq rfl rfl rfl rfl rfl

theorem trans {t u v : Tile} (h : t.Acts u) (h' : u.Acts v) : t.Acts v :=
  ⟨h'.coord.trans h.coord, h'.pos.trans h.pos, h'.ctl.trans h.ctl, h.stays.trans h'.stays⟩

/-- Each step of a list of steps goes on. -/
theorem after {t u v : Tile} (h' : u.Acts v) (h : t.Acts u) : t.Acts v := h.trans h'

theorem ite {t u v : Tile} {c : Prop} [Decidable c] (hu : t.Acts u) (hv : t.Acts v) : t.Acts (if c then u else v) := by
  split
  · exact hu
  · exact hv

theorem foldl {α : Type} {f : Tile → α → Tile} (hf : ∀ (t : Tile) x, t.Acts (f t x)) (l : List α) (t : Tile) : t.Acts (l.foldl f t) := by
  induction l generalizing t with
  | nil => exact refl t
  | cons x l ih => exact (hf t x).trans (ih _)

theorem withSch (t : Tile) (f : Sched → Sched) (hf : ∀ s, (f s).status = s.status) : t.Acts (t.withSch f) :=
  of_eq rfl rfl rfl (hf _) rfl

theorem withPad (t : Tile) (f : Pad → Pad) : t.Acts (t.withPad f) := of_eq rfl rfl rfl rfl rfl

theorem withEng (t : Tile) (f : Engines → Engines) : t.Acts (t.withEng f) := of_eq rfl rfl rfl rfl rfl

/-! Tags, causes and halts. -/

theorem setTag (t : Tile) (n : Nat) (st : TagSt) : t.Acts (t.setTag n st) := by
  unfold Tile.setTag
  split
  · exact refl t
  · exact of_eq rfl rfl rfl rfl rfl

theorem halt (t : Tile) (r : TRec) : t.Acts (t.halt r) := ⟨rfl, rfl, rfl, .inr ⟨rfl, by simp [Tile.halt]⟩⟩

theorem doubleTrap (t : Tile) (c : Cause) : t.Acts (t.doubleTrap c) := halt t _

theorem detect (t : Tile) (c : Cause) : t.Acts (t.detect c) := by
  unfold Tile.detect
  split <;> split <;> exact of_eq rfl rfl rfl rfl rfl

theorem await (t : Tile) (c : Cause) (seq : Option Nat) (unit : Nat) (faddr info : DWord) : t.Acts (t.await c seq unit faddr info) :=
  ite (doubleTrap t c) (ite (doubleTrap t c) (withSch t _ fun _ => rfl))

theorem raise (t : Tile) (c : Cause) (seq : Option Nat) (unit : Nat) (faddr info : DWord) : t.Acts (t.raise c seq unit faddr info) :=
  (detect t c).trans (await _ c seq unit faddr info)

/-! Errors that reads find. -/

theorem meetErrors (t : Tile) (hit : Nat → Bool) : t.Acts (t.meetErrors hit) := by
  simp only [Tile.meetErrors]
  split
  · exact refl t
  · exact of_eq rfl rfl rfl rfl rfl

theorem readWords (t : Tile) (b : Bool) (hit : Nat → Bool) : t.Acts (t.readWords b hit) := by
  simp only [Tile.readWords]
  split
  · exact (meetErrors t hit).trans (withPad _ _)
  · exact refl t

theorem readPad (t : Tile) (l : List Nat) : t.Acts (t.readPad l).2 := readWords t _ _

theorem findErrors (t : Tile) (l : List Nat) : t.Acts (t.findErrors l) := readWords t _ _

/-! Granules and credit. -/

theorem emitAs (t : Tile) (group : Bool) (key : Nat) (crc : Word) (m : Msg) : t.Acts (t.emitAs group key crc m) := by
  unfold Tile.emitAs
  split
  · exact of_eq rfl rfl rfl rfl rfl
  · split <;> exact of_eq rfl rfl rfl rfl rfl

theorem credit (t : Tile) (ch : Nat) (entry : DWord) (first n : Nat) : t.Acts (t.credit ch entry first n) := by
  simp only [Tile.credit]
  split
  · exact of_eq rfl rfl rfl rfl rfl
  · exact foldl (fun t i => emitAs t _ _ _ _) _ t

theorem returnCredits (t : Tile) : t.Acts t.returnCredits := by
  refine foldl (fun (t : Tile) i => ?_) _ t
  split
  · next c _ =>
    have hfree (n : Nat) : t.Acts { t with ins := t.ins.setIfInBounds i { c with free := c.free + BitVec.ofNat 32 n } } :=
      of_eq rfl rfl rfl rfl rfl
    dsimp only
    generalize (if c.bound then InCh.freed t.pad c 64 0 else 0) = n
    split
    · exact refl t
    · split
      · exact hfree _
      · exact (hfree _).trans (credit _ _ _ _ _)
  · exact refl t

theorem setFull (t : Tile) (l : List Nat) : t.Acts (t.setFull l) := withPad t _

theorem setEmpty (t : Tile) (l : List Nat) : t.Acts (t.setEmpty l) := by
  unfold Tile.setEmpty
  split
  · exact refl t
  · exact (withPad t _).trans (returnCredits _)

/-! Accesses of port A. -/

theorem withRing (t : Tile) (n : Nat) (f : Ring → Ring) : t.Acts (t.withRing n f) := by
  unfold Tile.withRing
  split
  · exact withEng t _
  · exact refl t

theorem landSlot (t : Tile) (x : Option (Nat × Nat)) : t.Acts (t.landSlot x) := by
  unfold Tile.landSlot
  split
  · exact withRing t _ _
  · exact refl t

theorem launchFlight (t : Tile) (q : PortQ) (tag : BitVec 3) (lat kind : Nat) (ws : List RegWrite) (opy : Word) (data : List Byte)
    (ring : Option (Nat × Nat)) (opx : DWord) : t.Acts (t.launchFlight q tag lat kind ws opy data ring opx) :=
  withSch t _ fun _ => rfl

theorem portFault (t : Tile) (q : PortQ) (c : Cause) (addr : DWord) (tag : BitVec 3) (ring : Option (Nat × Nat)) :
    t.Acts (t.portFault q c addr tag ring) :=
  ((setTag t _ _).trans (landSlot _ _)).trans (raise _ _ _ _ _ _)

theorem acceptCopy (t : Tile) (ch index seq : Nat) : t.Acts (t.acceptCopy ch index seq) := by
  unfold Tile.acceptCopy
  split
  · exact refl t
  · refine (findErrors t (granules (t.templateAt index) 32)).trans ?_
    dsimp only
    generalize t.findErrors (granules (t.templateAt index) 32) = u
    split
    · exact raise u _ _ _ _ _
    · split
      · exact raise u _ _ _ _ _
      · split <;> exact of_eq rfl rfl rfl rfl rfl

theorem performStart (t : Tile) (ch index : Nat) (staged : Bool) (seq : Nat) : t.Acts (t.performStart ch index staged seq) := by
  have hread : t.Acts (if staged && !t.blocks.isEmpty then t.findErrors (granules (t.templateAt index + 22) 1) else t) := by
    split
    · exact findErrors t _
    · exact refl t
  refine hread.trans ?_
  simp only [Tile.performStart]
  generalize (if (staged && !t.blocks.isEmpty) = true then t.findErrors (granules (t.templateAt index + 22) 1) else t) = u
  split
  · exact of_eq rfl rfl rfl rfl rfl
  · exact acceptCopy u _ _ _

theorem setList (t : Tile) (l : ListOp) : t.Acts (t.setList l) := of_eq rfl rfl rfl rfl rfl

theorem runList (next fin fuel : Nat) (t : Tile) (l : ListOp) : t.Acts (Tile.runList next fin fuel t l) := by
  induction fuel generalizing next fin t l with
  | zero => exact refl t
  | succ fuel ih =>
    unfold Tile.runList
    split
    · exact of_eq rfl rfl rfl rfl rfl
    · next i _ =>
      dsimp only
      split
      · exact of_eq rfl rfl rfl rfl rfl
      · split
        · have hmoved (u : Tile) (bs : List Byte) : u.Acts (Tile.runList (next + 1) (next + 4) fuel
              ((u.withSch fun s => { s with flights := s.flights ++
                [⟨l.seq, next + 4, 0#3, [elementWrite l.file ((l.regs[i]?).getD 0) bs], none, 0, 0#64, 0#32, [], l.info⟩] }).setList
                { l with k := l.k + 1 }) { l with k := l.k + 1 }) :=
            after (ih _ _ _ _) (after (setList _ _) (withSch u _ fun _ => rfl))
          have hfault (u : Tile) (c : Cause) : u.Acts ((u.setList l).raise c (some l.seq) 0 (BitVec.ofNat 64 (l.ea + l.size * i))) :=
            (setList u l).trans (raise _ _ _ _ _ _)
          cases hearly : (if l.order.getLast? = some i then l.early else none) with
          | some e =>
            cases e with
            | error c => exact hfault t c
            | ok bs => exact hmoved t bs
          | none =>
            refine (readPad t ((upTo l.size).map (l.ea + l.size * i + ·))).trans ?_
            cases hcause : (t.readPad ((upTo l.size).map (l.ea + l.size * i + ·))).1 with
            | some c => exact hfault _ c
            | none => exact hmoved _ _
        · exact ((withPad t _).trans (setList _ _)).trans (ih _ _ _ _)

theorem listTurn (t : Tile) (q : PortQ) : t.Acts (t.listTurn q) := by
  unfold Tile.listTurn
  split
  · exact refl t
  · next l _ =>
    dsimp only
    refine Acts.trans (u := _) ?_ (runList _ _ _ _ _)
    split
    · exact (readPad t _).trans (setList _ _)
    · exact setList t _

theorem perform (t : Tile) (q : PortQ) : t.Acts (t.perform q) := by
  unfold Tile.perform
  split
  case h_1 =>
    split
    · exact (readWords t _ _).trans (raise _ _ _ _ _ _)
    · exact ((readWords t _ _).trans (withPad _ _)).trans (setFull _ _)
  case h_2 => exact performStart t _ _ _ _
  case h_3 plan take _ =>
    refine (readPad t (plan.addrs.filter (· < padSize))).trans ?_
    dsimp only
    split
    · exact portFault _ _ _ _ _ _
    · exact (launchFlight _ _ _ _ _ _ _ _ _ _).trans (setEmpty _ _)
  case h_4 a _ _ _ _ =>
    refine (readPad t ((upTo 4).map (a + ·))).trans ?_
    dsimp only
    split
    · exact portFault _ _ _ _ _ _
    · exact (withPad _ _).trans (launchFlight _ _ _ _ _ _ _ _ _ _)
  case h_5 obj _ _ _ =>
    refine (readPad t ((upTo 16).map (obj + ·))).trans ?_
    dsimp only
    split
    · exact portFault _ _ _ _ _ _
    · split
      · exact (withPad _ _).trans (setTag _ _ _)
      · exact (withPad _ _).trans (portFault _ _ _ _ _ _)
  case h_6 obj _ _ _ =>
    refine (readPad t ((upTo 16).map (obj + ·))).trans ?_
    dsimp only
    split
    · exact portFault _ _ _ _ _ _
    · exact withPad _ _
  case h_7 obj _ _ =>
    refine (readPad t ((upTo 16).map (obj + ·))).trans ?_
    dsimp only
    split
    · exact portFault _ _ _ _ _ _
    · split
      · exact portFault _ _ _ _ _ _
      · exact withPad _ _
  case h_8 obj _ _ =>
    refine (readPad t ((upTo 16).map (obj + ·))).trans ?_
    dsimp only
    split
    · exact portFault _ _ _ _ _ _
    · exact withPad _ _
  case h_9 obj _ _ _ =>
    refine (readPad t ((upTo 16).map (obj + ·))).trans ?_
    dsimp only
    split
    · exact portFault _ _ _ _ _ _
    · exact launchFlight _ _ _ _ _ _ _ _ _ _
  case h_10 =>
    split
    · exact setFull t _
    · exact setEmpty t _
  case h_11 => exact launchFlight _ _ _ _ _ _ _ _ _ _
  case h_12 => exact listTurn t q

theorem dequeue (t : Tile) (l : List PortQ) : t.Acts { t with pad := { t.pad with queue := l } } := of_eq rfl rfl rfl rfl rfl

theorem performHead (t : Tile) : t.Acts t.performHead := by
  unfold Tile.performHead
  split
  · exact refl t
  · split
    · exact (dequeue t _).trans (perform _ _)
    · exact refl t

theorem drainReady (fuel : Nat) (t : Tile) : t.Acts (Tile.drainReady fuel t) := by
  induction fuel generalizing t with
  | zero => exact refl t
  | succ fuel ih =>
    unfold Tile.drainReady
    split
    · exact refl t
    · split
      · exact (performHead t).trans (ih _)
      · exact refl t

theorem drainAll (fuel : Nat) (t : Tile) : t.Acts (Tile.drainAll fuel t) := by
  induction fuel generalizing t with
  | zero => exact refl t
  | succ fuel ih =>
    unfold Tile.drainAll
    split
    · exact refl t
    · exact ((dequeue t _).trans (perform _ _)).trans (ih _)

theorem portA (t : Tile) (seq : Nat) (act : PortAct) (delay : Nat) (info : SlotInfo) : t.Acts (t.portA seq act delay info) := by
  simp only [Tile.portA]
  split
  · exact dequeue t _
  · exact (dequeue t _).trans (drainReady _ _)

theorem beforeB (t : Tile) (l : List Nat) : t.Acts (t.beforeB l) := by
  unfold Tile.beforeB
  split
  · exact drainReady _ _
  · exact refl t

theorem writeRun (t : Tile) (a : Nat) (l : List Byte) : t.Acts { t with pad := t.pad.writeRun a l } := of_eq rfl rfl rfl rfl rfl

theorem writeBlocks (t : Tile) (l : List Captured) : t.Acts (t.writeBlocks l) := by
  refine foldl (fun t x => ?_) _ t
  split
  · exact ite (writeRun t _ _) (refl t)
  · exact foldl (fun t _ => writeRun t _ _) _ t
  · exact refl t

theorem writeDigits (t : Tile) (fin : Nat) : t.Acts (t.writeDigits fin) := by
  refine foldl (fun t n => ?_) _ t
  split
  · exact withPad t _
  · exact refl t

theorem landWrites (t : Tile) (seq : Nat) (l : List RegWrite) : t.Acts (t.landWrites seq l) := of_eq rfl rfl rfl rfl rfl

theorem landFlight (t : Tile) (f : Flight) : t.Acts (t.landFlight f) :=
  after (setTag _ _ _) (after (landSlot _ _) (after (landWrites _ _ _) (withSch t _ fun _ => rfl)))

theorem clearLists (t : Tile) : t.Acts { t with lists := [] } := of_eq rfl rfl rfl rfl rfl

/-- The frame of a trap is written (R325). -/
theorem writeFrame (t : Tile) (fin tstat : Nat) (fmt : Word) (cause : Cause) (b : Bool) (slot : Nat) (faddr info : DWord)
    (resume : Word) : t.Acts (t.writeFrame fin tstat fmt cause b slot faddr info resume) := by
  simp only [Tile.writeFrame]
  refine after (withSch _ _ fun _ => rfl) (after (clearLists _) ?_)
  exact after (foldl (fun t n => setTag t n .free) _ _) (after (writeDigits _ _) (after (writeBlocks _ _) (writeRun t _ _)))

theorem goes {t u : Tile} (h : t.Acts u) : t.Goes u := ⟨h.coord, h.pos, congrArg Ctl.still h.ctl, h.stays⟩

end Tile.Acts

namespace Tile.Goes

theorem refl (t : Tile) : t.Goes t := (Acts.refl t).goes

theorem trans {t u v : Tile} (h : t.Goes u) (h' : u.Goes v) : t.Goes v :=
  ⟨h'.coord.trans h.coord, h'.pos.trans h.pos, h'.ctl.trans h.ctl, h.stays.trans h'.stays⟩

theorem after {t u v : Tile} (h' : u.Goes v) (h : t.Goes u) : t.Goes v := h.trans h'

theorem ite {t u v : Tile} {c : Prop} [Decidable c] (hu : t.Goes u) (hv : t.Goes v) : t.Goes (if c then u else v) := by
  split
  · exact hu
  · exact hv

/-! Results that come in. -/

theorem landFlight (t : Tile) (f : Flight) : t.Goes (t.landFlight f) := (Acts.landFlight t f).goes

theorem orFlags (t : Tile) (f : Flags5) : t.Goes (t.withCtl fun c => c.orFlags f) := ⟨rfl, rfl, rfl, .inl ⟨rfl, rfl⟩⟩

theorem completeV (t : Tile) (o : VOp) : t.Goes (t.completeV o) := by
  have hwrite : t.Goes (((((t.withSch fun s => s.leaveV o).landWrites o.seq o.writes).withCtl fun c => c.orFlags o.flags)).setTag
      o.tag.toNat .free) :=
    after (Acts.goes (Acts.setTag _ _ _)) (after (orFlags _ _) (Acts.goes (Acts.after (Acts.landWrites _ _ _) (Acts.withSch t _ fun _ => rfl))))
  simp only [Tile.completeV]
  split
  · exact hwrite.trans (Acts.goes (Acts.raise _ _ _ _ _ _))
  · exact hwrite

theorem decideV (t : Tile) (o : VOp) (e : Nat) : t.Goes (t.decideV o e) := by
  refine after (completeV _ o) (Acts.goes (Acts.foldl (fun t u => ?_) _ t))
  exact Acts.after (Acts.setTag _ _ _) (Acts.withSch t _ fun _ => rfl)

theorem landNext (t : Tile) : t.Goes t.landNext := by
  simp only [Tile.landNext]
  split
  · split
    · exact landFlight t _
    · exact completeV t _
  · exact landFlight t _
  · exact completeV t _
  · exact refl t

theorem comeIn (fuel : Nat) (t : Tile) : t.Goes (Tile.comeIn fuel t) := by
  induction fuel generalizing t with
  | zero => exact refl t
  | succ fuel ih =>
    unfold Tile.comeIn
    split
    · exact (landNext t).trans (ih _)
    · split
      · split
        · exact (decideV t _ _).trans (ih _)
        · exact refl t
      · exact refl t

theorem tick (t : Tile) : t.Goes t.tick := ⟨rfl, rfl, rfl, .inl ⟨rfl, rfl⟩⟩

theorem runOn (n : Nat) (t : Tile) : t.Goes (Tile.runOn n t) := by
  induction n generalizing t with
  | zero => exact comeIn _ t
  | succ n ih =>
    unfold Tile.runOn
    exact after (ih _) (after (tick _) (comeIn _ t))

theorem settleForTrap (t : Tile) : t.Goes t.settleForTrap.1 := by
  simp only [Tile.settleForTrap]
  exact after (Acts.goes (Acts.withSch _ _ fun _ => rfl)) (after (runOn _ _) (Acts.goes (Acts.drainAll _ t)))

/-! The trap itself (R322). -/

theorem takeTrap (t : Tile) (cause : Cause) (b : Bool) (slot : Nat) (faddr info : DWord) (resume : Word) :
    t.Goes (t.takeTrap cause b slot faddr info resume) := by
  simp only [Tile.takeTrap]
  have hframe := after (Acts.writeFrame t.settleForTrap.1 t.settleForTrap.2 t.tstat t.ctl.fmt cause b slot faddr info resume).goes (settleForTrap t)
  refine ite (settleForTrap t) (ite ?_ ?_)
  · exact after (Acts.goes (Acts.halt _ _)) hframe
  · exact after (Acts.goes (Acts.withSch _ _ fun _ => rfl)) hframe

end Tile.Goes

theorem Ctl.tvec_of_still {c d : Ctl} (h : c.still = d.still) : c.tvec = d.tvec :=
  (congrArg Ctl.tvec h : c.still.tvec = d.still.tvec)

/-- A tile that has gone on and has nothing to report, where it had nothing before, has the status it had. -/
theorem Tile.Goes.status {t u : Tile} (h : t.Goes u) (hr : u.recs = []) : u.sch.status = t.sch.status :=
  h.stays.elim (fun h => h.1) fun h => absurd hr h.2

theorem le_foldl_max {α : Type} (f : α → Nat) (l : List α) (m : Nat) : m ≤ l.foldl (fun m x => Nat.max m (f x)) m := by
  induction l generalizing m with
  | nil => exact le_refl m
  | cons x l ih => exact le_trans (le_max_left m (f x)) (ih _)

theorem Tile.le_settleCycle (t : Tile) : t.sch.cycle ≤ t.settleCycle := by
  simp only [Tile.settleCycle]
  exact le_trans (le_foldl_max _ _ _) (le_trans (le_foldl_max _ _ _) (le_foldl_max _ _ _))

theorem Tile.le_settleForTrap (t : Tile) : t.sch.cycle ≤ t.settleForTrap.2 := le_trans t.le_settleCycle (le_max_left _ _)

/-- A trap with a handler that reports nothing is taken (R322). -/
theorem Tile.takeTrap_taken {t : Tile} {cause : Cause} {b : Bool} {slot : Nat} {faddr info : DWord} {resume : Word}
    (htvec : t.ctl.tvec ≠ 0#32) (hr : (t.takeTrap cause b slot faddr info resume).recs = []) :
    let u := t.takeTrap cause b slot faddr info resume
    u.sch.tm = true ∧ u.sch.pc = t.ctl.tvec ∧ t.sch.cycle + 12 ≤ u.sch.ready ∧ u.ctl.tvec = t.ctl.tvec ∧
      u.sch.status = t.sch.status := by
  intro u
  have hgoes := Tile.Goes.takeTrap t cause b slot faddr info resume
  have hst := hgoes.status hr
  have htv : u.ctl.tvec = t.ctl.tvec := Ctl.tvec_of_still hgoes.ctl
  have hsettle := Tile.Goes.settleForTrap t
  have hwrite := Tile.Goes.after
    (Tile.Acts.writeFrame t.settleForTrap.1 t.settleForTrap.2 t.tstat t.ctl.fmt cause b slot faddr info resume).goes hsettle
  have hne : ¬ (t.settleForTrap.1.writeFrame t.settleForTrap.2 t.tstat t.ctl.fmt cause b slot faddr info resume).ctl.tvec = 0#32 := by
    rw [Ctl.tvec_of_still hwrite.ctl]
    exact htvec
  have hrun : ¬ (t.settleForTrap.1.sch.status == .halted && t.sch.status != .halted) = true := by
    intro hhalt
    have hu : u = t.settleForTrap.1 := if_pos hhalt
    simp only [Bool.and_eq_true, beq_iff_eq, bne_iff_ne] at hhalt
    exact hhalt.2 (hst.symm.trans ((congrArg (·.sch.status) hu).trans hhalt.1))
  have hu : u = (t.settleForTrap.1.writeFrame t.settleForTrap.2 t.tstat t.ctl.fmt cause b slot faddr info resume).withSch fun s =>
      { s with
        tm := true, tmSeq := s.seq, own := []
        cbdAtTrap := (t.settleForTrap.1.writeFrame t.settleForTrap.2 t.tstat t.ctl.fmt cause b slot faddr info resume).blocks.length
        pc := (t.settleForTrap.1.writeFrame t.settleForTrap.2 t.tstat t.ctl.fmt cause b slot faddr info resume).ctl.tvec
        ready := t.settleForTrap.2 + 12 + 4 * s.captured.length
        waited := 0, stall := none, alloc := [], xfer := none, cost := 0, closing := [] } :=
    (if_neg hrun).trans (if_neg hne)
  refine ⟨by rw [hu]; rfl, ?_, ?_, htv, hst⟩
  · rw [hu]
    exact Ctl.tvec_of_still hwrite.ctl
  · rw [hu]
    have := t.le_settleForTrap
    show t.sch.cycle + 12 ≤ t.settleForTrap.2 + 12 + 4 * _
    omega

/-! Reports go out (R139, R335): the tile in turn and the others stay. -/

theorem State.flushOne_frame (t : Tile) (s : State) (r : TRec) :
    (State.flushOne t s r).core = s.core ∧ (State.flushOne t s r).others = s.others := by
  simp only [State.flushOne]
  split
  · split <;> exact ⟨rfl, rfl⟩
  · exact ⟨rfl, rfl⟩

theorem State.flushAll_frame (t : Tile) (l : List TRec) (s : State) :
    (l.foldl (State.flushOne t) s).core = s.core ∧ (l.foldl (State.flushOne t) s).others = s.others := by
  induction l generalizing s with
  | nil => exact ⟨rfl, rfl⟩
  | cons r l ih =>
    obtain ⟨hcore, hothers⟩ := ih (State.flushOne t s r)
    obtain ⟨hcore', hothers'⟩ := State.flushOne_frame t s r
    exact ⟨hcore.trans hcore', hothers.trans hothers'⟩

theorem State.flush_frame (s : State) : s.flush.core = { s.core with recs := [] } ∧ s.flush.others = s.others := by
  unfold State.flush
  split
  · next hr => exact ⟨by rw [← hr], rfl⟩
  · exact State.flushAll_frame _ _ _

/-! TRAP and BKPT (R228). -/

/-- A slot alone in its bundle whose checks raise a cause. -/
theorem runSlot_raise {i : Instr} {h : Hdr} {sem : SlotInfo → Sem} {s : State} {c : Cause} {faddr info : DWord} {frees : List Nat}
    (hs : s.Ready h.guard) (henc : (sem (s.core.slotInfo i 0)).enc s.core = true)
    (hchk : (sem (s.core.slotInfo i 0)).check s.core = .raise c faddr info frees) :
    runSlot i h sem s = .next (State.flush (State.noteEnd (s.withCore ((s.core.freeTags frees).issueCause c 0 faddr info)))) := by
  simp only [runSlot, issueSlot, hs.alone, Tile.issueOne, henc, hs.guard, hchk, State.withCore, Bool.not_true,
    Bool.false_eq_true, if_false]

theorem Tile.issueCause_plain {t : Tile} {c : Cause} {slot : Nat} {faddr info : DWord} (hc : isContainment c = false) :
    t.issueCause c slot faddr info = t.issueTrap c slot faddr info := by
  rw [Tile.issueCause, hc]
  simp

theorem Tile.issueTrap_masked {t : Tile} {c : Cause} {slot : Nat} {faddr info : DWord} (hf : c ≠ .fetchecc) (htm : t.sch.tm = true) :
    t.issueTrap c slot faddr info = t.doubleTrap c := by
  rw [Tile.issueTrap, if_neg hf, if_pos htm]

theorem Tile.issueTrap_unmasked {t : Tile} {c : Cause} {slot : Nat} {faddr info : DWord} (hf : c ≠ .fetchecc) (htm : t.sch.tm = false) :
    t.issueTrap c slot faddr info = t.takeTrap c false slot faddr info t.sch.pc := by
  rw [Tile.issueTrap, if_neg hf, if_neg (ne_true_of_eq_false htm)]

theorem State.noteEnd_of_ne {s : State} (h : s.core.sch.status ≠ .ended) : s.noteEnd = s := if_neg h

/-- A slot alone in its bundle that raises a cause with traps unmasked takes its trap (R322, R323). -/
theorem runSlot_trap {i : Instr} {h : Hdr} {sem : SlotInfo → Sem} {s : State} {c : Cause} {faddr info : DWord}
    (hs : s.Ready h.guard) (henc : (sem (s.core.slotInfo i 0)).enc s.core = true)
    (hchk : (sem (s.core.slotInfo i 0)).check s.core = .raise c faddr info [])
    (hc : isContainment c = false) (hf : c ≠ .fetchecc) (htm : s.core.sch.tm = false) (htvec : s.core.ctl.tvec ≠ 0#32)
    (hr : (s.core.takeTrap c false 0 faddr info s.core.sch.pc).recs = []) :
    ∃ u, runSlot i h sem s = .next u ∧ u.core = s.core.takeTrap c false 0 faddr info s.core.sch.pc ∧
      u.core.sch.tm = true ∧ u.core.sch.pc = u.core.ctl.tvec ∧ u.core.ctl.tvec = s.core.ctl.tvec ∧ u.dev = s.dev := by
  obtain ⟨hmask, hpc, -, htv, hst⟩ := Tile.takeTrap_taken htvec hr
  have hcause : (s.core.freeTags []).issueCause c 0 faddr info = s.core.takeTrap c false 0 faddr info s.core.sch.pc :=
    (Tile.issueCause_plain hc).trans (Tile.issueTrap_unmasked hf htm)
  have hexec := runSlot_raise hs henc hchk
  rw [hcause, flush_noteEnd_quiet hr (ne_of_eq_of_ne (hst.trans hs.between.running) (by decide))] at hexec
  exact ⟨_, hexec, rfl, hmask, hpc.trans htv.symm, htv, rfl⟩

/-- Settles O29: TRAP queues its cause behind the older ones or is a double trap; BKPT does not issue. -/
theorem trapSlots : Obligations.TrapSlots := by
  refine ⟨fun s h n hs => ⟨fun htm hroom => ?trap, fun htm hseq => ?double⟩, fun s h n hs htm htvec hr => ?bkpt, fun s h n hs htm => ?masked⟩
  case trap =>
    have hraise : s.core.raise .trapi (some s.core.sch.seq) 0 (n.setWidth 64) = s.core.withSch fun c =>
        { c with pend := insertPending ⟨.trapi, n.setWidth 64, 0#64, c.cycle, 0, some s.core.sch.seq⟩ c.pend } := by
      have hdetect : s.core.detect .trapi = s.core := rfl
      rw [Tile.raise, hdetect, Tile.await, htm]
      simp [Nat.not_le.mpr hroom]
    have hissue : Issues (.trap h n) s _ := issues_of_effect _ hs rfl hraise rfl rfl hs.between.noClosing hs.between.running hs.between.noReports
    refine ⟨_, hissue, ?_⟩
    have hcl : (Tile.bump (s.core.withSch fun c =>
        { c with pend := insertPending ⟨.trapi, n.setWidth 64, 0#64, c.cycle, 0, some s.core.sch.seq⟩ c.pend })).sch.closing = [] :=
      hs.between.noClosing
    rw [State.after_core, Tile.close_eq _ hcl]
    have hx : s.core.sch.xfer = none := hs.between.noTransfer
    refine ⟨rfl, ?_, rfl, rfl, rfl⟩
    show (s.core.sch.xfer.getD _) = _
    rw [hx]
    rfl
  case double =>
    have hraise : s.core.raise .trapi (some s.core.sch.seq) 0 (n.setWidth 64) = s.core.doubleTrap .trapi := by
      have hdetect : s.core.detect .trapi = s.core := rfl
      rw [Tile.raise, hdetect, Tile.await, htm]
      simp [hseq]
    have hcl : (s.core.doubleTrap .trapi).bump.sch.closing = [] := hs.between.noClosing
    have hst : ((s.core.doubleTrap .trapi).bump.close (encode (.trap h n)).length).sch.status = .halted := Tile.close_status _ hcl
    have hexec : exec (.trap h n) s = _ := runSlot_alone (sem := fun _ => { eff := fun _ t => t.raise .trapi (some t.sch.seq) 0 (n.setWidth 64) })
      hs rfl rfl
    simp only [hraise] at hexec
    refine ⟨_, hexec, ?_⟩
    rw [State.noteEnd_of_ne (by rw [State.after_core, hst]; decide), (State.flush_frame _).1, State.after_core]
    exact ⟨hst, Tile.close_files _ hcl, by rw [Tile.close_pad _ hcl]; rfl⟩
  case bkpt =>
    exact runSlot_trap (i := .bkpt h n) (sem := fun _ => { check := fun _ => .raise .brkpt 0#64 0#64 [], eff := fun _ t => t })
      hs rfl rfl rfl (by decide) htm htvec hr
  case masked =>
    have hexec := runSlot_raise (i := .bkpt h n) (sem := fun _ => { check := fun _ => .raise .brkpt 0#64 0#64 [], eff := fun _ t => t })
      hs rfl rfl
    have hcause : (s.core.freeTags []).issueCause .brkpt 0 0#64 0#64 = s.core.doubleTrap .brkpt :=
      (Tile.issueCause_plain rfl).trans (Tile.issueTrap_masked (by decide) htm)
    rw [hcause, State.noteEnd_of_ne (by simp [Tile.doubleTrap, Tile.halt])] at hexec
    refine ⟨_, hexec, ?_⟩
    obtain ⟨hcore, hothers⟩ := State.flush_frame (s.withCore (s.core.doubleTrap .brkpt))
    rw [hcore, hothers]
    exact ⟨rfl, rfl, rfl, rfl, rfl⟩

end Sys2Proof.Machine
end

section
/-! SUPPORT. RFT reads its frame back: entries are injected again, the header's fields come into force (R326 to R329); and the statement
about it. -/

namespace Sys2Proof.Machine

namespace Tile.Acts

theorem reinjectFlight (c : Nat) (t : Tile) (e : Nat) (x : Option Captured) (lat : Nat) (ws : List RegWrite) (data : List Byte) :
    t.Acts (t.reinjectFlight c e x lat ws data) := after (setTag _ _ _) (withSch t _ fun _ => rfl)

theorem reviveLink (t : Tile) (m : Memory) (c n : Nat) (k : Option Nat) : t.Acts (t.reviveLink m c n k) := by
  unfold Tile.reviveLink
  split
  · exact refl t
  · split
    · exact withSch t _ fun _ => rfl
    · exact of_eq rfl rfl rfl rfl rfl
    · exact refl t

theorem setLinks (t : Tile) (v : Vector (Option Link) 4) (k : Nat) :
    t.Acts { t with sch := { t.sch with links := v }, free := k } := of_eq rfl rfl rfl rfl rfl

theorem withAccs (t : Tile) (l : List BulkAcc) : t.Acts { t with accs := l } := of_eq rfl rfl rfl rfl rfl

theorem enterList (t : Tile) (l : List ListOp) (k : Nat) : t.Acts { t with lists := l, sch := { t.sch with seq := k } } :=
  of_eq rfl rfl rfl rfl rfl

theorem reinjectV (c : Nat) (m : Memory) (t : Tile) (e : Nat) (x : Option Captured) (i : Instr) : t.Acts (t.reinjectV c m e x i) := by
  refine after ?_ (foldl (fun t n => reviveLink t m c n none) ((linkOperands i).map (·.2)) t)
  unfold Tile.reinjectV
  dsimp only
  split
  · exact after (setTag _ _ _) (withSch _ _ fun _ => rfl)
  · exact after (setLinks _ _ _) (after (setTag _ _ _) (withSch _ _ fun _ => rfl))

theorem reinjectList (t : Tile) (e : Nat) (x : Option Captured) (fill : Bool) (bs n : BitVec 4) (code : BitVec 2) :
    t.Acts (t.reinjectList e x fill bs n code) := by
  simp only [Tile.reinjectList]
  have hdrop (b : Bool) (l : List BulkAcc) : t.Acts (if b then t else { t with accs := l }) := ite (refl t) (withAccs t l)
  exact ite (after (setTag _ _ _) (after (enterList _ _ _) (hdrop _ _)))
    (after (portA _ _ _ _ _) (after (setTag _ _ _) (after (enterList _ _ _) (hdrop _ _))))

theorem reinjectBulk (t : Tile) (e : Nat) : t.Acts (t.reinjectBulk e) := after (setTag _ _ _) (of_eq rfl rfl rfl rfl rfl)

theorem reinjectAcq (t : Tile) (e : Nat) : t.Acts (t.reinjectAcq e) := after (setTag _ _ _) (of_eq rfl rfl rfl rfl rfl)

theorem reinject (c : Nat) (m : Memory) (t : Tile) (e : Nat) (x : Option Captured) : t.Acts (t.reinject c m e x) := by
  unfold Tile.reinject
  dsimp only
  split
  · exact reinjectFlight _ _ _ _ _ _ _
  · exact reinjectFlight _ _ _ _ _ _ _
  · exact reinjectFlight _ _ _ _ _ _ _
  · exact reinjectFlight _ _ _ _ _ _ _
  · exact ite (reinjectV _ _ _ _ _ _) (refl t)
  · exact reinjectList _ _ _ _ _ _ _
  · exact reinjectList _ _ _ _ _ _ _
  · exact reinjectBulk _ _
  · exact reinjectAcq _ _
  · exact reviveLink _ _ _ _ _
  · exact refl t

end Tile.Acts

/-! Fields of a number in memory. -/

theorem bytesVal_append (l r : List Byte) : bytesVal (l ++ r) = bytesVal l + 256 ^ l.length * bytesVal r := by
  induction l with
  | nil => simp [bytesVal]
  | cons b l ih => rw [List.cons_append, bytesVal, bytesVal, ih, List.length_cons]; ring

theorem Memory.bytes_add (m : Memory) (a k n : Nat) : m.bytes a (k + n) = m.bytes a k ++ m.bytes (a + k) n := by
  induction k generalizing a with
  | zero => simp [Memory.bytes]
  | succ k ih =>
    rw [Nat.succ_add, Memory.bytes, ih, Memory.bytes, List.cons_append, Nat.add_assoc, Nat.add_comm 1 k]

theorem Memory.val_add (m : Memory) (a k n : Nat) : m.val a (k + n) = m.val a k + 256 ^ k * m.val (a + k) n := by
  rw [Memory.val, Memory.bytes_add, bytesVal_append, Memory.bytes_length]
  rfl

theorem Memory.val_lt (m : Memory) (a n : Nat) : m.val a n < 256 ^ n := by
  have h := bytesVal_lt (m.bytes a n)
  rwa [Memory.bytes_length] at h

/-- The bytes within a number in memory are a field of it. -/
theorem Memory.bitsOf_val (m : Memory) (a : Nat) {n k j : Nat} (h : k + j ≤ n) :
    bitsOf (m.val a n) (8 * k) (8 * j) = m.val (a + k) j := by
  obtain ⟨r, rfl⟩ := Nat.exists_eq_add_of_le h
  have hpow (i : Nat) : 2 ^ (8 * i) = 256 ^ i := pow_mul 2 8 i
  have hsplit : m.val a (k + j + r) = m.val a k + 256 ^ k * (m.val (a + k) j + 256 ^ j * m.val (a + k + j) r) := by
    rw [Nat.add_assoc, Memory.val_add, Memory.val_add]
  rw [bitsOf, hpow, hpow, hsplit, Nat.add_mul_div_left _ _ (Nat.pow_pos (by decide)), Nat.div_eq_of_lt (m.val_lt a k), Nat.zero_add,
    Nat.add_mul_mod_self_left, Nat.mod_eq_of_lt (m.val_lt (a + k) j)]

theorem bitsOf_bitsOf (w lo : Nat) {len i k : Nat} (h : i + k ≤ len) : bitsOf (bitsOf w lo len) i k = bitsOf w (lo + i) k := by
  obtain ⟨r, rfl⟩ := Nat.exists_eq_add_of_le h
  rw [bitsOf, bitsOf, bitsOf, Nat.add_assoc, pow_add 2 i, Nat.mod_mul_right_div_self, Nat.div_div_eq_div_mul, ← pow_add, pow_add 2 k,
    Nat.mod_mul_right_mod]

/-- A word of the frame's header. -/
theorem ofNat_bitsOf_frame (m : Memory) {k : Nat} (h : k + 4 ≤ 128) :
    BitVec.ofNat 32 (bitsOf (m.val 0x2F000 128) (8 * k) 32) = m.word (0x2F000 + k) :=
  congrArg (BitVec.ofNat 32) (Memory.bitsOf_val m _ h)

/-! The return (R328, R329). -/

/-- The tile with what the header of its frame gives. -/
def Tile.reloaded (t : Tile) : Tile :=
  let m := t.frameMem
  let h := m.val 0x2F000 8
  let hdr := m.val 0x2F000 128
  { t with
    ctl := { t.ctl with
      rrb := bitsOf h 8 4, vbud := bitsOf h 32 5, fmt := m.word 0x2F03C, fmtNext := []
      lc := m.word 0x2F040, ec := m.word 0x2F044 }
    sch := { t.sch with
      lstk := (upTo (bitsOf h 37 3)).map fun i =>
        (BitVec.ofNat 32 (bitsOf hdr (576 + 64 * i) 32), BitVec.ofNat 32 (bitsOf hdr (608 + 64 * i) 32))
      rstk := (upTo (bitsOf h 40 5)).map fun i => BitVec.ofNat 32 (4 * bitsOf hdr (832 + 12 * i) 12)
      links := Vector.replicate 4 none } }

/-- The tile with the entries of its frame injected again, `c` the cycle of RFT's issue. -/
def Tile.reinjected (t : Tile) (c : Nat) : Tile :=
  ((upTo (frameEntries t.frameMem).length).zip (frameEntries t.frameMem)).foldl
    (fun u x => Tile.reinject c t.frameMem u x.2 t.sch.captured[x.1]?) t.reloaded

theorem Tile.reinjected_acts (t : Tile) (c : Nat) : t.reloaded.Acts (t.reinjected c) :=
  Tile.Acts.foldl (fun _ _ => Tile.Acts.reinject _ _ _ _ _) _ _

/-- The latest of the results that RFT puts in flight again. -/
def Tile.reinjectedLast (t : Tile) (c : Nat) : Nat :=
  ((t.reinjected c).sch.flights.filter fun f => f.kind != 0 && f.tag != 0#3).foldl (fun m f => Nat.max m f.due)
    (c + 8 + 4 * (frameEntries t.frameMem).length)

theorem frameEntries_length (m : Memory) : (frameEntries m).length = bitsOf (m.val 0x2F000 8) 12 5 := by
  simp [frameEntries, upTo]

/-- The tile that a frame in order gives back. -/
def Tile.returned (t : Tile) (c : Nat) : Tile :=
  (t.reinjected c).withSch fun s =>
    { s with
      tm := false, own := [], captured := [], capLinks := Vector.replicate 4 none, capFin := 0
      pc := BitVec.ofNat 32 (4 * bitsOf (t.frameMem.val 0x2F000 8) 20 12)
      ready := Nat.max s.ready (t.reinjectedLast c) }

/-- A frame that is in order and does not escalate is reloaded, and traps become unmasked. -/
theorem Tile.returnFromTrap_good {t : Tile} (c : Nat) (hbad : t.frameBad = false) (hesc : bitOf (t.frameMem.val 0x2F000 8) 45 = false) :
    t.returnFromTrap c = t.returned c := by
  simp only [Tile.returnFromTrap, hbad, hesc, Bool.false_eq_true, if_false]
  rfl

theorem Tile.returned_ctl (t : Tile) (c : Nat) : (t.returned c).ctl = t.reloaded.ctl := (t.reinjected_acts c).ctl

theorem Tile.returned_sch (t : Tile) (c : Nat) : (t.returned c).sch.tm = false ∧ (t.returned c).sch.own = [] ∧
    (t.returned c).sch.pc = BitVec.ofNat 32 (4 * bitsOf (t.frameMem.val 0x2F000 8) 20 12) ∧
    c + 8 + 4 * bitsOf (t.frameMem.val 0x2F000 8) 12 5 ≤ (t.returned c).sch.ready := by
  refine ⟨rfl, rfl, rfl, le_trans ?_ (le_max_right _ _)⟩
  rw [← frameEntries_length]
  exact le_foldl_max _ _ _

theorem Tile.returned_status {t : Tile} (c : Nat) (h : t.sch.status = .running) : (t.returned c).sch.status ≠ .ended := by
  rcases (t.reinjected_acts c).stays with ⟨hsame, -⟩ | ⟨hhalt, -⟩
  · exact ne_of_eq_of_ne (hsame.trans h) (by decide)
  · exact ne_of_eq_of_ne hhalt (by decide)

/-- A frame that is malformed, or escalates, halts the tile. -/
theorem Tile.returnFromTrap_halts {t : Tile} (c : Nat) (h : t.frameBad = true ∨ bitOf (t.frameMem.val 0x2F000 8) 45 = true) :
    ∃ r, t.returnFromTrap c = t.halt r := by
  simp only [Tile.returnFromTrap]
  split
  · exact ⟨_, rfl⟩
  · next hbad =>
    rcases h with h | h
    · exact absurd h hbad
    · rw [if_pos h]
      exact ⟨_, rfl⟩

/-- With no entry nothing is injected again. -/
theorem Tile.reinjected_of_none {t : Tile} (c : Nat) (h : bitsOf (t.frameMem.val 0x2F000 8) 12 5 = 0) : t.reinjected c = t.reloaded := by
  have hnone : frameEntries t.frameMem = [] := by
    rw [frameEntries, h]
    rfl
  rw [Tile.reinjected, hnone]
  rfl

theorem Tile.length_le_of_frameGood {t : Tile} (h : t.frameBad = false) :
    bitsOf (t.frameMem.val 0x2F000 8) 37 3 ≤ 4 ∧ bitsOf (t.frameMem.val 0x2F000 8) 40 5 ≤ 16 := by
  simp only [Tile.frameBad, Bool.or_eq_false_iff, decide_eq_false_iff_not] at h
  obtain ⟨⟨⟨⟨⟨⟨⟨⟨-, hr⟩, hl⟩, -⟩, -⟩, -⟩, -⟩, -⟩, -⟩ := h
  exact ⟨Nat.not_lt.mp hl, Nat.not_lt.mp hr⟩

theorem Tile.reloaded_lstk {t : Tile} (h : t.frameBad = false) :
    t.reloaded.sch.lstk = (upTo (bitsOf (t.frameMem.val 0x2F000 8) 37 3)).map fun i =>
      (t.frameMem.word (0x2F048 + 8 * i), t.frameMem.word (0x2F04C + 8 * i)) := by
  obtain ⟨hlen, -⟩ := Tile.length_le_of_frameGood h
  refine List.map_congr_left fun i hi => ?_
  have hi' : i < bitsOf (t.frameMem.val 0x2F000 8) 37 3 := by simpa [upTo] using hi
  have hlo := ofNat_bitsOf_frame t.frameMem (k := 72 + 8 * i) (by omega)
  have hhi := ofNat_bitsOf_frame t.frameMem (k := 76 + 8 * i) (by omega)
  rw [show 8 * (72 + 8 * i) = 576 + 64 * i by ring, show 0x2F000 + (72 + 8 * i) = 0x2F048 + 8 * i by omega] at hlo
  rw [show 8 * (76 + 8 * i) = 608 + 64 * i by ring, show 0x2F000 + (76 + 8 * i) = 0x2F04C + 8 * i by omega] at hhi
  rw [hlo, hhi]

theorem Tile.reloaded_rstk {t : Tile} (h : t.frameBad = false) :
    t.reloaded.sch.rstk = (upTo (bitsOf (t.frameMem.val 0x2F000 8) 40 5)).map fun i =>
      BitVec.ofNat 32 (4 * bitsOf (t.frameMem.val 0x2F068 24) (12 * i) 12) := by
  obtain ⟨-, hlen⟩ := Tile.length_le_of_frameGood h
  refine List.map_congr_left fun i hi => ?_
  have hi' : i < bitsOf (t.frameMem.val 0x2F000 8) 40 5 := by simpa [upTo] using hi
  have hrun : t.frameMem.val 0x2F068 24 = bitsOf (t.frameMem.val 0x2F000 128) 832 192 :=
    (t.frameMem.bitsOf_val 0x2F000 (n := 128) (k := 104) (j := 24) (by decide)).symm
  rw [hrun, bitsOf_bitsOf _ _ (by omega)]

/-- With no entry both stacks are the header's, and registers and memory stay. -/
theorem Tile.returned_of_none {t : Tile} (c : Nat) (h : bitsOf (t.frameMem.val 0x2F000 8) 12 5 = 0) :
    (t.returned c).files = t.files ∧ (t.returned c).pad = t.pad ∧ (t.returned c).recs = t.recs ∧
      (t.returned c).sch.lstk = t.reloaded.sch.lstk ∧ (t.returned c).sch.rstk = t.reloaded.sch.rstk := by
  rw [Tile.returned, Tile.reinjected_of_none c h]
  exact ⟨rfl, rfl, rfl, rfl, rfl⟩

/-- RFT whose handler is done acts on its tile as its bundle closes. -/
theorem exec_rft {s : State} {h : Hdr} (hs : s.Ready h.guard) (htm : s.core.sch.tm = true) (hown : s.core.sch.own = [])
    (hvops : s.core.sch.vops = []) :
    exec (.rft h) s =
      .next (State.flush (State.noteEnd (s.withCore ((s.core.bump.close 1).returnFromTrap s.core.sch.cycle)))) := by
  refine runSlot_atClose (i := .rft h) (x := .rft) (sem := fun _ =>
    { check := fun t => Check.all [need t.sch.tm .illop, waitFirst (t.sch.own.isEmpty && t.sch.vops.isEmpty) (mkStall .plain)]
      eff := fun _ t => t.atClose .rft }) hs rfl rfl ?_ hs.between.noClosing
  simp only [need_of_true htm, hown, hvops, List.isEmpty_nil, Bool.and_self, waitFirst_of_true, Check.all]

/-- Settles O30: the closing act reloads the frame or halts the tile; unmasked, the slot raises ILLOP. -/
theorem returnFromTrap : Obligations.ReturnFromTrap := by
  intro s h hs t m f
  have hcl : s.core.bump.sch.closing = [] := hs.between.noClosing
  have hst : t.sch.status = .running := (Tile.close_status 1 hcl).trans hs.between.running
  have hrecs : t.recs = [] := (Tile.close_recs 1 hcl).trans hs.between.noReports
  refine ⟨fun htm hown hvops => ⟨fun hbad hesc => ?good, fun hbad => ?bad⟩, fun htm htvec hr => ?unmasked⟩
  case good =>
    have hexec := exec_rft hs htm hown hvops
    rw [Tile.returnFromTrap_good _ hbad hesc, State.noteEnd_of_ne (Tile.returned_status _ hst)] at hexec
    refine ⟨_, hexec, ?_⟩
    obtain ⟨hcore, hothers⟩ := State.flush_frame (s.withCore (t.returned s.core.sch.cycle))
    obtain ⟨htm', hown', hpc, hready⟩ := t.returned_sch s.core.sch.cycle
    have hctl := t.returned_ctl s.core.sch.cycle
    rw [hcore, hothers]
    refine ⟨htm', hpc, congrArg Ctl.rrb hctl, congrArg Ctl.vbud hctl, congrArg Ctl.fmt hctl, congrArg Ctl.lc hctl,
      congrArg Ctl.ec hctl, hown', hready, rfl, fun hnone => ?_⟩
    obtain ⟨hfiles, hpad, hrec, hlstk, hrstk⟩ := Tile.returned_of_none s.core.sch.cycle hnone
    exact ⟨hfiles.trans (Tile.close_files 1 hcl), hpad.trans (Tile.close_pad 1 hcl),
      by rw [State.flush_of_no_recs (hrec.trans hrecs)]; rfl, hlstk.trans (Tile.reloaded_lstk hbad), hrstk.trans (Tile.reloaded_rstk hbad)⟩
  case bad =>
    have hexec := exec_rft hs htm hown hvops
    obtain ⟨r, hr⟩ := Tile.returnFromTrap_halts s.core.sch.cycle hbad
    rw [hr, State.noteEnd_of_ne (by simp [Tile.halt])] at hexec
    obtain ⟨hcore, hothers⟩ := State.flush_frame (s.withCore (t.halt r))
    refine ⟨_, hexec, ?_⟩
    rw [hcore, hothers]
    exact ⟨rfl, Tile.close_files 1 hcl, Tile.close_pad 1 hcl, rfl⟩
  case unmasked =>
    exact runSlot_trap (i := .rft h) (sem := fun _ =>
      { check := fun t => Check.all [need t.sch.tm .illop, waitFirst (t.sch.own.isEmpty && t.sch.vops.isEmpty) (mkStall .plain)]
        eff := fun _ t => t.atClose .rft }) hs rfl (by simp only [htm]; rfl) rfl (by decide) htm htvec hr

end Sys2Proof.Machine
end

section
/-! SUPPORT. The list operations element by element (R243 to R245) and the bulk accesses at issue (R80, R254); and the statement about
them. -/

namespace Sys2Proof.Machine

/-! Runs of bytes written into scratchpad. -/

theorem Memory.foldl_runCells (m : Memory) (a : Nat) (l : List Byte) :
    (runCells a l).foldl (fun m c => m.write c.1 c.2) m = m.put a l := by
  have hshift (k : Nat) (l : List Byte) (m : Memory) :
      (((List.range' k l.length).zip l).map fun x => (a + x.1, x.2)).foldl (fun m c => m.write c.1 c.2) m = m.put (a + k) l := by
    induction l generalizing k m with
    | nil => rfl
    | cons b l ih =>
      rw [List.length_cons, List.range'_succ, List.zip_cons_cons, List.map_cons, List.foldl_cons, ih, Memory.put, Nat.add_assoc]
  have h := hshift 0 l m
  rwa [← List.range_eq_range'] at h

theorem Pad.writeRun_mem (p : Pad) (a : Nat) (l : List Byte) : (p.writeRun a l).mem = p.mem.put a l :=
  Memory.foldl_runCells p.mem a l

theorem Tile.Readable.mono {t : Tile} {l l' : List Nat} (h : t.Readable l) (hl : ∀ a ∈ l', a ∈ l) : t.Readable l' :=
  ⟨fun a ha => h.1 a (hl a ha), h.2⟩

/-! A SPILL within the carve-out. -/

/-- The tile behind elements of a SPILL: they stand at their places, and no other byte has changed. -/
structure Tile.Spilled (t u : Tile) (ea size lo hi : Nat) (data : Nat → List Byte) : Prop where
  files : u.files = t.files
  recs : u.recs = t.recs
  closing : u.sch.closing = t.sch.closing
  status : u.sch.status = t.sch.status
  wf : Memory.wf u.pad.mem = true
  stored : ∀ i, lo ≤ i → i < hi → u.pad.mem.bytes (ea + size * i) size = data i
  rest : ∀ a, (a < ea + size * lo ∨ ea + size * hi ≤ a) → u.pad.mem.read a = t.pad.mem.read a

theorem Tile.runList_spill_next {next fin fuel : Nat} {t : Tile} {l : ListOp} {i : Nat} (hf : l.fill = false)
    (hi : l.order[l.k]? = some i) (hb : t.ctl.spillBulk (l.ea + l.size * i) l.size = none) :
    Tile.runList next fin (fuel + 1) t l = Tile.runList (next + 1) (next + 1) fuel
      ((t.withPad fun p => p.writeRun (l.ea + l.size * i) ((l.data[i]?).getD [])).setList { l with k := l.k + 1 })
      { l with k := l.k + 1 } := by
  simp only [Tile.runList, hi, hb, hf, Bool.false_eq_true, if_false]

/-- A list operation that has moved all its elements leaves its last result in flight. -/
theorem Tile.runList_end {next fin fuel : Nat} {t : Tile} {l : ListOp} (h : l.order[l.k]? = none) :
    let u := Tile.runList next fin (fuel + 1) t l
    u.files = t.files ∧ u.pad = t.pad ∧ u.recs = t.recs ∧ u.sch.closing = t.sch.closing ∧ u.sch.status = t.sch.status ∧
      ∃ f, u.sch.flights = t.sch.flights ++ [f] := by
  simp only [Tile.runList, h]
  exact ⟨rfl, rfl, rfl, rfl, rfl, _, rfl⟩

theorem Tile.runList_spill {next fin fuel : Nat} {t : Tile} {l : ListOp} {n k : Nat} (hf : l.fill = false) (horder : l.order = upTo n)
    (hk : l.k + k = n) (hfuel : k < fuel) (hb : ∀ i, i < n → t.ctl.spillBulk (l.ea + l.size * i) l.size = none)
    (hlen : ∀ i, i < n → ((l.data[i]?).getD []).length = l.size) (hwf : Memory.wf t.pad.mem = true) :
    t.Spilled (Tile.runList next fin fuel t l) l.ea l.size l.k n fun i => (l.data[i]?).getD [] := by
  induction k generalizing next fin fuel t l with
  | zero =>
    obtain ⟨fuel, rfl⟩ := Nat.exists_eq_succ_of_ne_zero (Nat.ne_of_gt hfuel)
    have hend : l.order[l.k]? = none := by
      rw [horder]
      simp [upTo]
      omega
    obtain ⟨hfiles, hpad, hrecs, hcl, hst, -⟩ := Tile.runList_end (next := next) (fin := fin) (fuel := fuel) (t := t) hend
    exact ⟨hfiles, hrecs, hcl, hst, by rw [hpad]; exact hwf, fun i h1 h2 => by omega, fun a _ => by rw [hpad]⟩
  | succ k ih =>
    obtain ⟨fuel, rfl⟩ := Nat.exists_eq_succ_of_ne_zero (Nat.ne_of_gt (Nat.lt_of_le_of_lt (Nat.zero_le _) hfuel))
    have hlt : l.k < n := by omega
    have hi : l.order[l.k]? = some l.k := by
      rw [horder]
      simp [upTo, hlt]
    rw [Tile.runList_spill_next hf hi (hb _ hlt)]
    have hmem : (((t.withPad fun p => p.writeRun (l.ea + l.size * l.k) ((l.data[l.k]?).getD [])).setList
        { l with k := l.k + 1 }).pad.mem) = t.pad.mem.put (l.ea + l.size * l.k) ((l.data[l.k]?).getD []) := Pad.writeRun_mem _ _ _
    have hrun := ih (next := next + 1) (fin := next + 1) (fuel := fuel)
      (t := (t.withPad fun p => p.writeRun (l.ea + l.size * l.k) ((l.data[l.k]?).getD [])).setList { l with k := l.k + 1 })
      (l := { l with k := l.k + 1 }) hf horder (by dsimp only; omega) (by omega) hb hlen (by rw [hmem]; exact Memory.put_wf _ _ hwf)
    have hsize : l.size * (l.k + 1) = l.size * l.k + l.size := by ring
    refine ⟨hrun.files, hrun.recs, hrun.closing, hrun.status, hrun.wf, fun i h1 h2 => ?_, fun a ha => ?_⟩
    · rcases Nat.eq_or_lt_of_le h1 with rfl | hlt'
      · have hown := Memory.bytes_put_same hwf (l.ea + l.size * l.k) ((l.data[l.k]?).getD [])
        rw [hlen _ hlt] at hown
        exact (Memory.bytes_congr fun j hj => hrun.rest _ (.inl (by dsimp only; omega))).trans
          ((congrArg (fun m => Memory.bytes m _ _) hmem).trans hown)
      · exact hrun.stored i hlt' h2
    · have hout : a < l.ea + l.size * (l.k + 1) ∨ l.ea + l.size * n ≤ a := by omega
      have hle : l.size * (l.k + 1) ≤ l.size * n := Nat.mul_le_mul_left _ hlt
      rw [hrun.rest a hout, hmem, Memory.read_put_outside hwf (by rw [hlen _ hlt]; omega)]

/-! A FILL within the carve-out. -/

/-- The tile behind elements of a FILL: a result is in flight for each. -/
structure Tile.Filled (t u : Tile) (l : ListOp) (is : List Nat) : Prop where
  files : u.files = t.files
  pad : u.pad = t.pad
  recs : u.recs = t.recs
  closing : u.sch.closing = t.sch.closing
  status : u.sch.status = t.sch.status
  kept : ∀ x ∈ t.sch.flights, x ∈ u.sch.flights
  moved : ∀ i ∈ is, ∃ x ∈ u.sch.flights, x.seq = l.seq ∧
    x.writes = [elementWrite l.file ((l.regs[i]?).getD 0) (t.pad.mem.bytes (l.ea + l.size * i) l.size)]

/-- The tile with the result of one element of a FILL in flight. -/
def Tile.elementFlying (t : Tile) (l : ListOp) (next i : Nat) : Tile :=
  t.withSch fun s => { s with flights := s.flights ++
    [⟨l.seq, next + 4, 0#3, [elementWrite l.file ((l.regs[i]?).getD 0) (t.pad.mem.bytes (l.ea + l.size * i) l.size)], none, 0,
      0#64, 0#32, [], l.info⟩] }

theorem Tile.runList_fill_next {next fin fuel : Nat} {t : Tile} {l : ListOp} {i : Nat} (hf : l.fill = true)
    (hi : l.order[l.k]? = some i) (hb : t.ctl.spillBulk (l.ea + l.size * i) l.size = none) (he : l.early = none)
    (hr : t.readPad ((upTo l.size).map (l.ea + l.size * i + ·)) = (none, t)) :
    Tile.runList next fin (fuel + 1) t l = Tile.runList (next + 1) (next + 4) fuel
      ((t.elementFlying l next i).setList { l with k := l.k + 1 }) { l with k := l.k + 1 } := by
  simp only [Tile.runList, hi, hb, hf, he, ite_self, hr, if_true]
  rfl

theorem Tile.runList_fill {next fin fuel : Nat} {t : Tile} {l : ListOp} {k : Nat} (hf : l.fill = true) (he : l.early = none)
    (hk : l.k + k = l.order.length) (hfuel : k < fuel)
    (hb : ∀ i ∈ l.order, t.ctl.spillBulk (l.ea + l.size * i) l.size = none)
    (hr : ∀ i ∈ l.order, t.Readable ((upTo l.size).map (l.ea + l.size * i + ·)) ∧
      ∀ a ∈ (upTo l.size).map (l.ea + l.size * i + ·), a < padSize) :
    t.Filled (Tile.runList next fin fuel t l) l (l.order.drop l.k) := by
  induction k generalizing next fin fuel t l with
  | zero =>
    obtain ⟨fuel, rfl⟩ := Nat.exists_eq_succ_of_ne_zero (Nat.ne_of_gt hfuel)
    have hend : l.order[l.k]? = none := List.getElem?_eq_none (by omega)
    obtain ⟨hfiles, hpad, hrecs, hcl, hst, f, hfl⟩ := Tile.runList_end (next := next) (fin := fin) (fuel := fuel) (t := t) hend
    refine ⟨hfiles, hpad, hrecs, hcl, hst, fun x hx => ?_, fun i hi => ?_⟩
    · rw [hfl]
      exact List.mem_append_left _ hx
    · rw [List.drop_eq_nil_of_le (by omega)] at hi
      cases hi
  | succ k ih =>
    obtain ⟨fuel, rfl⟩ := Nat.exists_eq_succ_of_ne_zero (Nat.ne_of_gt (Nat.lt_of_le_of_lt (Nat.zero_le _) hfuel))
    have hlt : l.k < l.order.length := by omega
    have hi : l.order[l.k]? = some l.order[l.k] := List.getElem?_eq_getElem hlt
    have hmem : l.order[l.k] ∈ l.order := List.getElem_mem hlt
    rw [Tile.runList_fill_next hf hi (hb _ hmem) he ((hr _ hmem).1.readPad (hr _ hmem).2)]
    have hrun := ih (next := next + 1) (fin := next + 4) (fuel := fuel)
      (t := (t.elementFlying l next l.order[l.k]).setList { l with k := l.k + 1 }) (l := { l with k := l.k + 1 }) hf he
      (by dsimp only; omega) (by omega) hb fun i h => ⟨(hr i h).1.congr rfl, (hr i h).2⟩
    refine ⟨hrun.files, hrun.pad, hrun.recs, hrun.closing, hrun.status,
      fun x hx => hrun.kept x (List.mem_append_left _ hx), fun i h => ?_⟩
    rw [List.drop_eq_getElem_cons hlt] at h
    rcases List.mem_cons.mp h with rfl | h
    · exact ⟨_, hrun.kept _ (List.mem_append_right _ List.mem_cons_self), rfl, rfl⟩
    · exact hrun.moved i h

/-! List operations at issue. -/

/-- The tile whose list operation has come to its place in port A's order. -/
def Tile.listed (t : Tile) (l : ListOp) : Tile := { t with lists := t.lists ++ [l] }

theorem Tile.listTurn_listed {t : Tile} {l : ListOp} {q : PortQ} (hq : q.seq = l.seq) (hfresh : ∀ x ∈ t.lists, x.seq ≠ l.seq)
    (hlater : l.laterBase t.ctl = none) :
    (t.listed l).listTurn q = Tile.runList (Nat.max q.issued t.sch.cycle) (Nat.max q.issued t.sch.cycle) (l.order.length + 1)
      ((t.listed l).setList l) l := by
  have hfind : (t.lists ++ [l]).find? (·.seq == q.seq) = some l := by
    rw [List.find?_append, List.find?_eq_none.mpr fun x hx => by simpa [hq] using hfresh x hx]
    simp [hq]
  simp only [Tile.listTurn, Tile.listed, hfind, hlater]

/-- The list operation of a SPILL or FILL. -/
def listOf (t : Tile) (fill : Bool) (f : BitVec 5) (bs n : BitVec 4) (c : BitVec 2) (tag : BitVec 3) (info : SlotInfo) : ListOp :=
  let l : ListOp := ⟨t.sch.seq, fill, tag, (t.ra bs).toNat, fileSize c, c.toNat, listRegs t f n c, fillOrder fill f n c bs, 0, [], none,
    false, false, info⟩
  { l with data := l.sources t.files }

/-- Within the carve-out no element lies in bulk memory. -/
theorem Ctl.spillBulk_inside {c : Ctl} {x size : Nat} (h : x + size ≤ c.carveEnd) : c.spillBulk x size = none := if_pos h

theorem fillOrder_lt {fill : Bool} {f : BitVec 5} {n : BitVec 4} {c : BitVec 2} {bs : BitVec 4} {i : Nat}
    (h : i ∈ fillOrder fill f n c bs) : i < n.toNat + 1 := by
  simp only [fillOrder, upTo] at h
  split at h
  · rcases List.mem_append.mp h with h | h <;> exact List.mem_range.mp (List.mem_filter.mp h).1
  · exact List.mem_range.mp h

theorem mem_fillOrder {fill : Bool} {f : BitVec 5} {n : BitVec 4} {c : BitVec 2} {bs : BitVec 4} {i : Nat} (h : i < n.toNat + 1) :
    i ∈ fillOrder fill f n c bs := by
  simp only [fillOrder, upTo]
  split
  · rw [List.mem_append, List.mem_filter, List.mem_filter, List.mem_range]
    by_cases hb : f.toNat + i = bs.toNat
    · exact .inr ⟨h, by simp [hb]⟩
    · exact .inl ⟨h, by simp [hb]⟩
  · exact List.mem_range.mpr h

section
variable {s : State} {h : Hdr} {fill : Bool} {f : BitVec 5} {bs n : BitVec 4} {c : BitVec 2} {t : BitVec 3}
  (hs : s.Ready h.guard) (hfree : s.core.tagFree t = true) (hq : s.core.pad.queue = []) (hfresh : ∀ l ∈ s.core.lists, l.seq ≠ s.core.sch.seq)
  (hal : (s.core.ra bs).toNat % fileSize c = 0) (hlo : s.core.ctl.carveBase ≤ (s.core.ra bs).toNat)
  (hhi : (s.core.ra bs).toNat + fileSize c * (n.toNat + 1) ≤ s.core.ctl.carveEnd)

include hhi in
theorem element_inside {i : Nat} (hi : i < n.toNat + 1) :
    (s.core.ra bs).toNat + fileSize c * i + fileSize c ≤ s.core.ctl.carveEnd := by
  have hle : fileSize c * (i + 1) ≤ fileSize c * (n.toNat + 1) := Nat.mul_le_mul_left _ hi
  have hsucc : fileSize c * (i + 1) = fileSize c * i + fileSize c := by ring
  omega

include hfree hal hlo hhi in
theorem semList_check {info : SlotInfo} : (semList fill f bs n c t info).check s.core = .ok := by
  have hbulk : listBulk s.core (s.core.ra bs).toNat (fileSize c) (n.toNat + 1) = false := by
    refine List.any_eq_false.mpr fun i hi => ?_
    rw [Ctl.spillBulk_inside (element_inside hhi (by simpa [upTo] using hi))]
    decide
  simp only [semList, Tile.needTag_free hfree, hal, decide_eq_true hlo, hbulk, beq_self_eq_true, Bool.false_and, Bool.not_false,
    need_of_true, Check.all]

include hq hfresh hhi in
/-- The effect of a SPILL or FILL within the carve-out: its elements move. -/
theorem semList_eff (i : Instr) : (semList fill f bs n c t (s.core.slotInfo i 0)).eff s.core s.core =
    Tile.runList s.core.sch.cycle s.core.sch.cycle ((fillOrder fill f n c bs).length + 1)
      (((s.core.allocTag t).listed (listOf s.core fill f bs n c t (s.core.slotInfo i 0))).setList
        (listOf s.core fill f bs n c t (s.core.slotInfo i 0))) (listOf s.core fill f bs n c t (s.core.slotInfo i 0)) := by
  have hctl : (s.core.allocTag t).ctl = s.core.ctl := Tile.allocTag_ctl _ _
  have hcycle : (s.core.allocTag t).sch.cycle = s.core.sch.cycle := Tile.allocTag_cycle _ _
  have hseq : (s.core.allocTag t).sch.seq = s.core.sch.seq := by rw [Tile.allocTag_eq]; rfl
  have hlater : (listOf s.core fill f bs n c t (s.core.slotInfo i 0)).laterBase (s.core.allocTag t).ctl = none := by
    rw [hctl, ListOp.laterBase, if_neg]
    rw [Bool.and_eq_true, List.any_eq_true]
    rintro ⟨-, j, hj, hbulk⟩
    have hin := element_inside hhi (fillOrder_lt (List.mem_of_mem_drop hj))
    have hnone : (listOf s.core fill f bs n c t (s.core.slotInfo i 0)).bulkAt s.core.ctl j = false := by
      rw [ListOp.bulkAt]
      exact congrArg Option.isSome (Ctl.spillBulk_inside hin)
    rw [hnone] at hbulk
    cases hbulk
  have hturn := Tile.listTurn_listed (t := s.core.allocTag t)
    (q := ⟨s.core.sch.seq, s.core.sch.cycle, s.core.sch.cycle, .list, s.core.slotInfo i 0⟩)
    (l := listOf s.core fill f bs n c t (s.core.slotInfo i 0)) rfl (by rw [Tile.allocTag_lists]; exact hfresh) hlater
  have hnow := Tile.portA_now (t := (s.core.allocTag t).listed (listOf s.core fill f bs n c t (s.core.slotInfo i 0)))
    (seq := s.core.sch.seq) (act := .list) (info := s.core.slotInfo i 0)
    (show (s.core.allocTag t).pad.queue = [] by rw [Tile.allocTag_pad, hq]) rfl
  have hc : ((s.core.allocTag t).listed (listOf s.core fill f bs n c t (s.core.slotInfo i 0))).sch.cycle = s.core.sch.cycle := hcycle
  rw [hc] at hnow
  rw [hcycle, show Nat.max s.core.sch.cycle s.core.sch.cycle = s.core.sch.cycle from Nat.max_self _] at hturn
  refine Eq.trans ?_ (hnow.trans hturn)
  simp only [semList, hseq]
  rfl

end

theorem elementBytes_length (g : Files) (c : BitVec 2) (r : Nat) : (elementBytes g c.toNat r).length = fileSize c := by
  have hc : c = 0#2 ∨ c = 1#2 ∨ c = 2#2 ∨ c = 3#2 := (show ∀ c : BitVec 2, c = 0#2 ∨ c = 1#2 ∨ c = 2#2 ∨ c = 3#2 by decide) c
  rcases hc with rfl | rfl | rfl | rfl
  · exact valBytes_length 4 _
  · exact vBytes_length _
  · exact valBytes_length 4 _
  · exact valBytes_length 4 _

theorem listRegs_length (t : Tile) (f : BitVec 5) (n : BitVec 4) (c : BitVec 2) : (listRegs t f n c).length = n.toNat + 1 := by
  simp [listRegs, upTo]

/-- What a SPILL read of its registers. -/
theorem listOf_data (t : Tile) (f : BitVec 5) (bs n : BitVec 4) (c : BitVec 2) (tag : BitVec 3) (info : SlotInfo) {i r : Nat}
    (hr : (listRegs t f n c)[i]? = some r) :
    ((listOf t false f bs n c tag info).data[i]?).getD [] = elementBytes t.files c.toNat r := by
  have hdata : (listOf t false f bs n c tag info).data = (listRegs t f n c).map (elementBytes t.files c.toNat) := rfl
  rw [hdata, List.getElem?_map, hr]
  rfl

/-- The state after a slot that issues, field by field. -/
theorem Issues.next {i : Instr} {s : State} {t : Tile} (h : Issues i s t) (hcl : t.sch.closing = []) :
    ∃ u, exec i s = .next u ∧ u.core.files = t.files ∧ u.core.pad = t.pad ∧ u.core.sch.flights = t.sch.flights ∧ u.core.accs = t.accs := by
  have hbump : t.bump.sch.closing = [] := hcl
  refine ⟨_, h, ?_⟩
  rw [State.after_core, Tile.close_eq _ hbump]
  exact ⟨rfl, rfl, rfl, rfl⟩

/-- A SPILL within the carve-out. -/
theorem spill_inside {s : State} {h : Hdr} {f : BitVec 5} {bs n : BitVec 4} {c : BitVec 2} {t : BitVec 3}
    (hs : s.Ready h.guard) (hfree : s.core.tagFree t = true) (hq : s.core.pad.queue = []) (hwf : Memory.wf s.core.pad.mem = true)
    (hfresh : ∀ l ∈ s.core.lists, l.seq ≠ s.core.sch.seq) (hal : (s.core.ra bs).toNat % fileSize c = 0)
    (hlo : s.core.ctl.carveBase ≤ (s.core.ra bs).toNat)
    (hhi : (s.core.ra bs).toNat + fileSize c * (n.toNat + 1) ≤ s.core.ctl.carveEnd) :
    ∃ u, exec (.spill h f bs n c t) s = .next u ∧ u.core.files = s.core.files ∧
      (∀ k r, (listRegs s.core f n c)[k]? = some r →
        u.core.pad.mem.bytes ((s.core.ra bs).toNat + fileSize c * k) (fileSize c) = elementBytes s.core.files c.toNat r) ∧
      ∀ a, (a < (s.core.ra bs).toNat ∨ (s.core.ra bs).toNat + fileSize c * (n.toNat + 1) ≤ a) →
        u.core.pad.mem.read a = s.core.pad.mem.read a := by
  have hreg (i : Nat) (hi : i < n.toNat + 1) :
      ((listOf s.core false f bs n c t (s.core.slotInfo (.spill h f bs n c t) 0)).data[i]?.getD []).length = fileSize c := by
    rw [listOf_data _ _ _ _ _ _ _ (List.getElem?_eq_getElem (by rw [listRegs_length]; exact hi)), elementBytes_length]
  have hctl : (s.core.allocTag t).ctl = s.core.ctl := Tile.allocTag_ctl _ _
  have hpad : (s.core.allocTag t).pad = s.core.pad := Tile.allocTag_pad _ _
  have hrun := Tile.runList_spill (next := s.core.sch.cycle) (fin := s.core.sch.cycle) (fuel := (fillOrder false f n c bs).length + 1)
    (t := ((s.core.allocTag t).listed (listOf s.core false f bs n c t (s.core.slotInfo (.spill h f bs n c t) 0))).setList
      (listOf s.core false f bs n c t (s.core.slotInfo (.spill h f bs n c t) 0)))
    (l := listOf s.core false f bs n c t (s.core.slotInfo (.spill h f bs n c t) 0)) (n := n.toNat + 1) (k := n.toNat + 1) rfl rfl
    (Nat.zero_add _) (by simp [fillOrder, upTo])
    (fun i hi => (congrArg (fun x : Ctl => x.spillBulk _ _) hctl).trans (Ctl.spillBulk_inside (element_inside hhi hi)))
    hreg ((congrArg (fun p : Pad => Memory.wf p.mem) hpad).trans hwf)
  have hissue : Issues (.spill h f bs n c t) s _ := issues_of_effect _ hs rfl (semList_eff hq hfresh hhi _) rfl
    (semList_check hfree hal hlo hhi) (hrun.closing.trans (hs.alloc_closing t)) (hrun.status.trans (hs.alloc_status t))
    (hrun.recs.trans (hs.alloc_recs t))
  obtain ⟨u, hexec, hfiles, hupad, -, -⟩ := hissue.next (hrun.closing.trans (hs.alloc_closing t))
  have hmem := congrArg Pad.mem hupad
  refine ⟨u, hexec, hfiles.trans (hrun.files.trans (Tile.allocTag_files _ _)), fun k r hr => ?_, fun a ha => ?_⟩
  · have hk : k < n.toNat + 1 := by
      rw [← listRegs_length s.core f n c]
      exact (List.getElem?_eq_some_iff.mp hr).1
    rw [hmem, ← listOf_data s.core f bs n c t (s.core.slotInfo (.spill h f bs n c t) 0) hr]
    exact hrun.stored k (Nat.zero_le k) hk
  · rw [hmem]
    exact (hrun.rest a ha).trans (congrArg (fun p : Pad => p.mem.read a) hpad)

/-- A FILL within the carve-out. -/
theorem fill_inside {s : State} {h : Hdr} {f : BitVec 5} {bs n : BitVec 4} {c : BitVec 2} {t : BitVec 3}
    (hs : s.Ready h.guard) (hfree : s.core.tagFree t = true) (hq : s.core.pad.queue = [])
    (hfresh : ∀ l ∈ s.core.lists, l.seq ≠ s.core.sch.seq) (hal : (s.core.ra bs).toNat % fileSize c = 0)
    (hlo : s.core.ctl.carveBase ≤ (s.core.ra bs).toNat)
    (hhi : (s.core.ra bs).toNat + fileSize c * (n.toNat + 1) ≤ s.core.ctl.carveEnd) (hpadEnd : s.core.ctl.carveEnd ≤ padSize)
    (hread : s.core.Readable ((upTo (fileSize c * (n.toNat + 1))).map ((s.core.ra bs).toNat + ·))) :
    ∃ u, exec (.fill h f bs n c t) s = .next u ∧ u.core.files = s.core.files ∧ u.core.pad.mem = s.core.pad.mem ∧
      ∀ k r, (listRegs s.core f n c)[k]? = some r → ∃ x ∈ u.core.sch.flights, x.seq = s.core.sch.seq ∧
        x.writes = [elementWrite c.toNat r (s.core.pad.mem.bytes ((s.core.ra bs).toNat + fileSize c * k) (fileSize c))] := by
  have hctl : (s.core.allocTag t).ctl = s.core.ctl := Tile.allocTag_ctl _ _
  have hpad : (s.core.allocTag t).pad = s.core.pad := Tile.allocTag_pad _ _
  have hrun := Tile.runList_fill (next := s.core.sch.cycle) (fin := s.core.sch.cycle) (fuel := (fillOrder true f n c bs).length + 1)
    (t := ((s.core.allocTag t).listed (listOf s.core true f bs n c t (s.core.slotInfo (.fill h f bs n c t) 0))).setList
      (listOf s.core true f bs n c t (s.core.slotInfo (.fill h f bs n c t) 0)))
    (l := listOf s.core true f bs n c t (s.core.slotInfo (.fill h f bs n c t) 0)) (k := (fillOrder true f n c bs).length) rfl rfl
    (Nat.zero_add _) (Nat.lt_succ_self _)
    (fun i hi => (congrArg (fun x : Ctl => x.spillBulk _ _) hctl).trans
      (Ctl.spillBulk_inside (element_inside hhi (fillOrder_lt hi))))
    (fun i hi => by
      have hin := element_inside (s := s) hhi (fillOrder_lt hi)
      have hle : fileSize c * (i + 1) ≤ fileSize c * (n.toNat + 1) := Nat.mul_le_mul_left _ (fillOrder_lt hi)
      have hsucc : fileSize c * (i + 1) = fileSize c * i + fileSize c := by ring
      refine ⟨(hread.mono fun a ha => ?_).congr hpad, fun a ha => ?_⟩
      all_goals
        obtain ⟨j, hj, rfl⟩ := List.mem_map.mp ha
        have hj' : j < fileSize c := List.mem_range.mp hj
      · exact List.mem_map.mpr ⟨fileSize c * i + j, List.mem_range.mpr (by omega), (Nat.add_assoc _ _ _).symm⟩
      · show (s.core.ra bs).toNat + fileSize c * i + j < padSize
        omega)
  have hissue : Issues (.fill h f bs n c t) s _ := issues_of_effect _ hs rfl (semList_eff hq hfresh hhi _) rfl
    (semList_check hfree hal hlo hhi) (hrun.closing.trans (hs.alloc_closing t)) (hrun.status.trans (hs.alloc_status t))
    (hrun.recs.trans (hs.alloc_recs t))
  obtain ⟨u, hexec, hfiles, hupad, hfl, -⟩ := hissue.next (hrun.closing.trans (hs.alloc_closing t))
  have hupad' : u.core.pad = s.core.pad := hupad.trans (hrun.pad.trans hpad)
  refine ⟨u, hexec, hfiles.trans (hrun.files.trans (Tile.allocTag_files _ _)), congrArg Pad.mem hupad', fun k r hr => ?_⟩
  have hk : k < n.toNat + 1 := by
    rw [← listRegs_length s.core f n c]
    exact (List.getElem?_eq_some_iff.mp hr).1
  obtain ⟨x, hx, hseq, hws⟩ := hrun.moved k (mem_fillOrder hk)
  refine ⟨x, by rw [hfl]; exact hx, hseq, hws.trans ?_⟩
  have hreg : ((listOf s.core true f bs n c t (s.core.slotInfo (.fill h f bs n c t) 0)).regs[k]?).getD 0 = r :=
    congrArg (Option.getD · 0) hr
  rw [hreg]
  exact congrArg (fun p : Pad => [elementWrite c.toNat r (p.mem.bytes _ _)]) hpad

/-! Bulk loads and stores at issue. -/

theorem Tile.withPad_self {t : Tile} {f : Pad → Pad} (h : f t.pad = t.pad) : t.withPad f = t := by
  rw [Tile.withPad, h]

theorem Pad.line_ne_of_bufLine {p : Pad} {va : Nat} (h : p.bufLine va = none) : ∀ b ∈ p.buf, b.line ≠ lineOf va := fun b hb => by
  simpa using List.find?_eq_none.mp h b hb

/-- A store of a line that the read buffer does not hold leaves it as it is. -/
theorem Pad.updateLine_of_none {p : Pad} {va : Nat} (h : p.bufLine va = none) (data : List Byte) : p.updateLine va data = p := by
  have hbuf : (p.buf.map fun b => if b.line = lineOf va then
      { b with bytes := b.bytes.take (va % 64) ++ data ++ b.bytes.drop (va % 64 + data.length) } else b) = p.buf :=
    (List.map_congr_left fun b hb => if_neg (Pad.line_ne_of_bufLine h b hb)).trans (List.map_id' _)
  rw [Pad.updateLine, hbuf]

theorem Pad.filter_of_none {p : Pad} {va : Nat} (h : p.bufLine va = none) :
    { p with buf := p.buf.filter (·.line != lineOf va) } = p := by
  rw [List.filter_eq_self.mpr fun b hb => by simpa using Pad.line_ne_of_bufLine h b hb]

/-- The access of a bulk instruction at issue. -/
def bulkAcc (t : Tile) (kind : AccKind) (va n : Nat) (data : List Byte) (tag : BitVec 3) (dest : List Nat) (staged : Bool) : BulkAcc :=
  ⟨t.sch.seq, kind, va, n, data, tag, dest, .inTile, false, false, false, staged⟩

section
variable {i : Instr} {h : Hdr} {s : State} {n va : Nat} {kind : AccKind} {r : BitVec 5} {bs : BitVec 4} {bb t : BitVec 3}
  (hs : s.Ready h.guard) (hfree : s.core.tagFree t = true) (hva : bulkVa s.core bs bb = va) (hal : va % n = 0)
include hs hfree hva hal

/-- A bulk load that the read buffer does not serve leaves as an access. -/
theorem issues_of_semBld (he : exec i s = runSlot i h (semBld n kind r bs bb t) s) (hbuf : s.core.pad.bufLine va = none) :
    Issues i s { s.core.allocTag t with accs := s.core.accs ++
      [bulkAcc s.core kind va n [] t (if n = 8 then [rotS s.core.ctl.rrb r, rotS s.core.ctl.rrb (succS r)] else [rotS s.core.ctl.rrb r])
        false] } := by
  have hseq : (s.core.allocTag t).sch.seq = s.core.sch.seq := by rw [Tile.allocTag_eq]; rfl
  refine issues_of_effect _ hs he ?_ rfl ?_ (hs.alloc_closing t) (hs.alloc_status t) (hs.alloc_recs t)
  · simp only [semBld, hva, Tile.allocTag_pad, hbuf, ite_self, Tile.allocTag_accs, hseq]
    rfl
  · simp only [semBld, hva, Tile.needTag_free hfree, hal, beq_self_eq_true, need_of_true, Check.all]

omit hs in
theorem semBst_check {info : SlotInfo} (hroom : s.core.roomFor 32 = true) : (semBst n kind r bs bb t info).check s.core = .ok := by
  simp only [semBst, hva, Tile.needTag_free hfree, hal, beq_self_eq_true, need_of_true, hroom, Check.all]

/-- A bulk store outside a block leaves as an access. -/
theorem issues_of_semBst (he : exec i s = runSlot i h (semBst n kind r bs bb t) s) (hblocks : s.core.blocks = [])
    (hbuf : s.core.pad.bufLine va = none) :
    Issues i s { s.core.allocTag t with accs := s.core.accs ++
      [bulkAcc s.core kind va n (wordBytes (s.core.rs r) ++ (if n = 8 then wordBytes (s.core.rs (succS r)) else [])) t [] false] } := by
  have hseq : (s.core.allocTag t).sch.seq = s.core.sch.seq := by rw [Tile.allocTag_eq]; rfl
  refine issues_of_effect _ hs he ?_ rfl (semBst_check hfree hva hal (by rw [Tile.roomFor, hblocks]; rfl)) (hs.alloc_closing t)
    (hs.alloc_status t) (hs.alloc_recs t)
  have hpad (data : List Byte) : ((s.core.allocTag t).withPad fun p => p.updateLine va data) = s.core.allocTag t :=
    Tile.withPad_self (Pad.updateLine_of_none (by rw [Tile.allocTag_pad]; exact hbuf) data)
  simp only [semBst, hva, hblocks, List.isEmpty_nil, Bool.not_true, Bool.false_eq_true, if_false, hpad, Tile.allocTag_accs, hseq]
  rfl

/-- A bulk store in a block is staged. -/
theorem issues_of_semBst_staged (he : exec i s = runSlot i h (semBst n kind r bs bb t) s) {b : Block} {l : List Block}
    (hblocks : s.core.blocks = b :: l) (hroom : s.core.roomFor 32 = true) (hbuf : s.core.pad.bufLine va = none) :
    Issues i s { s.core.allocTag t with
      accs := s.core.accs ++
        [bulkAcc s.core kind va n (wordBytes (s.core.rs r) ++ (if n = 8 then wordBytes (s.core.rs (succS r)) else [])) t [] true]
      blocks := { b with staged := b.staged ++ [.store s.core.sch.seq] } :: l } := by
  have hseq : (s.core.allocTag t).sch.seq = s.core.sch.seq := by rw [Tile.allocTag_eq]; rfl
  refine issues_of_effect _ hs he ?_ rfl (semBst_check hfree hva hal hroom) (hs.alloc_closing t) (hs.alloc_status t) (hs.alloc_recs t)
  have hpad : ((s.core.allocTag t).withPad fun p => { p with buf := p.buf.filter (·.line != lineOf va) }) = s.core.allocTag t :=
    Tile.withPad_self (Pad.filter_of_none (by rw [Tile.allocTag_pad]; exact hbuf))
  have hb : (s.core.allocTag t).blocks = b :: l := by rw [Tile.allocTag_blocks, hblocks]
  simp only [semBst, hva, hblocks, List.isEmpty_cons, Bool.not_false, if_true, hpad, Tile.allocTag_accs, hseq, Tile.stage, hb]
  rfl

end

/-- A word that the read buffer serves lands six cycles after issue. -/
theorem issues_bldw_hit {h : Hdr} {s : State} {va : Nat} {r : BitVec 5} {bs : BitVec 4} {bb t : BitVec 3} {b : BufLine}
    (hs : s.Ready h.guard) (hfree : s.core.tagFree t = true) (hva : bulkVa s.core bs bb = va) (hal : va % 4 = 0)
    (hacq : s.core.acqOut = false) (hout : s.core.loadOut va = false) (hbuf : s.core.pad.bufLine va = some b) :
    Issues (.bldw h r bs bb t) s (((s.core.allocTag t).withPad fun p => { p with buf := b :: p.buf.erase b }).withSch fun c =>
      { c with flights := c.flights ++ [⟨c.seq, c.cycle + 6, t,
        [.s (rotS s.core.ctl.rrb r) (BitVec.ofNat 32 (bytesVal ((b.bytes.drop (va % 64)).take 4)))], none, 0, 0#64, 0#32, [],
        s.core.slotInfo (.bldw h r bs bb t) 0⟩] }) := by
  refine issues_of_effect _ hs rfl ?_ rfl ?_ (hs.alloc_closing t) (hs.alloc_status t) (hs.alloc_recs t)
  · simp only [semBld, hva, hacq, hout, Bool.or_self, Bool.false_eq_true, if_false, Tile.allocTag_pad, hbuf]
    rfl
  · simp only [semBld, hva, Tile.needTag_free hfree, hal, beq_self_eq_true, need_of_true, Check.all]

/-- Settles O25: elements of a list move to and from their places one by one; a bulk access leaves with its address and data. -/
theorem spillsAndBulkAccesses : Obligations.SpillsAndBulkAccesses := by
  constructor
  · intro s h f bs n c t hs hfree hq hwf hfresh ea size regs hal hlo hhi
    exact ⟨spill_inside hs hfree hq hwf hfresh hal hlo hhi, fun hread hend => fill_inside hs hfree hq hfresh hal hlo hhi hend hread⟩
  · intro s h r bs bb t hs hfree va dest acc load word stores
    have hva : bulkVa s.core bs bb = va := bulkVa_eq _ _ _
    have hzero : r + BitVec.ofNat 5 0 = r := BitVec.add_zero r
    have hd0 : dest 0 = rotS s.core.ctl.rrb r := congrArg (rotS s.core.ctl.rrb) hzero
    have hw0 : word 0 = wordBytes (s.core.rs r) := congrArg (fun r => wordBytes (s.core.rs r)) hzero
    refine ⟨fun hal hbuf => ?ldw, fun hal hbuf => ?ldd, fun hal => ⟨?stw, ?stwStaged⟩, fun hal => ⟨?std, ?stdStaged⟩, ?hit⟩
    case ldw =>
      have hissue := issues_of_semBld (i := .bldw h r bs bb t) hs hfree hva hal rfl hbuf
      simp only [load, hd0]
      exact hissue
    case ldd =>
      have hissue := issues_of_semBld (i := .bldd h r bs bb t) hs hfree hva hal rfl hbuf
      simp only [load, hd0]
      exact hissue
    case stw =>
      intro hblocks hbuf
      have hissue := issues_of_semBst (i := .bstw h r bs bb t) hs hfree hva hal rfl hblocks hbuf
      rw [if_neg (by decide), List.append_nil] at hissue
      simp only [hw0]
      exact hissue
    case stwStaged =>
      intro b l hblocks hroom hbuf
      have hissue := issues_of_semBst_staged (i := .bstw h r bs bb t) hs hfree hva hal rfl hblocks hroom hbuf
      rw [if_neg (by decide), List.append_nil] at hissue
      simp only [hw0]
      exact hissue
    case std =>
      intro hblocks hbuf
      simp only [hw0]
      exact issues_of_semBst (i := .bstd h r bs bb t) hs hfree hva hal rfl hblocks hbuf
    case stdStaged =>
      intro b l hblocks hroom hbuf
      simp only [hw0]
      exact issues_of_semBst_staged (i := .bstd h r bs bb t) hs hfree hva hal rfl hblocks hroom hbuf
    case hit =>
      intro b hal hacq hout hbuf
      have hissue := issues_bldw_hit hs hfree hva hal hacq hout hbuf (r := r)
      obtain ⟨u, hexec, hfiles, hpad, hfl, haccs⟩ := hissue.next (hs.alloc_closing t)
      refine ⟨u, _, hexec, hfl.trans (congrArg (· ++ [_]) (Tile.allocTag_flights _ _)), ?_, rfl, ?_, haccs.trans (Tile.allocTag_accs _ _),
        hfiles.trans (Tile.allocTag_files _ _), (congrArg Pad.mem hpad).trans ?_⟩
      · exact congrArg (· + 6) (Tile.allocTag_cycle _ _)
      · rw [hd0]
      · show (s.core.allocTag t).pad.mem = s.core.pad.mem
        rw [Tile.allocTag_pad]

end Sys2Proof.Machine
end

section
/-! SUPPORT. Vector operations on v registers: their operands, results and latencies lane by lane (R152, R182, R183, R261 to R275);
and the statements about integers, arithmetic and reductions. -/

namespace Sys2Proof.Machine

/-! What an operation on registers samples and computes. -/

/-- The lanes of an operand that may be absent. -/
def vOperand (t : Tile) (wide : Bool) : Option (BitVec 5) → List DWord
  | some c => laneOperand t wide c
  | none => []

/-- The third source of a V instruction. -/
def vThird (i : Instr) : Option (BitVec 5) := if (vShape i).third then some (vDest i) else none

/-- The operands that a V instruction samples. -/
def vOps (t : Tile) (i : Instr) : List (List DWord) :=
  [vOperand t (wideSource i t.ctl.fmt) (vShape i).a, vOperand t (wideSource i t.ctl.fmt) (vShape i).b,
    vOperand t (wideSource i t.ctl.fmt) (vThird i)]

/-- What a V instruction computes from what it samples. -/
def vOut (t : Tile) (i : Instr) : VOut := vCompute i t.ctl.fmt (vBudget i t.ctl.vbud) (vOps t i)

/-- The links that a V instruction names as operands, by number and as they stand. -/
def vSrcs (i : Instr) : List Nat := (linkOperands i).map (·.2)

/-- The decision window of a decider on links (R271). -/
def vWindow (t : Tile) (i : Instr) : Option Decider :=
  if vKind i = .decide ∧ vSrcs i ≠ [] then
    some (deciderWindow i (fmtPrec64 t.ctl.fmt) t.sch.cycle ((vSrcs i).filterMap t.link) (vOps t i)
      (exactOperand t (vShape i).a) (exactOperand t (vShape i).b))
  else none

/-- The latency of a V instruction (R152, R183). -/
def vLat (t : Tile) (i : Instr) : Nat :=
  vLatency (vKind i) (fmtPrec64 t.ctl.fmt) (vFull i t.ctl.vbud) (vOut t i).bypass

/-- The cycle at which a V instruction completes, no earlier than its links allow; or the end of its window. -/
def vDue (t : Tile) (i : Instr) : Nat :=
  match vWindow t i with
  | some d => d.hi
  | none => ((vSrcs i).filterMap t.link).foldl (fun m l => Nat.max m (l.done + (vKind i).chain)) (t.sch.cycle + vLat t i)

/-- The operation that a V instruction puts in progress. -/
def vOp (t : Tile) (i : Instr) (tag : BitVec 3) (info : SlotInfo) : VOp :=
  { seq := t.sch.seq, due := vDue t i, issued := t.sch.cycle, tag := tag
    writes := vWrites i t.ctl.rrb
      (vDest64 i t.ctl.fmt (fmtPrec64 t.ctl.fmt && (linkOperands i).any (·.1 == 0))) (vOut t i)
    flags := if vIsFp i || vKind i == .cvt then (vOut t i).flags else 0#5
    trapen := fmtTrapen t.ctl.fmt, dest := vDestLink i, srcs := vSrcs i, decider := vWindow t i
    dr := Nat.min (vFull i t.ctl.vbud) (fullDigits (fmtPrec64 t.ctl.fmt)), bypass := (vOut t i).bypass, lat := vLat t i
    chain := (vKind i).chain, fmt := t.ctl.fmt, vbud := t.ctl.vbud, operands := vOps t i, inst := i, info := info }

/-- The link that a producer feeds (R266). -/
def vFed (t : Tile) (i : Instr) (u : Tile) : Link :=
  { value := (vOut t i).lanes, exact := vExact i t.ctl.fmt (vOps t i), seed := u.free, who := u.who
    prec64 := fmtPrec64 t.ctl.fmt, done := vDue t i, dr := Nat.min (vFull i t.ctl.vbud) (fullDigits (fmtPrec64 t.ctl.fmt))
    bypass := (vOut t i).bypass, chained := (vOut t i).bypass || ((vSrcs i).filterMap t.link).any (·.chained)
    producer := t.sch.seq, consumer := none }

/-- The tile in which an operation has its tag, claims its links and is in progress. -/
def Tile.started (t : Tile) (tag : BitVec 3) (srcs : List Nat) (o : VOp) : Tile :=
  (t.allocTag tag).withSch fun c => { c.claim t.sch.seq srcs with vops := c.vops ++ [o] }

/-- The tile in which a link is live. -/
def Tile.feed (t : Tile) (n : Nat) (l : Link) : Tile :=
  { t with sch := { t.sch with links := t.sch.links.setIfInBounds n (some l) }, free := t.free + linkDraws }

theorem semV_eff (t : Tile) (i : Instr) (tag : BitVec 3) (info : SlotInfo) :
    (semV i tag info).eff t t = match vDestLink i with
      | some n => (t.started tag (vSrcs i) (vOp t i tag info)).feed n
          (vFed t i (t.started tag (vSrcs i) (vOp t i tag info)))
      | none => t.started tag (vSrcs i) (vOp t i tag info) := rfl

/-- The link checks of a V instruction pass (R266, R267). -/
theorem semV_check {t : Tile} {i : Instr} {tag : BitVec 3} {info : SlotInfo} (hfree : t.tagFree tag = true)
    (hdest : ∀ n, vDestLink i = some n → t.link n = none)
    (hsrc : ∀ x ∈ linkOperands i, linkUsable t (fmtPrec64 t.ctl.fmt) x.2 = true) : (semV i tag info).check t = .ok := by
  refine Check.all_ok_iff.mpr fun c hc => ?_
  simp only [List.mem_cons, List.not_mem_nil, or_false] at hc
  rcases hc with rfl | rfl | rfl
  · exact Tile.needTag_free hfree
  · refine need_of_true ?_
    split
    · exact Option.isNone_iff_eq_none.mpr (hdest _ ‹_›)
    · rfl
  · exact need_of_true (List.all_eq_true.mpr hsrc)

/-- A V instruction that names no link issues, complete at its latency (R263). -/
theorem vIssues_of_registers {i : Instr} {h : Hdr} {s : State} {tag : BitVec 3} (hs : s.Ready h.guard)
    (hfree : s.core.tagFree tag = true) (he : exec i s = runSlot i h (semV i tag) s) (henc : vEncOk s.core.ctl.fmt i = true)
    (hdest : vDestLink i = none) (hsrc : linkOperands i = []) :
    VIssues i s tag (s.core.sch.cycle + vLat s.core i)
      (vWrites i s.core.ctl.rrb (vDest64 i s.core.ctl.fmt false) (vOut s.core i))
      (if vIsFp i || vKind i == .cvt then (vOut s.core i).flags else 0#5) := by
  have hs0 : vSrcs i = [] := by rw [vSrcs, hsrc]; rfl
  have hw : vWindow s.core i = none := if_neg (by rw [hs0]; simp)
  refine ⟨vOp s.core i tag (s.core.slotInfo i 0),
    issues_of_effect _ hs he ((semV_eff _ _ _ _).trans (by rw [hdest, hs0]; rfl)) henc
      (semV_check hfree (by simp [hdest]) (by simp [hsrc])) (hs.alloc_closing tag) (hs.alloc_status tag)
      (hs.alloc_recs tag), rfl, rfl, ?_, ?_, rfl, hdest, hs0, hw⟩
  · simp only [vOp, vDue, hw, hs0, List.filterMap_nil, List.foldl_nil]
  · simp only [vOp, hsrc, List.any_nil, Bool.and_false]

theorem vDestLink_of_lt {i : Instr} (h : (vDest i).toNat < 28) : vDestLink i = none := by
  unfold vDestLink
  split
  · rfl
  · rfl
  · rw [if_neg (by omega)]

theorem vWrites_of_dest {i : Instr} (h : (vDest i).toNat < 28) (hk : ∀ h p x y a t, i ≠ .vsgn h p x y a t)
    (hk' : ∀ h p x y a b t, i ≠ .vthr h p x y a b t) (rrb : Nat) (wide : Bool) (o : VOut) :
    vWrites i rrb wide o = .v (rotV rrb (vDest i).toNat) (lowWords o.lanes) ::
      if wide then [.v (rotV rrb ((vDest i).toNat + 1)) (highWords o.lanes)] else [] := by
  unfold vWrites
  split
  · exact absurd rfl (hk _ _ _ _ _ _)
  · exact absurd rfl (hk' _ _ _ _ _ _ _)
  · rw [if_neg (by omega)]
    cases wide <;> rfl

theorem vEncOk_of_no_codes {fmt : Word} {i : Instr} (h : fp64Codes i = []) : vEncOk fmt i = true := by
  simp [vEncOk, h]

theorem vEncOk_of_subset {fmt : Word} {i j : Instr} (h : vEncOk fmt i = true) (hsub : fp64Codes j ⊆ fp64Codes i) :
    vEncOk fmt j = true := by
  unfold vEncOk at h ⊢
  rw [Bool.or_eq_true, List.all_eq_true] at h ⊢
  exact h.imp id fun hall c hc => hall c (hsub hc)

/-! The lanes of registers, and of results. -/

/-- A lane of an operand in a v register, or in a pair of them (R146). -/
def laneD (t : Tile) (wide : Bool) (c : BitVec 5) (k : Nat) : DWord :=
  if wide then lane (t.rv (c.toNat + 1)) k ++ lane (t.rv c.toNat) k else (lane (t.rv c.toNat) k).setWidth 64

theorem laneOperand_of_register (t : Tile) (wide : Bool) {c : BitVec 5} (hc : c.toNat < 28) :
    laneOperand t wide c = (upTo 16).map (laneD t wide c) := by
  rw [laneOperand, if_neg (by omega)]
  rfl

theorem laneOperand_getD (t : Tile) (wide : Bool) {c : BitVec 5} (hc : c.toNat < 28) {k : Nat} (hk : k < 16) :
    (laneOperand t wide c).getD k 0#64 = laneD t wide c k := by
  rw [laneOperand_of_register t wide hc]
  simp [upTo, hk]

theorem ln_laneOperand (t : Tile) {c : BitVec 5} (hc : c.toNat < 28) {k : Nat} (hk : k < 16) :
    ln (laneOperand t false c) k = (laneWord t c k).toNat := by
  rw [ln, laneOperand_getD t false hc hk, laneD, if_neg (by decide), BitVec.toNat_setWidth, laneWord]
  exact Nat.mod_eq_of_lt (lt_of_lt_of_le (BitVec.isLt _) (by decide))

theorem laneOperand_word (t : Tile) {c : BitVec 5} (hc : c.toNat < 28) {k : Nat} (hk : k < 16) :
    ((laneOperand t false c).getD k 0#64).setWidth 32 = laneWord t c k := by
  rw [laneOperand_getD t false hc hk, laneD, if_neg (by decide), BitVec.setWidth_setWidth_of_le _ (by decide), BitVec.setWidth_eq]
  rfl

theorem vreg_congr {f g : Nat → Word} (h : ∀ k < 16, f k = g k) : vreg f = vreg g := by
  unfold vreg
  congr 1
  funext k
  exact h k k.isLt

theorem lowWords_lanesOf (bypass : Bool) (f : Nat → Nat × Flags5) :
    lowWords (lanesOf bypass f).lanes = vreg fun k => BitVec.ofNat 32 (f k).1 := by
  ext k hk
  simp [lowWords, lanesOf, vreg, BitVec.setWidth_ofNat_of_le]

theorem highWords_lanesOf (bypass : Bool) (f : Nat → Nat × Flags5) :
    highWords (lanesOf bypass f).lanes = vreg fun k => BitVec.ofNat 32 ((f k).1 / 2 ^ 32) := by
  refine Vector.ext fun k hk => BitVec.eq_of_toNat_eq ?_
  simp only [highWords, lanesOf, vreg, Vector.getElem_map, Vector.getElem_ofFn, BitVec.extractLsb'_toNat, BitVec.toNat_ofNat,
    Nat.shiftRight_eq_div_pow]
  omega

theorem lanesOf_flags (bypass : Bool) (f : Nat → Nat × Flags5) : (lanesOf bypass f).flags = laneFlags fun k => (f k).2 := rfl

theorem laneFlags_const (x : Flags5) : laneFlags (fun _ => x) = x := by
  simp [laneFlags, upTo, List.range_succ]

theorem laneFlags_congr {f g : Nat → Flags5} (h : ∀ k < 16, f k = g k) : laneFlags f = laneFlags g :=
  List.foldl_ext _ _ _ fun x k hk => by rw [h k (List.mem_range.mp hk)]

/-- With all digits a budget saves nothing. -/
theorem vLatency_full (k : VKind) (p64 bypass : Bool) : vLatency k p64 28 bypass = k.latency p64 := by
  cases p64 <;> cases bypass <;> rfl

/-! The integer instructions. -/

/-- An operation on words of registers completes two cycles after issue and records no exception (R275). -/
theorem vIssues_words {i : Instr} {h : Hdr} {s : State} {tag : BitVec 3} {f : Nat → Nat} {g : Nat → Word} (hs : s.Ready h.guard)
    (hfree : s.core.tagFree tag = true) (he : exec i s = runSlot i h (semV i tag) s) (hk : vKind i = .int ∨ vKind i = .move)
    (hd : (vDest i).toNat < 28) (henc : fp64Codes i = []) (hsrc : linkOperands i = []) (hfull : vFull i s.core.ctl.vbud = 28)
    (hwide : vDest64 i s.core.ctl.fmt false = false) (hout : vOut s.core i = plainLanes f)
    (hg : ∀ k < 16, BitVec.ofNat 32 (f k) = g k) :
    VIssues i s tag (s.core.sch.cycle + 2) [.v (rotV s.core.ctl.rrb (vDest i).toNat) (vreg g)] 0#5 := by
  have hdue : s.core.sch.cycle + vLat s.core i = s.core.sch.cycle + 2 := by
    rw [vLat, hfull, vLatency_full]
    rcases hk with hk | hk <;> rw [hk] <;> rfl
  have hflags : (if vIsFp i || vKind i == .cvt then (vOut s.core i).flags else 0#5) = 0#5 := by
    rcases hk with hk | hk <;> simp [vIsFp, hk]
  have hw : vWrites i s.core.ctl.rrb (vDest64 i s.core.ctl.fmt false) (vOut s.core i) =
      [.v (rotV s.core.ctl.rrb (vDest i).toNat) (vreg g)] := by
    rw [vWrites_of_dest hd (by rintro _ _ _ _ _ _ rfl; simp [vKind] at hk) (by rintro _ _ _ _ _ _ _ rfl; simp [vKind] at hk),
      hwide, hout, plainLanes, lowWords_lanesOf, vreg_congr hg]
    rfl
  have hv := vIssues_of_registers hs hfree he (vEncOk_of_no_codes henc) (vDestLink_of_lt hd) hsrc
  rw [hdue, hflags, hw] at hv
  exact hv

theorem numBy_min (u : Bool) (x y : Word) :
    num (min (numBy u x) (numBy u y)) = if (if u then x.ult y else x.slt y) then x else y := by
  cases u
  · exact num_min_sNum x y
  · exact num_min_uNum x y

theorem numBy_max (u : Bool) (x y : Word) :
    num (max (numBy u x) (numBy u y)) = if (if u then x.ult y else x.slt y) then y else x := by
  cases u
  · exact num_max_sNum x y
  · exact num_max_uNum x y

theorem bitOf_toNat (x : Word) (n : Nat) : bitOf x.toNat n = x.getLsbD n := by
  simp [bitOf, BitVec.getLsbD, Nat.testBit_eq_decide_div_mod_eq, Bool.beq_eq_decide_eq]

theorem icmp_eq (c : BitVec 3) (x y : Word) :
    icmp c.toNat x y = if c = 0#3 then decide (sNum x = sNum y) else if c = 1#3 then decide (sNum x ≠ sNum y)
      else if c = 2#3 then decide (sNum x < sNum y) else if c = 3#3 then decide (sNum y ≤ sNum x)
      else if c = 4#3 then decide (uNum x < uNum y) else decide (uNum y ≤ uNum x) := by
  have hs : x.slt y = decide (sNum x < sNum y) := rfl
  have hu : x.ult y = decide (uNum x < uNum y) := by simp [BitVec.ult, uNum]
  have he : (x == y) = decide (sNum x = sNum y) := by
    rw [Bool.beq_eq_decide_eq]
    exact decide_eq_decide.mpr ⟨congrArg _, BitVec.eq_of_toInt_eq⟩
  have hne : (x != y) = !(x == y) := rfl
  have hn : ∀ p q : Int, (!decide (p < q)) = decide (q ≤ p) := fun p q => by rw [← decide_not, decide_eq_decide, not_lt]
  have hc : ∀ c : BitVec 3, c = 0#3 ∨ c = 1#3 ∨ c = 2#3 ∨ c = 3#3 ∨ c = 4#3 ∨ c = 5#3 ∨ c = 6#3 ∨ c = 7#3 := by decide
  rcases hc c with rfl | rfl | rfl | rfl | rfl | rfl | rfl | rfl <;> simp [icmp, hs, hu, he, hne, hn]

theorem cmpImm_eq (m : Imm 6 32) : cmpImm m = num (immNum m) := by
  rw [num_immNum (by decide)]
  cases m <;> rfl

theorem maskLane_word (v : Bool) : BitVec.ofNat 32 (maskLane v) = if v then 0xFFFFFFFF#32 else 0#32 := by
  cases v <;> rfl

/-- An operation on the words of two operands. -/
theorem vIssues_binary {i : Instr} {h : Hdr} {s : State} {tag : BitVec 3} {a b : BitVec 5} {f : Word → Word → Word}
    {g : Nat → Word} (ha : a.toNat < 28) (hb : b.toNat < 28) (hs : s.Ready h.guard)
    (hfree : s.core.tagFree tag = true) (he : exec i s = runSlot i h (semV i tag) s) (hk : vKind i = .int)
    (hd : (vDest i).toNat < 28) (henc : fp64Codes i = []) (hsrc : linkOperands i = []) (hfull : vFull i s.core.ctl.vbud = 28)
    (hwide : vDest64 i s.core.ctl.fmt false = false)
    (hout : vOut s.core i = wordLanes f (laneOperand s.core false a) (laneOperand s.core false b))
    (hg : ∀ k < 16, f (laneWord s.core a k) (laneWord s.core b k) = g k) :
    VIssues i s tag (s.core.sch.cycle + 2) [.v (rotV s.core.ctl.rrb (vDest i).toNat) (vreg g)] 0#5 := by
  refine vIssues_words hs hfree he (.inl hk) hd henc hsrc hfull hwide hout fun k hk => ?_
  rw [laneOperand_word _ ha hk, laneOperand_word _ hb hk, hg k hk, BitVec.ofNat_toNat, BitVec.setWidth_eq]

/-- An operation on the words of one operand. -/
theorem vIssues_unary {i : Instr} {h : Hdr} {s : State} {tag : BitVec 3} {a : BitVec 5} {f : Word → Word} {g : Nat → Word}
    (ha : a.toNat < 28) (hs : s.Ready h.guard) (hfree : s.core.tagFree tag = true)
    (he : exec i s = runSlot i h (semV i tag) s) (hk : vKind i = .int) (hd : (vDest i).toNat < 28) (henc : fp64Codes i = [])
    (hsrc : linkOperands i = []) (hfull : vFull i s.core.ctl.vbud = 28) (hwide : vDest64 i s.core.ctl.fmt false = false)
    (hout : vOut s.core i = wordLanes (fun u _ => f u) (laneOperand s.core false a) [])
    (hg : ∀ k < 16, f (laneWord s.core a k) = g k) :
    VIssues i s tag (s.core.sch.cycle + 2) [.v (rotV s.core.ctl.rrb (vDest i).toNat) (vreg g)] 0#5 := by
  refine vIssues_words hs hfree he (.inl hk) hd henc hsrc hfull hwide hout fun k hk => ?_
  show BitVec.ofNat 32 (f (((laneOperand s.core false a).getD k 0#64).setWidth 32)).toNat = g k
  rw [laneOperand_word _ ha hk, hg k hk, BitVec.ofNat_toNat, BitVec.setWidth_eq]

theorem tagFree_zero (t : Tile) : t.tagFree 0#3 = true := rfl

/-! Floating-point operands in registers. -/

/-- A lane of an operand of a V instruction as a number of the precision in force. -/
def fpOperand (t : Tile) (o : Option (BitVec 5)) (k : Nat) : FVal :=
  (precFmt (fmtPrec64 t.ctl.fmt)).unpack (ln (vOperand t (fmtPrec64 t.ctl.fmt) o) k)

theorem laneD_toNat (t : Tile) (wide : Bool) (c : BitVec 5) (k : Nat) :
    (laneD t wide c k).toNat =
      (lane (t.rv c.toNat) k).toNat + if wide then (lane (t.rv (c.toNat + 1)) k).toNat * 2 ^ 32 else 0 := by
  cases wide
  · rw [laneD, if_neg (by decide), BitVec.toNat_setWidth, if_neg (by decide), Nat.add_zero]
    exact Nat.mod_eq_of_lt (lt_of_lt_of_le (BitVec.isLt _) (by decide))
  · rw [laneD, if_pos rfl, BitVec.toNat_append, if_pos rfl, ← Nat.shiftLeft_add_eq_or_of_lt (BitVec.isLt _),
      Nat.shiftLeft_eq, Nat.add_comm]

@[simp] theorem fpOperand_some (t : Tile) {c : BitVec 5} (hc : c.toNat < 28) {k : Nat} (hk : k < 16) :
    fpOperand t (some c) k = fpLane t c k := by
  unfold fpOperand fpLane vOperand
  rw [ln, laneOperand_getD t _ hc hk]
  cases hp : fmtPrec64 t.ctl.fmt
  · rw [laneD_toNat]
    rfl
  · rfl

/-- The codes of an operand name registers or live links: it has all its lanes. -/
def Sampled (t : Tile) (c : BitVec 5) : Prop := (laneOperand t (fmtPrec64 t.ctl.fmt) c).length = 16

theorem sampled_of_register (t : Tile) {c : BitVec 5} (hc : c.toNat < 28) : Sampled t c := by
  rw [Sampled, laneOperand_of_register t _ hc]
  simp [upTo]

theorem vOperand_special (t : Tile) {o : Option (BitVec 5)} (ho : ∀ c ∈ o.toList, Sampled t c) (k : Nat) :
    (!(vOperand t (fmtPrec64 t.ctl.fmt) o).isEmpty && (fpOperand t o k).special) =
      o.toList.any fun c => (fpOperand t (some c) k).special := by
  cases o with
  | none => rfl
  | some c =>
    have hc : (laneOperand t (fmtPrec64 t.ctl.fmt) c).length = 16 := ho c (by simp)
    have hne : (laneOperand t (fmtPrec64 t.ctl.fmt) c).isEmpty = false := by
      rw [List.isEmpty_eq_false_iff]
      exact List.ne_nil_of_length_pos (by omega)
    simp [vOperand, hne]

theorem anySpecial_vOperand (t : Tile) {o : Option (BitVec 5)} (ho : ∀ c ∈ o.toList, Sampled t c) :
    anySpecial (precFmt (fmtPrec64 t.ctl.fmt)) (vOperand t (fmtPrec64 t.ctl.fmt) o) =
      (upTo 16).any fun k => o.toList.any fun c => (fpOperand t (some c) k).special := by
  cases o with
  | none => simp [anySpecial, vOperand]
  | some c =>
    have hc : (laneOperand t (fmtPrec64 t.ctl.fmt) c).length = 16 := ho c (by simp)
    rw [anySpecial, vOperand, Bool.eq_iff_iff, List.any_eq_true, List.any_eq_true]
    simp only [Option.toList_some, List.any_cons, List.any_nil, Bool.or_false, fpOperand, vOperand, ln, upTo, List.mem_range]
    constructor
    · rintro ⟨x, hx, hs⟩
      obtain ⟨k, hk, rfl⟩ := List.getElem_of_mem hx
      exact ⟨k, hc ▸ hk, by rwa [List.getD_eq_getElem _ _ hk]⟩
    · rintro ⟨k, hk, hs⟩
      rw [← hc] at hk
      exact ⟨_, List.getElem_mem hk, by rwa [List.getD_eq_getElem _ _ hk] at hs⟩

theorem any_any_append {α β : Type} (l : List α) (xs ys : List β) (p : α → β → Bool) :
    (l.any fun k => xs.any (p k) || ys.any (p k)) = ((l.any fun k => xs.any (p k)) || l.any fun k => ys.any (p k)) := by
  induction l with
  | nil => rfl
  | cons k l ih =>
    simp only [List.any_cons, ih]
    ac_rfl

theorem lanesOf_congr {bypass : Bool} {f g : Nat → Nat × Flags5} (h : ∀ k < 16, f k = g k) :
    lanesOf bypass f = lanesOf bypass g := by
  have hlanes : (fun k : Fin 16 => BitVec.ofNat 64 (f k.val).1) = fun k => BitVec.ofNat 64 (g k.val).1 :=
    funext fun k => by rw [h k k.isLt]
  have hflags : laneFlags (fun k => (f k).2) = laneFlags fun k => (g k).2 := laneFlags_congr fun k hk => by rw [h k hk]
  unfold laneFlags at hflags
  rw [lanesOf, lanesOf, hlanes, hflags]

theorem fpWrites_eq (t : Tile) (d : BitVec 5) (f : Nat → Nat) :
    fpWrites t d f = .v (rotV t.ctl.rrb d.toNat) (vreg fun k => BitVec.ofNat 32 (f k)) ::
      if fmtPrec64 t.ctl.fmt then [.v (rotV t.ctl.rrb (d.toNat + 1)) (vreg fun k => BitVec.ofNat 32 (f k / 2 ^ 32))] else [] := by
  unfold fpWrites
  cases fmtPrec64 t.ctl.fmt <;> rfl

/-- What an operation of floating-point lanes writes. -/
theorem vWrites_fp {t : Tile} {i : Instr} {wide bypass : Bool} {f : Nat → Nat × Flags5} (hd : (vDest i).toNat < 28)
    (hk : (vKind i == .decide) = false) (hwide : wide = fmtPrec64 t.ctl.fmt) (hout : vOut t i = lanesOf bypass f) :
    vWrites i t.ctl.rrb wide (vOut t i) = fpWrites t (vDest i) fun k => (f k).1 := by
  rw [vWrites_of_dest hd (by rintro _ _ _ _ _ _ rfl; nomatch hk) (by rintro _ _ _ _ _ _ _ rfl; nomatch hk), hwide, hout,
    lowWords_lanesOf, highWords_lanesOf, fpWrites_eq]

/-- An operation of floating-point lanes on registers issues, complete at its latency less what its budget saves. -/
theorem vIssues_fp {i : Instr} {h : Hdr} {s : State} {tag : BitVec 3} {bypass : Bool} {f : Nat → Nat × Flags5}
    (hs : s.Ready h.guard) (hfree : s.core.tagFree tag = true) (he : exec i s = runSlot i h (semV i tag) s)
    (henc : vEncOk s.core.ctl.fmt i = true) (hd : (vDest i).toNat < 28) (hsrc : linkOperands i = [])
    (hk : (vKind i == .decide) = false) (hfp : vIsFp i = true) (hwide : vDest64 i s.core.ctl.fmt false = fmtPrec64 s.core.ctl.fmt)
    (hout : vOut s.core i = lanesOf bypass f) :
    VIssues i s tag
      (s.core.sch.cycle + vLatency (vKind i) (fmtPrec64 s.core.ctl.fmt) (vFull i s.core.ctl.vbud) bypass)
      (fpWrites s.core (vDest i) fun k => (f k).1) (laneFlags fun k => (f k).2) := by
  have hv := vIssues_of_registers hs hfree he henc (vDestLink_of_lt hd) hsrc
  rw [vWrites_fp hd hk hwide hout, vLat, hfp, hout, lanesOf_flags, Bool.true_or, if_pos rfl] at hv
  exact hv

/-- What a compare of floating-point lanes writes and records (R269). -/
theorem vcmp_writes {t : Tile} {h : Hdr} {d a b : BitVec 5} {c : BitVec 3} {f : Nat → Bool} (hd : d.toNat < 28)
    (hf : ∀ k < 16, fcmp c.toNat (fpOperand t (some a) k) (fpOperand t (some b) k) = f k) :
    vWrites (.vcmp h d a b c) t.ctl.rrb false (vOut t (.vcmp h d a b c)) =
        [.v (rotV t.ctl.rrb d.toNat) (vreg fun k => if f k then 0xFFFFFFFF#32 else 0#32)] ∧
      (vOut t (.vcmp h d a b c)).flags = 0#5 := by
  have hout : ∃ bypass, vOut t (.vcmp h d a b c) = lanesOf bypass fun k =>
      (maskLane (fcmp c.toNat (fpOperand t (some a) k) (fpOperand t (some b) k)), 0#5) := ⟨_, rfl⟩
  obtain ⟨bypass, hout⟩ := hout
  rw [vWrites_of_dest (i := .vcmp h d a b c) hd (by intros; exact Instr.noConfusion) (by intros; exact Instr.noConfusion),
    hout, lowWords_lanesOf, lanesOf_flags, laneFlags_const,
    vreg_congr (g := fun k => if f k then 0xFFFFFFFF#32 else 0#32) fun k hk => by rw [hf k hk, maskLane_word]]
  exact ⟨rfl, rfl⟩

/-- The compare of floating-point lanes (R269). -/
theorem vIssues_vcmp {h : Hdr} {s : State} {d a b : BitVec 5} (c : BitVec 3) (hs : s.Ready h.guard) (hd : d.toNat < 28)
    (ha : a.toNat < 28) (hb : b.toNat < 28) (henc : vEncOk s.core.ctl.fmt (.vcmp h d a b c) = true) :
    VIssues (.vcmp h d a b c) s 0#3 (s.core.sch.cycle + if fmtPrec64 s.core.ctl.fmt then 4 else 3)
      [.v (rotV s.core.ctl.rrb d.toNat) (vreg fun k =>
        if fcmp c.toNat (fpLane s.core a k) (fpLane s.core b k) then 0xFFFFFFFF#32 else 0#32)] 0#5 := by
  have hsrc : linkOperands (.vcmp h d a b c) = [] := by
    simp only [linkOperands, if_neg (show ¬a.toNat ≥ 28 by omega), if_neg (show ¬b.toNat ≥ 28 by omega), List.append_nil]
  have hv := vIssues_of_registers hs (tagFree_zero s.core) rfl henc (vDestLink_of_lt hd) hsrc
  obtain ⟨hw, hflags⟩ := vcmp_writes (t := s.core) (h := h) (a := a) (b := b) (c := c) hd
    fun k hk => by rw [fpOperand_some _ ha hk, fpOperand_some _ hb hk]
  have hlat : vLat s.core (.vcmp h d a b c) = if fmtPrec64 s.core.ctl.fmt then 4 else 3 := by
    refine (vLatency_full _ _ _).trans ?_
    cases fmtPrec64 s.core.ctl.fmt <;> rfl
  rw [show vDest64 (.vcmp h d a b c) s.core.ctl.fmt false = false from rfl, hw, hflags, ite_self, hlat] at hv
  exact hv

/-- Settles O31, lane by lane: each instruction of R275 by its word operation, the compares by their conditions. -/
theorem vectorIntegers : Obligations.VectorIntegers := by
  refine ⟨?_, ?_⟩
  · intro s h d a b k t l u hs hfree hd ha hb x y z gives
    refine ⟨?_, ?_, ?_, ?_, ?_, ?_, ?_, ?_, ?_, ?_, ?_, ?_, ?_, ?_, ?_, ?_⟩
    · exact vIssues_binary ha hb hs hfree rfl rfl hd rfl rfl rfl rfl rfl fun k _ => by
        rw [num_add, num_uNum, num_uNum]
    · exact vIssues_binary ha hb hs hfree rfl rfl hd rfl rfl rfl rfl rfl fun k _ => by
        rw [num_sub, num_uNum, num_uNum]
    · exact vIssues_binary ha hb hs hfree rfl rfl hd rfl rfl rfl rfl rfl fun k _ => by
        rw [num_mul, num_uNum, num_uNum]
    · exact vIssues_binary ha hb hs hfree rfl rfl hd rfl rfl rfl rfl rfl fun _ _ => rfl
    · exact vIssues_binary ha hb hs hfree rfl rfl hd rfl rfl rfl rfl rfl fun _ _ => rfl
    · exact vIssues_binary ha hb hs hfree rfl rfl hd rfl rfl rfl rfl rfl fun _ _ => rfl
    · exact vIssues_unary (f := (· <<< k.toNat)) ha hs hfree rfl rfl hd rfl rfl rfl rfl rfl fun _ _ => (num_uNum_mul_two_pow _ _).symm
    · exact vIssues_unary (f := (· >>> k.toNat)) ha hs hfree rfl rfl hd rfl rfl rfl rfl rfl fun _ _ => (num_uNum_div_two_pow _ _).symm
    · exact vIssues_unary (f := (·.sshiftRight k.toNat)) ha hs hfree rfl rfl hd rfl rfl rfl rfl rfl fun _ _ => (num_sNum_div_two_pow _ _).symm
    · refine vIssues_words hs hfree rfl (.inl rfl) hd rfl rfl rfl rfl
        (f := fun k => if bitOf (ln (laneOperand s.core false b) k) 31 then 0
          else ln (laneOperand s.core false a) (ln (laneOperand s.core false b) k % 16)) rfl fun k hk => ?_
      rw [ln_laneOperand _ hb hk, ln_laneOperand _ ha (Nat.mod_lt _ (by decide)), bitOf_toNat]
      rw [apply_ite (BitVec.ofNat 32), BitVec.ofNat_toNat, BitVec.setWidth_eq]
    · refine vIssues_words hs hfree rfl (.inl rfl) hd rfl rfl rfl rfl
        (f := fun _ => ln (laneOperand s.core false a) l.toNat) rfl fun k hk => ?_
      rw [ln_laneOperand _ ha l.isLt, BitVec.ofNat_toNat, BitVec.setWidth_eq]
    · refine vIssues_words hs hfree rfl (.inl rfl) hd rfl rfl rfl rfl
        (f := fun k => (ln (laneOperand s.core false a) 0 + k) % 2 ^ 32) rfl fun k hk => ?_
      rw [ln_laneOperand _ ha (by decide)]
      simp only [x, uNum, num]
      rw [← Int.natCast_add, BitVec.ofInt_natCast]
      exact BitVec.eq_of_toNat_eq (by simp)
    · exact vIssues_binary (f := fun p q => if (if u then p.ult q else p.slt q) then p else q) ha hb hs hfree rfl rfl hd rfl rfl rfl rfl rfl
        fun _ _ => (numBy_min u _ _).symm
    · exact vIssues_binary (f := fun p q => if (if u then p.ult q else p.slt q) then q else p) ha hb hs hfree rfl rfl hd rfl rfl rfl rfl rfl
        fun _ _ => (numBy_max u _ _).symm
    · refine vIssues_words hs hfree rfl (.inl rfl) hd rfl rfl rfl rfl
        (f := fun k => if bitOf (ln (laneOperand s.core false a) k) 31 then ln (laneOperand s.core false b) k
          else ln (laneOperand s.core false d) k) rfl fun k hk => ?_
      rw [ln_laneOperand _ ha hk, ln_laneOperand _ hb hk, ln_laneOperand _ hd hk, bitOf_toNat, apply_ite (BitVec.ofNat 32),
        BitVec.ofNat_toNat, BitVec.ofNat_toNat, BitVec.setWidth_eq, BitVec.setWidth_eq]
    · refine vIssues_words hs hfree rfl (.inr rfl) hd (if_neg (by omega)) (if_neg (by omega)) rfl rfl
        (f := fun k => ln (laneOperand s.core false a) k) rfl fun k hk => ?_
      rw [ln_laneOperand _ ha hk, BitVec.ofNat_toNat, BitVec.setWidth_eq]
  · intro s h d a b m c hs hd ha hb mask x w holds
    refine ⟨?_, fun henc => ?_⟩
    · refine vIssues_words hs (tagFree_zero _) rfl (.inl rfl) hd rfl rfl rfl rfl
        (f := fun k => maskLane (icmp c.toNat (BitVec.ofNat 32 (ln (laneOperand s.core false a) k)) (cmpImm m))) rfl
        fun k hk => ?_
      rw [ln_laneOperand _ ha hk, BitVec.ofNat_toNat, BitVec.setWidth_eq, maskLane_word, icmp_eq, cmpImm_eq]
    · exact vIssues_vcmp c hs hd ha hb henc

end Sys2Proof.Machine
end

section
/-! SUPPORT. The floating-point arithmetic and the reductions of V on v registers (R152, R182, R183, R263 to R265, R270, R273, R274). -/

namespace Sys2Proof.Machine

/-- The registers that a V instruction reads, in the order A, B, third source. -/
def vCodes (i : Instr) : List (BitVec 5) := (vShape i).a.toList ++ ((vShape i).b.toList ++ (vThird i).toList)

/-- Whether any lane of the operands holds a special value (R183). -/
def anySpecialIn (t : Tile) (cs : List (BitVec 5)) : Bool :=
  (upTo 16).any fun k => cs.any fun c => (fpOperand t (some c) k).special

theorem anySpecialIn_append (t : Tile) (cs ds : List (BitVec 5)) :
    anySpecialIn t (cs ++ ds) = (anySpecialIn t cs || anySpecialIn t ds) := by
  unfold anySpecialIn
  rw [← any_any_append]
  simp only [List.any_append]

/-- The cycles that a budget saves, of operands that need not be registers (R152). -/
def savedOf (t : Tile) (n : Bool) (cs : List (BitVec 5)) : Nat :=
  if anySpecialIn t cs then 0 else
    (fullDigits (fmtPrec64 t.ctl.fmt) - min (if n then t.ctl.vbud else 28) (fullDigits (fmtPrec64 t.ctl.fmt))) / 4

theorem savedOf_registers (t : Tile) (n : Bool) {cs : List (BitVec 5)} (hcs : ∀ c ∈ cs, c.toNat < 28) :
    savedOf t n cs = saves t n cs := by
  have h : anySpecialIn t cs = (upTo 16).any fun k => cs.any fun c => (fpLane t c k).special := by
    unfold anySpecialIn
    rw [Bool.eq_iff_iff, List.any_eq_true, List.any_eq_true]
    refine exists_congr fun k => and_congr_right fun hk => ?_
    rw [List.any_eq_true, List.any_eq_true]
    exact exists_congr fun c => and_congr_right fun hc => by rw [fpOperand_some t (hcs c hc) (List.mem_range.mp hk)]
  rw [savedOf, h]
  rfl

theorem vLatency_saved (t : Tile) (k : VKind) (n : Bool) (cs : List (BitVec 5)) {short long : Nat}
    (hlat : ∀ p64, k.latency p64 = if p64 then long else short) :
    vLatency k (fmtPrec64 t.ctl.fmt) (if n then t.ctl.vbud else 28) (anySpecialIn t cs) =
      (if fmtPrec64 t.ctl.fmt then long else short) - savedOf t n cs := by
  rw [savedOf, ← hlat]
  rfl

/-- The special terms of the three operands together are those of the operands read. -/
theorem specials_eq (t : Tile) {i : Instr} (hreg : ∀ c ∈ vCodes i, Sampled t c) :
    (anySpecial (precFmt (fmtPrec64 t.ctl.fmt)) (vOperand t (fmtPrec64 t.ctl.fmt) (vShape i).a) ||
      anySpecial (precFmt (fmtPrec64 t.ctl.fmt)) (vOperand t (fmtPrec64 t.ctl.fmt) (vShape i).b) ||
      anySpecial (precFmt (fmtPrec64 t.ctl.fmt)) (vOperand t (fmtPrec64 t.ctl.fmt) (vThird i))) =
      anySpecialIn t (vCodes i) := by
  unfold vCodes at hreg ⊢
  simp only [List.mem_append] at hreg
  rw [anySpecial_vOperand t fun c hc => hreg c (.inl hc), anySpecial_vOperand t fun c hc => hreg c (.inr (.inl hc)),
    anySpecial_vOperand t fun c hc => hreg c (.inr (.inr hc)), anySpecialIn_append, anySpecialIn_append, ← Bool.or_assoc]
  rfl

/-- The rounding of a lane. -/
theorem lane_rounding (t : Tile) {i : Instr} (hreg : ∀ c ∈ vCodes i, Sampled t c) (k : Nat) :
    (if (!(vOperand t (fmtPrec64 t.ctl.fmt) (vShape i).a).isEmpty && (fpOperand t (vShape i).a k).special) ||
        (!(vOperand t (fmtPrec64 t.ctl.fmt) (vShape i).b).isEmpty && (fpOperand t (vShape i).b k).special) ||
        (!(vOperand t (fmtPrec64 t.ctl.fmt) (vThird i)).isEmpty && (fpOperand t (vThird i) k).special)
      then RCtx.full (precFmt (fmtPrec64 t.ctl.fmt)) (fmtRnd t.ctl.fmt)
      else RCtx.budget (precFmt (fmtPrec64 t.ctl.fmt)) (fmtRnd t.ctl.fmt) (vFull i t.ctl.vbud)) =
      laneCtx t (vShape i).budgeted ((vCodes i).map fun c => fpOperand t (some c) k) := by
  unfold vCodes at hreg ⊢
  simp only [List.mem_append] at hreg
  rw [vOperand_special t (fun c hc => hreg c (.inl hc)), vOperand_special t (fun c hc => hreg c (.inr (.inl hc))),
    vOperand_special t (fun c hc => hreg c (.inr (.inr hc))), Bool.or_assoc, ← List.any_append, ← List.any_append, laneCtx,
    List.any_map]
  rfl

/-- What an instruction of Table 12-1 computes. -/
theorem vOut_arith (t : Tile) {i : Instr} (ha : isArith i = true) (hwide : wideSource i t.ctl.fmt = fmtPrec64 t.ctl.fmt)
    (hbud : vBudget i t.ctl.vbud = vFull i t.ctl.vbud) (hreg : ∀ c ∈ vCodes i, Sampled t c) :
    vOut t i = lanesOf (anySpecialIn t (vCodes i)) fun k =>
      vFpLane i (laneCtx t (vShape i).budgeted ((vCodes i).map fun c => fpOperand t (some c) k)) (fpOperand t (vShape i).a k)
        (fpOperand t (vShape i).b k) (fpOperand t (vThird i) k) := by
  rw [vOut, vOps, hwide, hbud, ← specials_eq t hreg]
  refine (if_pos ha).trans (lanesOf_congr fun k hk => ?_)
  rw [← lane_rounding t hreg k]
  rfl

/-- An instruction of Table 12-1 on registers issues: each lane its function of the operands, at the latency of its kind less
what its budget saves. -/
theorem vIssues_arith {i : Instr} {h : Hdr} {s : State} {tag : BitVec 3} {f : Nat → Nat × Flags5} {short long : Nat}
    (hs : s.Ready h.guard) (hfree : s.core.tagFree tag = true) (he : exec i s = runSlot i h (semV i tag) s)
    (henc : vEncOk s.core.ctl.fmt i = true) (hd : (vDest i).toNat < 28) (hsrc : linkOperands i = [])
    (ha : isArith i = true) (hk : (vKind i == .decide) = false) (hfp : vIsFp i = true)
    (hsource : wideSource i s.core.ctl.fmt = fmtPrec64 s.core.ctl.fmt)
    (hdest : vDest64 i s.core.ctl.fmt false = fmtPrec64 s.core.ctl.fmt)
    (hbud : vBudget i s.core.ctl.vbud = vFull i s.core.ctl.vbud) (hreg : ∀ c ∈ vCodes i, c.toNat < 28)
    (hlat : ∀ p64, (vKind i).latency p64 = if p64 then long else short)
    (hf : ∀ k < 16, vFpLane i (laneCtx s.core (vShape i).budgeted ((vCodes i).map fun c => fpLane s.core c k))
      (fpOperand s.core (vShape i).a k) (fpOperand s.core (vShape i).b k) (fpOperand s.core (vThird i) k) = f k) :
    VIssues i s tag
      (s.core.sch.cycle + ((if fmtPrec64 s.core.ctl.fmt then long else short) - saves s.core (vShape i).budgeted (vCodes i)))
      (fpWrites s.core (vDest i) fun k => (f k).1) (laneFlags fun k => (f k).2) := by
  have hlanes : ∀ k < 16, (vCodes i).map (fun c => fpOperand s.core (some c) k) = (vCodes i).map fun c => fpLane s.core c k :=
    fun k hk => List.map_congr_left fun c hc => fpOperand_some s.core (hreg c hc) hk
  have hv := vIssues_fp hs hfree he henc hd hsrc hk hfp hdest
    ((vOut_arith s.core ha hsource hbud fun c hc => sampled_of_register _ (hreg c hc)).trans
      (lanesOf_congr fun k hk => by rw [hlanes k hk, hf k hk]))
  rw [vFull, vLatency_saved s.core _ _ _ hlat, savedOf_registers _ _ hreg] at hv
  exact hv

theorem latency_cases {k : VKind} {short long : Nat} (hs : k.latency false = short) (hl : k.latency true = long) (p64 : Bool) :
    k.latency p64 = if p64 then long else short := by
  cases p64
  · exact hs
  · exact hl

/-- Settles O32: each instruction of Table 12-1 by its function of the lanes. -/
theorem vectorArithmetic : Obligations.VectorArithmetic := by
  intro s h d a b t n hs hfree hd ha hb henc p64 x y z c1 c2 c3 gives
  have h1 : ∀ c ∈ [a], c.toNat < 28 := by simpa using ha
  have h2 : ∀ c ∈ [a, b], c.toNat < 28 := by simpa using ⟨ha, hb⟩
  have h3 : ∀ c ∈ [a, b, d], c.toNat < 28 := by simpa using ⟨ha, hb, hd⟩
  have l1 : (if a.toNat ≥ 28 then [(0, a.toNat - 28)] else []) = ([] : List (Nat × Nat)) := if_neg (by omega)
  have l2 : ((if a.toNat ≥ 28 then [(0, a.toNat - 28)] else []) ++ if b.toNat ≥ 28 then [(1, b.toNat - 28)] else []) =
      ([] : List (Nat × Nat)) := by rw [l1, if_neg (by omega), List.append_nil]
  have A : ∀ k < 16, fpOperand s.core (some a) k = x k := fun k => fpOperand_some s.core ha
  have B : ∀ k < 16, fpOperand s.core (some b) k = y k := fun k => fpOperand_some s.core hb
  have D : ∀ k < 16, fpOperand s.core (some d) k = z k := fun k => fpOperand_some s.core hd
  have henc1 : vEncOk s.core.ctl.fmt (.vabs h d a t n) = true := vEncOk_of_subset henc (by simp [fp64Codes])
  refine ⟨?_, ?_, ?_, ?_, ?_, ?_, ?_, ?_, ?_, ?_, ?_, ?_, ?_, ?_, ?_⟩
  · exact vIssues_arith hs hfree rfl henc hd l2 rfl rfl rfl rfl rfl rfl h2 (latency_cases rfl rfl)
      fun k hk => congrArg₂ (c2 k).add (A k hk) (B k hk)
  · exact vIssues_arith hs hfree rfl henc hd l2 rfl rfl rfl rfl rfl rfl h2 (latency_cases rfl rfl)
      fun k hk => congrArg₂ (c2 k).add (A k hk) (congrArg FVal.flip (B k hk))
  · exact vIssues_arith hs hfree rfl henc hd l2 rfl rfl rfl rfl rfl rfl h2 (latency_cases rfl rfl)
      fun k hk => congrArg₂ (c2 k).mul (A k hk) (B k hk)
  · exact vIssues_arith hs hfree rfl henc hd l2 rfl rfl rfl rfl rfl rfl h3 (latency_cases rfl rfl)
      fun k hk => congr (congrArg₂ (c3 k).fma (A k hk) (B k hk)) (D k hk)
  · exact vIssues_arith hs hfree rfl henc hd l2 rfl rfl rfl rfl rfl rfl h3 (latency_cases rfl rfl)
      fun k hk => (congrArg₂ (fun u v => (c3 k).fma u v _) (A k hk) (B k hk)).trans
        (congrArg (fun w : FVal => (c3 k).fma (x k) (y k) w.flip) (D k hk))
  · exact vIssues_arith hs hfree rfl henc hd l2 rfl rfl rfl rfl rfl rfl h3 (latency_cases rfl rfl)
      fun k hk => congr (congrArg₂ (c3 k).fma (congrArg FVal.flip (A k hk)) (B k hk)) (D k hk)
  · exact vIssues_arith hs hfree rfl henc hd l2 rfl rfl rfl rfl rfl rfl h2 (latency_cases rfl rfl)
      fun k hk => congrArg₂ (c2 k).div (A k hk) (B k hk)
  · exact vIssues_arith hs hfree rfl henc1 hd l1 rfl rfl rfl rfl rfl rfl h1 (latency_cases rfl rfl)
      fun k hk => congrArg (c1 k).sqrt (A k hk)
  · exact vIssues_arith hs hfree rfl henc1 hd l1 rfl rfl rfl rfl rfl rfl h1 (latency_cases rfl rfl)
      fun k hk => congrArg (c1 k).rsqrt (A k hk)
  · exact vIssues_arith hs hfree rfl henc1 hd l1 rfl rfl rfl rfl rfl rfl h1 (latency_cases rfl rfl)
      fun k hk => congrArg (c1 k).rcp (A k hk)
  · exact vIssues_arith hs hfree rfl henc hd l2 rfl rfl rfl rfl rfl rfl h2 (latency_cases rfl rfl)
      fun k hk => congrArg₂ (c2 k).min (A k hk) (B k hk)
  · exact vIssues_arith hs hfree rfl henc hd l2 rfl rfl rfl rfl rfl rfl h2 (latency_cases rfl rfl)
      fun k hk => congrArg₂ (c2 k).max (A k hk) (B k hk)
  · exact vIssues_arith hs hfree rfl henc1 hd l1 rfl rfl rfl rfl rfl rfl h1 (latency_cases rfl rfl)
      fun k hk => congrArg (c1 k).val (congrArg (FVal.withSign false) (A k hk))
  · exact vIssues_arith hs hfree rfl henc1 hd l1 rfl rfl rfl rfl rfl rfl h1 (latency_cases rfl rfl)
      fun k hk => congrArg (c1 k).val (congrArg FVal.flip (A k hk))
  · exact vIssues_arith hs hfree rfl henc hd l2 rfl rfl rfl rfl rfl rfl h2 (latency_cases rfl rfl)
      fun k hk => congrArg₂ (c2 k).maxa (A k hk) (B k hk)

/-! Reductions, conversions and deciders. -/

theorem any_upTo_congr {p q : Nat → Bool} (h : ∀ k < 16, p k = q k) : (upTo 16).any p = (upTo 16).any q := by
  rw [Bool.eq_iff_iff, List.any_eq_true, List.any_eq_true]
  exact exists_congr fun k => and_congr_right fun hk => by rw [h k (List.mem_range.mp hk)]

theorem all_upTo_congr {p q : Nat → Bool} (h : ∀ k < 16, p k = q k) : (upTo 16).all p = (upTo 16).all q := by
  rw [Bool.eq_iff_iff, List.all_eq_true, List.all_eq_true]
  exact forall_congr' fun k => forall_congr' fun hk => by rw [h k (List.mem_range.mp hk)]

theorem map_upTo_congr {α : Type} {f g : Nat → α} (h : ∀ k < 16, f k = g k) : (upTo 16).map f = (upTo 16).map g :=
  List.map_congr_left fun k hk => h k (List.mem_range.mp hk)

/-- The rounding of a sum over all lanes of some registers (R183, R184). -/
theorem sum_rounding (t : Tile) (n : Bool) {cs : List (BitVec 5)} (hcs : ∀ c ∈ cs, c.toNat < 28) :
    (if anySpecialIn t cs then RCtx.full (precFmt (fmtPrec64 t.ctl.fmt)) (fmtRnd t.ctl.fmt)
      else RCtx.budget (precFmt (fmtPrec64 t.ctl.fmt)) (fmtRnd t.ctl.fmt) (if n then t.ctl.vbud else 28)) =
      laneCtx t n (cs.flatMap fun c => (upTo 16).map (fpLane t c)) := by
  have hany : (cs.flatMap fun c => (upTo 16).map (fpLane t c)).any FVal.special = anySpecialIn t cs := by
    rw [Bool.eq_iff_iff]
    simp only [anySpecialIn, List.any_eq_true, List.mem_flatMap, List.mem_map]
    constructor
    · rintro ⟨_, ⟨c, hc, k, hk, rfl⟩, hv⟩
      exact ⟨k, hk, c, hc, by rwa [fpOperand_some t (hcs c hc) (List.mem_range.mp hk)]⟩
    · rintro ⟨k, hk, c, hc, hv⟩
      exact ⟨_, ⟨c, hc, k, hk, rfl⟩, by rwa [fpOperand_some t (hcs c hc) (List.mem_range.mp hk)] at hv⟩
  rw [laneCtx, hany]

theorem vIssues_vred {h : Hdr} {s : State} {d a : BitVec 5} {t : BitVec 3} {n : Bool} (hs : s.Ready h.guard)
    (hfree : s.core.tagFree t = true) (hd : d.toNat < 28) (ha : a.toNat < 28)
    (henc : vEncOk s.core.ctl.fmt (.vred h d a t n) = true) :
    VIssues (.vred h d a t n) s t
      (s.core.sch.cycle + ((if fmtPrec64 s.core.ctl.fmt then 11 else 7) - saves s.core n [a]))
      (fpWrites s.core d fun _ => ((laneCtx s.core n ((upTo 16).map (fpLane s.core a))).sum ((upTo 16).map (fpLane s.core a))).1)
      ((laneCtx s.core n ((upTo 16).map (fpLane s.core a))).sum ((upTo 16).map (fpLane s.core a))).2 := by
  have hsp : (anySpecial (precFmt (fmtPrec64 s.core.ctl.fmt)) (vOperand s.core (fmtPrec64 s.core.ctl.fmt) (some a)) ||
      anySpecial (precFmt (fmtPrec64 s.core.ctl.fmt)) []) = anySpecialIn s.core [a] := by
    rw [anySpecial_vOperand s.core (by simpa using sampled_of_register _ ha)]
    exact Bool.or_false _
  have h1 : ∀ c ∈ [a], c.toNat < 28 := by simpa using ha
  have hcs := sum_rounding s.core n h1
  rw [List.flatMap_singleton] at hcs
  have hmap : (upTo 16).map (fpOperand s.core (some a)) = (upTo 16).map (fpLane s.core a) :=
    map_upTo_congr fun k => fpOperand_some s.core ha
  have hout : vOut s.core (.vred h d a t n) = lanesOf (anySpecialIn s.core [a]) fun _ =>
      (laneCtx s.core n ((upTo 16).map (fpLane s.core a))).sum ((upTo 16).map (fpLane s.core a)) := by
    rw [← hcs, ← hsp, ← hmap]
    rfl
  have hv := vIssues_fp hs hfree rfl henc hd rfl rfl rfl rfl hout
  rw [laneFlags_const] at hv
  have hlat := vLatency_saved s.core .red n [a] (short := 7) (long := 11) (latency_cases rfl rfl)
  rw [← savedOf_registers _ _ h1, ← hlat]
  exact hv

theorem vIssues_vdot {h : Hdr} {s : State} {d a b : BitVec 5} {t : BitVec 3} {n : Bool} {r : Nat × Flags5} (hs : s.Ready h.guard)
    (hfree : s.core.tagFree t = true) (hd : d.toNat < 28) (ha : a.toNat < 28) (hb : b.toNat < 28)
    (henc : vEncOk s.core.ctl.fmt (.vdot h d a b t n) = true)
    (hr : (laneCtx s.core n ((upTo 16).map (fpLane s.core a) ++ (upTo 16).map (fpLane s.core b))).sum
      ((upTo 16).map fun k => (fpLane s.core a k).times (fpLane s.core b k)) = r) :
    VIssues (.vdot h d a b t n) s t
      (s.core.sch.cycle + ((if fmtPrec64 s.core.ctl.fmt then 12 else 8) - saves s.core n [a, b]))
      (fpWrites s.core d fun _ => r.1)
      (r.2 ||| if (upTo 16).any fun k => (fpLane s.core a k).badTimes (fpLane s.core b k) then flInvalid else 0#5) := by
  have hsp : (anySpecial (precFmt (fmtPrec64 s.core.ctl.fmt)) (vOperand s.core (fmtPrec64 s.core.ctl.fmt) (some a)) ||
      anySpecial (precFmt (fmtPrec64 s.core.ctl.fmt)) (vOperand s.core (fmtPrec64 s.core.ctl.fmt) (some b))) =
      anySpecialIn s.core [a, b] := by
    rw [anySpecial_vOperand s.core (by simpa using sampled_of_register _ ha),
      anySpecial_vOperand s.core (by simpa using sampled_of_register _ hb),
      show [a, b] = [a] ++ [b] from rfl, anySpecialIn_append]
    rfl
  have h2 : ∀ c ∈ [a, b], c.toNat < 28 := by simpa using ⟨ha, hb⟩
  have hcs : (if anySpecialIn s.core [a, b] then _ else _) =
      laneCtx s.core n ((upTo 16).map (fpLane s.core a) ++ (upTo 16).map (fpLane s.core b)) :=
    (sum_rounding s.core n h2).trans (by simp)
  have hmap : ((upTo 16).map fun k => (fpOperand s.core (some a) k).times (fpOperand s.core (some b) k)) =
      (upTo 16).map fun k => (fpLane s.core a k).times (fpLane s.core b k) :=
    map_upTo_congr fun k hk => by rw [fpOperand_some _ ha hk, fpOperand_some _ hb hk]
  have hbad : ((upTo 16).any fun k => (fpOperand s.core (some a) k).badTimes (fpOperand s.core (some b) k)) =
      (upTo 16).any fun k => (fpLane s.core a k).badTimes (fpLane s.core b k) :=
    any_upTo_congr fun k hk => by rw [fpOperand_some _ ha hk, fpOperand_some _ hb hk]
  have hout : vOut s.core (.vdot h d a b t n) = lanesOf (anySpecialIn s.core [a, b]) fun _ =>
      (r.1, if (upTo 16).any fun k => (fpLane s.core a k).badTimes (fpLane s.core b k) then r.2 ||| flInvalid else r.2) := by
    rw [← hr, ← hcs, ← hsp, ← hmap, ← hbad]
    rfl
  have hv := vIssues_fp hs hfree rfl henc hd rfl rfl rfl rfl hout
  rw [laneFlags_const] at hv
  have hfl : ∀ v : Bool, (if v then r.2 ||| flInvalid else r.2) = (r.2 ||| if v then flInvalid else 0#5) := by
    intro v
    cases v
    · exact (BitVec.or_zero).symm
    · rfl
  have hlat := vLatency_saved s.core .dot n [a, b] (short := 8) (long := 12) (latency_cases rfl rfl)
  rw [← savedOf_registers _ _ h2, ← hlat, ← hfl]
  exact hv

/-- An operation of floating-point lanes that no budget shortens, of the kind of VCLAMP. -/
theorem vIssues_clamping {i : Instr} {h : Hdr} {s : State} {tag : BitVec 3} {bypass : Bool} {f : Nat → Nat × Flags5}
    (hs : s.Ready h.guard) (hfree : s.core.tagFree tag = true) (he : exec i s = runSlot i h (semV i tag) s)
    (henc : vEncOk s.core.ctl.fmt i = true) (hd : (vDest i).toNat < 28) (hsrc : linkOperands i = [])
    (hk : vKind i = .clamp) (hfull : vFull i s.core.ctl.vbud = 28)
    (hwide : vDest64 i s.core.ctl.fmt false = fmtPrec64 s.core.ctl.fmt) (hout : vOut s.core i = lanesOf bypass f) :
    VIssues i s tag (s.core.sch.cycle + if fmtPrec64 s.core.ctl.fmt then 4 else 3)
      (fpWrites s.core (vDest i) fun k => (f k).1) (laneFlags fun k => (f k).2) := by
  have hv := vIssues_fp hs hfree he henc hd hsrc (by rw [hk]; rfl) (by rw [vIsFp, hk]) hwide hout
  rw [hk, hfull, vLatency_full, latency_cases (k := .clamp) (short := 3) (long := 4) rfl rfl] at hv
  exact hv

theorem vIssues_vcvt {h : Hdr} {s : State} {d a : BitVec 5} (code : BitVec 6) {t : BitVec 3} {f : Nat → Nat × Flags5}
    (hs : s.Ready h.guard) (hfree : s.core.tagFree t = true) (hd : d.toNat < 28) (ha : a.toNat < 28)
    (hf : ∀ k < 16, cvtLane code.toNat (fmtRnd s.core.ctl.fmt) (laneD s.core (cvtFrom64 code.toNat) a k).toNat = f k) :
    VIssues (.vcvt h d a code t) s t (s.core.sch.cycle + 4)
      (.v (rotV s.core.ctl.rrb d.toNat) (vreg fun k => BitVec.ofNat 32 (f k).1) ::
        if cvtTo64 code.toNat then
          [.v (rotV s.core.ctl.rrb (d.toNat + 1)) (vreg fun k => BitVec.ofNat 32 ((f k).1 / 2 ^ 32))]
        else [])
      (laneFlags fun k => (f k).2) := by
  have hv := vIssues_of_registers hs hfree rfl (vEncOk_of_no_codes rfl) (vDestLink_of_lt (i := .vcvt h d a code t) hd) rfl
  have hlanes : vOut s.core (.vcvt h d a code t) = lanesOf false fun k =>
      cvtLane code.toNat (fmtRnd s.core.ctl.fmt) (ln (laneOperand s.core (cvtFrom64 code.toNat) a) k) := rfl
  have hout : vOut s.core (.vcvt h d a code t) = lanesOf false f :=
    hlanes.trans (lanesOf_congr fun k hk => by rw [ln, laneOperand_getD _ _ ha hk, hf k hk])
  rw [vWrites_of_dest (i := .vcvt h d a code t) hd (by intros; exact Instr.noConfusion) (by intros; exact Instr.noConfusion), vLat,
    hout, lowWords_lanesOf, highWords_lanesOf, lanesOf_flags,
    show vFull (.vcvt h d a code t) s.core.ctl.vbud = 28 from rfl, vLatency_full] at hv
  exact hv

/-- A decider on registers issues, complete at its latency (R270, R271). -/
theorem vIssues_decider {i : Instr} {h : Hdr} {s : State} {tag p : BitVec 3} {v : Bool} (hs : s.Ready h.guard)
    (hfree : s.core.tagFree tag = true) (he : exec i s = runSlot i h (semV i tag) s) (henc : vEncOk s.core.ctl.fmt i = true)
    (hdest : vDestLink i = none) (hsrc : linkOperands i = []) (hk : vKind i = .decide) (hfull : vFull i s.core.ctl.vbud = 28)
    (hw : ∀ wide, vWrites i s.core.ctl.rrb wide (vOut s.core i) = [.p (rotP s.core.ctl.rrb p) v])
    (hflags : (vOut s.core i).flags = 0#5) :
    VIssues i s tag (s.core.sch.cycle + if fmtPrec64 s.core.ctl.fmt then 4 else 3) [.p (rotP s.core.ctl.rrb p) v] 0#5 := by
  have hv := vIssues_of_registers hs hfree he henc hdest hsrc
  rw [hw, hflags, ite_self, vLat, hk, hfull, vLatency_full, latency_cases (k := .decide) (short := 3) (long := 4) rfl rfl] at hv
  exact hv

theorem vOut_vclamp (t : Tile) (h : Hdr) (d a b : BitVec 5) (tag : BitVec 3) :
    ∃ bypass, vOut t (.vclamp h d a b tag) = lanesOf bypass fun k =>
      if (fpOperand t (some a) k).isNan || (fpOperand t (some b) k).isNan || (fpOperand t (some d) k).isNan
      then (RCtx.full (precFmt (fmtPrec64 t.ctl.fmt)) .rne).nan
      else (RCtx.full (precFmt (fmtPrec64 t.ctl.fmt)) .rne).max (fpOperand t (some a) k)
        ((precFmt (fmtPrec64 t.ctl.fmt)).unpack
          ((RCtx.full (precFmt (fmtPrec64 t.ctl.fmt)) .rne).min (fpOperand t (some d) k) (fpOperand t (some b) k)).1) :=
  ⟨_, rfl⟩

theorem vOut_vrndb (t : Tile) (h : Hdr) (d a : BitVec 5) (tag : BitVec 3) :
    ∃ bypass, vOut t (.vrndb h d a tag) = lanesOf bypass fun k =>
      (RCtx.budget (precFmt (fmtPrec64 t.ctl.fmt)) .rne t.ctl.vbud).val (fpOperand t (some a) k) :=
  ⟨_, rfl⟩

/-- Settles O33: each from what it computes of the lanes of its registers. -/
theorem vectorReductions : Obligations.VectorReductions := by
  intro s h d a b p t n all flag code hs hfree hd ha hb p64 mode c x y z near total dot bad clamp rndb cvt putP every
  have A : ∀ k < 16, fpOperand s.core (some a) k = x k := fun k => fpOperand_some s.core ha
  have B : ∀ k < 16, fpOperand s.core (some b) k = y k := fun k => fpOperand_some s.core hb
  have D : ∀ k < 16, fpOperand s.core (some d) k = z k := fun k => fpOperand_some s.core hd
  have l1 : (if a.toNat ≥ 28 then [(0, a.toNat - 28)] else []) = ([] : List (Nat × Nat)) := if_neg (by omega)
  have l2 : ((if a.toNat ≥ 28 then [(0, a.toNat - 28)] else []) ++ if b.toNat ≥ 28 then [(1, b.toNat - 28)] else []) =
      ([] : List (Nat × Nat)) := by rw [l1, if_neg (by omega), List.append_nil]
  have hevery : ∀ f g : Nat → Bool, (∀ k < 16, f k = g k) →
      (if all then (upTo 16).all f else (upTo 16).any f) = every g := by
    intro f g hfg
    rw [all_upTo_congr hfg, any_upTo_congr hfg]
  refine ⟨vIssues_vred hs hfree hd ha, fun henc => vIssues_vdot hs hfree hd ha hb henc rfl, fun henc => ?_, fun henc => ?_,
    vIssues_vcvt code hs hfree hd ha fun k _ => by rw [laneD_toNat]; rfl, fun henc => ?_, fun henc => ?_⟩
  · obtain ⟨bypass, hout⟩ := vOut_vclamp s.core h d a b t
    exact vIssues_clamping hs hfree rfl henc hd rfl rfl rfl rfl
      (hout.trans (lanesOf_congr fun k hk => by rw [A k hk, B k hk, D k hk]))
  · obtain ⟨bypass, hout⟩ := vOut_vrndb s.core h d a t
    exact vIssues_clamping hs hfree rfl henc hd rfl rfl rfl rfl (hout.trans (lanesOf_congr fun k hk => by rw [A k hk]))
  · refine vIssues_decider hs hfree rfl henc rfl l1 rfl rfl (fun _ => ?_) rfl
    rw [← hevery (fun k => laneTest (.vsgn h p all flag a t) (fpOperand s.core (some a) k) (fpOperand s.core none k))]
    · rfl
    · intro k hk
      rw [A k hk]
      show (if (x k).isNan then false else _) = _
      cases (x k).isNan <;> rfl
  · refine vIssues_decider hs hfree rfl henc rfl l2 rfl rfl (fun _ => ?_) rfl
    rw [← hevery (fun k => laneTest (.vthr h p all flag a b t) (fpOperand s.core (some a) k) (fpOperand s.core (some b) k))]
    · rfl
    · intro k hk
      rw [A k hk, B k hk]
      cases flag <;> rfl

end Sys2Proof.Machine
end

section
/-! SUPPORT. Digit links (R152, R183, R186, R187, R266 to R272): producers, consumers, deciders and the cancellation of a producer; and
the statement about them. -/

namespace Sys2Proof.Machine

/-! Issue of an operation that feeds or claims a link. -/

/-- A V instruction whose checks pass issues: its operation is in progress and the links are as its effect leaves them. -/
theorem v_issues_of_effect {i : Instr} {h : Hdr} {s : State} {tag : BitVec 3} {t : Tile} (hs : s.Ready h.guard)
    (hfree : s.core.tagFree tag = true) (he : exec i s = runSlot i h (semV i tag) s) (henc : vEncOk s.core.ctl.fmt i = true)
    (hdest : ∀ n, vDestLink i = some n → s.core.link n = none)
    (hsrc : ∀ x ∈ linkOperands i, linkUsable s.core (fmtPrec64 s.core.ctl.fmt) x.2 = true)
    (ht : (semV i tag (s.core.slotInfo i 0)).eff s.core s.core = t) (hc : t.sch.closing = []) (hst : t.sch.status = .running)
    (hr : t.recs = []) :
    ∃ u, exec i s = .next u ∧ u.core.sch.vops = t.sch.vops ∧ u.core.sch.links = t.sch.links ∧ u.core.files = t.files := by
  have hi := issues_of_effect _ hs he ht henc (semV_check hfree hdest hsrc) hc hst hr
  have hbump : t.bump.sch.closing = [] := hc
  refine ⟨_, hi, ?_⟩
  rw [State.after_core, Tile.close_eq _ hbump]
  exact ⟨rfl, rfl, rfl⟩

section
variable (t : Tile) (tag : BitVec 3) (srcs : List Nat) (o : VOp)

theorem Tile.started_closing : (t.started tag srcs o).sch.closing = t.sch.closing := by
  unfold Tile.started Tile.allocTag; split <;> rfl
theorem Tile.started_status : (t.started tag srcs o).sch.status = t.sch.status := by
  unfold Tile.started Tile.allocTag; split <;> rfl
theorem Tile.started_recs : (t.started tag srcs o).recs = t.recs := by
  unfold Tile.started Tile.allocTag; split <;> rfl
theorem Tile.started_vops : (t.started tag srcs o).sch.vops = t.sch.vops ++ [o] := by
  unfold Tile.started Tile.allocTag; split <;> rfl
theorem Tile.started_links : (t.started tag srcs o).sch.links = (t.sch.claim t.sch.seq srcs).links := by
  unfold Tile.started Tile.allocTag; split <;> rfl
theorem Tile.started_files : (t.started tag srcs o).files = t.files := by
  unfold Tile.started Tile.allocTag; split <;> rfl

end

/-- A V instruction whose destination names a dead link feeds it (R266). -/
theorem v_feeds {i : Instr} {h : Hdr} {s : State} {tag : BitVec 3} {n : Nat} (hs : s.Ready h.guard)
    (hfree : s.core.tagFree tag = true) (he : exec i s = runSlot i h (semV i tag) s) (henc : vEncOk s.core.ctl.fmt i = true)
    (hdest : vDestLink i = some n) (hn : n < 4) (hdead : s.core.link n = none) (hsrc : linkOperands i = []) :
    ∃ u v, exec i s = .next u ∧ u.core.sch.vops = s.core.sch.vops ++ [vOp s.core i tag (s.core.slotInfo i 0)] ∧
      u.core.link n = some (vFed s.core i v) ∧ u.core.files = s.core.files := by
  have hs0 : vSrcs i = [] := by rw [vSrcs, hsrc]; rfl
  obtain ⟨v, hv⟩ : ∃ v, v = s.core.started tag (vSrcs i) (vOp s.core i tag (s.core.slotInfo i 0)) := ⟨_, rfl⟩
  have ht : (semV i tag (s.core.slotInfo i 0)).eff s.core s.core = v.feed n (vFed s.core i v) := by
    rw [semV_eff, hdest, hv]
  have hclosing : v.sch.closing = [] := hv ▸ (Tile.started_closing ..).trans hs.between.noClosing
  have hstatus : v.sch.status = .running := hv ▸ (Tile.started_status ..).trans hs.between.running
  have hrecs : v.recs = [] := hv ▸ (Tile.started_recs ..).trans hs.between.noReports
  have hvo : v.sch.vops = s.core.sch.vops ++ [vOp s.core i tag (s.core.slotInfo i 0)] := hv ▸ Tile.started_vops ..
  have hfi : v.files = s.core.files := hv ▸ Tile.started_files ..
  obtain ⟨u, hexec, hvops, hlinks, hfiles⟩ := v_issues_of_effect hs hfree he henc
    (by rintro m hm; rw [hdest] at hm; exact Option.some.inj hm ▸ hdead) (by simp [hsrc]) ht hclosing hstatus hrecs
  refine ⟨u, v, hexec, hvops.trans hvo, ?_, hfiles.trans hfi⟩
  rw [Tile.link, hlinks]
  simp only [Tile.feed]
  rw [Vector.getElem?_setIfInBounds_self_of_lt hn, Option.getD_some]

/-- A V instruction that names one live link claims it (R266, R267). -/
theorem v_claims {i : Instr} {h : Hdr} {s : State} {tag : BitVec 3} {p n : Nat} {k : Link} (hs : s.Ready h.guard)
    (hfree : s.core.tagFree tag = true) (he : exec i s = runSlot i h (semV i tag) s) (henc : vEncOk s.core.ctl.fmt i = true)
    (hdest : vDestLink i = none) (hn : n < 4) (hsrc : linkOperands i = [(p, n)]) (hk : s.core.link n = some k)
    (hfreek : k.consumer = none) (hprec : k.prec64 = fmtPrec64 s.core.ctl.fmt) :
    ∃ u, exec i s = .next u ∧ u.core.sch.vops = s.core.sch.vops ++ [vOp s.core i tag (s.core.slotInfo i 0)] ∧
      (vOp s.core i tag (s.core.slotInfo i 0)).srcs = [n] ∧ (vOp s.core i tag (s.core.slotInfo i 0)).dest = none ∧
      u.core.link n = some { k with consumer := some s.core.sch.seq } ∧ u.core.files = s.core.files := by
  have hs1 : vSrcs i = [n] := by rw [vSrcs, hsrc]; rfl
  have husable : linkUsable s.core (fmtPrec64 s.core.ctl.fmt) n = true := by
    rw [linkUsable, hk]
    simp [hfreek, hprec]
  obtain ⟨u, hexec, hvops, hlinks, hfiles⟩ := v_issues_of_effect hs hfree he henc (by simp [hdest])
    (by simpa [hsrc] using husable)
    ((semV_eff _ _ _ _).trans (by rw [hdest])) ((Tile.started_closing ..).trans hs.between.noClosing)
    ((Tile.started_status ..).trans hs.between.running) ((Tile.started_recs ..).trans hs.between.noReports)
  refine ⟨u, hexec, hvops.trans (Tile.started_vops ..), hs1, hdest, ?_, hfiles.trans (Tile.started_files ..)⟩
  rw [Tile.link, hlinks, Tile.started_links, hs1, Sched.claim]
  unfold Tile.link at hk
  simp only [List.foldl_cons, List.foldl_nil, hk]
  rw [Vector.getElem?_setIfInBounds_self_of_lt hn]
  rfl

/-! The completion of an operation on one link or none. -/

theorem vDue_of_registers {t : Tile} {i : Instr} (hsrc : linkOperands i = []) : vDue t i = t.sch.cycle + vLat t i := by
  have hs0 : vSrcs i = [] := by rw [vSrcs, hsrc]; rfl
  have hw : vWindow t i = none := if_neg (by rw [hs0]; simp)
  simp only [vDue, hw, hs0, List.filterMap_nil, List.foldl_nil]

theorem vWindow_of_not_decider {t : Tile} {i : Instr} (hk : (vKind i == .decide) = false) : vWindow t i = none :=
  if_neg fun h => by simp [h.1] at hk

/-- A consumer completes no earlier than its link's producer and its chain increment (R152). -/
theorem vDue_of_link {t : Tile} {i : Instr} {p n : Nat} {k : Link} (hd : (vKind i == .decide) = false)
    (hsrc : linkOperands i = [(p, n)]) (hk : t.link n = some k) :
    vDue t i = max (t.sch.cycle + vLat t i) (k.done + (vKind i).chain) := by
  have hs1 : vSrcs i = [n] := by rw [vSrcs, hsrc]; rfl
  simp only [vDue, vWindow_of_not_decider hd, hs1, List.filterMap_cons, hk, List.filterMap_nil, List.foldl_cons, List.foldl_nil]

/-- What an instruction of Table 12-1 puts in progress: the flags of its lanes, and its latency less what its budget saves. -/
theorem vOp_arith {t : Tile} {i : Instr} {f : Nat → Nat × Flags5} {short long : Nat} (ha : isArith i = true)
    (hfp : vIsFp i = true) (hsource : wideSource i t.ctl.fmt = fmtPrec64 t.ctl.fmt)
    (hbud : vBudget i t.ctl.vbud = vFull i t.ctl.vbud) (hreg : ∀ c ∈ vCodes i, Sampled t c)
    (hlat : ∀ p64, (vKind i).latency p64 = if p64 then long else short)
    (hf : ∀ k < 16, vFpLane i (laneCtx t (vShape i).budgeted ((vCodes i).map fun c => fpOperand t (some c) k))
      (fpOperand t (vShape i).a k) (fpOperand t (vShape i).b k) (fpOperand t (vThird i) k) = f k) :
    vOut t i = lanesOf (anySpecialIn t (vCodes i)) f ∧
      vLat t i = (if fmtPrec64 t.ctl.fmt then long else short) - savedOf t (vShape i).budgeted (vCodes i) ∧
      (if vIsFp i || vKind i == .cvt then (vOut t i).flags else 0#5) = laneFlags fun k => (f k).2 := by
  have hout : vOut t i = lanesOf (anySpecialIn t (vCodes i)) f :=
    (vOut_arith t ha hsource hbud hreg).trans (lanesOf_congr hf)
  refine ⟨hout, ?_, ?_⟩
  · rw [vLat, hout, ← vLatency_saved t _ _ _ hlat]
    rfl
  · rw [hfp, Bool.true_or, if_pos rfl, hout, lanesOf_flags]

/-- An instruction of Table 12-1 on registers whose destination names a dead link. -/
theorem vFeeds_arith {i : Instr} {h : Hdr} {s : State} {tag : BitVec 3} {f : Nat → Nat × Flags5} {short long n : Nat}
    (hs : s.Ready h.guard) (hfree : s.core.tagFree tag = true) (he : exec i s = runSlot i h (semV i tag) s)
    (henc : vEncOk s.core.ctl.fmt i = true) (hdest : vDestLink i = some n) (hn : n < 4) (hd : (vDest i).toNat ≥ 28)
    (hsrc : linkOperands i = []) (ha : isArith i = true) (hk : (vKind i == .decide) = false) (hfp : vIsFp i = true)
    (hsource : wideSource i s.core.ctl.fmt = fmtPrec64 s.core.ctl.fmt)
    (hbud : vBudget i s.core.ctl.vbud = vFull i s.core.ctl.vbud) (hreg : ∀ c ∈ vCodes i, c.toNat < 28)
    (hlat : ∀ p64, (vKind i).latency p64 = if p64 then long else short)
    (hf : ∀ k < 16, vFpLane i (laneCtx s.core (vShape i).budgeted ((vCodes i).map fun c => fpLane s.core c k))
      (fpOperand s.core (vShape i).a k) (fpOperand s.core (vShape i).b k) (fpOperand s.core (vThird i) k) = f k)
    (hdead : s.core.link n = none) :
    ∃ u o k, exec i s = .next u ∧ u.core.sch.vops = s.core.sch.vops ++ [o] ∧ o.writes = [] ∧ o.dest = some n ∧
      o.srcs = [] ∧ o.decider = none ∧
      o.due = s.core.sch.cycle + ((if fmtPrec64 s.core.ctl.fmt then long else short) -
        saves s.core (vShape i).budgeted (vCodes i)) ∧
      o.flags = laneFlags (fun i => (f i).2) ∧ u.core.link n = some k ∧ k.producer = s.core.sch.seq ∧ k.consumer = none ∧
      k.prec64 = fmtPrec64 s.core.ctl.fmt ∧ k.done = o.due ∧ u.core.files = s.core.files ∧
      ∀ i, i < 16 → (k.value[i]?).getD 0#64 = BitVec.ofNat 64 (f i).1 := by
  have hlanes : ∀ k < 16, (vCodes i).map (fun c => fpOperand s.core (some c) k) = (vCodes i).map fun c => fpLane s.core c k :=
    fun k hk => List.map_congr_left fun c hc => fpOperand_some s.core (hreg c hc) hk
  obtain ⟨hout, hlatency, hflags⟩ := vOp_arith ha hfp hsource hbud (fun c hc => sampled_of_register _ (hreg c hc)) hlat
    fun k hk => by rw [hlanes k hk, hf k hk]
  obtain ⟨u, v, hexec, hvops, hlink, hfiles⟩ := v_feeds hs hfree he henc hdest hn hdead hsrc
  have hw : ∀ wide, vWrites i s.core.ctl.rrb wide (vOut s.core i) = [] := by
    intro wide
    unfold vWrites
    split
    · nomatch hk
    · nomatch hk
    · rw [if_pos hd]
  refine ⟨u, _, _, hexec, hvops, hw _, hdest, by rw [vOp, vSrcs, hsrc]; rfl, vWindow_of_not_decider hk, ?_, hflags, hlink, rfl, rfl,
    rfl, rfl, hfiles, fun k hk => ?_⟩
  · rw [← savedOf_registers _ _ hreg, ← hlatency]
    exact vDue_of_registers hsrc
  · simp only [vFed, hout, lanesOf]
    simp [hk]

/-- An instruction of Table 12-1 that reads one live link. -/
theorem vReads_arith {i : Instr} {h : Hdr} {s : State} {tag : BitVec 3} {f : Nat → Nat × Flags5} {short long p n saved : Nat}
    {k : Link} (hs : s.Ready h.guard) (hfree : s.core.tagFree tag = true) (he : exec i s = runSlot i h (semV i tag) s)
    (henc : vEncOk s.core.ctl.fmt i = true) (hd : (vDest i).toNat < 28) (hn : n < 4) (hsrc : linkOperands i = [(p, n)])
    (hlink : s.core.link n = some k) (hfreek : k.consumer = none) (hprec : k.prec64 = fmtPrec64 s.core.ctl.fmt)
    (ha : isArith i = true) (hk : (vKind i == .decide) = false) (hfp : vIsFp i = true)
    (hsource : wideSource i s.core.ctl.fmt = fmtPrec64 s.core.ctl.fmt)
    (hdest : ∀ w, vDest64 i s.core.ctl.fmt w = fmtPrec64 s.core.ctl.fmt)
    (hbud : vBudget i s.core.ctl.vbud = vFull i s.core.ctl.vbud) (hreg : ∀ c ∈ vCodes i, Sampled s.core c)
    (hlat : ∀ p64, (vKind i).latency p64 = if p64 then long else short)
    (hf : ∀ k < 16, vFpLane i (laneCtx s.core (vShape i).budgeted ((vCodes i).map fun c => fpOperand s.core (some c) k))
      (fpOperand s.core (vShape i).a k) (fpOperand s.core (vShape i).b k) (fpOperand s.core (vThird i) k) = f k)
    (hsaved : savedOf s.core (vShape i).budgeted (vCodes i) = saved) :
    ∃ o, (∃ u, exec i s = .next u ∧ u.core.sch.vops = s.core.sch.vops ++ [o] ∧ o.srcs = [n] ∧ o.dest = none ∧
        u.core.link n = some { k with consumer := some s.core.sch.seq } ∧ u.core.files = s.core.files) ∧
      o.writes = fpWrites s.core (vDest i) (fun k => (f k).1) ∧ o.flags = laneFlags (fun k => (f k).2) ∧ o.decider = none ∧
      o.due = max (s.core.sch.cycle + ((if fmtPrec64 s.core.ctl.fmt then long else short) - saved))
        (k.done + (vKind i).chain) := by
  obtain ⟨hout, hlatency, hflags⟩ := vOp_arith ha hfp hsource hbud hreg hlat hf
  refine ⟨_, v_claims hs hfree he henc (vDestLink_of_lt hd) hn hsrc hlink hfreek hprec, vWrites_fp hd hk (hdest _) hout, hflags,
    vWindow_of_not_decider hk, ?_⟩
  rw [← hsaved, ← hlatency]
  exact vDue_of_link hk hsrc hlink

/-! Deciders on a link. -/

/-- The window of a decider on one link (R271): its full-length bound, exact where a value is special or the link chained. -/
theorem deciderWindow_bounds (i : Instr) (p64 : Bool) (c : Nat) (k : Link) (ops : List (List DWord)) (ex : Vector FVal 16) :
    (deciderWindow i p64 c [k] ops (some ex) none).hi ≤ max (c + if p64 then 4 else 3) (k.done + 1) ∧
      if anySpecial (precFmt p64) (ops.getD 0 []) || k.chained then
        (deciderWindow i p64 c [k] ops (some ex) none).lo = max (c + if p64 then 4 else 3) (k.done + 1) ∧
          (deciderWindow i p64 c [k] ops (some ex) none).hi = max (c + if p64 then 4 else 3) (k.done + 1)
      else (deciderWindow i p64 c [k] ops (some ex) none).lo = c + 2 ∧ c + 2 ≤ (deciderWindow i p64 c [k] ops (some ex) none).hi := by
  have hfull : Nat.max (c + VKind.decide.latency p64) (([k].foldl (fun m l => Nat.max m l.done) 0) + 1) =
      max (c + if p64 then 4 else 3) (k.done + 1) := by
    rw [latency_cases (k := .decide) (short := 3) (long := 4) rfl rfl]
    simp only [List.foldl_cons, List.foldl_nil, Nat.max_def]
    simp
  have hlow : c + 2 ≤ max (c + if p64 then 4 else 3) (k.done + 1) := by
    cases p64 <;> simp
  unfold deciderWindow
  dsimp only
  rw [hfull]
  simp only [Option.isSome_some, Option.isSome_none, Bool.true_and, Bool.false_and, Bool.or_false, List.any_cons, List.any_nil]
  split
  · exact ⟨le_rfl, rfl, rfl⟩
  · split
    · exact ⟨le_rfl, rfl, hlow⟩
    · exact ⟨Nat.min_le_left _ _, rfl, le_min hlow (Nat.le_max_left _ _)⟩

/-- A decider that names one live link (R270, R271). -/
theorem vDecides {i : Instr} {h : Hdr} {s : State} {tag : BitVec 3} {n : Nat} {k : Link} {w : List RegWrite}
    {special : Bool} (hs : s.Ready h.guard) (hfree : s.core.tagFree tag = true) (he : exec i s = runSlot i h (semV i tag) s)
    (henc : vEncOk s.core.ctl.fmt i = true) (hdest : vDestLink i = none) (hn : n < 4) (hsrc : linkOperands i = [(0, n)])
    (hlink : s.core.link n = some k) (hfreek : k.consumer = none) (hprec : k.prec64 = fmtPrec64 s.core.ctl.fmt)
    (hk : vKind i = .decide) (ha : exactOperand s.core (vShape i).a = some k.exact) (hb : exactOperand s.core (vShape i).b = none)
    (hops : anySpecial (precFmt (fmtPrec64 s.core.ctl.fmt)) ((vOps s.core i).getD 0 []) = special)
    (hw : ∀ wide, vWrites i s.core.ctl.rrb (vDest64 i s.core.ctl.fmt wide) (vOut s.core i) = w) (hflags : (vOut s.core i).flags = 0#5) :
    ∃ o e, (∃ u, exec i s = .next u ∧ u.core.sch.vops = s.core.sch.vops ++ [o] ∧ o.srcs = [n] ∧ o.dest = none ∧
        u.core.link n = some { k with consumer := some s.core.sch.seq } ∧ u.core.files = s.core.files) ∧
      o.writes = w ∧ o.flags = 0#5 ∧ o.decider = some e ∧ o.due = e.hi ∧
      e.hi ≤ max (s.core.sch.cycle + if fmtPrec64 s.core.ctl.fmt then 4 else 3) (k.done + 1) ∧
      if special || k.chained then
        e.lo = max (s.core.sch.cycle + if fmtPrec64 s.core.ctl.fmt then 4 else 3) (k.done + 1) ∧
          e.hi = max (s.core.sch.cycle + if fmtPrec64 s.core.ctl.fmt then 4 else 3) (k.done + 1)
      else e.lo = s.core.sch.cycle + 2 ∧ s.core.sch.cycle + 2 ≤ e.hi := by
  have hs1 : vSrcs i = [n] := by rw [vSrcs, hsrc]; rfl
  have hwin : vWindow s.core i = some (deciderWindow i (fmtPrec64 s.core.ctl.fmt) s.core.sch.cycle [k] (vOps s.core i)
      (some k.exact) none) := by
    rw [vWindow, if_pos ⟨hk, by simp [hs1]⟩, ha, hb, hs1]
    simp only [List.filterMap_cons, hlink, List.filterMap_nil]
  have hbounds := deciderWindow_bounds i (fmtPrec64 s.core.ctl.fmt) s.core.sch.cycle k (vOps s.core i) k.exact
  rw [hops] at hbounds
  refine ⟨_, _, v_claims hs hfree he henc hdest hn hsrc hlink hfreek hprec, hw _, ?_, hwin, ?_, hbounds⟩
  · simp only [vOp, hflags, ite_self]
  · simp only [vOp, vDue, hwin]

/-! The completion of a decider, and what it cancels. -/

section
variable (t : Tile) (n : Nat) (st : TagSt)

theorem Tile.setTag_files : (t.setTag n st).files = t.files := by unfold Tile.setTag; split <;> rfl
theorem Tile.setTag_pad : (t.setTag n st).pad = t.pad := by unfold Tile.setTag; split <;> rfl
theorem Tile.setTag_ctl : (t.setTag n st).ctl = t.ctl := by unfold Tile.setTag; split <;> rfl
theorem Tile.setTag_recs : (t.setTag n st).recs = t.recs := by unfold Tile.setTag; split <;> rfl
theorem Tile.setTag_vops : (t.setTag n st).sch.vops = t.sch.vops := by unfold Tile.setTag; split <;> rfl
theorem Tile.setTag_flights : (t.setTag n st).sch.flights = t.sch.flights := by unfold Tile.setTag; split <;> rfl
theorem Tile.setTag_links : (t.setTag n st).sch.links = t.sch.links := by unfold Tile.setTag; split <;> rfl
theorem Tile.setTag_surviving (l : List RegWrite) : (t.setTag n st).surviving l = t.surviving l := by
  unfold Tile.setTag; split <;> rfl
theorem Tile.setTag_isAt (c : Coord) : (t.setTag n st).isAt c = t.isAt c := by unfold Tile.setTag; split <;> rfl

end

theorem Tile.tagSt_setTag_same (t : Tile) {tag : BitVec 3} (st : TagSt) (h : tag ≠ 0#3) :
    (t.setTag tag.toNat st).tagSt tag.toNat = st := by
  have h0 : tag.toNat ≠ 0 := fun e => h (BitVec.eq_of_toNat_eq e)
  rw [Tile.setTag, if_neg h0, Tile.tagSt, Vector.getElem?_setIfInBounds_self_of_lt tag.isLt, Option.getD_some]

/-- A tag that is free stays free when another, or it, becomes free. -/
theorem Tile.tagSt_setTag_free {t : Tile} {k : Nat} (n : Nat) (h : t.tagSt k = .free) : (t.setTag n .free).tagSt k = .free := by
  unfold Tile.setTag
  split
  · exact h
  · by_cases hn : n = k
    · subst hn
      simp only [Tile.tagSt, Vector.getElem?_setIfInBounds]
      simp only [Tile.tagSt] at h
      simp only [if_true]
      split <;> simp
    · simp only [Tile.tagSt, Vector.getElem?_setIfInBounds, if_neg hn]
      exact h

/-- A V operation that raises no flag completes: its registers are written, its links die, its tag is free (R185, R266). -/
theorem Tile.completeV_of_no_flags (t : Tile) {o : VOp} (h : o.flags = 0#5) :
    t.completeV o = ((t.withSch fun s => s.leaveV o).landWrites o.seq o.writes).setTag o.tag.toNat .free := by
  have hctl : ∀ u : Tile, (u.withCtl fun c => c.orFlags 0#5) = u := by
    intro u
    have hor : u.ctl.orFlags 0#5 = u.ctl := by simp [Ctl.orFlags]
    rw [Tile.withCtl, hor]
  rw [Tile.completeV, h]
  simp only [hctl, BitVec.zero_and, bne_self_eq_false, Bool.false_eq_true, if_false]

/-- A link that an operation claims dies when the operation leaves the unit. -/
theorem Sched.leaveV_kills {s : Sched} {o : VOp} {n : Nat} {k : Link} (hn : n < 4) (hk : (s.links[n]?).getD none = some k)
    (hc : k.consumer = some o.seq) (hsrc : n ∈ o.srcs) : ((s.leaveV o).links[n]?).getD none = none := by
  have hmem : n ∈ s.ownSrcs o := by
    rw [Sched.ownSrcs, List.mem_filter]
    exact ⟨hsrc, by simp [hk, hc]⟩
  have hkill : ∀ (l : List Nat) (v : Vector (Option Link) 4), n ∈ l ∨ (v[n]?).getD none = none →
      (((l.foldl (fun v n => v.setIfInBounds n none) v))[n]?).getD none = none := by
    intro l
    induction l with
    | nil => exact fun v h => h.resolve_left (by simp)
    | cons m l ih =>
      intro v h
      refine ih _ ?_
      by_cases hm : m = n
      · subst hm
        right
        rw [Vector.getElem?_setIfInBounds_self_of_lt hn, Option.getD_some]
      · refine h.imp (fun h => ?_) fun h => ?_
        · exact (List.mem_cons.mp h).resolve_left fun e => hm e.symm
        · rwa [Vector.getElem?_setIfInBounds_ne hm]
  exact hkill _ _ (.inl hmem)

/-- A decider whose window is over is the next to decide, where no other operation is a decider. -/
theorem Tile.nextDecider_of_window {t : Tile} {u : List VOp} {o : VOp} {e : Decider} (hv : t.sch.vops = u ++ [o])
    (hu : ∀ x ∈ u, x.decider = none) (he : o.decider = some e) (hdue : e.hi ≤ t.sch.cycle) : t.nextDecider = some o := by
  have hdec : t.deciding = [o] := by
    rw [Tile.deciding, hv, List.filter_append]
    have hnone : u.filter (fun o => match o.decider with
        | some d => d.hi ≤ t.sch.cycle
          || (d.lo ≤ t.sch.cycle && Config.freeBit ((t.who * 2 ^ 64 + t.sch.cycle) * 2 ^ 64 + o.seq))
        | none => false) = [] := List.filter_eq_nil_iff.mpr fun x hx => by simp [hu x hx]
    have hone : [o].filter (fun o => match o.decider with
        | some d => d.hi ≤ t.sch.cycle
          || (d.lo ≤ t.sch.cycle && Config.freeBit ((t.who * 2 ^ 64 + t.sch.cycle) * 2 ^ 64 + o.seq))
        | none => false) = [o] := by simp [he, hdue]
    exact (congrArg₂ (· ++ ·) hnone hone)
  rw [Tile.nextDecider, hdec]
  rfl

theorem Tile.landWrites_isAt (t : Tile) (seq : Nat) (l : List RegWrite) (c : Coord) :
    (t.landWrites seq l).isAt c = t.isAt c := rfl

/-- V_DECIDE of the decider that is next to decide. -/
theorem becomes_vDecide {s : State} {c : Coord} {t : Tile} {o : VOp} {v : Tile} (h : s.tileAt c = some t) (hl : t.Live)
    (hnext : t.nextDecider = some o) (hv : t.decideV o t.sch.cycle = v) (hat : v.isAt c = true) (hr : v.recs = []) :
    Becomes (.vDecide c) s c v := by
  have hf : (fun t : Tile => if t.frozen then t else match t.nextDecider with
      | some o => t.decideV o t.sch.cycle
      | none => t) t = v := by
    simp only [hl.moving, Bool.false_eq_true, if_false, hnext, hv]
  rw [← hf] at hat hr ⊢
  exact Becomes.onTile (fun t : Tile => if t.frozen then t else match t.nextDecider with
      | some o => t.decideV o t.sch.cycle
      | none => t) h rfl hat hr

/-- Whether an operation is a producer of one of some links, to complete after a cycle. -/
def isUpstream (s : Sched) (e : Nat) (l : List Nat) (o : VOp) : Bool :=
  match o.dest with
  | some n => l.elem n && decide (e < o.due) && (match (s.links[n]?).getD none with
    | some k => k.producer == o.seq
    | none => false)
  | none => false

theorem upstreamAfter_succ (s : Sched) (e fuel : Nat) (l : List Nat) :
    upstreamAfter s e (fuel + 1) l = s.vops.filter (isUpstream s e l) ++
      (s.vops.filter (isUpstream s e l)).flatMap fun o => upstreamAfter s e fuel (s.ownSrcs o) := rfl

theorem upstreamAfter_nil (s : Sched) (e fuel : Nat) : upstreamAfter s e fuel [] = [] := by
  cases fuel with
  | zero => rfl
  | succ fuel =>
    have hno : s.vops.filter (isUpstream s e []) = [] := List.filter_eq_nil_iff.mpr fun o _ => by
      unfold isUpstream
      cases o.dest <;> simp
    rw [upstreamAfter_succ, hno]
    rfl

/-- A decider on a producer that is not complete cancels it (R187, R272). -/
theorem decider_cancels {t : Tile} {u o : VOp} {n : Nat} {k : Link} (hv : t.sch.vops = [u, o]) (hseq : u.seq < o.seq)
    (hu : u.dest = some n) (husrc : u.srcs = []) (hdue : t.sch.cycle < u.due) (hsrc : o.srcs = [n])
    (hk : t.link n = some k) (hp : k.producer = u.seq) (hc : k.consumer = some o.seq) :
    t.decideV o t.sch.cycle = ((t.withSch fun s => s.leaveV u).setTag u.tag.toNat .free).completeV o := by
  unfold Tile.link at hk
  have hown : t.sch.ownSrcs o = [n] := by simp [Sched.ownSrcs, hsrc, hk, hc]
  have hself : t.sch.ownSrcs u = [] := by rw [Sched.ownSrcs, husrc]; rfl
  have hyes : isUpstream t.sch t.sch.cycle [n] u = true := by simp [isUpstream, hu, hdue, hk, hp]
  have hno : isUpstream t.sch t.sch.cycle [n] o = false := by
    unfold isUpstream
    cases o.dest with
    | none => rfl
    | some m =>
      by_cases hm : m = n
      · subst hm
        have hne : (k.producer == o.seq) = false := by
          rw [hp]
          exact beq_eq_false_iff_ne.mpr (by omega)
        simp [hk, hne]
      · simp [hm]
  have hfilter : t.sch.vops.filter (isUpstream t.sch t.sch.cycle [n]) = [u] := by
    rw [hv, List.filter_cons_of_pos hyes, List.filter_cons_of_neg (by rw [hno]; decide), List.filter_nil]
  have hups : upstreamAfter t.sch t.sch.cycle 4 (t.sch.ownSrcs o) = [u] := by
    rw [hown, upstreamAfter_succ, hfilter, List.flatMap_singleton, hself, upstreamAfter_nil, List.append_nil]
  rw [Tile.decideV, hups]
  rfl

/-- A decider decides and cancels its producer: registers, links, tags and the rest (R271, R272). -/
theorem vDecide_cancels {s : State} {c : Coord} {t : Tile} {u o : VOp} {e : Decider} {n : Nat} {k : Link}
    (h : s.tileAt c = some t) (hl : t.Live) (hv : t.sch.vops = [u, o]) (hseq : u.seq < o.seq) (hu : u.dest = some n)
    (hud : u.decider = none) (husrc : u.srcs = []) (hdue : t.sch.cycle < u.due) (he : o.decider = some e)
    (hwin : e.hi ≤ t.sch.cycle) (hsrc : o.srcs = [n]) (hf : o.flags = 0#5) (hn : n < 4) (hk : t.link n = some k)
    (hp : k.producer = u.seq) (hc : k.consumer = some o.seq) :
    ∃ v, Becomes (.vDecide c) s c v ∧ v.files = t.files.putAll (t.surviving o.writes) ∧ v.sch.vops = [] ∧ v.link n = none ∧
      v.ctl = t.ctl ∧ v.pad = t.pad ∧ (u.tag ≠ 0#3 → v.tagSt u.tag.toNat = .free) ∧
      (o.tag ≠ 0#3 → v.tagSt o.tag.toNat = .free) := by
  obtain ⟨w, hw⟩ : ∃ w, w = (t.withSch fun s => s.leaveV u).setTag u.tag.toNat .free := ⟨_, rfl⟩
  have hdecide := decider_cancels hv hseq hu husrc hdue hsrc hk hp hc
  rw [← hw, Tile.completeV_of_no_flags _ hf] at hdecide
  have hwlinks : w.sch.links = t.sch.links := by
    rw [hw, Tile.setTag_links]
    have hself : t.sch.ownSrcs u = [] := by rw [Sched.ownSrcs, husrc]; rfl
    simp only [Tile.withSch, Sched.leaveV, hself, Sched.killLinks, List.foldl_nil]
  have hwvops : w.sch.vops = [o] := by
    rw [hw, Tile.setTag_vops]
    have hne : (o.seq != u.seq) = true := bne_iff_ne.mpr (by omega)
    simp [Tile.withSch, Sched.leaveV, Sched.killLinks, hv, hne]
  have hwk : (w.sch.links[n]?).getD none = some k := by
    rw [hwlinks]
    exact hk
  refine ⟨_, becomes_vDecide h hl (Tile.nextDecider_of_window (u := [u]) hv (by simpa using hud) he hwin) hdecide ?_ ?_, ?_, ?_, ?_,
    ?_, ?_, fun htag => Tile.tagSt_setTag_free _ ?_, Tile.tagSt_setTag_same _ _⟩
  · rw [Tile.setTag_isAt, Tile.landWrites_isAt, hw]
    have hat : t.isAt c = true := State.tileAt_isAt h
    exact (Tile.setTag_isAt _ _ _ c).trans hat
  · rw [Tile.setTag_recs, hw]
    exact (Tile.setTag_recs ..).trans hl.noReports
  · rw [Tile.setTag_files, hw]
    have hfiles : ((t.withSch fun s => s.leaveV u).setTag u.tag.toNat .free).files = t.files := Tile.setTag_files ..
    have hsurv : ((t.withSch fun s => s.leaveV u).setTag u.tag.toNat .free).surviving o.writes = t.surviving o.writes :=
      Tile.setTag_surviving ..
    rw [← hfiles, ← hsurv]
    rfl
  · rw [Tile.setTag_vops]
    simp [Tile.landWrites, Tile.withSch, Sched.leaveV, Sched.killLinks, hwvops]
  · rw [Tile.link, Tile.setTag_links]
    exact Sched.leaveV_kills hn hwk hc (by simp [hsrc])
  · rw [Tile.setTag_ctl, hw]
    exact Tile.setTag_ctl ..
  · rw [Tile.setTag_pad, hw]
    exact Tile.setTag_pad ..
  · rw [hw]
    exact Tile.tagSt_setTag_same _ _ htag

/-! The statement. -/

theorem link_code (l : Fin 4) : (BitVec.ofNat 5 (28 + l.val)).toNat = 28 + l.val := by
  rw [BitVec.toNat_ofNat]
  omega

section
variable {s : State} {l : Fin 4} {k : Link}

theorem laneOperand_link (wide : Bool) (hk : s.core.link l.val = some k) :
    laneOperand s.core wide (BitVec.ofNat 5 (28 + l.val)) = k.value.toList := by
  rw [laneOperand, link_code, if_pos (by omega), Nat.add_sub_cancel_left, hk]

theorem sampled_link (hk : s.core.link l.val = some k) : Sampled s.core (BitVec.ofNat 5 (28 + l.val)) := by
  rw [Sampled, laneOperand_link _ hk, Vector.length_toList]

theorem ln_link (k : Link) (i : Nat) : ln k.value.toList i = ((k.value[i]?).getD 0#64).toNat := by
  rw [ln, List.getD_eq_getElem?_getD, Vector.getElem?_toList]

theorem fpOperand_link (hk : s.core.link l.val = some k) (i : Nat) :
    fpOperand s.core (some (BitVec.ofNat 5 (28 + l.val))) i =
      (precFmt (fmtPrec64 s.core.ctl.fmt)).unpack ((k.value[i]?).getD 0#64).toNat := by
  rw [fpOperand, vOperand, laneOperand_link _ hk, ln_link]

theorem exactOperand_link (hk : s.core.link l.val = some k) :
    exactOperand s.core (some (BitVec.ofNat 5 (28 + l.val))) = some k.exact := by
  rw [exactOperand, Option.bind_some, link_code, if_pos (by omega), Nat.add_sub_cancel_left, hk]
  rfl

theorem exactOperand_register {b : BitVec 5} (hb : b.toNat < 28) : exactOperand s.core (some b) = none := by
  rw [exactOperand, Option.bind_some, if_neg (by omega)]

theorem highWord_eq (x : DWord) : x.extractLsb' 32 32 = (x >>> 32).setWidth 32 := by
  refine BitVec.eq_of_toNat_eq ?_
  simp [BitVec.extractLsb'_toNat, BitVec.toNat_ushiftRight]

end

/-- VMOV of a link: the values of its lanes (R275). -/
theorem vmov_link {s : State} {h : Hdr} {l : Fin 4} {k : Link} {d : BitVec 5} {t : BitVec 3} (hs : s.Ready h.guard)
    (hfree : s.core.tagFree t = true) (hd : d.toNat < 28) (hk : s.core.link l.val = some k) (hfreek : k.consumer = none)
    (hprec : k.prec64 = fmtPrec64 s.core.ctl.fmt)
    (henc : vEncOk s.core.ctl.fmt (.vmov h d (BitVec.ofNat 5 (28 + l.val)) t) = true) :
    ∃ o, (∃ u, exec (.vmov h d (BitVec.ofNat 5 (28 + l.val)) t) s = .next u ∧ u.core.sch.vops = s.core.sch.vops ++ [o] ∧
        o.srcs = [l.val] ∧ o.dest = none ∧ u.core.link l.val = some { k with consumer := some s.core.sch.seq } ∧
        u.core.files = s.core.files) ∧
      o.decider = none ∧ o.due = max (s.core.sch.cycle + 2) (k.done + 1) ∧
      o.writes = .v (rotV s.core.ctl.rrb d.toNat) (k.value.map fun x => x.setWidth 32) ::
        if fmtPrec64 s.core.ctl.fmt then
          [.v (rotV s.core.ctl.rrb (d.toNat + 1)) (k.value.map fun x : DWord => (x >>> 32).setWidth 32)] else [] := by
  obtain ⟨i, hi⟩ : ∃ i, i = Instr.vmov h d (BitVec.ofNat 5 (28 + l.val)) t := ⟨_, rfl⟩
  have hsrc : linkOperands i = [(0, l.val)] := by
    rw [hi]
    simp only [linkOperands, link_code]
    rw [if_pos (by omega), Nat.add_sub_cancel_left]
  have hkind : vKind i = .move := hi ▸ rfl
  have hdest : (vDest i).toNat < 28 := hi ▸ hd
  have hfull : vFull i s.core.ctl.vbud = 28 := hi ▸ rfl
  have hlanes : (vOut s.core i).lanes = k.value := by
    have hout : vOut s.core i = plainLanes fun j => ln k.value.toList j := by
      rw [← laneOperand_link false hk, hi]
      rfl
    rw [hout]
    refine Vector.ext fun j hj => ?_
    simp only [plainLanes, lanesOf, Vector.getElem_ofFn, ln_link, Vector.getElem?_eq_getElem hj, Option.getD_some, BitVec.ofNat_toNat,
      BitVec.setWidth_eq]
  have hwide : vDest64 i s.core.ctl.fmt (fmtPrec64 s.core.ctl.fmt && (linkOperands i).any (·.1 == 0)) =
      fmtPrec64 s.core.ctl.fmt := by
    rw [hsrc, hi]
    exact Bool.and_true _
  have hnd : (vKind i == .decide) = false := by rw [hkind]; rfl
  rw [← hi] at henc ⊢
  refine ⟨_, v_claims hs hfree (hi ▸ rfl) henc (vDestLink_of_lt hdest) l.isLt hsrc hk hfreek hprec, vWindow_of_not_decider hnd, ?_, ?_⟩
  · have hdue := vDue_of_link hnd hsrc hk
    rw [vLat, hfull, vLatency_full, hkind] at hdue
    exact hdue
  · have hw := vWrites_of_dest (i := i) hdest (by rw [hi]; intros; exact Instr.noConfusion)
      (by rw [hi]; intros; exact Instr.noConfusion) s.core.ctl.rrb (fmtPrec64 s.core.ctl.fmt) (vOut s.core i)
    have hhigh : highWords k.value = k.value.map fun x : DWord => (x >>> 32).setWidth 32 := by
      simp only [highWords, highWord_eq]
    rw [hlanes, hhigh] at hw
    have hd' : vDest i = d := hi ▸ rfl
    rw [hd'] at hw
    simp only [vOp, hwide, hw]
    rfl

/-- Settles O34: producers and consumers by what they compute of their lanes, deciders by the bounds of their window, the
cancellation by what is upstream of the decider. -/
theorem digitLinks : Obligations.DigitLinks := by
  refine ⟨?_, ?_, ?_⟩
  · intro s h l a b t n hs hfree ha hb henc p64 code x y c1 c2 feeds
    have h1 : ∀ c ∈ [a], c.toNat < 28 := by simpa using ha
    have h2 : ∀ c ∈ [a, b], c.toNat < 28 := by simpa using ⟨ha, hb⟩
    have l1 : (if a.toNat ≥ 28 then [(0, a.toNat - 28)] else []) = ([] : List (Nat × Nat)) := if_neg (by omega)
    have l2 : ((if a.toNat ≥ 28 then [(0, a.toNat - 28)] else []) ++ if b.toNat ≥ 28 then [(1, b.toNat - 28)] else []) =
        ([] : List (Nat × Nat)) := by rw [l1, if_neg (by omega), List.append_nil]
    have A : ∀ k < 16, fpOperand s.core (some a) k = x k := fun k => fpOperand_some s.core ha
    have B : ∀ k < 16, fpOperand s.core (some b) k = y k := fun k => fpOperand_some s.core hb
    have hc : code.toNat = 28 + l.val := link_code l
    have hge : code.toNat ≥ 28 := by omega
    have hdest : (if code.toNat ≥ 28 then some (code.toNat - 28) else none) = some l.val := by
      rw [if_pos hge, hc, Nat.add_sub_cancel_left]
    have henc2 : vEncOk s.core.ctl.fmt (.vadd h code a b t n) = true := by
      unfold vEncOk at henc ⊢
      simp only [fp64Codes, List.all_cons, Bool.or_eq_true, Bool.and_eq_true] at henc ⊢
      exact henc.imp id fun hall => ⟨.inl (decide_eq_true hge), hall.2⟩
    have henc1 : vEncOk s.core.ctl.fmt (.vabs h code a t n) = true := vEncOk_of_subset henc2 (by simp [fp64Codes])
    refine ⟨?_, ?_, ?_, ?_, ?_, ?_, ?_, ?_, ?_, ?_, ?_, ?_⟩
    · exact vFeeds_arith hs hfree rfl henc2 hdest l.isLt hge l2 rfl rfl rfl rfl rfl h2 (latency_cases rfl rfl)
        fun k hk => congrArg₂ (c2 k).add (A k hk) (B k hk)
    · exact vFeeds_arith hs hfree rfl henc2 hdest l.isLt hge l2 rfl rfl rfl rfl rfl h2 (latency_cases rfl rfl)
        fun k hk => congrArg₂ (c2 k).add (A k hk) (congrArg FVal.flip (B k hk))
    · exact vFeeds_arith hs hfree rfl henc2 hdest l.isLt hge l2 rfl rfl rfl rfl rfl h2 (latency_cases rfl rfl)
        fun k hk => congrArg₂ (c2 k).mul (A k hk) (B k hk)
    · exact vFeeds_arith hs hfree rfl henc2 hdest l.isLt hge l2 rfl rfl rfl rfl rfl h2 (latency_cases rfl rfl)
        fun k hk => congrArg₂ (c2 k).div (A k hk) (B k hk)
    · exact vFeeds_arith hs hfree rfl henc2 hdest l.isLt hge l2 rfl rfl rfl rfl rfl h2 (latency_cases rfl rfl)
        fun k hk => congrArg₂ (c2 k).min (A k hk) (B k hk)
    · exact vFeeds_arith hs hfree rfl henc2 hdest l.isLt hge l2 rfl rfl rfl rfl rfl h2 (latency_cases rfl rfl)
        fun k hk => congrArg₂ (c2 k).max (A k hk) (B k hk)
    · exact vFeeds_arith hs hfree rfl henc2 hdest l.isLt hge l2 rfl rfl rfl rfl rfl h2 (latency_cases rfl rfl)
        fun k hk => congrArg₂ (c2 k).maxa (A k hk) (B k hk)
    · exact vFeeds_arith hs hfree rfl henc1 hdest l.isLt hge l1 rfl rfl rfl rfl rfl h1 (latency_cases rfl rfl)
        fun k hk => congrArg (c1 k).sqrt (A k hk)
    · exact vFeeds_arith hs hfree rfl henc1 hdest l.isLt hge l1 rfl rfl rfl rfl rfl h1 (latency_cases rfl rfl)
        fun k hk => congrArg (c1 k).rsqrt (A k hk)
    · exact vFeeds_arith hs hfree rfl henc1 hdest l.isLt hge l1 rfl rfl rfl rfl rfl h1 (latency_cases rfl rfl)
        fun k hk => congrArg (c1 k).rcp (A k hk)
    · exact vFeeds_arith hs hfree rfl henc1 hdest l.isLt hge l1 rfl rfl rfl rfl rfl h1 (latency_cases rfl rfl)
        fun k hk => congrArg (c1 k).val (congrArg (FVal.withSign false) (A k hk))
    · exact vFeeds_arith hs hfree rfl henc1 hdest l.isLt hge l1 rfl rfl rfl rfl rfl h1 (latency_cases rfl rfl)
        fun k hk => congrArg (c1 k).val (congrArg FVal.flip (A k hk))
  · intro s h l k d b p cond t n all flag hs hfree hd hb p64 code c x y c1 c2 digits saved claims reads decides every mask hk hfreek
      hprec henc
    have hcode : code.toNat = 28 + l.val := link_code l
    have A : ∀ i < 16, fpOperand s.core (some code) i = x i := fun i _ => fpOperand_link hk i
    have B : ∀ i < 16, fpOperand s.core (some b) i = y i := fun i => fpOperand_some s.core hb
    have h1 : ∀ c ∈ [code], Sampled s.core c := by simpa using sampled_link hk
    have h2 : ∀ c ∈ [code, b], Sampled s.core c := by simpa using ⟨sampled_link hk, sampled_of_register _ hb⟩
    have l1 : (if code.toNat ≥ 28 then [(0, code.toNat - 28)] else []) = [(0, l.val)] := by
      rw [if_pos (by omega), hcode, Nat.add_sub_cancel_left]
    have l2 : ((if code.toNat ≥ 28 then [(0, code.toNat - 28)] else []) ++ if b.toNat ≥ 28 then [(1, b.toNat - 28)] else []) =
        [(0, l.val)] := by rw [l1, if_neg (by omega), List.append_nil]
    have henc1 : vEncOk s.core.ctl.fmt (.vneg h d code t n) = true := vEncOk_of_subset henc (by simp [fp64Codes])
    have hsp1 : anySpecialIn s.core [code] = (upTo 16).any fun i => (x i).special :=
      any_upTo_congr fun i hi => by rw [List.any_cons, A i hi, List.any_nil, Bool.or_false]
    have s1 : savedOf s.core n [code] = saved false := by
      have hsp : anySpecialIn s.core [code] = (upTo 16).any fun i => (x i).special || (false && (y i).special) := by
        rw [hsp1]
        exact any_upTo_congr fun i _ => by rw [Bool.false_and, Bool.or_false]
      rw [savedOf, hsp]
      rfl
    have s2 : savedOf s.core n [code, b] = saved true := by
      have hsp : anySpecialIn s.core [code, b] = (upTo 16).any fun i => (x i).special || (true && (y i).special) :=
        any_upTo_congr fun i hi => by rw [List.any_cons, A i hi, List.any_cons, B i hi, List.any_nil, Bool.or_false, Bool.true_and]
      rw [savedOf, hsp]
      rfl
    have hops : anySpecial (precFmt p64) (laneOperand s.core p64 code) = (upTo 16).any fun i => (x i).special := by
      refine (anySpecial_vOperand s.core (o := some code) (by simpa using sampled_link hk)).trans ?_
      exact any_upTo_congr fun i hi => by rw [Option.toList_some, List.any_cons, A i hi, List.any_nil, Bool.or_false]
    have hevery : ∀ f g : Nat → Bool, (∀ k < 16, f k = g k) →
        (if all then (upTo 16).all f else (upTo 16).any f) = every g := by
      intro f g hfg
      rw [all_upTo_congr hfg, any_upTo_congr hfg]
    refine ⟨vmov_link hs hfree hd hk hfreek hprec ?_, ?_, ?_, ?_, ?_, ?_, ?_, ?_, ?_, ?_⟩
    · refine vEncOk_of_subset henc ?_
      rw [show fp64Codes (.vmov h d code t) = [d] from if_pos (by omega)]
      simp [fp64Codes]
    · exact vReads_arith hs hfree rfl henc hd l.isLt l2 hk hfreek hprec rfl rfl rfl rfl (fun _ => rfl) rfl h2 (latency_cases rfl rfl)
        (fun i hi => congrArg₂ (fun u v => (laneCtx s.core n [u, v]).add u v) (A i hi) (B i hi)) s2
    · exact vReads_arith hs hfree rfl henc hd l.isLt l2 hk hfreek hprec rfl rfl rfl rfl (fun _ => rfl) rfl h2 (latency_cases rfl rfl)
        (fun i hi => congrArg₂ (fun u v : FVal => (laneCtx s.core n [u, v]).add u v.flip) (A i hi) (B i hi)) s2
    · exact vReads_arith hs hfree rfl henc hd l.isLt l2 hk hfreek hprec rfl rfl rfl rfl (fun _ => rfl) rfl h2 (latency_cases rfl rfl)
        (fun i hi => congrArg₂ (fun u v => (laneCtx s.core n [u, v]).mul u v) (A i hi) (B i hi)) s2
    · exact vReads_arith hs hfree rfl henc hd l.isLt l2 hk hfreek hprec rfl rfl rfl rfl (fun _ => rfl) rfl h2 (latency_cases rfl rfl)
        (fun i hi => congrArg₂ (fun u v => (laneCtx s.core n [u, v]).div u v) (A i hi) (B i hi)) s2
    · exact vReads_arith hs hfree rfl henc1 hd l.isLt l1 hk hfreek hprec rfl rfl rfl rfl (fun _ => rfl) rfl h1 (latency_cases rfl rfl)
        (fun i hi => congrArg (fun u => (laneCtx s.core n [u]).sqrt u) (A i hi)) s1
    · exact vReads_arith hs hfree rfl henc1 hd l.isLt l1 hk hfreek hprec rfl rfl rfl rfl (fun _ => rfl) rfl h1 (latency_cases rfl rfl)
        (fun i hi => congrArg (fun u : FVal => (laneCtx s.core n [u]).val u.flip) (A i hi)) s1
    · obtain ⟨hw, hflags⟩ := vcmp_writes (t := s.core) (h := h) (a := code) (b := b) (c := cond) hd fun i hi => by rw [A i hi, B i hi]
      exact vDecides hs (tagFree_zero _) rfl (vEncOk_of_subset henc (by simp [fp64Codes])) (vDestLink_of_lt hd) l.isLt l2 hk
        hfreek hprec rfl (exactOperand_link hk) (exactOperand_register hb) hops (fun _ => hw) hflags
    · refine vDecides hs hfree rfl (vEncOk_of_subset henc (by simp [fp64Codes])) rfl l.isLt l1 hk hfreek hprec rfl
        (exactOperand_link hk) rfl hops (fun _ => ?_) rfl
      rw [← hevery (fun i => laneTest (.vsgn h p all flag code t) (fpOperand s.core (some code) i) (fpOperand s.core none i))]
      · rfl
      · intro i hi
        rw [A i hi]
        show (if (x i).isNan then false else _) = _
        cases (x i).isNan <;> rfl
    · refine vDecides hs hfree rfl (vEncOk_of_subset henc (by simp [fp64Codes])) rfl l.isLt l2 hk hfreek hprec rfl
        (exactOperand_link hk) (exactOperand_register hb) hops (fun _ => ?_) rfl
      rw [← hevery (fun i => laneTest (.vthr h p all flag code b t) (fpOperand s.core (some code) i) (fpOperand s.core (some b) i))]
      · rfl
      · intro i hi
        rw [A i hi, B i hi]
        cases flag <;> rfl
  · intro s c t u o e n k hat hl hv hseq hu hud husrc hdue he hwin hsrc hf _ hn hk hp hc
    exact vDecide_cancels hat hl hv hseq hu hud husrc hdue he hwin hsrc hf hn hk hp hc

end Sys2Proof.Machine
end

section
/-! SUPPORT. The issue of engine operations, and the declaration and reset of rings (R279, R280, R285). -/

namespace Sys2Proof.Machine

/-- What an engine operation samples as it issues. -/
def eOp (t : Tile) (i : Instr) (tag : BitVec 3) (ops : VReg × Word × Word) (info : SlotInfo) : EOp :=
  ⟨t.sch.seq, t.sch.cycle, i, tag, t.ctl.fmt, t.ctl.tsh, ops.1, ops.2.1, ops.2.2, t.ctl.hy,
    [t.ctl.rnseed, t.ctl.rnstep, t.ctl.rnstream, t.ctl.rnkeep], info⟩

/-- The checks of R280 pass on an operation that is ready. -/
theorem semE_check {t : Tile} {i : Instr} {tag : BitVec 3} {ops : Tile → VReg × Word × Word} {info : SlotInfo}
    (hfree : t.tagFree tag = true) (h : EReady i t) : (semE i tag ops info).check t = .ok := by
  obtain ⟨hdefd, htwice, hshape, hform, hroom⟩ := h
  refine Check.all_ok_iff.mpr fun c hc => ?_
  simp only [List.mem_cons, List.not_mem_nil, or_false] at hc
  rcases hc with rfl | rfl | rfl | rfl | rfl
  · exact Tile.needTag_free hfree
  · refine need_of_true ?_
    rw [htwice, Bool.not_false, Bool.and_true]
    exact List.all_eq_true.mpr hdefd
  · refine need_of_true (List.all_eq_true.mpr fun x hx => ?_)
    cases x with
    | tile r => exact hshape r hx
    | ring n => rfl
  · exact need_of_true hform
  · rw [waitFor, if_pos (decide_eq_true hroom)]

/-- An engine operation whose checks pass issues with what it samples (R280). -/
theorem eIssues_of_semE {i : Instr} {h : Hdr} {s : State} {tag : BitVec 3} {ops : Tile → VReg × Word × Word} (hs : s.Ready h.guard)
    (hfree : s.core.tagFree tag = true) (he : exec i s = runSlot i h (semE i tag ops) s) (hready : EReady i s.core) :
    EIssues i s tag (ops s.core).1 (ops s.core).2.1 (ops s.core).2.2 :=
  ⟨eOp s.core i tag (ops s.core) (s.core.slotInfo i 0),
    issues_of_effect _ hs he rfl rfl (semE_check hfree hready) (hs.alloc_closing tag) (hs.alloc_status tag) (hs.alloc_recs tag),
    rfl, rfl, rfl, rfl, rfl, rfl, rfl, rfl, rfl, rfl, rfl⟩

/-- The tile in which a ring is as given. -/
def Tile.putRing (t : Tile) (n : Nat) (x : Ring) : Tile :=
  t.withEng fun e => { e with rings := e.rings.setIfInBounds n x }

theorem Tile.withRing_const (t : Tile) {n : Nat} (hn : n < 8) (x : Ring) : t.withRing n (fun _ => x) = t.putRing n x := by
  rw [Tile.withRing, Vector.getElem?_eq_getElem hn]
  rfl

/-- RINGDEF of registers that no declared ring owns. -/
theorem ringdef_issues {s : State} {h : Hdr} {r : BitVec 3} {f n : BitVec 4} (hs : s.Ready h.guard)
    (hsize : f.toNat + n.toNat < 16) (hfree : (s.core.ring r.toNat).defd = false)
    (hown : ∀ k, k ≤ n.toNat → ∀ g ∈ s.core.eng.rings.toList, g.owns (f.toNat + k) = false) :
    Issues (.ringdef h r f n) s (s.core.putRing r.toNat ⟨true, f.toNat, n.toNat, 0, 0, List.replicate (n.toNat + 1) .free⟩) := by
  have hnone : ((upTo (n.toNat + 1)).all fun k => !(s.core.eng.rings.toList.any fun g => g.owns (f.toNat + k))) = true := by
    refine List.all_eq_true.mpr fun k hk => ?_
    rw [Bool.not_eq_true', List.any_eq_false]
    exact fun g hg => by simp [hown k (Nat.lt_succ_iff.mp (List.mem_range.mp hk)) g hg]
  have hfits : decide (f.toNat + n.toNat + 1 ≤ 16) = true := decide_eq_true hsize
  exact issues_of_effect _ hs rfl (s.core.withRing_const r.isLt _) rfl (need_of_true (by rw [hfits, hfree, hnone]; rfl)) hs.between.noClosing
    hs.between.running hs.between.noReports

/-- RINGRST of a ring that nothing in progress names. -/
theorem ringrst_issues {s : State} {h : Hdr} {r : BitVec 3} (hs : s.Ready h.guard) (hidle : s.core.ringBusy r.toNat = false) :
    Issues (.ringrst h r) s (s.core.putRing r.toNat ⟨false, 0, 0, 0, 0, []⟩) :=
  issues_of_effect _ hs rfl (s.core.withRing_const r.isLt _) rfl (if_pos (by rw [hidle]; rfl)) hs.between.noClosing hs.between.running hs.between.noReports

/-- Settles O36: every operation by the checks and the sampling that all share. -/
theorem engineIssue : Obligations.EngineIssue := by
  refine ⟨?_, ?_⟩
  · intro s h z x y ox w g m v c va sb sc t hs hfree queues plain
    have e : ∀ i, exec i s = runSlot i h (semE i t noOperands) s → plain i := fun i he => eIssues_of_semE hs hfree he
    exact ⟨e _ rfl, e _ rfl, e _ rfl, eIssues_of_semE (ops := fun r => (r.rv va.toNat, r.rs sb, 0#32)) hs hfree rfl, e _ rfl,
      e _ rfl, e _ rfl, e _ rfl, e _ rfl, e _ rfl, e _ rfl, e _ rfl,
      eIssues_of_semE (ops := fun r => (vzero, r.rs sb, r.rs sc)) hs hfree rfl,
      eIssues_of_semE (ops := fun r => (vzero, r.rs sb, r.rs sc)) hs hfree rfl⟩
  · intro s h r f n hs put
    exact ⟨ringdef_issues hs, ringrst_issues hs⟩

end Sys2Proof.Machine
end

section
/-! SUPPORT. Receive bindings, remote arrivals, the queries of a channel and PORTW (R91, R95, R307, R308, R310, R311, R318). -/

namespace Sys2Proof.Machine

/-! What stands behind a bundle that has closed. -/

/-- A tile behind the close of the bundle of a slot whose effect was `t`: all but the schedule and a format in force is as the
effect left it, and the tags that the slot named are outstanding (R157, R191). -/
structure Tile.Behind (t u : Tile) : Prop where
  files : u.files = t.files
  pad : u.pad = t.pad
  out : u.out = t.out
  ins : u.ins = t.ins
  outs : u.outs = t.outs
  blocks : u.blocks = t.blocks
  sends : u.sends = t.sends
  trees : u.trees = t.trees
  accs : u.accs = t.accs
  pend : u.sch.pend = t.sch.pend
  tags : u.sch.tags = t.sch.alloc.foldl (fun v k => v.setIfInBounds k .outstanding) t.sch.tags

theorem Issues.behind {i : Instr} {s : State} {t : Tile} (h : Issues i s t) (hcl : t.sch.closing = []) :
    ∃ u, exec i s = .next u ∧ t.Behind u.core ∧ u.dev = s.dev := by
  have hbump : t.bump.sch.closing = [] := hcl
  refine ⟨_, h, ?_, rfl⟩
  rw [State.after_core, Tile.close_eq _ hbump]
  exact ⟨rfl, rfl, rfl, rfl, rfl, rfl, rfl, rfl, rfl, rfl, rfl⟩

theorem foldl_outstanding {l : List Nat} {v : Vector TagSt 8} {k : Nat} (hk : k < 8)
    (h : k ∈ l ∨ (v[k]?).getD .free = .outstanding) :
    ((l.foldl (fun v k => v.setIfInBounds k TagSt.outstanding) v)[k]?).getD .free = .outstanding := by
  induction l generalizing v with
  | nil => exact h.resolve_left (by simp)
  | cons m l ih =>
    refine ih ?_
    by_cases hm : m = k
    · subst hm
      exact .inr (by rw [Vector.getElem?_setIfInBounds_self_of_lt hk, Option.getD_some])
    · refine h.imp (fun h => ?_) fun h => ?_
      · exact (List.mem_cons.mp h).resolve_left fun e => hm e.symm
      · rwa [Vector.getElem?_setIfInBounds_ne hm]

/-- A tag that a slot allocated is outstanding behind its bundle (R157). -/
theorem Tile.Behind.tagSt {t u : Tile} (h : t.Behind u) {tag : BitVec 3} (halloc : tag.toNat ∈ t.sch.alloc) :
    u.tagSt tag.toNat = .outstanding := by
  rw [Tile.tagSt, h.tags]
  exact foldl_outstanding tag.isLt (.inl halloc)

theorem Tile.Behind.outCh {t u : Tile} (h : t.Behind u) (n : Nat) : u.outCh n = t.outCh n := by
  rw [Tile.outCh, Tile.outCh, h.outs]

theorem Tile.Behind.inCh {t u : Tile} (h : t.Behind u) (n : Nat) : u.inCh n = t.inCh n := by
  rw [Tile.inCh, Tile.inCh, h.ins]

theorem Tile.Behind.tree {t u : Tile} (h : t.Behind u) (n : Nat) : u.tree n = t.tree n := by
  rw [Tile.tree, Tile.tree, h.trees]

/-! Channels. -/

/-- The tile in which an inbound channel is as given. -/
def Tile.putIn (t : Tile) (n : Nat) (x : InCh) : Tile := { t with ins := t.ins.setIfInBounds n x }

theorem Tile.inCh_putIn (t : Tile) {n : Nat} (hn : n < 32) (x : InCh) (m : Nat) :
    (t.putIn n x).inCh m = if m = n then x else t.inCh m := by
  by_cases hm : m = n
  · subst hm
    rw [if_pos rfl, Tile.putIn, Tile.inCh, Vector.getElem?_setIfInBounds_self_of_lt hn, Option.getD_some]
  · rw [if_neg hm, Tile.putIn, Tile.inCh, Vector.getElem?_setIfInBounds_ne (Ne.symm hm)]
    rfl

/-- The tile in which an outbound channel is as given. -/
def Tile.putOut (t : Tile) (n : Nat) (x : OutCh) : Tile := { t with outs := t.outs.setIfInBounds n x }

theorem Tile.withOut_eq (t : Tile) {n : Nat} (hn : n < 32) (f : OutCh → OutCh) : t.withOut n f = t.putOut n (f (t.outCh n)) := by
  rw [Tile.withOut, Tile.outCh, Vector.getElem?_eq_getElem hn]
  rfl

theorem Tile.outCh_putOut (t : Tile) {n : Nat} (hn : n < 32) (x : OutCh) (m : Nat) :
    (t.putOut n x).outCh m = if m = n then x else t.outCh m := by
  by_cases hm : m = n
  · subst hm
    rw [if_pos rfl, Tile.putOut, Tile.outCh, Vector.getElem?_setIfInBounds_self_of_lt hn, Option.getD_some]
  · rw [if_neg hm, Tile.putOut, Tile.outCh, Vector.getElem?_setIfInBounds_ne (Ne.symm hm)]
    rfl

theorem Tile.emitAs_unpaired {t : Tile} (hp : t.pair = none) (group : Bool) (key : Nat) (crc : Word) (m : Msg) :
    t.emitAs group key crc m = { t with out := t.out ++ [m] } := by
  rw [Tile.emitAs, hp]

/-- A message of a channel that no memory send reads for leaves at once (R93). -/
theorem Tile.emitOn_unpaired {t : Tile} {n : Nat} (hp : t.pair = none) (hr : t.reading n = false) (m : Msg) :
    t.emitOn n false m = { t with out := t.out ++ [m] } := by
  rw [Tile.emitOn, hr, Bool.and_false, if_neg (by decide)]
  exact Tile.emitAs_unpaired hp _ _ _ _

/-! The statements. -/

/-- The checks of CHRECV pass (R304, R308). -/
theorem chrecv_issues {s : State} {h : Hdr} {c : BitVec 5} {bs : BitVec 4} {sink : Bool} (hs : s.Ready h.guard)
    (hq : s.core.pad.queue = []) (hp : s.core.pair = none) (hv : (s.core.inCh c.toNat).entry.getLsbD 63 = true)
    (hsink : (s.core.inCh c.toNat).entry.getLsbD 61 = sink) (honce : (s.core.inCh c.toNat).once = false)
    (hal : (s.core.ra bs).toNat % 16 = 0) (hin : (s.core.ra bs).toNat + 16 ≤ carveOut)
    (hread : s.core.Readable ((upTo 16).map ((s.core.ra bs).toNat + ·)))
    (hok : bindingRefused (s.core.pad.mem.val (s.core.ra bs).toNat 16) = false) :
    Issues (.chrecv h c bs sink) s
      { s.core.putIn c.toNat { s.core.inCh c.toNat with
          bound := true, once := true, binding := BitVec.ofNat 128 (s.core.pad.mem.val (s.core.ra bs).toNat 16) } with
        out := s.core.out ++ if sink then [] else
          [.credit (entryDest s.core.coord (s.core.inCh c.toNat).entry) (entryCh (s.core.inCh c.toNat).entry)
            (Nat.min 16 (bitsOf (s.core.pad.mem.val (s.core.ra bs).toNat 16) 32 8))] } := by
  have hpad : ∀ a ∈ (upTo 16).map ((s.core.ra bs).toNat + ·), a < padSize := by
    intro a ha
    obtain ⟨k, hk, rfl⟩ := List.mem_map.mp ha
    have hk16 : k < 16 := List.mem_range.mp hk
    have : carveOut < padSize := by decide
    omega
  have hrd := hread.readPad hpad
  refine issues_of_effect _ hs rfl ?_ rfl (Check.all_ok_iff.mpr fun x hx => ?_) hs.between.noClosing hs.between.running
    hs.between.noReports
  · simp only [hrd]
    cases sink with
    | true =>
      simp only [if_true, List.append_nil]
      rfl
    | false =>
      simp only [Bool.false_eq_true, if_false]
      exact Tile.emitAs_unpaired (t := s.core.putIn c.toNat _) hp _ _ _ _
  · have hrun : runCause (s.core.ra bs).toNat 16 = none := if_pos (le_trans hin (by decide))
    simp only [List.mem_cons, List.not_mem_nil, or_false] at hx
    rcases hx with rfl | rfl | rfl | rfl | rfl
    · exact if_pos (by rw [hq]; rfl)
    · exact need_of_true (by
        show ((s.core.inCh c.toNat).entry.getLsbD 63 && (s.core.inCh c.toNat).entry.getLsbD 61 == sink && _) = true
        rw [hv, hsink, honce, beq_self_eq_true]
        rfl)
    · exact need_of_true (by simp [hal])
    · rw [hrun]
      exact need_of_true (decide_eq_true hin)
    · exact need_of_true (by rw [hok]; simp)

/-- Settles O38: the checks, the binding and the grant. -/
theorem receiveBinding : Obligations.ReceiveBinding := by
  intro s h c bs sink hs hq hp i a w hv hsink honce hal hin hread hok
  obtain ⟨u, hexec, hb, -⟩ := (chrecv_issues hs hq hp hv hsink honce hal hin hread hok).behind hs.between.noClosing
  refine ⟨u, hexec, ?_, fun m hm => ?_, hb.out, hb.files, congrArg Pad.mem hb.pad⟩
  · rw [hb.inCh]
    exact (Tile.inCh_putIn _ c.isLt _ _).trans (if_pos rfl)
  · rw [hb.inCh]
    exact (Tile.inCh_putIn _ c.isLt _ _).trans (if_neg hm)

/-- The checks of CHARR pass (R304, R310). -/
theorem charr_check {t : Tile} {c r : BitVec 5} {tag : BitVec 3} (hv : (t.outCh c.toNat).entry.getLsbD 63 = true)
    (hd : (t.outCh c.toNat).dead = false) (hfree : t.tagFree tag = true) (h1 : 1 ≤ (t.rs r).toNat)
    (h2 : (t.rs r).toNat ≤ 65535) (hroom : t.roomFor 32 = true) :
    Check.all [tagCheck t tag (chInfo t c.toNat), routeCheck t c.toNat,
      need (decide (1 ≤ (t.rs r).toNat) && decide ((t.rs r).toNat ≤ 65535)) .atomop 0#64 (chInfo t c.toNat),
      need (t.roomFor 32) .cbfull 0#64 (chInfo t c.toNat)] = .ok := by
  have hroute : routeCheck t c.toNat = .ok := by
    refine Check.all_ok_iff.mpr fun x hx => ?_
    simp only [List.mem_cons, List.not_mem_nil, or_false] at hx
    rcases hx with rfl | rfl
    · exact need_of_true hv
    · exact need_of_true (by rw [hd]; rfl)
  refine Check.all_ok_iff.mpr fun x hx => ?_
  simp only [List.mem_cons, List.not_mem_nil, or_false] at hx
  rcases hx with rfl | rfl | rfl | rfl
  · exact need_of_true hfree
  · exact hroute
  · exact need_of_true (by simp [h1, h2])
  · exact need_of_true hroom

theorem Tile.mem_allocTag (t : Tile) (tag : BitVec 3) (h : tag ≠ 0#3) : tag.toNat ∈ (t.allocTag tag).sch.alloc := by
  rw [Tile.allocTag, if_neg h]
  exact List.mem_cons_self

/-- A remote arrival that leaves at once (R95, R310). -/
theorem Tile.sendArrival_unpaired {t : Tile} {n : Nat} (hn : n < 32) (hp : t.pair = none) (hr : t.reading n = false)
    (a : Word) (k : Nat) (tag : BitVec 3) :
    t.sendArrival n false a k tag =
      { t.putOut n { t.outCh n with seq := (t.outCh n).seq + 1#32 } with out := t.out ++ [.arrival (t.header n) a k tag] } := by
  rw [Tile.sendArrival, Tile.withOut_eq t hn]
  exact Tile.emitOn_unpaired (t := t.putOut n _) hp hr _

/-- CHARR outside a block. -/
theorem charr_sends {s : State} {h : Hdr} {c r : BitVec 5} {bs : BitVec 4} {tag : BitVec 3} (hs : s.Ready h.guard)
    (hv : (s.core.outCh c.toNat).entry.getLsbD 63 = true) (hd : (s.core.outCh c.toNat).dead = false)
    (hfree : s.core.tagFree tag = true) (h1 : 1 ≤ (s.core.rs r).toNat) (h2 : (s.core.rs r).toNat ≤ 65535)
    (hr : s.core.reading c.toNat = false) (hb : s.core.blocks = []) (hp : s.core.pair = none) :
    ∃ u, exec (.charr h c bs r tag) s = .next u ∧
      u.core.outCh c.toNat = { s.core.outCh c.toNat with seq := (s.core.outCh c.toNat).seq + 1#32 } ∧
      u.core.out = s.core.out ++ [.arrival (s.core.header c.toNat) (s.core.ra bs) (s.core.rs r).toNat tag] ∧
      (tag ≠ 0#3 → u.core.tagSt tag.toNat = .outstanding) ∧ u.core.files = s.core.files ∧ u.core.pad = s.core.pad := by
  obtain ⟨w, hw⟩ : ∃ w, w = s.core.allocTag tag := ⟨_, rfl⟩
  have houts : w.outs = s.core.outs := hw ▸ Tile.allocTag_outs ..
  have hch : w.outCh c.toNat = s.core.outCh c.toNat := by rw [Tile.outCh, Tile.outCh, houts]
  have hhead : w.header c.toNat = s.core.header c.toNat := by
    have hcoord : w.coord = s.core.coord := hw ▸ Tile.allocTag_coord ..
    rw [Tile.header, Tile.header, hch, hcoord]
  have hsends : w.reading c.toNat = false := by
    have : w.sends = s.core.sends := hw ▸ Tile.allocTag_sends ..
    rw [Tile.reading, this]
    exact hr
  have hroom : s.core.roomFor 32 = true := by rw [Tile.roomFor, hb]; rfl
  have hblocks : w.blocks.isEmpty = true := by
    have : w.blocks = s.core.blocks := hw ▸ Tile.allocTag_blocks ..
    rw [this, hb]
    rfl
  have hpair : w.pair = none := hw ▸ (Tile.allocTag_pair ..).trans hp
  have hissue : Issues (.charr h c bs r tag) s
      { w.putOut c.toNat { w.outCh c.toNat with seq := (w.outCh c.toNat).seq + 1#32 } with
        out := w.out ++ [.arrival (w.header c.toNat) (s.core.ra bs) (s.core.rs r).toNat tag] } := by
    refine issues_of_effect _ hs rfl ?_ rfl (charr_check hv hd hfree h1 h2 hroom) (hw ▸ hs.alloc_closing tag)
      (hw ▸ hs.alloc_status tag) (hw ▸ hs.alloc_recs tag)
    simp only [← hw, hblocks, if_true]
    exact Tile.sendArrival_unpaired c.isLt hpair hsends _ _ _
  obtain ⟨u, hexec, hb, -⟩ := hissue.behind (hw ▸ hs.alloc_closing tag)
  refine ⟨u, hexec, ?_, ?_, fun htag => hb.tagSt ?_, hb.files.trans (hw ▸ Tile.allocTag_files ..),
    hb.pad.trans (hw ▸ Tile.allocTag_pad ..)⟩
  · rw [hb.outCh, ← hch]
    exact (Tile.outCh_putOut _ c.isLt _ _).trans (if_pos rfl)
  · rw [hb.out, ← hhead]
    exact congrArg (· ++ _) (hw ▸ Tile.allocTag_out ..)
  · exact hw ▸ Tile.mem_allocTag _ _ htag

/-- CHARR in a block. -/
theorem charr_staged {s : State} {h : Hdr} {c r : BitVec 5} {bs : BitVec 4} {tag : BitVec 3} {b : Block} {l : List Block}
    (hs : s.Ready h.guard) (hv : (s.core.outCh c.toNat).entry.getLsbD 63 = true) (hd : (s.core.outCh c.toNat).dead = false)
    (hfree : s.core.tagFree tag = true) (h1 : 1 ≤ (s.core.rs r).toNat) (h2 : (s.core.rs r).toNat ≤ 65535)
    (hr : s.core.reading c.toNat = false) (hb : s.core.blocks = b :: l) (hroom : s.core.roomFor 32 = true) :
    ∃ u, exec (.charr h c bs r tag) s = .next u ∧ u.core.outs = s.core.outs ∧ u.core.out = s.core.out ∧
      u.core.blocks = { b with staged := b.staged ++ [.arrival c.toNat (s.core.ra bs) (s.core.rs r).toNat tag] } :: l ∧
      u.core.files = s.core.files ∧ u.core.pad = s.core.pad := by
  obtain ⟨w, hw⟩ : ∃ w, w = s.core.allocTag tag := ⟨_, rfl⟩
  have hsends : w.reading c.toNat = false := by
    have : w.sends = s.core.sends := hw ▸ Tile.allocTag_sends ..
    rw [Tile.reading, this]
    exact hr
  have hblocks : w.blocks = b :: l := hw ▸ (Tile.allocTag_blocks ..).trans hb
  have hissue : Issues (.charr h c bs r tag) s { w with
      blocks := { b with staged := b.staged ++ [.arrival c.toNat (s.core.ra bs) (s.core.rs r).toNat tag] } :: l } := by
    refine issues_of_effect _ hs rfl ?_ rfl (charr_check hv hd hfree h1 h2 hroom) (hw ▸ hs.alloc_closing tag)
      (hw ▸ hs.alloc_status tag) (hw ▸ hs.alloc_recs tag)
    simp only [← hw, hblocks, hsends, List.isEmpty_cons, Bool.false_eq_true, if_false, Tile.stage]
  obtain ⟨u, hexec, hb, -⟩ := hissue.behind (hw ▸ hs.alloc_closing tag)
  exact ⟨u, hexec, hb.outs.trans (hw ▸ Tile.allocTag_outs ..), hb.out.trans (hw ▸ Tile.allocTag_out ..), hb.blocks,
    hb.files.trans (hw ▸ Tile.allocTag_files ..), hb.pad.trans (hw ▸ Tile.allocTag_pad ..)⟩

theorem chwinValue_eq (t : Tile) (c : BitVec 5) (k : BitVec 2) :
    chwinValue t c k = if k = 0#2 then
      BitVec.ofNat 32 ((if (t.outCh c.toNat).dead then 2 ^ 31 else 0) + (t.outCh c.toNat).credit % 32)
    else if k = 1#2 then (t.inCh c.toNat).rcnt else (t.inCh c.toNat).free := by
  have hk : ∀ k : BitVec 2, k = 0#2 ∨ k = 1#2 ∨ k = 2#2 ∨ k = 3#2 := by decide
  rcases hk k with rfl | rfl | rfl | rfl
  · rw [if_pos rfl, chwinValue]
    cases (t.outCh c.toNat).dead <;> simp [b2n]
  · rfl
  · rfl
  · rfl

/-- The target of PORTW is sent the value (R318). -/
theorem portw_issues {s : State} {h : Hdr} {r : BitVec 5} {tag : BitVec 3} (hs : s.Ready h.guard) :
    Issues (.portw h r tag) s (match s.core.portwTarget tag with
      | some a => { s.core with out := s.core.out ++ [.portw s.core.coord a.seq (wordBytes (s.core.rs r) ++
          if a.kind = .bldd then wordBytes (s.core.rs (r + 1#5)) else [])] }
      | none => s.core) := by
  refine issues_of_effect _ hs rfl rfl rfl rfl ?_ ?_ ?_ <;> cases s.core.portwTarget tag
  · exact hs.between.noClosing
  · exact hs.between.noClosing
  · exact hs.between.running
  · exact hs.between.running
  · exact hs.between.noReports
  · exact hs.between.noReports

/-- Settles O39: an arrival outside and inside a block, the two queries, and the target of PORTW. -/
theorem channelQueries : Obligations.ChannelQueries := by
  refine ⟨?_, ?_⟩
  · intro s h c r bs k t hs o n put
    refine ⟨fun hv hd hfree h1 h2 hr => ⟨fun hb hp => ?_, fun b l hb hroom => charr_staged hs hv hd hfree h1 h2 hr hb hroom⟩, ?_,
      fun hv => ?_⟩
    · obtain ⟨u, hexec, hch, hrest⟩ := charr_sends hs hv hd hfree h1 h2 hr hb hp
      exact ⟨u, hexec, by rw [hch], by rw [hch], hrest⟩
    · rw [← chwinValue_eq]
      exact issues_of_effect _ hs rfl rfl rfl rfl hs.between.noClosing hs.between.running
        hs.between.noReports
    · exact issues_of_effect _ hs rfl rfl rfl (need_of_true hv) hs.between.noClosing hs.between.running
        hs.between.noReports
  · intro s h r t hs
    have hissue := portw_issues (r := r) (tag := t) hs
    refine ⟨fun a ha => ?_, fun hn => ?_⟩
    · rwa [ha] at hissue
    · rwa [hn] at hissue

end Sys2Proof.Machine
end

section
/-! SUPPORT. Containment blocks: their opening, their close and their abort (R313 to R316). -/

namespace Sys2Proof.Machine

/-! What the discards of an abort leave. -/

/-- A tile after something of it is discarded: its registers, memory, messages and blocks are as they were, and no result has
come into flight (R316). -/
structure Tile.Sheds (t u : Tile) : Prop where
  coord : u.coord = t.coord
  files : u.files = t.files
  ctl : u.ctl = t.ctl
  mem : u.pad.mem = t.pad.mem
  out : u.out = t.out
  blocks : u.blocks = t.blocks
  recs : u.recs = t.recs
  status : u.sch.status = t.sch.status
  tm : u.sch.tm = t.sch.tm
  flights : ∀ f ∈ u.sch.flights, f ∈ t.sch.flights

namespace Tile.Sheds

theorem refl (t : Tile) : t.Sheds t := ⟨rfl, rfl, rfl, rfl, rfl, rfl, rfl, rfl, rfl, fun _ h => h⟩

theorem trans {t u v : Tile} (h : t.Sheds u) (h' : u.Sheds v) : t.Sheds v :=
  ⟨h'.coord.trans h.coord, h'.files.trans h.files, h'.ctl.trans h.ctl, h'.mem.trans h.mem, h'.out.trans h.out,
    h'.blocks.trans h.blocks, h'.recs.trans h.recs, h'.status.trans h.status, h'.tm.trans h.tm,
    fun f hf => h.flights f (h'.flights f hf)⟩

theorem after {t u v : Tile} (h' : u.Sheds v) (h : t.Sheds u) : t.Sheds v := h.trans h'

theorem foldl {α : Type} {f : Tile → α → Tile} (hf : ∀ (t : Tile) x, t.Sheds (f t x)) (l : List α) (t : Tile) :
    t.Sheds (l.foldl f t) := by
  induction l generalizing t with
  | nil => exact refl t
  | cons x l ih => exact (hf t x).trans (ih _)

theorem setTag (t : Tile) (n : Nat) (st : TagSt) : t.Sheds (t.setTag n st) := by
  unfold Tile.setTag
  split
  · exact refl t
  · exact ⟨rfl, rfl, rfl, rfl, rfl, rfl, rfl, rfl, rfl, fun _ h => h⟩

theorem landSlot (t : Tile) (slot : Option (Nat × Nat)) : t.Sheds (t.landSlot slot) := by
  unfold Tile.landSlot
  split
  · obtain ⟨e, he⟩ := t.withRing_eq _ _
    rw [he]
    exact ⟨rfl, rfl, rfl, rfl, rfl, rfl, rfl, rfl, rfl, fun _ h => h⟩
  · exact refl t

theorem withOut (t : Tile) (n : Nat) (f : OutCh → OutCh) : t.Sheds (t.withOut n f) := by
  unfold Tile.withOut
  split
  · exact ⟨rfl, rfl, rfl, rfl, rfl, rfl, rfl, rfl, rfl, fun _ h => h⟩
  · exact refl t

theorem unstage (t : Tile) (x : Staged) : t.Sheds (t.unstage x) := by
  have htags : t.Sheds ((x.tags t.accs).foldl (fun (t : Tile) n => t.setTag n .free) t) := foldl (fun t _ => setTag t _ _) _ t
  cases x with
  | packet n p ps => exact htags.trans (withOut _ _ _)
  | arrival n a c tag => exact htags
  | store seq => exact htags.trans ⟨rfl, rfl, rfl, rfl, rfl, rfl, rfl, rfl, rfl, fun _ h => h⟩
  | start ch i => exact htags

theorem unsubmit (t : Tile) (x : Staged) : t.Sheds (t.unsubmit x) := by
  cases x with
  | packet n p ps => exact withOut t _ _
  | arrival n a c tag => exact withOut t _ _
  | store seq => exact refl t
  | start ch i => exact refl t

theorem dropSend (t : Tile) (o : SendOp) : t.Sheds (t.dropSend o) := by
  unfold Tile.dropSend
  split
  · exact refl t
  · exact after (foldl unstage _ _) (withOut t _ _)

theorem discardStaged (t : Tile) (b : Block) : t.Sheds (t.discardStaged b) := by
  unfold Tile.discardStaged
  dsimp only
  have hun : t.Sheds (if b.submitted then (b.staged.take b.sub).foldl Tile.unsubmit t else t) := by
    split
    · exact foldl unsubmit _ t
    · exact refl t
  exact after (u := b.staged.foldl Tile.unstage (if b.submitted then (b.staged.take b.sub).foldl Tile.unsubmit t else t))
    ⟨rfl, rfl, rfl, rfl, rfl, rfl, rfl, rfl, rfl, fun _ h => h⟩ (after (foldl unstage _ _) hun)

/-- The core operations of a block are discarded: of the results in flight only those issued before it stay. -/
theorem discardInside (t : Tile) (seq : Nat) :
    t.Sheds (t.discardInside seq) ∧ ∀ f ∈ (t.discardInside seq).sch.flights, f.seq < seq := by
  unfold Tile.discardInside
  dsimp only
  generalize hl : List.foldl Tile.landSlot t _ = w
  have hland : t.Sheds w := hl ▸ foldl landSlot _ t
  refine ⟨after (foldl (fun t _ => setTag t _ _) _ _) (after (foldl dropSend _ _) (hland.trans ?_)), fun f hf => ?_⟩
  · exact ⟨rfl, rfl, rfl, rfl, rfl, rfl, rfl, rfl, rfl, fun f hf => (List.mem_filter.mp hf).1⟩
  · have hmid := (after (foldl (fun t _ => setTag t _ _) _ _) (foldl dropSend _ _)).flights f hf
    have hkeep := (List.mem_filter.mp hmid).2
    simpa using hkeep

end Tile.Sheds

/-- What the abort of the innermost block restores and leaves (R316). -/
theorem Tile.abortBlock_facts (t : Tile) (cause : Cause) {b : Block} {bs : List Block} (hb : t.blocks = b :: bs) :
    ∃ v, t.abortBlock cause = v ∧ v.coord = t.coord ∧ v.sch.status = t.sch.status ∧ v.recs = t.recs ∧ v.blocks = bs ∧
      v.sch.pc = b.handler ∧ v.sch.tm = t.sch.tm ∧
      v.files.s = (if b.creg = 0 then b.chk.s else b.chk.s.setIfInBounds b.creg (BitVec.ofNat 32 cause.code)) ∧
      v.files.a = b.chk.a ∧ v.files.p = b.chk.p ∧ v.files.v = t.files.v ∧ v.ctl.rrb = b.chk.rrb ∧ v.ctl.lc = b.chk.lc ∧
      v.ctl.ec = b.chk.ec ∧ v.sch.rstk = b.chk.rstk ∧ v.sch.lstk = b.chk.lstk ∧ v.pad.mem = t.pad.mem ∧ v.out = t.out ∧
      ∀ f ∈ v.sch.flights, f.seq < b.seq := by
  obtain ⟨w, hw⟩ : ∃ w, w = (t.discardInside b.seq).discardStaged b := ⟨_, rfl⟩
  obtain ⟨hin, hfl⟩ := Tile.Sheds.discardInside t b.seq
  have hst := Tile.Sheds.discardStaged (t.discardInside b.seq) b
  rw [← hw] at hst
  have hsheds := hin.trans hst
  refine ⟨_, rfl, ?_⟩
  rw [Tile.abortBlock, hb]
  simp only [← hw]
  refine ⟨hsheds.coord, hsheds.status, hsheds.recs, rfl, rfl, hsheds.tm, ?_, ?_, ?_, ?_, rfl, rfl, rfl, rfl, rfl, hsheds.mem,
    hsheds.out, fun f hf => hfl f (hst.flights f hf)⟩
  · simp only [Tile.count, Files.put]
    split <;> rfl
  · simp only [Tile.count, Files.put]
    split <;> rfl
  · simp only [Tile.count, Files.put]
    split <;> rfl
  · rw [← hsheds.files]
    simp only [Tile.count, Files.put]
    split <;> rfl

/-! What raising a cause or finding an error leaves. -/

/-- A tile after causes are raised and errors found: only its status, its pending causes, its reports and counts, its health and
the errors of its scratchpad may have changed (R41, R323, R330). -/
def Tile.Found (t u : Tile) : Prop :=
  ∃ status pend recs counts health bad soft poison inj, u = { t with
    sch := { t.sch with status := status, pend := pend }, recs := recs, counts := counts, health := health
    pad := { t.pad with bad := bad, soft := soft, poison := poison, inj := inj } }

namespace Tile.Found

theorem refl (t : Tile) : t.Found t := ⟨_, _, _, _, _, _, _, _, _, rfl⟩

theorem trans {t u v : Tile} (h : t.Found u) (h' : u.Found v) : t.Found v := by
  obtain ⟨_, _, _, _, _, _, _, _, _, rfl⟩ := h
  obtain ⟨_, _, _, _, _, _, _, _, _, rfl⟩ := h'
  exact ⟨_, _, _, _, _, _, _, _, _, rfl⟩

theorem ite {t u v : Tile} {c : Prop} [Decidable c] (hu : t.Found u) (hv : t.Found v) : t.Found (if c then u else v) := by
  split
  · exact hu
  · exact hv

theorem detect (t : Tile) (c : Cause) : t.Found (t.detect c) := by
  unfold Tile.detect
  split <;> split <;> exact ⟨_, _, _, _, _, _, _, _, _, rfl⟩

theorem await (t : Tile) (c : Cause) (seq : Option Nat) (unit : Nat) (faddr info : DWord) :
    t.Found (t.await c seq unit faddr info) :=
  have hdouble : t.Found (t.doubleTrap c) := ⟨_, _, _, _, _, _, _, _, _, rfl⟩
  ite hdouble (ite hdouble ⟨_, _, _, _, _, _, _, _, _, rfl⟩)

theorem raise (t : Tile) (c : Cause) (seq : Option Nat) (unit : Nat) (faddr info : DWord) :
    t.Found (t.raise c seq unit faddr info) := (detect t c).trans (await _ c seq unit faddr info)

theorem findErrors (t : Tile) (l : List Nat) : t.Found (t.findErrors l) := by
  simp only [Tile.findErrors, Tile.readWords, Tile.meetErrors]
  have hreport : ∀ (u : Tile) real soft, u.Found (u.withPad (Pad.report real soft)) :=
    fun u real soft => ⟨_, _, _, _, _, _, _, _, _, rfl⟩
  split
  · refine trans ?_ (hreport _ _ _)
    split
    · exact refl t
    · exact ⟨_, _, _, _, _, _, _, _, _, rfl⟩
  · exact refl t

end Tile.Found

/-! The effects that an outer block hands over. -/

/-- A tile after an effect that is handed over but sends nothing. -/
structure Tile.Silent (t u : Tile) : Prop where
  files : u.files = t.files
  blocks : u.blocks = t.blocks
  outs : u.outs = t.outs
  out : u.out = t.out
  pair : u.pair = t.pair
  coord : u.coord = t.coord
  sends : u.sends = t.sends

theorem Tile.Silent.trans {t u v : Tile} (h : t.Silent u) (h' : u.Silent v) : t.Silent v :=
  ⟨h'.files.trans h.files, h'.blocks.trans h.blocks, h'.outs.trans h.outs, h'.out.trans h.out, h'.pair.trans h.pair,
    h'.coord.trans h.coord, h'.sends.trans h.sends⟩

theorem Tile.Found.silent {t u : Tile} (h : t.Found u) : t.Silent u := by
  obtain ⟨_, _, _, _, _, _, _, _, _, rfl⟩ := h
  exact ⟨rfl, rfl, rfl, rfl, rfl, rfl, rfl⟩

theorem Tile.Silent.acceptCopy (t : Tile) (ch index seq : Nat) : t.Silent (t.acceptCopy ch index seq) := by
  unfold Tile.acceptCopy
  split
  · exact (Tile.Found.refl t).silent
  · refine (Tile.Found.findErrors t (granules (t.templateAt index) 32)).silent.trans ?_
    dsimp only
    generalize t.findErrors (granules (t.templateAt index) 32) = u
    split
    · exact (Tile.Found.raise u _ _ _ _ _).silent
    · split
      · exact (Tile.Found.raise u _ _ _ _ _).silent
      · split <;> exact ⟨rfl, rfl, rfl, rfl, rfl, rfl, rfl⟩

theorem Tile.Silent.releaseStore (t : Tile) (seq : Nat) : t.Silent (t.releaseStore seq) := by
  unfold Tile.releaseStore
  split
  · exact ⟨rfl, rfl, rfl, rfl, rfl, rfl, rfl⟩
  · exact (Tile.Found.refl t).silent

/-- Two unpaired tiles that send alike: they have the same channels and messages, and memory sends of the same channels read. -/
structure Tile.SendsAlike (t u : Tile) : Prop where
  outs : u.outs = t.outs
  out : u.out = t.out
  unpaired : t.pair = none
  unpaired' : u.pair = none
  coord : u.coord = t.coord
  reading : ∀ n, u.reading n = t.reading n

theorem Tile.SendsAlike.silent {t u t' u' : Tile} (h : t.SendsAlike u) (ht : t.Silent t') (hu : u.Silent u') :
    t'.SendsAlike u' :=
  ⟨hu.outs.trans (h.outs.trans ht.outs.symm), hu.out.trans (h.out.trans ht.out.symm), ht.pair.trans h.unpaired,
    hu.pair.trans h.unpaired', hu.coord.trans (h.coord.trans ht.coord.symm), fun n => by
      rw [Tile.reading, Tile.reading, hu.sends, ht.sends]
      exact h.reading n⟩

theorem Tile.SendsAlike.withOut {t u : Tile} (h : t.SendsAlike u) (n : Nat) (f : OutCh → OutCh) :
    (t.withOut n f).SendsAlike (u.withOut n f) := by
  obtain ⟨houts, hout, hp, hp', hc, hr⟩ := h
  unfold Tile.withOut
  rw [houts]
  split
  · exact ⟨rfl, hout, hp, hp', hc, hr⟩
  · exact ⟨houts, hout, hp, hp', hc, hr⟩

theorem Tile.SendsAlike.header {t u : Tile} (h : t.SendsAlike u) (n : Nat) : u.header n = t.header n := by
  simp only [Tile.header, Tile.outCh, h.outs, h.coord]

theorem Tile.SendsAlike.emitOn {t u : Tile} (h : t.SendsAlike u) (n : Nat) (m : Msg) :
    (t.emitOn n false m).SendsAlike (u.emitOn n false m) := by
  rw [Tile.emitOn, Tile.emitOn, h.reading n]
  split
  · refine ⟨h.outs, h.out, h.unpaired, h.unpaired', h.coord, fun k => ?_⟩
    have hk := h.reading k
    simp only [Tile.reading, Tile.sendAfter, List.any_append] at hk ⊢
    rw [hk]
    rfl
  · rw [Tile.emit, Tile.emit, Tile.emitAs_unpaired h.unpaired, Tile.emitAs_unpaired h.unpaired']
    exact ⟨h.outs, congrArg (· ++ [m]) h.out, h.unpaired, h.unpaired', h.coord, h.reading⟩

theorem Tile.SendsAlike.handOver {t u : Tile} (h : t.SendsAlike u) (x : Staged) :
    (t.handOver false x).SendsAlike (u.handOver false x) := by
  cases x with
  | packet n p ps =>
    rw [Tile.handOver, Tile.handOver, Tile.sendPacket, Tile.sendPacket, h.header]
    exact (h.withOut n _).emitOn n _
  | arrival n a c tag =>
    rw [Tile.handOver, Tile.handOver, Tile.sendArrival, Tile.sendArrival, h.header]
    exact (h.withOut n _).emitOn n _
  | store seq => exact h.silent (.releaseStore t seq) (.releaseStore u seq)
  | start ch i =>
    exact h.silent ((Tile.Silent.acceptCopy t ch i _).trans ⟨rfl, rfl, rfl, rfl, rfl, rfl, rfl⟩)
      ((Tile.Silent.acceptCopy u ch i _).trans ⟨rfl, rfl, rfl, rfl, rfl, rfl, rfl⟩)

theorem Tile.SendsAlike.foldl_handOver {t u : Tile} (h : t.SendsAlike u) (l : List Staged) :
    (l.foldl (Tile.handOver false) t).SendsAlike (l.foldl (Tile.handOver false) u) := by
  induction l generalizing t u with
  | nil => exact h
  | cons x l ih => exact ih (h.handOver x)

/-- Handing an effect over changes neither registers nor blocks, and leaves the tile running or halted with a report. -/
structure Tile.HandsOver (t u : Tile) : Prop where
  files : u.files = t.files
  blocks : u.blocks = t.blocks
  acts : t.Acts u

theorem Tile.HandsOver.trans {t u v : Tile} (h : t.HandsOver u) (h' : u.HandsOver v) : t.HandsOver v :=
  ⟨h'.files.trans h.files, h'.blocks.trans h.blocks, h.acts.trans h'.acts⟩

theorem Tile.HandsOver.withOut (t : Tile) (n : Nat) (f : OutCh → OutCh) : t.HandsOver (t.withOut n f) := by
  unfold Tile.withOut
  split
  · exact ⟨rfl, rfl, .of_eq rfl rfl rfl rfl rfl⟩
  · exact ⟨rfl, rfl, .refl t⟩

theorem Tile.HandsOver.emitOn (t : Tile) (n : Nat) (m : Msg) : t.HandsOver (t.emitOn n false m) := by
  unfold Tile.emitOn
  split
  · exact ⟨rfl, rfl, .of_eq rfl rfl rfl rfl rfl⟩
  · refine ⟨?_, ?_, .emitAs t _ _ _ _⟩
    · unfold Tile.emit Tile.emitAs
      split
      · rfl
      · split <;> rfl
    · unfold Tile.emit Tile.emitAs
      split
      · rfl
      · split <;> rfl

theorem Tile.HandsOver.handOver (t : Tile) (x : Staged) : t.HandsOver (t.handOver false x) := by
  cases x with
  | packet n p ps => exact (withOut t n _).trans (emitOn _ n _)
  | arrival n a c tag => exact (withOut t n _).trans (emitOn _ n _)
  | store seq =>
    refine ⟨(Tile.Silent.releaseStore t seq).files, (Tile.Silent.releaseStore t seq).blocks, ?_⟩
    simp only [Tile.handOver, Tile.releaseStore]
    split
    · exact .of_eq rfl rfl rfl rfl rfl
    · exact .refl t
  | start ch i =>
    exact ⟨(Tile.Silent.acceptCopy t ch i _).files, (Tile.Silent.acceptCopy t ch i _).blocks,
      (Tile.Acts.acceptCopy t ch i _).trans (.of_eq rfl rfl rfl rfl rfl)⟩

theorem Tile.HandsOver.foldl (t : Tile) (l : List Staged) : t.HandsOver (l.foldl (Tile.handOver false) t) := by
  induction l generalizing t with
  | nil => exact ⟨rfl, rfl, .refl t⟩
  | cons x l ih => exact (handOver t x).trans (ih _)

/-! The statement. -/

/-- CBOPEN: its block opens behind the bundle. -/
theorem cbopen_opens {s : State} {h : Hdr} {r : BitVec 5} {w : Word} (hs : s.Ready h.guard) (hroom : s.core.blocks.length < 2) :
    ∃ v : Tile, exec (.cbopen h r w) s = .next (s.withCore (v.openBlock w (rotS s.core.ctl.rrb r))) ∧ v.blocks = s.core.blocks ∧
      v.files = s.core.files ∧ v.pad = s.core.pad ∧ v.out = s.core.out ∧ v.ctl.rrb = s.core.ctl.rrb ∧ v.ctl.lc = s.core.ctl.lc ∧
      v.ctl.ec = s.core.ctl.ec ∧ v.sch.rstk = s.core.sch.rstk ∧ v.sch.lstk = s.core.sch.lstk := by
  have hexec := runSlot_atClose (i := .cbopen h r w) (x := .cbopen w (rotS s.core.ctl.rrb r)) (sem := fun _ =>
    { check := fun t => need (decide (t.blocks.length < 2)) .cbnest
      eff := fun u t => t.atClose (.cbopen w (rotS u.ctl.rrb r)) }) hs rfl rfl (need_of_true (decide_eq_true hroom))
    hs.between.noClosing
  have hclosing : s.core.bump.sch.closing = [] := hs.between.noClosing
  rw [Tile.close_eq _ hclosing, flush_noteEnd_quiet] at hexec
  · exact ⟨_, hexec, rfl, rfl, rfl, rfl, Ctl.settleFmt_rrb .., Ctl.settleFmt_lc .., Ctl.settleFmt_ec .., rfl, rfl⟩
  · exact hs.between.noReports
  · exact ne_of_eq_of_ne hs.between.running (by decide)

/-- CBCLOSE acts on the tile behind its bundle, and what it reports is sent. -/
theorem cbclose_closes {s : State} {h : Hdr} {b : Block} {l : List Block} (hs : s.Ready h.guard) (hb : s.core.blocks = b :: l)
    (hdone : s.core.blockDone b.seq = true) (hpair : s.core.pairClosed = true) :
    ∃ v : Tile, exec (.cbclose h) s = .next (State.flush (State.noteEnd (s.withCore v.closeBlock))) ∧
      v.blocks = s.core.blocks ∧ v.files = s.core.files ∧ v.pad = s.core.pad ∧ v.outs = s.core.outs ∧ v.out = s.core.out ∧
      v.pair = s.core.pair ∧ v.coord = s.core.coord ∧ v.sends = s.core.sends ∧ v.recs = [] ∧ v.sch.status = .running := by
  have hcheck : (match s.core.blocks with
      | [] => Check.raise .cbnest 0#64 0#64 []
      | b :: _ => Check.all [waitFirst (s.core.blockDone b.seq) (mkStall .plain),
          waitFirst s.core.pairClosed (mkStall .pairClose)]) = .ok := by
    rw [hb]
    refine Check.all_ok_iff.mpr fun x hx => ?_
    simp only [List.mem_cons, List.not_mem_nil, or_false] at hx
    rcases hx with rfl | rfl
    · exact if_pos hdone
    · exact if_pos hpair
  have hexec := runSlot_atClose (i := .cbclose h) (x := .cbclose) (sem := fun _ =>
    { check := fun t => match t.blocks with
        | [] => .raise .cbnest 0#64 0#64 []
        | b :: _ => Check.all [waitFirst (t.blockDone b.seq) (mkStall .plain), waitFirst t.pairClosed (mkStall .pairClose)]
      eff := fun _ t => t.atClose .cbclose }) hs rfl rfl hcheck hs.between.noClosing
  have hclosing : s.core.bump.sch.closing = [] := hs.between.noClosing
  rw [Tile.close_eq _ hclosing] at hexec
  exact ⟨_, hexec, rfl, rfl, rfl, rfl, rfl, rfl, rfl, rfl, hs.between.noReports, hs.between.running⟩

/-- The close of an outer block hands its effects over (R315). -/
theorem closeBlock_outer {v : Tile} {b : Block} (hb : v.blocks = [b]) (hsub : b.submitted = false) :
    v.closeBlock = b.staged.foldl (Tile.handOver false) { v with blocks := [] } := by
  rw [Tile.closeBlock, hb]
  exact if_neg (by rw [hsub]; decide)

/-- Settles O40: the checkpoint as the bundle leaves it, the effects by two tiles that send alike, and the abort by what its discards
leave. -/
theorem containment : Obligations.Containment := by
  refine ⟨?_, ?_⟩
  · intro s h r w hs same
    refine ⟨fun hroom => ?_, fun b hb hst hsub hdone => ?_, fun b hb hsub hp hdone => ?_, fun b o l hb hdone => ?_⟩
    · obtain ⟨v, hexec, hblocks, hfiles, hpad, hout, hrrb, hlc, hec, hrstk, hlstk⟩ := cbopen_opens hs hroom
      refine ⟨_, _, hexec, congrArg (_ :: ·) hblocks, ⟨hfiles, hpad, hout, rfl⟩, rfl, rfl, rfl, ?_, ?_, ?_, hrrb, hlc, hec,
        hrstk, hlstk⟩
      · exact congrArg Files.s hfiles
      · exact congrArg Files.a hfiles
      · exact congrArg Files.p hfiles
    · have hpair : s.core.pairClosed = true := by
        unfold Tile.pairClosed
        rw [hb]
        cases s.core.pair with
        | none => rfl
        | some p => simp [hsub, hst]
      obtain ⟨v, hexec, hblocks, hfiles, hpad, -, hout, -, -, -, hrecs, hrun⟩ := cbclose_closes hs hb hdone hpair
      rw [closeBlock_outer (hblocks.trans hb) hsub, hst, List.foldl_nil, flush_noteEnd_quiet hrecs
        (ne_of_eq_of_ne hrun (by decide))] at hexec
      exact ⟨_, hexec, rfl, hfiles, hpad, hout, rfl⟩
    · have hpair : s.core.pairClosed = true := by
        unfold Tile.pairClosed
        rw [hp]
      obtain ⟨v, hexec, hblocks, hfiles, hpad, houts, hout, hvp, hcoord, hsends, hrecs, hrun⟩ := cbclose_closes hs hb hdone hpair
      rw [closeBlock_outer (hblocks.trans hb) hsub] at hexec
      have hands := Tile.HandsOver.foldl { v with blocks := [] } b.staged
      have halike : Tile.SendsAlike { s.core with blocks := [] } { v with blocks := [] } :=
        ⟨houts, hout, hp, hvp.trans hp, hcoord, fun n => by
          show v.sends.any _ = s.core.sends.any _
          rw [hsends]⟩
      have hout' := (halike.foldl_handOver b.staged).out
      generalize b.staged.foldl (Tile.handOver false) { v with blocks := [] } = w at hexec hands hout'
      have hne : w.sch.status ≠ .ended := by
        rcases hands.acts.stays with ⟨hst, -⟩ | ⟨hst, -⟩
        · exact ne_of_eq_of_ne (hst.trans hrun) (by decide)
        · exact ne_of_eq_of_ne hst (by decide)
      rw [State.noteEnd_of_ne hne] at hexec
      obtain ⟨hcore, -⟩ := State.flush_frame (s.withCore w)
      refine ⟨_, hexec, ?_, ?_, ?_⟩
      · rw [hcore]
        exact hands.blocks
      · rw [hcore]
        exact hands.files.trans hfiles
      · rw [hcore]
        exact hout'
    · have hpair : s.core.pairClosed = true := by
        unfold Tile.pairClosed
        rw [hb]
        cases s.core.pair <;> rfl
      obtain ⟨v, hexec, hblocks, hfiles, hpad, -, hout, -, -, -, hrecs, hrun⟩ := cbclose_closes hs hb hdone hpair
      have hclose : v.closeBlock = { v with blocks := { o with staged := o.staged ++ b.staged } :: l } := by
        rw [Tile.closeBlock, hblocks, hb]
      rw [hclose, flush_noteEnd_quiet hrecs (ne_of_eq_of_ne hrun (by decide))] at hexec
      exact ⟨_, hexec, rfl, hfiles, hpad, hout, rfl⟩
  · intro s c t p l b bs hat hl htm hpend hcont hb _
    obtain ⟨v, hv, hcoord, hstatus, hrecs, hblocks, hpc, htm', hrest⟩ :=
      Tile.abortBlock_facts (t.withSch fun s => { s with pend := l }) p.cause (b := b) (bs := bs) hb
    have habort : t.abortPending = v := by
      have haborts : t.pendAborts = true := by
        rw [Tile.pendAborts, hpend]
        simp [hcont, hb]
      rw [Tile.abortPending, hpend]
      simp only [htm, haborts, Bool.not_true, Bool.or_false, Bool.false_eq_true, if_false]
      exact hv
    refine ⟨v, ?_, hblocks, hpc, htm'.trans htm, hrest⟩
    rw [← habort]
    refine Becomes.onTile Tile.abortPending hat rfl ?_ ?_
    · have h := State.tileAt_isAt hat
      rw [Tile.isAt] at h ⊢
      rw [habort, hcoord, hstatus]
      exact h
    · rw [habort, hrecs]
      exact hl.noReports

end Sys2Proof.Machine
end

section
/-! SUPPORT. Sends from registers and from memory, and contributions to a tree (R90, R100, R304 to R306, R309, R314). -/

namespace Sys2Proof.Machine

/-! The packets of a payload (R305). -/

theorem packetsOf_eq (len : Nat) : packetsOf len = (len + 255) / 256 := by
  rw [packetsOf, ceilDiv, Nat.add_sub_assoc (by decide)]

theorem chunks_eq {n : Nat} (fuel : Nat) (l : List Byte) (h : n * fuel < l.length + n) :
    chunks n fuel l = (upTo fuel).map fun j => (l.drop (n * j)).take n := by
  induction fuel generalizing l with
  | zero => rfl
  | succ fuel ih =>
    rw [Nat.mul_succ] at h
    have hne : l.isEmpty = false := by
      rw [List.isEmpty_eq_false_iff]
      rintro rfl
      simp at h
    have hlen : n * fuel < (l.drop n).length + n := by
      rw [List.length_drop]
      omega
    rw [chunks, hne, if_neg (by decide), ih _ hlen, upTo, upTo, List.range_succ_eq_map, List.map_cons, List.map_map, Nat.mul_zero,
      List.drop_zero]
    refine congrArg (_ :: ·) (List.map_congr_left fun j _ => ?_)
    simp only [Function.comp, List.drop_drop, Nat.mul_succ, Nat.add_comm]

/-- Packet `j` of a payload. -/
def packetPart (l : List Byte) (j : Nat) : List Byte := (l.drop (256 * j)).take 256

theorem chunks_packets (l : List Byte) :
    chunks 256 (packetsOf l.length) l = (upTo (packetsOf l.length)).map (packetPart l) :=
  chunks_eq _ l (by rw [packetsOf_eq]; omega)

theorem zip_upTo_map {α : Type} (m : Nat) (f : Nat → α) : (upTo m).zip ((upTo m).map f) = (upTo m).map fun j => (j, f j) := by
  refine List.ext_getElem (by simp) fun j _ _ => ?_
  simp

/-! Packets that leave at once, and packets that are staged. -/

/-- The tile in which an outbound channel is as given and messages have left. -/
def Tile.sending (t : Tile) (n : Nat) (x : OutCh) (l : List Msg) : Tile :=
  { t with outs := t.outs.setIfInBounds n x, out := t.out ++ l }

theorem Tile.outCh_sending (t : Tile) {n : Nat} (hn : n < 32) (x : OutCh) (l : List Msg) (m : Nat) :
    (t.sending n x l).outCh m = if m = n then x else t.outCh m := Tile.outCh_putOut t hn x m

theorem Tile.sending_self (t : Tile) {n : Nat} (hn : n < 32) : t.sending n (t.outCh n) [] = t := by
  have hset : t.outs.setIfInBounds n (t.outCh n) = t.outs := by
    refine Vector.ext fun i hi => ?_
    rw [Vector.getElem_setIfInBounds, Tile.outCh]
    split
    · next h =>
      subst h
      rw [Vector.getElem?_eq_getElem hn, Option.getD_some]
    · rfl
  rw [Tile.sending, hset, List.append_nil]

theorem Tile.sending_sending (t : Tile) (n : Nat) (x y : OutCh) (l l' : List Msg) :
    (t.sending n x l).sending n y l' = t.sending n y (l ++ l') := by
  have hset : (t.outs.setIfInBounds n x).setIfInBounds n y = t.outs.setIfInBounds n y := by
    refine Vector.ext fun i hi => ?_
    simp only [Vector.getElem_setIfInBounds]
    split <;> rfl
  simp only [Tile.sending, hset, List.append_assoc]

/-- The header of packet `j` of a send (R88 to R90). -/
def Tile.headerAt (t : Tile) (n j : Nat) : PHead :=
  { t.header n with seq := (t.outCh n).seq + BitVec.ofNat 32 (j + 1) }

/-- An outbound channel behind `m` packets. -/
def OutCh.behind (o : OutCh) (m : Nat) : OutCh := { o with seq := o.seq + BitVec.ofNat 32 m }

theorem OutCh.behind_zero (o : OutCh) : o.behind 0 = o := by
  rw [OutCh.behind, show o.seq + BitVec.ofNat 32 0 = o.seq from BitVec.add_zero _]

theorem Tile.sendPacket_unpaired {t : Tile} {n : Nat} (hn : n < 32) (hp : t.pair = none) (hr : t.reading n = false)
    (part : List Byte) (poison : NatSet) :
    t.sendPacket n false part poison = t.sending n ((t.outCh n).behind 1) [.packet (t.header n) part poison false] := by
  rw [Tile.sendPacket, Tile.withOut_eq t hn, Tile.emitOn_unpaired (t := t.putOut n _) hp hr]
  rfl

theorem Tile.sendPackets_unpaired {t : Tile} {n : Nat} (hn : n < 32) (hp : t.pair = none) (hr : t.reading n = false)
    (part : Nat → List Byte) (poison : Nat → NatSet) (m : Nat) :
    (upTo m).foldl (fun u j => u.sendPacket n false (part j) (poison j)) t =
      t.sending n ((t.outCh n).behind m) ((upTo m).map fun j => .packet (t.headerAt n j) (part j) (poison j) false) := by
  induction m with
  | zero =>
    rw [OutCh.behind_zero]
    exact (t.sending_self hn).symm
  | succ m ih =>
    rw [upTo, List.range_succ, List.foldl_append, List.map_append, ← upTo, ih]
    obtain ⟨u, hu⟩ : ∃ u, u = t.sending n ((t.outCh n).behind m)
      ((upTo m).map fun j => .packet (t.headerAt n j) (part j) (poison j) false) := ⟨_, rfl⟩
    have hch : u.outCh n = (t.outCh n).behind m := hu ▸ (t.outCh_sending hn _ _ n).trans (if_pos rfl)
    have hseq : (t.outCh n).seq + BitVec.ofNat 32 m + 1#32 = (t.outCh n).seq + BitVec.ofNat 32 (m + 1) := by
      rw [BitVec.add_assoc, BitVec.ofNat_add]
    have hbehind : (u.outCh n).behind 1 = (t.outCh n).behind (m + 1) := by
      rw [hch, OutCh.behind, OutCh.behind, OutCh.behind, ← hseq]
    have hhead : u.header n = t.headerAt n m := by
      have hcoord : u.coord = t.coord := hu ▸ rfl
      rw [Tile.header, hch, hcoord, Tile.headerAt, Tile.header, ← hseq]
      rfl
    have hup : u.pair = none := hu ▸ hp
    have hur : u.reading n = false := hu ▸ hr
    rw [← hu, List.foldl_cons, List.foldl_nil, Tile.sendPacket_unpaired hn hup hur, hbehind, hhead, hu, Tile.sending_sending,
      List.map_cons, List.map_nil]

/-- A block in which more effects are staged. -/
def Block.stagedBy (b : Block) (l : List Staged) : Block := { b with staged := b.staged ++ l }

theorem Tile.stage_all {t : Tile} {b : Block} {bl : List Block} (hb : t.blocks = b :: bl) (e : Nat → Staged) (m : Nat) :
    (upTo m).foldl (fun u j => u.stage (e j)) t =
      { t with blocks := b.stagedBy ((upTo m).map e) :: bl } := by
  induction m with
  | zero =>
    simp only [Block.stagedBy, upTo, List.range_zero, List.foldl_nil, List.map_nil, List.append_nil]
    rw [← hb]
  | succ m ih =>
    rw [upTo, List.range_succ, List.foldl_append, ← upTo, ih]
    simp [Tile.stage, Block.stagedBy]

theorem foldl_congr_mem {α β : Type} {f g : β → α → β} (l : List α) (P : β → Prop) (hP : ∀ b, P b → ∀ x, P (g b x))
    (h : ∀ b, P b → ∀ x, f b x = g b x) (b : β) (hb : P b) : l.foldl f b = l.foldl g b := by
  induction l generalizing b with
  | nil => rfl
  | cons x l ih => rw [List.foldl_cons, List.foldl_cons, h b hb x, ih _ (hP b hb x)]

/-- The step of a send for one packet, outside a block. -/
theorem Tile.send_outside {t : Tile} {n : Nat} (hn : n < 32) (hp : t.pair = none) (hr : t.reading n = false)
    (hb : t.blocks = []) (payload : List Byte) (poison : NatSet) :
    t.send n payload poison =
      t.sending n (OutCh.behind { t.outCh n with credit := (t.outCh n).credit - packetsOf payload.length }
          (packetsOf payload.length))
        ((upTo (packetsOf payload.length)).map fun j =>
          .packet (t.headerAt n j) (packetPart payload j) (packetPoison poison j) false) := by
  obtain ⟨u, hu⟩ : ∃ u, u = t.sending n { t.outCh n with credit := (t.outCh n).credit - packetsOf payload.length } [] := ⟨_, rfl⟩
  have hlen : (chunks 256 (packetsOf payload.length) payload).length = packetsOf payload.length := by
    rw [chunks_packets, List.length_map, upTo, List.length_range]
  have hstart : (t.withOut n fun o => { o with credit := o.credit - packetsOf payload.length }) = u := by
    rw [Tile.withOut_eq t hn, hu, Tile.sending, List.append_nil]
    rfl
  have hch : u.outCh n = { t.outCh n with credit := (t.outCh n).credit - packetsOf payload.length } :=
    hu ▸ (t.outCh_sending hn _ _ n).trans (if_pos rfl)
  have hhead : ∀ j, u.headerAt n j = t.headerAt n j := by
    intro j
    have hcoord : u.coord = t.coord := hu ▸ rfl
    rw [Tile.headerAt, Tile.header, hch, hcoord]
    rfl
  have hup : u.pair = none := hu ▸ hp
  have hur : u.reading n = false := hu ▸ hr
  have hub : u.blocks = [] := hu ▸ hb
  rw [Tile.send]
  dsimp only
  rw [hlen, hstart, chunks_packets, zip_upTo_map, List.foldl_map]
  rw [foldl_congr_mem _ (fun v : Tile => v.blocks = []) (g := fun v j => v.sendPacket n false (packetPart payload j) (packetPoison poison j))
    (fun v hv x => ?_) (fun v hv x => by rw [hv]; rfl) u hub, Tile.sendPackets_unpaired hn hup hur, hch]
  · simp only [hhead]
    rw [hu, Tile.sending_sending]
    rfl
  · exact (Tile.HandsOver.handOver v (.packet n _ _)).blocks.trans hv

/-- A send in a block is staged (R314). -/
theorem Tile.send_inside {t : Tile} {n : Nat} (hn : n < 32) (hr : t.reading n = false) {b : Block} {bl : List Block}
    (hb : t.blocks = b :: bl) (payload : List Byte) (poison : NatSet) :
    t.send n payload poison =
      { (t.sending n { t.outCh n with credit := (t.outCh n).credit - packetsOf payload.length } []) with
        blocks := b.stagedBy ((upTo (packetsOf payload.length)).map fun j =>
          .packet n (packetPart payload j) (packetPoison poison j)) :: bl } := by
  obtain ⟨u, hu⟩ : ∃ u, u = t.sending n { t.outCh n with credit := (t.outCh n).credit - packetsOf payload.length } [] := ⟨_, rfl⟩
  have hlen : (chunks 256 (packetsOf payload.length) payload).length = packetsOf payload.length := by
    rw [chunks_packets, List.length_map, upTo, List.length_range]
  have hstart : (t.withOut n fun o => { o with credit := o.credit - packetsOf payload.length }) = u := by
    rw [Tile.withOut_eq t hn, hu, Tile.sending, List.append_nil]
    rfl
  have hur : u.reading n = false := hu ▸ hr
  have hub : u.blocks = b :: bl := hu ▸ hb
  rw [Tile.send]
  dsimp only
  rw [hlen, hstart, chunks_packets, zip_upTo_map, List.foldl_map, ← hu]
  rw [foldl_congr_mem _ (fun v : Tile => v.blocks ≠ [] ∧ v.reading n = false)
    (g := fun v j => v.stage (.packet n (packetPart payload j) (packetPoison poison j))) (fun v hv x => ?_) (fun v hv x => ?_) u
    ⟨by rw [hub]; simp, hur⟩, Tile.stage_all hub]
  · obtain ⟨hne, hread⟩ := hv
    unfold Tile.stage
    split
    · exact ⟨by simp, hread⟩
    · exact ⟨hne, hread⟩
  · have hne : v.blocks.isEmpty = false := List.isEmpty_eq_false_iff.mpr hv.1
    simp only [hne, hv.2, Bool.false_eq_true, if_false]

/-! The issue of a send. -/

section
variable (t : Tile) (tag : BitVec 3) (lat : Nat) (info : SlotInfo)

/-- A send's tag, to be released by its result, changes nothing of the tile but its results in flight and its tags. -/
theorem Tile.sendTag_eq : ∃ flights alloc, t.sendTag tag lat info = t.withSch fun c => { c with flights := flights, alloc := alloc } := by
  unfold Tile.sendTag Tile.produce
  split
  · exact ⟨t.sch.flights, t.sch.alloc, rfl⟩
  · rw [Tile.allocTag_eq]
    exact ⟨_, _, rfl⟩

end

/-- Both rows of Table 14-2 for a channel with a route that is not dead. -/
theorem routeCheck_ok {t : Tile} {n : Nat} (hv : (t.outCh n).entry.getLsbD 63 = true) (hd : (t.outCh n).dead = false) :
    routeCheck t n = .ok := by
  refine Check.all_ok_iff.mpr fun x hx => ?_
  simp only [List.mem_cons, List.not_mem_nil, or_false] at hx
  rcases hx with rfl | rfl
  · exact need_of_true hv
  · exact need_of_true (by rw [hd]; rfl)

theorem creditWait_ok {t : Tile} {n len : Nat} (h : packetsOf len ≤ (t.outCh n).credit) : creditWait t n len = .ok :=
  if_pos (decide_eq_true h)

theorem sendCheck_ok {t : Tile} {n len : Nat} (h : t.roomFor (sendRoom len) = true) : sendCheck t n len = .ok := by
  rw [sendCheck, need_of_true h]
  rfl

/-- What a send leaves of registers, memory, credit and other channels. -/
structure Tile.SendMoves (t u : Tile) (c n : Nat) : Prop where
  files : u.files = t.files
  mem : u.pad.mem = t.pad.mem
  credit : (u.outCh c).credit = (t.outCh c).credit - n
  other : ∀ m, m ≠ c → u.outCh m = t.outCh m

/-- What a send of a payload on channel `n` leaves, with credit for its packets: outside a block they leave in order, with
rising SEQ; in a block that was open before, they are staged (R90, R305, R314). -/
structure Tile.Sent (t : Tile) (n : Nat) (payload : List Byte) (poison : NatSet) (u : Tile) : Prop where
  moves : t.SendMoves u n (packetsOf payload.length)
  outside : t.blocks = [] → t.pair = none →
    (u.outCh n).seq = (t.outCh n).seq + BitVec.ofNat 32 (packetsOf payload.length) ∧
    u.out = t.out ++ (upTo (packetsOf payload.length)).map fun j =>
      .packet (t.headerAt n j) (packetPart payload j) (packetPoison poison j) false
  inside : ∀ b bl, t.blocks = b :: bl → b.seq ≤ t.sch.seq → (u.outCh n).seq = (t.outCh n).seq ∧ u.out = t.out ∧
    u.blocks = b.stagedBy ((upTo (packetsOf payload.length)).map fun j =>
      .packet n (packetPart payload j) (packetPoison poison j)) :: bl

theorem Tile.Sent.congr {t u v : Tile} {n : Nat} {payload : List Byte} {poison : NatSet} (h : t.Sent n payload poison u)
    (hfiles : v.files = u.files) (hmem : v.pad.mem = u.pad.mem) (houts : v.outs = u.outs) (hout : v.out = u.out)
    (hblocks : v.blocks = u.blocks) : t.Sent n payload poison v := by
  have hch : ∀ m, v.outCh m = u.outCh m := fun m => by rw [Tile.outCh, Tile.outCh, houts]
  obtain ⟨⟨hf, hm, hcr, ho⟩, houtside, hinside⟩ := h
  refine ⟨⟨hfiles.trans hf, hmem.trans hm, ?_, fun m hne => (hch m).trans (ho m hne)⟩, ?_, ?_⟩
  · rwa [hch]
  · rwa [hch, hout]
  · rwa [hch, hout, hblocks]

theorem Tile.Sent.withSends {t u : Tile} {n : Nat} {payload : List Byte} {poison : NatSet} (l : List SendOp)
    (h : t.Sent n payload poison u) : t.Sent n payload poison { u with sends := l } :=
  h.congr rfl rfl rfl rfl rfl

theorem Tile.sent_sending {t w : Tile} {n : Nat} (hn : n < 32) (payload : List Byte) (poison : NatSet) (hb : t.blocks = [])
    (hfiles : w.files = t.files) (hmem : w.pad.mem = t.pad.mem) (houts : w.outs = t.outs) (hout : w.out = t.out) :
    t.Sent n payload poison (w.sending n
      (OutCh.behind { t.outCh n with credit := (t.outCh n).credit - packetsOf payload.length } (packetsOf payload.length))
      ((upTo (packetsOf payload.length)).map fun j =>
        .packet (t.headerAt n j) (packetPart payload j) (packetPoison poison j) false)) := by
  have hch : ∀ m, w.outCh m = t.outCh m := fun m => by rw [Tile.outCh, Tile.outCh, houts]
  refine ⟨⟨hfiles, hmem, ?_, fun m hne => ?_⟩, fun _ _ => ⟨?_, congrArg (· ++ _) hout⟩, fun b bl h => ?_⟩
  · rw [Tile.outCh_sending _ hn, if_pos rfl]
    rfl
  · rw [Tile.outCh_sending _ hn, if_neg hne, hch]
  · rw [Tile.outCh_sending _ hn, if_pos rfl]
    rfl
  · rw [hb] at h
    simp at h

theorem Tile.sent_staging {t w : Tile} {n : Nat} (hn : n < 32) (payload : List Byte) (poison : NatSet) {b : Block}
    {bl : List Block} (hb : t.blocks = b :: bl)
    (hfiles : w.files = t.files) (hmem : w.pad.mem = t.pad.mem) (houts : w.outs = t.outs) (hout : w.out = t.out) :
    t.Sent n payload poison
      { (w.sending n { t.outCh n with credit := (t.outCh n).credit - packetsOf payload.length } []) with
        blocks := b.stagedBy ((upTo (packetsOf payload.length)).map fun j =>
          .packet n (packetPart payload j) (packetPoison poison j)) :: bl } := by
  have hch : ∀ m, w.outCh m = t.outCh m := fun m => by rw [Tile.outCh, Tile.outCh, houts]
  obtain ⟨x, hx⟩ : ∃ x, x = { t.outCh n with credit := (t.outCh n).credit - packetsOf payload.length } := ⟨_, rfl⟩
  have hsend : ∀ (l : List Block) m, Tile.outCh { w.sending n x [] with blocks := l } m = if m = n then x else w.outCh m :=
    fun l m => w.outCh_sending hn x [] m
  rw [← hx]
  refine ⟨⟨hfiles, hmem, ?_, fun m hne => ?_⟩, fun h => ?_, fun b' bl' h _ => ⟨?_, ?_, ?_⟩⟩
  · rw [hsend, if_pos rfl, hx]
  · rw [hsend, if_neg hne, hch]
  · rw [hb] at h
    simp at h
  · rw [hsend, if_pos rfl, hx]
  · exact (List.append_nil _).trans hout
  · obtain ⟨rfl, rfl⟩ := List.cons.inj (hb.symm.trans h)
    rfl

/-- A tile that differs in its schedule's results in flight and its allocated tags only stands for an effect that has been
tagged. -/
theorem Issues.sent {i : Instr} {s : State} {w v : Tile} {n : Nat} {payload : List Byte} {poison : NatSet}
    (hw : s.core.Sent n payload poison w) (hv : ∃ flights alloc, v = w.withSch fun c => { c with flights := flights, alloc := alloc })
    (hc : w.sch.closing = []) (h : Issues i s v) : ∃ u, exec i s = .next u ∧ s.core.Sent n payload poison u.core := by
  obtain ⟨flights, alloc, rfl⟩ := hv
  obtain ⟨u, hexec, hb, -⟩ := h.behind (by exact hc)
  exact ⟨u, hexec, hw.congr hb.files (congrArg Pad.mem hb.pad) hb.outs hb.out hb.blocks⟩

section
variable {s : State} {h : Hdr} {n : Nat} {payload : List Byte} {poison : NatSet} {tag : BitVec 3} {lat : Nat} {i : Instr}

/-- A slot whose effect is a send from registers. -/
theorem exec_sends (hn : n < 32) (sem : SlotInfo → Sem) (hs : s.Ready h.guard) (he : exec i s = runSlot i h sem s)
    (e : Engines) (ht : (sem (s.core.slotInfo i 0)).eff s.core s.core =
      (Tile.send { s.core with eng := e } n payload poison).sendTag tag lat (s.core.slotInfo i 0))
    (henc : (sem (s.core.slotInfo i 0)).enc s.core = true) (hchk : (sem (s.core.slotInfo i 0)).check s.core = .ok)
    (hr : s.core.reading n = false) (hp : s.core.blocks = [] → s.core.pair = none) :
    ∃ u, exec i s = .next u ∧ s.core.Sent n payload poison u.core := by
  have hdone : ∀ w : Tile, Tile.send { s.core with eng := e } n payload poison = w → s.core.Sent n payload poison w →
      w.sch = s.core.sch → w.recs = s.core.recs → ∃ u, exec i s = .next u ∧ s.core.Sent n payload poison u.core := by
    intro w hw hsent hsch hrecs
    rw [hw] at ht
    have hcl : w.sch.closing = [] := hsch ▸ hs.between.noClosing
    have htag := w.sendTag_eq tag lat (s.core.slotInfo i 0)
    refine Issues.sent hsent htag hcl (issues_of_effect sem hs he ht henc hchk ?_ ?_ ?_) <;> obtain ⟨_, _, htag⟩ := htag <;> rw [htag]
    · exact hcl
    · exact (congrArg Sched.status hsch).trans hs.between.running
    · exact hrecs.trans hs.between.noReports
  match hb : s.core.blocks with
  | [] =>
    exact hdone _ (Tile.send_outside (t := { s.core with eng := e }) hn (hp hb) hr hb payload poison)
      (Tile.sent_sending (w := { s.core with eng := e }) hn payload poison hb rfl rfl rfl rfl) rfl rfl
  | b :: bl =>
    exact hdone _ (Tile.send_inside (t := { s.core with eng := e }) hn hr hb payload poison)
      (Tile.sent_staging (w := { s.core with eng := e }) hn payload poison hb rfl rfl rfl rfl) rfl rfl

theorem Memory.getT_length (f : Files) (r m : Nat) : (f.getT r m).length = m := Memory.bytes_length _ _ _

theorem chsendv_sends {c v : BitVec 5} {k : BitVec 2} (hs : s.Ready h.guard) (hfree : s.core.tagFree tag = true)
    (hv : (s.core.outCh c.toNat).entry.getLsbD 63 = true) (hd : (s.core.outCh c.toNat).dead = false)
    (hr : s.core.reading c.toNat = false) (hp : s.core.blocks = [] → s.core.pair = none) (hlen : payload.length = 64 * (k.toNat + 1))
    (hpay : payload = (upTo (k.toNat + 1)).flatMap fun i => vBytes (s.core.rv (v.toNat + i)))
    (hcr : packetsOf payload.length ≤ (s.core.outCh c.toNat).credit) (hroom : s.core.roomFor (sendRoom payload.length) = true) :
    ∃ u, exec (.chsendv h c v k tag) s = .next u ∧ s.core.Sent c.toNat payload [] u.core := by
  refine exec_sends (lat := 1) c.isLt _ hs rfl s.core.eng (by rw [hpay]) rfl (Check.all_ok_iff.mpr fun x hx => ?_) hr hp
  simp only [List.mem_cons, List.not_mem_nil, or_false, ← hlen] at hx
  rcases hx with rfl | rfl | rfl | rfl
  · exact need_of_true hfree
  · exact routeCheck_ok hv hd
  · exact sendCheck_ok hroom
  · exact creditWait_ok hcr

theorem chsendt_sends {c : BitVec 5} {src : TileRef} (hs : s.Ready h.guard) (hfree : s.core.tagFree tag = true)
    (hv : (s.core.outCh c.toNat).entry.getLsbD 63 = true) (hd : (s.core.outCh c.toNat).dead = false)
    (hr : s.core.reading c.toNat = false) (hp : s.core.blocks = [] → s.core.pair = none)
    (hshape : shapeValid (s.core.tshOf (s.core.refReg false src)) = true)
    (hring : ∀ g, src = .ring g → (s.core.ring g.toNat).defd = true ∧ (s.core.ring g.toNat).canTake = true)
    (hpay : payload = s.core.files.getT (s.core.refReg false src) ((shapeOf (s.core.tshOf (s.core.refReg false src))).rows *
      (shapeOf (s.core.tshOf (s.core.refReg false src))).rowBytes))
    (hcr : packetsOf payload.length ≤ (s.core.outCh c.toNat).credit) (hroom : s.core.roomFor (sendRoom payload.length) = true) :
    ∃ u, exec (.chsendt h c src tag) s = .next u ∧ s.core.Sent c.toNat payload [] u.core := by
  have hlen : payload.length = (shapeOf (s.core.tshOf (s.core.refReg false src))).rows *
      (shapeOf (s.core.tshOf (s.core.refReg false src))).rowBytes := hpay ▸ Memory.getT_length _ _ _
  obtain ⟨e, he⟩ := s.core.takeRef_eq src
  have hdefd : s.core.refDefd src = true := by
    cases src with
    | tile r => rfl
    | ring g => exact (hring g rfl).1
  refine exec_sends (tag := tag) (lat := 1) c.isLt _ hs rfl e ?_ rfl (Check.all_ok_iff.mpr fun x hx => ?_) hr hp
  · have hput : s.core.takeRef src = { s.core with eng := e } := he
    rw [hpay, ← hput]
    cases src <;> rfl
  · simp only [List.mem_cons, List.not_mem_nil, or_false, ← hlen] at hx
    rcases hx with rfl | rfl | rfl | rfl | rfl | rfl | rfl
    · exact need_of_true hfree
    · exact routeCheck_ok hv hd
    · exact need_of_true (by rw [hshape]; rfl)
    · exact need_of_true hdefd
    · exact sendCheck_ok hroom
    · cases src with
      | tile r => rfl
      | ring g => exact if_pos (hring g rfl).2
    · exact creditWait_ok hcr

end

/-! Sends from memory. -/

theorem foldl_emit {α : Type} (f : α → Msg) (l : List α) {t : Tile} (hp : t.pair = none) :
    l.foldl (fun (t : Tile) x => t.emit false (f x)) t = { t with out := t.out ++ l.map f } := by
  induction l generalizing t with
  | nil => rw [List.map_nil, List.append_nil]; rfl
  | cons x l ih =>
    rw [List.foldl_cons, Tile.emit, Tile.emitAs_unpaired hp, ih (by exact hp), List.map_cons]
    simp only [List.append_assoc, List.singleton_append]

theorem stageIn_of_le {seq : Nat} {b : Block} {bl : List Block} (h : b.seq ≤ seq) (x : Staged) :
    stageIn seq x (b :: bl) = b.stagedBy [x] :: bl := if_pos h

theorem foldl_stageIn {α : Type} (f : α → Staged) (l : List α) {t : Tile} {b : Block} {bl : List Block} {seq : Nat}
    (hb : t.blocks = b :: bl) (h : b.seq ≤ seq) :
    l.foldl (fun (t : Tile) x => { t with blocks := stageIn seq (f x) t.blocks }) t =
      { t with blocks := b.stagedBy (l.map f) :: bl } := by
  induction l generalizing t b with
  | nil =>
    rw [List.map_nil, Block.stagedBy, List.append_nil, ← hb]
    rfl
  | cons x l ih =>
    rw [List.foldl_cons, hb, stageIn_of_le h, ih (b := b.stagedBy [f x]) rfl h, List.map_cons]
    simp only [Block.stagedBy, List.append_assoc, List.singleton_append]

/-- Packet `j`'s part of a memory send's poison. -/
theorem handOn_parts (o : SendOp) (hlen : o.data.length = o.len) :
    (upTo (packetsOf o.len)).zip (chunks 256 (packetsOf o.len) o.data) =
      (upTo (packetsOf o.len)).map fun j => (j, packetPart o.data j) := by
  rw [← hlen, chunks_packets, zip_upTo_map]

/-- A memory send that holds its headers hands its packets to the router (R305). -/
theorem Tile.handOn_heads {t : Tile} {o : SendOp} {hs : List PHead} (hp : t.pair = none) (hh : o.heads = some hs)
    (hlen : o.data.length = o.len) (hhs : hs.length = packetsOf o.len) (hm : o.msgs = []) (he : o.effs = []) :
    t.handOn o = { t with out := t.out ++ (((upTo hs.length).zip hs).map fun x =>
                                    .packet x.2 (packetPart o.data x.1) (packetPoison o.poison x.1) false) } := by
  rw [Tile.handOn]
  dsimp only
  rw [hm, he, hh, List.foldl_nil, List.foldl_nil, handOn_parts o hlen, ← hhs]
  dsimp only
  refine (foldl_emit (fun x : PHead × Nat × List Byte => .packet x.1 x.2.2 (packetPoison o.poison x.2.1) false) _ hp).trans ?_
  congr 2
  refine List.ext_getElem (by simp [upTo]) fun j _ _ => ?_
  simp

/-- A memory send of a block stages its packets (R314). -/
theorem Tile.handOn_staged {t : Tile} {o : SendOp} {b : Block} {bl : List Block} (hb : t.blocks = b :: bl) (hseq : b.seq ≤ o.seq)
    (hh : o.heads = none) (hlen : o.data.length = o.len) (hm : o.msgs = []) (he : o.effs = []) :
    t.handOn o = { t with blocks := b.stagedBy ((upTo (packetsOf o.len)).map fun j =>
                                      .packet o.ch (packetPart o.data j) (packetPoison o.poison j)) :: bl } := by
  rw [Tile.handOn]
  dsimp only
  rw [hm, he, hh, List.foldl_nil, List.foldl_nil, handOn_parts o hlen]
  dsimp only
  refine (foldl_stageIn (fun x : Nat × List Byte => .packet o.ch x.2 (packetPoison o.poison x.1)) _ hb hseq).trans ?_
  rw [List.map_map]
  rfl

/-- A tile that a read of port B has left: no byte of memory has changed, and of the rest only what stands by scratchpad and
the counts of errors. -/
def Tile.ReadsB (t : Tile) (full : NatSet) (u : Tile) : Prop :=
  ∃ p c, u = { t with pad := p, counts := c } ∧ p.mem = t.pad.mem ∧ p.full = full

theorem Tile.findErrors_readsB (t : Tile) (l : List Nat) : t.ReadsB t.pad.full (t.findErrors l) := by
  simp only [Tile.findErrors, Tile.readWords, Tile.meetErrors]
  split
  · split <;> exact ⟨_, _, rfl, rfl, rfl⟩
  · exact ⟨_, _, rfl, rfl, rfl⟩

theorem Tile.returnCredits_unbound {t : Tile} (h : ∀ m, (t.inCh m).bound = false) : t.returnCredits = t := by
  refine List.foldl_fixed' (fun i => ?_) _
  have hi := h i
  cases hc : t.ins[i]? with
  | none => rfl
  | some c =>
    rw [Tile.inCh, hc, Option.getD_some] at hi
    simp only [hi, Bool.false_eq_true, if_false, if_true]

theorem Tile.setEmpty_unbound {t : Tile} (h : ∀ m, (t.inCh m).bound = false) (gs : List Nat) :
    t.setEmpty gs = t.withPad fun p => { p with full := NatSet.delAll p.full gs } := by
  unfold Tile.setEmpty
  split
  · next hg =>
    rw [List.isEmpty_iff.mp hg]
    rfl
  · exact Tile.returnCredits_unbound h

/-- The granules a memory send leaves full once it has read `n` bytes at `a`. -/
def SendOp.leaves (o : SendOp) (full : NatSet) (a n : Nat) : NatSet :=
  if o.take then NatSet.delAll full (granules a n) else full

theorem Tile.readSome_readsB {t : Tile} {o : SendOp} (h : o.take = true → ∀ m, (t.inCh m).bound = false) :
    t.ReadsB (o.leaves t.pad.full (o.addr + o.data.length) (Nat.min 64 (o.len - o.data.length))) (t.readSome o).1 := by
  obtain ⟨p, c, hw, hmem, hfull⟩ := t.findErrors_readsB (granules (o.addr + o.data.length) (Nat.min 64 (o.len - o.data.length)))
  rw [SendOp.leaves, Tile.readSome]
  dsimp only
  rw [hw]
  cases htake : o.take with
  | false => exact ⟨p, c, rfl, hmem, hfull⟩
  | true =>
    simp only [if_true]
    rw [Tile.setEmpty_unbound (t := { t with pad := p, counts := c }) (h htake), ← hfull]
    exact ⟨_, c, rfl, hmem, rfl⟩

theorem NatSet.addAll_append (s : NatSet) (l l' : List Nat) : NatSet.addAll s (l ++ l') = NatSet.addAll (NatSet.addAll s l) l' :=
  List.foldl_append ..

theorem NatSet.add_above {l : NatSet} {x : Nat} (h : ∀ y ∈ l, y < x) : NatSet.add l x = l ++ [x] := by
  induction l with
  | nil => rfl
  | cons a l ih =>
    have ha : a < x := h a List.mem_cons_self
    rw [NatSet.add, if_neg (by omega), if_neg (by omega), ih fun y hy => h y (List.mem_cons_of_mem _ hy)]
    rfl

/-- A set in canonical form put into the empty set is itself. -/
theorem NatSet.addAll_nil {l : NatSet} (h : List.Pairwise (· < ·) l) : NatSet.addAll [] l = l := by
  have hgen : ∀ (l m : List Nat), List.Pairwise (· < ·) (m ++ l) → NatSet.addAll m l = m ++ l := by
    intro l
    induction l with
    | nil => exact fun m _ => (List.append_nil m).symm
    | cons x l ih =>
      intro m hm
      have habove : ∀ y ∈ m, y < x := fun y hy => (List.pairwise_append.mp hm).2.2 y hy x List.mem_cons_self
      have hm' : List.Pairwise (· < ·) ((m ++ [x]) ++ l) := by rwa [List.append_assoc, List.singleton_append]
      rw [NatSet.addAll, List.foldl_cons, NatSet.add_above habove, ← NatSet.addAll, ih _ hm', List.append_assoc,
        List.singleton_append]
  exact hgen l [] h

theorem sourcePoison_addAll (p : Pad) (a len : Nat) :
    NatSet.addAll [] ((sourcePoison p a len).map (0 / 16 + ·)) = sourcePoison p a len := by
  have hmap : (sourcePoison p a len).map (0 / 16 + ·) = sourcePoison p a len := by simp
  rw [hmap]
  exact NatSet.addAll_nil (NatSet.pairwise_of_wfFrom (NatSet.addAll_wf (l := []) _ rfl)).1

/-- A memory send behind its next read. -/
def SendOp.readFrom (o : SendOp) (p : Pad) : SendOp :=
  { o with
    data := o.data ++ p.mem.bytes (o.addr + o.data.length) (Nat.min 64 (o.len - o.data.length))
    poison := NatSet.addAll o.poison
      ((sourcePoison p (o.addr + o.data.length) (Nat.min 64 (o.len - o.data.length))).map (o.data.length / 16 + ·)) }

theorem Tile.readOn_stop {t : Tile} {o : SendOp} (fuel : Nat) (h : ¬(o.data.length < o.len ∧ o.issued + o.data.length / 64 ≤ t.sch.cycle)) :
    Tile.readOn fuel t o = (t, o) := by
  cases fuel with
  | zero => rfl
  | succ fuel => rw [Tile.readOn, if_neg h]

/-- A memory send that reads still waits for its next cycle. -/
theorem Tile.runSends_waits {t : Tile} {o : SendOp} (hg : o.gone = false) (hlen : o.data.length < o.len)
    (hcyc : t.sch.cycle < o.issued + o.data.length / 64) : Tile.runSends [o] t = { t with sends := t.sends ++ [o] } := by
  have hne : (o.data.length == o.len) = false := beq_false_of_ne (Nat.ne_of_lt hlen)
  rw [Tile.runSends, Tile.readOn_stop 33 fun h => absurd h.2 (by omega)]
  simp only [hg, hne, Bool.not_false, Bool.and_false, Bool.false_and, Bool.false_eq_true, if_false, Tile.runSends]

/-- A memory send whose source is read is handed on. -/
theorem Tile.runSends_ready {t t' : Tile} {o o' : SendOp} (hread : Tile.readOn 33 t o = (t', o')) (hg : o'.gone = false)
    (hlen : o'.data.length = o'.len) (hr : t'.reading o'.ch = false) :
    Tile.runSends [o] t = if o'.done ≤ (t'.handOn o').sch.cycle then t'.handOn o'
      else { t'.handOn o' with sends := (t'.handOn o').sends ++ [{ o' with gone := true }] } := by
  rw [Tile.runSends, hread]
  simp only [hg, hlen, hr, beq_self_eq_true, Bool.not_false, Bool.and_true, if_true, Bool.true_and, decide_eq_true_eq, Tile.runSends]

section
variable {t : Tile} {n a len : Nat} {take : Bool}

/-- What CHSENDM leaves for its memory send to hold. -/
def Tile.sendOpAt (t : Tile) (n a len : Nat) (take : Bool) : SendOp :=
  ⟨t.sch.seq, t.sch.cycle, n, a, len, take, [], [],
    if t.blocks.isEmpty then some ((upTo (packetsOf len)).map (t.headerAt n)) else none, [], [], false,
    t.sch.cycle + ceilDiv len 64 + 1⟩

/-- The channel of a memory send behind its issue. -/
def Tile.sendOut (t : Tile) (n len : Nat) : OutCh :=
  { t.outCh n with
    credit := (t.outCh n).credit - packetsOf len
    seq := if t.blocks.isEmpty then (t.outCh n).seq + BitVec.ofNat 32 (packetsOf len) else (t.outCh n).seq }

theorem Tile.sendMem_eq (hn : n < 32) : t.sendMem t.sch.cycle n a len take =
    Tile.runSends [(t.sendOpAt n a len take).readFrom t.pad]
      ((t.putOut n (t.sendOut n len)).readSome (t.sendOpAt n a len take)).1 := by
  rw [Tile.sendMem]
  dsimp only
  rw [Tile.withOut_eq t hn]
  rfl

/-- The memory send of at most 64 bytes behind its one read. -/
def Tile.sendOpRead (t : Tile) (n a len : Nat) (take : Bool) : SendOp :=
  { t.sendOpAt n a len take with data := t.pad.mem.bytes a len, poison := sourcePoison t.pad a len }

theorem Tile.sendOpAt_readFrom_short (hlen : len ≤ 64) : (t.sendOpAt n a len take).readFrom t.pad = t.sendOpRead n a len take := by
  have hmin : Nat.min 64 (len - 0) = len := Nat.min_eq_right hlen
  have hpoison := sourcePoison_addAll t.pad a len
  rw [SendOp.readFrom]
  simp only [Tile.sendOpRead, Tile.sendOpAt, List.length_nil, Nat.add_zero, hmin, hpoison, List.nil_append]

theorem ReadsB_sendOp (hfe : take = true → ∀ m, (t.inCh m).bound = false) (x : OutCh) :
    ∃ p c, ((t.putOut n x).readSome (t.sendOpAt n a len take)).1 = { t.putOut n x with pad := p, counts := c } ∧
      p.mem = t.pad.mem ∧ p.full = (if take then NatSet.delAll t.pad.full (granules a (Nat.min 64 len)) else t.pad.full) :=
  Tile.readSome_readsB (t := t.putOut n x) (o := t.sendOpAt n a len take) hfe

end

/-- A tile after a memory send has handed on: of the tile, its messages, a pair's comparison and its blocks only have changed. -/
def Tile.HandsOn (t u : Tile) : Prop := ∃ ins out pair blocks, u = { t with ins := ins, out := out, pair := pair, blocks := blocks }

theorem Tile.HandsOn.refl (t : Tile) : t.HandsOn t := ⟨t.ins, t.out, t.pair, t.blocks, rfl⟩

theorem Tile.HandsOn.trans {t u v : Tile} (h : t.HandsOn u) (h' : u.HandsOn v) : t.HandsOn v := by
  obtain ⟨_, _, _, _, rfl⟩ := h
  obtain ⟨_, _, _, _, rfl⟩ := h'
  exact ⟨_, _, _, _, rfl⟩

theorem Tile.HandsOn.foldl {α : Type} {f : Tile → α → Tile} (hf : ∀ (t : Tile) (x : α), t.HandsOn (f t x)) (l : List α) (t : Tile) :
    t.HandsOn (l.foldl f t) := by
  induction l generalizing t with
  | nil => exact refl t
  | cons x l ih => exact (hf t x).trans (ih _)

theorem Tile.HandsOn.emit (t : Tile) (group : Bool) (m : Msg) : t.HandsOn (t.emit group m) := by
  obtain ⟨_, _, _, h⟩ := Tile.emitAs_sendsOnly t group m.key (Config.crc32 m.bytes) m
  exact ⟨_, _, _, t.blocks, h⟩

theorem Tile.HandsOn.handOn (t : Tile) (o : SendOp) : t.HandsOn (t.handOn o) := by
  unfold Tile.handOn
  dsimp only
  refine .trans ?_ (foldl (fun t x => ⟨_, _, _, _, rfl⟩) _ _)
  refine .trans ?_ (foldl (fun t m => emit t _ m) _ _)
  split
  · exact foldl (fun t m => emit t _ _) _ _
  · exact foldl (fun t x => ⟨_, _, _, _, rfl⟩) _ _

section
variable {t : Tile} {n a len : Nat} {take : Bool}

/-- A memory send of at most 64 bytes is read, and handed on, at issue (R305). -/
theorem Tile.sendMem_short (hn : n < 32) (hlen : len ≤ 64) (hr : t.reading n = false)
    (hfe : take = true → ∀ m, (t.inCh m).bound = false) :
    ∃ p c l, t.sendMem t.sch.cycle n a len take =
        { Tile.handOn { t.putOut n (t.sendOut n len) with pad := p, counts := c } (t.sendOpRead n a len take) with sends := l } ∧
      p.mem = t.pad.mem ∧ p.full = (if take then NatSet.delAll t.pad.full (granules a (Nat.min 64 len)) else t.pad.full) := by
  obtain ⟨p, c, hread, hmem, hfull⟩ := ReadsB_sendOp (len := len) (a := a) (n := n) hfe (t.sendOut n len)
  refine ⟨p, c, t.sends ++ [{ t.sendOpRead n a len take with gone := true }], ?_, hmem, hfull⟩
  have hdata : (t.sendOpRead n a len take).data.length = len := Memory.bytes_length _ _ _
  obtain ⟨w, hw⟩ : ∃ w, w = { t.putOut n (t.sendOut n len) with pad := p, counts := c } := ⟨_, rfl⟩
  have hcyc : w.sch.cycle = t.sch.cycle := hw ▸ rfl
  have hsends : w.sends = t.sends := hw ▸ rfl
  have hread' : Tile.readOn 33 w (t.sendOpRead n a len take) = (w, t.sendOpRead n a len take) :=
    Tile.readOn_stop 33 fun h => absurd h.1 (Nat.not_lt.mpr (Nat.le_of_eq hdata.symm))
  rw [Tile.sendMem_eq hn, Tile.sendOpAt_readFrom_short hlen, hread, ← hw, Tile.runSends_ready hread' rfl hdata]
  · obtain ⟨_, _, _, _, hon⟩ := Tile.HandsOn.handOn w (t.sendOpRead n a len take)
    rw [hon]
    simp only [hcyc, hsends]
    exact if_neg (Nat.not_le.mpr (Nat.lt_succ_of_le (Nat.le_add_right _ _)))
  · rw [Tile.reading, hsends]
    exact hr

theorem Tile.sendMem_sent (hn : n < 32) (hlen : len ≤ 64) (hr : t.reading n = false)
    (hfe : take = true → ∀ m, (t.inCh m).bound = false) (hp : t.blocks = [] → t.pair = none)
    (hseq : ∀ b bl, t.blocks = b :: bl → b.seq ≤ t.sch.seq) :
    t.Sent n (t.pad.mem.bytes a len) (sourcePoison t.pad a len) (t.sendMem t.sch.cycle n a len take) := by
  obtain ⟨p, c, l, hw, hmem, -⟩ := Tile.sendMem_short (a := a) (len := len) hn hlen hr hfe
  have hdata : (t.pad.mem.bytes a len).length = len := Memory.bytes_length _ _ _
  rw [hw]
  match hb : t.blocks with
  | [] =>
    have hheads : (t.sendOpRead n a len take).heads = some ((upTo (packetsOf len)).map (t.headerAt n)) :=
      if_pos (by rw [hb]; rfl)
    have hx : t.sendOut n len = OutCh.behind { t.outCh n with credit := (t.outCh n).credit - packetsOf len } (packetsOf len) := by
      rw [Tile.sendOut, hb]
      rfl
    have hcount : ((upTo (packetsOf len)).map (t.headerAt n)).length = packetsOf len := by rw [List.length_map, upTo, List.length_range]
    have hsent := Tile.sent_sending (w := { t with pad := p, counts := c }) hn (t.pad.mem.bytes a len) (sourcePoison t.pad a len) hb
      rfl hmem rfl rfl
    rw [hdata] at hsent
    have hon := Tile.handOn_heads (t := { t.putOut n (t.sendOut n len) with pad := p, counts := c }) (hp hb) hheads hdata hcount rfl rfl
    rw [hcount, zip_upTo_map, List.map_map] at hon
    rw [← hx] at hsent
    exact .withSends l (hon ▸ hsent.congr rfl rfl rfl rfl rfl)
  | b :: bl =>
    have hheads : (t.sendOpRead n a len take).heads = none := if_neg (by rw [hb]; exact Bool.false_ne_true)
    have hx : t.sendOut n len = { t.outCh n with credit := (t.outCh n).credit - packetsOf len } := by
      rw [Tile.sendOut, hb]
      rfl
    have hsent := Tile.sent_staging (w := { t with pad := p, counts := c }) hn (t.pad.mem.bytes a len) (sourcePoison t.pad a len) hb
      rfl hmem rfl rfl
    rw [hdata] at hsent
    have hon := Tile.handOn_staged (t := { t.putOut n (t.sendOut n len) with pad := p, counts := c }) hb (hseq b bl hb) hheads
      hdata rfl rfl
    rw [← hx] at hsent
    exact .withSends l (hon ▸ hsent.congr rfl rfl rfl (List.append_nil _).symm rfl)

/-- A memory send of more than 64 bytes is read for its first 64 at issue, and goes on (R305). -/
theorem Tile.sendMem_long (hn : n < 32) (hlen : 64 < len) (hfe : take = true → ∀ m, (t.inCh m).bound = false) :
    ∃ p c, t.sendMem t.sch.cycle n a len take =
        { t.putOut n (t.sendOut n len) with
          pad := p, counts := c, sends := t.sends ++ [(t.sendOpAt n a len take).readFrom t.pad] } ∧
      p.mem = t.pad.mem ∧ p.full = (if take then NatSet.delAll t.pad.full (granules a 64) else t.pad.full) := by
  obtain ⟨p, c, hread, hmem, hfull⟩ := ReadsB_sendOp (len := len) (a := a) (n := n) hfe (t.sendOut n len)
  have hmin : Nat.min 64 len = 64 := Nat.min_eq_left (Nat.le_of_lt hlen)
  have hdata : ((t.sendOpAt n a len take).readFrom t.pad).data.length = 64 :=
    (Memory.bytes_length _ _ _).trans hmin
  rw [hmin] at hfull
  refine ⟨p, c, ?_, hmem, hfull⟩
  rw [Tile.sendMem_eq hn, hread, Tile.runSends_waits rfl (by rw [hdata]; exact hlen)]
  · rfl
  · rw [hdata]
    exact Nat.lt_succ_self _

/-- A memory send at issue changes neither the schedule nor the reports. -/
theorem Tile.sendMem_frame (hn : n < 32) (hr : t.reading n = false) (hfe : take = true → ∀ m, (t.inCh m).bound = false) :
    (t.sendMem t.sch.cycle n a len take).sch = t.sch ∧ (t.sendMem t.sch.cycle n a len take).recs = t.recs ∧
      (t.sendMem t.sch.cycle n a len take).pad.full =
        (if take then NatSet.delAll t.pad.full (granules a (Nat.min 64 len)) else t.pad.full) := by
  rcases Nat.lt_or_ge 64 len with hlen | hlen
  · obtain ⟨p, c, hw, -, hfull⟩ := Tile.sendMem_long (a := a) hn hlen hfe
    rw [hw, show Nat.min 64 len = 64 from Nat.min_eq_left (Nat.le_of_lt hlen)]
    exact ⟨rfl, rfl, hfull⟩
  · obtain ⟨p, c, l, hw, -, hfull⟩ := Tile.sendMem_short (a := a) hn hlen hr hfe
    obtain ⟨_, _, _, _, hon⟩ := Tile.HandsOn.handOn { t.putOut n (t.sendOut n len) with pad := p, counts := c }
      (t.sendOpRead n a len take)
    rw [hw, hon]
    exact ⟨rfl, rfl, hfull⟩

end

section
variable {s : State} {h : Hdr} {c l : BitVec 5} {q : BitVec 2} {bs : BitVec 4} {tag : BitVec 3}

/-- A CHSENDM whose checks pass: its source and its channel (R304 to R306). -/
structure State.SendsMem (s : State) (c : BitVec 5) (bs : BitVec 4) (l : BitVec 5) (q : BitVec 2) (tag : BitVec 3) : Prop where
  tagFree : s.core.tagFree tag = true
  route : (s.core.outCh c.toNat).entry.getLsbD 63 = true
  alive : (s.core.outCh c.toNat).dead = false
  quiet : s.core.reading c.toNat = false
  aligned : (s.core.ra bs).toNat % 4 = 0
  words : (s.core.rs l).toNat % 4 = 0
  least : 4 ≤ (s.core.rs l).toNat
  most : (s.core.rs l).toNat ≤ 2048
  inside : (s.core.ra bs).toNat + (s.core.rs l).toNat ≤ padSize
  gran : q ≠ 0#2 → (s.core.ra bs).toNat % 16 = 0 ∧ (s.core.rs l).toNat % 16 = 0 ∧
    ∀ g ∈ granules (s.core.ra bs).toNat (s.core.rs l).toNat, s.core.pad.full.has g = true
  unbound : q = 2#2 → ∀ m, (s.core.inCh m).bound = false
  credit : packetsOf (s.core.rs l).toNat ≤ (s.core.outCh c.toNat).credit
  room : s.core.roomFor (sendRoom (s.core.rs l).toNat) = true

/-- The tile behind the effect of a CHSENDM. -/
abbrev Tile.sentMem (t : Tile) (c : BitVec 5) (bs : BitVec 4) (l : BitVec 5) (q : BitVec 2) : Tile :=
  t.sendMem t.sch.cycle c.toNat (t.ra bs).toNat (t.rs l).toNat (q == 2#2)

theorem State.SendsMem.take (hm : s.SendsMem c bs l q tag) : (q == 2#2) = true → ∀ m, (s.core.inCh m).bound = false :=
  fun htake => hm.unbound (eq_of_beq htake)

theorem chsendm_issues (hs : s.Ready h.guard) (hm : s.SendsMem c bs l q tag) :
    Issues (.chsendm h c bs l q tag) s ((s.core.sentMem c bs l q).sendTag tag (ceilDiv (s.core.rs l).toNat 64 + 1)
      (s.core.slotInfo (.chsendm h c bs l q tag) 0)) := by
  obtain ⟨hsch, hrecs, -⟩ := Tile.sendMem_frame (a := (s.core.ra bs).toNat) (len := (s.core.rs l).toNat) c.isLt hm.quiet hm.take
  have htag := (s.core.sentMem c bs l q).sendTag_eq tag (ceilDiv (s.core.rs l).toNat 64 + 1)
    (s.core.slotInfo (.chsendm h c bs l q tag) 0)
  refine issues_of_effect _ hs rfl rfl rfl (Check.all_ok_iff.mpr fun x hx => ?_) ?_ ?_ ?_
  · have hrun : runCause (s.core.ra bs).toNat (Nat.max 1 (s.core.rs l).toNat) = none := by
      refine if_pos ?_
      rw [show Nat.max 1 (s.core.rs l).toNat = (s.core.rs l).toNat from Nat.max_eq_right (le_trans (by decide) hm.least)]
      exact hm.inside
    simp only [List.mem_cons, List.not_mem_nil, or_false, hrun] at hx
    rcases hx with rfl | rfl | rfl | rfl | rfl | rfl | rfl | rfl
    · exact need_of_true hm.tagFree
    · exact routeCheck_ok hm.route hm.alive
    · refine need_of_true ?_
      by_cases hq : q = 0#2
      · simp [hm.aligned, hq]
      · obtain ⟨ha, hl, -⟩ := hm.gran hq
        simp [hm.aligned, ha, hl]
    · rfl
    · exact need_of_true (by simp [hm.words, hm.least, hm.most])
    · exact sendCheck_ok hm.room
    · by_cases hq : q = 0#2
      · exact if_pos hq
      · obtain ⟨-, -, hfull⟩ := hm.gran hq
        have hfail : firstFail (granules (s.core.ra bs).toNat (Nat.min (s.core.rs l).toNat 2048)) s.core.pad.full.has = none := by
          rw [show Nat.min (s.core.rs l).toNat 2048 = (s.core.rs l).toNat from Nat.min_eq_left hm.most]
          refine List.find?_eq_none.mpr fun g hg => ?_
          rw [hfull g hg]
          decide
        rw [if_neg hq, hfail]
    · exact creditWait_ok hm.credit
  all_goals obtain ⟨_, _, htag⟩ := htag; simp only [htag]
  · exact (congrArg Sched.closing hsch).trans hs.between.noClosing
  · exact (congrArg Sched.status hsch).trans hs.between.running
  · exact hrecs.trans hs.between.noReports

theorem chsendm_behind (hs : s.Ready h.guard) (hm : s.SendsMem c bs l q tag) :
    ∃ u, exec (.chsendm h c bs l q tag) s = .next u ∧ u.core.files = (s.core.sentMem c bs l q).files ∧
      u.core.pad = (s.core.sentMem c bs l q).pad ∧ u.core.outs = (s.core.sentMem c bs l q).outs ∧
      u.core.out = (s.core.sentMem c bs l q).out ∧ u.core.blocks = (s.core.sentMem c bs l q).blocks ∧
      u.core.sends = (s.core.sentMem c bs l q).sends := by
  obtain ⟨hsch, -, -⟩ := Tile.sendMem_frame (a := (s.core.ra bs).toNat) (len := (s.core.rs l).toNat) c.isLt hm.quiet hm.take
  obtain ⟨_, _, htag⟩ := (s.core.sentMem c bs l q).sendTag_eq tag (ceilDiv (s.core.rs l).toNat 64 + 1)
    (s.core.slotInfo (.chsendm h c bs l q tag) 0)
  obtain ⟨u, hexec, hb, -⟩ := (htag ▸ chsendm_issues hs hm).behind ((congrArg Sched.closing hsch).trans hs.between.noClosing)
  exact ⟨u, hexec, hb.files, hb.pad, hb.outs, hb.out, hb.blocks, hb.sends⟩

end

theorem mem_granules {a n : Nat} (ha : a % 16 = 0) (hn : n % 16 = 0) (g : Nat) :
    g ∈ granules a n ↔ a / 16 ≤ g ∧ g < (a + n) / 16 := by
  unfold granules
  split
  · simp only [List.not_mem_nil, false_iff]
    omega
  · simp only [upTo, List.mem_map, List.mem_range]
    constructor
    · rintro ⟨k, hk, rfl⟩
      omega
    · intro hg
      exact ⟨g - a / 16, by omega, by omega⟩

theorem full_leaves {full : NatSet} (h : NatSet.wf full = true) {take : Bool} {a n : Nat}
    (hal : take = true → a % 16 = 0 ∧ n % 16 = 0) (g : Nat) :
    NatSet.has (if take then NatSet.delAll full (granules a n) else full) g =
      (full.has g && !(take && decide (a / 16 ≤ g) && decide (g < (a + n) / 16))) := by
  cases take with
  | false => simp
  | true =>
    obtain ⟨ha, hn⟩ := hal rfl
    rw [if_pos rfl, NatSet.has_delAll h]
    simp [mem_granules ha hn g]

/-! A memory send goes on. -/

theorem sourcePoison_clean {p : Pad} (hb : p.bad = []) (hp : p.poison = []) (a len : Nat) : sourcePoison p a len = [] := by
  rw [sourcePoison, hb, hp]
  simp [NatSet.has, NatSet.addAll]

theorem packetPoison_nil (j : Nat) : packetPoison [] j = [] := rfl

/-- The last read of a memory send, and its hand-off (R305). -/
theorem Tile.progressSends_last {t : Tile} {o : SendOp} {hs : List PHead} (hsends : t.sends = [o]) (hp : t.pair = none)
    (hbad : t.pad.bad = []) (hpoison : t.pad.poison = []) (hg : o.gone = false) (hh : o.heads = some hs) (hm : o.msgs = [])
    (he : o.effs = []) (hop : o.poison = []) (hq : o.take = true → t.pad.queue = [] ∧ ∀ m, (t.inCh m).bound = false)
    (hlen : hs.length = packetsOf o.len) (hlt : o.data.length < o.len) (hle : o.len ≤ o.data.length + 64)
    (hcyc : o.issued + o.data.length / 64 ≤ t.sch.cycle) :
    ∃ p c l, t.progressSends = { t with
        pad := p, counts := c, sends := l,
        out := t.out ++ (((upTo hs.length).zip hs).map fun x => .packet x.2
          (packetPart (o.data ++ t.pad.mem.bytes (o.addr + o.data.length) (o.len - o.data.length)) x.1) [] false) } ∧
      p.mem = t.pad.mem ∧ p.full = o.leaves t.pad.full (o.addr + o.data.length) (o.len - o.data.length) ∧
      (o.done ≤ t.sch.cycle → l = []) := by
  obtain ⟨w, hw⟩ : ∃ w : Tile, w = { t with sends := [] } := ⟨_, rfl⟩
  have hmin : Nat.min 64 (o.len - o.data.length) = o.len - o.data.length := Nat.min_eq_right (by omega)
  obtain ⟨p, c, hread, hmem, hfull⟩ := Tile.readSome_readsB (t := w) (o := o) fun htake => hw ▸ (hq htake).2
  have hpad : w.pad = t.pad := hw ▸ rfl
  have hbefore : (if o.take then w.beforeB (granules (o.addr + o.data.length) (Nat.min 64 (o.len - o.data.length))) else w) = w := by
    split
    · next htake =>
      rw [Tile.beforeB, hpad, (hq htake).1]
      rfl
    · rfl
  have hnext : (w.readSome o).2 =
      { o with data := o.data ++ t.pad.mem.bytes (o.addr + o.data.length) (o.len - o.data.length), poison := [] } := by
    have hpoison' := sourcePoison_clean hbad hpoison (o.addr + o.data.length) (o.len - o.data.length)
    rw [Tile.readSome]
    simp only [hmin, hpad, hpoison', hop, List.map_nil]
    rfl
  obtain ⟨o', ho'⟩ : ∃ o', o' = (w.readSome o).2 := ⟨_, rfl⟩
  rw [hnext] at ho'
  have hdata : o'.data.length = o'.len := by
    rw [ho', List.length_append, Memory.bytes_length]
    dsimp only
    omega
  have hon : Tile.readOn 33 w o = ({ w with pad := p, counts := c }, o') := by
    have hwcyc : o.issued + o.data.length / 64 ≤ w.sch.cycle := hw ▸ hcyc
    rw [Tile.readOn, if_pos ⟨hlt, hwcyc⟩]
    dsimp only
    rw [hbefore, hread, hnext, ← ho']
    exact Tile.readOn_stop 32 fun h => absurd h.1 (by omega)
  have hgone : o'.gone = false := ho' ▸ hg
  have hready : Tile.reading { w with pad := p, counts := c } o'.ch = false := by
    rw [Tile.reading, hw]
    rfl
  have hhand := Tile.handOn_heads (t := { w with pad := p, counts := c }) (o := o') (by rw [hw]; exact hp) (by rw [ho']; exact hh) hdata
    (by rw [ho']; exact hlen) (by rw [ho']; exact hm) (by rw [ho']; exact he)
  have hrun := Tile.runSends_ready hon hgone hdata hready
  rw [hhand] at hrun
  have hprog : t.progressSends = Tile.runSends [o] w := by rw [Tile.progressSends, hsends, hw]
  rw [hprog, hrun, hw, ho']
  rw [hmin, hpad] at hfull
  rw [hpad] at hmem
  split
  · exact ⟨p, c, [], rfl, hmem, hfull, fun _ => rfl⟩
  · next hlate => exact ⟨p, c, _, rfl, hmem, hfull, fun hdone => absurd hdone hlate⟩

/-! Contributions to a tree. -/

/-- The tile in which a tree is as given. -/
def Tile.putTree (t : Tile) (n : Nat) (x : Tree) : Tile := { t with trees := t.trees.setIfInBounds n x }

theorem Tile.withTree_eq (t : Tile) {n : Nat} (hn : n < 8) (f : Tree → Tree) : t.withTree n f = t.putTree n (f (t.tree n)) := by
  rw [Tile.withTree, Tile.tree, Vector.getElem?_eq_getElem hn]
  rfl

theorem Tile.tree_putTree (t : Tile) {n : Nat} (hn : n < 8) (x : Tree) : (t.putTree n x).tree n = x := by
  rw [Tile.putTree, Tile.tree, Vector.getElem?_setIfInBounds_self_of_lt hn, Option.getD_some]

theorem mem_insertPending (p : Pending) (l : List Pending) : p ∈ insertPending p l := by
  induction l with
  | nil => exact List.mem_cons_self
  | cons q l ih =>
    unfold insertPending
    split
    · exact List.mem_cons_self
    · exact List.mem_cons_of_mem _ ih

/-- A cause that no handler's instruction raised waits for the next boundary (R323). -/
theorem Tile.await_waits {t : Tile} {seq : Option Nat} (htm : t.sch.tm = false ∨ seq = none) (hlen : t.sch.pend.length < 32)
    (c : Cause) (unit : Nat) (faddr info : DWord) : t.await c seq unit faddr info =
      t.withSch fun s => { s with pend := insertPending ⟨c, faddr, info, s.cycle, unit, seq⟩ s.pend } := by
  unfold Tile.await
  rw [if_neg, if_neg (Nat.not_le.mpr hlen)]
  rcases htm with htm | rfl
  · rw [htm, Bool.false_and]
    exact Bool.false_ne_true
  · rw [Bool.and_false]
    exact Bool.false_ne_true

theorem toList_lanes (v : VReg) : v.toList = (upTo 16).map (lane v) := by
  refine List.ext_getElem (by simp [upTo]) fun k hk _ => ?_
  have hk16 : k < 16 := by simpa using hk
  simp [lane, hk16, upTo]

theorem vBytes_lanes (v : VReg) : vBytes v = (upTo 16).flatMap fun j => wordBytes (lane v j) := by
  rw [vBytes, toList_lanes, List.flatMap_map]

section
variable {s : State} {h : Hdr} {j : BitVec 3} {v : BitVec 5} {two int : Bool} {tag : BitVec 3}

/-- The tree of a CHRED behind its issue. -/
def Tile.treeNext (t : Tile) (n : Nat) : Tree :=
  { t.tree n with count := ((t.tree n).count + 1) % 2 ^ 16, abandoned := (t.tree n).abandoned.filter (· != (t.tree n).count) }

/-- A CHRED whose checks pass issues with a tile that its contribution, or its cause, has left (R309). -/
theorem chred_behind (hs : s.Ready h.guard) (hfree : s.core.tagFree tag = true)
    (hv : (s.core.tree j.toNat).entry.getLsbD 63 = true) (hl : (s.core.tree j.toNat).entry.getLsbD 55 = true)
    (htwo : (s.core.tree j.toNat).entry.getLsbD 51 = two) (hint : (s.core.tree j.toNat).entry.getLsbD 54 = int)
    (hgo : (s.core.tree j.toNat).count ∈ (s.core.tree j.toNat).abandoned ∨ s.core.localBusy j.toNat = false) {w : Tile}
    (hw : (if (s.core.tree j.toNat).abandoned.elem (s.core.tree j.toNat).count then
        (s.core.putTree j.toNat (s.core.treeNext j.toNat)).raise .rdtmo (some s.core.sch.seq) 2 0#64
          (treeInfo j.toNat (s.core.tree j.toNat).count)
      else (s.core.putTree j.toNat (s.core.treeNext j.toNat)).emit false (.partial_ s.core.coord j.toNat .loc (s.core.tree j.toNat).count
        ((upTo (if two then 2 else 1)).flatMap fun i => (upTo 16).map fun k => lane (s.core.rv (v.toNat + i)) k))) = w)
    (hcl : w.sch.closing = []) (hst : w.sch.status = .running) (hrecs : w.recs = []) :
    ∃ u, exec (.chred h j v two int tag) s = .next u ∧ u.core.files = w.files ∧ u.core.pad = w.pad ∧ u.core.out = w.out ∧
      u.core.trees = w.trees ∧ u.core.sch.pend = w.sch.pend := by
  obtain ⟨_, _, htag⟩ := w.sendTag_eq tag 1 (s.core.slotInfo (.chred h j v two int tag) 0)
  have hissue : Issues (.chred h j v two int tag) s (w.sendTag tag 1 (s.core.slotInfo (.chred h j v two int tag) 0)) := by
    refine issues_of_effect _ hs rfl ?_ rfl (Check.all_ok_iff.mpr fun x hx => ?_) ?_ ?_ ?_
    · rw [← hw]
      simp only [Tile.withTree_eq _ j.isLt, toList_lanes]
      rfl
    · simp only [List.mem_cons, List.not_mem_nil, or_false] at hx
      rcases hx with rfl | rfl | rfl | rfl
      · exact need_of_true hfree
      · exact need_of_true (by
          show ((s.core.tree j.toNat).entry.getLsbD 63 && (s.core.tree j.toNat).entry.getLsbD 55) = true
          rw [hv, hl]
          rfl)
      · exact need_of_true (by rw [htwo, hint, beq_self_eq_true, beq_self_eq_true]; rfl)
      · refine if_pos ?_
        rcases hgo with hgo | hgo
        · rw [List.elem_eq_true_of_mem hgo, Bool.or_true, Bool.true_or]
        · rw [hgo, Bool.not_false, Bool.or_true]
    · rw [htag]; exact hcl
    · rw [htag]; exact hst
    · rw [htag]; exact hrecs
  obtain ⟨u, hexec, hb, -⟩ := (htag ▸ hissue).behind hcl
  exact ⟨u, hexec, hb.files, hb.pad, hb.out, hb.trees, hb.pend⟩

end

/-! The statement. -/

theorem roomFor_of_no_block {t : Tile} (h : t.blocks = []) (n : Nat) : t.roomFor n = true := by
  rw [Tile.roomFor, h]
  rfl

/-- What the two clauses on a payload ask follows from `Tile.Sent`. -/
theorem leaves_of_sent {s : State} {i : Instr} {c : Nat} {payload : List Byte} {poison : NatSet}
    (h : (s.core.blocks = [] → s.core.pair = none) → (∀ b bl, s.core.blocks = b :: bl → b.seq ≤ s.core.sch.seq) →
      s.core.roomFor (sendRoom payload.length) = true → packetsOf payload.length ≤ (s.core.outCh c).credit →
      ∃ u, exec i s = .next u ∧ s.core.Sent c payload poison u.core)
    (hcr : (payload.length + 255) / 256 ≤ (s.core.outCh c).credit) :
    (s.core.blocks = [] → s.core.pair = none → ∃ u, exec i s = .next u ∧
      (u.core.files = s.core.files ∧ u.core.pad.mem = s.core.pad.mem ∧
        (u.core.outCh c).credit = (s.core.outCh c).credit - (payload.length + 255) / 256 ∧
        ∀ m, m ≠ c → u.core.outCh m = s.core.outCh m) ∧
      (u.core.outCh c).seq = (s.core.outCh c).seq + BitVec.ofNat 32 ((payload.length + 255) / 256) ∧
      u.core.out = s.core.out ++ (upTo ((payload.length + 255) / 256)).map fun k =>
        .packet (s.core.headerAt c k) (packetPart payload k) (packetPoison poison k) false) ∧
    (∀ b bl, s.core.blocks = b :: bl → b.seq ≤ s.core.sch.seq → s.core.roomFor (sendRoom payload.length) = true →
      ∃ u, exec i s = .next u ∧
      (u.core.files = s.core.files ∧ u.core.pad.mem = s.core.pad.mem ∧
        (u.core.outCh c).credit = (s.core.outCh c).credit - (payload.length + 255) / 256 ∧
        ∀ m, m ≠ c → u.core.outCh m = s.core.outCh m) ∧
      (u.core.outCh c).seq = (s.core.outCh c).seq ∧ u.core.out = s.core.out ∧
      u.core.blocks = b.stagedBy ((upTo ((payload.length + 255) / 256)).map fun k =>
        .packet c (packetPart payload k) (packetPoison poison k)) :: bl) := by
  rw [← packetsOf_eq] at hcr ⊢
  refine ⟨fun hb hp => ?_, fun b bl hb hseq hroom => ?_⟩
  · obtain ⟨u, hexec, hmoves, hout, -⟩ := h (fun _ => hp) (fun b bl h => by rw [hb] at h; simp at h) (roomFor_of_no_block hb _) hcr
    obtain ⟨hf, hm, hc, ho⟩ := hmoves
    exact ⟨u, hexec, ⟨hf, hm, hc, ho⟩, hout hb hp⟩
  · have hne : ¬ s.core.blocks = [] := by
      rw [hb]
      simp
    obtain ⟨u, hexec, hmoves, -, hin⟩ := h (fun h => absurd h hne)
      (fun b' bl' h => (List.cons.inj (hb.symm.trans h)).1 ▸ hseq) hroom hcr
    obtain ⟨hf, hm, hc, ho⟩ := hmoves
    exact ⟨u, hexec, ⟨hf, hm, hc, ho⟩, hin b bl hb hseq⟩

section
variable {s : State} {h : Hdr} {c l : BitVec 5} {q : BitVec 2} {bs : BitVec 4} {tag : BitVec 3}

theorem chsendm_sends (hs : s.Ready h.guard) (hm : s.SendsMem c bs l q tag) (hlen : (s.core.rs l).toNat ≤ 64)
    (hp : s.core.blocks = [] → s.core.pair = none) (hseq : ∀ b bl, s.core.blocks = b :: bl → b.seq ≤ s.core.sch.seq) :
    ∃ u, exec (.chsendm h c bs l q tag) s = .next u ∧
      s.core.Sent c.toNat (s.core.pad.mem.bytes (s.core.ra bs).toNat (s.core.rs l).toNat)
        (sourcePoison s.core.pad (s.core.ra bs).toNat (s.core.rs l).toNat) u.core := by
  obtain ⟨u, hexec, hf, hpad, houts, hout, hblocks, -⟩ := chsendm_behind hs hm
  exact ⟨u, hexec, (Tile.sendMem_sent c.isLt hlen hm.quiet hm.take hp hseq).congr hf (congrArg Pad.mem hpad) houts hout hblocks⟩

theorem chsendm_empties (hs : s.Ready h.guard) (hm : s.SendsMem c bs l q tag) (hlen : (s.core.rs l).toNat ≤ 64)
    (hwf : NatSet.wf s.core.pad.full = true) :
    ∃ u, exec (.chsendm h c bs l q tag) s = .next u ∧ ∀ g, u.core.pad.full.has g = (s.core.pad.full.has g &&
      !(q == 2#2 && decide ((s.core.ra bs).toNat / 16 ≤ g) && decide (g < ((s.core.ra bs).toNat + (s.core.rs l).toNat) / 16))) := by
  obtain ⟨u, hexec, -, hpad, -⟩ := chsendm_behind hs hm
  obtain ⟨-, -, hfull⟩ := Tile.sendMem_frame (a := (s.core.ra bs).toNat) (len := (s.core.rs l).toNat) c.isLt hm.quiet hm.take
  rw [show Nat.min 64 (s.core.rs l).toNat = (s.core.rs l).toNat from Nat.min_eq_right hlen] at hfull
  refine ⟨u, hexec, fun g => ?_⟩
  rw [congrArg Pad.full hpad, hfull]
  refine full_leaves hwf (fun hq => ?_) g
  obtain ⟨ha, hl, -⟩ := hm.gran (by rw [eq_of_beq hq]; decide)
  exact ⟨ha, hl⟩

theorem sendOut_seq (t : Tile) (n len : Nat) : (t.sendOut n len).seq =
    if t.blocks = [] then (t.outCh n).seq + BitVec.ofNat 32 ((len + 255) / 256) else (t.outCh n).seq := by
  rw [Tile.sendOut, ← packetsOf_eq]
  cases t.blocks <;> rfl

theorem sendOpAt_heads (t : Tile) (n a len : Nat) (take : Bool) : (t.sendOpAt n a len take).heads =
    if t.blocks = [] then some ((upTo ((len + 255) / 256)).map (t.headerAt n)) else none := by
  rw [Tile.sendOpAt, ← packetsOf_eq]
  cases t.blocks <;> rfl

/-- A CHSENDM of more than 64 bytes goes on as a memory send. -/
theorem chsendm_goes (hs : s.Ready h.guard) (hm : s.SendsMem c bs l q tag) (hlen : 64 < (s.core.rs l).toNat) :
    ∃ u, exec (.chsendm h c bs l q tag) s = .next u ∧
      s.core.SendMoves u.core c.toNat (((s.core.rs l).toNat + 255) / 256) ∧ u.core.out = s.core.out ∧
      (u.core.outCh c.toNat).seq = (s.core.sendOut c.toNat (s.core.rs l).toNat).seq ∧ u.core.blocks = s.core.blocks ∧
      u.core.sends = s.core.sends ++
        [(s.core.sendOpAt c.toNat (s.core.ra bs).toNat (s.core.rs l).toNat (q == 2#2)).readFrom s.core.pad] ∧
      (NatSet.wf s.core.pad.full = true → ∀ g, u.core.pad.full.has g = (s.core.pad.full.has g &&
        !(q == 2#2 && decide ((s.core.ra bs).toNat / 16 ≤ g) && decide (g < (s.core.ra bs).toNat / 16 + 4)))) := by
  obtain ⟨u, hexec, hf, hpad, houts, hout, hblocks, hsends⟩ := chsendm_behind hs hm
  obtain ⟨p, k, hw, hmem, hfull⟩ := Tile.sendMem_long (a := (s.core.ra bs).toNat) (n := c.toNat) c.isLt hlen hm.take
  rw [Tile.sentMem, hw] at hf hpad houts hout hblocks hsends
  have hch : ∀ m, u.core.outCh m = if m = c.toNat then s.core.sendOut c.toNat (s.core.rs l).toNat else s.core.outCh m := by
    intro m
    rw [Tile.outCh, houts]
    exact s.core.outCh_putOut c.isLt _ m
  refine ⟨u, hexec, ⟨hf, (congrArg Pad.mem hpad).trans hmem, ?_, fun m hne => ?_⟩, hout, ?_, hblocks, hsends, fun hwf g => ?_⟩
  · rw [hch, if_pos rfl, ← packetsOf_eq]
    rfl
  · rw [hch, if_neg hne]
  · rw [hch, if_pos rfl]
  · have hal : (q == 2#2) = true → (s.core.ra bs).toNat % 16 = 0 ∧ 64 % 16 = 0 := fun hq =>
      ⟨(hm.gran (by rw [eq_of_beq hq]; decide)).1, rfl⟩
    rw [congrArg Pad.full hpad]
    refine (congrArg (NatSet.has · g) hfull).trans ((full_leaves hwf hal g).trans ?_)
    rw [show ((s.core.ra bs).toNat + 64) / 16 = (s.core.ra bs).toNat / 16 + 4 by omega]

end

/-- A round already abandoned sends nothing and raises RDTMO (R309). -/
theorem chred_abandoned {s : State} {h : Hdr} {j : BitVec 3} {v : BitVec 5} {two int : Bool} {tag : BitVec 3}
    (hs : s.Ready h.guard) (hfree : s.core.tagFree tag = true)
    (hv : (s.core.tree j.toNat).entry.getLsbD 63 = true) (hl : (s.core.tree j.toNat).entry.getLsbD 55 = true)
    (htwo : (s.core.tree j.toNat).entry.getLsbD 51 = two) (hint : (s.core.tree j.toNat).entry.getLsbD 54 = int)
    (hgo : (s.core.tree j.toNat).count ∈ (s.core.tree j.toNat).abandoned) (htm : s.core.sch.tm = false)
    (hlen : s.core.sch.pend.length < 32) :
    ∃ u p, exec (.chred h j v two int tag) s = .next u ∧ u.core.out = s.core.out ∧ p ∈ u.core.sch.pend ∧ p.cause = .rdtmo ∧
      p.info = treeInfo j.toNat (s.core.tree j.toNat).count ∧
      (u.core.tree j.toNat).count = ((s.core.tree j.toNat).count + 1) % 2 ^ 16 ∧
      u.core.files = s.core.files ∧ u.core.pad = s.core.pad := by
  have hraise : (s.core.putTree j.toNat (s.core.treeNext j.toNat)).raise .rdtmo (some s.core.sch.seq) 2 0#64
      (treeInfo j.toNat (s.core.tree j.toNat).count) =
        (s.core.putTree j.toNat (s.core.treeNext j.toNat)).withSch fun x => { x with
          pend := insertPending ⟨.rdtmo, 0#64, treeInfo j.toNat (s.core.tree j.toNat).count, x.cycle, 2, some s.core.sch.seq⟩ x.pend } :=
    Tile.await_waits (t := s.core.putTree j.toNat (s.core.treeNext j.toNat)) (.inl htm) hlen _ _ _ _
  obtain ⟨u, hexec, hf, hpad, hout, htrees, hpend⟩ := chred_behind (v := v) (tag := tag) hs hfree hv hl htwo hint (.inl hgo)
    ((if_pos (List.elem_eq_true_of_mem hgo)).trans hraise) hs.between.noClosing hs.between.running hs.between.noReports
  refine ⟨u, ⟨.rdtmo, 0#64, treeInfo j.toNat (s.core.tree j.toNat).count, s.core.sch.cycle, 2, some s.core.sch.seq⟩, hexec, hout, ?_,
    rfl, rfl, ?_, hf, hpad⟩
  · rw [hpend]
    exact mem_insertPending _ _
  rw [Tile.tree, htrees]
  exact congrArg Tree.count (s.core.tree_putTree j.isLt (s.core.treeNext j.toNat))

/-- A contribution goes to the tree's local input with the tile's round (R309). -/
theorem chred_contributes {s : State} {h : Hdr} {j : BitVec 3} {v : BitVec 5} {two int : Bool} {tag : BitVec 3}
    (hs : s.Ready h.guard) (hfree : s.core.tagFree tag = true) (hp : s.core.pair = none)
    (hv : (s.core.tree j.toNat).entry.getLsbD 63 = true) (hl : (s.core.tree j.toNat).entry.getLsbD 55 = true)
    (htwo : (s.core.tree j.toNat).entry.getLsbD 51 = two) (hint : (s.core.tree j.toNat).entry.getLsbD 54 = int)
    (hgo : (s.core.tree j.toNat).count ∉ (s.core.tree j.toNat).abandoned) (hbusy : s.core.localBusy j.toNat = false) :
    ∃ u, exec (.chred h j v two int tag) s = .next u ∧
      u.core.out = s.core.out ++ [.partial_ s.core.coord j.toNat .loc (s.core.tree j.toNat).count
        ((upTo (if two then 2 else 1)).flatMap fun i => (upTo 16).map fun k => lane (s.core.rv (v.toNat + i)) k)] ∧
      (u.core.tree j.toNat).count = ((s.core.tree j.toNat).count + 1) % 2 ^ 16 ∧
      u.core.files = s.core.files ∧ u.core.pad = s.core.pad := by
  have helem : (s.core.tree j.toNat).abandoned.elem (s.core.tree j.toNat).count = false := by simpa using hgo
  obtain ⟨u, hexec, hf, hpad, hout, htrees, -⟩ := chred_behind (v := v) (tag := tag) hs hfree hv hl htwo hint (.inr hbusy)
    ((if_neg (by rw [helem]; exact Bool.false_ne_true)).trans
      (Tile.emitAs_unpaired (t := s.core.putTree j.toNat (s.core.treeNext j.toNat)) hp _ _ _ _))
    hs.between.noClosing hs.between.running hs.between.noReports
  refine ⟨u, hexec, hout, ?_, hf, hpad⟩
  rw [Tile.tree, htrees]
  exact congrArg Tree.count (s.core.tree_putTree j.isLt (s.core.treeNext j.toNat))

/-- Settles O37: the three sends and what each moves, a memory send that goes on, and the contribution to a tree. -/
theorem channelSends : Obligations.ChannelSends := by
  refine ⟨?_, ?_, ?_⟩
  · intro s h c v l k q src bs t hs hfree o hv hd hr head moves leaves vectors reg sh a len
    refine ⟨?_, fun hshape hring => ?_, fun ha hlen hmin hmax hin hgran hbound => ?_⟩
    · have hpay : vectors = (upTo (k.toNat + 1)).flatMap fun i => vBytes (s.core.rv (v.toNat + i)) := by
        simp only [vBytes_lanes]
        rfl
      have hlen : vectors.length = 64 * (k.toNat + 1) := by
        rw [hpay, List.length_flatMap]
        simp [vBytes_length, upTo, Nat.mul_comm]
      exact leaves_of_sent fun hp _ hroom hcr => chsendv_sends hs hfree hv hd hr hp hlen hpay hcr hroom
    · exact leaves_of_sent fun hp _ hroom hcr => chsendt_sends hs hfree hv hd hr hp hshape hring rfl hcr hroom
    · have hsends : packetsOf len ≤ o.credit → s.core.roomFor (sendRoom len) = true → s.SendsMem c bs l q t := fun hcr hroom =>
        ⟨hfree, hv, hd, hr, ha, hlen, hmin, hmax, hin, hgran, hbound, hcr, hroom⟩
      refine ⟨fun hshort => ?_, fun hshort hcr hb hwf => ?_, ?_⟩
      · refine leaves_of_sent fun hp hseq hroom hcr => ?_
        rw [Memory.bytes_length] at hroom hcr
        exact chsendm_sends hs (hsends hcr hroom) hshort hp hseq
      · have hone : packetsOf len ≤ o.credit := by
          rw [packetsOf_eq]
          omega
        exact chsendm_empties hs (hsends hone (roomFor_of_no_block hb _)) hshort hwf
      · intro hlong hroom n hcr
        have hcr' : packetsOf len ≤ o.credit := by rwa [packetsOf_eq]
        obtain ⟨u, hexec, hmoves, hout, hseq, hblocks, hadd, hfull⟩ := chsendm_goes hs (hsends hcr' hroom) hlong
        obtain ⟨hf, hm, hc, ho⟩ := hmoves
        have hdata : Nat.min 64 (len - 0) = 64 := Nat.min_eq_left (Nat.le_of_lt hlong)
        refine ⟨u, _, hexec, ⟨hf, hm, hc, ho⟩, hout, hseq.trans (sendOut_seq ..), hblocks, hadd, rfl, rfl, rfl, rfl, rfl, rfl, ?_,
          sendOpAt_heads s.core c.toNat a len (q == 2#2), rfl, rfl, rfl, rfl, hfull⟩
        rw [SendOp.readFrom]
        exact congrArg (s.core.pad.mem.bytes a) hdata
  · intro t o hs hsends hp hbad hpoison hg hh hm he hop htake hwf hlen k all hlt hle hcyc
    have hn : hs.length = packetsOf o.len := by rw [packetsOf_eq, hlen]
    obtain ⟨p, c, l, hw, hmem, hfull, hdone⟩ := Tile.progressSends_last hsends hp hbad hpoison hg hh hm he hop
      (fun h => (htake h).2.2.2) hn hlt hle hcyc
    rw [hw]
    refine ⟨rfl, rfl, hmem, fun g => ?_, hdone⟩
    refine (congrArg (NatSet.has · g) hfull).trans ((full_leaves hwf (fun h => ?_) g).trans ?_)
    · obtain ⟨ha, hl, hd, -⟩ := htake h
      omega
    · rw [show o.addr + o.data.length + (o.len - o.data.length) = o.addr + o.len by omega]
  · intro s h j v two int t hs hfree hp x data hv hl htwo hint
    exact ⟨fun hgo hbusy => chred_contributes hs hfree hp hv hl htwo hint hgo hbusy,
      fun hgo htm hlen => chred_abandoned hs hfree hv hl htwo hint hgo htm hlen⟩

end Sys2Proof.Machine
end

section
/-! SUPPORT. The queued accesses of port A are performed, and results come in (R54, R108, R153, R157, R237, R249, R271, R272). -/

namespace Sys2Proof.Machine

/-! A store is performed. -/

theorem Memory.read_foldl_write {m : Memory} (h : Memory.wf m = true) (cells : List (Nat × Byte)) {a : Nat}
    (ha : ∀ x ∈ cells, x.1 ≠ a) : (cells.foldl (fun m c => m.write c.1 c.2) m).read a = m.read a := by
  induction cells generalizing m with
  | nil => rfl
  | cons x l ih =>
    rw [List.foldl_cons, ih (Memory.write_wf x.1 x.2 h) fun y hy => ha y (List.mem_cons_of_mem _ hy), Memory.read_write h,
      if_neg fun e => ha x List.mem_cons_self e.symm]

theorem Memory.read_foldl_write_mem {m : Memory} (h : Memory.wf m = true) {cells : List (Nat × Byte)}
    (hd : (cells.map (·.1)).Nodup) {x : Nat × Byte} (hx : x ∈ cells) :
    (cells.foldl (fun m c => m.write c.1 c.2) m).read x.1 = x.2 := by
  induction cells generalizing m with
  | nil => nomatch hx
  | cons y l ih =>
    rw [List.map_cons, List.nodup_cons] at hd
    rw [List.foldl_cons]
    rcases List.mem_cons.mp hx with rfl | hx
    · rw [Memory.read_foldl_write (Memory.write_wf x.1 x.2 h) l fun z hz e => hd.1 (by rw [← e]; exact List.mem_map_of_mem hz), Memory.read_write h,
        if_pos rfl]
    · exact ih (Memory.write_wf y.1 y.2 h) hd.2 hx

theorem Inject.has_unarmed {j : Inject} (h : j.armed = 0) (u : Nat) : j.has u = false := by
  rw [Inject.has, h, Nat.zero_div]
  rfl

/-- Words are read where nothing is armed and no word has an uncorrectable error: correctable errors end, and are counted. -/
theorem Tile.readWords_clean {t : Tile} (hb : t.pad.bad = []) (hi : t.pad.inj.armed = 0) (some_ : Bool) (hit : Nat → Bool) :
    ∃ soft poison counts, t.readWords some_ hit =
      { t with pad := { t.pad with soft := soft, poison := poison }, counts := counts } := by
  have hinj : ∀ (u : Tile) real soft, u.pad.inj = t.pad.inj → u.withPad (Pad.report real soft) = u := by
    intro u real soft hu
    rw [Tile.withPad, Pad.report, hu, Inject.has_unarmed hi, Inject.has_unarmed hi, Bool.false_and, Bool.false_and,
      if_neg (by decide), if_neg (by decide), ← hu]
  cases some_ with
  | false => exact ⟨t.pad.soft, t.pad.poison, t.counts, rfl⟩
  | true =>
    have hws : t.pad.bad.filter hit = [] := by rw [hb]; rfl
    have hbs : t.pad.bad.filter (!hit ·) = t.pad.bad := by rw [hb]; rfl
    simp only [Tile.readWords, if_true, Tile.meetErrors, hws, hbs]
    split
    · exact ⟨t.pad.soft, t.pad.poison, t.counts, hinj t _ _ rfl⟩
    · exact ⟨_, _, _, hinj _ _ _ rfl⟩

/-- STORE_PERFORM of an access whose cycle has come. -/
theorem becomes_storePerform {s : State} {c : Coord} {t : Tile} {q : PortQ} {l : List PortQ} {v : Tile} (h : s.tileAt c = some t)
    (hl : t.Live) (hq : t.pad.queue = q :: l) (hmay : t.mayPerform q = true)
    (hv : ({ t with pad := { t.pad with queue := l } }).perform q = v) (hat : v.isAt c = true) (hr : v.recs = []) :
    Becomes (.storePerform c) s c v := by
  have hf : (fun t : Tile => if t.frozen then t else t.performHead) t = v := by
    simp only [hl.moving, Bool.false_eq_true, if_false, Tile.performHead, hq, hmay, if_true, hv]
  rw [← hf] at hat hr ⊢
  exact Becomes.onTile (fun t : Tile => if t.frozen then t else t.performHead) h rfl hat hr

theorem mayPerform_of_due {t : Tile} {q : PortQ} (hdue : q.at_ ≤ t.sch.cycle) (hact : ∀ ch i st, q.act ≠ .start ch i st) :
    t.mayPerform q = true := by
  rw [Tile.mayPerform, decide_eq_true hdue, Bool.true_and]
  split
  · next h => exact absurd h (hact _ _ _)
  · rfl

/-- A store that meets no uncorrectable error writes its cells and fills its granules (R37, R237). -/
theorem Tile.perform_store {t : Tile} {q : PortQ} {cells : List (Nat × Byte)} {full : List Nat} (hact : q.act = .store cells full)
    (hb : t.pad.bad = []) (hi : t.pad.inj.armed = 0) :
    ∃ soft poison counts, t.perform q = { t with
      pad := { t.pad with
        mem := cells.foldl (fun m c => m.write c.1 c.2) t.pad.mem, full := NatSet.addAll t.pad.full full, bad := []
        soft := soft, poison := poison }
      counts := counts } := by
  have hpart : badPartial t.pad cells = none := by
    rw [badPartial, hb, Inject.has_unarmed hi]
    rfl
  obtain ⟨soft, poison, counts, hread⟩ := Tile.readWords_clean hb hi (cells.any fun c => partWords cells (c.1 / 4)) (partWords cells)
  rw [Tile.perform, hact]
  simp only [hpart]
  rw [hread]
  simp only [Tile.withPad, Tile.setFull, Pad.writeCells, hb, List.filter_nil]
  exact ⟨_, _, _, rfl⟩

theorem store_performed {s : State} {c : Coord} {t : Tile} {q : PortQ} {l : List PortQ} {cells : List (Nat × Byte)}
    {full : List Nat} (h : s.tileAt c = some t) (hl : t.Live) (hq : t.pad.queue = q :: l) (hact : q.act = .store cells full)
    (hdue : q.at_ ≤ t.sch.cycle) (hb : t.pad.bad = []) (hi : t.pad.inj.armed = 0) (hfull : NatSet.wf t.pad.full = true)
    (hmem : Memory.wf t.pad.mem = true) :
    ∃ v, Becomes (.storePerform c) s c v ∧ v.pad.queue = l ∧ v.files = t.files ∧ v.sch = t.sch ∧
      (∀ a, (∀ x ∈ cells, x.1 ≠ a) → v.pad.mem.read a = t.pad.mem.read a) ∧
      ((cells.map (·.1)).Nodup → ∀ x ∈ cells, v.pad.mem.read x.1 = x.2) ∧
      ∀ g, v.pad.full.has g = (t.pad.full.has g || full.elem g) := by
  obtain ⟨soft, poison, counts, hv⟩ := Tile.perform_store (t := { t with pad := { t.pad with queue := l } }) hact hb hi
  have hmay : t.mayPerform q = true := mayPerform_of_due hdue fun _ _ _ e => by rw [hact] at e; nomatch e
  have hat : t.isAt c = true := State.tileAt_isAt h
  refine ⟨_, becomes_storePerform h hl hq hmay hv hat hl.noReports, rfl, rfl, rfl,
    fun a ha => Memory.read_foldl_write hmem cells ha, fun hd x hx => Memory.read_foldl_write_mem hmem hd hx, fun g => ?_⟩
  refine (NatSet.has_addAll hfull full g).trans ?_
  rw [List.elem_eq_mem]

/-! An arrival is performed. -/

/-- ARRIVE with a count that is not above PEND (R54). -/
theorem Bar.arrive_of_le {b : Bar} {n : Nat} (h : n ≤ b.pend) : b.arrive n =
    (if b.pend = n ∧ b.txpend = 0 then
        { b with pend := b.expect, txpend := b.reload, phase := (b.phase + 1) % 16, arrseq := (b.arrseq + n) % 2 ^ 24 }
      else { b with pend := b.pend - n, arrseq := (b.arrseq + n) % 2 ^ 24 }, true) := by
  have hzero : b.pend - n = 0 ↔ b.pend = n := by omega
  rw [Bar.arrive, if_neg (by omega), Bar.advance]
  simp only [hzero]

theorem Bar.arrive_of_gt {b : Bar} {n : Nat} (h : b.pend < n) : b.arrive n = ({ b with ovr := true }, false) := if_pos h

section
variable {s : State} {c : Coord} {t : Tile} {q : PortQ} {l : List PortQ} {a n : Nat} {tag : BitVec 3}

/-- The tile in which an access has left the queue and a barrier object is as given. -/
def Tile.barred (t : Tile) (l : List PortQ) (a : Nat) (b : Bar) : Tile :=
  { t with pad := { t.pad with queue := l, mem := t.pad.mem.putVal a 16 b.toVal } }

theorem Tile.barred_recs (b : Bar) : (t.barred l a b).recs = t.recs := by rw [Tile.barred]
theorem Tile.barred_isAt (b : Bar) (c : Coord) : (t.barred l a b).isAt c = t.isAt c := by rw [Tile.barred]; rfl
theorem Tile.barred_files (b : Bar) : (t.barred l a b).files = t.files := by rw [Tile.barred]
theorem Tile.barred_sch (b : Bar) : (t.barred l a b).sch = t.sch := by rw [Tile.barred]

theorem Tile.perform_arrive (hact : q.act = .arrive a n tag) (hread : t.Readable ((upTo 16).map (a + ·))) (hin : a + 16 ≤ padSize) :
    ({ t with pad := { t.pad with queue := l } }).perform q =
      if ((t.pad.bar a).arrive n).2 then (t.barred l a ((t.pad.bar a).arrive n).1).setTag tag.toNat .free
      else (t.barred l a ((t.pad.bar a).arrive n).1).portFault q .barovr (BitVec.ofNat 64 a) tag none := by
  have hpad : ∀ x ∈ (upTo 16).map (a + ·), x < padSize := by
    intro x hx
    obtain ⟨k, hk, rfl⟩ := List.mem_map.mp hx
    have hk16 : k < 16 := List.mem_range.mp hk
    omega
  have hrd := Tile.Readable.readPad (t := { t with pad := { t.pad with queue := l } }) hread hpad
  rw [Tile.perform, hact]
  simp only [hrd]
  rfl

theorem arrive_accepted (h : s.tileAt c = some t) (hl : t.Live) (hq : t.pad.queue = q :: l) (hact : q.act = .arrive a n tag)
    (hdue : q.at_ ≤ t.sch.cycle) (hread : t.Readable ((upTo 16).map (a + ·))) (hin : a + 16 ≤ padSize) (hn : n ≤ (t.pad.bar a).pend) :
    ∃ v, Becomes (.storePerform c) s c v ∧ v.pad.queue = l ∧ v.files = t.files ∧ (tag ≠ 0#3 → v.tagSt tag.toNat = .free) ∧
      v.pad.mem = t.pad.mem.putVal a 16 ((t.pad.bar a).arrive n).1.toVal := by
  have hv := Tile.perform_arrive (l := l) hact hread hin
  rw [if_pos (by rw [Bar.arrive_of_le hn])] at hv
  have hmay : t.mayPerform q = true := mayPerform_of_due hdue fun _ _ _ e => by rw [hact] at e; nomatch e
  have hat : t.isAt c = true := State.tileAt_isAt h
  exact ⟨_, becomes_storePerform h hl hq hmay hv ((Tile.setTag_isAt ..).trans ((Tile.barred_isAt ..).trans hat))
      ((Tile.setTag_recs ..).trans ((Tile.barred_recs _).trans hl.noReports)), congrArg Pad.queue (Tile.setTag_pad ..),
    (Tile.setTag_files ..).trans (Tile.barred_files _),
    Tile.tagSt_setTag_same _ _, congrArg Pad.mem (Tile.setTag_pad ..)⟩

theorem arrive_refused (h : s.tileAt c = some t) (hl : t.Live) (hq : t.pad.queue = q :: l) (hact : q.act = .arrive a n tag)
    (hdue : q.at_ ≤ t.sch.cycle) (hread : t.Readable ((upTo 16).map (a + ·))) (hin : a + 16 ≤ padSize) (hn : (t.pad.bar a).pend < n)
    (htm : t.sch.tm = false) (hlen : t.sch.pend.length < 32) :
    ∃ v p, Becomes (.storePerform c) s c v ∧ v.pad.mem = t.pad.mem.putVal a 16 ({ t.pad.bar a with ovr := true }).toVal ∧
      (tag ≠ 0#3 → v.tagSt tag.toNat = .faulted) ∧ p ∈ v.sch.pend ∧ p.cause = .barovr ∧ p.faddr = BitVec.ofNat 64 a ∧
      p.seq = some q.seq := by
  obtain ⟨w, hw⟩ : ∃ w, w = (t.barred l a { t.pad.bar a with ovr := true }).setTag tag.toNat .faulted := ⟨_, rfl⟩
  have hpend : w.sch.pend = t.sch.pend := by
    rw [hw, Tile.setTag]
    split <;> rw [Tile.barred_sch]
  have hwtm : w.sch.tm = false := by
    rw [hw, Tile.setTag]
    split <;> rw [Tile.barred_sch, htm]
  have hraise : (t.barred l a { t.pad.bar a with ovr := true }).portFault q .barovr (BitVec.ofNat 64 a) tag none =
      w.withSch fun s => { s with pend := insertPending ⟨.barovr, BitVec.ofNat 64 a, 0#64, s.cycle, 0, some q.seq⟩ s.pend } := by
    rw [Tile.portFault, ← hw]
    exact Tile.await_waits (.inl hwtm) (hpend ▸ hlen) _ _ _ _
  have hv := Tile.perform_arrive (l := l) hact hread hin
  rw [Bar.arrive_of_gt hn, if_neg Bool.false_ne_true, hraise] at hv
  have hmay : t.mayPerform q = true := mayPerform_of_due hdue fun _ _ _ e => by rw [hact] at e; nomatch e
  have hat : t.isAt c = true := State.tileAt_isAt h
  refine ⟨_, ⟨.barovr, BitVec.ofNat 64 a, 0#64, w.sch.cycle, 0, some q.seq⟩, becomes_storePerform h hl hq hmay hv ?_ ?_, ?_,
    fun htag => ?_, mem_insertPending _ _, rfl, rfl, rfl⟩
  · rw [hw]
    exact (Tile.setTag_isAt ..).trans ((Tile.barred_isAt ..).trans hat)
  · rw [hw]
    exact (Tile.setTag_recs ..).trans ((Tile.barred_recs _).trans hl.noReports)
  · rw [hw]
    exact congrArg Pad.mem (Tile.setTag_pad ..)
  · rw [hw]
    exact Tile.tagSt_setTag_same _ _ htag

end

/-! A result lands. -/

/-- PRODUCER_LAND of the result that comes in next. -/
theorem becomes_producerLand {s : State} {c : Coord} {t v : Tile} (h : s.tileAt c = some t) (hl : t.Live) (hv : t.landNext = v)
    (hat : v.isAt c = true) (hr : v.recs = []) : Becomes (.producerLand c) s c v := by
  have hf : (fun t : Tile => if t.frozen then t else t.landNext) t = v := by
    simp only [hl.moving, Bool.false_eq_true, if_false, hv]
  rw [← hf] at hat hr ⊢
  exact Becomes.onTile (fun t : Tile => if t.frozen then t else t.landNext) h rfl hat hr

theorem flight_lands {s : State} {c : Coord} {t : Tile} {f : Flight} (h : s.tileAt c = some t) (hl : t.Live)
    (hf : t.sch.flights = [f]) (hv : t.sch.vops = []) (hdue : f.due ≤ t.sch.cycle) (hring : f.ring = none) :
    ∃ v, Becomes (.producerLand c) s c v ∧ v.files = t.files.putAll (t.surviving f.writes) ∧ v.sch.flights = [] ∧
      (f.tag ≠ 0#3 → v.tagSt f.tag.toNat = .free) ∧ v.pad = t.pad ∧ v.ctl = t.ctl := by
  have hnext : t.landNext = t.landFlight f := by
    have hfl : t.sch.flights.filter (·.due ≤ t.sch.cycle) = [f] := by
      rw [hf]
      simp [hdue]
    unfold Tile.landNext
    simp only [hfl, hv, List.filter_nil, firstFlight, firstVOp]
  rw [Tile.landFlight, hring] at hnext
  have hat : t.isAt c = true := State.tileAt_isAt h
  refine ⟨_, becomes_producerLand h hl hnext ((Tile.setTag_isAt ..).trans hat) ((Tile.setTag_recs ..).trans hl.noReports),
    Tile.setTag_files .., ?_, Tile.tagSt_setTag_same _ _, Tile.setTag_pad .., Tile.setTag_ctl ..⟩
  rw [Tile.setTag_flights]
  simp [Tile.landSlot, Tile.landWrites, hf]

/-! A decider decides. -/

theorem mem_upstreamAfter {s : Sched} {e fuel : Nat} {l : List Nat} {o : VOp} (h : o ∈ upstreamAfter s e fuel l) : o ∈ s.vops := by
  induction fuel generalizing l with
  | zero => nomatch h
  | succ fuel ih =>
    rw [upstreamAfter_succ, List.mem_append, List.mem_flatMap] at h
    rcases h with h | ⟨x, -, h⟩
    · exact List.mem_of_mem_filter h
    · exact ih h

/-- A tile that a decider `o`, alone in V, may have cancelled in: its own links are dead or still its own. -/
structure Tile.Cancelling (t : Tile) (o : VOp) (u : Tile) : Prop where
  files : u.files = t.files
  pad : u.pad = t.pad
  ctl : u.ctl = t.ctl
  recs : u.recs = t.recs
  place : ∀ c, u.isAt c = t.isAt c
  lands : u.surviving o.writes = t.surviving o.writes
  vops : ∀ x ∈ u.sch.vops, x = o
  links : ∀ n ∈ o.srcs, u.link n = none ∨ n < 4 ∧ ∃ k, u.link n = some k ∧ k.consumer = some o.seq

theorem Tile.Cancelling.refl {t : Tile} {o : VOp} (hv : t.sch.vops = [o])
    (hsrc : ∀ n ∈ o.srcs, n < 4 ∧ ∃ k, t.link n = some k ∧ k.consumer = some o.seq) : t.Cancelling o t :=
  ⟨rfl, rfl, rfl, rfl, fun _ => rfl, rfl, fun x hx => by rw [hv] at hx; exact List.mem_singleton.mp hx, fun n hn => .inr (hsrc n hn)⟩

theorem Sched.leaveV_link (s : Sched) (o : VOp) (n : Nat) :
    ((s.leaveV o).links[n]?).getD none = none ∨ ((s.leaveV o).links[n]?).getD none = (s.links[n]?).getD none := by
  have hkill : ∀ (l : List Nat) (v : Vector (Option Link) 4),
      (((l.foldl (fun v n => v.setIfInBounds n none) v))[n]?).getD none = none ∨
        (((l.foldl (fun v n => v.setIfInBounds n none) v))[n]?).getD none = (v[n]?).getD none := by
    intro l
    induction l with
    | nil => exact fun v => .inr rfl
    | cons m l ih =>
      intro v
      rcases ih (v.setIfInBounds m none) with h | h
      · exact .inl h
      · rw [List.foldl_cons, h, Vector.getElem?_setIfInBounds]
        split
        · split
          · exact .inl rfl
          · exact .inl rfl
        · exact .inr rfl
  exact hkill _ _

/-- The cancellation of the decider itself, where a link names it as its own producer. -/
theorem Tile.Cancelling.step {t u : Tile} {o : VOp} (h : t.Cancelling o u) :
    t.Cancelling o ((u.withSch fun s => s.leaveV o).setTag o.tag.toNat .free) := by
  obtain ⟨hf, hp, hc, hr, hat, hs, hv, hl⟩ := h
  refine ⟨(Tile.setTag_files ..).trans hf, (Tile.setTag_pad ..).trans hp, (Tile.setTag_ctl ..).trans hc, (Tile.setTag_recs ..).trans hr,
    fun c => (Tile.setTag_isAt ..).trans (hat c), (Tile.setTag_surviving ..).trans hs, fun x hx => ?_, fun n hn => ?_⟩
  · rw [Tile.setTag_vops] at hx
    exact hv x (List.mem_of_mem_filter hx)
  · rw [Tile.link, Tile.setTag_links]
    rcases Sched.leaveV_link u.sch o n with hk | hk
    · exact .inl hk
    · refine (hl n hn).imp (fun h => hk.trans h) fun ⟨h4, k, hk', hc'⟩ => ⟨h4, k, hk.trans hk', hc'⟩

theorem decider_decides {s : State} {c : Coord} {t : Tile} {o : VOp} {d : Decider} (h : s.tileAt c = some t) (hl : t.Live)
    (hv : t.sch.vops = [o]) (hd : o.decider = some d) (hdue : d.hi ≤ t.sch.cycle) (hf : o.flags = 0#5)
    (hsrc : ∀ n ∈ o.srcs, n < 4 ∧ ∃ k, t.link n = some k ∧ k.consumer = some o.seq) :
    ∃ v, Becomes (.vDecide c) s c v ∧ v.files = t.files.putAll (t.surviving o.writes) ∧ v.sch.vops = [] ∧
      (o.tag ≠ 0#3 → v.tagSt o.tag.toNat = .free) ∧ (∀ n ∈ o.srcs, v.link n = none) ∧ v.pad = t.pad ∧ v.ctl = t.ctl := by
  obtain ⟨w, hw⟩ : ∃ w, w = (upstreamAfter t.sch t.sch.cycle 4 (t.sch.ownSrcs o)).foldl
    (fun (t : Tile) u => (t.withSch fun s => s.leaveV u).setTag u.tag.toNat .free) t := ⟨_, rfl⟩
  have hall : ∀ x ∈ upstreamAfter t.sch t.sch.cycle 4 (t.sch.ownSrcs o), x = o := fun x hx =>
    List.mem_singleton.mp (hv ▸ mem_upstreamAfter hx)
  have hcancel : t.Cancelling o w := by
    rw [hw]
    generalize upstreamAfter t.sch t.sch.cycle 4 (t.sch.ownSrcs o) = ups at hall
    have hgen : ∀ u : Tile, t.Cancelling o u → t.Cancelling o (ups.foldl
        (fun (t : Tile) u => (t.withSch fun s => s.leaveV u).setTag u.tag.toNat .free) u) := by
      induction ups with
      | nil => exact fun u hu => hu
      | cons x ups ih =>
        intro u hu
        obtain rfl := hall x List.mem_cons_self
        exact ih (fun y hy => hall y (List.mem_cons_of_mem _ hy)) _ hu.step
    exact hgen t (.refl hv hsrc)
  have hdecide : t.decideV o t.sch.cycle = w.completeV o := by rw [Tile.decideV, hw]
  rw [Tile.completeV_of_no_flags _ hf] at hdecide
  obtain ⟨hfiles, hpad, hctl, hrecs, hat, hsurv, hvops, hlinks⟩ := hcancel
  refine ⟨_, becomes_vDecide h hl (Tile.nextDecider_of_window (u := []) hv (by simp) hd hdue) hdecide ?_ ?_, ?_, ?_,
    Tile.tagSt_setTag_same _ _, fun n hn => ?_, ?_, ?_⟩
  · rw [Tile.setTag_isAt, Tile.landWrites_isAt]
    exact (hat c).trans (State.tileAt_isAt h)
  · exact (Tile.setTag_recs ..).trans (hrecs.trans hl.noReports)
  · rw [Tile.setTag_files, ← hfiles, ← hsurv]
    rfl
  · rw [Tile.setTag_vops]
    refine List.filter_eq_nil_iff.mpr fun x hx => ?_
    rw [hvops x hx, bne_self_eq_false]
    exact Bool.false_ne_true
  · rw [Tile.link, Tile.setTag_links]
    rcases hlinks n hn with hk | ⟨h4, k, hk, hc⟩
    · exact (Sched.leaveV_link w.sch o n).elim (fun h => h) fun h => h.trans hk
    · exact Sched.leaveV_kills h4 hk hc hn
  · exact (Tile.setTag_pad ..).trans hpad
  · exact (Tile.setTag_ctl ..).trans hctl

/-- Settles O41: a store, an arrival that is accepted or not, a result, and a decider. -/
theorem queuedAccesses : Obligations.QueuedAccesses := by
  refine ⟨?_, ?_, ?_⟩
  · intro s c t q l cells full h hl hq hact hdue hb hi hfull hmem
    exact store_performed h hl hq hact hdue hb hi hfull hmem
  · intro s c t q l a n tag h hl hq hact hdue hread hin b put
    refine ⟨fun hn => ?_, fun hn htm hlen => arrive_refused h hl hq hact hdue hread hin hn htm hlen⟩
    have hacc := arrive_accepted h hl hq hact hdue hread hin hn
    rwa [Bar.arrive_of_le hn] at hacc
  · intro s c t h hl
    exact ⟨fun f hf hv hdue hring _ => flight_lands h hl hf hv hdue hring,
      fun o d hv hd hdue hf _ hsrc => decider_decides h hl hv hd hdue hf hsrc⟩

end Sys2Proof.Machine
end

section
/-! SUPPORT. Wait time-outs, pending causes and invalid bundles take their traps (R39, R90, R201, R251, R322, R323); and what the taking
of a trap saves (R325, R330). -/

namespace Sys2Proof.Machine

/-! A trap that reports nothing is taken. -/

theorem Tile.traps_takeTrap {t : Tile} {cause : Cause} {after : Bool} {slot : Nat} {faddr info : DWord} (htvec : t.ctl.tvec ≠ 0#32)
    (hr : (t.takeTrap cause after slot faddr info t.sch.pc).recs = []) :
    t.Traps (t.takeTrap cause after slot faddr info t.sch.pc) cause after slot faddr info := by
  obtain ⟨hmask, hpc, hlater, -, -⟩ := Tile.takeTrap_taken htvec hr
  exact ⟨rfl, hmask, hpc, hlater⟩

theorem Tile.Goes.isAt {t u : Tile} (h : t.Goes u) (hr : u.recs = []) (c : Coord) : u.isAt c = t.isAt c := by
  rw [Tile.isAt, Tile.isAt, h.coord, h.status hr]

/-- A step that takes a trap in one tile. -/
theorem becomes_trap {i : Instr} {s : State} {c : Coord} {t w : Tile} (f : Tile → Tile) {cause : Cause} {after : Bool} {slot : Nat}
    {faddr info : DWord} (h : s.tileAt c = some t) (he : exec i s = .next (s.onTile c f))
    (hf : f t = w.takeTrap cause after slot faddr info w.sch.pc) (hat : w.isAt c = t.isAt c) (htvec : w.ctl.tvec ≠ 0#32)
    (hr : (w.takeTrap cause after slot faddr info w.sch.pc).recs = []) :
    ∃ v, Becomes i s c v ∧ w.Traps v cause after slot faddr info := by
  have hplace : t.isAt c = true := State.tileAt_isAt h
  have hgoes := Tile.Goes.takeTrap w cause after slot faddr info w.sch.pc
  refine ⟨f t, Becomes.onTile f h he ?_ (hf ▸ hr), hf ▸ Tile.traps_takeTrap htvec hr⟩
  rw [hf, hgoes.isAt hr, hat, hplace]

/-! Time-outs of waits (R39, R90, R251). -/

/-- The tile whose wait has been given up. -/
def Tile.clearWait (t : Tile) : Tile := { t with sch := { t.sch with stall := none, waited := 0 } }

theorem Tile.expiredIn_of {t : Tile} {st : Stall} (h : t.sch.stall = some st) (he : st.expired = true) :
    t.expiredIn st.kind = some st := by
  rw [Tile.expiredIn, h]
  simp [he]

theorem Tile.waitExpires_of {t : Tile} {st : Stall} {c : Cause} (h : t.sch.stall = some st) (he : st.expired = true)
    (htm : t.sch.tm = false) (hc : isContainment c = false) (hf : c ≠ .fetchecc) :
    t.waitExpires st.kind c = t.clearWait.takeTrap c false st.slot st.faddr st.info t.clearWait.sch.pc := by
  rw [Tile.waitExpires, Tile.expiredIn_of h he]
  exact (Tile.issueCause_plain hc).trans (Tile.issueTrap_unmasked hf htm)

section
variable {s : State} {c : Coord} {t : Tile} {st : Stall}

theorem waits_trap (h : s.tileAt c = some t) (htm : t.sch.tm = false) (htvec : t.ctl.tvec ≠ 0#32) (hst : t.sch.stall = some st)
    (he : st.expired = true) {i : Instr} {cause : Cause} (hexec : exec i s = .next (s.onTile c fun t => t.waitExpires st.kind cause))
    (hc : isContainment cause = false) (hf : cause ≠ .fetchecc)
    (hr : (t.clearWait.takeTrap cause false st.slot st.faddr st.info t.sch.pc).recs = []) :
    ∃ v, Becomes i s c v ∧ t.clearWait.Traps v cause false st.slot st.faddr st.info :=
  becomes_trap _ h hexec (Tile.waitExpires_of hst he htm hc hf) rfl htvec hr

/-- The tile whose barrier object has TMO set (R251). -/
def Tile.markTmo (t : Tile) (a : Nat) : Tile := t.withPad fun p => p.putBar a { p.bar a with tmo := true }

theorem Tile.markTmo_sch (t : Tile) (a : Nat) : (t.markTmo a).sch = t.sch := by rw [Tile.markTmo, Tile.withPad_sch]
theorem Tile.markTmo_ctl (t : Tile) (a : Nat) : (t.markTmo a).ctl = t.ctl := by rw [Tile.markTmo, Tile.withPad_ctl]
theorem Tile.markTmo_isAt (t : Tile) (a : Nat) (c : Coord) : (t.markTmo a).clearWait.isAt c = t.isAt c := by
  rw [Tile.markTmo, Tile.withPad, Tile.clearWait]
  rfl

theorem barrier_traps (h : s.tileAt c = some t) (htm : t.sch.tm = false) (htvec : t.ctl.tvec ≠ 0#32) (hst : t.sch.stall = some st)
    (he : st.expired = true) (hk : st.kind = .bar)
    (hr : ((t.markTmo st.obj).clearWait.takeTrap .bartmo false st.slot st.faddr st.info t.sch.pc).recs = []) :
    ∃ v, Becomes (.barwaitTimeout c) s c v ∧ (t.markTmo st.obj).clearWait.Traps v .bartmo false st.slot st.faddr st.info := by
  have hexp : t.expiredIn .bar = some st := hk ▸ Tile.expiredIn_of hst he
  have hwait : (t.markTmo st.obj).waitExpires st.kind .bartmo = _ :=
    Tile.waitExpires_of (by rw [Tile.markTmo_sch]; exact hst) he (by rw [Tile.markTmo_sch]; exact htm) rfl (by decide)
  have hpc : (t.markTmo st.obj).clearWait.sch.pc = t.sch.pc := by rw [Tile.clearWait, Tile.markTmo_sch]
  have htv : (t.markTmo st.obj).clearWait.ctl.tvec ≠ 0#32 := by rwa [Tile.clearWait, Tile.markTmo_ctl]
  refine becomes_trap (fun t => match t.expiredIn .bar with
    | some st => (t.withPad fun p => p.putBar st.obj { p.bar st.obj with tmo := true }).waitExpires .bar .bartmo
    | none => t) h rfl ?_ (Tile.markTmo_isAt t st.obj c) htv (by rw [hpc]; exact hr)
  rw [hk] at hwait
  simp only [hexp]
  exact hwait

/-! Pending causes and invalid bundles (R201, R323). -/

theorem pending_traps {p : Pending} {l : List Pending} (h : s.tileAt c = some t) (hrun : t.sch.status = .running)
    (htm : t.sch.tm = false) (htvec : t.ctl.tvec ≠ 0#32) (hp : t.sch.pend = p :: l) (hno : isContainment p.cause = false ∨ t.blocks = [])
    (hr : ((t.withSch fun k => { k with pend := l }).takeTrap p.cause true 0 p.faddr p.info t.sch.pc).recs = []) :
    ∃ v, Becomes (.trapTake c) s c v ∧ (t.withSch fun k => { k with pend := l }).Traps v p.cause true 0 p.faddr p.info := by
  have hab : t.pendAborts = false := by
    rw [Tile.pendAborts, hp]
    rcases hno with hno | hno
    · simp only [hno, Bool.false_and]
    · simp only [hno, List.isEmpty_nil, Bool.not_true, Bool.and_false]
  refine becomes_trap (fun t => if t.pendAborts || t.sch.status != .running then t else t.takePending) h rfl ?_ rfl htvec hr
  simp only [hab, hrun, Bool.false_or, bne_self_eq_false, Bool.false_eq_true, if_false, Tile.takePending, hp, htm]
  rfl

theorem invalid_traps {s : State} {cause : Cause} {slot : BitVec 3} (htm : s.core.sch.tm = false) (htvec : s.core.ctl.tvec ≠ 0#32)
    (hne : cause ≠ .fetch) {met : Tile} (hmet : (if cause = .fetchecc then s.core.count cause else s.core) = met)
    (hr : (met.takeTrap cause false slot.toNat 0#64 0#64 s.core.sch.pc).recs = []) :
    ∃ u, exec (.invalidBundle cause slot) s = .next u ∧ met.Traps u.core cause false slot.toNat 0#64 0#64 ∧ u.bundle = none ∧
      u.others = s.others ∧ u.dev = s.dev := by
  have hpc : met.sch.pc = s.core.sch.pc := by
    rw [← hmet]
    split <;> rfl
  have hmtm : met.sch.tm = false := by
    rw [← hmet]
    split <;> exact htm
  have hmtv : met.ctl.tvec ≠ 0#32 := by
    rw [← hmet]
    split <;> exact htvec
  have hissue : s.core.issueTrap cause slot.toNat 0#64 0#64 = met.takeTrap cause false slot.toNat 0#64 0#64 met.sch.pc := by
    rw [Tile.issueTrap, hmet]
    exact if_neg (ne_true_of_eq_false hmtm)
  have hfa : (if cause = .fetch && s.core.sch.pc.toNat % 4 != 0 then s.core.sch.pc.setWidth 64 else (0#64 : DWord)) = 0#64 :=
    if_neg (by simp [hne])
  rw [← hpc] at hr
  refine ⟨_, rfl, ?_⟩
  simp only [hfa, hissue]
  rw [State.flush_of_no_recs hr]
  exact ⟨Tile.traps_takeTrap hmtv hr, rfl, rfl, rfl⟩

end

/-- Settles O44: the three time-outs, the oldest pending cause, and an invalid bundle. -/
theorem eventsThatTrap : Obligations.EventsThatTrap := by
  refine ⟨?_, ?_⟩
  · intro s c t st h hl htm htvec hb hst he clear marked ends
    refine ⟨fun hk hr => ?_, fun hk hr => ?_, fun hk hr => barrier_traps h htm htvec hst he hk hr⟩
    · exact waits_trap h htm htvec hst he (i := .feWaitTimeout c) (by rw [hk]; rfl) rfl (by decide) hr
    · exact waits_trap h htm htvec hst he (i := .sendWaitTimeout c) (by rw [hk]; rfl) rfl (by decide) hr
  · intro s t c p l cause slot
    refine ⟨fun h _ hrun htm htvec hp hno => ?_, fun htm htvec hne => ?_⟩
    · exact fun hr => pending_traps h hrun htm htvec hp hno hr
    intro met hr
    refine invalid_traps htm htvec hne ?_ hr
    by_cases hf : cause = .fetchecc
    · subst hf
      rfl
    · exact (if_neg hf).trans (if_neg hf).symm

/-! Fields side by side in a number. -/

/-- The number in which fields of given widths stand side by side from bit 0 up, below `r`. -/
def packed : List (Nat × Nat) → Nat → Nat
  | [], r => r
  | (len, x) :: l, r => x + 2 ^ len * packed l r

theorem bitsOf_skip {len x : Nat} (y k n : Nat) (h : x < 2 ^ len) : bitsOf (x + 2 ^ len * y) (len + k) n = bitsOf y k n := by
  rw [bitsOf, pow_add, ← Nat.div_div_eq_div_mul, Nat.add_mul_div_left _ _ (Nat.pow_pos (by decide)), Nat.div_eq_of_lt h, Nat.zero_add]
  rfl

/-- The field at a place of a list of fields. -/
theorem bitsOf_packed {l : List (Nat × Nat)} (h : ∀ f ∈ l, f.2 < 2 ^ f.1) (r : Nat) {i : Nat} (hi : i < l.length) :
    bitsOf (packed l r) ((l.take i).map Prod.fst).sum l[i].1 = l[i].2 := by
  induction l generalizing i with
  | nil => nomatch hi
  | cons f l ih =>
    obtain ⟨len, x⟩ := f
    have hx : x < 2 ^ len := h _ List.mem_cons_self
    cases i with
    | zero =>
      show (x + 2 ^ len * packed l r) / 2 ^ 0 % 2 ^ len = x
      rw [pow_zero, Nat.div_one, Nat.add_mul_mod_self_left, Nat.mod_eq_of_lt hx]
    | succ i =>
      rw [List.take_succ_cons, List.map_cons, List.sum_cons, packed, bitsOf_skip _ _ _ hx]
      exact ih (fun g hg => h g (List.mem_cons_of_mem _ hg)) (Nat.lt_of_succ_lt_succ hi)

theorem foldl_atBits {α : Type} (k : Nat) (at_ : α → Nat) (len : Nat) (x : α → Nat) (l : List α) (a : Nat) :
    ∃ r, l.foldl (fun n e => n + atBits (k + at_ e) len (x e)) a = a + 2 ^ k * r := by
  induction l generalizing a with
  | nil => exact ⟨0, rfl⟩
  | cons e l ih =>
    obtain ⟨r, hr⟩ := ih (a + atBits (k + at_ e) len (x e))
    refine ⟨x e % 2 ^ len * 2 ^ at_ e + r, ?_⟩
    rw [List.foldl_cons, hr, atBits, pow_add]
    ring

theorem Cause.code_lt (c : Cause) : c.code < 2 ^ 8 := by
  cases c <;> decide

section
variable (t : Tile) (tstat : Nat) (fmt : Word) (cause : Cause) (after : Bool) (slot nrep : Nat) (faddr info : DWord) (resume : Word)

/-- The fields of a frame's header below its stacks, in order, with the unused ones (Table 16-3). -/
def Tile.headerFields : List (Nat × Nat) :=
  [(8, cause.code), (4, t.ctl.rrb), (5, nrep), (3, slot), (12, resume.toNat / 4), (5, t.ctl.vbud), (3, t.sch.lstk.length),
    (5, t.sch.rstk.length), (1, 0), (1, b2n after), (17, 0), (64, t.sch.cycle), (192, 0), (64, faddr.toNat), (64, info.toNat),
    (32, tstat), (32, fmt.toNat), (32, t.ctl.lc.toNat), (32, t.ctl.ec.toNat)]

/-- The widths of those fields. -/
def headerWidths : List Nat := [8, 4, 5, 3, 12, 5, 3, 5, 1, 1, 17, 64, 192, 64, 64, 32, 32, 32, 32]

theorem Tile.headerFields_widths :
    (t.headerFields tstat fmt cause after slot nrep faddr info resume).map Prod.fst = headerWidths := rfl

theorem Tile.frameHeader_packed
    (h : ∀ f ∈ t.headerFields tstat fmt cause after slot nrep faddr info resume, f.2 < 2 ^ f.1) :
    ∃ r, t.frameHeader tstat fmt cause after slot nrep faddr info resume =
      packed (t.headerFields tstat fmt cause after slot nrep faddr info resume) r := by
  obtain ⟨r, hr⟩ := foldl_atBits 576 (fun e : Nat × Word × Word => 64 * e.1) 64 (fun e => e.2.2.toNat * 2 ^ 32 + e.2.1.toNat)
    ((upTo 4).zip t.sch.lstk) 0
  obtain ⟨q, hq⟩ := foldl_atBits 576 (fun e : Nat × Word => 256 + 12 * e.1) 12 (fun e => e.2.toNat / 4) ((upTo 16).zip t.sch.rstk) 0
  simp only [← Nat.add_assoc] at hq
  refine ⟨r + q, ?_⟩
  simp only [Tile.headerFields, List.forall_mem_cons] at h
  obtain ⟨h0, h1, h2, h3, h4, h5, h6, h7, -, h9, -, h11, -, h13, h14, h15, h16, h17, h18, -⟩ := h
  rw [Tile.frameHeader, hr, hq]
  simp only [atBits, Nat.mod_eq_of_lt h0, Nat.mod_eq_of_lt h1, Nat.mod_eq_of_lt h2, Nat.mod_eq_of_lt h3, Nat.mod_eq_of_lt h4,
    Nat.mod_eq_of_lt h5, Nat.mod_eq_of_lt h6, Nat.mod_eq_of_lt h7, Nat.mod_eq_of_lt h9, Nat.mod_eq_of_lt h11, Nat.mod_eq_of_lt h13,
    Nat.mod_eq_of_lt h14, Nat.mod_eq_of_lt h15, Nat.mod_eq_of_lt h16, Nat.mod_eq_of_lt h17, Nat.mod_eq_of_lt h18, Tile.headerFields,
    packed]
  -- with the base a variable, powers add by their exponents
  generalize 2 = b
  ring

end

/-! The trap of a tile with nothing in progress (R322, R325). -/

section
variable {t : Tile}

/-- Nothing of the core is in progress: no access waits, no result is in flight, no V operation, no list, no link. -/
structure Tile.Still (t : Tile) : Prop where
  queue : t.pad.queue = []
  flights : t.sch.flights = []
  vops : t.sch.vops = []
  lists : t.lists = []
  links : t.sch.links = Vector.replicate 4 none

theorem Tile.Still.settleCycle (h : t.Still) : t.settleCycle = t.sch.cycle := by
  obtain ⟨hq, hf, hv, -, -⟩ := h
  simp only [Tile.settleCycle, hq, hf, hv, List.filter_nil, List.foldl_nil]

theorem Tile.Still.settleForTrap (h : t.Still) : t.settleForTrap = (t, t.sch.cycle) := by
  have hcycle := h.settleCycle
  obtain ⟨hq, hf, hv, -, -⟩ := h
  have hdrain : t.drainAll t.pad.queue.length = t := by rw [hq]; rfl
  have hcome : Tile.comeIn (t.sch.flights.length + t.sch.vops.length) t = t := by rw [hf, hv]; rfl
  rw [Tile.settleForTrap, hdrain, hcycle, show Nat.max t.sch.cycle t.sch.cycle = t.sch.cycle from Nat.max_self _, Nat.sub_self, Tile.runOn, hcome]
  rfl

theorem Tile.Still.link (h : t.Still) (n : Nat) : (t.sch.links[n]?).getD none = none := by
  rw [h.links]
  by_cases hn : n < 4
  · rw [Vector.getElem?_eq_getElem hn, Vector.getElem_replicate]
    rfl
  · rw [Vector.getElem?_eq_none (by omega)]
    rfl

theorem Tile.Still.toCapture (h : t.Still) : t.toCapture = [] := by
  have hnone : ∀ f : Nat → Option Captured, (∀ n, f n = none) → (upTo 4).filterMap f = [] := fun f hf =>
    List.filterMap_eq_nil_iff.mpr fun n _ => hf n
  rw [Tile.toCapture, h.flights, h.vops, h.lists, hnone]
  · rfl
  · intro n
    rw [h.link]

theorem Tile.writeDigits_of_no_links (fin : Nat) (h : ∀ n : Nat, (t.sch.links[n]?).getD none = none) : t.writeDigits fin = t :=
  List.foldl_fixed' (fun n => by rw [h]) _

/-- The tile behind the trap of a tile in which nothing is in progress. -/
theorem Tile.Still.takeTrap (h : t.Still) (cause : Cause) (after : Bool) (slot : Nat) (faddr info : DWord) (resume : Word)
    (htvec : t.ctl.tvec ≠ 0#32) :
    ∃ sch pad, t.takeTrap cause after slot faddr info resume = { t with sch := sch, pad := pad } ∧
      pad.mem = t.pad.mem.putVal 0x2F000 128 (t.frameHeader t.tstat t.ctl.fmt cause after slot 0 faddr info resume) ∧
      sch.tm = true ∧ sch.pc = t.ctl.tvec ∧ sch.ready = t.sch.cycle + 12 ∧ sch.captured = [] := by
  have hsettle := h.settleForTrap
  have hcap := h.toCapture
  have hlists := h.lists
  obtain ⟨hdr, hhdr⟩ : ∃ n, n = t.frameHeader t.tstat t.ctl.fmt cause after slot 0 faddr info resume := ⟨_, rfl⟩
  have hdigits : Tile.writeDigits { t with pad := t.pad.writeRun 0x2F000 (valBytes 128 hdr ++ []) } t.sch.cycle = _ :=
    Tile.writeDigits_of_no_links t.sch.cycle h.link
  have hframe : t.writeFrame t.sch.cycle t.tstat t.ctl.fmt cause after slot faddr info resume =
      { t with pad := t.pad.writeRun 0x2F000 (valBytes 128 hdr ++ []) }.withSch fun s => { s with
          captured := [], capLinks := s.links, capFin := t.sch.cycle, links := Vector.replicate 4 none
          flights := s.flights.filter fun f => f.tag == 0#3 || f.kind == 0, vops := [] } := by
    rw [Tile.writeFrame, hcap]
    simp only [List.take_nil, List.map_nil, List.flatMap_nil, List.length_nil, List.foldl_nil, Tile.writeBlocks, ← hhdr, hdigits]
    rw [← hlists]
  have hmem : (t.pad.writeRun 0x2F000 (valBytes 128 hdr)).mem = t.pad.mem.putVal 0x2F000 128 hdr := by
    rw [Pad.writeRun_mem, Memory.putVal]
  have hrun : ¬ (t.sch.status == .halted && t.sch.status != .halted) = true := by
    cases t.sch.status <;> decide
  rw [Tile.takeTrap, hsettle]
  dsimp only
  rw [if_neg hrun, hframe, ← hhdr, List.append_nil]
  exact ⟨_, _, if_neg htvec, hmem, rfl, rfl, rfl, rfl⟩

theorem mod_pow_bytes (x n : Nat) : x % 256 ^ n = bitsOf x 0 (8 * n) := by
  rw [bitsOf, pow_zero, Nat.div_one, pow_mul]
  rfl

theorem frame_bytes {m : Memory} (hm : Memory.wf m = true) (hdr : Nat) {k j : Nat} (h : k + j ≤ 128) :
    (m.putVal 0x2F000 128 hdr).val (0x2F000 + k) j = bitsOf hdr (8 * k) (8 * j) := by
  rw [← Memory.bitsOf_val _ _ h, Memory.val_putVal_same hm, mod_pow_bytes, bitsOf_bitsOf _ _ (by omega), Nat.zero_add]

/-- A field of the frame's header, as the bytes of memory hold it. -/
theorem frame_field {m : Memory} (hm : Memory.wf m = true) (hdr : Nat) {lo len : Nat} (h : lo + len ≤ 64) :
    bitsOf ((m.putVal 0x2F000 128 hdr).val 0x2F000 8) lo len = bitsOf hdr lo len := by
  have h8 := frame_bytes hm hdr (k := 0) (j := 8) (by decide)
  rw [Nat.add_zero] at h8
  rw [h8, bitsOf_bitsOf _ _ h, Nat.mul_zero, Nat.zero_add]

theorem bitOf_eq (w i : Nat) : bitOf w i = (bitsOf w i 1 == 1) := rfl

/-- What a frame's header holds (Table 16-3). -/
theorem frame_holds {m u : Memory} {w : Nat} (hm : Memory.wf m = true) {hdr : Nat} {cause : Cause} {after : Bool} {slot : Nat} {faddr info : DWord}
    (hrrb : t.ctl.rrb < 16) (hslot : slot < 8) (hvbud : t.ctl.vbud < 32) (hrstk : t.sch.rstk.length ≤ 16)
    (hlstk : t.sch.lstk.length ≤ 4) (hpc : t.sch.pc.toNat < 0x4000) (hcycle : t.sch.cycle < 2 ^ 64) (htstat : t.tstat < 2 ^ 32)
    (hhdr : hdr = t.frameHeader t.tstat t.ctl.fmt cause after slot 0 faddr info t.sch.pc)
    (hu : u = m.putVal 0x2F000 128 hdr) (hwu : w = u.val 0x2F000 8) :
    bitsOf w 0 8 = cause.code ∧ bitsOf w 8 4 = t.ctl.rrb ∧ bitsOf w 12 5 = 0 ∧ bitsOf w 17 3 = slot ∧
      bitsOf w 20 12 = t.sch.pc.toNat / 4 ∧ bitsOf w 32 5 = t.ctl.vbud ∧ bitsOf w 37 3 = t.sch.lstk.length ∧
      bitsOf w 40 5 = t.sch.rstk.length ∧ bitOf w 45 = false ∧ bitOf w 46 = after ∧
      u.val 0x2F008 8 = t.sch.cycle ∧ u.val 0x2F028 8 = faddr.toNat ∧ u.val 0x2F030 8 = info.toNat ∧
      u.val 0x2F038 4 = t.tstat ∧ u.word 0x2F03C = t.ctl.fmt ∧ u.word 0x2F040 = t.ctl.lc ∧ u.word 0x2F044 = t.ctl.ec := by
  have hbound : ∀ f ∈ t.headerFields t.tstat t.ctl.fmt cause after slot 0 faddr info t.sch.pc, f.2 < 2 ^ f.1 := by
    have hafter : b2n after < 2 ^ 1 := by cases after <;> decide
    simp only [Tile.headerFields, List.forall_mem_cons]
    exact ⟨Cause.code_lt cause, hrrb, by decide, hslot, by omega, hvbud, by omega, by omega, by decide, hafter, by decide, hcycle,
      by positivity, faddr.isLt, info.isLt, htstat, t.ctl.fmt.isLt, t.ctl.lc.isLt, t.ctl.ec.isLt, fun f hf => nomatch hf⟩
  obtain ⟨r, hr⟩ := Tile.frameHeader_packed t t.tstat t.ctl.fmt cause after slot 0 faddr info t.sch.pc hbound
  rw [← hhdr] at hr
  have hfield : ∀ i (hi : i < 19) {lo len x : Nat},
      (headerWidths.take i).sum = lo →
      (t.headerFields t.tstat t.ctl.fmt cause after slot 0 faddr info t.sch.pc)[i]'hi = (len, x) → bitsOf hdr lo len = x := by
    intro i hi lo len x hlo hx
    have h := bitsOf_packed hbound r hi
    rwa [List.map_take, Tile.headerFields_widths, hlo, hx, ← hr] at h
  have hw : ∀ {lo len x : Nat}, lo + len ≤ 64 → bitsOf hdr lo len = x → bitsOf w lo len = x :=
    fun h hx => by rw [hwu, hu, frame_field hm hdr h, hx]
  have hnum : ∀ {k j x : Nat}, k + j ≤ 128 → bitsOf hdr (8 * k) (8 * j) = x → u.val (0x2F000 + k) j = x :=
    fun hk hx => by rw [hu, frame_bytes hm hdr hk, hx]
  have hword : ∀ {k : Nat} {x : Word}, k + 4 ≤ 128 → bitsOf hdr (8 * k) (8 * 4) = x.toNat → u.word (0x2F000 + k) = x := by
    intro k x hk hx
    rw [Memory.word, hnum hk hx, BitVec.ofNat_toNat, BitVec.setWidth_eq]
  refine ⟨hw (by decide) (hfield 0 (by decide) (by decide) rfl), hw (by decide) (hfield 1 (by decide) (by decide) rfl),
    hw (by decide) (hfield 2 (by decide) (by decide) rfl), hw (by decide) (hfield 3 (by decide) (by decide) rfl),
    hw (by decide) (hfield 4 (by decide) (by decide) rfl), hw (by decide) (hfield 5 (by decide) (by decide) rfl),
    hw (by decide) (hfield 6 (by decide) (by decide) rfl), hw (by decide) (hfield 7 (by decide) (by decide) rfl), ?_, ?_,
    hnum (k := 8) (by decide) (hfield 11 (by decide) (by decide) rfl), hnum (k := 40) (by decide) (hfield 13 (by decide) (by decide) rfl),
    hnum (k := 48) (by decide) (hfield 14 (by decide) (by decide) rfl), hnum (k := 56) (by decide) (hfield 15 (by decide) (by decide) rfl),
    hword (k := 60) (by decide) (hfield 16 (by decide) (by decide) rfl), hword (k := 64) (by decide) (hfield 17 (by decide) (by decide) rfl),
    hword (k := 68) (by decide) (hfield 18 (by decide) (by decide) rfl)⟩
  · rw [bitOf_eq, hw (by decide) (hfield 8 (by decide) (by decide) rfl)]
    rfl
  · rw [bitOf_eq, hw (by decide) (hfield 9 (by decide) (by decide) rfl)]
    cases after <;> rfl

end

/-- Settles O45: a trap of a tile in which nothing is in progress, and a cause found in the handler. -/
theorem trapEntry : Obligations.TrapEntry := by
  refine ⟨?_, ?_⟩
  · intro t cause after slot faddr info hq hf hv hlists hlinks htvec hslot hrrb hvbud hrstk hlstk hpc hcycle htstat hm
    obtain ⟨sch, pad, hu, hmem, htm, htv, hready, hcap⟩ :=
      Tile.Still.takeTrap ⟨hq, hf, hv, hlists, hlinks⟩ cause after slot faddr info t.sch.pc htvec
    obtain ⟨h0, h1, h2, h3, h4, h5, h6, h7, h8, h9, h10, h11, h12, h13, h14, h15, h16⟩ :=
      frame_holds hm hrrb hslot hvbud hrstk hlstk hpc hcycle htstat rfl hmem rfl
    rw [hu]
    refine ⟨h0, h1, h2, h3, h4, h5, h6, h7, h8, h9, h10, h11, h12, h13, h14, h15, h16, fun a ha => ?_, rfl, rfl, htm, htv, hready, hcap⟩
    exact (congrArg (Memory.read · a) hmem).trans (Memory.read_putVal_outside hm _ (.inl ha))
  · intro t cause slot faddr info htm u
    have hu : u = (if cause = .fetchecc then t.count cause else t).doubleTrap cause := by
      refine if_pos ?_
      split <;> exact htm
    rw [hu]
    split <;> exact ⟨rfl, rfl, rfl, rfl, _, rfl, rfl, rfl, rfl, rfl⟩

end Sys2Proof.Machine
end

section
/-! SUPPORT. The hops of a flit, failed resends, and links that go down (R82, R83, R85, R401). -/

namespace Sys2Proof.Machine

/-! Tiles that are found in a state. -/

theorem State.tileAt_mem {s : State} {c : Coord} {t : Tile} (h : s.tileAt c = some t) : t ∈ s.core :: s.others := by
  unfold State.tileAt at h
  split at h
  · exact Option.some.inj h ▸ List.mem_cons_self
  · exact List.mem_cons_of_mem _ (List.mem_of_find?_eq_some h)

/-- A change that leaves the tile it finds as it was changes nothing that can be found. -/
theorem State.onTile_same {s : State} {c : Coord} {f : Tile → Tile} (h : ∀ t, s.tileAt c = some t → f t = t ∧ t.recs = []) (d : Coord) :
    (s.onTile c f).tileAt d = s.tileAt d ∧ (s.onTile c f).dev = s.dev := by
  cases ht : s.tileAt c with
  | none =>
    have hid : s.onTile c f = s := by rw [State.onTile, ht]
    rw [hid]
    exact ⟨rfl, rfl⟩
  | some t =>
    obtain ⟨hf, hr⟩ := h t ht
    rw [State.onTile_quiet f ht (hf.symm ▸ hr), hf]
    obtain ⟨hsame, hother⟩ := State.tileAt_setTile ht (State.tileAt_isAt ht)
    refine ⟨?_, State.setTile_dev s t⟩
    by_cases hd : d = c
    · rw [hd, hsame, ht]
    · exact hother d hd

/-- Nothing enters the fabric where no tile has handed a message to its router. -/
theorem State.inject_of_no_out {s : State} (h : ∀ t ∈ s.core :: s.others, t.out = []) : s.inject = s := by
  refine List.foldl_fixed' (fun t => ?_) _
  unfold State.injectTile
  split
  · rfl
  · next u hu => rw [h u (State.tileAt_mem hu)]; rfl

/-! One flit in the fabric. -/

theorem aheadOf_nil (f : Flit) : aheadOf [] f = false := rfl

theorem vcOrder_find (last : Nat) {vc : Nat} (h : vc ≤ 2) : (vcOrder last).find? [vc].elem = some vc := by
  have hcases : vc = 0 ∨ vc = 1 ∨ vc = 2 := by omega
  unfold vcOrder
  rcases hcases with rfl | rfl | rfl <;> split <;> decide

/-- A flit that waits alone for a link takes its turn (R82). -/
theorem Device.linkTurn_alone {dv : Device} {f : Flit} {d : Dir} (hnet : dv.net = [f]) (ha : f.arrived = false)
    (hnext : f.next = some d) (hvc : f.msg.vc ≤ 3) (hr : dv.refuses f.at_ d f.msg.vc = false) :
    dv.linkTurn f.at_ d f.msg.vc = true := by
  have hl : (dv.net.filter fun g => !g.arrived && g.at_ == f.at_ && g.next == some d && !dv.refuses f.at_ d g.msg.vc) = [f] := by
    rw [hnet]
    simp [ha, hnext, hr]
  unfold Device.linkTurn
  rw [hl]
  by_cases h3 : f.msg.vc = 3
  · simp [h3]
  · have h2 : f.msg.vc ≤ 2 := by omega
    have hfind := vcOrder_find (((dv.turns.find? fun x => x.1 == f.at_ && x.2.1 == d).map (·.2.2)).getD 2) h2
    have hne : (3 == f.msg.vc) = false := beq_false_of_ne fun e => h3 e.symm
    have helem : [f.msg.vc].elem 3 = false := by rw [List.elem_cons, hne]; rfl
    simp only [List.map_cons, List.map_nil, helem, Bool.false_eq_true, if_false]
    rw [hfind]
    exact beq_self_eq_true _

section
variable {s : State} {f : Flit}

theorem State.inject_alone (hc : s.core.out = []) (ho : ∀ t ∈ s.others, t.out = []) : s.inject = s :=
  State.inject_of_no_out fun t ht => (List.mem_cons.mp ht).elim (fun h => h ▸ hc) (ho t)

theorem flit_arrives (hnet : s.dev.net = [f]) (ha : f.arrived = false) (hc : s.core.out = []) (ho : ∀ t ∈ s.others, t.out = [])
    (hx : f.dx = 0) (hy : f.dy = 0) :
    exec (.routeFlit 0) s = .next (s.withDev fun dv => { dv with net := [{ f with arrived := true }] }) := by
  have hnext : f.next = none := by simp [Flit.next, hx, hy]
  have hdev : s.dev.routeFlit 0 = { s.dev with net := [{ f with arrived := true }] } := by
    simp [Device.routeFlit, hnet, ha, aheadOf, hnext]
  have hcross : s.dev.crosses 0 = none := by simp [Device.crosses, hnet, ha, aheadOf, hnext]
  show Host.Outcome.next (s.routeFlit 0) = _
  simp only [State.routeFlit, State.inject_alone hc ho, hcross, State.withDev, hdev]

/-- A flit whose link is up and lets it through hops over it, and the tile beyond stays as it is. -/
theorem flit_hops {d : Dir} (hnet : s.dev.net = [f]) (ha : f.arrived = false) (hvc : f.msg.vc ≤ 3) (hc : s.core.out = [])
    (ho : ∀ t ∈ s.others, t.out = []) (hsoft : s.dev.bufSoft = []) (hbad : s.dev.bufBad = []) (hnext : f.next = some d)
    (hup : s.dev.noHop f.at_ d f.msg.vc = false) (hr : s.dev.refuses f.at_ d f.msg.vc = false)
    (hcalm : ∀ t, s.tileAt (neighbour f.at_ d) = some t → t.inj.armed = 0 ∧ t.recs = []) :
    ∃ u a, exec (.routeFlit 0) s = .next u ∧ u.dev.net = [{ f.hop d with arrived := a }] ∧ ∀ e, u.tileAt e = s.tileAt e := by
  have hturn := Device.linkTurn_alone hnet ha hnext hvc hr
  have hbuf : s.dev.meetBuffer f = (f, s.dev) := by simp [Device.meetBuffer, hsoft, hbad]
  have hcross : s.dev.crosses 0 = some (f, d) := by
    simp [Device.crosses, hnet, ha, aheadOf, hnext, hturn, hr, hup]
  have hdev : (s.dev.routeFlit 0).net = [{ f.hop d with arrived := (f.hop d).next.isNone }] := by
    simp [Device.routeFlit, hnet, ha, aheadOf, hnext, hturn, hr, hup, hbuf, Device.took]
  have hsame := fun e => State.onTile_same (s := s.withDev fun dv => dv.routeFlit 0) (c := neighbour f.at_ d)
    (f := fun t => if t.inj.has 3 then { t with inj := t.inj.hit 3 } else t)
    (fun t ht => ⟨if_neg (by rw [Inject.has_unarmed (hcalm t ht).1]; exact Bool.false_ne_true), (hcalm t ht).2⟩) e
  refine ⟨_, (f.hop d).next.isNone, rfl, ?_, fun e => ?_⟩
  · simp only [State.routeFlit, State.inject_alone hc ho, hcross]
    rw [(hsame ⟨0, 0⟩).2]
    exact hdev
  · simp only [State.routeFlit, State.inject_alone hc ho, hcross]
    exact (hsame e).1

/-- A flit before a down link is discarded there, and its sender is told (R83, R94). -/
theorem flit_discarded {d : Dir} (hnet : s.dev.net = [f]) (ha : f.arrived = false) (hvc : f.msg.vc ≤ 3) (hc : s.core.out = [])
    (ho : ∀ t ∈ s.others, t.out = []) (hnext : f.next = some d) (hdown : (f.at_, d) ∈ s.dev.down)
    (hr : s.dev.refuses f.at_ d f.msg.vc = false) :
    exec (.routeFlit 0) s = .next (s.withDev fun dv =>
      (f.msg.backTo .lnkdn).foldl (fun (dv : Device) n => dv.enter f.at_ none n) { dv with net := [] }) := by
  have hturn := Device.linkTurn_alone hnet ha hnext hvc hr
  have hno : s.dev.noHop f.at_ d f.msg.vc = true := by
    rw [Device.noHop, List.elem_eq_true_of_mem hdown, Bool.true_or]
  have hcross : s.dev.crosses 0 = none := by
    simp [Device.crosses, hnet, ha, aheadOf, hnext, hturn, hr, hno]
  have hdev : s.dev.routeFlit 0 =
      (f.msg.backTo .lnkdn).foldl (fun (dv : Device) n => dv.enter f.at_ none n) { s.dev with net := [] } := by
    simp [Device.routeFlit, hnet, ha, aheadOf, hnext, hturn, hr, hno]
  show Host.Outcome.next (s.routeFlit 0) = _
  simp only [State.routeFlit, State.inject_alone hc ho, hcross, State.withDev, hdev]

end

theorem Flit.next_x {f : Flit} (hx : f.dx ≠ 0) (hy : f.yx = true → f.dy = 0) : f.next = some (if f.dx < 0 then .w else .e) := by
  rw [Flit.next]
  cases hyx : f.yx with
  | false => simp [hx]
  | true => simp [hx, hy hyx]

theorem Flit.next_y {f : Flit} (hy : f.dy ≠ 0) (hx : f.yx = false → f.dx = 0) : f.next = some (if f.dy < 0 then .n else .s) := by
  rw [Flit.next]
  cases hyx : f.yx with
  | false => simp [hy, hx hyx]
  | true => simp [hy]

theorem Flit.hop_x (f : Flit) : (f.hop (if f.dx < 0 then .w else .e)).msg = f.msg ∧
    (f.hop (if f.dx < 0 then .w else .e)).at_.row = f.at_.row ∧
    (f.hop (if f.dx < 0 then .w else .e)).at_.col = (f.at_.col + if f.dx < 0 then 999 else 1) % 1000 ∧
    (f.hop (if f.dx < 0 then .w else .e)).dx = f.dx + (if f.dx < 0 then 1 else -1) ∧
    (f.hop (if f.dx < 0 then .w else .e)).dy = f.dy ∧ (f.hop (if f.dx < 0 then .w else .e)).yx = f.yx := by
  by_cases h : f.dx < 0
  · simp only [h, if_true, Flit.hop, neighbour, Int.sub_eq_add_neg, and_self]
  · simp only [h, if_false, Flit.hop, neighbour, Int.sub_eq_add_neg, and_self]

theorem Flit.hop_y (f : Flit) : (f.hop (if f.dy < 0 then .n else .s)).msg = f.msg ∧
    (f.hop (if f.dy < 0 then .n else .s)).at_.col = f.at_.col ∧
    (f.hop (if f.dy < 0 then .n else .s)).at_.row = (f.at_.row + if f.dy < 0 then 999 else 1) % 1000 ∧
    (f.hop (if f.dy < 0 then .n else .s)).dy = f.dy + (if f.dy < 0 then 1 else -1) ∧
    (f.hop (if f.dy < 0 then .n else .s)).dx = f.dx ∧ (f.hop (if f.dy < 0 then .n else .s)).yx = f.yx := by
  by_cases h : f.dy < 0
  · simp only [h, if_true, Flit.hop, neighbour, Int.sub_eq_add_neg, and_self]
  · simp only [h, if_false, Flit.hop, neighbour, Int.sub_eq_add_neg, and_self]

/-! Messages that enter the fabric. -/

theorem Device.enter_local {dv : Device} {c : Coord} {o : Option DWord} {m : Msg} {d : Dest} (hd : m.dest = some d)
    (hr : d.remote = none) : dv.enter c o m = { dv with net := dv.net ++ [mkFlit c o m d.coord] } := by
  rw [Device.enter, hd]
  simp only [hr]

theorem Device.enter_remote {dv : Device} {c : Coord} {o : Option DWord} {m : Msg} {d : Dest} {p w : Nat} (hd : m.dest = some d)
    (hr : d.remote = some (p, w)) (hp : p < 32) (hs : dv.secure p w = true) :
    dv.enter c o m = { dv with remoteOut := dv.remoteOut ++ [m], frames := dv.frames.filter (·.1 != p) } := by
  have hport : dv.portTo p w = some p := by rw [Device.portTo, if_pos hp, if_pos hs]
  rw [Device.enter, hd]
  simp only [hr, hport]

theorem Device.enter_local_twice {dv : Device} {c : Coord} {o : Option DWord} {m n : Msg} {d : Dest} (hm : m.dest = some d)
    (hn : n.dest = some d) (hr : d.remote = none) :
    ((dv.enter c o m).enter c o n).net = dv.net ++ [mkFlit c o m d.coord] ++ [mkFlit c o n d.coord] := by
  rw [Device.enter_local hm hr, Device.enter_local hn hr]

theorem Device.enter_remote_twice {dv : Device} {c : Coord} {o : Option DWord} {m n : Msg} {d : Dest} {p w : Nat} (hm : m.dest = some d)
    (hn : n.dest = some d) (hr : d.remote = some (p, w)) (hp : p < 32) (hs : dv.secure p w = true) :
    ((dv.enter c o m).enter c o n).remoteOut = dv.remoteOut ++ [m, n] ∧ ((dv.enter c o m).enter c o n).net = dv.net := by
  have hs' : (dv.enter c o m).secure p w = true := by
    rw [Device.enter_remote hm hr hp hs]
    exact hs
  rw [Device.enter_remote hn hr hp hs', Device.enter_remote hm hr hp hs]
  exact ⟨List.append_assoc .., rfl⟩

theorem mkFlit_at (c : Coord) (o : Option DWord) (m : Msg) (d : Coord) : (mkFlit c o m d).at_ = c ∧ (mkFlit c o m d).msg = m := by
  unfold mkFlit
  split <;> exact ⟨rfl, rfl⟩

/-! Resends and links that go down. -/

theorem Device.withRegion_at {dv : Device} {r : Nat} {x : Region} (h : dv.regions[r]? = some x) (f : Region → Region) :
    (dv.withRegion r f).regions[r]? = some (f x) := by
  have hr : r < dv.regions.length := (List.getElem?_eq_some_iff.mp h).1
  rw [Device.withRegion, h]
  exact List.getElem?_set_self hr

theorem Device.withRegion_net (dv : Device) (r : Nat) (f : Region → Region) : (dv.withRegion r f).net = dv.net := by
  unfold Device.withRegion
  split <;> rfl

theorem link_resends {s : State} {c : Coord} {d : Dir} {x : Region} (hx : s.dev.regions[regionOf (neighbour c d)]? = some x) :
    ∃ u, exec (.linkResend (.tile c) d) s = .next u ∧ u.dev.resendsOf c d = s.dev.resendsOf c d + 1 ∧
      u.dev.regions[regionOf (neighbour c d)]? = some { x with linkrty := (x.linkrty + 1) % 2 ^ 32 } ∧
      u.agenda = s.agenda ++ (if s.dev.resendsOf c d + 1 = 16 then [.linkDown (.tile c) d] else []) ∧ u.dev.net = s.dev.net ∧
      u.core = s.core ∧ u.others = s.others := by
  have hfind : ∀ (n : Nat) l, ((((c, d, n) :: l).find? fun r : Coord × Dir × Nat => r.1 == c && r.2.1 == d).map (·.2.2)).getD 0 = n := by
    intro n l
    simp
  refine ⟨_, rfl, ?_⟩
  simp only [State.linkResend]
  split
  · exact ⟨hfind _ _, Device.withRegion_at hx _, rfl, Device.withRegion_net _ _ _, rfl, rfl⟩
  · exact ⟨hfind _ _, Device.withRegion_at hx _, (List.append_nil _).symm, Device.withRegion_net _ _ _, rfl, rfl⟩

theorem link_downs {s : State} {c : Coord} {d : Dir} (h : 16 ≤ s.dev.resendsOf c d) (hup : (c, d) ∉ s.dev.down) :
    ∃ u q, exec (.linkDown (.tile c) d) s = .next u ∧ u.dev.down = s.dev.down ++ [(c, d), (neighbour c d, oppDir d)] ∧
      (q = c ∨ q = neighbour c d) ∧ u.agenda = s.agenda ++ [.shiftMigration q] ∧ u.dev.net = s.dev.net ∧ u.core = s.core ∧
      u.others = s.others := by
  have helem : s.dev.down.elem (c, d) = false := by simpa using hup
  have hgo : ¬ (decide (s.dev.resendsOf c d < 16) || s.dev.down.elem (c, d)) = true := by
    rw [helem, Bool.or_false, decide_eq_true_eq]
    omega
  have hq : ∀ tie first : Bool, (if tie then quarantineEnd c d else if first then c else neighbour c d) = c ∨
      (if tie then quarantineEnd c d else if first then c else neighbour c d) = neighbour c d := by
    intro tie first
    cases tie <;> cases first <;> cases d <;> simp [quarantineEnd]
  refine ⟨_, _, congrArg Host.Outcome.next (if_neg hgo), rfl, hq _ _, rfl, Device.withRegion_net _ _ _, rfl, rfl⟩

theorem Device.framesOf_cons (dv : Device) (p n q : Nat) :
    ({ dv with frames := (p, n) :: dv.frames.filter (·.1 != p) } : Device).framesOf q = if q = p then n else dv.framesOf q := by
  unfold Device.framesOf
  by_cases hq : q = p
  · subst hq
    simp
  · have hpq : (p == q) = false := beq_false_of_ne fun e => hq e.symm
    rw [if_neg hq, List.find?_cons]
    simp only [hpq, List.find?_filter]
    congr 2
    refine congrArg (fun f => List.find? f dv.frames) (funext fun x => ?_)
    by_cases hx : x.1 = q
    · simp [hx, hq]
    · simp [hx]

theorem Device.framesOf_filtered (dv : Device) (p : Nat) : ({ dv with frames := dv.frames.filter (·.1 != p) } : Device).framesOf p = 0 := by
  have hnone : (dv.frames.filter (·.1 != p)).find? (·.1 == p) = none := by
    rw [List.find?_eq_none]
    intro x hx hp
    rw [List.mem_filter] at hx
    simp [beq_iff_eq.mp hp] at hx
  rw [Device.framesOf, hnone]
  rfl

theorem frame_resends {s : State} {p : Nat} (d : Dir) (hp : p < 32) (hk : (s.dev.readyOf (108 + p)).kstate = 3) :
    ∃ u, exec (.linkResend (.optical p) d) s = .next u ∧ u.dev.framesOf p = s.dev.framesOf p + 1 ∧
      (∀ q, q ≠ p → u.dev.framesOf q = s.dev.framesOf q) ∧ u.dev.regions = s.dev.regions ∧
      u.agenda = s.agenda ++ (if s.dev.framesOf p + 1 = 16 then [.linkDown (.optical p) .e] else []) ∧ u.core = s.core ∧
      u.others = s.others := by
  have hgo : ¬ (!(decide (p < 32)) || (s.dev.readyOf (108 + p)).kstate != 3) = true := by simp [hp, hk]
  refine ⟨_, congrArg Host.Outcome.next (if_neg hgo), ?_⟩
  simp only []
  split
  · exact ⟨(Device.framesOf_cons ..).trans (if_pos rfl), fun q hq => (Device.framesOf_cons ..).trans (if_neg hq), rfl, rfl, rfl, rfl⟩
  · exact ⟨(Device.framesOf_cons ..).trans (if_pos rfl), fun q hq => (Device.framesOf_cons ..).trans (if_neg hq), rfl,
      (List.append_nil _).symm, rfl, rfl⟩

/-- Where no tile has an access under way, a link that drops fails none. -/
theorem State.dropTiles_of_no_accs {s : State} (h : ∀ t ∈ s.core :: s.others, t.accs = []) (l : ExtLink) (c : Cause) (cs : List Coord) :
    cs.foldl (State.dropTile l c) s = s := by
  refine List.foldl_fixed' (fun co => ?_) _
  unfold State.dropTile
  split
  · next t ht => rw [h t (State.tileAt_mem ht)]; rfl
  · rfl

/-- A ready record's link state after it is set to 0. -/
theorem Device.setReady_kstate (dv : Device) (n : Nat) (f : Ready → Ready) (hf : ∀ r, (f r).kstate = 0) :
    ((dv.setReady n f).readyOf n).kstate = 0 := by
  unfold Device.setReady
  split
  · next h => rw [← h, hf]
  · rw [Device.readyOf]
    show (((setAt dv.ready n (f (dv.readyOf n)))[n]?).getD Ready.zero).kstate = 0
    rw [setAt]
    by_cases hn : n < dv.ready.length
    · rw [List.getElem?_set_self hn, Option.getD_some, hf]
    · rw [List.getElem?_eq_none (by rw [List.length_set]; omega)]
      rfl

theorem Device.setReady_net (dv : Device) (n : Nat) (f : Ready → Ready) : (dv.setReady n f).net = dv.net := by
  unfold Device.setReady
  split <;> rfl

theorem optical_downs {s : State} {p : Nat} (d : Dir) (hp : p < 32) (h : 16 ≤ s.dev.framesOf p)
    (hacc : ∀ t ∈ s.core :: s.others, t.accs = []) :
    ∃ u, exec (.linkDown (.optical p) d) s = .next u ∧ (u.dev.readyOf (108 + p)).kstate = 0 ∧ u.dev.framesOf p = 0 ∧
      (∀ w, u.dev.secure p w = false) ∧ u.dev.net = s.dev.net ∧ u.core = s.core ∧ u.others = s.others := by
  have hdrop : s.linkDrop (.optical p) = s.withDev fun dv => dv.setReady (108 + p) fun r => { r with kstate := 0 } := by
    simp only [State.linkDrop, hp, if_true, State.dropTiles_of_no_accs hacc]
  have hk := Device.setReady_kstate s.dev (108 + p) (fun r => { r with kstate := 0 }) fun _ => rfl
  refine ⟨_, congrArg Host.Outcome.next (if_neg (Nat.not_lt.mpr h)), ?_⟩
  rw [hdrop]
  refine ⟨hk, ?_, fun w => ?_, Device.setReady_net _ _ _, rfl, rfl⟩
  · exact Device.framesOf_filtered _ p
  · rw [Device.secure]
    have hne : ∀ k, k = 0 → (k == 3) = false := by
      rintro k rfl
      rfl
    exact (congrArg (· && _) (hne _ hk)).trans (Bool.false_and _)

/-- Settles O46: arrival, the two kinds of hop, the discard, failed resends and the two kinds of link. -/
theorem fabricHops : Obligations.FabricHops := by
  intro s f c d
  refine ⟨?_, fun x hx => link_resends hx, fun h hup => link_downs h hup, fun p hp hk => ?_⟩
  · intro hnet ha hvc hc ho hsoft hbad calm
    refine ⟨fun hx hy => flit_arrives hnet ha hc ho hx hy, fun hx hy hup hr hcalm => ?_, fun hy hx hup hr hcalm => ?_,
      fun h p q b hm hx hyx hdown hr => ?_⟩
    · obtain ⟨u, a, hexec, hn, hsame⟩ := flit_hops hnet ha hvc hc ho hsoft hbad (Flit.next_x hx hy) hup hr hcalm
      obtain ⟨hmsg, hrow, hcol, hdx, hdy, hyx⟩ := f.hop_x
      exact ⟨u, _, hexec, hn, hmsg, hrow, hcol, hdx, hdy, hyx, hsame⟩
    · obtain ⟨u, a, hexec, hn, hsame⟩ := flit_hops hnet ha hvc hc ho hsoft hbad (Flit.next_y hy hx) hup hr hcalm
      obtain ⟨hmsg, hcol, hrow, hdy, hdx, hyx⟩ := f.hop_y
      exact ⟨u, _, hexec, hn, hmsg, hcol, hrow, hdy, hdx, hyx, hsame⟩
    · have hback : f.msg.backTo .lnkdn = [.notice h.src h.och h.seq .lnkdn 0#3, .credit h.src h.och 1] := by rw [hm]; rfl
      have hexec := flit_discarded hnet ha hvc hc ho (Flit.next_x hx fun e => by rw [hyx] at e; nomatch e) hdown hr
      rw [hback] at hexec
      refine ⟨_, hexec, rfl, rfl, fun hrem => ?_, fun o w hrem ho hsec => ?_⟩
      · refine ⟨mkFlit f.at_ none (.notice h.src h.och h.seq .lnkdn 0#3) h.src.coord, mkFlit f.at_ none (.credit h.src h.och 1) h.src.coord,
          ?_, (mkFlit_at ..).2, (mkFlit_at ..).2, (mkFlit_at ..).1, (mkFlit_at ..).1⟩
        exact Device.enter_local_twice (dv := { s.dev with net := [] }) (c := f.at_) (o := none)
          (m := .notice h.src h.och h.seq .lnkdn 0#3) (n := .credit h.src h.och 1) (d := h.src) rfl rfl hrem
      · obtain ⟨hout, hkeep⟩ := Device.enter_remote_twice (dv := { s.dev with net := [] }) (c := f.at_) (o := none)
          (m := .notice h.src h.och h.seq .lnkdn 0#3) (n := .credit h.src h.och 1) (d := h.src) rfl rfl hrem ho hsec
        exact ⟨hkeep, hout⟩
  · exact ⟨frame_resends d hp hk, fun h hacc => optical_downs d hp h hacc⟩

end Sys2Proof.Machine
end

section
/-! SUPPORT. What comes to a tile: packets, credit, notices, arrivals and answers (R91 to R95), and the comparison of a pair (R142,
R143). -/

namespace Sys2Proof.Machine

/-! Steps that take a message and change one tile. -/

/-- States that differ in their device only, as far as tiles, what is to come and the open bundle can tell. -/
structure State.Alike (s u : State) : Prop where
  tiles : ∀ c, u.tileAt c = s.tileAt c
  agenda : u.agenda = s.agenda
  bundle : u.bundle = s.bundle

/-- A step that changes one tile of a state alike in all but the device, and leaves it with nothing to report. -/
theorem BecomesWith.of_alike {i : Instr} {s u : State} {c : Coord} {t : Tile} (f : Tile → Tile) (hu : s.Alike u) (h : s.tileAt c = some t)
    (he : exec i s = .next (u.onTile c f)) (hp : (f t).isAt c = true) (hr : (f t).recs = []) : BecomesWith i s c (f t) u.dev := by
  have h' : u.tileAt c = some t := (hu.tiles c).trans h
  rw [State.onTile_quiet f h' hr] at he
  obtain ⟨h1, h2⟩ := State.tileAt_setTile h' hp
  exact ⟨_, he, h1, fun d hd => (h2 d hd).trans (hu.tiles d), State.setTile_dev _ _, (State.setTile_agenda _ _).trans hu.agenda,
    (State.setTile_bundle _ _).trans hu.bundle⟩

theorem State.Alike.withDev (s : State) (f : Device → Device) : s.Alike (s.withDev f) := ⟨fun _ => rfl, rfl, rfl⟩

/-- A change that leaves the tile it finds as it was. -/
theorem State.Alike.onTile {s u : State} (h : s.Alike u) {c : Coord} {t : Tile} {f : Tile → Tile} (ht : s.tileAt c = some t)
    (hf : f t = t) (hr : t.recs = []) : s.Alike (u.onTile c f) ∧ (u.onTile c f).dev = u.dev := by
  have ht' : u.tileAt c = some t := (h.tiles c).trans ht
  have hsame := State.onTile_same (s := u) (c := c) (f := f) fun v hv => by
    obtain rfl := Option.some.inj (ht'.symm.trans hv)
    exact ⟨hf, hr⟩
  rw [State.onTile_quiet f ht' (hf.symm ▸ hr)] at hsame ⊢
  exact ⟨⟨fun d => ((hsame d).1).trans (h.tiles d), (State.setTile_agenda _ _).trans h.agenda, (State.setTile_bundle _ _).trans h.bundle⟩,
    (hsame c).2⟩

/-- The state whose fabric is empty. -/
def State.emptied (s : State) : State := s.withDev fun _ => { s.dev with net := [] }

theorem State.Alike.emptied (s : State) : s.Alike s.emptied := .withDev s _

section
variable {s : State} {c : Coord} {t : Tile} {m : Msg}

theorem Device.arrivedAt_alone {dv : Device} {f : Flit} (hnet : dv.net = [f]) (ha : f.arrived = true) {p : Msg → Bool}
    (hp : p f.msg = true) : dv.arrivedAt f.at_ p = some f := by
  simp [Device.arrivedAt, hnet, ha, hp]

theorem State.takeFlit_alone {f : Flit} (hnet : s.dev.net = [f]) : s.takeFlit f = s.emptied := by
  simp [State.takeFlit, State.emptied, State.withDev, hnet]

theorem State.Arrived.found (h : s.Arrived c t m) :
    ∃ f, f.msg = m ∧ (∀ p : Msg → Bool, p m = true → s.dev.arrivedAt c p = some f) ∧
      s.takeFlit f = s.emptied := by
  obtain ⟨f, hnet, ha, hat, hm⟩ := h.flit
  refine ⟨f, hm, fun p hp => ?_, State.takeFlit_alone hnet⟩
  rw [← hat]
  exact Device.arrivedAt_alone hnet ha (hm ▸ hp)

/-- What answers an outbound channel of a tile that no saved state stands for is dealt with at the tile. -/
theorem State.Arrived.answer (h : s.Arrived c t m) {n : Nat} {p : Msg → Bool} {act : State → Msg → State} (hp : p m = true)
    (hs : s.savedFor c n = none) : s.answer c n p act = act s.emptied m := by
  obtain ⟨f, hm, hfind, htake⟩ := h.found
  rw [State.answer, hfind p hp]
  simp only [hs]
  rw [htake, hm]

/-- Nothing is forwarded for an unpaired tile. -/
theorem State.forward_unpaired {g : Coord → Msg} (h : s.tileAt c = some t) (hp : t.pair = none) : s.forward c g = s := by
  rw [State.forward, h]
  simp only [hp]

end

/-! Granule sets. -/

theorem NatSet.has_add_same (l : NatSet) (x : Nat) : (NatSet.add l x).has x = true := by
  induction l with
  | nil => simp [NatSet.add, NatSet.has]
  | cons a l ih => grind [NatSet.add, NatSet.has]

theorem NatSet.has_add_of_has {l : NatSet} {y : Nat} (x : Nat) (h : l.has y = true) : (NatSet.add l x).has y = true := by
  induction l with
  | nil => exact absurd h Bool.false_ne_true
  | cons a l ih => grind [NatSet.add, NatSet.has]

theorem NatSet.has_addAll_of_has {l : NatSet} {y : Nat} (xs : List Nat) (h : l.has y = true) : (NatSet.addAll l xs).has y = true := by
  induction xs generalizing l with
  | nil => exact h
  | cons x xs ih => exact ih (NatSet.has_add_of_has x h)

/-- A number put in a set, in order or not, is found there. -/
theorem NatSet.has_addAll_mem {l : NatSet} {xs : List Nat} {y : Nat} (h : y ∈ xs) : (NatSet.addAll l xs).has y = true := by
  induction xs generalizing l with
  | nil => nomatch h
  | cons x xs ih =>
    rcases List.mem_cons.mp h with rfl | h
    · exact NatSet.has_addAll_of_has xs (NatSet.has_add_same l y)
    · exact ih h

theorem NatSet.mem_of_has {l : NatSet} {x : Nat} (h : l.has x = true) : x ∈ l := by
  induction l with
  | nil => exact absurd h Bool.false_ne_true
  | cons a l ih =>
    rw [NatSet.has] at h
    split at h
    · next ha => exact ha ▸ List.mem_cons_self
    · split at h
      · exact absurd h Bool.false_ne_true
      · exact List.mem_cons_of_mem _ (ih h)

/-! Causes that wait. -/

theorem Tile.detect_counts (t : Tile) (c : Cause) : ∃ counts health, t.detect c = { t with counts := counts, health := health } := by
  unfold Tile.detect
  split <;> split <;> exact ⟨_, _, rfl⟩

/-- What raising a cause that waits for its boundary leaves: it pends, and all but the counts and the health is as it was. -/
structure Tile.Told (t v : Tile) (c : Cause) (faddr info : DWord) : Prop where
  pends : v.Pends c faddr info
  files : v.files = t.files
  pad : v.pad = t.pad
  recs : v.recs = t.recs
  isAt : ∀ d, v.isAt d = t.isAt d
  tagSt : ∀ n, v.tagSt n = t.tagSt n
  outs : v.outs = t.outs
  ins : v.ins = t.ins
  trees : v.trees = t.trees
  out : v.out = t.out
  pair : v.pair = t.pair
  accs : v.accs = t.accs
  guards : v.guards = t.guards
  holds : v.holds = t.holds

theorem Tile.Told.outCh {t v : Tile} {c : Cause} {faddr info : DWord} (h : t.Told v c faddr info) (n : Nat) : v.outCh n = t.outCh n := by
  rw [Tile.outCh, Tile.outCh, h.outs]

theorem Tile.Told.tree {t v : Tile} {c : Cause} {faddr info : DWord} (h : t.Told v c faddr info) (n : Nat) : v.tree n = t.tree n := by
  rw [Tile.tree, Tile.tree, h.trees]

/-- A cause that no instruction of the handler raises waits for its boundary. -/
theorem Tile.Told.await {t : Tile} {seq : Option Nat} (htm : t.sch.tm = false ∨ seq = none) (hlen : t.sch.pend.length < 32) (c : Cause)
    (unit : Nat) (faddr info : DWord) : t.Told (t.await c seq unit faddr info) c faddr info := by
  rw [Tile.await_waits htm hlen c unit faddr info]
  exact ⟨⟨_, mem_insertPending _ _, rfl, rfl, rfl⟩, rfl, rfl, rfl, fun _ => rfl, fun _ => rfl, rfl, rfl, rfl, rfl, rfl, rfl, rfl,
    rfl⟩

theorem Tile.Told.counted {t v : Tile} {c : Cause} {faddr info : DWord} {counts : List (Option Cause × Nat)} {health : Health}
    (h : ({ t with counts := counts, health := health } : Tile).Told v c faddr info) : t.Told v c faddr info :=
  ⟨h.pends, h.files, h.pad, h.recs, h.isAt, h.tagSt, h.outs, h.ins, h.trees, h.out, h.pair, h.accs, h.guards, h.holds⟩

theorem Tile.Told.raise {t : Tile} {seq : Option Nat} (htm : t.sch.tm = false ∨ seq = none) (hlen : t.sch.pend.length < 32) (c : Cause)
    (unit : Nat) (faddr info : DWord) : t.Told (t.raise c seq unit faddr info) c faddr info := by
  obtain ⟨counts, health, hd⟩ := t.detect_counts c
  rw [Tile.raise, hd]
  exact Tile.Told.counted (Tile.Told.await (t := { t with counts := counts, health := health }) htm hlen c unit faddr info)

theorem Tile.setTag_pend (t : Tile) (n : Nat) (st : TagSt) : (t.setTag n st).sch.pend = t.sch.pend := by
  unfold Tile.setTag
  split <;> rfl

theorem Tile.setTag_outCh (t : Tile) (n : Nat) (st : TagSt) (k : Nat) : (t.setTag n st).outCh k = t.outCh k := by
  unfold Tile.setTag
  split <;> rfl

theorem Tile.putOut_self (t : Tile) {n : Nat} (hn : n < 32) : t.putOut n (t.outCh n) = t := by
  rw [Tile.putOut, Tile.outCh, Vector.getElem?_eq_getElem hn, Option.getD_some]
  refine congrArg (fun v => { t with outs := v }) (Vector.ext fun i hi => ?_)
  rw [Vector.getElem_setIfInBounds]
  split
  · next h => simp only [h]
  · rfl

theorem Tile.putIn_self (t : Tile) {n : Nat} (hn : n < 32) : t.putIn n (t.inCh n) = t := by
  rw [Tile.putIn, Tile.inCh, Vector.getElem?_eq_getElem hn, Option.getD_some]
  refine congrArg (fun v => { t with ins := v }) (Vector.ext fun i hi => ?_)
  rw [Vector.getElem_setIfInBounds]
  split
  · next h => simp only [h]
  · rfl

section
variable {s : State} {c : Coord} {t : Tile} {m : Msg} {n : BitVec 5}

theorem credit_arrives {d : Dest} {x : Nat} (h : s.Arrived c t m) (hp : t.pair = none) (hm : m = .credit d n.toNat x)
    (hs : s.savedFor c n.toNat = none) :
    ∃ v, BecomesWith (.creditArrive c n) s c v { s.dev with net := [] } ∧
      (v.outCh n.toNat).credit = Nat.min 31 ((t.outCh n.toNat).credit + x) ∧ (∀ k, k ≠ n.toNat → v.outCh k = t.outCh k) ∧
      v.files = t.files ∧ v.pad = t.pad ∧ v.sch = t.sch := by
  subst hm
  have hn : n.toNat < 32 := n.isLt
  have he : exec (.creditArrive c n) s = .next (s.emptied.onTile c fun t =>
      t.withOut n.toNat fun o => { o with credit := Nat.min 31 (o.credit + x) }) := by
    show Host.Outcome.next (s.creditArrive c n.toNat) = _
    rw [State.creditArrive]
    refine congrArg Host.Outcome.next ((h.answer ?_ hs).trans ?_)
    · exact beq_self_eq_true _
    · exact congrArg (State.onTile · c _) (State.forward_unpaired (s := s.emptied) h.tile hp)
  have hw := t.withOut_eq hn fun o => { o with credit := Nat.min 31 (o.credit + x) }
  have hat : t.isAt c = true := State.tileAt_isAt h.tile
  refine ⟨_, BecomesWith.of_alike _ (.emptied s) h.tile he (by rw [hw]; exact hat) (by rw [hw]; exact h.noReports), ?_⟩
  rw [hw]
  refine ⟨?_, fun k hk => ?_, rfl, rfl, rfl⟩
  · rw [Tile.outCh_putOut t hn, if_pos rfl]
  · rw [Tile.outCh_putOut t hn, if_neg hk]

theorem notice_arrives {d : Dest} {q : Word} {cz : Cause} {tag : BitVec 3} (h : s.Arrived c t m) (hp : t.pair = none)
    (hlen : t.sch.pend.length < 32) (hm : m = .notice d n.toNat q cz tag) (hs : s.savedFor c n.toNat = none) :
    ∃ v, BecomesWith (.sendFaultNotice c n) s c v { s.dev with net := [] } ∧ (cz = .chdead → (v.outCh n.toNat).dead = true) ∧
      (tag ≠ 0#3 → v.tagSt tag.toNat = .faulted) ∧ v.Pends cz 0#64 (BitVec.ofNat 64 (n.toNat * 2 ^ 32 + q.toNat)) ∧
      v.files = t.files ∧ v.pad = t.pad := by
  subst hm
  have hn : n.toNat < 32 := n.isLt
  obtain ⟨x, hx, hdead⟩ : ∃ x, (if cz = .chdead then t.withOut n.toNat fun o => { o with dead := true } else t) = t.putOut n.toNat x ∧
      (cz = .chdead → x.dead = true) := by
    by_cases hc : cz = .chdead
    · exact ⟨_, (if_pos hc).trans (t.withOut_eq hn _), fun _ => rfl⟩
    · exact ⟨t.outCh n.toNat, (if_neg hc).trans (t.putOut_self hn).symm, fun h => absurd h hc⟩
  have he : exec (.sendFaultNotice c n) s = .next (s.emptied.onTile c fun t =>
      ((if cz = .chdead then t.withOut n.toNat fun o => { o with dead := true } else t).setTag tag.toNat .faulted).raise cz none 2 0#64
        (sendInfo n.toNat q)) := by
    show Host.Outcome.next (s.sendFault c n.toNat) = _
    rw [State.sendFault]
    refine congrArg Host.Outcome.next ((h.answer ?_ hs).trans ?_)
    · exact beq_self_eq_true _
    · exact congrArg (State.onTile · c _) (State.forward_unpaired (s := s.emptied) h.tile hp)
  have hat : t.isAt c = true := State.tileAt_isAt h.tile
  have hv := Tile.Told.raise (t := (t.putOut n.toNat x).setTag tag.toNat .faulted) (.inr rfl) (by rw [Tile.setTag_pend]; exact hlen) cz 2 0#64
    (sendInfo n.toNat q)
  rw [← hx] at hv
  refine ⟨_, BecomesWith.of_alike _ (.emptied s) h.tile he ((hv.isAt c).trans ?_) (hv.recs.trans ?_), fun hc => ?_, fun htag => ?_, hv.pends,
    hv.files.trans ?_, hv.pad.trans ?_⟩ <;> rw [hx]
  · exact (Tile.setTag_isAt ..).trans hat
  · exact (Tile.setTag_recs ..).trans h.noReports
  · rw [← hx, hv.outCh, hx, Tile.setTag_outCh, Tile.outCh_putOut t hn, if_pos rfl]
    exact hdead hc
  · rw [← hx, hv.tagSt, hx]
    exact Tile.tagSt_setTag_same _ _ htag
  · exact Tile.setTag_files ..
  · exact Tile.setTag_pad ..

theorem result_arrives {d : Dest} {q : Word} {tag : BitVec 3} {r : Option Cause} (h : s.Arrived c t m) (hp : t.pair = none)
    (hlen : t.sch.pend.length < 32) (hm : m = .result d n.toNat q tag r) (hs : s.savedFor c n.toNat = none) :
    ∃ v, BecomesWith (.arrivalResult c n) s c v { s.dev with net := [] } ∧ v.files = t.files ∧ v.pad = t.pad ∧
      (r = none → (tag ≠ 0#3 → v.tagSt tag.toNat = .free) ∧ v.sch.pend = t.sch.pend) ∧
      ∀ cz, r = some cz → (tag ≠ 0#3 → v.tagSt tag.toNat = .faulted) ∧
        v.Pends cz 0#64 (BitVec.ofNat 64 (n.toNat * 2 ^ 32 + q.toNat)) := by
  subst hm
  have hat : t.isAt c = true := State.tileAt_isAt h.tile
  have hfwd := State.forward_unpaired (s := s.emptied) (g := fun d => .result ⟨none, d⟩ n.toNat q tag r) h.tile hp
  cases r with
  | none =>
    have he : exec (.arrivalResult c n) s = .next (s.emptied.onTile c fun t => t.setTag tag.toNat .free) := by
      show Host.Outcome.next (s.arrivalResult c n.toNat) = _
      rw [State.arrivalResult]
      refine congrArg Host.Outcome.next ((h.answer ?_ hs).trans ?_)
      · exact beq_self_eq_true _
      · exact congrArg (State.onTile · c _) hfwd
    exact ⟨_, BecomesWith.of_alike _ (.emptied s) h.tile he ((Tile.setTag_isAt ..).trans hat) ((Tile.setTag_recs ..).trans h.noReports),
      Tile.setTag_files .., Tile.setTag_pad .., fun _ => ⟨Tile.tagSt_setTag_same _ _, Tile.setTag_pend ..⟩, fun _ e => nomatch e⟩
  | some cz =>
    have he : exec (.arrivalResult c n) s = .next (s.emptied.onTile c fun t =>
        (t.setTag tag.toNat .faulted).raise cz none 2 0#64 (sendInfo n.toNat q)) := by
      show Host.Outcome.next (s.arrivalResult c n.toNat) = _
      rw [State.arrivalResult]
      refine congrArg Host.Outcome.next ((h.answer ?_ hs).trans ?_)
      · exact beq_self_eq_true _
      · exact congrArg (State.onTile · c _) hfwd
    have hv := Tile.Told.raise (t := t.setTag tag.toNat .faulted) (.inr rfl) (by rw [Tile.setTag_pend]; exact hlen) cz 2 0#64
      (sendInfo n.toNat q)
    refine ⟨_, BecomesWith.of_alike _ (.emptied s) h.tile he ((hv.isAt c).trans ((Tile.setTag_isAt ..).trans hat))
      (hv.recs.trans ((Tile.setTag_recs ..).trans h.noReports)), hv.files.trans (Tile.setTag_files ..),
      hv.pad.trans (Tile.setTag_pad ..), (nomatch ·), fun _ e => ?_⟩
    obtain rfl := Option.some.inj e
    exact ⟨fun htag => (hv.tagSt _).trans (Tile.tagSt_setTag_same _ _ htag), hv.pends⟩

/-- The port that a sender's traffic comes by is noted, and nothing else. -/
theorem Tile.notePort_eq (t : Tile) {k : Nat} (hk : k < 32) (h : PHead) :
    ∃ p, t.notePort k h = t.putIn k { t.inCh k with port := p } := by
  unfold Tile.notePort
  split
  · exact ⟨_, rfl⟩
  · exact ⟨(t.inCh k).port, (t.putIn_self hk).symm⟩

/-- The tile with a packet in the slot of its ring and the channel as given. -/
def Tile.packed (t : Tile) (k a : Nat) (x : InCh) (payload : List Byte) : Tile :=
  ((t.withPad fun p => p.writeRun a payload).setFull (granules a payload.length)).putIn k x

theorem Tile.writeSlot_eq {t : Tile} {k : Nat} (hb : bitOf (t.inCh k).binding.toNat 48 = false) (payload : List Byte) :
    t.writeSlot k payload [] = t.packed k ((t.inCh k).slotAddr (t.inCh k).rcnt.toNat) { t.inCh k with rcnt := (t.inCh k).rcnt + 1#32 }
      payload := by
  rw [Tile.writeSlot]
  simp only [hb, Bool.false_eq_true, if_false]
  rfl

theorem Tile.packed_mem (t : Tile) (k a : Nat) (x : InCh) (payload : List Byte) :
    (t.packed k a x payload).pad.mem = t.pad.mem.put a payload := Pad.writeRun_mem _ _ _

theorem Tile.packed_full (t : Tile) (k a : Nat) (x : InCh) (payload : List Byte) :
    (t.packed k a x payload).pad.full = NatSet.addAll t.pad.full (granules a payload.length) := rfl

theorem Tile.packed_putIn (t : Tile) (k a : Nat) (x y : InCh) (payload : List Byte) :
    (t.putIn k x).packed k a y payload = t.packed k a y payload := by
  simp only [Tile.packed, Tile.putIn, Tile.setFull, Tile.withPad, Vector.setIfInBounds_setIfInBounds]

theorem Tile.packed_isAt (t : Tile) (k a : Nat) (x : InCh) (payload : List Byte) (c : Coord) :
    (t.packed k a x payload).isAt c = t.isAt c := rfl

theorem Tile.packed_recs (t : Tile) (k a : Nat) (x : InCh) (payload : List Byte) : (t.packed k a x payload).recs = t.recs := rfl

theorem packet_arrives {h : PHead} {payload : List Byte} (ha : s.Arrived c t m) (hp : t.pair = none)
    (hm : m = .packet h payload [] false) (hich : h.ich = n.toNat) (hfrom : t.fromSender (t.inCh n.toNat) h = true)
    (hw : s.dev.awaitsRestore c h = false) (hrun : t.sch.status = .running) (hb : (t.inCh n.toNat).bound = true)
    (htx : bitOf (t.inCh n.toNat).binding.toNat 48 = false) (hl : payload.length ≤ 16 * (t.inCh n.toNat).slotG)
    (he : t.slotEmpty (t.inCh n.toNat) = true) (hbefore : t.beforeB (t.slotGranules n.toNat) = t) :
    ∃ p, BecomesWith (.receive c n) s c (t.packed n.toNat ((t.inCh n.toNat).slotAddr (t.inCh n.toNat).rcnt.toNat)
      { t.inCh n.toNat with port := p, rcnt := (t.inCh n.toNat).rcnt + 1#32 } payload) { s.dev with net := [] } := by
  subst hm
  have hn : n.toNat < 32 := n.isLt
  obtain ⟨f, hmsg, hfind, htake⟩ := ha.found
  obtain ⟨p, hnote⟩ := t.notePort_eq hn h
  have hmeets : t.meets n.toNat h payload.length false = none := by
    simp [Tile.meets, hfrom, Tile.receives, hrun, hb, he, Nat.not_lt.mpr hl]
  obtain ⟨hclear, hdev⟩ := (State.Alike.emptied s).onTile (f := fun t => t.beforeB (t.slotGranules n.toNat)) ha.tile hbefore ha.noReports
  have hexec : exec (.receive c n) s = .next ((s.emptied.clearSlot c n.toNat).onTile c fun t =>
      (t.notePort n.toNat h).writeSlot n.toNat payload []) := by
    show Host.Outcome.next (s.receive c n.toNat) = _
    rw [State.receive, Device.nextOn, hfind _ (by simp [Msg.head, hich])]
    simp only [hmsg, hw, Bool.false_eq_true, if_false, htake]
    have htile : s.emptied.tileAt c = some t := ha.tile
    have htile' : (s.emptied.clearSlot c n.toNat).tileAt c = some t := (hclear.tiles c).trans ha.tile
    simp only [htile, htile', Option.getD_some, hp, hmeets, List.isEmpty_nil, if_true]
  have hin : (t.notePort n.toNat h).inCh n.toNat = { t.inCh n.toNat with port := p } := by
    rw [hnote, Tile.inCh_putIn t hn, if_pos rfl]
  have hv : (t.notePort n.toNat h).writeSlot n.toNat payload [] = t.packed n.toNat
      ((t.inCh n.toNat).slotAddr (t.inCh n.toNat).rcnt.toNat)
      { t.inCh n.toNat with port := p, rcnt := (t.inCh n.toNat).rcnt + 1#32 } payload := by
    rw [Tile.writeSlot_eq (by rw [hin]; exact htx), hin, hnote]
    exact Tile.packed_putIn ..
  refine ⟨p, ?_⟩
  have hat : t.isAt c = true := State.tileAt_isAt ha.tile
  have hbec := BecomesWith.of_alike _ hclear ha.tile hexec (by rw [hv, Tile.packed_isAt]; exact hat)
    (by rw [hv, Tile.packed_recs]; exact ha.noReports)
  rw [hv, hdev] at hbec
  exact hbec

/-- A read of a granule that has no uncorrectable error ends its correctable ones. -/
theorem Tile.findErrors_unhit {t : Tile} {g : Nat} (hb : ∀ w ∈ t.pad.bad, w / 4 ≠ g) (hi : t.pad.inj.armed = 0) :
    ∃ soft counts, t.findErrors [g] = { t with pad := { t.pad with soft := soft }, counts := counts } := by
  have hws : t.pad.bad.filter (fun w => [g].elem (w / 4)) = [] := List.filter_eq_nil_iff.mpr fun w hw => by
    simpa using hb w hw
  have hbs : t.pad.bad.filter (fun w => !([g].elem (w / 4))) = t.pad.bad := List.filter_eq_self.mpr fun w hw => by
    simpa using hb w hw
  have hinj : ∀ (u : Tile) real soft, u.pad.inj = t.pad.inj → u.withPad (Pad.report real soft) = u := by
    intro u real soft hu
    rw [Tile.withPad, Pad.report, hu, Inject.has_unarmed hi, Inject.has_unarmed hi, Bool.false_and, Bool.false_and,
      if_neg (by decide), if_neg (by decide), ← hu]
  simp only [Tile.findErrors, Tile.readWords, List.isEmpty_cons, Bool.not_false, if_true, Tile.meetErrors, hws, hbs]
  split
  · exact ⟨t.pad.soft, t.counts, hinj t _ _ rfl⟩
  · exact ⟨_, _, hinj _ _ _ rfl⟩

/-- The tile in which a barrier object is as given, with what a read of it has corrected. -/
def Tile.arrivedAt (t : Tile) (soft : List Nat) (counts : List (Option Cause × Nat)) (a : Nat) (b : Bar) : Tile :=
  { t with pad := { t.pad with soft := soft, mem := t.pad.mem.putVal a 16 b.toVal }, counts := counts }

section
variable {t : Tile} {soft : List Nat} {counts : List (Option Cause × Nat)} {a : Nat} {b : Bar}

theorem Tile.arrivedAt_files : (t.arrivedAt soft counts a b).files = t.files := by rw [Tile.arrivedAt]
theorem Tile.arrivedAt_sch : (t.arrivedAt soft counts a b).sch = t.sch := by rw [Tile.arrivedAt]
theorem Tile.arrivedAt_pair : (t.arrivedAt soft counts a b).pair = t.pair := by rw [Tile.arrivedAt]
theorem Tile.arrivedAt_isAt (c : Coord) : (t.arrivedAt soft counts a b).isAt c = t.isAt c := by rw [Tile.arrivedAt]; rfl
theorem Tile.arrivedAt_mem : (t.arrivedAt soft counts a b).pad.mem = t.pad.mem.putVal a 16 b.toVal := by rw [Tile.arrivedAt]

/-- An arrival that finds its barrier readable is evaluated there (R54, R95). -/
theorem Tile.evalArrival_of_le {k : Nat} (ha : a % 16 = 0) (hin : a + 16 ≤ 0x2F000) (hp : a / 16 ∉ t.pad.poison)
    (hb : ∀ w ∈ t.pad.bad, w / 4 ≠ a / 16) (hi : t.pad.inj.armed = 0) (hk : k ≤ (t.pad.bar a).pend) :
    ∃ soft counts, t.evalArrival a k = (t.arrivedAt soft counts a ((t.pad.bar a).arrive k).1, none) := by
  obtain ⟨soft, counts, hfind⟩ := Tile.findErrors_unhit hb hi
  have hhas : t.pad.poison.has (a / 16) = false := Bool.eq_false_iff.mpr fun h => hp (NatSet.mem_of_has h)
  have hgen : inGeneral a 16 = true := by
    rw [inGeneral, decide_eq_true_eq]
    exact hin
  have hok : ((t.pad.bar a).arrive k).2 = true := by rw [Bar.arrive_of_le hk]
  refine ⟨soft, counts, ?_⟩
  rw [Tile.evalArrival]
  simp only [ha, hgen, hfind, hhas, bne_self_eq_false, Bool.not_true, Bool.or_self, Bool.false_eq_true, if_false]
  have hbar : ({ t.pad with soft := soft } : Pad).bar a = t.pad.bar a := rfl
  rw [hbar, hok, if_pos rfl, Tile.arrivedAt, Tile.withPad, Pad.putBar]

end

theorem arrival_arrives {h : PHead} {a : Word} {k : Nat} {tag : BitVec 3} (hs : s.Arrived c t m) (hp : t.pair = none)
    (hm : m = .arrival h a k tag) (hich : h.ich = n.toNat) (hfrom : t.fromSender (t.inCh n.toNat) h = true)
    (hw : s.dev.awaitsRestore c h = false) (hrun : t.sch.status = .running) (hbr : (t.inCh n.toNat).broken = false)
    (ha : a.toNat % 16 = 0) (hin : a.toNat + 16 ≤ 0x2F000) (hpoi : a.toNat / 16 ∉ t.pad.poison)
    (hb : ∀ w ∈ t.pad.bad, w / 4 ≠ a.toNat / 16) (hi : t.pad.inj.armed = 0) (hk : k ≤ (t.pad.bar a.toNat).pend) :
    ∃ u v, exec (.remoteArrival c n) s = .next u ∧ u.tileAt c = some v ∧
      u.dev = ({ s.dev with net := [] } : Device).enter c none (.result h.src h.och h.seq tag none) ∧
      v.files = t.files ∧ v.sch = t.sch ∧ v.pad.mem = t.pad.mem.putVal a.toNat 16 ((t.pad.bar a.toNat).arrive k).1.toVal := by
  subst hm
  obtain ⟨f, hmsg, hfind, htake⟩ := hs.found
  obtain ⟨p, hnote⟩ := t.notePort_eq n.isLt h
  obtain ⟨soft, counts, heval⟩ := Tile.evalArrival_of_le (k := k) (t := t.notePort n.toNat h) ha hin (by rw [hnote]; exact hpoi)
    (by rw [hnote]; exact hb) (by rw [hnote]; exact hi) (by rw [hnote]; exact hk)
  have hat : t.isAt c = true := State.tileAt_isAt hs.tile
  have hrecv : t.receives = true := by simp [Tile.receives, hrun]
  have hshadow : t.isShadow = false := by simp [Tile.isShadow, hp]
  have htile : s.emptied.tileAt c = some t := hs.tile
  obtain ⟨w, hwdef⟩ : ∃ w, w = (t.notePort n.toNat h).arrivedAt soft counts a.toNat (((t.notePort n.toNat h).pad.bar a.toNat).arrive k).1 :=
    ⟨_, rfl⟩
  rw [← hwdef] at heval
  have hwat : w.isAt c = true := by rw [hwdef, Tile.arrivedAt_isAt, hnote]; exact hat
  refine ⟨(s.emptied.setTile w).sendFrom c (.result h.src h.och h.seq tag none), w, ?_, (State.tileAt_setTile htile hwat).1, ?_, ?_, ?_, ?_⟩
  · show Host.Outcome.next (s.remoteArrival c n.toNat) = _
    rw [State.remoteArrival, Device.nextOn, hfind _ (by simp [Msg.head, hich])]
    simp only [hmsg, hw, Bool.false_eq_true, if_false, htake, htile, hp, hfrom, Bool.not_true, hrecv, hbr, Bool.or_self, heval, hshadow]
  · exact congrArg (fun dv : Device => dv.enter c none (.result h.src h.och h.seq tag none)) (State.setTile_dev s.emptied w)
  · rw [hwdef, Tile.arrivedAt_files, hnote]
    rfl
  · rw [hwdef, Tile.arrivedAt_sch, hnote]
    rfl
  · rw [hwdef, Tile.arrivedAt_mem, hnote]
    rfl

end

/-- Settles O47: a packet, credit, a notice, an arrival and an answer, each by its own lemma. -/
theorem receiptSteps : Obligations.ReceiptSteps := by
  intro s c t m n ha hp hlen
  refine ⟨fun h payload hm hich hfrom hw hrun hb htx hl he hbefore hwf => ?_, fun d x hm hs => credit_arrives ha hp hm hs,
    fun d q cz tag hm hs => notice_arrives ha hp hlen hm hs,
    fun h a cnt tag hm hich hfrom hw hrun hbr hal hin hpoi hbad hi => ?_, fun d q tag r hm hs => ?_⟩
  · obtain ⟨p, hbec⟩ := packet_arrives ha hp hm hich hfrom hw hrun hb htx hl he hbefore
    refine ⟨_, hbec, ?_, fun k x hk => ?_, fun b hb => ?_, fun g hg => NatSet.has_addAll_mem hg, rfl, rfl⟩
    · exact congrArg InCh.rcnt ((Tile.inCh_putIn _ n.isLt _ _).trans (if_pos rfl))
    · rw [Tile.packed_mem]
      exact Memory.read_put_inside hwf hk
    · rw [Tile.packed_mem]
      exact Memory.read_put_outside hwf hb
  · intro b hk
    obtain ⟨u, v, hexec, htile, hdev, hfiles, hsch, hmem⟩ := arrival_arrives ha hp hm hich hfrom hw hrun hbr hal hin hpoi hbad hi hk
    refine ⟨u, v, hexec, htile, hdev, fun hrem => ?_, hfiles, hsch, ?_⟩
    · exact ⟨_, hdev.trans (Device.enter_local (d := h.src) rfl hrem), (mkFlit_at ..).1, (mkFlit_at ..).2⟩
    · rw [hmem, Bar.arrive_of_le hk]
  · obtain ⟨v, hbec, hfiles, hpad, hnone, hsome⟩ := result_arrives ha hp hlen hm hs
    refine ⟨v, hbec, hfiles, hpad, ?_⟩
    cases r with
    | none => exact hnone rfl
    | some cz => exact hsome cz rfl

/-! The comparison of a pair. -/

/-- What giving up an item leaves of a tile: all but the item and its key. -/
structure Tile.GivesUp (key : Nat) (t u : Tile) : Prop where
  files : u.files = t.files
  out : u.out = t.out
  recs : u.recs = t.recs
  isAt : ∀ d, u.isAt d = t.isAt d
  pend : u.sch.pend = t.sch.pend
  pair : ∀ p, t.pair = some p → p.ok.filter (· != key) = p.ok → u.pair = some p

namespace Tile.GivesUp
variable {key : Nat}

theorem refl (t : Tile) : t.GivesUp key t := ⟨rfl, rfl, rfl, fun _ => rfl, rfl, fun _ h _ => h⟩

theorem trans {t u v : Tile} (h : t.GivesUp key u) (h' : u.GivesUp key v) : t.GivesUp key v :=
  ⟨h'.files.trans h.files, h'.out.trans h.out, h'.recs.trans h.recs, fun d => (h'.isAt d).trans (h.isAt d), h'.pend.trans h.pend,
    fun p hp hk => h'.pair p (h.pair p hp hk) hk⟩

theorem setTag (t : Tile) (n : Nat) (st : TagSt) : t.GivesUp key (t.setTag n st) := by
  unfold Tile.setTag
  split
  · exact refl t
  · exact ⟨rfl, rfl, rfl, fun _ => rfl, rfl, fun _ h _ => h⟩

theorem pairOver (t : Tile) : t.GivesUp key (t.pairOver key) := by
  refine ⟨rfl, rfl, rfl, fun _ => rfl, rfl, fun p hp hk => ?_⟩
  rw [Tile.pairOver, hp, Option.map_some, hk]

theorem acqEnded (t : Tile) (g : GuardReq) (c : Option Cause) (x : Option Xlat) : t.GivesUp key (t.acqEnded g c x) :=
  ⟨rfl, rfl, rfl, fun _ => rfl, rfl, fun _ h _ => h⟩

theorem overGuard {t : Tile} {seq : Nat} (hk : guardKey seq = key) : t.GivesUp key (t.overGuard seq) := by
  subst hk
  exact trans (u := { t with guards := t.guards.filter (·.seq != seq) }) ⟨rfl, rfl, rfl, fun _ => rfl, rfl, fun _ h _ => h⟩ (pairOver _)

theorem freeCopies (t : Tile) : t.GivesUp key t.freeCopies := ⟨rfl, rfl, rfl, fun _ => rfl, rfl, fun _ h _ => h⟩

theorem putJob {t : Tile} {n : Nat} {old : CopyJob} (hk : rowKey n old = key) (new : CopyJob) : t.GivesUp key (t.putJob n old new) := by
  subst hk
  unfold Tile.putJob
  refine trans (u := if old.tpl.out && new.row != old.row then t.pairOver (rowKey n old) else t) ?_
    ⟨rfl, rfl, rfl, fun _ => rfl, rfl, fun _ h _ => h⟩
  split
  · exact pairOver t
  · exact refl t

theorem foldl {α : Type} {f : Tile → α → Tile} (hf : ∀ (t : Tile) x, t.GivesUp key (f t x)) (l : List α) (t : Tile) :
    t.GivesUp key (l.foldl f t) := by
  induction l generalizing t with
  | nil => exact refl t
  | cons x l ih => exact (hf t x).trans (ih _)

/-- An item is given up where it stands: an arrival's tag, an access, a guard request, a copy row (R143). -/
theorem discardItem (t : Tile) (m : Option Msg) :
    ({ t with pair := t.pair.map fun (p : Pair) => { p with held := p.held.filter (·.key != key), ok := p.ok.filter (· != key) } } :
      Tile).GivesUp key (t.discardItem key m) := by
  unfold Tile.discardItem
  dsimp only
  split
  · exact setTag _ _ _
  · split
    · split
      · exact ⟨rfl, rfl, rfl, fun _ => rfl, rfl, fun _ h _ => h⟩
      · exact refl _
    · exact refl _
  · split
    · next g hg =>
      have hkey : (guardKey g.seq == key) = true := List.find?_some (p := fun g : GuardReq => guardKey g.seq == key) hg
      refine trans (trans (trans ?_ (overGuard (beq_iff_eq.mp hkey))) (freeCopies _)) (setTag _ _ _)
      split
      · exact refl _
      · exact acqEnded _ _ _ _
    · exact refl _
  · refine foldl (fun u n => ?_) _ _
    split
    · next j hj =>
      have hkey := List.find?_some hj
      rw [Bool.and_eq_true] at hkey
      exact putJob (beq_iff_eq.mp hkey.2) _
    · exact refl u
  · exact refl _

end Tile.GivesUp

/-- PAIRMIS waits for its boundary (R143). -/
theorem Tile.Told.mispaired {t : Tile} (hlen : t.sch.pend.length < 32) (counts : Bool) :
    t.Told (t.mispaired true counts) .pairmis 0#64 0#64 := by
  unfold Tile.mispaired
  cases counts with
  | false => exact Tile.Told.raise (.inr rfl) hlen .pairmis 2 0#64 0#64
  | true => exact Tile.Told.counted (health := t.health) (Tile.Told.raise (t := t.count .pairmis) (.inr rfl) hlen .pairmis 2 0#64 0#64)

section
variable {s : State} {c : Coord} {t w : Tile} {p : Pair} {x : PairItem} {m : Msg}

/-- An item that a pair's comparison discards: PAIRMIS in both tiles, the item and its key gone, nothing sent (R143). -/
theorem State.pairFails_told (ht : s.tileAt c = some t) (hr : t.recs = []) (hp : t.pair = some p) (hheld : p.held = [x])
    (hitem : x.item = some m) (hg : x.group = false) (hw : s.tileAt p.partner = some w) (hwr : w.recs = []) (hne : p.partner ≠ c)
    (hlen : t.sch.pend.length < 32) (hwlen : w.sch.pend.length < 32) :
    ∃ v v', (s.pairFails c p x.key).tileAt c = some v ∧ (s.pairFails c p x.key).tileAt p.partner = some v' ∧
      v.pair = some { p with held := [], ok := p.ok.filter (· != x.key) } ∧ v.out = t.out ∧ v.Pends .pairmis 0#64 0#64 ∧
      v'.Pends .pairmis 0#64 0#64 ∧ v.files = t.files ∧ v'.files = w.files := by
  have hfind : (p.held.find? fun y => y.key == x.key && y.item.isSome) = some x := by
    rw [hheld]
    simp [hitem]
  have hexec : s.pairFails c p x.key = (s.onTile c fun t => (t.discardItem x.key (some m)).mispaired true true).onTile p.partner
      fun t => (t.discardItem x.key (some m)).mispaired true false := by
    simp only [State.pairFails, hfind, hg, hitem, Option.bind_some, Bool.not_false, if_true]
  have hd := Tile.GivesUp.discardItem (key := x.key) t (some m)
  have hd' := Tile.GivesUp.discardItem (key := x.key) w (some m)
  have hv := Tile.Told.mispaired (t := t.discardItem x.key (some m)) (by rw [hd.pend]; exact hlen) true
  have hv' := Tile.Told.mispaired (t := w.discardItem x.key (some m)) (by rw [hd'.pend]; exact hwlen) false
  have hat : t.isAt c = true := State.tileAt_isAt ht
  have hwat : w.isAt p.partner = true := State.tileAt_isAt hw
  have h1 := State.tileAt_setTile ht ((hv.isAt c).trans ((hd.isAt c).trans hat))
  rw [← State.onTile_quiet (fun t => (t.discardItem x.key (some m)).mispaired true true) ht (hv.recs.trans (hd.recs.trans hr))] at h1
  have hw1 := (h1.2 _ hne).trans hw
  have h2 := State.tileAt_setTile hw1 ((hv'.isAt p.partner).trans ((hd'.isAt p.partner).trans hwat))
  rw [← State.onTile_quiet (fun t => (t.discardItem x.key (some m)).mispaired true false) hw1 (hv'.recs.trans (hd'.recs.trans hwr)),
    ← hexec] at h2
  refine ⟨_, _, (h2.2 c hne.symm).trans h1.1, h2.1, ?_, hv.out.trans hd.out, hv.pends, hv'.pends, hv.files.trans hd.files,
    hv'.files.trans hd'.files⟩
  refine hv.pair.trans (hd.pair _ ?_ ?_)
  · simp [hp, hheld]
  · simp

/-- The CRC that comes is compared with the one item that waits (R143). -/
theorem pairCompare_comes {d : Coord} {k : Word} (ha : s.Arrived c t (.crc d x.key k)) (hp : t.pair = some p) (hprim : p.primary = true)
    (hheld : p.held = [x]) (hitem : x.item = some m) : exec (.pairCompare c) s = .next (s.emptied.pairMatch t p x.key k) := by
  obtain ⟨f, hmsg, hfind, htake⟩ := ha.found
  have hnone : (p.held.find? fun x => x.item.isNone && p.held.any fun y => y.key == x.key && y.item.isSome && !y.matched) = none := by
    rw [hheld]
    simp [hitem]
  show Host.Outcome.next (s.pairCompare c) = _
  rw [State.pairCompare, ha.tile]
  simp only [hp, hprim, Bool.not_true, Bool.false_eq_true, if_false, hnone]
  rw [hfind _ rfl]
  simp only [hmsg, htake]

theorem pair_matches {d : Coord} (ha : s.Arrived c t (.crc d x.key x.crc)) (hp : t.pair = some p) (hprim : p.primary = true)
    (hheld : p.held = [x]) (hitem : x.item = some m) (hg : x.group = false) (hi : t.inj.armed = 0) (hm : ∀ e, m ≠ .token e) :
    ∃ v, BecomesWith (.pairCompare c) s c v { s.dev with net := [] } ∧ v.out = t.out ++ [m] ∧ v.pair = some { p with held := [] } ∧
      v.files = t.files ∧ v.sch = t.sch := by
  have hcomes := pairCompare_comes ha hp hprim hheld hitem
  have hfind : (p.held.find? fun y => y.key == x.key) = some x := by rw [hheld]; simp
  have hwithout : p.without x.key = { p with held := [] } := by simp [Pair.without, hheld]
  have hmatch : s.emptied.pairMatch t p x.key x.crc =
      s.emptied.setTile { t with pair := some { p with held := [] }, out := t.out ++ [m] } := by
    rw [State.pairMatch, hfind]
    simp only [Inject.has_unarmed hi, Bool.and_false, Bool.false_eq_true, if_false, bne_self_eq_false, hitem, hg, hwithout]
  have hat : t.isAt c = true := State.tileAt_isAt ha.tile
  have htile : s.emptied.tileAt c = some t := ha.tile
  obtain ⟨h1, h2⟩ := State.tileAt_setTile (v := { t with pair := some { p with held := [] }, out := t.out ++ [m] }) htile hat
  exact ⟨_, ⟨_, hcomes.trans (congrArg _ hmatch), h1, h2, State.setTile_dev _ _, State.setTile_agenda _ _, State.setTile_bundle _ _⟩,
    rfl, rfl, rfl, rfl⟩

/-- Settles O49: the CRC that matches, the CRC that does not, and the bound of 65,536 cycles. -/
theorem pairSteps : Obligations.PairSteps := by
  intro s c t w p x m ht hr hp hprim hheld hitem hg hmat hi hw hwr hne hlen hwlen fails
  refine ⟨fun d k ha => ⟨fun hk hm => pair_matches (hk ▸ ha) hp hprim hheld hitem hg hi hm, fun hk => ?_⟩, fun hbound hdue => ?_⟩
  · obtain ⟨v, v', h⟩ := State.pairFails_told (s := s.emptied) ht hr hp hheld hitem hg hw hwr hne hlen hwlen
    refine ⟨_, v, v', (pairCompare_comes ha hp hprim hheld hitem).trans ?_, h⟩
    have hfind : (p.held.find? fun y => y.key == x.key) = some x := by rw [hheld]; simp
    have hcrc : (x.crc != k) = true := bne_iff_ne.mpr fun e => hk e.symm
    rw [State.pairMatch, hfind, Tile.isAt_coord (State.tileAt_isAt ht)]
    simp only [Inject.has_unarmed hi, Bool.and_false, Bool.false_eq_true, if_false, hcrc, if_true]
  · obtain ⟨v, v', h⟩ := State.pairFails_told ht hr hp hheld hitem hg hw hwr hne hlen hwlen
    refine ⟨_, v, v', ?_, h⟩
    show Host.Outcome.next (s.pairTimeout c) = _
    have hfind : (p.held.find? fun x => !x.matched && !keyUnbounded x.key && decide (x.at_ + 65536 ≤ t.sch.cycle)) = some x := by
      rw [hheld]
      simp [hmat, hbound, hdue]
    simp only [State.pairTimeout, ht, hp, hfind, hprim, if_true]

end

end Sys2Proof.Machine
end

section
/-! SUPPORT. The routers of reduction trees (R100 to R102). -/

namespace Sys2Proof.Machine

theorem roundPast_self (r : Nat) : roundPast r r = false := by
  have h : (r + 2 ^ 16 - r) % 2 ^ 16 = 0 := by omega
  rw [roundPast, h]
  rfl

theorem dirPort_ne_loc (d : Dir) : dirPort d ≠ .loc := by cases d <;> decide

theorem portDir_dirPort (d : Dir) : portDir (dirPort d) = some d := by cases d <;> rfl

theorem Tile.tree_of_get {t : Tile} {j : Nat} {x : Tree} (h : t.trees[j]? = some x) : t.tree j = x := by
  rw [Tile.tree, h, Option.getD_some]

theorem Tile.putTree_putTree (t : Tile) (n : Nat) (x y : Tree) : (t.putTree n x).putTree n y = t.putTree n y := by
  simp only [Tile.putTree, Vector.setIfInBounds_setIfInBounds]

section
variable {s : State} {c : Coord} {t : Tile} {j : BitVec 3} {x : Tree}

/-! The last input of a round. -/

theorem Tile.treeInput_waits {p : Port} {data : List Word} (hx : t.tree j.toNat = x) (hh : x.held = none) (hp : ∀ y ∈ x.inputs, y.1 ≠ p) :
    t.treeInput j.toNat p x.round data = some (t.putTree j.toNat
      { x with inputs := x.inputs ++ [(p, data)], timer := if x.inputs.isEmpty then t.sch.cycle + 1 else x.timer }) := by
  have hany : x.inputs.any (·.1 == p) = false := by simpa using hp
  rw [Tile.treeInput]
  simp only [hx, roundPast_self, Bool.false_eq_true, if_false, bne_self_eq_false, hh, Option.isSome_none, hany, Bool.or_self]
  rw [t.withTree_eq j.isLt, hx, hh]

/-- A round whose inputs are all present goes on to the parent (R101). -/
theorem State.combine_sends (ht : s.tileAt c = some t) (hx : t.tree j.toNat = x) (hroot : x.entry.getLsbD 62 = false)
    (hall : ∀ q ∈ treePorts x.entry, ∃ y ∈ x.inputs, y.1 = q) :
    ∃ z : Tree, z.inputs = [] ∧ z.round = (x.round + 1) % 2 ^ 16 ∧ s.combine c j.toNat = (s.setTile (t.putTree j.toNat z)).sendFrom c
      (.partial_ (neighbour c (treeParent x.entry)) j.toNat (dirPort (oppDir (treeParent x.entry))) x.round
        (combineAll x.entry ((treePorts x.entry).filterMap fun q => (x.inputs.find? (·.1 == q)).map (·.2)))) := by
  have hany : ((treePorts x.entry).any fun p => !(x.inputs.any (·.1 == p))) = false := by
    rw [List.any_eq_false]
    intro q hq
    obtain ⟨y, hy, hyq⟩ := hall q hq
    have : x.inputs.any (·.1 == q) = true := List.any_eq_true.mpr ⟨y, hy, beq_iff_eq.mpr hyq⟩
    simp [this]
  refine ⟨{ x with round := (x.round + 1) % 2 ^ 16, inputs := [], timer := 0 }, rfl, rfl, ?_⟩
  rw [State.combine, ht]
  simp only [hx, hany, Bool.false_eq_true, if_false, hroot]
  rw [t.withTree_eq j.isLt, hx]

theorem input_completes {d : Coord} {p : Port} {data : List Word} (ha : s.Arrived c t (.partial_ d j.toNat p x.round data))
    (hx : t.tree j.toNat = x) (hp : p ≠ .loc) (hh : x.held = none) (hnew : ∀ y ∈ x.inputs, y.1 ≠ p) (hroot : x.entry.getLsbD 62 = false)
    (hall : ∀ q ∈ treePorts x.entry, q = p ∨ ∃ y ∈ x.inputs, y.1 = q) :
    ∃ u v g, exec (.reductionInput c j p) s = .next u ∧ u.tileAt c = some v ∧ u.dev.net = [g] ∧ g.at_ = c ∧
      g.msg = .partial_ (neighbour c (treeParent x.entry)) j.toNat (dirPort (oppDir (treeParent x.entry))) x.round
        (combineAll x.entry ((treePorts x.entry).filterMap fun q => ((x.inputs ++ [(p, data)]).find? (·.1 == q)).map (·.2))) ∧
      (v.tree j.toNat).inputs = [] ∧ (v.tree j.toNat).round = (x.round + 1) % 2 ^ 16 ∧ v.files = t.files ∧ v.pad = t.pad ∧
      v.sch = t.sch := by
  obtain ⟨f, hmsg, hfind, htake⟩ := ha.found
  have hat : t.isAt c = true := State.tileAt_isAt ha.tile
  obtain ⟨y, hy⟩ : ∃ y : Tree, y = { x with inputs := x.inputs ++ [(p, data)], timer := if x.inputs.isEmpty then t.sch.cycle + 1 else x.timer } :=
    ⟨_, rfl⟩
  have hinput := Tile.treeInput_waits (t := t) (data := data) hx hh hnew
  rw [← hy] at hinput
  have hyin : y.inputs = x.inputs ++ [(p, data)] := by rw [hy]
  have hyentry : y.entry = x.entry := by rw [hy]
  have hyround : y.round = x.round := by rw [hy]
  have htile : s.emptied.tileAt c = some t := ha.tile
  have h1 := (State.tileAt_setTile (v := t.putTree j.toNat y) htile hat).1
  have hyall : ∀ q ∈ treePorts y.entry, ∃ z ∈ y.inputs, z.1 = q := by
    intro q hq
    rw [hyin]
    rcases hall q (hyentry ▸ hq) with rfl | ⟨z, hz, hzq⟩
    · exact ⟨_, List.mem_append_right _ List.mem_cons_self, rfl⟩
    · exact ⟨z, List.mem_append_left _ hz, hzq⟩
  obtain ⟨z, hzin, hzround, hsend⟩ := State.combine_sends h1 (t.tree_putTree j.isLt y) (hyentry ▸ hroot) hyall
  have hexec : exec (.reductionInput c j p) s = .next ((s.emptied.setTile (t.putTree j.toNat y)).combine c j.toNat) := by
    show Host.Outcome.next (s.reductionInput c j.toNat p) = _
    rw [State.reductionInput, ha.tile]
    simp only [hp, if_false]
    rw [hfind _ (by simp)]
    simp only [hmsg, hinput, htake]
  rw [hsend, hyin, hyentry, hyround, Tile.putTree_putTree] at hexec
  have h2 := (State.tileAt_setTile (v := t.putTree j.toNat z) h1 hat).1
  obtain ⟨m, hm⟩ : ∃ m, m = Msg.partial_ (neighbour c (treeParent x.entry)) j.toNat (dirPort (oppDir (treeParent x.entry))) x.round
    (combineAll x.entry ((treePorts x.entry).filterMap fun q => ((x.inputs ++ [(p, data)]).find? (·.1 == q)).map (·.2))) := ⟨_, rfl⟩
  have hdest : m.dest = some ⟨none, neighbour c (treeParent x.entry)⟩ := by
    rw [hm, Msg.dest, if_neg (dirPort_ne_loc _)]
  rw [← hm] at hexec ⊢
  refine ⟨_, _, mkFlit c none m (neighbour c (treeParent x.entry)), hexec, h2, ?_, (mkFlit_at ..).1, (mkFlit_at ..).2, ?_, ?_, rfl, rfl, rfl⟩
  · exact congrArg Device.net (Device.enter_local hdest rfl) |>.trans (by rw [State.setTile_dev, State.setTile_dev]; rfl)
  · rw [Tile.tree_putTree t j.isLt, hzin]
  · rw [Tile.tree_putTree t j.isLt, hzround, hyround]

/-! The result that a root holds. -/

theorem flatMap_wordBytes_length (w : List Word) : (w.flatMap wordBytes).length = 4 * w.length := by
  induction w with
  | nil => rfl
  | cons x w ih =>
    rw [List.flatMap_cons, List.length_append, ih, List.length_cons]
    have : (wordBytes x).length = 4 := by simp [wordBytes, valBytes]
    omega

theorem held_delivered {w : List Word} (ht : s.tileAt c = some t) (hr : t.recs = []) (hp : t.pair = none) (hx : t.tree j.toNat = x)
    (hw : x.held = some w) (hb : (t.inCh (bitsOf x.entry.toNat 46 5)).bound = true)
    (hsink : entrySink (t.inCh (bitsOf x.entry.toNat 46 5)).entry = true)
    (hl : 4 * w.length ≤ 16 * (t.inCh (bitsOf x.entry.toNat 46 5)).slotG)
    (he : t.slotEmpty (t.inCh (bitsOf x.entry.toNat 46 5)) = true) (hbefore : t.beforeB (t.slotGranules (bitsOf x.entry.toNat 46 5)) = t)
    (htx : bitOf (t.inCh (bitsOf x.entry.toNat 46 5)).binding.toNat 48 = false) :
    ∃ k, k = bitsOf x.entry.toNat 46 5 ∧
    Becomes (.heldResultDeliver c j) s c ((t.putTree j.toNat { x with held := none }).packed k ((t.inCh k).slotAddr (t.inCh k).rcnt.toNat)
      { t.inCh k with rcnt := (t.inCh k).rcnt + 1#32 } (w.flatMap wordBytes)) := by
  obtain ⟨k, hk⟩ : ∃ k, k = bitsOf x.entry.toNat 46 5 := ⟨_, rfl⟩
  refine ⟨k, hk, ?_⟩
  rw [← hk] at hb hsink hl he hbefore htx
  have hat : t.isAt c = true := State.tileAt_isAt ht
  have hlen : (w.flatMap wordBytes).length = 4 * w.length := flatMap_wordBytes_length w
  obtain ⟨hclear, hdev⟩ := State.Alike.onTile (s := s) ⟨fun _ => rfl, rfl, rfl⟩ (f := fun t => t.beforeB (t.slotGranules k)) ht hbefore hr
  have htile : (s.clearSlot c k).tileAt c = some t := (hclear.tiles c).trans ht
  have hcoord : t.coord = c := Tile.isAt_coord hat
  have hexec : exec (.heldResultDeliver c j) s = .next ((s.clearSlot c k).onTile c fun t =>
      (t.withTree j.toNat fun y => { y with held := none }).writeSlot k (w.flatMap wordBytes) []) := by
    show Host.Outcome.next (s.heldDeliver c j.toNat) = _
    rw [State.heldDeliver, ht]
    simp only [hx, hw]
    have hready : ∀ u : State, u.sinkReady t k = true := fun u => by simp [State.sinkReady, hb, hsink, he, hp]
    have hshort : ¬ 16 * (t.inCh k).slotG < (w.flatMap wordBytes).length := by rw [hlen]; omega
    rw [State.deliver]
    simp only [hx, ← hk, hcoord, hp, htile, Option.getD_some, hb, hsink, hshort, decide_false, Bool.and_false, Bool.false_eq_true,
      if_false, hready, if_true]
  have hv : (t.withTree j.toNat fun y => { y with held := none }).writeSlot k (w.flatMap wordBytes) [] =
      (t.putTree j.toNat { x with held := none }).packed k ((t.inCh k).slotAddr (t.inCh k).rcnt.toNat)
        { t.inCh k with rcnt := (t.inCh k).rcnt + 1#32 } (w.flatMap wordBytes) := by
    rw [t.withTree_eq j.isLt, hx]
    exact Tile.writeSlot_eq (t := t.putTree j.toNat { x with held := none }) htx _
  have hbec := BecomesWith.of_alike (fun t => (t.withTree j.toNat fun y => { y with held := none }).writeSlot k (w.flatMap wordBytes) [])
    hclear ht hexec (by rw [hv, Tile.packed_isAt]; exact hat) (by rw [hv, Tile.packed_recs]; exact hr)
  rw [hv, hdev] at hbec
  exact hbec

/-! Rounds that are given up. -/

/-- A message to the neighbour that a port faces; none by the local one. -/
def State.tellBy (c : Coord) (g : Dir → Msg) (s : State) (p : Port) : State :=
  match portDir p with
  | some d => s.sendFrom c (g d)
  | none => s

theorem State.foldl_tellBy {g : Dir → Msg} (hg : ∀ d, (g d).dest = some ⟨none, neighbour c d⟩) (l : List Port) (s : State) :
    ∃ dv, l.foldl (State.tellBy c g) s = s.withDev (fun _ => dv) ∧
      dv.net = s.dev.net ++ (l.filterMap portDir).map fun d => mkFlit c none (g d) (neighbour c d) := by
  induction l generalizing s with
  | nil => exact ⟨s.dev, rfl, (List.append_nil _).symm⟩
  | cons p l ih =>
    rw [List.foldl_cons, List.filterMap_cons, State.tellBy]
    cases hp : portDir p with
    | none => exact ih s
    | some d =>
      obtain ⟨dv, hdv, hnet⟩ := ih (s.sendFrom c (g d))
      refine ⟨dv, hdv, hnet.trans ?_⟩
      have hone : (s.sendFrom c (g d)).dev.net = s.dev.net ++ [mkFlit c none (g d) (neighbour c d)] :=
        congrArg Device.net (Device.enter_local (hg d) rfl)
      rw [hone, List.map_cons, List.append_assoc]
      rfl

/-- A round that is given up: its inputs go, ROUND passes it, and the parent is told unless it said so (R102). -/
theorem State.abandonRound_gives {from_ : Option Port} (ht : s.tileAt c = some t) (hr : t.recs = []) (hx : t.tree j.toNat = x)
    (hroot : x.entry.getLsbD 62 = false) (hfrom : from_ ≠ some (dirPort (treeParent x.entry))) (hlen : t.sch.pend.length < 32) :
    ∃ v, (s.abandonRound c j.toNat x.round from_).tileAt c = some v ∧ (v.tree j.toNat).inputs = [] ∧
      (v.tree j.toNat).round = (x.round + 1) % 2 ^ 16 ∧
      (∃ g ∈ (s.abandonRound c j.toNat x.round from_).dev.net, g.at_ = c ∧
        g.msg = .abandon (neighbour c (treeParent x.entry)) j.toNat (some (dirPort (oppDir (treeParent x.entry)))) x.round) ∧
      v.files = t.files ∧ v.pad = t.pad ∧
      (roundPast x.count x.round = true → treeChild x.entry .loc = true →
        v.Pends .rdtmo 0#64 (BitVec.ofNat 64 (j.toNat * 2 ^ 32 + x.round))) := by
  have hat : t.isAt c = true := State.tileAt_isAt ht
  obtain ⟨y, hyin, hyround, hexec⟩ : ∃ y : Tree, y.inputs = [] ∧ y.round = (x.round + 1) % 2 ^ 16 ∧
      s.abandonRound c j.toNat x.round from_ =
        (if (roundPast x.count x.round && treeChild x.entry .loc) = true then
          (((treePorts x.entry ++ [dirPort (treeParent x.entry)]).filter fun p => some p != from_).foldl
            (State.tellBy c fun d => .abandon (neighbour c d) j.toNat (some (dirPort (oppDir d))) x.round)
            (s.setTile (t.putTree j.toNat y))).onTile c fun t => t.raise .rdtmo none 2 0#64 (treeInfo j.toNat x.round)
        else ((treePorts x.entry ++ [dirPort (treeParent x.entry)]).filter fun p => some p != from_).foldl
            (State.tellBy c fun d => .abandon (neighbour c d) j.toNat (some (dirPort (oppDir d))) x.round)
            (s.setTile (t.putTree j.toNat y))) := by
    refine ⟨{ x with
      inputs := [], timer := 0, round := (x.round + 1) % 2 ^ 16
      abandoned := if roundPast x.count x.round || !treeChild x.entry .loc then x.abandoned else x.abandoned ++ [x.round] }, rfl, rfl, ?_⟩
    rw [State.abandonRound, ht]
    simp only [hx, roundPast_self, Bool.false_eq_true, if_false, hroot, Bool.or_false]
    rw [t.withTree_eq j.isLt, hx]
    rfl
  obtain ⟨dv, hdv, hnet⟩ := State.foldl_tellBy (c := c) (g := fun d => .abandon (neighbour c d) j.toNat (some (dirPort (oppDir d))) x.round)
    (fun _ => rfl) ((treePorts x.entry ++ [dirPort (treeParent x.entry)]).filter fun p => some p != from_)
    (s.setTile (t.putTree j.toNat y))
  rw [hdv] at hexec
  have h1 : ((s.setTile (t.putTree j.toNat y)).withDev fun _ => dv).tileAt c = some (t.putTree j.toNat y) :=
    (State.tileAt_setTile (v := t.putTree j.toNat y) ht hat).1
  have htold : ∃ g ∈ dv.net, g.at_ = c ∧
      g.msg = .abandon (neighbour c (treeParent x.entry)) j.toNat (some (dirPort (oppDir (treeParent x.entry)))) x.round := by
    rw [hnet]
    refine ⟨_, List.mem_append_right _ (List.mem_map.mpr ⟨treeParent x.entry, ?_, rfl⟩), (mkFlit_at ..).1, (mkFlit_at ..).2⟩
    refine List.mem_filterMap.mpr ⟨dirPort (treeParent x.entry), List.mem_filter.mpr ⟨?_, bne_iff_ne.mpr hfrom.symm⟩, portDir_dirPort _⟩
    exact List.mem_append_right _ List.mem_cons_self
  by_cases hsent : (roundPast x.count x.round && treeChild x.entry .loc) = true
  · rw [if_pos hsent] at hexec
    have hv := Tile.Told.raise (t := t.putTree j.toNat y) (.inr rfl) hlen .rdtmo 2 0#64 (treeInfo j.toNat x.round)
    rw [State.onTile_quiet _ h1 (hv.recs.trans hr)] at hexec
    rw [hexec]
    refine ⟨_, (State.tileAt_setTile h1 ((hv.isAt c).trans hat)).1, ?_, ?_, ?_, hv.files, hv.pad, fun _ _ => hv.pends⟩
    · rw [hv.tree, Tile.tree_putTree t j.isLt, hyin]
    · rw [hv.tree, Tile.tree_putTree t j.isLt, hyround]
    · rw [State.setTile_dev]
      exact htold
  · rw [if_neg hsent] at hexec
    rw [hexec]
    refine ⟨_, h1, ?_, ?_, htold, rfl, rfl, fun h1 h2 => absurd (by rw [h1, h2]; rfl) hsent⟩
    · rw [Tile.tree_putTree t j.isLt, hyin]
    · rw [Tile.tree_putTree t j.isLt, hyround]

end

/-- Settles O48: the last input of a round, the held result, the time-out and the notice of a neighbour. -/
theorem treeSteps : Obligations.TreeSteps := by
  intro s c t j x ht hr hp hlen hget
  have hx := Tile.tree_of_get hget
  refine ⟨fun d p data ha hloc hh hnew hroot hall => ?_, fun w hw => ?_, fun htmo htimer hin hdue hroot => ?_, fun d p ha hroot hfrom => ?_⟩
  · exact input_completes ha hx hloc hh hnew hroot hall
  · intro n i at_ hn hb hsink hl he hbefore htx hwf
    obtain ⟨k, rfl, hbec⟩ := held_delivered ht hr hp hx hw hb hsink hl he hbefore htx
    refine ⟨_, hbec, ?_, ?_, fun k y hk => ?_, rfl, rfl⟩
    · exact congrArg Tree.held (Tile.tree_putTree t j.isLt _)
    · exact congrArg InCh.rcnt ((Tile.inCh_putIn _ hn _ _).trans (if_pos rfl))
    · rw [Tile.packed_mem]
      exact Memory.read_put_inside hwf hk
  · obtain ⟨v, h⟩ := State.abandonRound_gives ht hr hx hroot (from_ := none) (fun e => nomatch e) hlen
    refine ⟨_, v, ?_, h⟩
    show Host.Outcome.next (s.roundAbandon c j.toNat) = _
    have hin' : x.inputs.isEmpty = false := by simpa using hin
    rw [State.roundAbandon, ht]
    simp only [hx, htmo, htimer, hin', Nat.not_lt.mpr hdue, decide_false, Bool.or_self, Bool.false_eq_true, if_false]
  · obtain ⟨v, htile, hin, hround, htold, hfiles, hpad, -⟩ := State.abandonRound_gives (s := s.emptied) ht hr hx hroot hfrom hlen
    refine ⟨_, v, ?_, htile, hin, hround, htold, hfiles, hpad⟩
    obtain ⟨f, hmsg, hfind, htake⟩ := ha.found
    show Host.Outcome.next (s.abandonNotice c j.toNat) = _
    rw [State.abandonNotice, hfind _ (by simp)]
    simp only [hmsg, htake]

end Sys2Proof.Machine
end

section
/-! SUPPORT. A bulk access from its tile to its target (R64, R70 to R72, R78 to R80). -/

namespace Sys2Proof.Machine

/-- A step that puts a tile back in a state alike in all but the device. -/
theorem BecomesWith.setTile {i : Instr} {s u : State} {c : Coord} {t v : Tile} (hu : s.Alike u) (h : s.tileAt c = some t)
    (he : exec i s = .next (u.setTile v)) (hat : v.isAt c = true) : BecomesWith i s c v u.dev := by
  have h' : u.tileAt c = some t := (hu.tiles c).trans h
  obtain ⟨h1, h2⟩ := State.tileAt_setTile h' hat
  exact ⟨_, he, h1, fun d hd => (h2 d hd).trans (hu.tiles d), State.setTile_dev _ _, (State.setTile_agenda _ _).trans hu.agenda,
    (State.setTile_bundle _ _).trans hu.bundle⟩

section
variable {s : State} {id : Nat} {t : Tile} {a : BulkAcc} {x : Xlat} {m : Nat}

theorem State.HasAcc.isAt (h : s.HasAcc id t a) : t.isAt (evCoord id) = true := State.tileAt_isAt h.tile

theorem State.HasAcc.coord (h : s.HasAcc id t a) : t.coord = evCoord id := Tile.isAt_coord h.isAt

theorem State.HasAcc.seq (h : s.HasAcc id t a) : a.seq = evSeq id := beq_iff_eq.mp (List.find?_some (p := fun a : BulkAcc => a.seq == evSeq id) h.acc)

theorem State.HasAcc.withAcc (h : s.HasAcc id t a) (f : Tile → BulkAcc → State) : s.withAcc id f = f t a := by
  rw [State.withAcc, h.tile]
  simp only [h.acc]

/-- The tile in which the access is at a stage. -/
def Tile.staged (t : Tile) (a : BulkAcc) (st : AccStage) : Tile := t.setAcc { a with stage := st }

theorem State.HasAcc.becomes {i : Instr} {st : AccStage} {dv : Device} (h : s.HasAcc id t a)
    (he : exec i s = .next (({ s with dev := dv } : State).setTile (t.setAcc { a with stage := st }))) :
    BecomesWith i s (evCoord id) (t.setAcc { a with stage := st }) dv :=
  BecomesWith.setTile (u := { s with dev := dv }) (.withDev s fun _ => dv) h.tile he h.isAt

theorem Tile.pairGate_unpaired {t : Tile} (h : t.pair = none) (key : Nat) (bytes : List Byte) : t.pairGate key bytes = (t, true) := by
  rw [Tile.pairGate, h]

theorem Tile.isShadow_unpaired {t : Tile} (h : t.pair = none) : t.isShadow = false := by
  rw [Tile.isShadow, h]

/-! The entry port. -/

/-- A request whose turn it is meets its entry port's translation (R64). -/
theorem bulkRequest_acc (h : s.HasAcc id t a) : s.bulkRequest id = bulkRequestAcc s t a := by
  rw [State.bulkRequest, h.tile]
  simp only [h.moving, h.acc, Bool.false_and, Bool.false_eq_true, if_false]

theorem request_translated {dv : Device} (h : s.HasAcc id t a) (hp : t.pair = none) (hst : a.stage = .inTile) (hs : a.staged = false)
    (ho : t.acqOpen a.seq = false) (hb : t.lineBusy a.seq a.va = false)
    (hx : s.dev.translate (s.dev.entryPort (evCoord id)) t.ctx a.va a.kind.writes = (.ok x, dv))
    (hroom : x.tgt = 0 → s.atPort (s.dev.targetPort (s.dev.entryPort (evCoord id)) a.kind.writes x) < 8192)
    (hkey : s.dev.keyLeaves t.ctx x = false) :
    BecomesWith (.bulkRequest id) s (evCoord id) (t.setAcc { a with stage := .atTarget x }) dv := by
  refine h.becomes ?_
  show Host.Outcome.next (s.bulkRequest id) = _
  have hfull : (decide (x.tgt = 0) && s.portFull (s.dev.targetPort (s.dev.entryPort (evCoord id)) a.kind.writes x)) = false := by
    by_cases h0 : x.tgt = 0
    · rw [State.portFull, decide_eq_false (Nat.not_le.mpr (hroom h0)), Bool.and_false]
    · rw [decide_eq_false h0, Bool.false_and]
  rw [bulkRequest_acc h, bulkRequestAcc]
  simp only [h.kept, hst, hs, ho, hb, h.coord, hx, Tile.isShadow_unpaired hp, Tile.pairGate_unpaired hp, ite_self, State.takeIn,
    Device.takeIn, hfull, hkey, bne_self_eq_false, Bool.or_self, Bool.and_false, Bool.not_true, Bool.false_eq_true, if_false]

theorem request_parks {f : XFault} {dv : Device} (h : s.HasAcc id t a) (hp : t.pair = none) (hst : a.stage = .inTile)
    (hs : a.staged = false) (ho : t.acqOpen a.seq = false) (hb : t.lineBusy a.seq a.va = false)
    (hx : s.dev.translate (s.dev.entryPort (evCoord id)) t.ctx a.va a.kind.writes = (.error f, dv))
    (hctx : s.dev.ctxValid t.ctx = true) (hrec : s.dev.recordWaits (s.dev.entryPort (evCoord id)) t.ctx = false)
    (hroom : s.atPort (s.dev.entryPort (evCoord id)) < 8192) (hring : (dv.port (s.dev.entryPort (evCoord id))).retry.length < 1024) :
    ∃ dv', BecomesWith (.bulkRequest id) s (evCoord id) (t.setAcc { a with
      stage := .parked (s.dev.entryPort (evCoord id)) (freeIdx (dv.port (s.dev.entryPort (evCoord id))).retry)
        (((dv.port (s.dev.entryPort (evCoord id))).seqn + 1) % 2 ^ 32) f.cause, notice := true }) dv' := by
  have hfull : s.portFull (s.dev.entryPort (evCoord id)) = false := decide_eq_false (Nat.not_le.mpr hroom)
  have hask : (t.asker a).ctx = t.ctx := rfl
  obtain ⟨dv', hpark⟩ : ∃ dv', dv.park (s.dev.entryPort (evCoord id)) (t.asker a) f =
      (some (freeIdx (dv.port (s.dev.entryPort (evCoord id))).retry), ((dv.port (s.dev.entryPort (evCoord id))).seqn + 1) % 2 ^ 32, dv') := by
    rw [Device.park, if_neg (Nat.not_le.mpr hring)]
    exact ⟨_, rfl⟩
  refine ⟨dv', BecomesWith.setTile (u := { s with dev := dv' }) (.withDev s fun _ => dv') h.tile ?_ h.isAt⟩
  show Host.Outcome.next (s.bulkRequest id) = _
  rw [bulkRequest_acc h, bulkRequestAcc]
  simp only [h.kept, hst, hs, ho, hb, h.coord, hx, Tile.isShadow_unpaired hp, Tile.pairGate_unpaired hp, ite_self, State.takeIn,
    Device.takeIn, hask, hctx, hrec, hfull, hpark, bne_self_eq_false, Bool.or_self, Bool.and_false, Bool.not_true, Bool.false_eq_true,
    if_false]

/-! Lines of HBM. -/

theorem Device.Opens.awaits {dv : Device} {ctx : Nat} (h : dv.Opens ctx x m) : dv.awaits x = false := by
  simp [Device.awaits, h.single, h.serves]

theorem Device.Opens.keyOf {dv : Device} {ctx : Nat} (h : dv.Opens ctx x m) : dv.keyOf ctx x = .ok (some m) := by
  simp [Device.keyOf, h.hbm, h.key, h.loaded]

theorem Device.Opens.serving {dv : Device} {ctx : Nat} (h : dv.Opens ctx x m) : dv.serving x = [x.pa] := by
  simp [Device.serving, Xlat.replicas, h.single]

theorem Device.Opens.locked {dv : Device} {ctx : Nat} (h : dv.Opens ctx x m) : dv.locked x.pa = false := by
  rw [Device.locked, List.any_eq_false]
  exact fun l hl => by simpa using h.unlocked l hl

theorem Device.Opens.readLine {dv : Device} {ctx : Nat} (h : dv.Opens ctx x m) :
    dv.readLine (x.pa / 64 * 64) (some m) = (none, dv.hbm.bytes (x.pa / 64 * 64) 64) := by
  have hstack : stackOf (x.pa / 64 * 64) = stackOf x.pa := by
    unfold stackOf
    omega
  rw [Device.readLine]
  simp only [hstack, h.sound, h.whole, h.clean, h.sealed, Bool.or_self, Bool.false_eq_true, if_false, if_true]

theorem Device.Opens.correct {dv : Device} {ctx : Nat} (h : dv.Opens ctx x m) : dv.correct (x.pa / 64 * 64) = dv := by
  rw [Device.correct, h.steady]
  rfl

theorem Device.Opens.readLocked {dv : Device} {ctx : Nat} (h : dv.Opens ctx x m) (p : Nat) : dv.readLocked p x = false := by
  simp [Device.readLocked, h.serving, nearest, h.locked]

/-- A sound line opens as its bytes stand, and its read changes nothing (R70, R76). -/
theorem Device.Opens.readTarget {dv : Device} {ctx : Nat} (h : dv.Opens ctx x m) (p : Nat) :
    dv.readTarget p ctx x = (some (none, dv.hbm.bytes (x.pa / 64 * 64) 64), dv) := by
  rw [Device.readTarget, h.keyOf]
  simp only [h.hbm, if_true, h.serving, Device.readNearest, nearest, h.locked, h.readLine, h.correct, Bool.false_eq_true, if_false]

theorem readAcc_opens (ho : s.dev.Opens t.ctx x m) :
    s.readAcc t a x = ({ s with dev := s.dev } : State).setTile (t.setAcc { a with
      stage := .answered none (((s.dev.hbm.bytes (x.pa / 64 * 64) 64).drop (x.pa % 64)).take a.len)
        (some (s.dev.hbm.bytes (x.pa / 64 * 64) 64)) }) := by
  rw [State.readAcc]
  simp only [ho.readTarget]
  rfl

theorem load_performed (h : s.HasAcc id t a) (hst : a.stage = .atTarget x) (hw : a.kind.writes = false) (ho : s.dev.Opens t.ctx x m) :
    BecomesWith (.bulkPerform id) s (evCoord id) (t.setAcc { a with
      stage := .answered none (((s.dev.hbm.bytes (x.pa / 64 * 64) 64).drop (x.pa % 64)).take a.len)
        (some (s.dev.hbm.bytes (x.pa / 64 * 64) 64)) }) s.dev := by
  refine h.becomes ?_
  rw [← readAcc_opens ho]
  show Host.Outcome.next (s.bulkPerform id) = _
  rw [State.bulkPerform, h.withAcc]
  simp only [hst, ho.awaits, hw, ho.readLocked, Bool.false_eq_true, if_false]

theorem load_resumes {n : Nat} (h : s.HasAcc id t a) (hst : a.stage = .locked x n) (ho : s.dev.Opens t.ctx x m) :
    BecomesWith (.lockedReadResume id) s (evCoord id) (t.setAcc { a with
      stage := .answered none (((s.dev.hbm.bytes (x.pa / 64 * 64) 64).drop (x.pa % 64)).take a.len)
        (some (s.dev.hbm.bytes (x.pa / 64 * 64) 64)) }) s.dev := by
  refine h.becomes ?_
  rw [← readAcc_opens ho]
  show Host.Outcome.next (s.lockedResume id) = _
  rw [State.lockedResume, h.withAcc]
  simp only [hst, ho.readLocked, Bool.false_eq_true, if_false]

theorem load_stalls (h : s.HasAcc id t a) (hst : a.stage = .atTarget x) (hw : a.kind.writes = false) (ha : s.dev.awaits x = false)
    (hl : s.dev.readLocked (s.dev.entryPort (evCoord id)) x = true) :
    BecomesWith (.bulkPerform id) s (evCoord id) (t.setAcc { a with stage := .locked x s.dev.now }) s.dev := by
  refine h.becomes ?_
  show Host.Outcome.next (s.bulkPerform id) = _
  rw [State.bulkPerform, h.withAcc]
  simp only [hst, ha, hw, h.coord, hl, Bool.false_eq_true, if_false, if_true]

/-- The number of an access is no copy channel's (entry 13). -/
theorem State.withCopy_early (hseq : evSeq id < 2 ^ 32 - 8) (f : State → Tile → Nat → CopyJob → State) (u : State) : u.withCopy id f = u := by
  unfold State.withCopy
  simp only [hseq, if_true]

theorem locked_times_out {n : Nat} (h : s.HasAcc id t a) (hst : a.stage = .locked x n) (hn : n + 2 ≤ s.dev.now)
    (hseq : evSeq id < 2 ^ 32 - 8) :
    BecomesWith (.lockedReadTimeout id) s (evCoord id) (t.setAcc { a with stage := .answered (some .bxlocktmo) [] none }) s.dev := by
  refine h.becomes ?_
  show Host.Outcome.next (s.lockedTimeout id) = _
  rw [State.lockedTimeout, State.withCopy_early hseq, h.withAcc]
  simp only [hst, hn, if_true]

/-! Lines that are written. -/

theorem Device.setReady_frame (dv : Device) (n : Nat) (f : Ready → Ready) :
    (dv.setReady n f).hbm = dv.hbm ∧ (dv.setReady n f).seals = dv.seals := by
  unfold Device.setReady
  split <;> exact ⟨rfl, rfl⟩

theorem Device.correct_frame (dv : Device) (line : Nat) : (dv.correct line).hbm = dv.hbm ∧ (dv.correct line).seals = dv.seals := by
  unfold Device.correct
  split
  · exact ⟨rfl, rfl⟩
  · exact Device.setReady_frame _ _ _

theorem putSeal_finds (line m : Nat) (l : List (Nat × Nat)) : (putSeal line m l).find? (·.1 == line) = some (line, m) := by
  induction l with
  | nil => simp [putSeal]
  | cons y l ih =>
    obtain ⟨k, n⟩ := y
    unfold putSeal
    split
    · simp
    · split
      · simp
      · next hne => 
        have : (k == line) = false := beq_false_of_ne fun e => hne e.symm
        rw [List.find?_cons, this]
        exact ih

/-- A line that is written holds the bytes given and its key's seal; what of the rest was read before stays (R70, R76). -/
theorem Device.writeLine_frame (dv : Device) (line off : Nat) (bytes : List Byte) (key : Option Nat) (pz : Bool) :
    (dv.writeLine line off bytes key pz).hbm = dv.hbm.put line ((dv.readLine line key).2.take off ++ bytes ++
      (dv.readLine line key).2.drop (off + bytes.length)) ∧
    ∀ m, key = some m → (dv.writeLine line off bytes key pz).sealOf line = some m := by
  have hinner : ∀ fail whole : Bool,
      (if fail = true then dv.countPort (stackOf line) else if whole = true then dv else dv.correct line).hbm = dv.hbm ∧
      (if fail = true then dv.countPort (stackOf line) else if whole = true then dv else dv.correct line).seals = dv.seals := by
    intro fail whole
    cases fail
    · cases whole
      · exact Device.correct_frame dv line
      · exact ⟨rfl, rfl⟩
    · rw [if_pos rfl, Device.countPort]
      exact Device.setReady_frame _ _ _
  obtain ⟨hhbm, hseals⟩ := hinner (!decide (bytes.length = 64) && (dv.readLine line key).1.isSome) (decide (bytes.length = 64))
  refine ⟨?_, fun m hm => ?_⟩
  · exact congrArg (fun h : Memory => h.put line _) hhbm
  · subst hm
    exact congrArg (Option.map (·.2)) (putSeal_finds line m _)

theorem Device.readLine_length (dv : Device) (line : Nat) (key : Option Nat) : (dv.readLine line key).2.length = 64 := by
  unfold Device.readLine
  dsimp only
  split
  · exact Memory.bytes_length _ _ _
  · split
    · exact Memory.bytes_length _ _ _
    · split
      · exact Memory.bytes_length _ _ _
      · split
        · exact Memory.bytes_length _ _ _
        · split
          · rw [List.length_map, upTo, List.length_range]
          · exact Memory.bytes_length _ _ _

section
variable {dv : Device} {pa : Nat} {bytes : List Byte} {key : Option Nat} {pz : Bool}

theorem writeLine_length (hlen : pa % 64 + bytes.length ≤ 64) :
    ((dv.readLine (pa / 64 * 64) key).2.take (pa % 64) ++ bytes ++ (dv.readLine (pa / 64 * 64) key).2.drop (pa % 64 + bytes.length)).length =
      64 := by
  simp only [List.length_append, List.length_take, List.length_drop, Device.readLine_length]
  omega

theorem Device.writeLine_wf (h : Memory.wf dv.hbm = true) : Memory.wf (dv.writeLine (pa / 64 * 64) (pa % 64) bytes key pz).hbm = true := by
  rw [(Device.writeLine_frame ..).1]
  exact Memory.put_wf _ _ h

theorem Device.writeLine_reads (hwf : Memory.wf dv.hbm = true) {k : Nat} {y : Byte} (hk : bytes[k]? = some y)
    : (dv.writeLine (pa / 64 * 64) (pa % 64) bytes key pz).hbm.read (pa + k) = y := by
  rw [(Device.writeLine_frame ..).1]
  have hpa : pa + k = pa / 64 * 64 + (pa % 64 + k) := by omega
  have hkl : k < bytes.length := (List.getElem?_eq_some_iff.mp hk).1
  rw [hpa]
  refine Memory.read_put_inside hwf ?_
  have htake : ((dv.readLine (pa / 64 * 64) key).2.take (pa % 64)).length = pa % 64 := by
    rw [List.length_take, Device.readLine_length]
    omega
  rw [List.append_assoc, List.getElem?_append_right (by omega), htake, Nat.add_sub_cancel_left,
    List.getElem?_append_left hkl, hk]

/-- Another line reads as before. -/
theorem Device.writeLine_apart (hwf : Memory.wf dv.hbm = true) {b : Nat} (hlen : pa % 64 + bytes.length ≤ 64) (hb : b / 64 ≠ pa / 64) :
    (dv.writeLine (pa / 64 * 64) (pa % 64) bytes key pz).hbm.read b = dv.hbm.read b := by
  rw [(Device.writeLine_frame ..).1]
  refine Memory.read_put_outside hwf ?_
  rw [writeLine_length hlen]
  omega

end

/-- A store to a sound line writes its bytes and no others (R70). -/
theorem Device.Opens.writeLine_outside {dv : Device} {ctx : Nat} (h : dv.Opens ctx x m) {bytes : List Byte} {pz : Bool} {b : Nat}
    (hlen : x.pa % 64 + bytes.length ≤ 64) (hb : b < x.pa ∨ x.pa + bytes.length ≤ b) :
    (dv.writeLine (x.pa / 64 * 64) (x.pa % 64) bytes (some m) pz).hbm.read b = dv.hbm.read b := by
  by_cases hline : b / 64 = x.pa / 64
  · rw [(Device.writeLine_frame ..).1, h.readLine]
    have hbk : b = x.pa / 64 * 64 + b % 64 := by omega
    rw [hbk]
    refine Memory.read_put_inside h.canonical ?_
    dsimp only
    have htake : ((dv.hbm.bytes (x.pa / 64 * 64) 64).take (x.pa % 64)).length = x.pa % 64 := by
      rw [List.length_take, Memory.bytes_length]
      omega
    rcases hb with hb | hb
    · rw [List.append_assoc, List.getElem?_append_left (by omega), List.getElem?_take_of_lt (by omega), Memory.bytes_getElem? _ _ (by omega)]
    · rw [List.getElem?_append_right (by rw [List.length_append, htake]; omega), List.length_append, htake, List.getElem?_drop,
        show x.pa % 64 + bytes.length + (b % 64 - (x.pa % 64 + bytes.length)) = b % 64 by omega, Memory.bytes_getElem? _ _ (by omega)]
  · exact Device.writeLine_apart h.canonical hlen hline

theorem store_performed_bulk (h : s.HasAcc id t a) (hst : a.stage = .atTarget x) (hw : a.kind.writes = true) (ho : s.dev.Opens t.ctx x m)
    (hlen : x.pa % 64 + a.data.length ≤ 64) :
    ∃ dv', BecomesWith (.bulkPerform id) s (evCoord id) (t.setAcc { a with stage := .answered none [] none }) dv' ∧
      (∀ k y, a.data[k]? = some y → dv'.hbm.read (x.pa + k) = y) ∧
      (∀ b, b < x.pa ∨ x.pa + a.data.length ≤ b → dv'.hbm.read b = s.dev.hbm.read b) ∧
      dv'.sealOf (x.pa / 64 * 64) = some m := by
  refine ⟨s.dev.writeLine (x.pa / 64 * 64) (x.pa % 64) a.data (some m) false, h.becomes ?_,
    fun k y hk => Device.writeLine_reads ho.canonical hk, fun b hb => ho.writeLine_outside hlen hb,
    (Device.writeLine_frame ..).2 m rfl⟩
  have hreps : x.reps.isEmpty = true := by rw [ho.single]; rfl
  have hwrite : s.dev.writeTarget t.ctx x a.data false =
      (none, s.dev.writeLine (x.pa / 64 * 64) (x.pa % 64) a.data (some m) false) := by
    rw [Device.writeTarget, ho.keyOf]
    simp only [ho.hbm, if_true, ho.sound, Bool.false_eq_true, if_false]
  show Host.Outcome.next (s.bulkPerform id) = _
  rw [State.bulkPerform, h.withAcc]
  simp only [hst, ho.awaits, hw, hreps, hwrite, Bool.not_true, Bool.false_eq_true, if_false, if_true]

/-! Replicas. -/

theorem replica_line {x : Xlat} {r : Nat} (h : r ∈ x.replicas) : r % 64 = x.pa % 64 := by
  rcases List.mem_cons.mp h with rfl | h
  · rfl
  · obtain ⟨k, -, rfl⟩ := List.mem_map.mp h
    unfold replicaAt
    omega

/-- Every replica that a commit has written holds the data (R78). -/
theorem foldl_writeLine_reads {l : List Nat} {o : Nat} {bytes : List Byte} {key : Option Nat} (hl : ∀ r ∈ l, r % 64 = o)
    (hlen : o + bytes.length ≤ 64) {k : Nat} {y : Byte} (hk : bytes[k]? = some y) (dv : Device) (hwf : Memory.wf dv.hbm = true) {r : Nat}
    (hr : r ∈ l ∨ (r % 64 = o ∧ dv.hbm.read (r + k) = y)) :
    (l.foldl (fun dv a => dv.writeLine (a / 64 * 64) (a % 64) bytes key false) dv).hbm.read (r + k) = y := by
  have hkl : k < bytes.length := (List.getElem?_eq_some_iff.mp hk).1
  induction l generalizing dv with
  | nil => exact hr.elim (fun h => nomatch h) fun h => h.2
  | cons q l ih =>
    have hq : q % 64 = o := hl q List.mem_cons_self
    refine ih (fun r h => hl r (List.mem_cons_of_mem _ h)) _ (Device.writeLine_wf hwf) ?_
    by_cases hrq : r = q
    · subst hrq
      exact .inr ⟨hq, Device.writeLine_reads hwf hk⟩
    · rcases hr with hr | ⟨hro, hread⟩
      · exact .inl ((List.mem_cons.mp hr).resolve_left hrq)
      · refine .inr ⟨hro, ?_⟩
        rw [Device.writeLine_apart hwf (by omega) (by omega), hread]

theorem replicas_commit (h : s.HasAcc id t a) (hst : a.stage = .atTarget x) (hw : a.kind.writes = true) (htgt : x.tgt = 0)
    (hreps : x.reps ≠ []) (hkey : x.key ≠ 0) (hm : s.dev.keyFor t.ctx x.key = some m) (ha : s.dev.awaits x = false)
    (hall : ∀ r ∈ x.replicas, s.dev.locked r = false ∧ s.dev.portGone (stackOf r) = false) (hlen : x.pa % 64 + a.data.length ≤ 64)
    (hwf : Memory.wf s.dev.hbm = true) :
    ∃ dv', BecomesWith (.replicaCommit id) s (evCoord id) (t.setAcc { a with stage := .answered none [] none }) dv' ∧
      ∀ r ∈ x.replicas, ∀ k y, a.data[k]? = some y → dv'.hbm.read (r + k) = y := by
  have hkeyOf : s.dev.keyOf t.ctx x = .ok (some m) := by simp [Device.keyOf, htgt, hkey, hm]
  have hgone : (x.replicas.any fun a => s.dev.portGone (stackOf a)) = false := List.any_eq_false.mpr fun r hr => by simp [(hall r hr).2]
  have hlock : x.replicas.any s.dev.locked = false := List.any_eq_false.mpr fun r hr => by simp [(hall r hr).1]
  have hrep : x.reps.isEmpty = false := by simpa using hreps
  have hcommit : s.dev.commit t.ctx x a.data false =
      (none, x.replicas.foldl (fun dv r => dv.writeLine (r / 64 * 64) (r % 64) a.data (some m) false) s.dev) := by
    rw [Device.commit, hkeyOf]
    simp only [hgone, Bool.false_eq_true, if_false]
  refine ⟨_, h.becomes (dv := x.replicas.foldl (fun dv r => dv.writeLine (r / 64 * 64) (r % 64) a.data (some m) false) s.dev) ?_,
    fun r hr k y hk => foldl_writeLine_reads (fun r hr => replica_line hr) hlen hk s.dev hwf (.inl hr)⟩
  show Host.Outcome.next (s.replicaCommit id) = _
  rw [State.replicaCommit, h.withAcc]
  simp only [hst, hw, hrep, ha, hlock, hcommit, Bool.not_true, Bool.or_self, Bool.false_eq_true, if_false]

end

/-- Settles O50: the entry port, the target, replicas, and locked lines. -/
theorem bulkAccessSteps : Obligations.BulkAccessSteps := by
  intro s id t a x m h hp
  refine ⟨?_, ?_, fun hst hw ho => load_performed h hst hw ho, fun hst hw ho hlen => store_performed_bulk h hst hw ho hlen,
    fun hst hw htgt hreps hkey hm ha hall hlen hwf => replicas_commit h hst hw htgt hreps hkey hm ha hall hlen hwf,
    fun hst hw ha hl => load_stalls h hst hw ha hl, fun n hst ho => load_resumes h hst ho,
    fun n hst hn hseq => locked_times_out h hst hn hseq, fun _ => rfl⟩
  · rintro dv ⟨hst, hs, ho, hb⟩ hx hroom hkey
    exact request_translated h hp hst hs ho hb hx hroom hkey
  · rintro f dv ⟨hst, hs, ho, hb⟩ hx hctx hrec hroom hring
    exact request_parks h hp hst hs ho hb hx hctx hrec hroom hring

end Sys2Proof.Machine
end

section
/-! SUPPORT. How a bulk access ends: failures, retry words, PORTW, answers, and held fault records (R73 to R77, R318). -/

namespace Sys2Proof.Machine

section
variable {s : State} {id : Nat} {t : Tile} {a : BulkAcc} {x : Xlat}

/-! The outside fails. -/

/-- An access's number is no copy line's. -/
theorem State.withLine_early (hseq : evSeq id < 2 ^ 32 - 8) (f : State → Tile → Nat → CopyJob → Nat × Nat × Nat → Xlat → State) (u : State) :
    u.withLine id f = u := by
  unfold State.withLine
  exact State.withCopy_early hseq _ u

theorem load_unanswered (h : s.HasAcc id t a) (hst : a.stage = .atTarget x) (hx : x.tgt = 1) (hw : a.kind.writes = false)
    (hseq : evSeq id < 2 ^ 32 - 8) :
    BecomesWith (.hostTimeout id) s (evCoord id) (t.setAcc { a with stage := .answered (some .bxhost) [] none }) s.dev.draw := by
  refine h.becomes ?_
  show Host.Outcome.next (s.hostTimeout id) = _
  rw [State.hostTimeout, State.withLine_early hseq, h.withAcc]
  simp only [hst, hx, if_true, State.failOut, hw, Bool.false_and, Bool.false_eq_true, if_false]

theorem request_not_accepted (h : s.HasAcc id t a) (hst : a.stage = .atTarget x) (hx : x.tgt = 1) (hup : s.dev.hostUp x.hport = true)
    (hseq : evSeq id < 2 ^ 32 - 8) :
    BecomesWith (.requestAcceptTimeout id) s (evCoord id) (t.setAcc { a with stage := .answered (some .bxfull) [] none }) s.dev := by
  refine h.becomes ?_
  have hreach : s.dev.reachable x = true := by simp [Device.reachable, hx, hup]
  show Host.Outcome.next (s.acceptTimeout id) = _
  rw [State.acceptTimeout, State.withLine_early hseq, h.withAcc]
  simp only [hst, hreach, if_true]

/-- A request's number from its tile and its place in issue order (entry 13). -/
theorem ev_number (id : Nat) : ((evCoord id).row * 1000 + (evCoord id).col) * 2 ^ 32 + evSeq id = id := by
  unfold evCoord evSeq
  generalize hn : (2 : Nat) ^ 32 = n
  dsimp only
  have h1 : id / n / 1000 * 1000 + id / n % 1000 = id / n := by omega
  rw [h1]
  exact Nat.div_add_mod' id n

theorem Device.setReady_ready (dv : Device) (n : Nat) (f : Ready → Ready) (hf : ∀ r, (f r).ready = false) :
    ((dv.setReady n f).readyOf n).ready = false := by
  unfold Device.setReady
  split
  · next h => rw [← h, hf]
  · rw [Device.readyOf]
    show (((setAt dv.ready n (f (dv.readyOf n)))[n]?).getD Ready.zero).ready = false
    rw [setAt]
    by_cases hn : n < dv.ready.length
    · rw [List.getElem?_set_self hn, Option.getD_some, hf]
    · rw [List.getElem?_eq_none (by rw [List.length_set]; omega)]
      rfl

theorem link_dropped {n : Nat} (h : s.HasAcc id t a) (haccs : t.accs = [a]) (hst : a.stage = .atTarget x) (hx : x.tgt = 1)
    (hp : x.hport = n) (hn : n < 4) (hcore : s.core = t) (ho : s.others = []) :
    ∃ u, exec (.externalLinkDrop (.hostPort n)) s = .next u ∧ u.core = t.setAcc { a with stage := .answered (some .bxhost) [] none } ∧
      u.dev.hostUp n = false := by
  have hover : x.over (.hostPort n) = true := by simp [Xlat.over, hx, hp]
  have hdrop : s.dropTile (.hostPort n) .bxhost (evCoord id) = s.failOut t a x .bxhost := by
    rw [State.dropTile, h.tile]
    simp only [haccs, List.map_cons, List.map_nil, List.foldl_cons, List.foldl_nil, h.seq, ev_number, h.withAcc, hst, hover, if_true]
  have hexec : exec (.externalLinkDrop (.hostPort n)) s = .next ((s.failOut t a x .bxhost).withDev fun dv =>
      dv.setReady (104 + n) fun r => { r with ready := false, kstate := 0 }) := by
    show Host.Outcome.next (s.linkDrop (.hostPort n)) = _
    rw [State.linkDrop]
    simp only [hn, if_true, ho, hcore, List.map_cons, List.map_nil, List.foldl_cons, List.foldl_nil, h.coord, hdrop]
  refine ⟨_, hexec, ?_, Device.setReady_ready _ _ _ fun _ => rfl⟩
  have hat : s.core.isAt (t.setAcc { a with stage := .answered (some .bxhost) [] none }).coord = true := by
    rw [hcore]
    show t.isAt t.coord = true
    rw [h.coord]
    exact h.isAt
  have hput : ∀ dv : Device, (({ s with dev := dv } : State).setTile (t.setAcc { a with stage := .answered (some .bxhost) [] none })).core =
      t.setAcc { a with stage := .answered (some .bxhost) [] none } := fun dv => by
    rw [State.setTile_core (s := { s with dev := dv }) hat]
    rfl
  exact hput _

/-! Retry words. -/

/-- A retry word (Table 03-7). -/
def retryWord (e : RetryEntry) (fail : Bool) : DWord := BitVec.ofNat 64 (e.idx + 1024 * b2n fail + 2 ^ 32 * e.seqn)

theorem retryWord_fields {e : RetryEntry} (hi : e.idx < 1024) (hq : e.seqn < 2 ^ 32) (fail : Bool) :
    bitsOf (retryWord e fail).toNat 11 21 = 0 ∧ bitsOf (retryWord e fail).toNat 0 10 = e.idx ∧
      bitsOf (retryWord e fail).toNat 32 32 = e.seqn ∧ bitOf (retryWord e fail).toNat 10 = fail := by
  have hb : b2n fail ≤ 1 := by cases fail <;> decide
  have hn : (retryWord e fail).toNat = e.idx + 1024 * b2n fail + 4294967296 * e.seqn := by
    rw [retryWord, BitVec.toNat_ofNat]
    omega
  rw [hn]
  unfold bitsOf bitOf
  refine ⟨by omega, by omega, by omega, ?_⟩
  have hmod : (e.idx + 1024 * b2n fail + 4294967296 * e.seqn) / 2 ^ 10 % 2 = b2n fail := by omega
  rw [hmod]
  cases fail <;> rfl

theorem retry_releases {port : Nat} {e : RetryEntry} {cz : Cause} (h : s.HasAcc id t a) (hacc : t.accs = [a]) (hg : t.guards = [])
    (hi : e.idx < 1024) (hq : e.seqn < 2 ^ 32) (hwho : e.who = evCoord id) (hseq : e.acc = a.seq) (hc : e.copy = none)
    (hport : s.dev.ports[port]? = some ⟨(s.dev.port port).seqn, [e]⟩) (hst : a.stage = .parked port e.idx e.seqn cz)
    (hout : ∀ co data, .portw co a.seq data ∉ t.out) (fail : Bool) :
    retryEntry s.dev port (retryWord e fail) = some e ∧ s.retry port (retryWord e fail) fail =
      ({ s with dev := s.dev.setPort port ⟨(s.dev.port port).seqn, []⟩ } : State).setTile (t.setAcc { a with
        stage := if fail then .answered (some cz) (valBytes 4 e.seqn) none else .inTile }) := by
  obtain ⟨hzero, hidx, hsn, hbit⟩ := retryWord_fields hi hq fail
  have hp : s.dev.port port = ⟨(s.dev.port port).seqn, [e]⟩ := by
    conv_lhs => rw [Device.port, hport, Option.getD_some]
  have hentry : retryEntry s.dev port (retryWord e fail) = some e := by
    rw [retryEntry, hzero, hidx, hsn, hp]
    simp
  have hunpark : s.dev.unpark port e.idx e.seqn = s.dev.setPort port ⟨(s.dev.port port).seqn, []⟩ := by
    rw [Device.unpark, hp]
    simp
  have htile : t.retryAcc port e fail = t.setAcc { a with stage := if fail then .answered (some cz) (valBytes 4 e.seqn) none else .inTile } := by
    have hfilter : ∀ p : Msg → Bool, (∀ m ∈ t.out, p m = true) → t.out.filter p = t.out := fun p => List.filter_eq_self.mpr
    have hguards : ∀ f : GuardReq → GuardReq, t.guards.map f = t.guards := fun f => by rw [hg]; rfl
    rw [Tile.retryAcc, hfilter, hguards, Tile.setAcc, hacc]
    · simp [hst, hseq, RetryEntry.holds]
    · intro m hm
      split
      · next co q data => exact bne_iff_ne.mpr fun hqe => hout co data (by rw [← hseq, ← hqe]; exact hm)
      · rfl
  refine ⟨hentry, ?_⟩
  rw [State.retry, hentry]
  simp only [hbit, bne_self_eq_false, Bool.false_eq_true, if_false, hc, hwho]
  rw [State.onTile_quiet (s := s.withDev _) (fun t => t.retryAcc port e fail) h.tile (by rw [htile]; exact h.noReports), htile, State.withDev,
    hunpark]

/-- PORTW gives a parked load its data (R318). -/
theorem portw_comes {p i q : Nat} {cz : Cause} {co : Coord} {data : List Byte} (h : s.HasAcc id t a) (hst : a.stage = .parked p i q cz)
    (hout : t.out = [.portw co (evSeq id) data]) :
    BecomesWith (.portwAtPort id) s (evCoord id)
      { t.setAcc { a with stage := .answered none (data.take a.len) none } with out := [] } (s.dev.unpark p i q) := by
  refine BecomesWith.setTile (u := s.withDev fun dv => dv.unpark p i q) (.withDev s _) h.tile ?_ h.isAt
  show Host.Outcome.next (s.portwAtPort id) = _
  have hacc : ({ t with out := [] } : Tile).acc? (evSeq id) = some a := h.acc
  rw [State.portwAtPort, h.tile]
  simp only [hout]
  rw [List.find?_cons_of_pos (by simp)]
  simp only [List.erase_cons_head, hacc, hst]
  rfl

/-! Answers at the tile. -/

/-- An answer to the one access of a tile on which nothing is armed (R75). -/
theorem answer_comes {cz : Option Cause} {data : List Byte} {l : Option (List Byte)} {v : Tile} (h : s.HasAcc id t a) (haccs : t.accs = [a])
    (hi : t.inj.armed = 0) (hst : a.stage = .answered cz data l) (hv : t.answerAcc a cz data l = v) (hat : v.isAt (evCoord id) = true)
    (hr : v.recs = []) : BecomesWith (.bulkResponse id) s (evCoord id) v s.dev := by
  have hclear : s.clearDropped id = s := by
    rw [State.clearDropped, h.withAcc]
    simp only [hst]
  have hinj : t.injectTag (evSeq id) = t := by
    rw [Tile.injectTag, h.acc]
    simp only [hst]
    split
    · rw [Inject.has_unarmed hi, Bool.false_and, Bool.false_and, if_neg Bool.false_ne_true]
    · rfl
  have holder : t.olderOn a = false := by simp [Tile.olderOn, haccs]
  have hf : (t.injectTag (evSeq id)).bulkResponse (evSeq id) = v := by
    rw [hinj, Tile.bulkResponse, h.acc]
    simp only [hst, h.kept, holder, Bool.false_eq_true, if_false]
    exact hv
  have he : exec (.bulkResponse id) s = .next (s.onTile (evCoord id) fun t => (t.injectTag (evSeq id)).bulkResponse (evSeq id)) := by
    show Host.Outcome.next ((s.clearDropped id).onTile _ _) = _
    rw [hclear]
  have hbec := Becomes.onTile _ h.tile he (by rw [hf]; exact hat) (by rw [hf]; exact hr)
  rw [hf] at hbec
  exact hbec

theorem Tile.overAcc_alone (haccs : t.accs = [a]) (hp : t.pair = none) : t.overAcc a = { t with accs := [] } := by
  rw [Tile.overAcc, Tile.pairOver, Tile.dropAcc, haccs]
  simp [hp]

theorem Tile.setTag_tm (t : Tile) (n : Nat) (st : TagSt) : (t.setTag n st).sch.tm = t.sch.tm := by
  unfold Tile.setTag
  split <;> rfl

theorem Tile.setTag_accs (t : Tile) (n : Nat) (st : TagSt) : (t.setTag n st).accs = t.accs := by
  unfold Tile.setTag
  split <;> rfl

theorem store_answered {data : List Byte} {l : Option (List Byte)} (h : s.HasAcc id t a) (hp : t.pair = none) (haccs : t.accs = [a])
    (hi : t.inj.armed = 0) (hst : a.stage = .answered none data l) (hk : a.kind = .bstw ∨ a.kind = .bstd) :
    ∃ v, BecomesWith (.bulkResponse id) s (evCoord id) v s.dev ∧ v.accs = [] ∧ (a.tag ≠ 0#3 → v.tagSt a.tag.toNat = .free) ∧
      v.files = t.files ∧ v.pad = t.pad ∧ v.ctl = t.ctl := by
  have hv : t.answerAcc a none data l = ({ t with accs := [] } : Tile).setTag a.tag.toNat .free := by
    rw [Tile.answerAcc]
    rcases hk with hk | hk <;> simp [hk, Tile.overAcc_alone haccs hp, AccKind.isStore]
  exact ⟨_, answer_comes h haccs hi hst hv ((Tile.setTag_isAt ..).trans h.isAt) ((Tile.setTag_recs ..).trans h.noReports),
    Tile.setTag_accs .., Tile.tagSt_setTag_same _ _, Tile.setTag_files .., Tile.setTag_pad .., Tile.setTag_ctl ..⟩

/-- The tile that has a load's registers and line, and has freed its tag. -/
theorem load_answered {data : List Byte} {l : Option (List Byte)} (h : s.HasAcc id t a) (hp : t.pair = none) (haccs : t.accs = [a])
    (hi : t.inj.armed = 0) (hst : a.stage = .answered none data l) (hk : a.kind = .bldw ∨ a.kind = .bldd) :
    ∃ v, BecomesWith (.bulkResponse id) s (evCoord id) v s.dev ∧ v.accs = [] ∧ (a.tag ≠ 0#3 → v.tagSt a.tag.toNat = .free) ∧
      v.files = t.files.putAll (t.surviving (((upTo a.dest.length).zip a.dest).map fun y =>
        .s y.2 (BitVec.ofNat 32 (bytesVal ((data.drop (4 * y.1)).take 4))))) ∧ v.pad.mem = t.pad.mem ∧ v.ctl = t.ctl := by
  obtain ⟨w, hw⟩ : ∃ w, w = ({ t with accs := [] } : Tile).setTag a.tag.toNat .free := ⟨_, rfl⟩
  have hwaccs : w.accs = [] := hw ▸ Tile.setTag_accs _ _ _
  have hwpad : w.pad = t.pad := hw ▸ Tile.setTag_pad ..
  have hwctl : w.ctl = t.ctl := hw ▸ Tile.setTag_ctl ..
  have hwfiles : w.files = t.files := hw ▸ Tile.setTag_files ..
  have hwrecs : w.recs = [] := hw ▸ (Tile.setTag_recs ..).trans h.noReports
  have hwat : w.isAt (evCoord id) = true := hw ▸ (Tile.setTag_isAt ..).trans h.isAt
  have hwtag : a.tag ≠ 0#3 → w.tagSt a.tag.toNat = .free := hw ▸ Tile.tagSt_setTag_same _ _
  have hsurv : ∀ l, w.surviving l = t.surviving l := fun l => hw ▸ Tile.setTag_surviving (t := { t with accs := [] }) _ _ l
  have hland : (w.landWrites a.seq (BulkAcc.loadWrites { a with data := data })).files = t.files.putAll (t.surviving
      (((upTo a.dest.length).zip a.dest).map fun y => .s y.2 (BitVec.ofNat 32 (bytesVal ((data.drop (4 * y.1)).take 4))))) := by
    show w.files.putAll (w.surviving _) = _
    rw [hwfiles, hsurv]
    rfl
  have hmem : w.pad.mem = t.pad.mem := congrArg Pad.mem hwpad
  cases l with
  | none =>
    have hv : t.answerAcc a none data none = w.landWrites a.seq (BulkAcc.loadWrites { a with data := data }) := by
      rw [hw, Tile.answerAcc]
      rcases hk with hk | hk <;> simp [hk, Tile.overAcc_alone haccs hp, AccKind.isStore]
    exact ⟨_, answer_comes h haccs hi hst hv hwat hwrecs, hwaccs, hwtag, hland, hmem, hwctl⟩
  | some b =>
    have hv : t.answerAcc a none data (some b) = (w.landWrites a.seq (BulkAcc.loadWrites { a with data := data })).place a b := by
      rw [hw, Tile.answerAcc]
      rcases hk with hk | hk <;> simp [hk, Tile.overAcc_alone haccs hp, AccKind.isStore]
    exact ⟨_, answer_comes h haccs hi hst hv hwat hwrecs, hwaccs, hwtag, hland, hmem, hwctl⟩

theorem failure_answered {cz : Cause} {data : List Byte} {l : Option (List Byte)} (h : s.HasAcc id t a) (hp : t.pair = none)
    (haccs : t.accs = [a]) (hi : t.inj.armed = 0) (hst : a.stage = .answered (some cz) data l) (hspill : a.kind ≠ .spill)
    (hfill : a.kind ≠ .fill) (hn : a.noticed = false) (htm : t.sch.tm = false) (hlen : t.sch.pend.length < 32) :
    ∃ v, BecomesWith (.bulkResponse id) s (evCoord id) v s.dev ∧ v.accs = [] ∧ (a.tag ≠ 0#3 → v.tagSt a.tag.toNat = .faulted) ∧
      v.Pends cz (BitVec.ofNat 64 a.va) (BitVec.ofNat 64 (bytesVal data)) ∧ v.files = t.files ∧ v.pad = t.pad := by
  have hinfo : bulkInfo false (bytesVal data) = BitVec.ofNat 64 (bytesVal data) := by simp [bulkInfo, b2n]
  have hv : t.answerAcc a (some cz) data l = (({ t with accs := [] } : Tile).setTag a.tag.toNat .faulted).raise cz (some a.seq) 1
      (BitVec.ofNat 64 a.va) (BitVec.ofNat 64 (bytesVal data)) := by
    rw [← hinfo, Tile.answerAcc]
    cases hk : a.kind
    case spill => exact absurd hk hspill
    case fill => exact absurd hk hfill
    all_goals simp only [Tile.overAcc_alone haccs hp, hn, Bool.false_eq_true, if_false]
  have htold := Tile.Told.raise (t := ({ t with accs := [] } : Tile).setTag a.tag.toNat .faulted) (seq := some a.seq)
    (.inl ((Tile.setTag_tm ..).trans htm)) (by rw [Tile.setTag_pend]; exact hlen) cz 1 (BitVec.ofNat 64 a.va) (BitVec.ofNat 64 (bytesVal data))
  exact ⟨_, answer_comes h haccs hi hst hv ((htold.isAt _).trans ((Tile.setTag_isAt ..).trans h.isAt))
    (htold.recs.trans ((Tile.setTag_recs ..).trans h.noReports)), htold.accs.trans (Tile.setTag_accs ..),
    fun htag => (htold.tagSt _).trans (Tile.tagSt_setTag_same _ _ htag), htold.pends, htold.files.trans (Tile.setTag_files ..),
    htold.pad.trans (Tile.setTag_pad ..)⟩

end

/-! Fault records. -/

theorem record_released {s : State} {ctx : BitVec 8} {h : HeldFault} (hf : s.dev.faults = [h]) (hc : h.ctx = ctx.toNat)
    (hroom : (bitsOf (s.dev.desc ctx.toNat) 208 32 + 2 ^ 32 - bitsOf (s.dev.desc ctx.toNat) 240 32) % 2 ^ 32 ≠
      2 ^ (bitsOf (s.dev.desc ctx.toNat) 192 4 + 6)) (hhost : bitOf (s.dev.desc ctx.toNat) 196 = false) :
    s.dev.faultRelease ctx.toNat = (({ s.dev with faults := [] } : Device).putPhys (bitsOf (s.dev.desc ctx.toNat) 128 64 +
      64 * (bitsOf (s.dev.desc ctx.toNat) 208 32 % 2 ^ (bitsOf (s.dev.desc ctx.toNat) 192 4 + 6))) 64 h.bits).putPhys
        (s.dev.descAt ctx.toNat + 26) 4 ((bitsOf (s.dev.desc ctx.toNat) 208 32 + 1) % 2 ^ 32) := by
  have hdesc : ({ s.dev with faults := [] } : Device).desc ctx.toNat = s.dev.desc ctx.toNat := rfl
  rw [Device.faultRelease, hf, List.find?_cons_of_pos (by simp [hc])]
  simp only [List.erase_cons_head]
  rw [if_neg hroom, Device.reportFault, hdesc, if_neg hroom, hhost, Device.ringStore]
  rfl

/-- Settles O51: the outside that fails, the retry word, PORTW, the answers, and the held fault record. -/
theorem bulkAccessEnds : Obligations.BulkAccessEnds := by
  intro s id t a x h hp haccs hg hi
  refine ⟨fun hst hx hw hseq => ⟨_, load_unanswered h hst hx hw hseq, rfl, rfl⟩,
    fun hst hx hup hseq => request_not_accepted h hst hx hup hseq,
    fun n hst hx hpn hn hcore ho => link_dropped h haccs hst hx hpn hn hcore ho,
    fun port e cz hidx hsn hwho hseq hc hport hports hst hout => ?_,
    fun p i q cz co data hst hout => portw_comes h hst hout,
    fun data l hst hk hb => load_answered h hp haccs hi hst hk, fun data l hst hk => store_answered h hp haccs hi hst hk,
    fun cz data l hst hspill hfill hn htm hlen => failure_answered h hp haccs hi hst hspill hfill hn htm hlen,
    fun ctx f d hd hf hc hroom hhost => ?_⟩
  · intro w dv
    obtain ⟨hentry, hretry⟩ := retry_releases h haccs hg hidx hsn hwho hseq hc hports hst hout false
    obtain ⟨-, habort⟩ := retry_releases h haccs hg hidx hsn hwho hseq hc hports hst hout true
    refine ⟨?_, h.becomes (congrArg Host.Outcome.next habort)⟩
    show Host.Outcome.next (s.retryReplay port (retryWord e false)) = _
    rw [State.retryReplay, hentry]
    simp only [hretry, hwho, hseq, h.seq, ev_number, Bool.false_eq_true, if_false]
    rfl
  · subst hd
    intro dv
    show Host.Outcome.next (s.withDev fun dv => dv.faultRelease ctx.toNat) = _
    rw [State.withDev, record_released hf hc hroom hhost]

end Sys2Proof.Machine
end

section
/-! SUPPORT. Guards at their home line and at the tile (R114 to R120). -/

namespace Sys2Proof.Machine

/-! Fields of a number that are replaced. -/

theorem putBits_eq (w lo len v : Nat) : putBits w lo len v = w % 2 ^ lo + 2 ^ lo * (v % 2 ^ len + 2 ^ len * (w / 2 ^ (lo + len))) := by
  have h1 : w = w % 2 ^ lo + 2 ^ lo * (w / 2 ^ lo) := (Nat.mod_add_div w (2 ^ lo)).symm
  have h2 : w / 2 ^ lo = w / 2 ^ lo % 2 ^ len + 2 ^ len * (w / 2 ^ (lo + len)) := by
    rw [pow_add, ← Nat.div_div_eq_div_mul]
    exact (Nat.mod_add_div _ _).symm
  rw [putBits, atBits, atBits, bitsOf, Nat.mod_mod]
  conv_lhs => rw [h1]
  have h3 : 2 ^ lo * (w / 2 ^ lo) = w / 2 ^ lo % 2 ^ len * 2 ^ lo + 2 ^ lo * (2 ^ len * (w / 2 ^ (lo + len))) := by
    conv_lhs => rw [h2]
    ring
  have h4 : (w % 2 ^ lo + 2 ^ lo * (w / 2 ^ lo)) / 2 ^ lo = w / 2 ^ lo := by rw [← h1]
  rw [h4, h3, Nat.mul_add, Nat.mul_comm (2 ^ lo) (v % 2 ^ len)]
  omega

theorem bitsOf_putBits_same (w lo len v : Nat) : bitsOf (putBits w lo len v) lo len = v % 2 ^ len := by
  have hskip := bitsOf_skip (v % 2 ^ len + 2 ^ len * (w / 2 ^ (lo + len))) 0 len (Nat.mod_lt w (Nat.two_pow_pos lo))
  rw [Nat.add_zero] at hskip
  rw [putBits_eq, hskip, bitsOf, pow_zero, Nat.div_one, Nat.add_mul_mod_self_left, Nat.mod_mod]

theorem bitsOf_low {w i n m : Nat} (h : i + n ≤ m) : bitsOf w i n = bitsOf (w % 2 ^ m) i n := by
  have hm := bitsOf_bitsOf w 0 h
  have h0 : bitsOf w 0 m = w % 2 ^ m := by rw [bitsOf, pow_zero, Nat.div_one]
  rw [Nat.zero_add, h0] at hm
  exact hm.symm

/-- A field reads as before when another is replaced. -/
theorem bitsOf_putBits_apart {w lo len v i n : Nat} (h : lo + len ≤ i ∨ i + n ≤ lo) : bitsOf (putBits w lo len v) i n = bitsOf w i n := by
  rw [putBits_eq]
  rcases h with h | h
  · obtain ⟨k, rfl⟩ := Nat.exists_eq_add_of_le h
    rw [Nat.add_assoc, bitsOf_skip _ _ _ (Nat.mod_lt _ (Nat.two_pow_pos _)), bitsOf_skip _ _ _ (Nat.mod_lt _ (Nat.two_pow_pos _)), bitsOf,
      bitsOf, Nat.div_div_eq_div_mul, ← pow_add, Nat.add_assoc]
  · rw [bitsOf_low h, Nat.add_mul_mod_self_left, Nat.mod_mod, ← bitsOf_low h]

theorem bitsOf_add (w lo a b : Nat) : bitsOf w lo (a + b) = bitsOf w lo a + 2 ^ a * bitsOf w (lo + a) b := by
  rw [bitsOf, bitsOf, bitsOf, pow_add, pow_add, ← Nat.div_div_eq_div_mul]
  exact Nat.mod_mul

/-! Guard lines. -/

section
variable {s : State} {id : Nat} {t : Tile} {g : GuardReq} {x : Xlat} {m o : Nat}

theorem NatSet.del_of_not_has {l : NatSet} {y : Nat} (h : l.has y = false) : NatSet.del l y = l := by
  induction l with
  | nil => rfl
  | cons a l ih => grind [NatSet.del, NatSet.has]

/-- A whole line that is written opens with the same key, and holds what was written (R70, R76). -/
theorem Device.Opens.writeLine {dv : Device} {ctx : Nat} (h : dv.Opens ctx x m) {l : List Byte} (hl : l.length = 64) :
    (dv.writeLine (x.pa / 64 * 64) 0 l (some m) false).Opens ctx x m ∧
      (dv.writeLine (x.pa / 64 * 64) 0 l (some m) false).hbm.bytes (x.pa / 64 * 64) 64 = l ∧
      (dv.writeLine (x.pa / 64 * 64) 0 l (some m) false).waits = dv.waits ∧
      (dv.writeLine (x.pa / 64 * 64) 0 l (some m) false).nodes = dv.nodes := by
  have hwrite : dv.writeLine (x.pa / 64 * 64) 0 l (some m) false = { dv with
      hbm := dv.hbm.put (x.pa / 64 * 64) l, seals := putSeal (x.pa / 64 * 64) m dv.seals
      soft := NatSet.del dv.soft (x.pa / 64 * 64), bad := NatSet.del dv.bad (x.pa / 64 * 64), poison := NatSet.del dv.poison (x.pa / 64 * 64) } := by
    have hdrop : (dv.hbm.bytes (x.pa / 64 * 64) 64).drop 64 = [] := List.drop_eq_nil_of_le (by simp)
    simp [Device.writeLine, h.readLine, hl, hdrop]
  rw [NatSet.del_of_not_has h.steady, NatSet.del_of_not_has h.whole, NatSet.del_of_not_has h.clean] at hwrite
  have hput := Memory.bytes_put_same h.canonical (x.pa / 64 * 64) l
  rw [hl] at hput
  have hseal : ((putSeal (x.pa / 64 * 64) m dv.seals).find? (·.1 == x.pa / 64 * 64)).map (·.2) = some m := by
    rw [putSeal_finds]
    rfl
  rw [hwrite]
  exact ⟨⟨h.hbm, h.single, h.key, h.loaded, h.serves, h.sound, h.unlocked, h.whole, h.clean, h.steady, hseal,
    Memory.put_wf _ _ h.canonical⟩, hput, rfl, rfl⟩

/-- A guard line that is written is read as it was written (R114). -/
theorem Device.Opens.writeGuard {dv : Device} {ctx : Nat} (h : dv.Opens ctx x m) (o : Nat) :
    (dv.writeGuard ctx x o).Opens ctx x m ∧ (dv.writeGuard ctx x o).readGuard ctx x = .ok (o % 256 ^ 64) ∧
      (dv.writeGuard ctx x o).waits = dv.waits ∧ (dv.writeGuard ctx x o).nodes = dv.nodes := by
  have hwrite : dv.writeGuard ctx x o = dv.writeLine (x.pa / 64 * 64) 0 (valBytes 64 o) (some m) false := by
    rw [Device.writeGuard, h.keyOf]
  obtain ⟨hopens, hbytes, hwaits, hnodes⟩ := h.writeLine (valBytes_length 64 o)
  rw [← hwrite] at hopens hbytes hwaits hnodes
  refine ⟨hopens, ?_, hwaits, hnodes⟩
  rw [Device.readGuard, hopens.keyOf]
  simp only [hopens.readLine, hbytes, bytesVal_valBytes]

theorem Device.Opens.metGuard {dv : Device} {ctx : Nat} (h : dv.Opens ctx x m) : dv.metGuard ctx x = dv := by
  rw [Device.metGuard, Device.readGuard, h.keyOf]
  simp only [h.readLine, h.correct]

/-- A line opens alike whatever waits at its port. -/
theorem Device.Opens.withWaits {dv : Device} {ctx : Nat} (h : dv.Opens ctx x m) (l : List GuardWait) :
    ({ dv with waits := l } : Device).Opens ctx x m :=
  ⟨h.hbm, h.single, h.key, h.loaded, h.serves, h.sound, h.unlocked, h.whole, h.clean, h.steady, h.sealed, h.canonical⟩

/-- A field of a guard line as it is written. -/
theorem bitsOf_line (o : Nat) {i n : Nat} (h : i + n ≤ 512) : bitsOf (o % 256 ^ 64) i n = bitsOf o i n := by
  have h512 : (256 : Nat) ^ 64 = 2 ^ 512 := by
    rw [show (256 : Nat) = 2 ^ 8 from rfl, ← pow_mul]
  rw [h512, ← bitsOf_low h]

/-! What a grant and a release write. -/

/-- Whether a guard line names no owner. -/
def Unowned (o : Nat) : Prop := bitsOf o 148 28 = 0 ∧ bitsOf o 192 32 = 0

theorem Unowned.line {o : Nat} (h : Unowned o) : Unowned (o % 256 ^ 64) :=
  ⟨(bitsOf_line o (by omega)).trans h.1, (bitsOf_line o (by omega)).trans h.2⟩

theorem guardOwner_apart {o : Nat} {w : Who} {i n : Nat} (h : i + n ≤ 148 ∨ 224 ≤ i) : bitsOf (guardOwner o w) i n = bitsOf o i n := by
  unfold guardOwner
  rw [bitsOf_putBits_apart (by omega), bitsOf_putBits_apart (by omega), bitsOf_putBits_apart (by omega), bitsOf_putBits_apart (by omega)]

theorem guardOwner_fields (o : Nat) (w : Who) :
    bitsOf (guardOwner o w) 192 32 = w.node % 2 ^ 32 ∧ bitsOf (guardOwner o w) 168 8 = w.ctx % 2 ^ 8 ∧
      bitsOf (guardOwner o w) 158 10 = w.coord.row % 2 ^ 10 ∧ bitsOf (guardOwner o w) 148 10 = w.coord.col % 2 ^ 10 := by
  unfold guardOwner
  refine ⟨?_, ?_, ?_, ?_⟩
  · rw [bitsOf_putBits_apart (by omega), bitsOf_putBits_apart (by omega), bitsOf_putBits_apart (by omega), bitsOf_putBits_same]
  · rw [bitsOf_putBits_apart (by omega), bitsOf_putBits_apart (by omega), bitsOf_putBits_same]
  · rw [bitsOf_putBits_apart (by omega), bitsOf_putBits_same]
  · rw [bitsOf_putBits_same]

theorem guardOwner_none (o : Nat) : Unowned (guardOwner o ⟨0, 0, ⟨0, 0⟩⟩) := by
  obtain ⟨h1, h2, h3, h4⟩ := guardOwner_fields o ⟨0, 0, ⟨0, 0⟩⟩
  refine ⟨?_, h1⟩
  rw [show 28 = 10 + (10 + 8) from rfl, bitsOf_add, bitsOf_add, h4, h3, h2]
  rfl

theorem guardBad_free {o : Nat} (h : guardBad o = false) (h0 : bitsOf o 0 2 = 0) : bitsOf o 224 32 = 0 ∧ Unowned o := by
  simp only [guardBad, h0, Bool.or_eq_false_iff, Bool.and_eq_false_iff, bne_eq_false_iff_eq, beq_eq_false_iff_ne] at h
  unfold Unowned
  simp_all

/-- A shared grant counts one more holder (R116). -/
theorem grant_shared (o : Nat) (w : Who) : bitsOf (guardGrant o true w) 0 2 = 2 ∧
    bitsOf (guardGrant o true w) 224 32 = (bitsOf o 224 32 + 1) % 2 ^ 32 ∧ (Unowned o → Unowned (guardGrant o true w)) := by
  have hg : guardGrant o true w = putBits (putBits o 0 2 2) 224 32 (bitsOf o 224 32 + 1) := rfl
  rw [hg]
  refine ⟨?_, bitsOf_putBits_same .., fun ⟨h1, h2⟩ => ⟨?_, ?_⟩⟩
  · rw [bitsOf_putBits_apart (by omega), bitsOf_putBits_same]
    rfl
  · rw [bitsOf_putBits_apart (by omega), bitsOf_putBits_apart (by omega), h1]
  · rw [bitsOf_putBits_apart (by omega), bitsOf_putBits_apart (by omega), h2]

theorem guardOwned_iff {o : Nat} {w : Who} : guardOwned o w = true ↔ bitsOf o 192 32 = w.node % 2 ^ 32 ∧ bitsOf o 168 8 = w.ctx % 2 ^ 8 ∧
    bitsOf o 158 10 = w.coord.row % 2 ^ 10 ∧ bitsOf o 148 10 = w.coord.col % 2 ^ 10 := by
  simp [guardOwned, and_assoc]

theorem grant_alone (o : Nat) (w : Who) : bitsOf (guardGrant o false w) 0 2 = 1 ∧ bitsOf (guardGrant o false w) 224 32 = bitsOf o 224 32 ∧
    guardOwned (guardGrant o false w) w = true := by
  have hg : guardGrant o false w = guardOwner (putBits o 0 2 1) w := rfl
  rw [hg]
  refine ⟨?_, ?_, guardOwned_iff.mpr (guardOwner_fields _ w)⟩
  · rw [guardOwner_apart (by omega), bitsOf_putBits_same]
    rfl
  · rw [guardOwner_apart (by omega), bitsOf_putBits_apart (by omega)]

theorem release_alone {o : Nat} {w : Who} (h1 : bitsOf o 0 2 = 1) (hw : guardOwned o w = true) :
    ∃ o', guardRelease o false w = some o' ∧ bitsOf o' 0 2 = 0 ∧ Unowned o' ∧ bitsOf o' 256 64 = (bitsOf o 256 64 + 1) % 2 ^ 64 := by
  refine ⟨putBits (guardOwner (putBits o 0 2 0) ⟨0, 0, ⟨0, 0⟩⟩) 256 64 (bitsOf o 256 64 + 1), ?_, ?_, ?_, bitsOf_putBits_same ..⟩
  · simp [guardRelease, h1, hw]
  · rw [bitsOf_putBits_apart (by omega), guardOwner_apart (by omega), bitsOf_putBits_same]
    rfl
  · obtain ⟨h2, h3⟩ := guardOwner_none (putBits o 0 2 0)
    exact ⟨by rw [bitsOf_putBits_apart (by omega), h2], by rw [bitsOf_putBits_apart (by omega), h3]⟩

theorem release_shared {o : Nat} {w : Who} (h2 : bitsOf o 0 2 = 2) (hn : bitsOf o 224 32 ≠ 0) :
    ∃ o', guardRelease o true w = some o' ∧ bitsOf o' 0 2 = (if bitsOf o 224 32 = 1 then 0 else 2) ∧
      bitsOf o' 224 32 = bitsOf o 224 32 - 1 := by
  have hlt : bitsOf o 224 32 < 2 ^ 32 := Nat.mod_lt _ (by decide)
  have hmod : (bitsOf o 224 32 + 2 ^ 32 - 1) % 2 ^ 32 = bitsOf o 224 32 - 1 := by omega
  have hrel : guardRelease o true w = some (if bitsOf o 224 32 - 1 = 0 then
      putBits (putBits o 224 32 (bitsOf o 224 32 + 2 ^ 32 - 1)) 0 2 0 else putBits o 224 32 (bitsOf o 224 32 + 2 ^ 32 - 1)) := by
    rw [guardRelease, if_pos rfl, if_neg (by simp [h2])]
    simp only [hmod]
  refine ⟨_, hrel, ?_, ?_⟩
  · by_cases h1 : bitsOf o 224 32 = 1
    · rw [if_pos (by omega), if_pos h1, bitsOf_putBits_same]
      rfl
    · rw [if_neg (by omega), if_neg h1, bitsOf_putBits_apart (by omega), h2]
  · split
    · rw [bitsOf_putBits_apart (by omega), bitsOf_putBits_same, hmod]
    · rw [bitsOf_putBits_same, hmod]

/-! Guard requests of a tile. -/

theorem State.HasGuard.isAt (h : s.HasGuard id t g) : t.isAt (evCoord id) = true := State.tileAt_isAt h.tile

theorem State.HasGuard.coord (h : s.HasGuard id t g) : t.coord = evCoord id := Tile.isAt_coord h.isAt

theorem State.HasGuard.withGuard (h : s.HasGuard id t g) (f : Tile → GuardReq → State) : s.withGuard id f = f t g := by
  rw [State.withGuard, h.tile]
  simp only [h.request]

theorem State.HasGuard.seq (h : s.HasGuard id t g) : g.seq = evSeq id :=
  beq_iff_eq.mp (List.find?_some (p := fun g : GuardReq => g.seq == evSeq id) h.request)

/-- A request that is replaced is found as it was put. -/
theorem Tile.guard?_setGuard {t : Tile} {g g' : GuardReq} (h : t.guard? g.seq = some g) (hs : g'.seq = g.seq) :
    (t.setGuard g').guard? g.seq = some g' := by
  have hfind : ∀ l : List GuardReq, l.find? (·.seq == g.seq) = some g →
      (l.map fun x => if x.seq = g'.seq then g' else x).find? (·.seq == g.seq) = some g' := by
    intro l
    induction l with
    | nil => exact fun h => nomatch h
    | cons y l ih =>
      intro h
      rw [List.map_cons]
      by_cases hy : y.seq = g.seq
      · rw [if_pos (hy.trans hs.symm), List.find?_cons_of_pos (by simp [hs])]
      · rw [List.find?_cons_of_neg (by simpa using hy)] at h
        rw [if_neg (hs ▸ hy), List.find?_cons_of_neg (by simpa using hy)]
        exact ih h
  exact hfind t.guards h

theorem Tile.setGuard_setGuard (t : Tile) {g g' : GuardReq} (hs : g'.seq = g.seq) : (t.setGuard g).setGuard g' = t.setGuard g' := by
  rw [Tile.setGuard, Tile.setGuard, Tile.setGuard, List.map_map]
  refine congrArg (fun l => { t with guards := l }) (List.map_congr_left fun y _ => ?_)
  by_cases hy : y.seq = g.seq <;> simp [hy, hs]

theorem State.HasGuard.becomes {i : Instr} {g' : GuardReq} {dv : Device} (h : s.HasGuard id t g)
    (he : exec i s = .next (({ s with dev := dv } : State).setTile (t.setGuard g'))) :
    BecomesWith i s (evCoord id) (t.setGuard g') dv :=
  BecomesWith.setTile (u := { s with dev := dv }) (.withDev s fun _ => dv) h.tile he h.isAt

/-- A state that differs from another in its device and in one tile, which it has as given. -/
structure State.Puts (s : State) (c : Coord) (v : Tile) (u : State) : Prop where
  tile : u.tileAt c = some v
  others : ∀ d, d ≠ c → u.tileAt d = s.tileAt d
  agenda : u.agenda = s.agenda
  bundle : u.bundle = s.bundle

theorem State.Puts.start {c : Coord} (h : s.tileAt c = some t) : s.Puts c t s := ⟨h, fun _ _ => rfl, rfl, rfl⟩

theorem State.Puts.setTile {u : State} {c : Coord} {v w : Tile} (h : s.Puts c v u) (hat : w.isAt c = true) : s.Puts c w (u.setTile w) := by
  obtain ⟨h1, h2⟩ := State.tileAt_setTile h.tile hat
  exact ⟨h1, fun d hd => (h2 d hd).trans (h.others d hd), (State.setTile_agenda _ _).trans h.agenda,
    (State.setTile_bundle _ _).trans h.bundle⟩

theorem State.Puts.withDev {u : State} {c : Coord} {v : Tile} (h : s.Puts c v u) (f : Device → Device) : s.Puts c v (u.withDev f) :=
  ⟨h.tile, h.others, h.agenda, h.bundle⟩

theorem State.Puts.becomes {i : Instr} {u : State} {c : Coord} {v : Tile} {dv : Device} (h : s.Puts c v u) (he : exec i s = .next u)
    (hd : u.dev = dv) : BecomesWith i s c v dv := ⟨u, he, h.tile, h.others, hd, h.agenda, h.bundle⟩

/-- An answer finds its request. -/
theorem State.answerGuard_finds {u : State} {c : Coord} {v : Tile} {q : GuardReq} (hv : u.tileAt c = some v) (hq : v.guard? g.seq = some q)
    (cz : Option Cause) (y : Option Xlat) : u.answerGuard c g.seq cz y = u.setTile (v.setGuard { q with stage := .answered cz y }) := by
  rw [State.answerGuard, hv]
  simp only [hq]

theorem State.grantWaiters_none {n : Nat} {x : Xlat} {u : State} (h : u.dev.waits = []) : State.grantWaiters x n u = u := by
  cases n with
  | zero => rfl
  | succ n => rw [State.grantWaiters, h]; rfl

/-! A request for a guard at its home (R116). -/

/-- What an ACQ waits as in its guard's FIFO. -/
def Tile.waitsAs (t : Tile) (g : GuardReq) (x : Xlat) (now o : Nat) : GuardWait :=
  ⟨x.pa / 64 * 64, t.coord, g.seq, g.shared, t.ctx, t.ctl.nodeid.toNat, if bitsOf o 176 16 = 0 then none else some (now + bitsOf o 176 16)⟩

theorem acq_queues (h : s.HasGuard id t g) (hst : g.stage = .sent x) (ho : s.dev.Opens t.ctx x m) (hr : s.dev.readGuard t.ctx x = .ok o)
    (hwait : s.dev.waits = []) (hrel : g.rel = false) (hbad : guardBad o = false) :
    s.acqAtHome id = State.grantWaiters x 1 ((s.setTile (t.setGuard { g with stage := .queued x })).withDev fun dv =>
      { dv with waits := [t.waitsAs g x s.dev.now o] }) := by
  have hmet : s.withDev (fun dv => dv.metGuard t.ctx x) = s := by rw [State.withDev, ho.metGuard]
  rw [State.acqAtHome, h.withGuard]
  have hgo : (g.rel || s.dev.awaits x) = false := by rw [hrel, ho.awaits, Bool.or_self]
  simp only [hst, hgo, Bool.false_eq_true, if_false, hr, hmet, hbad]
  have hdev : ∀ v : Tile, (s.setTile v).withDev (fun dv => { dv with waits := dv.waits ++ [t.waitsAs g x s.dev.now o] }) =
      (s.setTile v).withDev (fun dv => { dv with waits := [t.waitsAs g x s.dev.now o] }) := by
    intro v
    rw [State.withDev, State.withDev, State.setTile_dev, hwait]
    rfl
  exact congrArg (fun u : State => State.grantWaiters x u.dev.waits.length u) (hdev _)

/-- The head of a FIFO of one is granted where its mode is free, else it waits (R116). -/
theorem grantWaiters_head (h : s.HasGuard id t g) (ho : s.dev.Opens t.ctx x m) (hr : s.dev.readGuard t.ctx x = .ok o)
    (hbad : guardBad o = false) :
    State.grantWaiters x 1 ((s.setTile (t.setGuard { g with stage := .queued x })).withDev fun dv =>
      { dv with waits := [t.waitsAs g x s.dev.now o] }) =
    if guardFree o g.shared then
      (((s.setTile (t.setGuard { g with stage := .queued x })).withDev fun dv =>
        { dv with waits := [] }).withDev fun dv => dv.writeGuard t.ctx x (guardGrant o g.shared ⟨t.ctx, t.ctl.nodeid.toNat, t.coord⟩)).setTile
        (t.setGuard { g with stage := .answered none (some x) })
    else (s.setTile (t.setGuard { g with stage := .queued x })).withDev fun dv => { dv with waits := [t.waitsAs g x s.dev.now o] } := by
  obtain ⟨w, hw⟩ : ∃ w, w = t.waitsAs g x s.dev.now o := ⟨_, rfl⟩
  obtain ⟨u, hu⟩ : ∃ u, u = s.setTile (t.setGuard { g with stage := .queued x }) := ⟨_, rfl⟩
  rw [← hw, ← hu]
  have hdev : u.dev = s.dev := hu ▸ State.setTile_dev _ _
  have htile : u.tileAt (evCoord id) = some (t.setGuard { g with stage := .queued x }) :=
    hu ▸ (State.tileAt_setTile (v := t.setGuard { g with stage := .queued x }) h.tile h.isAt).1
  have hreq : (t.setGuard { g with stage := .queued x }).guard? g.seq = some { g with stage := .queued x } :=
    Tile.guard?_setGuard (h.seq ▸ h.request) rfl
  have hwho : w.who = evCoord id := hw ▸ h.coord
  have hseq : w.seq = g.seq := by rw [hw]; rfl
  have hctx : w.ctx = t.ctx := by rw [hw]; rfl
  have hsh : w.shared = g.shared := by rw [hw]; rfl
  have hline : w.line = x.pa / 64 * 64 := by rw [hw]; rfl
  have hwho' : w.asWho = ⟨t.ctx, t.ctl.nodeid.toNat, t.coord⟩ := by rw [hw]; rfl
  have hxl : (u.withDev fun dv => { dv with waits := [w] }).waiterXlat w = some x := by
    have htile' : (u.withDev fun dv => { dv with waits := [w] }).tileAt w.who = some (t.setGuard { g with stage := .queued x }) := hwho ▸ htile
    rw [State.waiterXlat, htile']
    simp only [Option.bind_some, hseq, hreq]
  have hopens : (u.withDev fun dv => { dv with waits := [w] }).dev.Opens t.ctx x m := (hdev ▸ ho).withWaits [w]
  have hmet : (u.withDev fun dv => { dv with waits := [w] }).withDev (fun dv => dv.metGuard t.ctx x) = u.withDev fun dv => { dv with waits := [w] } := by
    rw [State.withDev, hopens.metGuard]
  have hread : (u.withDev fun dv => { dv with waits := [w] }).dev.readGuard t.ctx x = .ok o :=
    (congrArg (fun dv : Device => dv.readGuard t.ctx x) hdev).trans hr
  have hfind : (u.withDev fun dv => { dv with waits := [w] }).dev.waits.find? (·.line == x.pa / 64 * 64) = some w := by
    simp [State.withDev, hline]
  rw [State.grantWaiters, hfind]
  simp only [hxl, Option.getD_some, hctx, hread, hmet, hbad, hsh, Bool.false_eq_true, if_false, hwho', hwho, hseq]
  split
  · have hunq : (u.withDev fun dv => { dv with waits := [w] }).unqueue w = u.withDev fun dv => { dv with waits := [] } := by
      simp [State.unqueue, State.withDev]
    rw [hunq]
    refine (State.answerGuard_finds (u := (u.withDev _).withDev _) htile hreq none (some x)).trans ?_
    exact congrArg _ (Tile.setGuard_setGuard t rfl)
  · rfl

theorem State.HasGuard.isAt_setGuard (h : s.HasGuard id t g) (g' : GuardReq) : (t.setGuard g').isAt (evCoord id) = true := h.isAt

theorem State.HasGuard.puts (h : s.HasGuard id t g) : s.Puts (evCoord id) t s := .start h.tile

theorem acq_granted (h : s.HasGuard id t g) (hst : g.stage = .sent x) (ho : s.dev.Opens t.ctx x m) (hr : s.dev.readGuard t.ctx x = .ok o)
    (hwait : s.dev.waits = []) (hrel : g.rel = false) (hbad : guardBad o = false) (hfree : guardFree o g.shared = true) :
    ∃ dv', BecomesWith (.acqAtHome id) s (evCoord id) (t.setGuard { g with stage := .answered none (some x) }) dv' ∧ dv'.waits = [] ∧
      dv'.readGuard t.ctx x = .ok (guardGrant o g.shared ⟨t.ctx, t.ctl.nodeid.toNat, evCoord id⟩ % 256 ^ 64) := by
  have hexec : exec (.acqAtHome id) s = .next _ := congrArg Host.Outcome.next
    ((acq_queues h hst ho hr hwait hrel hbad).trans (grantWaiters_head h ho hr hbad))
  rw [if_pos hfree] at hexec
  have hopens := ho.withWaits []
  obtain ⟨-, hread, hw, -⟩ := hopens.writeGuard (guardGrant o g.shared ⟨t.ctx, t.ctl.nodeid.toNat, t.coord⟩)
  rw [h.coord] at hread hw hexec
  refine ⟨_, State.Puts.becomes ((((h.puts.setTile (h.isAt_setGuard _)).withDev _).withDev _).setTile (h.isAt_setGuard _)) hexec ?_, hw, hread⟩
  rw [State.setTile_dev]
  show Device.writeGuard { (s.setTile _).dev with waits := [] } _ _ _ = _
  rw [State.setTile_dev]

theorem acq_waits (h : s.HasGuard id t g) (hst : g.stage = .sent x) (ho : s.dev.Opens t.ctx x m) (hr : s.dev.readGuard t.ctx x = .ok o)
    (hwait : s.dev.waits = []) (hrel : g.rel = false) (hbad : guardBad o = false) (hfree : guardFree o g.shared = false) :
    BecomesWith (.acqAtHome id) s (evCoord id) (t.setGuard { g with stage := .queued x }) { s.dev with
      waits := [t.waitsAs g x s.dev.now o] } := by
  have hexec : exec (.acqAtHome id) s = .next _ := congrArg Host.Outcome.next
    ((acq_queues h hst ho hr hwait hrel hbad).trans (grantWaiters_head h ho hr hbad))
  rw [if_neg (Bool.eq_false_iff.mp hfree)] at hexec
  refine State.Puts.becomes ((h.puts.setTile (h.isAt_setGuard _)).withDev _) hexec ?_
  rw [State.withDev, State.setTile_dev]

/-! A release at its home (R118). -/

theorem rel_evaluated {o' : Nat} (h : s.HasGuard id t g) (hst : g.stage = .sent x) (ho : s.dev.Opens t.ctx x m)
    (hr : s.dev.readGuard t.ctx x = .ok o) (hwait : s.dev.waits = []) (hrel : g.rel = true)
    (hout : guardRelease o g.shared ⟨t.ctx, t.ctl.nodeid.toNat, evCoord id⟩ = some o') :
    ∃ dv', BecomesWith (.relAtHome id) s (evCoord id) (t.setGuard { g with stage := .answered none none }) dv' ∧
      dv'.readGuard t.ctx x = .ok (o' % 256 ^ 64) := by
  obtain ⟨hopens, hread, hw, -⟩ := ho.writeGuard o'
  have hgo : (!g.rel || s.dev.awaits x) = false := by rw [hrel, ho.awaits]; rfl
  have hmet : s.withDev (fun dv => dv.metGuard t.ctx x) = s := by rw [State.withDev, ho.metGuard]
  have hdev : ((s.setTile (t.setGuard { g with stage := .answered none none })).withDev fun dv => dv.writeGuard t.ctx x o').dev =
      s.dev.writeGuard t.ctx x o' := congrArg (fun dv : Device => dv.writeGuard t.ctx x o') (State.setTile_dev s _)
  have hexec : exec (.relAtHome id) s = .next ((s.setTile (t.setGuard { g with stage := .answered none none })).withDev
      fun dv => dv.writeGuard t.ctx x o') := by
    show Host.Outcome.next (s.relAtHome id) = _
    rw [State.relAtHome, h.withGuard]
    simp only [hst, hgo, Bool.false_eq_true, if_false, hr, hmet, h.coord, hout]
    rw [State.grantWaiters_none (by rw [hdev, hw, hwait])]
  exact ⟨_, State.Puts.becomes ((h.puts.setTile (h.isAt_setGuard _)).withDev _) hexec hdev, hread⟩

/-! Deadlines and departures. -/

theorem acq_times_out {q : GuardWait} {d : Nat} (h : s.HasGuard id t g) (hst : g.stage = .queued x) (hwait : s.dev.waits = [q])
    (hwho : q.who = evCoord id) (hseq : q.seq = g.seq) (hd : q.deadline = some d) (hdue : d ≤ s.dev.now) :
    BecomesWith (.guardWaitTimeout id) s (evCoord id) (t.setGuard { g with stage := .answered (some .guardtmo) none })
      { s.dev with waits := [] } := by
  have hfind : s.dev.waits.find? (fun w => w.who == evCoord id && w.seq == g.seq) = some q := by
    rw [hwait]
    simp [hwho, hseq]
  have hunq : s.unqueue q = s.withDev fun dv => { dv with waits := [] } := by simp [State.unqueue, State.withDev, hwait]
  have htile : (s.withDev fun dv => { dv with waits := [] }).tileAt (evCoord id) = some t := h.tile
  have hreq : t.guard? g.seq = some g := h.seq ▸ h.request
  have hexec : exec (.guardWaitTimeout id) s = .next ((s.withDev fun dv => { dv with waits := [] }).setTile
      (t.setGuard { g with stage := .answered (some .guardtmo) none })) := by
    show Host.Outcome.next (s.guardTimeout id) = _
    rw [State.guardTimeout, h.withGuard]
    simp only [hst, hfind, hd, hdue, decide_true, if_true, hunq, h.coord]
    rw [State.answerGuard_finds htile hreq, State.grantWaiters_none (by rw [State.setTile_dev]; rfl)]
  exact State.Puts.becomes ((h.puts.withDev _).setTile (h.isAt_setGuard _)) hexec (State.setTile_dev _ _)

theorem rel_departs (h : s.HasGuard id t g) (hrel : g.rel = true) (hst : g.stage = .inTile) (hpa : g.pa = some x) (hacc : t.accs = [])
    (hq : t.pad.queue = []) (hcopy : ∀ k, k < 8 → (t.copyCh k).jobs = []) (hroom : s.atPort (stackOf x.pa) < 8192) :
    BecomesWith (.relDepart id) s (evCoord id) (t.setGuard { g with stage := .sent x }) s.dev := by
  have hup : ∀ i ∈ upTo 8, i < 8 := fun i hi => List.mem_range.mp hi
  have hquiet : t.guardQuiet s.dev g.seq g.va = true := by
    rw [Tile.guardQuiet, hacc, hq, List.all_nil, List.all_nil, Bool.true_and, Bool.true_and, List.all_eq_true]
    intro i hi
    rw [hcopy i (hup i hi)]
    rfl
  have hbusy : t.plainBusy g.seq g.va = false := by
    rw [Tile.plainBusy, hacc, hq, List.any_nil, List.any_nil, Bool.false_or, Bool.false_or, List.any_eq_false]
    intro i hi
    rw [hcopy i (hup i hi)]
    exact Bool.false_ne_true
  have hfull : s.portFull (stackOf x.pa) = false := decide_eq_false (Nat.not_le.mpr hroom)
  refine h.becomes ?_
  show Host.Outcome.next (s.relDepart id) = _
  rw [State.relDepart, h.withGuard]
  have hgo : (!g.rel || g.stage != .inTile || !t.guardQuiet s.dev g.seq g.va || t.plainBusy g.seq g.va) = false := by
    rw [hrel, hst, hquiet, hbusy]
    rfl
  simp only [hgo, hpa, hfull, Tile.pairGate_unpaired h.unpaired, Tile.isShadow_unpaired h.unpaired, Bool.not_true, Bool.false_eq_true, if_false]

/-! The answer at the tile. -/

theorem Tile.setTag_guards (t : Tile) (n : Nat) (st : TagSt) : (t.setTag n st).guards = t.guards := by
  unfold Tile.setTag
  split <;> rfl

theorem Tile.setTag_holds (t : Tile) (n : Nat) (st : TagSt) : (t.setTag n st).holds = t.holds := by
  unfold Tile.setTag
  split <;> rfl


theorem guard_response {v : Tile} {cz : Option Cause} {y : Option Xlat} (h : s.HasGuard id t g) (hst : g.stage = .answered cz y)
    (hv : t.guardAnswered g cz y = v) (hat : v.isAt (evCoord id) = true) (hr : v.recs = []) :
    BecomesWith (.guardResponse id) s (evCoord id) v s.dev := by
  have hfwd : s.forwardGuard id = s := by
    rw [State.forwardGuard, h.tile]
    simp only [h.unpaired]
  have hf : t.guardResponse (evSeq id) = v := by
    rw [Tile.guardResponse, h.request]
    simp only [hst]
    exact hv
  have he : exec (.guardResponse id) s = .next (s.onTile (evCoord id) fun t => t.guardResponse (evSeq id)) := by
    show Host.Outcome.next ((s.forwardGuard id).onTile _ _) = _
    rw [hfwd]
  have hbec := Becomes.onTile _ h.tile he (by rw [hf]; exact hat) (by rw [hf]; exact hr)
  rw [hf] at hbec
  exact hbec

/-- The tile whose one request is over, with its hold table as given. -/
def Tile.guardOver (t : Tile) (holds : List Hold) : Tile := ({ t with guards := [], holds := holds } : Tile).freeCopies

theorem Tile.guardOver_files (l : List Hold) : (t.guardOver l).files = t.files := rfl
theorem Tile.guardOver_pad (l : List Hold) : (t.guardOver l).pad = t.pad := rfl
theorem Tile.guardOver_guards (l : List Hold) : (t.guardOver l).guards = [] := rfl
theorem Tile.guardOver_holds (l : List Hold) : (t.guardOver l).holds = l := rfl

theorem Tile.acq_over (hg : t.guards = [g]) (hrel : g.rel = false) (hp : t.pair = none) (cz : Option Cause) (y : Option Xlat) :
    (((if g.rel then t else t.acqEnded g cz y).overGuard g.seq).freeCopies) = t.guardOver
      (if cz.isSome then t.holds.filter (·.va != g.va) else t.holds.map fun (h : Hold) => if h.va = g.va then { h with pa := y } else h) := by
  have hrels : t.releases g g = false := by rw [Tile.releases, hrel]; rfl
  have hgone : t.holdGone g = false := by rw [Tile.holdGone, hg]; simp [hrels]
  rw [Tile.guardOver, hrel, if_neg Bool.false_ne_true, Tile.acqEnded, hgone, Tile.overGuard, Tile.pairOver, hp, hg]
  simp [hrels]

theorem acq_answered (h : s.HasGuard id t g) (hst : g.stage = .answered none (some x)) (hrel : g.rel = false) (hg : t.guards = [g]) :
    ∃ v, BecomesWith (.guardResponse id) s (evCoord id) v s.dev ∧ v.guards = [] ∧ (g.tag ≠ 0#3 → v.tagSt g.tag.toNat = .free) ∧
      v.pad.buf = [] ∧ v.holds = t.holds.map (fun h => if h.va = g.va then { h with pa := some x } else h) ∧
      v.files = t.files ∧ v.pad.mem = t.pad.mem := by
  obtain ⟨w, hw⟩ : ∃ w, w = (t.guardOver (t.holds.map fun (h : Hold) => if h.va = g.va then { h with pa := some x } else h)).setTag
      g.tag.toNat .free := ⟨_, rfl⟩
  have hv : t.guardAnswered g none (some x) = w.emptyBuffer := by
    rw [Tile.guardAnswered, Tile.acq_over hg hrel h.unpaired, hw, hrel]
    rfl
  have hat : w.isAt (evCoord id) = true := hw ▸ (Tile.setTag_isAt ..).trans h.isAt
  have hrecs : w.recs = [] := hw ▸ (Tile.setTag_recs ..).trans h.noReports
  have hguards : w.guards = [] := hw ▸ Tile.setTag_guards ..
  have hholds : w.holds = t.holds.map fun (h : Hold) => if h.va = g.va then { h with pa := some x } else h := hw ▸ Tile.setTag_holds ..
  have htag : g.tag ≠ 0#3 → w.tagSt g.tag.toNat = .free := hw ▸ Tile.tagSt_setTag_same _ _
  have hfiles : w.files = t.files := hw ▸ Tile.setTag_files ..
  have hmem : w.pad.mem = t.pad.mem := hw ▸ congrArg Pad.mem (Tile.setTag_pad ..)
  have hbuf : w.emptyBuffer.pad.buf = [] := by
    show w.pad.buf.filter (fun b => !true) = []
    simp
  exact ⟨_, guard_response h hst hv hat hrecs, hguards, htag, hbuf, hholds, hfiles, hmem⟩

theorem acq_fails {cz : Cause} (h : s.HasGuard id t g) (hst : g.stage = .answered (some cz) none) (hrel : g.rel = false)
    (hg : t.guards = [g]) (hn : g.noticed = false) (htm : t.sch.tm = false) (hlen : t.sch.pend.length < 32) :
    ∃ v, BecomesWith (.guardResponse id) s (evCoord id) v s.dev ∧ v.guards = [] ∧ (g.tag ≠ 0#3 → v.tagSt g.tag.toNat = .faulted) ∧
      v.holds = t.holds.filter (·.va != g.va) ∧ v.Pends cz (BitVec.ofNat 64 g.va) 0#64 ∧ v.files = t.files ∧ v.pad = t.pad := by
  obtain ⟨w, hw⟩ : ∃ w, w = (t.guardOver (t.holds.filter (·.va != g.va))).setTag g.tag.toNat .faulted := ⟨_, rfl⟩
  have hv : t.guardAnswered g (some cz) none = w.raise cz (some g.seq) 1 (BitVec.ofNat 64 g.va) := by
    rw [Tile.guardAnswered, Tile.acq_over hg hrel h.unpaired, hw, hn]
    rfl
  have hwtm : w.sch.tm = false := hw ▸ (Tile.setTag_tm ..).trans htm
  have hwlen : w.sch.pend.length < 32 := hw ▸ (congrArg List.length (Tile.setTag_pend ..)).trans_lt hlen
  have htold := Tile.Told.raise (.inl hwtm) hwlen cz 1 (BitVec.ofNat 64 g.va) 0#64 (seq := some g.seq)
  have hat : w.isAt (evCoord id) = true := hw ▸ (Tile.setTag_isAt ..).trans h.isAt
  have hrecs : w.recs = [] := hw ▸ (Tile.setTag_recs ..).trans h.noReports
  have hguards : w.guards = [] := hw ▸ Tile.setTag_guards ..
  have hholds : w.holds = t.holds.filter (·.va != g.va) := hw ▸ Tile.setTag_holds ..
  have htag : g.tag ≠ 0#3 → w.tagSt g.tag.toNat = .faulted := hw ▸ Tile.tagSt_setTag_same _ _
  have hfiles : w.files = t.files := hw ▸ Tile.setTag_files ..
  have hpad : w.pad = t.pad := hw ▸ Tile.setTag_pad ..
  exact ⟨_, guard_response h hst hv ((htold.isAt _).trans hat) (htold.recs.trans hrecs), htold.guards.trans hguards,
    fun e => (htold.tagSt _).trans (htag e), htold.holds.trans hholds, htold.pends, htold.files.trans hfiles, htold.pad.trans hpad⟩

/-! The Hearth ends the hold of a failed node (R120). -/

/-- What the reading of a guard line rests on. -/
structure Device.ReadsAlike (dv du : Device) : Prop where
  kiln : du.kiln = dv.kiln
  hbm : du.hbm = dv.hbm
  seals : du.seals = dv.seals
  bad : du.bad = dv.bad
  poison : du.poison = dv.poison
  ready : du.ready = dv.ready

theorem Device.ReadsAlike.readGuard {dv du : Device} (h : dv.ReadsAlike du) (ctx : Nat) : du.readGuard ctx x = dv.readGuard ctx x := by
  have hready : ∀ n, du.readyOf n = dv.readyOf n := fun n => by rw [Device.readyOf, Device.readyOf, h.ready]
  have hkey : du.keyOf ctx x = dv.keyOf ctx x := by rw [Device.keyOf, Device.keyOf, Device.keyFor, Device.keyFor, h.kiln]
  have hline : ∀ key, du.readLine (x.pa / 64 * 64) key = dv.readLine (x.pa / 64 * 64) key := by
    intro key
    simp only [Device.readLine, Device.portGone, Device.sealOf, hready, h.hbm, h.seals, h.bad, h.poison]
    rfl
  rw [Device.readGuard, Device.readGuard, hkey]
  split
  · rfl
  · simp only [hline]

theorem Device.ReadsAlike.trans {dv du dw : Device} (h : dv.ReadsAlike du) (h' : du.ReadsAlike dw) : dv.ReadsAlike dw :=
  ⟨h'.kiln.trans h.kiln, h'.hbm.trans h.hbm, h'.seals.trans h.seals, h'.bad.trans h.bad, h'.poison.trans h.poison,
    h'.ready.trans h.ready⟩

theorem Device.ReadsAlike.leave (dv : Device) (t : Tile) : dv.ReadsAlike (dv.leave t) := by
  unfold Device.leave Device.withRegion
  split <;> exact ⟨rfl, rfl, rfl, rfl, rfl, rfl⟩

theorem Device.Opens.waited {dv : Device} {ctx : Nat} (h : dv.Opens ctx x m) : dv.waited x = dv := by
  have hready : (dv.readyOf (64 + stackOf x.pa)).ready = true := h.serves
  have hup : dv.comesUp (64 + stackOf x.pa) = false := by simp [Device.comesUp, hready]
  rw [Device.waited, if_pos h.hbm, h.single]
  simp only [List.map_nil, List.foldl_cons, List.foldl_nil]
  rw [Device.portBringUp, if_pos (by rw [hup]; simp)]

theorem hearth_ends {n : Node} {hd : Hold} (h : s.HasGuard id t g) (hnodes : s.dev.nodes = [n]) (hst : n.st = .failed) (him : n.image = [])
    (hcore : s.core = t) (hoth : s.others = []) (hcov : n.covers (evCoord id) = true) (hhalt : t.sch.status = .halted) (hacc : t.accs = [])
    (hg : t.guards = [g]) (hrel : g.rel = false) (hsends : t.sends = []) (hout : t.out = []) (hcopy : ∀ k, k < 8 → (t.copyCh k).jobs = [])
    (hholds : t.holds = [hd]) (hsh : hd.shared = false) (hpa : hd.pa = some x) (ho : s.dev.Opens t.ctx x m) (hwait : s.dev.waits = [])
    (hr : s.dev.readGuard t.ctx x = .ok o) (h1 : bitsOf o 0 2 = 1)
    (hw : guardOwned o ⟨t.ctx, t.ctl.nodeid.toNat, evCoord id⟩ = true) :
    ∃ u o', exec (.hearthGuardRelease n.id) s = .next u ∧ u.tileAt (evCoord id) = none ∧ u.dev.readGuard t.ctx x = .ok o' ∧
      bitsOf o' 0 2 = 0 ∧ bitOf o' 2 = true ∧ bitsOf o' 148 28 = 0 ∧ bitsOf o' 192 32 = 0 := by
  obtain ⟨o1, hrelease, hmode, ⟨hun1, hun2⟩, -⟩ := release_alone h1 hw
  obtain ⟨hopens, hread, hwaits, hnodes'⟩ := ho.writeGuard (putBits o1 2 1 1)
  have hend : State.endHold t s hd = s.withDev fun dv => dv.writeGuard t.ctx x (putBits o1 2 1 1) := by
    have hmet : s.withDev (fun dv => dv.metGuard t.ctx x) = s := by rw [State.withDev, ho.metGuard]
    have hwd : s.withDev (fun dv => dv.waited x) = s := by rw [State.withDev, ho.waited]
    rw [State.endHold, hpa]
    simp only [hwd, hmet, hr, hsh, h.coord, hrelease]
    exact State.grantWaiters_none (hwaits.trans hwait)
  have hup : ∀ i ∈ upTo 8, i < 8 := fun i hi => List.mem_range.mp hi
  have hleft : s.leftTiles n = [t] := by
    have hnone : s.dev.nodeAt (evCoord id) = none := by simp [Device.nodeAt, hnodes, hst]
    simp [State.leftTiles, hcore, hoth, h.coord, hcov, hhalt, hnone]
  have hquiet : t.quiet = true := by
    have hnext : ((upTo 8).all fun k => (t.copyNext k true).isNone) = true := by
      rw [List.all_eq_true]
      intro k hk
      rw [Tile.copyNext, if_pos rfl, hcopy k (hup k hk)]
      rfl
    rw [Tile.quiet, hacc, hsends, hnext, hg, hout]
    simp [hrel]
  have hfind : s.dev.node? n.id = some n := by simp [Device.node?, hnodes]
  obtain ⟨dw, hdw⟩ : ∃ dw, dw = (((s.dev.writeGuard t.ctx x (putBits o1 2 1 1)).forget (evCoord id)).withNode n.id fun n => { n with image := [] }) :=
    ⟨_, rfl⟩
  have hexec : exec (.hearthGuardRelease n.id) s = .next ((s.withDev fun _ => dw).removeTiles fun u => u.coord == t.coord && u.sch.status == .halted) := by
    show Host.Outcome.next (s.hearthRelease n.id) = _
    have hshadow : ([t].filter fun t => !t.isShadow) = [t] := by simp [Tile.isShadow_unpaired h.unpaired]
    rw [State.hearthRelease, hfind]
    simp only [hleft, hst, him, List.any_cons, List.any_nil, hquiet, List.append_nil, hshadow, List.foldl_cons, List.foldl_nil, hholds, hend,
      h.coord, Bool.or_false]
    rw [if_neg (by decide), hdw]
    refine congrArg (fun f => Host.Outcome.next (State.removeTiles _ f)) (funext fun u => ?_)
    rw [BEq.comm]
  have halike : (s.dev.writeGuard t.ctx x (putBits o1 2 1 1)).ReadsAlike dw := by
    rw [hdw]
    exact ⟨rfl, rfl, rfl, rfl, rfl, rfl⟩
  have hremove : (s.withDev fun _ => dw).removeTiles (fun u => u.coord == t.coord && u.sch.status == .halted) =
      { s.withDev fun _ => dw.leave t with core := Tile.none_, others := [], bundle := none } := by
    simp [State.removeTiles, State.withDev, hcore, hoth, hhalt]
  rw [hremove] at hexec
  refine ⟨_, _, hexec, by simp [State.tileAt, Tile.isAt, Tile.none_], ((halike.trans (.leave dw t)).readGuard t.ctx).trans hread, ?_, ?_, ?_, ?_⟩
  · rw [bitsOf_line _ (by omega), bitsOf_putBits_apart (by omega), hmode]
  · rw [bitOf_eq, bitsOf_line _ (by omega), bitsOf_putBits_same]
    rfl
  · rw [bitsOf_line _ (by omega), bitsOf_putBits_apart (by omega), hun1]
  · rw [bitsOf_line _ (by omega), bitsOf_putBits_apart (by omega), hun2]

end

/-- Settles O52: the home of a guard, its deadline, the release, the answer at the tile, and the Hearth. -/
theorem guardStepsHold : Obligations.GuardSteps := by
  intro s id t g x o h
  refine ⟨fun m hst ho hr hwait => ⟨fun hrel hbad => ⟨fun h0 => ?_, fun h2 hsh => ?_, fun h0 hsh => ?_⟩,
      fun hrel => ⟨fun hsh h1 hw => ?_, fun hsh h2 hn => ?_⟩⟩,
    fun q d hst hwait hwho hseq hd hdue => acq_times_out h hst hwait hwho hseq hd hdue,
    fun hrel hst hpa hacc hq hcopy hroom => rel_departs h hrel hst hpa hacc hq hcopy hroom,
    fun hst hrel hg => acq_answered h hst hrel hg,
    fun cz hst hrel hg hn htm hlen => acq_fails h hst hrel hg hn htm hlen,
    fun n m hd hnodes hst him hcore hoth hcov hhalt hacc hg hrel hsends hout hcopy hholds hsh hpa ho hwait hr h1 hw =>
      hearth_ends h hnodes hst him hcore hoth hcov hhalt hacc hg hrel hsends hout hcopy hholds hsh hpa ho hwait hr h1 hw⟩
  · obtain ⟨hcnt, hun⟩ := guardBad_free hbad h0
    have hfree : guardFree o g.shared = true := by rw [guardFree, h0]; split <;> rfl
    obtain ⟨dv', hbec, hw, hread⟩ := acq_granted h hst ho hr hwait hrel hbad hfree
    refine ⟨dv', _, hbec, hw, hread, fun hsh => ?_, fun hsh => ?_⟩
    · obtain ⟨hm, hc, hu⟩ := grant_shared o ⟨t.ctx, t.ctl.nodeid.toNat, evCoord id⟩
      rw [hsh, bitsOf_line _ (by omega), bitsOf_line _ (by omega), hm, hc, hcnt]
      exact ⟨rfl, rfl, (hu hun).line⟩
    · obtain ⟨hm, hc, ho'⟩ := grant_alone o ⟨t.ctx, t.ctl.nodeid.toNat, evCoord id⟩
      rw [hsh, bitsOf_line _ (by omega), bitsOf_line _ (by omega), hm, hc, hcnt]
      refine ⟨rfl, rfl, ?_⟩
      rw [guardOwned_iff] at ho' ⊢
      simpa only [bitsOf_line _ (show 192 + 32 ≤ 512 by omega), bitsOf_line _ (show 168 + 8 ≤ 512 by omega),
        bitsOf_line _ (show 158 + 10 ≤ 512 by omega), bitsOf_line _ (show 148 + 10 ≤ 512 by omega)] using ho'
  · have hfree : guardFree o g.shared = true := by rw [guardFree, h2, hsh]; rfl
    obtain ⟨dv', hbec, hw, hread⟩ := acq_granted h hst ho hr hwait hrel hbad hfree
    obtain ⟨hm, hc, hu⟩ := grant_shared o ⟨t.ctx, t.ctl.nodeid.toNat, evCoord id⟩
    refine ⟨dv', _, hbec, hread, ?_⟩
    rw [hsh, bitsOf_line _ (by omega), bitsOf_line _ (by omega), hm, hc]
    exact ⟨rfl, rfl⟩
  · have hfree : guardFree o g.shared = false := by
      rw [guardFree]
      split
      · next hs => simp [hsh hs]
      · simpa using h0
    have hbec := acq_waits h hst ho hr hwait hrel hbad hfree
    rw [Tile.waitsAs, h.coord] at hbec
    exact hbec
  · obtain ⟨o', hrelease, hm, hu, hc⟩ := release_alone h1 hw
    obtain ⟨dv', hbec, hread⟩ := rel_evaluated h hst ho hr hwait hrel (hsh ▸ hrelease)
    refine ⟨dv', _, hbec, hread, ?_⟩
    rw [bitsOf_line _ (by omega), bitsOf_line _ (by omega)]
    exact ⟨hm, hu.line, hc⟩
  · obtain ⟨o', hrelease, hm, hc⟩ := release_shared (w := ⟨t.ctx, t.ctl.nodeid.toNat, evCoord id⟩) h2 hn
    obtain ⟨dv', hbec, hread⟩ := rel_evaluated h hst ho hr hwait hrel (hsh ▸ hrelease)
    refine ⟨dv', _, hbec, hread, ?_⟩
    rw [bitsOf_line _ (by omega), bitsOf_line _ (by omega)]
    exact ⟨hm, hc⟩

end Sys2Proof.Machine
end

section
/-! SUPPORT. The management port (R393), and power, heat and port failure (R120, R402 to R404). -/

namespace Sys2Proof.Machine

/-! Private writes and reads. -/

/-- Eight bytes from index 8 are the whole item there. -/
theorem itemPieces_item (b0 b1 b2 b3 b4 b5 b6 b7 : Byte) : itemPieces 8 [b0, b1, b2, b3, b4, b5, b6, b7] =
    [(8, [(0, b0), (1, b1), (2, b2), (3, b3), (4, b4), (5, b5), (6, b6), (7, b7)])] := by
  simp [itemPieces, upTo, List.range_succ_eq_map, List.dedup, List.pwFilter, List.filter_cons]

theorem mergeItem_whole (old : Nat) (b0 b1 b2 b3 b4 b5 b6 b7 : Byte) :
    mergeItem old [(0, b0), (1, b1), (2, b2), (3, b3), (4, b4), (5, b5), (6, b6), (7, b7)] = bytesVal [b0, b1, b2, b3, b4, b5, b6, b7] := by
  rfl

theorem private_write_item (s : State) (v : DWord) :
    s.mgmtData 8 (valBytes 8 v.toNat) = s.mgmtWrite 8 v := by
  have h := bytesVal_valBytes 8 v.toNat
  have hv : v.toNat < 2 ^ 64 := v.isLt
  rw [Nat.mod_eq_of_lt (by norm_num; omega)] at h
  simp only [valBytes] at h ⊢
  rw [State.mgmtData, itemPieces_item, List.foldl_cons, List.foldl_nil, mergeItem_whole, h]
  exact congrArg (s.mgmtWrite 8) (BitVec.eq_of_toNat_eq (by rw [BitVec.toNat_ofNat, Nat.mod_eq_of_lt hv]))

theorem mgmt_writes_cap {s : State} (hr : s.dev.power.inRange = true) (v : DWord) (hw : s.dev.mgmtw = true) :
    ∃ u, exec (.i3cPrivateWrite (0x08#8 :: 0x00#8 :: valBytes 8 v.toNat)) s = .next u ∧
      u.dev.bar0.modcap = Nat.min v.toNat 8000 ∧ u.dev.mgmt.answer = some [] ∧ u.core = s.core := by
  have htake : (valBytes 8 v.toNat).take 256 = valBytes 8 v.toNat := List.take_of_length_le (by simp)
  obtain ⟨s', hs'⟩ : ∃ s', s' = s.withDev fun dv => dv.withMgmt fun m => { m with index := 8 } := ⟨_, rfl⟩
  have hw' : s'.dev.mgmtw = true := hs' ▸ hw
  have hexec : exec (.i3cPrivateWrite (0x08#8 :: 0x00#8 :: valBytes 8 v.toNat)) s =
      .next ((s'.withDev fun dv => dv.setModcap v.toNat).mgmtAnswer (some [])) := by
    show execI3cPrivateWrite _ s = _
    rw [execI3cPrivateWrite, State.onMgmt, if_pos hr, State.privateWrite, htake]
    show Host.Outcome.next ((State.mgmtData (s.withDev fun dv => dv.withMgmt fun m => { m with index := 8 }) 8 _).mgmtAnswer _) = _
    rw [← hs', private_write_item, State.mgmtWrite]
    simp only [hw', if_true]
    rfl
  exact ⟨_, hexec, rfl, rfl, hs' ▸ rfl⟩

theorem mgmt_reads {s : State} (hr : s.dev.power.inRange = true) {n : Nat} (hn : n ≤ 64) :
    ∃ u bs, exec (.i3cPrivateRead n) s = .next u ∧ u.dev.mgmt.answer = some bs ∧ bs.length = n ∧
      u.dev.mgmt.index = (s.dev.mgmt.index + n) % 65536 ∧
      (∀ k, k < n → bs[k]? = some (s.dev.mgmtByte ((s.dev.mgmt.index + k) % 65536))) ∧
      (n = 8 → s.dev.mgmt.index = 8 → bytesVal bs = s.dev.bar0.modcap % 2 ^ 64) ∧ u.core = s.core := by
  have hmin : Nat.min n 64 = n := Nat.min_eq_left hn
  have hexec : exec (.i3cPrivateRead n) s = .next (s.privateRead n) := by
    show execI3cPrivateRead n s = _
    rw [execI3cPrivateRead, State.onMgmt, if_pos hr]
  refine ⟨_, (upTo n).map fun k => s.dev.mgmtByte ((s.dev.mgmt.index + k) % 65536), hexec, ?_, by simp [upTo], ?_, fun k hk => ?_,
    fun hn8 hi => ?_, rfl⟩
  · rw [State.privateRead, hmin]
    rfl
  · rw [State.privateRead, hmin]
    rfl
  · rw [List.getElem?_map, upTo, List.getElem?_range hk, Option.map_some]
  · subst hn8
    rw [hi]
    have hval := bytesVal_valBytes 8 s.dev.bar0.modcap
    rw [show (256 : Nat) ^ 8 = 2 ^ 64 by norm_num] at hval
    rw [← hval]
    refine congrArg bytesVal (List.ext_getElem? fun k => ?_)
    by_cases hk : k < 8
    · rw [valBytes_getElem? _ hk, List.getElem?_map, upTo, List.getElem?_range hk, Option.map_some]
      have hmod : (8 + k) % 65536 = 8 + k := Nat.mod_eq_of_lt (by omega)
      have hdiv : (8 + k) / 8 * 8 = 8 := by omega
      have hrem : (8 + k) % 8 = k := by omega
      have hpow : (2 : Nat) ^ (8 * k) = 256 ^ k := pow_mul 2 8 k
      rw [hmod, Device.mgmtByte, if_neg (by omega), if_neg (by omega), if_neg (by omega), hdiv, hrem, hpow, Device.mgmtItem,
        if_neg (by decide), if_pos rfl]
    · rw [List.getElem?_eq_none (by simpa [upTo] using hk), List.getElem?_eq_none (by simpa using hk)]

theorem i3cBytes_length (code n : Nat) : (i3cBytes code n).length = n := by simp [i3cBytes, upTo]

/-- A command of the management port while its input is in range. -/
theorem exec_onMgmt {s : State} (hr : s.dev.power.inRange = true) {i : Instr} {f : State → State} (hi : exec i s = s.onMgmt f) :
    exec i s = .next (f s) := by
  rw [hi, State.onMgmt, if_pos hr]

/-- A command that only answers. -/
theorem exec_mgmtAnswer {s : State} (hr : s.dev.power.inRange = true) {i : Instr} {a : Option (List Byte)}
    (hi : exec i s = s.onMgmt fun s => s.mgmtAnswer a) : exec i s = .next (s.mgmtAnswer a) := exec_onMgmt hr hi

/-- A command that answers with no byte and changes the management port. -/
theorem exec_mgmtSets {s : State} (hr : s.dev.power.inRange = true) {i : Instr} (f : Mgmt → Mgmt)
    (hi : exec i s = s.onMgmt fun s => (s.mgmtAnswer (some [])).withDev fun dv => dv.withMgmt f) :
    exec i s = .next ((s.mgmtAnswer (some [])).withDev fun dv => dv.withMgmt f) := exec_onMgmt hr hi

theorem exec_entdaa {s : State} (hr : s.dev.power.inRange = true) (a : BitVec 7) :
    exec (.entdaa a) s = .next (if s.dev.mgmt.dyn.isSome then s.mgmtAnswer none
      else (s.mgmtAnswer (some (i3cBytes 0x07 8))).withDev fun dv => dv.withMgmt fun m => { m with dyn := some a.toNat }) := by
  show execEntdaa a s = _
  rw [execEntdaa, State.onMgmt, if_pos hr]

theorem exec_setdasa {s : State} (hr : s.dev.power.inRange = true) (a : BitVec 7) :
    exec (.setdasa a) s = .next (if s.dev.mgmt.dyn.isSome then s.mgmtAnswer none
      else (s.mgmtAnswer (some [])).withDev fun dv => dv.withMgmt fun m => { m with dyn := some a.toNat }) := by
  show execSetdasa a s = _
  rw [execSetdasa, State.onMgmt, if_pos hr]

theorem exec_unsupportedCcc {s : State} (hr : s.dev.power.inRange = true) (code : Byte) :
    exec (.unsupportedCcc code) s = .next (if supportedCcc.elem code.toNat then s else s.mgmtAnswer none) := by
  show execUnsupportedCcc code s = _
  rw [execUnsupportedCcc, State.onMgmt, if_pos hr]

/-- Settles O59: each command by what its step does while the input is in range. -/
theorem managementSteps : Obligations.ManagementSteps := by
  intro s hr m answers
  refine ⟨fun lo hi => exec_onMgmt hr (f := fun s => s.privateWrite [lo, hi]) rfl, fun v hw => mgmt_writes_cap hr v hw,
    fun n hn => mgmt_reads hr hn, fun a => ⟨fun hd => ?_, fun hd => ?_⟩, exec_mgmtSets hr (fun m => { m with dyn := none }) rfl,
    fun k => ⟨exec_mgmtSets hr (fun m => { m with events := m.events || k.getLsbD 0 }) rfl,
      exec_mgmtSets hr (fun m => { m with events := m.events && !k.getLsbD 0 }) rfl⟩,
    ⟨_, _, _, i3cBytes_length 0x8D 6, i3cBytes_length 0x8E 1, i3cBytes_length 0x8F 1, exec_mgmtAnswer hr rfl,
      exec_mgmtAnswer hr rfl, exec_mgmtAnswer hr rfl⟩,
    ⟨_, s.dev.freeBytes 2,
      exec_onMgmt hr (f := fun s => (s.mgmtAnswer (some (s.dev.freeBytes 2))).withDev fun dv => { dv with free := dv.free + 2 }) rfl,
      rfl, by simp [Device.freeBytes, upTo], rfl⟩,
    exec_mgmtAnswer hr rfl,
    exec_mgmtAnswer hr rfl, fun code hc => ?_⟩
  · have hdyn : s.dev.mgmt.dyn.isSome = false := by rw [show s.dev.mgmt.dyn = none from hd]; rfl
    refine ⟨i3cBytes 0x07 8, i3cBytes_length _ _, (exec_entdaa hr a).trans ?_, (exec_setdasa hr a).trans ?_⟩ <;>
      rw [hdyn] <;> rfl
  · have hdyn : s.dev.mgmt.dyn.isSome = true := Option.isSome_iff_ne_none.mpr hd
    refine ⟨(exec_entdaa hr a).trans ?_, (exec_setdasa hr a).trans ?_⟩ <;> rw [hdyn] <;> rfl
  · refine (exec_unsupportedCcc hr code).trans ?_
    have helem : supportedCcc.elem code.toNat = false := Bool.eq_false_iff.mpr fun h => hc (List.elem_iff.mp h)
    rw [helem]
    rfl

/-! The grants of the Damper (R402). -/

/-- What is left of the cap, given out one unit at a time to the grants below their requests. -/
theorem damper_spread (l : List (Nat × Nat)) (hl : ∀ x ∈ l, x.1 ≤ x.2) (done : List Nat) (left : Nat) :
    ∃ h : List Nat, (l.foldl (fun (acc : List Nat × Nat) x =>
        if 0 < acc.2 && decide (x.1 < x.2) then (acc.1 ++ [x.1 + 1], acc.2 - 1) else (acc.1 ++ [x.1], acc.2)) (done, left)).1 = done ++ h ∧
      h.length = l.length ∧ (∀ x ∈ h.zip (l.map (·.2)), x.1 ≤ x.2) ∧ h.sum ≤ (l.map (·.1)).sum + left := by
  induction l generalizing done left with
  | nil => exact ⟨[], by simp, rfl, by simp, by simp⟩
  | cons x xs ih =>
    have hxs : ∀ y ∈ xs, y.1 ≤ y.2 := fun y hy => hl y (List.mem_cons_of_mem _ hy)
    have hx : x.1 ≤ x.2 := hl x List.mem_cons_self
    rw [List.foldl_cons]
    by_cases hmore : (decide (0 < left) && decide (x.1 < x.2)) = true
    · obtain ⟨h, hh, hlen, hle, hsum⟩ := ih hxs (done ++ [x.1 + 1]) (left - 1)
      simp only [Bool.and_eq_true, decide_eq_true_eq] at hmore
      refine ⟨(x.1 + 1) :: h, ?_, by simp [hlen], ?_, ?_⟩
      · simpa [hmore.1, hmore.2] using hh
      · simp only [List.map_cons, List.zip_cons_cons, List.forall_mem_cons]
        exact ⟨hmore.2, hle⟩
      · simp only [List.map_cons, List.sum_cons]
        omega
    · obtain ⟨h, hh, hlen, hle, hsum⟩ := ih hxs (done ++ [x.1]) left
      refine ⟨x.1 :: h, ?_, by simp [hlen], ?_, ?_⟩
      · rw [if_neg hmore, hh, List.append_assoc]
        rfl
      · simp only [List.map_cons, List.zip_cons_cons, List.forall_mem_cons]
        exact ⟨hx, hle⟩
      · simp only [List.map_cons, List.sum_cons]
        omega

theorem sum_shares (q : List Nat) (m n : Nat) : (q.map fun x => x * m / n).sum ≤ q.sum * m / n := by
  induction q with
  | nil => simp
  | cons x xs ih =>
    simp only [List.map_cons, List.sum_cons, Nat.add_mul]
    exact (Nat.add_le_add_left ih _).trans Nat.div_add_div_le_add_div

theorem eq_of_mem_zip_map {f : Nat → Nat} {q : List Nat} {x : Nat × Nat} (h : x ∈ (q.map f).zip q) : x.1 = f x.2 := by
  have hzip : (q.map f).zip q = q.map fun a => (f a, a) := by simpa using List.zip_map' (f := f) (g := id) (l := q)
  rw [hzip] at h
  obtain ⟨a, -, rfl⟩ := List.mem_map.mp h
  rfl

theorem damperGrants_bounds (m : Nat) (q : List Nat) :
    (damperGrants m q).length = q.length ∧ (∀ x ∈ (damperGrants m q).zip q, x.1 ≤ x.2) ∧ (damperGrants m q).sum ≤ m := by
  unfold damperGrants
  simp only [← List.sum_eq_foldl]
  split
  · next h =>
    refine ⟨rfl, fun x hx => ?_, h⟩
    exact (eq_of_mem_zip_map (f := id) (by rwa [List.map_id])).le
  · next h =>
    have hlen : (q.map fun x => x * m / q.sum).length = q.length := by simp
    have hshare : ∀ x ∈ (q.map fun x => x * m / q.sum).zip q, x.1 ≤ x.2 := by
      intro x hx
      rw [eq_of_mem_zip_map hx]
      exact Nat.div_le_of_le_mul (by rw [Nat.mul_comm]; exact Nat.mul_le_mul_right _ (by omega))
    obtain ⟨g, hg, hglen, hgle, hgsum⟩ := damper_spread _ hshare [] (m - (q.map fun x => x * m / q.sum).sum)
    rw [hg, List.nil_append]
    rw [List.map_snd_zip (by omega)] at hgle
    rw [List.map_fst_zip (by omega)] at hgsum
    have hsum : (q.map fun x => x * m / q.sum).sum ≤ m := by
      refine (sum_shares q m q.sum).trans ?_
      rw [Nat.mul_comm, Nat.mul_div_cancel _ (by omega)]
    exact ⟨by simp [hglen], hgle, by omega⟩

theorem Region.take_grant (x : Region) (r : Nat) (capped : Bool) (g : Nat) (low : Bool) : (x.take r capped g low).grant ≤ g := by
  have hcap : (if capped then Nat.min g 80 else g) ≤ g := by
    split
    · exact Nat.min_le_left _ _
    · exact le_rfl
  have hhalf : ∀ n, (if 95 ≤ x.junction then n / 2 else n) ≤ n := by
    intro n
    split
    · exact Nat.div_le_self _ _
    · exact le_rfl
  exact (hhalf _).trans hcap

theorem Device.voltageNow_frame (dv : Device) :
    dv.voltageNow.regions = dv.regions ∧ dv.voltageNow.bar0 = dv.bar0 ∧ dv.voltageNow.hbm = dv.hbm := by
  unfold Device.voltageNow
  split <;> exact ⟨rfl, rfl, rfl⟩

/-- The regions that a step of the Damper starts from, their requests, and the grants it gives. -/
def Device.damperRegions (dv : Device) : List Region :=
  ((upTo dv.regions.length).zip dv.regions).map fun (x : Nat × Region) => x.2.cooled (Config.freeBit (dv.free + x.1))

theorem Device.damperRegions_at {dv : Device} {r : Nat} {x : Region} (hx : dv.regions[r]? = some x) :
    ∃ b, dv.damperRegions[r]? = some (x.cooled b) := by
  have hr : r < dv.regions.length := (List.getElem?_eq_some_iff.mp hx).1
  have hzip : ((upTo dv.regions.length).zip dv.regions)[r]? = some (r, x) := by
    rw [List.getElem?_zip_eq_some, upTo, List.getElem?_range hr]
    exact ⟨rfl, hx⟩
  exact ⟨_, by rw [Device.damperRegions, List.getElem?_map, hzip, Option.map_some]⟩

theorem damper_step {s : State} (hon : s.dev.power.on = true) : ∃ u, exec .damperStep s = .next u ∧ u.core = s.core ∧ u.others = s.others ∧
    (∀ (r : Nat) (x y : Region), s.dev.regions[r]? = some x → u.dev.regions[r]? = some y → y.grant ≤ Nat.min (Nat.min x.req x.ceil) 160) ∧
    (u.dev.regions.map (·.grant)).sum ≤ s.dev.bar0.modcap ∧ u.dev.hbm = s.dev.hbm := by
  obtain ⟨hregs, hbar, hhbm⟩ := s.dev.voltageNow_frame
  have hexec : exec .damperStep s = .next (s.withDev Device.damperStep) := by
    show execDamperStep s = _
    rw [execDamperStep, if_pos hon]
  obtain ⟨dv, hdv⟩ : ∃ dv, dv = s.dev.voltageNow := ⟨_, rfl⟩
  obtain ⟨q, hq⟩ : ∃ q, q = dv.damperRegions.map fun (x : Region) => Nat.min (Nat.min x.req x.ceil) 160 := ⟨_, rfl⟩
  obtain ⟨hlen, hle, hsum⟩ := damperGrants_bounds dv.bar0.modcap q
  have hafter : s.dev.damperStep.regions = ((upTo dv.damperRegions.length).zip (dv.damperRegions.zip (damperGrants dv.bar0.modcap q))).map
      fun (x : Nat × Region × Nat) => x.2.1.take x.1 dv.power.capped x.2.2 (Config.freeBit (dv.free + 64 + x.1)) := by
    rw [hq, hdv]
    rfl
  have hqlen : q.length = dv.damperRegions.length := by simp [hq]
  refine ⟨_, hexec, rfl, rfl, fun r x y hx hy => ?_, ?_, hhbm⟩
  · obtain ⟨b, hb⟩ := Device.damperRegions_at (dv := dv) (r := r) (x := x) (by rw [hdv, hregs, hx])
    replace hy : s.dev.damperStep.regions[r]? = some y := hy
    rw [hafter, List.getElem?_map, Option.map_eq_some_iff] at hy
    obtain ⟨⟨i, z, g⟩, hz, rfl⟩ := hy
    rw [List.getElem?_zip_eq_some, List.getElem?_zip_eq_some] at hz
    obtain ⟨-, hz, hg⟩ := hz
    obtain rfl : x.cooled b = z := Option.some.inj (hb.symm.trans hz)
    have hqr : q[r]? = some (Nat.min (Nat.min x.req x.ceil) 160) := by
      rw [hq, List.getElem?_map, hb, Option.map_some, Region.cooled]
      split <;> rfl
    have hmem : (g, Nat.min (Nat.min x.req x.ceil) 160) ∈ (damperGrants dv.bar0.modcap q).zip q :=
      List.mem_of_getElem? (i := r) (List.getElem?_zip_eq_some.mpr ⟨hg, hqr⟩)
    exact (Region.take_grant _ _ _ _ _).trans (hle _ hmem)
  · show (s.dev.damperStep.regions.map (·.grant)).sum ≤ _
    rw [hafter, List.map_map]
    calc _ ≤ (((upTo dv.damperRegions.length).zip (dv.damperRegions.zip (damperGrants dv.bar0.modcap q))).map (·.2.2)).sum :=
          List.sum_le_sum fun x _ => Region.take_grant _ _ _ _ _
      _ = (damperGrants dv.bar0.modcap q).sum := by
          have hsnd : ∀ l : List (Nat × Region × Nat), l.map (·.2.2) = (l.map (·.2)).map (·.2) := fun l => by rw [List.map_map]; rfl
          rw [hsnd, List.map_snd_zip (by simp [upTo]), List.map_snd_zip (by omega)]
      _ ≤ s.dev.bar0.modcap := by rwa [hdv, hbar] at hsum ⊢

/-! Warnings, shutdowns and heat (R403, R404). -/

theorem voltage_warning {s : State} (hon : s.dev.power.on = true) : ∃ u, exec .voltageWarning s = .next u ∧ u.core = s.core ∧
    u.dev.power.capped = true ∧
    (48000 ≤ u.dev.power.mv ∧ u.dev.power.mv < 50000 ∨ 56000 < u.dev.power.mv ∧ u.dev.power.mv ≤ 58000) ∧
    u.dev.regions = s.dev.regions.map fun x => { x with grant := Nat.min x.grant 80 } := by
  have hexec : exec .voltageWarning s = .next (s.withDev Device.voltageWarning) := by
    show execVoltageWarning s = _
    rw [execVoltageWarning, if_pos hon]
  refine ⟨_, hexec, rfl, rfl, ?_, rfl⟩
  have hk : s.dev.freeBits 32 % 4000 < 4000 := Nat.mod_lt _ (by norm_num)
  generalize hk' : s.dev.freeBits 32 % 4000 = k at hk
  have hmv : (s.withDev Device.voltageWarning).dev.power.mv = if k < 2000 then 48000 + k else 56001 + (k - 2000) := hk' ▸ rfl
  rw [hmv]
  split <;> omega

theorem State.shutdown_tileAt (s : State) (mv : Nat) (c : Coord) : (s.shutdown mv).tileAt c = none := by
  have hat : Tile.none_.isAt c = false := by rw [Tile.isAt, Bool.and_comm]; rfl
  show (if Tile.none_.isAt c then some Tile.none_ else none) = none
  rw [hat]
  rfl

theorem power_removal {s : State} (hon : s.dev.power.on = true) : ∃ u, exec .powerRemoval s = .next u ∧ u.dev.power.on = false ∧
    u.dev.power.shutdown = true ∧ (u.dev.power.mv < 48000 ∨ 58000 < u.dev.power.mv) ∧ (∀ c, u.tileAt c = none) ∧ u.dev.hbm = [] ∧
    u.dev.kiln.keys = [] := by
  obtain ⟨k, hk⟩ : ∃ k, k = s.dev.freeBits 16 := ⟨_, rfl⟩
  have hexec : exec .powerRemoval s = .next ((s.withDev Device.draw).shutdown (if k < 48000 then k else k + 10001)) := by
    show execPowerRemoval s = _
    rw [execPowerRemoval, hk]
    exact congrArg _ (if_pos hon)
  refine ⟨_, hexec, rfl, rfl, ?_, State.shutdown_tileAt _ _, rfl, rfl⟩
  show (if k < 48000 then k else k + 10001) < 48000 ∨ 58000 < (if k < 48000 then k else k + 10001)
  split <;> omega

theorem thermal_limit {s : State} (hon : s.dev.power.on = true) {r : Nat} {x : Region} (hr : r < 64) (hx : s.dev.regions[r]? = some x)
    (ht : x.therm = false) : ∃ u, exec (.thermalLimit r) s = .next u ∧
      (u.dev.power.shutdown = true ∧ (∀ c, u.tileAt c = none) ∨ u.core = s.core ∧
        ∃ y, u.dev.regions[r]? = some y ∧ y.therm = true ∧ y.grant = x.grant / 2 ∧ (y.junction = 95 ∨ y.junction = 105 ∧ y.fstep = 0)) := by
  have hk : s.dev.freeBits 32 % 3 < 3 := Nat.mod_lt _ (by norm_num)
  obtain ⟨k, hk'⟩ : ∃ k, k = s.dev.freeBits 32 % 3 := ⟨_, rfl⟩
  have hexec : exec (.thermalLimit r) s = .next (if k = 2 then (s.withDev Device.draw).shutdown s.dev.power.mv
      else (s.withDev Device.draw).withDev fun dv => (dv.withRegion r fun x => x.heat (95 + 10 * k)).eventAll 0x02#8) := by
    show execThermalLimit r s = _
    rw [execThermalLimit, State.thermalLimit, hk']
    simp only [hon, hr, decide_true, Bool.not_true, Bool.or_false, Bool.false_eq_true, if_false]
    rfl
  refine ⟨_, hexec, ?_⟩
  split
  · exact .inl ⟨rfl, State.shutdown_tileAt _ _⟩
  · refine .inr ⟨rfl, x.heat (95 + 10 * k), Device.withRegion_at (dv := s.dev.draw) hx _, rfl, by rw [Region.heat, ht]; rfl, ?_⟩
    obtain rfl | rfl : k = 0 ∨ k = 1 := by omega
    · exact .inl rfl
    · exact .inr ⟨rfl, rfl⟩

/-! The failure of a Flue port (R120). -/

theorem Device.setReady_at {dv : Device} {n : Nat} (hn : n < dv.ready.length) (f : Ready → Ready) :
    (dv.setReady n f).readyOf n = f (dv.readyOf n) := by
  unfold Device.setReady
  split
  · next h => exact h.symm
  · show ((setAt dv.ready n (f (dv.readyOf n)))[n]?).getD Ready.zero = _
    rw [setAt, List.getElem?_set_self hn, Option.getD_some]

theorem Device.setReady_other (dv : Device) {n m : Nat} (h : n ≠ m) (f : Ready → Ready) :
    (dv.setReady n f).readyOf m = dv.readyOf m := by
  unfold Device.setReady
  split
  · rfl
  · show ((setAt dv.ready n (f (dv.readyOf n)))[m]?).getD Ready.zero = _
    rw [setAt, List.getElem?_set_ne h]
    rfl

theorem Device.setReady_waits (dv : Device) (n : Nat) (f : Ready → Ready) : (dv.setReady n f).waits = dv.waits := by
  unfold Device.setReady
  split <;> rfl

/-- Setting the entry ports of regions changes no port's record, no wait and no memory. -/
theorem Device.setEntries_frame (dv : Device) : (∀ p, dv.setEntries.readyOf (64 + p) = dv.readyOf (64 + p)) ∧
    dv.setEntries.waits = dv.waits ∧ dv.setEntries.hbm = dv.hbm := by
  have hall : ∀ (l : List Nat) (d : Device), (∀ r ∈ l, r < 64) → (∀ p, (l.foldl Device.setEntry d).readyOf (64 + p) = d.readyOf (64 + p)) ∧
      (l.foldl Device.setEntry d).waits = d.waits ∧ (l.foldl Device.setEntry d).hbm = d.hbm := by
    intro l
    induction l with
    | nil => exact fun d _ => ⟨fun _ => rfl, rfl, rfl⟩
    | cons r l ih =>
      intro d hl
      have hr : r < 64 := hl r List.mem_cons_self
      obtain ⟨hready, hwaits, hhbm⟩ := ih (d.setEntry r) fun q hq => hl q (List.mem_cons_of_mem _ hq)
      rw [List.foldl_cons]
      exact ⟨fun p => (hready p).trans (Device.setReady_other _ (by omega) _), hwaits.trans (Device.setReady_waits _ _ _),
        hhbm.trans (Device.setReady_frame _ _ _).1⟩
  exact hall _ _ fun r hr => List.mem_range.mp (List.mem_of_mem_filter hr)

/-- A port that fails while no access is under way: nothing but the device changes beyond what its waiting requests are told. -/
theorem port_fails {s u : State} {p : Nat} (hp : p < 40) (hgone : s.dev.portGone p = false) (hw : s.failWaiters p = u)
    (haccs : ∀ t ∈ u.core :: u.others, t.accs = []) (hlen : u.dev.ready.length = 140) :
    ∃ v, exec (.fluePortFailure p) s = .next v ∧ v.dev.portUp p = false ∧ v.dev.portGone p = true ∧ v.core = u.core ∧
      v.others = u.others ∧ v.dev.waits = u.dev.waits ∧ v.dev.hbm = u.dev.hbm := by
  have hids : ((u.core :: u.others).flatMap fun t => t.accs.map fun a => evId t.coord a.seq) = [] :=
    List.flatMap_eq_nil_iff.mpr fun t ht => by rw [haccs t ht]; rfl
  obtain ⟨f, hf⟩ : ∃ f : Ready → Ready, f = fun x => { x with ready := false, busy := false, failed := !x.ready, retired := x.ready } := ⟨_, rfl⟩
  obtain ⟨w, hwdev⟩ : ∃ w, w = u.withDev fun dv => (dv.setReady (64 + p) f).setEntries := ⟨_, rfl⟩
  have hexec : exec (.fluePortFailure p) s = .next (if w.dev.locks.any fun l => l.home == p then w.push [.homeLockRelease p] else w) := by
    show execFluePortFailure p s = _
    rw [execFluePortFailure, State.portFails]
    simp only [hp, hgone, hw, hids, decide_true, Bool.not_true, Bool.or_self, Bool.false_eq_true, if_false, List.foldl_nil]
    rw [hwdev, hf]
  obtain ⟨hset, hwaits, hhbm⟩ := (u.dev.setReady (64 + p) f).setEntries_frame
  have hrec : w.dev.readyOf (64 + p) = f (u.dev.readyOf (64 + p)) := by
    rw [hwdev]
    exact (hset p).trans (Device.setReady_at (by omega) f)
  have hup : w.dev.portUp p = false := by rw [Device.portUp, hrec, hf]
  have hdown : w.dev.portGone p = true := by
    rw [Device.portGone, hrec, hf]
    exact Bool.not_or_self _
  have hwait : w.dev.waits = u.dev.waits := by rw [hwdev]; exact hwaits.trans (Device.setReady_waits _ _ _)
  have hmem : w.dev.hbm = u.dev.hbm := by rw [hwdev]; exact hhbm.trans (Device.setReady_frame _ _ _).1
  have hcore : w.core = u.core := by rw [hwdev]; rfl
  have hothers : w.others = u.others := by rw [hwdev]; rfl
  refine ⟨_, hexec, ?_⟩
  split <;> exact ⟨hup, hdown, hcore, hothers, hwait, hmem⟩

/-- What holds of every tile, and of the one that is put, holds of every tile after it is put. -/
theorem State.setTile_forall {s : State} {v : Tile} {P : Tile → Prop} (h : ∀ t ∈ s.core :: s.others, P t) (hv : P v) :
    ∀ t ∈ (s.setTile v).core :: (s.setTile v).others, P t := by
  intro t ht
  unfold State.setTile at ht
  split at ht
  · rcases List.mem_cons.mp ht with rfl | ht
    · exact hv
    · exact h t (List.mem_cons_of_mem _ ht)
  · rcases List.mem_cons.mp ht with rfl | ht
    · exact h _ List.mem_cons_self
    · obtain ⟨q, hq, rfl⟩ := List.mem_map.mp ht
      split
      · exact hv
      · exact h q (List.mem_cons_of_mem _ hq)

theorem port_fails_waiting {s : State} {p id : Nat} {t : Tile} {g : GuardReq} {q : GuardWait} (hp : p < 40) (hgone : s.dev.portGone p = false)
    (hlen : s.dev.ready.length = 140) (haccs : ∀ t ∈ s.core :: s.others, t.accs = []) (h : s.HasGuard id t g) (hwaits : s.dev.waits = [q])
    (hline : stackOf q.line = p) (hwho : q.who = evCoord id) (hseq : q.seq = g.seq) :
    ∃ u, exec (.fluePortFailure p) s = .next u ∧ u.dev.portUp p = false ∧ u.dev.waits = [] ∧ u.dev.hbm = s.dev.hbm ∧
      u.tileAt (evCoord id) = some (t.setGuard { g with stage := .answered (some .guarderr) none }) := by
  obtain ⟨w, hw⟩ : ∃ w, w = t.setGuard { g with stage := .answered (some .guarderr) none } := ⟨_, rfl⟩
  have hat : w.isAt (evCoord id) = true := hw ▸ h.isAt_setGuard _
  have hreq : t.guard? g.seq = some g := by rw [h.seq]; exact h.request
  have hfail : s.failWaiters p = (s.unqueue q).setTile w := by
    have hfilter : (s.dev.waits.filter fun w => stackOf w.line == p) = [q] := by rw [hwaits]; simp [hline]
    rw [State.failWaiters, hfilter, List.foldl_cons, List.foldl_nil, hwho, hseq,
      State.answerGuard_finds (v := t) (q := g) (show (s.unqueue q).tileAt (evCoord id) = some t from h.tile) hreq, hw]
  have hdev : ((s.unqueue q).setTile w).dev = (s.unqueue q).dev := State.setTile_dev _ _
  have hwa : w.accs = [] := by rw [hw]; exact haccs t (State.tileAt_mem h.tile)
  obtain ⟨u, hexec, hup, -, hcore, hothers, hwait, hhbm⟩ := port_fails hp hgone hfail
    (State.setTile_forall (s := s.unqueue q) (P := fun t => t.accs = []) haccs hwa) (by rw [hdev]; exact hlen)
  have hnone : (s.unqueue q).dev.waits = [] := by
    show s.dev.waits.erase q = []
    rw [hwaits]
    simp
  have htile : ((s.unqueue q).setTile w).tileAt (evCoord id) = some w :=
    (State.tileAt_setTile (t := t) (v := w) (s := s.unqueue q) h.tile hat).1
  refine ⟨u, hexec, hup, hwait.trans ((congrArg Device.waits hdev).trans hnone), hhbm.trans ((congrArg Device.hbm hdev).trans rfl), ?_⟩
  rw [← hw, ← htile, State.tileAt, State.tileAt, hcore, hothers]

/-- Settles O60: each clause by what its step does to the device, a failing port through what its waiting requests are told. -/
theorem powerSteps : Obligations.PowerSteps := by
  intro s hon
  refine ⟨damper_step hon, voltage_warning hon, power_removal hon, ⟨_, congrArg Host.Outcome.next (if_pos hon), rfl,
    State.shutdown_tileAt _ _, rfl, rfl⟩, fun r x hr hx ht => thermal_limit hon hr hx ht, fun p hp hgone hlen haccs hwaits => ?_,
    fun p id t g x q hp hgone hlen haccs h _ hwaits hline hwho hseq => port_fails_waiting hp hgone hlen haccs h hwaits hline hwho hseq⟩
  have hfail : s.failWaiters p = s := by rw [State.failWaiters, hwaits]; rfl
  obtain ⟨u, hexec, hup, hdown, hcore, hothers, -, hhbm⟩ := port_fails hp hgone hfail haccs hlen
  exact ⟨u, hexec, hup, hdown, hcore, hothers, hhbm⟩

end Sys2Proof.Machine
end

section
/-! SUPPORT. What leaves the Kiln, the mailboxes and the registers of BAR0 as they are, and the Kiln's commands (R397 to R400). -/

namespace Sys2Proof.Machine

/-! What a report changes of the device. -/

/-- A device that differs from another only in what a report writes: memory, rings, messages, free values. -/
structure Device.Reports (dv u : Device) : Prop where
  kiln : u.kiln = dv.kiln
  net : u.net = dv.net
  queues : u.queues = dv.queues
  graphs : u.graphs = dv.graphs
  regions : u.regions = dv.regions
  ready : u.ready = dv.ready
  bar0 : u.bar0 = dv.bar0
  loops : u.loops = dv.loops
  locks : u.locks = dv.locks
  ports : u.ports = dv.ports
  power : u.power = dv.power
  waits : u.waits = dv.waits
  boxes : u.boxes = dv.boxes
  exposures : u.exposures = dv.exposures
  nodes : u.nodes = dv.nodes
  migrations : u.migrations = dv.migrations

theorem Device.Reports.refl (dv : Device) : dv.Reports dv := ⟨rfl, rfl, rfl, rfl, rfl, rfl, rfl, rfl, rfl, rfl, rfl, rfl, rfl, rfl, rfl, rfl⟩

theorem Device.Reports.trans {a b c : Device} (h : a.Reports b) (k : b.Reports c) : a.Reports c where
  kiln := k.kiln.trans h.kiln
  net := k.net.trans h.net
  queues := k.queues.trans h.queues
  graphs := k.graphs.trans h.graphs
  regions := k.regions.trans h.regions
  ready := k.ready.trans h.ready
  bar0 := k.bar0.trans h.bar0
  loops := k.loops.trans h.loops
  locks := k.locks.trans h.locks
  ports := k.ports.trans h.ports
  power := k.power.trans h.power
  waits := k.waits.trans h.waits
  boxes := k.boxes.trans h.boxes
  exposures := k.exposures.trans h.exposures
  nodes := k.nodes.trans h.nodes
  migrations := k.migrations.trans h.migrations

theorem Device.Reports.foldl {α : Type} {f : Device → α → Device} (h : ∀ dv x, Device.Reports dv (f dv x)) (l : List α) (dv : Device) :
    dv.Reports (l.foldl f dv) := by
  induction l generalizing dv with
  | nil => exact .refl dv
  | cons x l ih => exact (h dv x).trans (ih (f dv x))

theorem Device.hbm_reports (dv : Device) (m : Memory) : dv.Reports { dv with hbm := m } :=
  ⟨rfl, rfl, rfl, rfl, rfl, rfl, rfl, rfl, rfl, rfl, rfl, rfl, rfl, rfl, rfl, rfl⟩

theorem Device.hosts_reports (dv : Device) (m : Vector Memory 4) (free : Nat) (l : List HostSeal) :
    dv.Reports { dv with hosts := m, free := free, hostSeals := l } :=
  ⟨rfl, rfl, rfl, rfl, rfl, rfl, rfl, rfl, rfl, rfl, rfl, rfl, rfl, rfl, rfl, rfl⟩

theorem Device.free_reports (dv : Device) (n : Nat) : dv.Reports { dv with free := n } :=
  ⟨rfl, rfl, rfl, rfl, rfl, rfl, rfl, rfl, rfl, rfl, rfl, rfl, rfl, rfl, rfl, rfl⟩

theorem Device.setRing_reports (dv : Device) (r : TrapRing) : dv.Reports (dv.setRing r) :=
  ⟨rfl, rfl, rfl, rfl, rfl, rfl, rfl, rfl, rfl, rfl, rfl, rfl, rfl, rfl, rfl, rfl⟩

theorem Device.putPhys_reports (dv : Device) (a n v : Nat) : dv.Reports (dv.putPhys a n v) := by
  unfold Device.putPhys
  split
  · exact dv.hbm_reports _
  · exact .refl dv

theorem Device.hostWrite_reports (dv : Device) (p a : Nat) (bytes : List Byte) (key : Option Nat) :
    dv.Reports (dv.hostWrite p a bytes key) := by
  unfold Device.hostWrite
  split
  · exact dv.hosts_reports _ dv.free dv.hostSeals
  · exact dv.hosts_reports _ _ _

theorem Device.ringStore_reports (dv : Device) (host : Bool) (port a bits : Nat) : dv.Reports (dv.ringStore host port a bits) := by
  unfold Device.ringStore
  split
  · exact dv.hostWrite_reports _ _ _ _
  · exact dv.putPhys_reports _ _ _

theorem Device.message_reports (dv : Device) (port vec : Nat) : dv.Reports (dv.message port vec) := by
  unfold Device.message
  split
  · exact ⟨rfl, rfl, rfl, rfl, rfl, rfl, rfl, rfl, rfl, rfl, rfl, rfl, rfl, rfl, rfl, rfl⟩
  · exact .refl dv

theorem Device.setDescBit_reports (dv : Device) (ctx i : Nat) : dv.Reports (dv.setDescBit ctx i) := by
  unfold Device.setDescBit
  dsimp only
  split
  · exact .refl dv
  · exact dv.putPhys_reports _ _ _

theorem Device.ringStep_reports (dv : Device) (host : Bool) (port a bits b n v : Nat) (r : TrapRing) :
    dv.Reports (((dv.ringStore host port a bits).putPhys b n v).setRing r) :=
  ((dv.ringStore_reports _ _ _ _).trans (Device.putPhys_reports _ _ _ _)).trans (Device.setRing_reports _ _)

theorem Device.putTrap_reports (dv : Device) (r : TrapRec) : dv.Reports (dv.putTrap r) := by
  unfold Device.putTrap
  dsimp only
  split
  · exact (dv.ringStep_reports _ _ _ _ _ _ _ _).trans (Device.message_reports _ _ _)
  · exact dv.ringStep_reports _ _ _ _ _ _ _ _

theorem Device.report_reports (dv : Device) (r : TrapRec) : dv.Reports (dv.report r) := by
  unfold Device.report
  dsimp only
  split
  · exact .refl dv
  · split
    · exact (dv.setDescBit_reports _ _).trans (Device.setRing_reports _ _)
    · exact dv.putTrap_reports r

theorem Device.say_reports (dv : Device) (ctx src : Nat) (cause : Cause) (fatal : Bool) (region nodeid queue : Nat) (info : Option DWord) :
    dv.Reports (dv.say ctx src cause fatal region nodeid queue info) := by
  unfold Device.say
  split
  · exact dv.report_reports _
  · exact (dv.free_reports _).trans (Device.report_reports _ _)

theorem Device.security_reports (dv : Device) : dv.Reports dv.security :=
  .foldl (fun d _ => d.say_reports _ _ _ _ _ _ _ _) _ _

/-! What leaves the Kiln, the mailboxes and BAR0 as they are. -/

/-- A device with the Kiln, the mailboxes and the registers of BAR0 of another. -/
structure Device.SameHost (dv u : Device) : Prop where
  kiln : u.kiln = dv.kiln
  boxes : u.boxes = dv.boxes
  bar0 : u.bar0 = dv.bar0

theorem Device.SameHost.refl (dv : Device) : dv.SameHost dv := ⟨rfl, rfl, rfl⟩

theorem Device.SameHost.trans {a b c : Device} (h : a.SameHost b) (k : b.SameHost c) : a.SameHost c :=
  ⟨k.kiln.trans h.kiln, k.boxes.trans h.boxes, k.bar0.trans h.bar0⟩

theorem Device.SameHost.foldl {α : Type} {f : Device → α → Device} (h : ∀ dv x, Device.SameHost dv (f dv x)) (l : List α) (dv : Device) :
    dv.SameHost (l.foldl f dv) := by
  induction l generalizing dv with
  | nil => exact .refl dv
  | cons x l ih => exact (h dv x).trans (ih (f dv x))

theorem Device.Reports.sameHost {dv u : Device} (h : dv.Reports u) : dv.SameHost u := ⟨h.kiln, h.boxes, h.bar0⟩

theorem Device.setReady_sameHost (dv : Device) (n : Nat) (f : Ready → Ready) : dv.SameHost (dv.setReady n f) := by
  unfold Device.setReady
  split <;> exact ⟨rfl, rfl, rfl⟩

theorem Device.setEntry_sameHost (dv : Device) (r : Nat) : dv.SameHost (dv.setEntry r) := by
  rw [Device.setEntry]
  exact dv.setReady_sameHost _ _

theorem Device.draw_sameHost (dv : Device) : dv.SameHost dv.draw := ⟨rfl, rfl, rfl⟩

theorem Device.clearStack_sameHost (dv : Device) (p : Nat) : dv.SameHost (dv.clearStack p) := ⟨rfl, rfl, rfl⟩

theorem Device.setEntries_sameHost (dv : Device) : dv.SameHost dv.setEntries :=
  .foldl Device.setEntry_sameHost _ _

theorem Device.holdAll_sameHost (dv : Device) : dv.SameHost dv.holdAll :=
  .foldl (fun d _ => d.setReady_sameHost _ _) _ _

theorem Device.portBringUp_sameHost (dv : Device) (p : Nat) : dv.SameHost (dv.portBringUp p) := by
  unfold Device.portBringUp
  split
  · exact .refl dv
  · split
    · exact (dv.draw_sameHost.trans (Device.setReady_sameHost _ _ _)).trans (Device.setEntries_sameHost _)
    · exact ((dv.draw_sameHost.trans (Device.clearStack_sameHost _ _)).trans (Device.setReady_sameHost _ _ _)).trans
        (Device.setEntries_sameHost _)

theorem Device.correct_sameHost (dv : Device) (line : Nat) : dv.SameHost (dv.correct line) := by
  unfold Device.correct
  split
  · exact .refl dv
  · exact .trans (b := { dv with soft := NatSet.del dv.soft line }) ⟨rfl, rfl, rfl⟩ (Device.setReady_sameHost _ _ _)

theorem Device.meetLine_sameHost (dv : Device) (line : Nat) : dv.SameHost (dv.meetLine line) := by
  unfold Device.meetLine
  split
  · exact dv.setReady_sameHost _ _
  · exact dv.correct_sameHost line

theorem Device.meet_sameHost (dv : Device) (a n : Nat) : dv.SameHost (dv.meet a n) := by
  unfold Device.meet
  split
  · exact .foldl Device.meetLine_sameHost _ _
  · exact .refl dv

theorem Device.barMeet_sameHost (dv : Device) (a n : Nat) : dv.SameHost (dv.barMeet a n) :=
  .foldl (fun d _ => d.meet_sameHost _ _) _ _

theorem Device.setQState_sameHost (dv : Device) (q st : Nat) : dv.SameHost (dv.setQState q st) :=
  .trans (b := dv.withQueue q fun x => { x with state := st }) ⟨rfl, rfl, rfl⟩ (Device.putPhys_reports _ _ _ _).sameHost

theorem Device.barBytes_sameHost (dv : Device) (a n : Nat) : dv.SameHost (dv.barBytes a n).2 := by
  unfold Device.barBytes
  have hup : dv.SameHost (((upTo n).map fun i => direct (dv.bar0.apbase + a + i)).foldl (fun (dv : Device) x => match x with
      | some d => dv.portBringUp (stackOf d)
      | none => dv) dv) := by
    refine .foldl (fun d x => ?_) _ _
    cases x with
    | none => exact .refl d
    | some y => exact d.portBringUp_sameHost _
  dsimp only
  split
  · exact hup
  · split
    · exact hup.trans (Device.barMeet_sameHost _ _ _)
    · exact hup.trans (Device.barMeet_sameHost _ _ _)

theorem Device.applyConfig_sameHost (dv : Device) (c : KConfig) :
    Device.SameHost { dv with kiln := { dv.kiln with config := some c } } (dv.applyConfig c) := by
  unfold Device.applyConfig
  refine .foldl (fun d q => ?_) _ _
  split
  · exact d.setQState_sameHost _ _
  · exact .refl d

/-! How a command of the Kiln ends. -/

section

variable {s : State} {dv : Device} {p c st : Nat} {resp : Option (List Byte)}

/-- A device in which the only command that waits has ended with a status. -/
structure Device.Ends (dv u : Device) (p st : Nat) (resp : Option (List Byte)) : Prop where
  kstat : (u.box p).kstat = st
  kresp : (u.box p).kresp = resp.getD (dv.box p).kresp
  kiln : u.kiln = { dv.kiln with pending := [] }
  seccnt : u.bar0.seccnt = if st = 0 then dv.bar0.seccnt else (dv.bar0.seccnt + 1) % 2 ^ 64
  hbm : u.hbm = dv.hbm
  ready : u.ready = dv.ready

theorem Device.box_withBox (dv : Device) (hp : p < 4) (f : Mailbox → Mailbox) : (dv.withBox p f).box p = f (dv.box p) := by
  rw [Device.withBox, Device.box]
  show ((dv.boxes.setIfInBounds p (f (dv.box p)))[p]?).getD Mailbox.zero = _
  rw [Vector.getElem?_setIfInBounds_self_of_lt hp, Option.getD_some]

/-- What a command leaves that ends, before its requester is told. -/
def Device.endedWith (dv : Device) (p st : Nat) (resp : Option (List Byte)) : Device :=
  { dv.withBox p fun b => { b with kstat := st, kresp := resp.getD b.kresp } with
    kiln := { dv.kiln with pending := dv.kiln.pending.drop 1 } }

theorem Device.kilnEnd_host (dv : Device) (hp : p < 4) :
    dv.kilnEnd p st resp = (if st = 0 then dv.endedWith p st resp else (dv.endedWith p st resp).refuse).message p 0 := by
  have h4 : p ≠ 4 := by omega
  have hset : dv.setKstat p st resp = dv.withBox p fun b => { b with kstat := st, kresp := resp.getD b.kresp } := if_neg h4
  rw [Device.kilnEnd, hset]
  exact if_neg h4

theorem Device.message_frame (dv : Device) (port vec : Nat) : (dv.message port vec).hbm = dv.hbm := by
  unfold Device.message
  split <;> rfl

theorem Device.kilnDone_ends (hp : p < 4) (h : dv.kiln.pending = [(p, c)]) : dv.Ends (dv.kilnDone p st resp) p st resp := by
  have hnone : (dv.kilnEnd p st resp).kiln = { dv.kiln with pending := [] } := by
    rw [Device.kilnEnd_host dv hp, (Device.message_reports _ _ _).kiln]
    split <;> (show ({ dv.kiln with pending := dv.kiln.pending.drop 1 } : Kiln) = _; rw [h]; rfl)
  have hdone : dv.kilnDone p st resp = dv.kilnEnd p st resp := by
    rw [Device.kilnDone, h]
    show Device.skipUnknown 1 _ = _
    rw [Device.skipUnknown, hnone]
  have hbox : ((if st = 0 then dv.endedWith p st resp else (dv.endedWith p st resp).refuse).message p 0).box p =
      { dv.box p with kstat := st, kresp := resp.getD (dv.box p).kresp } := by
    rw [Device.box, (Device.message_reports _ _ _).boxes]
    split <;> exact Device.box_withBox dv hp fun b => { b with kstat := st, kresp := resp.getD b.kresp }
  rw [hdone]
  refine ⟨?_, ?_, hnone, ?_, ?_, ?_⟩ <;> rw [Device.kilnEnd_host dv hp]
  · rw [hbox]
  · rw [hbox]
  · rw [(Device.message_reports _ _ _).bar0]
    split <;> rfl
  · rw [Device.message_frame]
    split <;> rfl
  · rw [(Device.message_reports _ _ _).ready]
    split <;> rfl

theorem Device.kilnTurn_of (h : dv.kiln.pending = [(p, c)]) : dv.kilnTurn p c = true := by
  rw [Device.kilnTurn, h]
  simp

/-- A command that has ended with a status: its requester's, none waits, one that is refused is counted, no tile changes. -/
def State.Ended (s : State) (p st : Nat) (u : State) : Prop :=
  (u.dev.box p).kstat = st ∧ u.dev.kiln.pending = [] ∧
    u.dev.bar0.seccnt = (if st = 0 then s.dev.bar0.seccnt else (s.dev.bar0.seccnt + 1) % 2 ^ 64) ∧ u.core = s.core

/-- A command that ends from a device with the registers of BAR0 as they were. -/
theorem command_ends (i : Instr) (f : Device → Device) (hp : p < 4) (he : exec i s = .next (s.withDev f))
    (hd : f s.dev = dv.kilnDone p st resp) (h : dv.kiln.pending = [(p, c)]) (hbar : dv.bar0 = s.dev.bar0) :
    ∃ u, exec i s = .next u ∧ s.Ended p st u ∧ u.dev.kiln = { dv.kiln with pending := [] } ∧
      (u.dev.box p).kresp = resp.getD (dv.box p).kresp := by
  have hends := Device.kilnDone_ends (st := st) (resp := resp) hp h
  rw [← hd] at hends
  exact ⟨_, he, ⟨hends.kstat, congrArg Kiln.pending hends.kiln, hbar ▸ hends.seccnt, rfl⟩, hends.kiln, hends.kresp⟩

/-! KATTEST (R398). -/

theorem Device.attest_signs (hleaf : dv.kiln.leaf < 2 ^ 20) (nonce : List Byte) : ∃ w dv',
    dv.attest p nonce = Device.kilnDone dv' p 0 (some (dv.attestBody nonce ++ w)) ∧ w.length = 3021 ∧
      dv' = { dv with free := dv.free + 2924, kiln := { dv.kiln with leaf := dv.kiln.leaf + 1 } } := by
  refine ⟨dv.freeBytes 2924 ++ (upTo 97).map fun i => Config.importByte (48 + i), _, ?_, ?_, rfl⟩
  · rw [Device.attest, if_neg (by omega), List.append_assoc]
  · rw [List.length_append, Device.freeBytes, List.length_map, List.length_map, upTo, upTo, List.length_range, List.length_range]

theorem Device.kattest_turn (hp : p < 4) (h : dv.kiln.pending = [(p, 1)]) (hl : reqClean (dv.kreq p) [(0, 48)] = true) :
    dv.kattest p = dv.attest p ((dv.kreq p).take 48) := by
  rw [Device.kattest, Device.kilnTurn_of h, hl]
  simp [hp]

theorem kattest_signs (hp : p < 4) (h : s.dev.kiln.pending = [(p, 1)]) (hl : reqClean (s.dev.kreq p) [(0, 48)] = true)
    (hleaf : s.dev.kiln.leaf < 2 ^ 20) : ∃ u w, exec (.kattest p) s = .next u ∧ s.Ended p 0 u ∧
      u.dev.kiln.leaf = s.dev.kiln.leaf + 1 ∧ w.length = 3021 ∧
      (u.dev.box p).kresp = s.dev.attestBody ((s.dev.kreq p).take 48) ++ w := by
  obtain ⟨w, dv', hattest, hw, hdv⟩ := Device.attest_signs (p := p) hleaf ((s.dev.kreq p).take 48)
  obtain ⟨u, he, hends, hkiln, hresp⟩ := command_ends (s := s) (dv := dv') (.kattest p) (fun dv => dv.kattest p) hp rfl
    ((Device.kattest_turn hp h hl).trans hattest) (by rw [hdv]; exact h) (by rw [hdv])
  exact ⟨u, w, he, hends, by rw [hkiln, hdv], hw, hresp⟩

theorem kattest_exhausted (hp : p < 4) (h : s.dev.kiln.pending = [(p, 1)]) (hl : reqClean (s.dev.kreq p) [(0, 48)] = true)
    (hleaf : 2 ^ 20 ≤ s.dev.kiln.leaf) : ∃ u, exec (.kattest p) s = .next u ∧ s.Ended p 5 u ∧
      (u.dev.box p).kresp = (s.dev.box p).kresp := by
  have hdev : s.dev.kattest p = s.dev.kilnDone p 5 none := by rw [Device.kattest_turn hp h hl, Device.attest, if_pos hleaf]
  obtain ⟨u, he, hends, -, hresp⟩ := command_ends (s := s) (.kattest p) (fun dv => dv.kattest p) hp rfl hdev h rfl
  exact ⟨u, he, hends, hresp⟩

theorem mgmtKattest_signs (h : s.dev.kiln.pending = [(4, 1)]) (hleaf : s.dev.kiln.leaf < 2 ^ 20) :
    ∃ u w, exec .mgmtKattest s = .next u ∧ u.dev.mgmt.kstat = 0 ∧ u.dev.kiln.leaf = s.dev.kiln.leaf + 1 ∧
      u.dev.mgmt.kresp = s.dev.attestBody (s.dev.mgmt.nonce.bytes 0 48) ++ w := by
  obtain ⟨w, dv', hattest, -, hdv⟩ := Device.attest_signs (p := 4) hleaf (s.dev.mgmt.nonce.bytes 0 48)
  obtain ⟨resp, hresp⟩ : ∃ resp, resp = s.dev.attestBody (s.dev.mgmt.nonce.bytes 0 48) ++ w := ⟨_, rfl⟩
  have hexec : exec .mgmtKattest s = .next (s.withDev fun dv => if dv.kilnTurn 4 1 then dv.attest 4 (dv.mgmt.nonce.bytes 0 48) else dv) := rfl
  have hend : (dv'.kilnEnd 4 0 (some resp)).kiln = { s.dev.kiln with leaf := s.dev.kiln.leaf + 1, pending := [] } ∧
      (dv'.kilnEnd 4 0 (some resp)).mgmt.kstat = 0 ∧ (dv'.kilnEnd 4 0 (some resp)).mgmt.kresp = resp := by
    rw [hdv]
    cases hev : s.dev.mgmt.events <;> simp [Device.kilnEnd, Device.setKstat, hev, h]
  obtain ⟨hkiln, hstat, hkresp⟩ := hend
  have hdev : (s.withDev fun dv => if dv.kilnTurn 4 1 then dv.attest 4 (dv.mgmt.nonce.bytes 0 48) else dv).dev =
      dv'.kilnEnd 4 0 (some resp) := by
    show (if s.dev.kilnTurn 4 1 then s.dev.attest 4 (s.dev.mgmt.nonce.bytes 0 48) else s.dev) = _
    rw [if_pos (Device.kilnTurn_of h), hattest, ← hresp, Device.kilnDone, show dv'.kiln.pending = [(4, 1)] by rw [hdv]; exact h]
    show Device.skipUnknown 1 _ = _
    rw [Device.skipUnknown, hkiln]
  refine ⟨_, w, hexec, ?_, ?_, ?_⟩ <;> rw [hdev]
  · exact hstat
  · rw [hkiln]
  · rw [hkresp, hresp]

/-! KGEN, KUNWRAP, KUNLOAD and the slot that it clears (R76, R399). -/

theorem any_slot_false {keys : List KeySlot} {slot : Nat} (h : ∀ y ∈ keys, y.slot ≠ slot) : (keys.any fun k => k.slot == slot) = false :=
  List.any_eq_false.mpr fun y hy => by simpa using h y hy

theorem any_slot_true {keys : List KeySlot} {slot : Nat} (h : ∃ y ∈ keys, y.slot = slot) : (keys.any fun k => k.slot == slot) = true := by
  obtain ⟨y, hy, hslot⟩ := h
  exact List.any_eq_true.mpr ⟨y, hy, by simpa using hslot⟩

theorem Device.loadKey_free {slot ctx m : Nat} (h : ∀ y ∈ dv.kiln.keys, y.slot ≠ slot) : dv.loadKey p slot ctx m =
    Device.kilnDone { dv with kiln := { dv.kiln with keys := dv.kiln.keys ++ [⟨slot, ctx, m, false⟩], material := Nat.max dv.kiln.material (m + 1) } }
      p 0 none := by
  rw [Device.loadKey, any_slot_false h]
  rfl

theorem Device.kgen_turn (hp : p < 4) (h : dv.kiln.pending = [(p, 2)]) (hl : reqClean (dv.kreq p) [(0, 2)] = true)
    (hslot : reqByte (dv.kreq p) 0 ≠ 0) :
    dv.kgen p = dv.loadKey p (reqByte (dv.kreq p) 0) (reqByte (dv.kreq p) 1) dv.kiln.material := by
  rw [Device.kgen, Device.kilnTurn_of h]
  simp [hp, hslot, hl]

theorem kgen_new (hp : p < 4) (h : s.dev.kiln.pending = [(p, 2)]) (hl : reqClean (s.dev.kreq p) [(0, 2)] = true)
    (hslot : reqByte (s.dev.kreq p) 0 ≠ 0) (hkeys : ∀ y ∈ s.dev.kiln.keys, y.slot ≠ reqByte (s.dev.kreq p) 0) :
    ∃ u, exec (.kgen p) s = .next u ∧ s.Ended p 0 u ∧
      u.dev.kiln.keys = s.dev.kiln.keys ++ [⟨reqByte (s.dev.kreq p) 0, reqByte (s.dev.kreq p) 1, s.dev.kiln.material, false⟩] ∧
      u.dev.kiln.material = s.dev.kiln.material + 1 := by
  have hdev := Device.kgen_turn hp h hl hslot
  rw [Device.loadKey_free hkeys] at hdev
  obtain ⟨u, he, hends, hkiln, -⟩ := command_ends (s := s) (.kgen p) (fun dv => dv.kgen p) hp rfl hdev h rfl
  exact ⟨u, he, hends, by rw [hkiln], by rw [hkiln]; exact Nat.max_eq_right (Nat.le_succ _)⟩

theorem kgen_bound (hp : p < 4) (h : s.dev.kiln.pending = [(p, 2)]) (hl : reqClean (s.dev.kreq p) [(0, 2)] = true)
    (hslot : reqByte (s.dev.kreq p) 0 ≠ 0) (hkeys : ∃ y ∈ s.dev.kiln.keys, y.slot = reqByte (s.dev.kreq p) 0) :
    ∃ u, exec (.kgen p) s = .next u ∧ s.Ended p 4 u ∧ u.dev.kiln.keys = s.dev.kiln.keys := by
  have hdev := Device.kgen_turn hp h hl hslot
  rw [Device.loadKey, any_slot_true hkeys, if_pos rfl] at hdev
  obtain ⟨u, he, hends, hkiln, -⟩ := command_ends (s := s) (.kgen p) (fun dv => dv.kgen p) hp rfl hdev h rfl
  exact ⟨u, he, hends, by rw [hkiln]⟩

/-- What a KUNWRAP that ends with a status leaves in the key slots. -/
def Kiln.Unwrapped (k k' : Kiln) (slot ctx st : Nat) : Prop :=
  if st = 0 then ∃ m, k'.keys = k.keys ++ [⟨slot, ctx, m, false⟩] else k'.keys = k.keys

theorem kunwrap_ends (hp : p < 4) (h : s.dev.kiln.pending = [(p, 3)])
    (hl : reqClean (s.dev.kreq p) [(0, 2), (8, 105), (112, 216)] = true) (hslot : reqByte (s.dev.kreq p) 0 ≠ 0)
    (hkeys : ∀ y ∈ s.dev.kiln.keys, y.slot ≠ reqByte (s.dev.kreq p) 0) :
    ∃ u st, exec (.kunwrap p) s = .next u ∧ s.Ended p st u ∧ (st = 0 ∨ st = 1 ∨ st = 2) ∧
      s.dev.kiln.Unwrapped u.dev.kiln (reqByte (s.dev.kreq p) 0) (reqByte (s.dev.kreq p) 1) st := by
  obtain ⟨m, hm⟩ : ∃ m, m = 1 + (Config.freeWord 0 (s.dev.free + 2)).toNat % s.dev.kiln.material := ⟨_, rfl⟩
  have hdev : s.dev.kunwrap p = if Config.freeBit s.dev.free then
        s.dev.draw.kilnDone p (if Config.freeBit (s.dev.free + 1) then 1 else 2) none
      else s.dev.draw.draw.draw.loadKey p (reqByte (s.dev.kreq p) 0) (reqByte (s.dev.kreq p) 1) m := by
    rw [Device.kunwrap, Device.kilnTurn_of h, hm]
    dsimp only
    rw [any_slot_false hkeys]
    simp [hp, hslot, hl]
  cases hfail : Config.freeBit s.dev.free with
  | true =>
    obtain ⟨st, hst⟩ : ∃ st, st = if Config.freeBit (s.dev.free + 1) then 1 else 2 := ⟨_, rfl⟩
    have hst' : st = 1 ∨ st = 2 := by rw [hst]; split <;> simp
    rw [hfail, if_pos rfl, ← hst] at hdev
    obtain ⟨u, he, hends, hkiln, -⟩ := command_ends (s := s) (dv := s.dev.draw) (.kunwrap p) (fun dv => dv.kunwrap p) hp rfl hdev h rfl
    refine ⟨u, st, he, hends, .inr hst', ?_⟩
    rw [Kiln.Unwrapped, if_neg (by omega), hkiln]
    rfl
  | false =>
    rw [hfail, if_neg Bool.false_ne_true, Device.loadKey_free (by exact hkeys)] at hdev
    obtain ⟨u, he, hends, hkiln, -⟩ := command_ends (s := s) (.kunwrap p) (fun dv => dv.kunwrap p) hp rfl hdev h rfl
    exact ⟨u, 0, he, hends, .inl rfl, m, by rw [hkiln]; rfl⟩

/-- The keys of the Kiln with those of a slot marked to be unloaded. -/
def Kiln.marking (k : Kiln) (slot : Nat) : Kiln :=
  { k with keys := k.keys.map fun y => if y.slot = slot then { y with unloading := true } else y }

theorem kunload_marks (hp : p < 4) (h : s.dev.kiln.pending = [(p, 4)]) (hl : reqClean (s.dev.kreq p) [(0, 1)] = true)
    (hslot : reqByte (s.dev.kreq p) 0 ≠ 0) (hkeys : ∃ y ∈ s.dev.kiln.keys, y.slot = reqByte (s.dev.kreq p) 0) :
    exec (.kunload p) s = .next (s.withDev fun dv => { dv with kiln := s.dev.kiln.marking (reqByte (s.dev.kreq p) 0) }) := by
  have hmark : (fun (k : KeySlot) => { k with unloading := k.unloading || k.slot == reqByte (s.dev.kreq p) 0 }) =
      fun y => if y.slot = reqByte (s.dev.kreq p) 0 then { y with unloading := true } else y := by
    funext k
    by_cases hk : k.slot = reqByte (s.dev.kreq p) 0
    · simp [hk]
    · simp [hk, beq_false_of_ne hk]
  have hdev : s.dev.kunload p = { s.dev with kiln := s.dev.kiln.marking (reqByte (s.dev.kreq p) 0) } := by
    rw [Kiln.marking, ← hmark, Device.kunload, Device.kilnTurn_of h]
    dsimp only
    rw [any_slot_true hkeys]
    simp [hp, hslot, hl]
  exact congrArg (fun dv : Device => Host.Outcome.next { s with dev := dv }) hdev

theorem keySlot_clears {y : KeySlot} (hp : p < 4) (h : s.dev.kiln.pending = [(p, 4)]) (hkeys : s.dev.kiln.keys = [y])
    (hy : y.unloading = true) (huse : ∀ t ∈ s.core :: s.others, t.usesKey y.slot = false) :
    ∃ u, exec (.keySlotClear y.slot) s = .next u ∧ s.Ended p 0 u ∧ u.dev.kiln.keys = [] := by
  have hnone : (s.core :: s.others).any (fun t => t.usesKey y.slot) = false :=
    List.any_eq_false.mpr fun t ht => by rw [huse t ht]; exact Bool.false_ne_true
  have hexec : exec (.keySlotClear y.slot) s =
      .next (s.withDev fun _ => Device.kilnDone { s.dev with kiln := { s.dev.kiln with keys := [] } } p 0 none) := by
    show Host.Outcome.next (s.keySlotClear y.slot) = _
    rw [State.keySlotClear, hkeys, hnone]
    simp [State.withDev, hkeys, hy, h]
  obtain ⟨u, he, hends, hkiln, -⟩ := command_ends _ _ hp hexec rfl h rfl
  exact ⟨u, he, hends, by rw [hkiln]⟩

/-! KCFG, KCOMMIT and KFWLOAD (R397, R399). -/

variable {bytes : List Byte} {key : List Byte}

theorem Device.kcfg_turn (hp : p < 4) (h : dv.kiln.pending = [(p, 5)]) (hl : reqClean (dv.kreq p) [(0, 12)] = true) {r : Device}
    (hb : dv.barBytes (bytesVal ((dv.kreq p).take 8)) (bytesVal (((dv.kreq p).drop 8).take 4)) = (some bytes, r)) :
    dv.kcfg p = r.configure p bytes := by
  rw [Device.kcfg, Device.kilnTurn_of h]
  dsimp only
  rw [hb, hl]
  simp [hp]

theorem kcfg_accepts {r : Device} (hp : p < 4) (h : s.dev.kiln.pending = [(p, 5)]) (hl : reqClean (s.dev.kreq p) [(0, 12)] = true)
    (hb : s.dev.barBytes (bytesVal ((s.dev.kreq p).take 8)) (bytesVal (((s.dev.kreq p).drop 8).take 4)) = (some bytes, r))
    (hnone : Config.enrolOf bytes = none) (hop : s.dev.kiln.operator = some key)
    (he : (Config.configVerdict key bytes).ecdsa = true) (hlms : (Config.configVerdict key bytes).lms = true) :
    ∃ u, exec (.kcfg p) s = .next u ∧ s.Ended p 0 u ∧ u.dev.kiln.config = some (Config.configOf bytes) := by
  have hsame : s.dev.SameHost r := by
    have := s.dev.barBytes_sameHost (bytesVal ((s.dev.kreq p).take 8)) (bytesVal (((s.dev.kreq p).drop 8).take 4))
    rwa [hb] at this
  have hset := r.applyConfig_sameHost (Config.configOf bytes)
  have hdev : s.dev.kcfg p = (r.applyConfig (Config.configOf bytes)).kilnDone p 0 none := by
    rw [Device.kcfg_turn hp h hl hb, Device.configure, hnone, hsame.kiln, hop]
    dsimp only
    rw [he, hlms]
    rfl
  obtain ⟨u, hu, hends, hkiln, -⟩ := command_ends (s := s) (.kcfg p) (fun dv => dv.kcfg p) hp rfl hdev
    (by rw [hset.kiln]; exact (congrArg Kiln.pending hsame.kiln).trans h) (hset.bar0.trans hsame.bar0)
  exact ⟨u, hu, hends, by rw [hkiln, hset.kiln]⟩

theorem kcfg_refuses {r : Device} (hp : p < 4) (h : s.dev.kiln.pending = [(p, 5)]) (hl : reqClean (s.dev.kreq p) [(0, 12)] = true)
    (hb : s.dev.barBytes (bytesVal ((s.dev.kreq p).take 8)) (bytesVal (((s.dev.kreq p).drop 8).take 4)) = (some bytes, r))
    (hnone : Config.enrolOf bytes = none) (hop : s.dev.kiln.operator = some key)
    (hbad : ((Config.configVerdict key bytes).ecdsa && (Config.configVerdict key bytes).lms) = false) :
    ∃ u, exec (.kcfg p) s = .next u ∧ (u.dev.box p).kstat = 2 ∧ u.dev.kiln.config = s.dev.kiln.config := by
  have hsame : s.dev.SameHost r := by
    have := s.dev.barBytes_sameHost (bytesVal ((s.dev.kreq p).take 8)) (bytesVal (((s.dev.kreq p).drop 8).take 4))
    rwa [hb] at this
  have hsay : s.dev.SameHost r.security := hsame.trans r.security_reports.sameHost
  have hdev : s.dev.kcfg p = r.security.kilnDone p 2 none := by
    rw [Device.kcfg_turn hp h hl hb, Device.configure, hnone, hsame.kiln, hop]
    dsimp only
    rw [hbad, if_neg Bool.false_ne_true]
  obtain ⟨u, hu, ⟨hstat, -⟩, hkiln, -⟩ := command_ends (s := s) (.kcfg p) (fun dv => dv.kcfg p) hp rfl hdev
    (by rw [hsay.kiln]; exact h) hsay.bar0
  exact ⟨u, hu, hstat, by rw [hkiln, hsay.kiln]⟩

theorem kcommit_raises (hp : p < 4) (h : s.dev.kiln.pending = [(p, 6)]) (hl : reqClean (s.dev.kreq p) [] = true) :
    ∃ u, exec (.kcommit p) s = .next u ∧ s.Ended p 0 u ∧ u.dev.kiln.rollback = Nat.max s.dev.kiln.rollback s.dev.kiln.svn := by
  have hdev : s.dev.kcommit p =
      Device.kilnDone { s.dev with kiln := { s.dev.kiln with rollback := Nat.max s.dev.kiln.rollback s.dev.kiln.svn } } p 0 none := by
    rw [Device.kcommit, Device.kilnTurn_of h, hl]
    simp [hp]
  obtain ⟨u, hu, hends, hkiln, -⟩ := command_ends (s := s) (.kcommit p) (fun dv => dv.kcommit p) hp rfl hdev h rfl
  exact ⟨u, hu, hends, by rw [hkiln]⟩

theorem Device.dropReady_frame (dv : Device) : dv.SameHost dv.dropReady ∧ dv.dropReady.hbm = dv.hbm := by
  have hall : ∀ (l : List Nat) (d : Device), (l.foldl (fun (dv : Device) n => dv.setReady n fun _ => Ready.zero) d).hbm = d.hbm := by
    intro l
    induction l with
    | nil => exact fun _ => rfl
    | cons n l ih => exact fun d => (ih _).trans (d.setReady_frame n _).1
  exact ⟨.foldl (fun d _ => d.setReady_sameHost _ _) _ _, hall _ _⟩

theorem Device.resetAll_kiln (dv : Device) :
    dv.resetAll.kiln = { dv.dropReady.kiln with keys := [], pending := [], firmwareOk := false } := by
  rw [Device.resetAll]

theorem Device.resetAll_hbm (dv : Device) : dv.resetAll.hbm = dv.hbm := by
  unfold Device.resetAll
  dsimp only
  rw [dv.dropReady_frame.2]

theorem Device.holdAll_ready (dv : Device) {n : Nat} (hn : n < 140) : (dv.holdAll.readyOf n).ready = false := by
  have hall : ∀ (l : List Nat) (d : Device), n ∈ l ∨ (d.readyOf n).ready = false →
      ((l.foldl (fun (dv : Device) n => dv.setReady n fun x => { x with ready := false, busy := false }) d).readyOf n).ready = false := by
    intro l
    induction l with
    | nil => exact fun d h => h.resolve_left List.not_mem_nil
    | cons m l ih =>
      intro d h
      refine ih _ ?_
      by_cases hm : m = n
      · exact .inr (hm ▸ d.setReady_ready m _ fun _ => rfl)
      · rw [Device.setReady_other d hm]
        exact h.imp_left fun h => (List.mem_cons.mp h).resolve_left (Ne.symm hm)
  exact hall _ _ (.inl (List.mem_range.mpr hn))

/-- A KFWLOAD whose container can be read. -/
theorem State.kfwload_turn {r : Device} {d : Nat} {b : List Byte} (hp : p < 4) (h : s.dev.kiln.pending = [(p, 7)])
    (hl : reqClean (s.dev.kreq p) [(0, 8)] = true) (hb : s.dev.barBytes (bytesVal ((s.dev.kreq p).take 8)) 1 = (some b, r))
    (hd : direct (s.dev.bar0.apbase + bytesVal ((s.dev.kreq p).take 8)) = some d) :
    s.kfwload p =
      if verdictGood (Config.containerVerdict d r.hbm) s.dev.kiln.rollback then
        State.resetDevice { s with dev :=
          { r.kilnDone p 0 none with kiln := { (r.kilnDone p 0 none).kiln with boot := Config.containerVerdict d r.hbm } } }
      else
        { s with dev :=
          Device.holdAll { r.security.kilnDone p (if (Config.containerVerdict d r.hbm).ecdsa && (Config.containerVerdict d r.hbm).lms
              && (Config.containerVerdict d r.hbm).imageOk then 3 else 2) none with
            kiln := { (r.security.kilnDone p (if (Config.containerVerdict d r.hbm).ecdsa && (Config.containerVerdict d r.hbm).lms
              && (Config.containerVerdict d r.hbm).imageOk then 3 else 2) none).kiln with firmwareOk := false } } } := by
  have hturn : (!decide (p < 4) || !s.dev.kilnTurn p 7) = false := by rw [Device.kilnTurn_of h]; simp [hp]
  rw [State.kfwload]
  simp only [hturn, hl, hb, hd, Bool.not_true, Bool.false_eq_true, if_false, State.withDev]

theorem kfwload_resets {r : Device} {d : Nat} {b : List Byte} (hp : p < 4) (h : s.dev.kiln.pending = [(p, 7)])
    (hl : reqClean (s.dev.kreq p) [(0, 8)] = true) (hb : s.dev.barBytes (bytesVal ((s.dev.kreq p).take 8)) 1 = (some b, r))
    (hd : direct (s.dev.bar0.apbase + bytesVal ((s.dev.kreq p).take 8)) = some d)
    (hgood : verdictGood (Config.containerVerdict d r.hbm) s.dev.kiln.rollback = true) : ∃ u, exec (.kfwload p) s = .next u ∧
      u.agenda = [.bringUp] ∧ u.dev.kiln.boot = Config.containerVerdict d r.hbm ∧ u.dev.kiln.keys = [] ∧ u.dev.hbm = r.hbm := by
  have hsame : s.dev.SameHost r := by
    have := s.dev.barBytes_sameHost (bytesVal ((s.dev.kreq p).take 8)) 1
    rwa [hb] at this
  have hends := Device.kilnDone_ends (dv := r) (st := 0) (resp := none) hp (by rw [hsame.kiln]; exact h)
  obtain ⟨w, hw⟩ : ∃ w : Device, w = { r.kilnDone p 0 none with
    kiln := { (r.kilnDone p 0 none).kiln with boot := Config.containerVerdict d r.hbm } } := ⟨_, rfl⟩
  have hexec : exec (.kfwload p) s = .next (State.resetDevice { s with dev := w }) := by
    show Host.Outcome.next (s.kfwload p) = _
    rw [State.kfwload_turn hp h hl hb hd, if_pos hgood, hw]
  have hkiln : w.resetAll.kiln = { w.kiln with keys := [], pending := [], firmwareOk := false } := by
    rw [Device.resetAll_kiln, w.dropReady_frame.1.kiln]
  have hhbm : w.resetAll.hbm = r.hbm := w.resetAll_hbm.trans (by rw [hw]; exact hends.hbm)
  have hboot : w.kiln.boot = Config.containerVerdict d r.hbm := by rw [hw]
  rw [State.resetDevice] at hexec
  generalize w.resetAll = v at hexec hkiln hhbm
  exact ⟨_, hexec, rfl, (congrArg Kiln.boot hkiln).trans hboot, congrArg Kiln.keys hkiln, hhbm⟩

theorem kfwload_refuses {r : Device} {d : Nat} {b : List Byte} (hp : p < 4) (h : s.dev.kiln.pending = [(p, 7)])
    (hl : reqClean (s.dev.kreq p) [(0, 8)] = true) (hb : s.dev.barBytes (bytesVal ((s.dev.kreq p).take 8)) 1 = (some b, r))
    (hd : direct (s.dev.bar0.apbase + bytesVal ((s.dev.kreq p).take 8)) = some d)
    (hbad : ((Config.containerVerdict d r.hbm).ecdsa && (Config.containerVerdict d r.hbm).lms &&
      (Config.containerVerdict d r.hbm).imageOk) = false) : ∃ u, exec (.kfwload p) s = .next u ∧ (u.dev.box p).kstat = 2 ∧
      u.dev.kiln.boot = s.dev.kiln.boot ∧ u.dev.kiln.firmwareOk = false ∧ (∀ n, n < 140 → (u.dev.readyOf n).ready = false) ∧
      u.core = s.core := by
  have hsame : s.dev.SameHost r := by
    have := s.dev.barBytes_sameHost (bytesVal ((s.dev.kreq p).take 8)) 1
    rwa [hb] at this
  obtain ⟨q, hq⟩ : ∃ q, q = r.security := ⟨_, rfl⟩
  have hsay : s.dev.SameHost q := hq ▸ hsame.trans r.security_reports.sameHost
  have hends := Device.kilnDone_ends (dv := q) (st := 2) (resp := none) hp (by rw [hsay.kiln]; exact h)
  obtain ⟨e, he⟩ : ∃ e, e = q.kilnDone p 2 none := ⟨_, rfl⟩
  rw [← he] at hends
  obtain ⟨w, hw⟩ : ∃ w : Device, w = { e with kiln := { e.kiln with firmwareOk := false } } := ⟨_, rfl⟩
  have hgood : verdictGood (Config.containerVerdict d r.hbm) s.dev.kiln.rollback = false := by
    rw [verdictGood, hbad, Bool.false_and]
  have hexec : exec (.kfwload p) s = .next { s with dev := w.holdAll } := by
    show Host.Outcome.next (s.kfwload p) = _
    rw [State.kfwload_turn hp h hl hb hd, hgood, if_neg Bool.false_ne_true, hbad, if_neg Bool.false_ne_true, hw, he, hq]
  have hkiln : w.kiln = { s.dev.kiln with pending := [], firmwareOk := false } := by
    rw [hw, ← hsay.kiln]
    exact congrArg (fun k : Kiln => { k with firmwareOk := false }) hends.kiln
  have hhold := w.holdAll_sameHost
  have hbox : (w.holdAll.box p).kstat = 2 := by
    rw [Device.box, hhold.boxes, ← Device.box, hw]
    exact hends.kstat
  have hready : ∀ n, n < 140 → (w.holdAll.readyOf n).ready = false := fun n hn => w.holdAll_ready hn
  generalize w.holdAll = v at hexec hhold hbox hready
  have hboot : v.kiln.boot = s.dev.kiln.boot := by rw [hhold.kiln, hkiln]
  have hheld : v.kiln.firmwareOk = false := by rw [hhold.kiln, hkiln]
  exact ⟨_, hexec, hbox, hboot, hheld, hready, rfl⟩

/-! Registers (R390). -/

theorem exec_registerWrite (hup : s.dev.hostUp p = true) (hp : p < 4) (a : Nat) (v : DWord) :
    exec (.registerWrite (.host p) a v) s = .next (s.bar0Write p a v) := by
  have hreach : s.dev.reaches p a = true := by rw [Device.reaches, hup]; simp [hp]
  show Host.Outcome.next (if s.dev.reaches p a then s.bar0Write p a v else s) = _
  rw [hreach, if_pos rfl]

theorem State.bar0Write_ceil {r : Nat} (hr : r < 64) (v : DWord) :
    s.bar0Write p (0x40000 + 8 * r) v = s.withDev fun dv => dv.setCeil r v.toNat := by
  obtain ⟨a, ha⟩ : ∃ a, a = 0x40000 + 8 * r := ⟨_, rfl⟩
  have hix : (a - 0x40000) / 8 = r := by omega
  rw [← ha, State.bar0Write]
  dsimp only
  rw [if_neg (by simp; omega), if_neg (by omega), if_neg (by omega), if_neg (by omega), if_neg (by omega), if_neg (by omega),
    if_neg (by omega), if_neg (by omega), if_neg (by omega), if_neg (by omega), if_pos (by omega), hix]

theorem Device.setCeil_at {r : Nat} {x : Region} (hx : dv.regions[r]? = some x) (v : Nat) :
    dv.setCeil r v = { dv with regions := dv.regions.set r { x with ceil := Nat.min (v % 256) 160 } } := by
  rw [Device.setCeil, Device.withRegion, hx]

/-! Reads through BAR2 (R390). -/

theorem direct_mod {a d : Nat} (h : direct a = some d) : d % 64 = a % 64 := by
  unfold direct at h
  split at h
  · split at h
    · rw [Option.some.inj h]
    · exact absurd h (by simp)
  · dsimp only at h
    split at h
    · have := Option.some.inj h
      omega
    · exact absurd h (by simp)

/-- The pieces of a run of bytes: each starts in the run and lies in one line. -/
theorem linePieces_mem {fuel a n : Nat} {x : Nat × Nat} (h : x ∈ linePieces fuel a n) :
    a ≤ x.1 ∧ x.1 < a + n ∧ 0 < x.2 ∧ x.1 % 64 + x.2 ≤ 64 := by
  induction fuel generalizing a n with
  | zero => exact absurd h List.not_mem_nil
  | succ fuel ih =>
    rw [linePieces] at h
    split at h
    · exact absurd h List.not_mem_nil
    · obtain ⟨k, hk⟩ : ∃ k, k = Nat.min n (64 - a % 64) := ⟨_, rfl⟩
      dsimp only at h
      rw [← hk] at h
      have hkn : k ≤ n := hk ▸ Nat.min_le_left _ _
      have hk64 : k ≤ 64 - a % 64 := hk ▸ Nat.min_le_right _ _
      have hk0 : 0 < k := hk ▸ Nat.lt_min.mpr ⟨by omega, by omega⟩
      rcases List.mem_cons.mp h with rfl | h
      · exact ⟨le_rfl, by dsimp only; omega, hk0, by dsimp only; omega⟩
      · obtain ⟨h1, h2, h3, h4⟩ := ih h
        exact ⟨by omega, by omega, h3, h4⟩

theorem linesOf_one {d n : Nat} (hn : 0 < n) (h : d % 64 + n ≤ 64) : linesOf d n = [d / 64 * 64] := by
  have hmin : Nat.min n (64 - d % 64) = n := Nat.min_eq_left (by omega)
  rw [linesOf, linePieces, if_neg (by omega)]
  dsimp only
  rw [hmin, Nat.sub_self, linePieces, if_pos rfl]
  rfl

theorem Device.meetLine_sound {l : Nat} (hbad : dv.bad.has l = false) (hpoison : dv.poison.has l = false)
    (hsoft : dv.soft.has l = false) : dv.meetLine l = dv := by
  rw [Device.meetLine, hbad, hpoison, Device.correct, hsoft]
  rfl

theorem foldl_fixed_of_mem {α β : Type} {f : α → β → α} {x : α} {l : List β} (h : ∀ y ∈ l, f x y = x) : l.foldl f x = x := by
  induction l with
  | nil => rfl
  | cons y l ih =>
    rw [List.foldl_cons, h y List.mem_cons_self]
    exact ih fun z hz => h z (List.mem_cons_of_mem _ hz)

/-- What BAR2 finds of a run of bytes that can all be read: plain memory without an error. -/
def Device.BarReads (dv : Device) (a n : Nat) : Prop :=
  ∀ i, i < n → ∃ d, a + i < 2 ^ 32 ∧ direct (dv.bar0.apbase + a + i) = some d ∧ inSysWin d = false ∧
    dv.portGone (stackOf d) = false ∧ dv.portUp (stackOf d) = true ∧ dv.sealOf (d / 64 * 64) = none ∧
    dv.bad.has (d / 64 * 64) = false ∧ dv.poison.has (d / 64 * 64) = false ∧ dv.soft.has (d / 64 * 64) = false

variable {a n : Nat}

theorem Device.BarReads.barPlace (h : dv.BarReads a n) {i : Nat} (hi : i < n) : dv.barPlace p (a + i) = .memory := by
  obtain ⟨d, hlt, hd, hwin, hgone, hup, -⟩ := h i hi
  rw [Device.barPlace, if_neg (by omega), ← Nat.add_assoc, hd]
  simp only [hwin, hgone, hup, Bool.false_and, Bool.not_true, Bool.false_eq_true, if_false]

theorem Device.BarReads.barByte (h : dv.BarReads a n) {i : Nat} (hi : i < n) {d : Nat}
    (hd : direct (dv.bar0.apbase + a + i) = some d) : dv.barByte (a + i) = dv.hbm.read d := by
  obtain ⟨d', -, hd', -, -, -, hseal, -⟩ := h i hi
  obtain rfl : d' = d := Option.some.inj (hd'.symm.trans hd)
  rw [Device.barByte, ← Nat.add_assoc, hd]
  dsimp only
  rw [Device.rawLine, hseal]
  dsimp only
  rw [Memory.bytes_getElem? _ _ (Nat.mod_lt _ (by norm_num)), Option.getD_some, show d' / 64 * 64 + d' % 64 = d' by omega]

/-- A piece of a run that can be read lies on one line, without an error. -/
theorem Device.BarReads.piece (h : dv.BarReads a n) (hap : dv.bar0.apbase % 2 ^ 32 = 0) {x : Nat × Nat}
    (hx : x ∈ linePieces (n / 64 + 2) a n) : dv.tableLost (dv.bar0.apbase + x.1) x.2 = false ∧ dv.meet (dv.bar0.apbase + x.1) x.2 = dv := by
  obtain ⟨h1, h2, h3, h4⟩ := linePieces_mem hx
  obtain ⟨d, -, hd, -, -, -, -, hbad, hpoison, hsoft⟩ := h (x.1 - a) (by omega)
  rw [show dv.bar0.apbase + a + (x.1 - a) = dv.bar0.apbase + x.1 by omega] at hd
  have hmod := direct_mod hd
  have hone : linesOf d x.2 = [d / 64 * 64] := linesOf_one h3 (by omega)
  constructor
  · rw [Device.tableLost, hd]
    simp only [hone, List.any_cons, List.any_nil, hbad, hpoison, Bool.or_self]
  · rw [Device.meet, hd]
    simp only [hone, List.foldl_cons, List.foldl_nil]
    exact Device.meetLine_sound hbad hpoison hsoft

theorem Device.BarReads.barMeet (h : dv.BarReads a n) (hap : dv.bar0.apbase % 2 ^ 32 = 0) : dv.barMeet a n = dv :=
  foldl_fixed_of_mem fun _ hx => (h.piece hap hx).2

theorem Device.BarReads.barLost (h : dv.BarReads a n) (hap : dv.bar0.apbase % 2 ^ 32 = 0) : dv.barLost a n = false :=
  List.any_eq_false.mpr fun x hx => by rw [(h.piece hap hx).1]; exact Bool.false_ne_true

/-- An access none of whose bytes waits for a stack finds the device as it is. -/
theorem Device.barWait_of {y : BarPlace} (hy : y ≠ .waits) (h : ∀ i, i < n → dv.barPlace p (a + i) = y) : dv.barWait p a n = dv := by
  rw [Device.barWait]
  refine foldl_fixed_of_mem fun i hi => ?_
  rw [h i (List.mem_range.mp hi)]
  cases y with
  | waits => exact absurd rfl hy
  | memory | gone | unsupported => rfl

theorem barPlaces_eq {y : BarPlace} (h : ∀ i, i < n → dv.barPlace p (a + i) = y) :
    ((upTo n).map fun i => dv.barPlace p (a + i)) = List.replicate n y := by
  refine List.eq_replicate_iff.mpr ⟨by simp [upTo], fun z hz => ?_⟩
  obtain ⟨i, hi, rfl⟩ := List.mem_map.mp hz
  exact h i (List.mem_range.mp hi)

theorem elem_replicate_of_ne {y z : BarPlace} (h : y ≠ z) : (List.replicate n y).elem z = false :=
  Bool.eq_false_iff.mpr fun hel => h (List.eq_of_mem_replicate (List.elem_iff.mp hel)).symm

theorem bar2_reads (hp : p < 4) (hup : s.dev.hostUp p = true) (hap : s.dev.bar0.apbase % 2 ^ 32 = 0) (h : s.dev.BarReads a n) :
    ∃ u bs, exec (.bar2Access p a (.read n)) s = .next u ∧ u.dev = { s.dev with bar2 := some (bs, false) } ∧ bs.length = n ∧
      ∀ i d, i < n → direct (s.dev.bar0.apbase + a + i) = some d → bs[i]? = some (s.dev.hbm.read d) := by
  have hplace : ∀ i, i < n → s.dev.barPlace p (a + i) = .memory := fun i hi => h.barPlace hi
  have hdev : s.dev.barAccess p a (.read n) = { s.dev with bar2 := some ((upTo n).map fun i => s.dev.barByte (a + i), false) } := by
    rw [Device.barAccess]
    simp only [barLen, hup, hp, decide_true, Bool.and_self, if_true, Device.barWait_of (y := .memory) (by simp) hplace,
      barPlaces_eq hplace, elem_replicate_of_ne, Bool.not_true, Bool.or_false, h.barMeet hap, h.barLost hap, Bool.false_eq_true, if_false,
      ne_eq, reduceCtorEq, not_false_eq_true]
  refine ⟨s.withDev fun dv => dv.barAccess p a (.read n), _, rfl, hdev, by simp [upTo], fun i d hi hd => ?_⟩
  rw [List.getElem?_map, upTo, List.getElem?_range hi, Option.map_some, h.barByte hi hd]

theorem bar2_beyond (hp : p < 4) (hup : s.dev.hostUp p = true) (ha : 2 ^ 32 ≤ a) (hn : 0 < n) : exec (.bar2Access p a (.read n)) s =
    .next (s.withDev fun dv => { dv with bar2 := some (List.replicate n 0xFF#8, true) }) := by
  have hplace : ∀ i, i < n → s.dev.barPlace p (a + i) = .unsupported false := fun i _ => by
    rw [Device.barPlace, if_pos (by omega)]
  have hself : (List.replicate n (BarPlace.unsupported false)).elem (.unsupported false) = true :=
    List.elem_iff.mpr (List.mem_replicate.mpr ⟨by omega, rfl⟩)
  have hdev : s.dev.barAccess p a (.read n) = { s.dev with bar2 := some (List.replicate n 0xFF#8, true) } := by
    rw [Device.barAccess]
    simp only [barLen, hup, hp, decide_true, Bool.and_self, if_true, Device.barWait_of (y := .unsupported false) (by simp) hplace,
      barPlaces_eq hplace, elem_replicate_of_ne, hself, Bool.not_true, Bool.or_false, Bool.false_eq_true, if_false,
      ne_eq, reduceCtorEq, not_false_eq_true, BarPlace.unsupported.injEq]
  exact congrArg (fun dv : Device => Host.Outcome.next { s with dev := dv }) hdev

end

/-- Settles O58: each command by what its step does when its turn has come, registers and the aperture by their cases. -/
theorem kilnSteps : Obligations.KilnSteps := by
  intro s p hp k l slot turn ends
  refine ⟨fun h hl => ⟨fun hleaf => kattest_signs hp h hl hleaf, fun hleaf => kattest_exhausted hp h hl hleaf⟩,
    fun h hleaf => mgmtKattest_signs h hleaf,
    fun h hl hslot => ⟨fun hk => kgen_new hp h hl hslot hk, fun hk => kgen_bound hp h hl hslot hk⟩,
    fun h hl hslot hk => kunwrap_ends hp h hl hslot hk, fun h hl hslot hk => kunload_marks hp h hl hslot hk,
    fun y h hk hy huse => keySlot_clears hp h hk hy huse,
    fun bytes key dv h hl hb hnone hop => ⟨fun he hlms => kcfg_accepts hp h hl hb hnone hop he hlms,
      fun hbad => kcfg_refuses hp h hl hb hnone hop hbad⟩,
    fun h hl => kcommit_raises hp h hl,
    fun b d dv h hl hb hd => ⟨fun he hlms himg hroll => kfwload_resets hp h hl hb hd ?_,
      fun hbad => kfwload_refuses hp h hl hb hd hbad⟩,
    fun v hup => ⟨exec_registerWrite hup hp _ _, exec_registerWrite hup hp _ _, exec_registerWrite hup hp _ _, fun r x hr hx => ?_⟩,
    fun a n hup hap => ⟨fun h => bar2_reads hp hup hap h, fun ha hn => bar2_beyond hp hup ha hn⟩⟩
  · rw [verdictGood, he, hlms, himg, decide_eq_true hroll]
    rfl
  · rw [exec_registerWrite hup hp, State.bar0Write_ceil hr]
    exact congrArg (fun dv : Device => Host.Outcome.next { s with dev := dv }) (Device.setCeil_at hx _)

end Sys2Proof.Machine
end

section
/-! SUPPORT. Bring-up, reset and links (R12, R391 to R396, R401). -/

namespace Sys2Proof.Machine

/-! What a change of ready records leaves. -/

/-- A device with the regions, the registers, the Kiln and the memories of another, and as many ready records. -/
structure Device.SameBut (dv u : Device) : Prop where
  regions : u.regions = dv.regions
  bar0 : u.bar0 = dv.bar0
  kiln : u.kiln = dv.kiln
  boxes : u.boxes = dv.boxes
  power : u.power = dv.power
  hbm : u.hbm = dv.hbm
  hosts : u.hosts = dv.hosts
  length : u.ready.length = dv.ready.length

theorem Device.SameBut.refl (dv : Device) : dv.SameBut dv := ⟨rfl, rfl, rfl, rfl, rfl, rfl, rfl, rfl⟩

theorem Device.SameBut.trans {a b c : Device} (h : a.SameBut b) (k : b.SameBut c) : a.SameBut c where
  regions := k.regions.trans h.regions
  bar0 := k.bar0.trans h.bar0
  kiln := k.kiln.trans h.kiln
  boxes := k.boxes.trans h.boxes
  power := k.power.trans h.power
  hbm := k.hbm.trans h.hbm
  hosts := k.hosts.trans h.hosts
  length := k.length.trans h.length

theorem Device.SameBut.foldl {α : Type} {f : Device → α → Device} (h : ∀ dv x, Device.SameBut dv (f dv x)) (l : List α) (dv : Device) :
    dv.SameBut (l.foldl f dv) := by
  induction l generalizing dv with
  | nil => exact .refl dv
  | cons x l ih => exact (h dv x).trans (ih (f dv x))

theorem Device.setReady_sameBut (dv : Device) (n : Nat) (f : Ready → Ready) : dv.SameBut (dv.setReady n f) := by
  unfold Device.setReady
  split
  · exact .refl dv
  · exact ⟨rfl, rfl, rfl, rfl, rfl, rfl, rfl, List.length_set⟩

theorem Device.draw_sameBut (dv : Device) : dv.SameBut dv.draw := ⟨rfl, rfl, rfl, rfl, rfl, rfl, rfl, rfl⟩

theorem Device.setEntry_sameBut (dv : Device) (r : Nat) : dv.SameBut (dv.setEntry r) := by
  rw [Device.setEntry]
  exact dv.setReady_sameBut _ _

theorem Device.setEntries_sameBut (dv : Device) : dv.SameBut dv.setEntries := .foldl Device.setEntry_sameBut _ _

theorem Device.dropReady_sameBut (dv : Device) : dv.SameBut dv.dropReady := .foldl (fun d _ => d.setReady_sameBut _ _) _ _

/-! Bring-up of all functions (R394, R397). -/

theorem Device.powerUp_frame (dv : Device) : dv.powerUp.kiln = dv.kiln ∧ dv.powerUp.hbm = dv.hbm ∧ dv.powerUp.ready = dv.ready := by
  unfold Device.powerUp
  split
  · exact ⟨rfl, rfl, rfl⟩
  · dsimp only
    split <;> exact ⟨rfl, rfl, rfl⟩

theorem Device.powerUp_power {dv : Device} (h : dv.power.on = false) :
    dv.powerUp.power.on = true ∧ 48000 ≤ dv.powerUp.power.mv ∧ dv.powerUp.power.mv ≤ 58000 := by
  have hlt : dv.freeBits 32 % 10001 < 10001 := Nat.mod_lt _ (by norm_num)
  unfold Device.powerUp
  rw [h, if_neg Bool.false_ne_true]
  dsimp only
  generalize dv.freeBits 32 % 10001 = k at hlt
  split
  · exact ⟨rfl, by show 48000 ≤ 48000 + k; omega, by show 48000 + k ≤ 58000; omega⟩
  · exact ⟨rfl, by show 48000 ≤ 48000 + k; omega, by show 48000 + k ≤ 58000; omega⟩

/-- What is set in every ready record of a list is set in each, where a further setting keeps it. -/
theorem Device.foldl_setReady {f : Ready → Ready} {P : Ready → Prop} (hf : ∀ x, P (f x)) {n : Nat} (l : List Nat) (dv : Device)
    (hn : n < dv.ready.length) (h : n ∈ l ∨ P (dv.readyOf n)) :
    P ((l.foldl (fun (dv : Device) n => dv.setReady n f) dv).readyOf n) := by
  induction l generalizing dv with
  | nil => exact h.resolve_left List.not_mem_nil
  | cons m l ih =>
    have hlen := (dv.setReady_sameBut m f).length
    refine ih _ (hlen.symm ▸ hn) ?_
    by_cases hm : m = n
    · subst hm
      exact .inr (by rw [Device.setReady_at hn]; exact hf _)
    · rw [Device.setReady_other dv hm]
      exact h.imp_left fun h => (List.mem_cons.mp h).resolve_left (Ne.symm hm)

theorem bring_up {s : State} (hlen : s.dev.ready.length = 140) (hon : s.dev.power.on = false)
    (hgood : verdictGood s.dev.kiln.boot s.dev.kiln.rollback = true) : ∃ u, exec .bringUp s = .next u ∧ u.dev.power.on = true ∧
      48000 ≤ u.dev.power.mv ∧ u.dev.power.mv ≤ 58000 ∧ u.dev.kiln.firmwareOk = true ∧ u.dev.kiln.svn = s.dev.kiln.boot.svn ∧
      (∀ k, k < 140 → (u.dev.readyOf k).busy = true) ∧ (∀ k, k < 64 → .regionBringUp k ∈ u.agenda) ∧ u.dev.hbm = s.dev.hbm := by
  obtain ⟨hkiln, hhbm, hready⟩ := s.dev.powerUp_frame
  obtain ⟨hpon, hlo, hhi⟩ := Device.powerUp_power hon
  obtain ⟨d, hd⟩ : ∃ d : Device, d = { s.dev.powerUp with kiln := { s.dev.kiln with
    firmwareOk := true, svn := s.dev.kiln.boot.svn, firmware := s.dev.kiln.boot.digest } } := ⟨_, rfl⟩
  obtain ⟨v, hv⟩ : ∃ v : Device, v = (upTo 140).foldl (fun (dv : Device) n => dv.setReady n fun x => { x with busy := true }) d := ⟨_, rfl⟩
  have hsame : d.SameBut v := hv ▸ .foldl (fun d _ => d.setReady_sameBut _ _) _ _
  have hbusy : ∀ k, k < 140 → (v.readyOf k).busy = true := fun k hk => hv ▸
    Device.foldl_setReady (P := fun x => x.busy = true) (fun _ => rfl) _ _ (by rw [hd]; show k < s.dev.powerUp.ready.length; rw [hready]; omega)
      (.inl (List.mem_range.mpr hk))
  have hexec : exec .bringUp s = .next (State.push { s with dev := v } ((upTo 40).map Due.fluePortBringUp ++ (upTo 64).map Due.regionBringUp
        ++ (upTo 32).map Due.opticalPortReady)) := by
    show Host.Outcome.next s.bringUp = _
    rw [State.bringUp, hon, Bool.false_and, if_neg Bool.false_ne_true]
    dsimp only
    rw [hkiln, if_pos hgood, hv, hd]
  have hvd : v.power = s.dev.powerUp.power ∧ v.kiln.firmwareOk = true ∧ v.kiln.svn = s.dev.kiln.boot.svn ∧ v.hbm = s.dev.hbm := by
    rw [hsame.power, hsame.kiln, hsame.hbm, hd]
    exact ⟨rfl, rfl, rfl, hhbm⟩
  obtain ⟨hpower, hok, hsvn, hmem⟩ := hvd
  refine ⟨_, hexec, by rw [← hpower] at hpon; exact hpon, by rw [← hpower] at hlo; exact hlo, by rw [← hpower] at hhi; exact hhi, hok, hsvn, hbusy,
    fun k hk => ?_, hmem⟩
  refine List.mem_append_right _ (List.mem_append_left _ (List.mem_append_right _ ?_))
  exact List.mem_map.mpr ⟨k, List.mem_range.mpr hk, rfl⟩

/-! Ports and regions come up (R12, R394). -/

theorem Device.comesUp_ready {dv : Device} {n : Nat} (h : dv.comesUp n = true) : (dv.readyOf n).ready = false := by
  simp only [Device.comesUp, Bool.and_eq_true, Bool.not_eq_true'] at h
  exact h.1.1.2

theorem Memory.read_of_none {m : Memory} {x : Nat} (h : ∀ y ∈ m, y.1 ≠ x) : m.read x = 0#8 := by
  induction m with
  | nil => rfl
  | cons y m ih =>
    obtain ⟨a, b⟩ := y
    rw [Memory.read, if_neg (h (a, b) List.mem_cons_self)]
    split
    · rfl
    · exact ih fun z hz => h z (List.mem_cons_of_mem _ hz)

theorem Device.clearStack_read (dv : Device) {p a : Nat} (h : a / 2 ^ 36 = p) : (dv.clearStack p).hbm.read a = 0#8 := by
  refine Memory.read_of_none fun y hy hya => ?_
  have := (List.mem_filter.mp hy).2
  rw [hya, h] at this
  simp at this

theorem port_comes_up {s : State} {n : Nat} (hlen : s.dev.ready.length = 140) (hn : n < 40) (h : s.dev.comesUp (64 + n) = true) :
    ∃ u, exec (.fluePortBringUp n) s = .next u ∧ ((u.dev.readyOf (64 + n)).busy = false ∧
      ((u.dev.readyOf (64 + n)).ready = true ∨ (u.dev.readyOf (64 + n)).failed = true)) ∧ u.core = s.core ∧
      ((u.dev.readyOf (64 + n)).ready = true → ∀ a, a / 2 ^ 36 = n → u.dev.hbm.read a = 0#8) := by
  have hready := Device.comesUp_ready h
  have hset : ∀ (d : Device) (f : Ready → Ready), d.ready = s.dev.ready →
      (d.setReady (64 + n) f).setEntries.readyOf (64 + n) = f (s.dev.readyOf (64 + n)) ∧ (d.setReady (64 + n) f).setEntries.hbm = d.hbm := by
    intro d f hd
    refine ⟨?_, (Device.setEntries_sameBut _).hbm.trans (d.setReady_sameBut _ _).hbm⟩
    rw [(Device.setEntries_frame _).1, Device.setReady_at (by rw [hd]; omega), Device.readyOf, hd, ← Device.readyOf]
  have hdev : s.dev.portBringUp n = if Config.freeBit s.dev.free then
        (s.dev.draw.setReady (64 + n) fun x => { x with busy := false, failed := true }).setEntries
      else ((s.dev.draw.clearStack n).setReady (64 + n) fun x => { x with busy := false, ready := true }).setEntries := by
    rw [Device.portBringUp, h]
    simp [hn]
  obtain ⟨v, hv⟩ : ∃ v, v = s.dev.portBringUp n := ⟨_, rfl⟩
  have hexec : exec (.fluePortBringUp n) s = .next { s with dev := v } := hv ▸ rfl
  rw [← hv] at hdev
  refine ⟨_, hexec, ?_⟩
  split at hdev
  · obtain ⟨hrec, -⟩ := hset s.dev.draw (fun x => { x with busy := false, failed := true }) rfl
    rw [← hdev] at hrec
    refine ⟨⟨by rw [hrec], .inr (by rw [hrec])⟩, rfl, fun hr => ?_⟩
    rw [hrec] at hr
    exact absurd hr (by rw [hready]; exact Bool.false_ne_true)
  · obtain ⟨hrec, hhbm⟩ := hset (s.dev.draw.clearStack n) (fun x => { x with busy := false, ready := true }) rfl
    rw [← hdev] at hrec hhbm
    refine ⟨⟨by rw [hrec], .inl (by rw [hrec])⟩, rfl, fun _ a ha => ?_⟩
    show v.hbm.read a = 0#8
    rw [hhbm]
    exact s.dev.draw.clearStack_read ha

theorem Device.storeMap_reports (dv : Device) (r : Nat) : dv.Reports (dv.storeMap r) := .foldl (fun d _ => d.putPhys_reports _ _ _) _ _

theorem Device.windowReset_reports (dv : Device) (r : Nat) : dv.Reports (dv.windowReset r) := by
  rw [Device.windowReset, Device.heartbeat]
  exact ((dv.storeMap_reports r).trans (Device.putPhys_reports _ _ _ _)).trans (Device.putPhys_reports _ _ _ _)

theorem Device.region_withRegion {dv : Device} {r : Nat} (hr : r < dv.regions.length) (f : Region → Region) :
    (dv.withRegion r f).region r = f (dv.region r) := by
  have hx : dv.regions[r]? = some dv.regions[r] := List.getElem?_eq_getElem hr
  rw [Device.region, Device.withRegion_at hx, Option.getD_some, Device.region, hx, Option.getD_some]

theorem Device.withRegion_frame (dv : Device) (r : Nat) (f : Region → Region) : (dv.withRegion r f).ready = dv.ready ∧
    (dv.withRegion r f).regions.length = dv.regions.length := by
  unfold Device.withRegion
  split
  · exact ⟨rfl, List.length_set⟩
  · exact ⟨rfl, rfl⟩

theorem region_comes_up {s : State} {n : Nat} (hlen : s.dev.ready.length = 140) (hregs : s.dev.regions.length = 64) (hn : n < 64)
    (h : s.dev.comesUp n = true) (ht : (s.dev.region n).tested = false) :
    ∃ u, exec (.regionBringUp n) s = .next u ∧ u.core = s.core ∧
      ((u.dev.readyOf n).failed = true ∨ ((u.dev.region n).tested = true ∧ u.agenda = s.agenda ++ [.mapBuild n])) := by
  obtain ⟨d, hd⟩ : ∃ d, d = s.dev.windowReset n := ⟨_, rfl⟩
  have hsame : s.dev.Reports d := hd ▸ s.dev.windowReset_reports n
  have hgo : (!decide (n < 64) || !s.dev.comesUp n || (s.dev.region n).tested) = false := by simp [hn, h, ht]
  refine ⟨s.regionBringUp n, rfl, ?_⟩
  rw [State.regionBringUp, hgo, if_neg Bool.false_ne_true, State.withDev, ← hd]
  dsimp only
  split
  · refine ⟨rfl, .inl ?_⟩
    exact congrArg Ready.failed (Device.setReady_at (dv := d.draw) (by show n < d.ready.length; rw [hsame.ready]; omega) _)
  · refine ⟨rfl, .inr ⟨?_, rfl⟩⟩
    exact congrArg Region.tested (Device.region_withRegion (by show n < d.regions.length; rw [hsame.regions]; omega) _)

/-- The rows of a region in which no test has found anything. -/
theorem buildRows_good (n i used : Nat) (hu : used ≤ 125) : (buildRows [] [] n i used).2 = Nat.min (used + n) 125 ∧
    ∀ j, j < n → ∃ x, (buildRows [] [] n i used).1[j]? = some x ∧
      (used + j < 125 → x.state = 1 ∧ x.lrow = used + j) ∧ (125 ≤ used + j → x.state = 2) := by
  induction n generalizing i used with
  | zero => exact ⟨(Nat.min_eq_left hu).symm, fun j hj => absurd hj (Nat.not_lt_zero j)⟩
  | succ n ih =>
    have hrow : buildRow [] [] used = if used = 125 then (⟨2, 0x7F, maskOf [], 0⟩, used)
        else (⟨1, used, maskOf [], maskOf (carrying (maskOf []) 0)⟩, used + 1) := by
      rw [buildRow]
      rfl
    rw [buildRows]
    simp only [List.filter_nil, List.map_nil]
    rw [hrow]
    by_cases hfull : used = 125
    · rw [if_pos hfull]
      obtain ⟨hcount, hrows⟩ := ih (i + 1) used hu
      refine ⟨hcount.trans ((Nat.min_eq_right (by omega)).trans (Nat.min_eq_right (by omega)).symm), fun j hj => ?_⟩
      cases j with
      | zero => exact ⟨_, rfl, fun h => absurd h (by omega), fun _ => rfl⟩
      | succ j =>
        obtain ⟨x, hx, h1, h2⟩ := hrows j (by omega)
        exact ⟨x, hx, fun h => absurd h (by omega), fun h => h2 (by omega)⟩
    · rw [if_neg hfull]
      obtain ⟨hcount, hrows⟩ := ih (i + 1) (used + 1) (by omega)
      refine ⟨hcount.trans (by rw [Nat.add_right_comm, Nat.add_assoc]), fun j hj => ?_⟩
      cases j with
      | zero => exact ⟨_, rfl, fun _ => ⟨rfl, rfl⟩, fun h => absurd h (by omega)⟩
      | succ j =>
        obtain ⟨x, hx, h1, h2⟩ := hrows j (by omega)
        exact ⟨x, hx, fun h => (h1 (by omega)).imp_right fun hr => hr.trans (by omega), fun h => h2 (by omega)⟩

theorem map_is_built {s : State} {n : Nat} (hlen : s.dev.ready.length = 140) (hregs : s.dev.regions.length = 64) (hn : n < 64)
    (h : s.dev.comesUp n = true) (ht : (s.dev.region n).tested = true) (hd : (s.dev.region n).defects = [])
    (hb : (s.dev.region n).bypassBad = []) :
    ∃ u, exec (.mapBuild n) s = .next u ∧ (u.dev.readyOf n).ready = true ∧ (u.dev.readyOf n).kstate % 4 = 1 ∧ (u.dev.region n).gen = 1 ∧
      (∀ i, i < 125 → ((u.dev.region n).row i).state = 1 ∧ ((u.dev.region n).row i).lrow = i) ∧
      (∀ i, 125 ≤ i → i < 128 → ((u.dev.region n).row i).state = 2) := by
  obtain ⟨hcount, hrows⟩ := buildRows_good 128 0 0 (by norm_num)
  obtain ⟨m, hm⟩ : ∃ m, m = buildRows [] [] 128 0 0 := ⟨_, rfl⟩
  rw [← hm] at hcount hrows
  obtain ⟨g, hg⟩ : ∃ g : Region → Region, g = fun x => { x with rows := m.1, gen := 1, tested := false } := ⟨_, rfl⟩
  obtain ⟨e, he⟩ : ∃ e, e = (s.dev.withRegion n g).storeMap n := ⟨_, rfl⟩
  obtain ⟨f, hf⟩ : ∃ f : Ready → Ready, f = fun y => { y with
    busy := false, ready := true, kstate := if m.2 < 125 then 2 else 1, rframe := (s.dev.region n).frame } := ⟨_, rfl⟩
  have hexec : exec (.mapBuild n) s = .next { s with dev := (e.setReady n f).setEntry n } := by
    show Host.Outcome.next (s.withDev fun dv => dv.mapBuild n) = _
    have hgo : (!decide (n < 64) || !s.dev.comesUp n || !(s.dev.region n).tested) = false := by simp [hn, h, ht]
    rw [State.withDev, Device.mapBuild]
    dsimp only
    rw [hgo, if_neg Bool.false_ne_true, hd, hb, ← hm, hf, he, hg]
  have hrep := (s.dev.withRegion n g).storeMap_reports n
  obtain ⟨hwready, hwlen⟩ := s.dev.withRegion_frame n g
  have hsame := (e.setReady_sameBut n f).trans (Device.setEntry_sameBut _ n)
  have hregion : ((e.setReady n f).setEntry n).region n = g (s.dev.region n) := by
    rw [Device.region, hsame.regions, he, hrep.regions, ← Device.region, Device.region_withRegion (by omega)]
  have hlen1 : e.ready.length = 140 := by rw [he, hrep.ready, hwready, hlen]
  have hentry : ∀ dv : Device, n < dv.ready.length → ((dv.setEntry n).readyOf n).ready = (dv.readyOf n).ready ∧
      ((dv.setEntry n).readyOf n).kstate % 4 = (dv.readyOf n).kstate % 4 := by
    intro dv hdv
    rw [Device.setEntry, Device.setReady_at hdv]
    have hmod : ∀ (k : Nat) (c : Prop) [Decidable c], (k % 4 + if c then 0 else 4) % 4 = k % 4 := fun k c _ => by split <;> omega
    exact ⟨rfl, hmod _ _⟩
  have hrec : (e.setReady n f).readyOf n = f (e.readyOf n) := Device.setReady_at (by omega) f
  obtain ⟨hready, hstate⟩ := hentry (e.setReady n f) (by rw [(e.setReady_sameBut n f).length]; omega)
  rw [hrec, hf] at hready hstate
  have hone : (if m.2 < 125 then 2 else 1) = 1 := by rw [hcount]; rfl
  have hrow : ∀ i, i < 128 → ∃ x, (g (s.dev.region n)).row i = x ∧ (i < 125 → x.state = 1 ∧ x.lrow = i) ∧ (125 ≤ i → x.state = 2) := by
    intro i hi
    obtain ⟨x, hx, h1, h2⟩ := hrows i hi
    rw [Nat.zero_add] at h1 h2
    refine ⟨x, ?_, h1, h2⟩
    rw [Region.row, hg]
    dsimp only
    rw [hx, Option.getD_some]
  rw [hf] at hregion hexec
  generalize Device.setEntry _ n = v at hexec hregion hready hstate
  refine ⟨_, hexec, hready, hstate.trans ?_, ?_, fun i hi => ?_, fun i hlo hi => ?_⟩
  · show (if m.2 < 125 then 2 else 1) % 4 = 1
    rw [hone]
  · show (v.region n).gen = 1
    rw [hregion, hg]
  · obtain ⟨x, hx, h1, -⟩ := hrow i (by omega)
    show ((v.region n).row i).state = 1 ∧ ((v.region n).row i).lrow = i
    rw [hregion, hx]
    exact h1 hi
  · obtain ⟨x, hx, -, h2⟩ := hrow i hi
    show ((v.region n).row i).state = 2
    rw [hregion, hx]
    exact h2 hlo

/-! Links (R391, R394, R401). -/

section

variable {s : State} {n : Nat}

theorem Device.setReady_link {dv : Device} {k : Nat} (hlen : dv.ready.length = 140) (hk : k < 140) (f : Ready → Ready) :
    (dv.draw.setReady k f).readyOf k = f (dv.readyOf k) := Device.setReady_at (dv := dv.draw) (by show k < dv.ready.length; omega) f

theorem host_link_up (hlen : s.dev.ready.length = 140) (hn : n < 4) (h : s.dev.comesUp (104 + n) = true) :
    ∃ u, exec (.hostLinkUp n) s = .next u ∧ (u.dev.readyOf (104 + n)).ready = true ∧ (u.dev.readyOf (104 + n)).busy = false := by
  obtain ⟨f, hf⟩ : ∃ f : Ready → Ready, f = fun x => { x with busy := false, ready := true, kstate := s.dev.freeBits 32 % 5 } := ⟨_, rfl⟩
  have hexec : exec (.hostLinkUp n) s = .next { s with dev := s.dev.draw.setReady (104 + n) f } := by
    show Host.Outcome.next (s.withDev fun dv => dv.linkUp n) = _
    have hgo : (!decide (n < 4) || !s.dev.comesUp (104 + n)) = false := by simp [hn, h]
    rw [State.withDev, Device.linkUp, hgo, if_neg Bool.false_ne_true, hf]
  have hrec := Device.setReady_link (k := 104 + n) hlen (by omega) f
  exact ⟨_, hexec, (congrArg Ready.ready hrec).trans (by rw [hf]), (congrArg Ready.busy hrec).trans (by rw [hf])⟩

theorem optical_port_ready (hlen : s.dev.ready.length = 140) (hn : n < 32) (h : s.dev.comesUp (108 + n) = true) :
    ∃ u, exec (.opticalPortReady n) s = .next u ∧ (u.dev.readyOf (108 + n)).busy = false ∧
      ((u.dev.readyOf (108 + n)).ready = true ∨ (u.dev.readyOf (108 + n)).failed = true) := by
  have hgo : (!decide (n < 32) || !s.dev.comesUp (108 + n)) = false := by simp [hn, h]
  have hrec := Device.setReady_link (k := 108 + n) hlen (by omega)
  refine ⟨s.opticalReady n, rfl, ?_⟩
  rw [State.opticalReady, hgo, if_neg Bool.false_ne_true]
  split
  · have hr := hrec fun x => { x with busy := false, failed := true }
    exact ⟨congrArg Ready.busy hr, .inr (congrArg Ready.failed hr)⟩
  · have hr := hrec fun x => { x with busy := false, ready := true }
    dsimp only
    split <;> exact ⟨congrArg Ready.busy hr, .inl (congrArg Ready.ready hr)⟩

theorem optical_link_train (hlen : s.dev.ready.length = 140) (hn : n < 32) (hr : (s.dev.readyOf (108 + n)).ready = true)
    (hw : s.dev.bar0.waferid ≠ 0) (hk : (s.dev.readyOf (108 + n)).kstate = 0) :
    ∃ u, exec (.opticalLinkTrain n) s = .next u ∧ (u.dev.readyOf (108 + n)).kstate = 1 := by
  have hexec : exec (.opticalLinkTrain n) s = .next { s with dev := s.dev.setReady (108 + n) fun x => { x with kstate := 1 } } := by
    show Host.Outcome.next (s.withDev fun dv => dv.opticalTrain n) = _
    have hgo : (!decide (n < 32) || !(s.dev.readyOf (108 + n)).ready || s.dev.bar0.waferid == 0 ||
        (s.dev.readyOf (108 + n)).kstate != 0) = false := by simp [hn, hr, hw, hk]
    rw [State.withDev, Device.opticalTrain, hgo, if_neg Bool.false_ne_true]
  exact ⟨_, hexec, congrArg Ready.kstate (Device.setReady_at (dv := s.dev) (n := 108 + n) (by omega) _)⟩

theorem optical_attest (hlen : s.dev.ready.length = 140) (x : PeerReport) (hn : n < 32) (hk : (s.dev.readyOf (108 + n)).kstate = 1) :
    ∃ u, exec (.opticalAttestExchange n x) s = .next u ∧
      ((u.dev.readyOf (108 + n)).kstate = 1 ∧ u.dev.bar0.seccnt = (s.dev.bar0.seccnt + 1) % 2 ^ 64 ∨
        (u.dev.readyOf (108 + n)).kstate = 3 ∧ (u.dev.readyOf (108 + n)).peer = x.wafer % 256 ∧ s.dev.acceptsPeer x = true) := by
  have hgo : (!decide (n < 32) || (s.dev.readyOf (108 + n)).kstate != 1) = false := by simp [hn, hk]
  have hdev : s.dev.attestPeer n x = if s.dev.acceptsPeer x && Config.freeBit s.dev.free then
      s.dev.draw.setReady (108 + n) fun y => { y with kstate := 3, peer := x.wafer % 256, entry := x.port % 32 }
    else s.dev.draw.refuse := by
    rw [Device.attestPeer, hgo, if_neg Bool.false_ne_true]
  refine ⟨s.withDev fun dv => dv.attestPeer n x, rfl, ?_⟩
  rw [State.withDev, hdev]
  split
  · next hacc =>
    have hr := Device.setReady_link (dv := s.dev) (k := 108 + n) hlen (by omega) fun y =>
      { y with kstate := 3, peer := x.wafer % 256, entry := x.port % 32 }
    exact .inr ⟨congrArg Ready.kstate hr, congrArg Ready.peer hr, (Bool.and_eq_true _ _ ▸ hacc).1⟩
  · exact .inl ⟨hk, rfl⟩

/-! A port reset (R391, R399). -/

theorem Device.box_withBox_ne {dv : Device} {k : Nat} (h : k ≠ n) (f : Mailbox → Mailbox) : (dv.withBox n f).box k = dv.box k := by
  show ((dv.boxes.setIfInBounds n (f (dv.box n)))[k]?).getD Mailbox.zero = _
  rw [Vector.getElem?_setIfInBounds_ne (Ne.symm h)]
  rfl

theorem Device.setKstat_frame (dv : Device) (p st : Nat) (resp : Option (List Byte)) : (dv.setKstat p st resp).kiln = dv.kiln ∧
    (dv.setKstat p st resp).ready = dv.ready ∧ ∀ k, k ≠ p → (dv.setKstat p st resp).box k = dv.box k := by
  unfold Device.setKstat
  split
  · exact ⟨rfl, rfl, fun _ _ => rfl⟩
  · exact ⟨rfl, rfl, fun _ hk => Device.box_withBox_ne hk _⟩

theorem Device.kilnEnd_frame (dv : Device) (p st : Nat) (resp : Option (List Byte)) :
    (dv.kilnEnd p st resp).kiln.pending = dv.kiln.pending.drop 1 ∧ (dv.kilnEnd p st resp).ready = dv.ready ∧
      ∀ k, k ≠ p → (dv.kilnEnd p st resp).box k = dv.box k := by
  obtain ⟨hkiln, hready, hbox⟩ := dv.setKstat_frame p st resp
  obtain ⟨e, he⟩ : ∃ e, e = dv.setKstat p st resp := ⟨_, rfl⟩
  rw [← he] at hkiln hready hbox
  obtain ⟨d, hd⟩ : ∃ d : Device, d = if st = 0 then { e with kiln := { e.kiln with pending := e.kiln.pending.drop 1 } }
    else Device.refuse { e with kiln := { e.kiln with pending := e.kiln.pending.drop 1 } } := ⟨_, rfl⟩
  have hdf : d.kiln.pending = e.kiln.pending.drop 1 ∧ d.ready = e.ready ∧ d.boxes = e.boxes := by
    rw [hd]
    split <;> exact ⟨rfl, rfl, rfl⟩
  obtain ⟨hdk, hdr, hdb⟩ := hdf
  rw [hkiln] at hdk
  have hdbox : ∀ k, k ≠ p → d.box k = dv.box k := fun k hk => by rw [Device.box, hdb, ← Device.box, hbox k hk]
  rw [Device.kilnEnd, ← he, ← hd]
  dsimp only
  split
  · split
    · exact ⟨hdk, hdr.trans hready, hdbox⟩
    · exact ⟨hdk, hdr.trans hready, hdbox⟩
  · have hm := d.message_reports p 0
    refine ⟨(congrArg Kiln.pending hm.kiln).trans hdk, hm.ready.trans (hdr.trans hready), fun k hk => ?_⟩
    rw [Device.box, hm.boxes, ← Device.box, hdbox k hk]

/-- Codes that name no command end one after another: the Kiln's other commands stay, and so does every mailbox none of whose
commands is one of them. -/
theorem Device.skipUnknown_frame (fuel : Nat) (dv : Device) : (∀ x ∈ (Device.skipUnknown fuel dv).kiln.pending, x ∈ dv.kiln.pending) ∧
    (Device.skipUnknown fuel dv).ready = dv.ready ∧
    ∀ k, (∀ x ∈ dv.kiln.pending, x.1 = k → 1 ≤ x.2 ∧ x.2 ≤ 7) → (Device.skipUnknown fuel dv).box k = dv.box k := by
  induction fuel generalizing dv with
  | zero => exact ⟨fun _ h => h, rfl, fun _ _ => rfl⟩
  | succ fuel ih =>
    rw [Device.skipUnknown]
    split
    · next p code rest hpend =>
      split
      · next hcode =>
        obtain ⟨hkiln, hready, hbox⟩ := dv.kilnEnd_frame p 1 none
        obtain ⟨h1, h2, h3⟩ := ih (dv.kilnEnd p 1 none)
        rw [hkiln, hpend, List.drop_one, List.tail_cons] at h1 h3
        rw [hpend]
        refine ⟨fun x hx => List.mem_cons_of_mem _ (h1 x hx), h2.trans hready, fun k hk => ?_⟩
        have hkp : k ≠ p := by
          rintro rfl
          have := hk (k, code) List.mem_cons_self rfl
          dsimp only at this
          omega
        exact (h3 k fun x hx => hk x (List.mem_cons_of_mem _ hx)).trans (hbox k hkp)
      · exact ⟨fun _ h => h, rfl, fun _ _ => rfl⟩
    · exact ⟨fun _ h => h, rfl, fun _ _ => rfl⟩

theorem Device.dropCommands_frame (dv : Device) (p : Nat) : (∀ x ∈ (dv.dropCommands p).kiln.pending, x ∈ dv.kiln.pending ∧ x.1 ≠ p) ∧
    (dv.dropCommands p).ready = dv.ready ∧
    ∀ k, (∀ x ∈ dv.kiln.pending, x.1 ≠ p → x.1 = k → 1 ≤ x.2 ∧ x.2 ≤ 7) → (dv.dropCommands p).box k = dv.box k := by
  obtain ⟨d, keys, hd, hdrop⟩ : ∃ (d : Device) (keys : List KeySlot),
      d = { dv with kiln := { dv.kiln with pending := dv.kiln.pending.filter (·.1 != p), keys := keys } } ∧
      dv.dropCommands p = Device.skipUnknown d.kiln.pending.length d := ⟨_, _, rfl, rfl⟩
  obtain ⟨m, hm⟩ : ∃ m, m = d.kiln.pending.length := ⟨_, rfl⟩
  rw [← hm] at hdrop
  obtain ⟨h1, h2, h3⟩ := Device.skipUnknown_frame m d
  have hpend : d.kiln.pending = dv.kiln.pending.filter (·.1 != p) := by rw [hd]
  rw [hpend] at h1 h3
  rw [hdrop]
  refine ⟨fun x hx => ?_, h2.trans (by rw [hd]), fun k hk => (h3 k fun x hx => ?_).trans (by rw [hd]; rfl)⟩
  · obtain ⟨hmem, hne⟩ := List.mem_filter.mp (h1 x hx)
    exact ⟨hmem, by simpa using hne⟩
  · obtain ⟨hmem, hne⟩ := List.mem_filter.mp hx
    exact hk x hmem (by simpa using hne)

theorem host_port_reset (hn : n < 4) (haccs : s.core.accs = []) (ho : s.others = []) : ∃ u, exec (.hostPortReset n) s = .next u ∧
    u.dev.hostUp n = false ∧ u.dev.box n = Mailbox.zero ∧ u.core = s.core ∧ (∀ x ∈ u.dev.kiln.pending, x.1 ≠ n) ∧
    (∀ k, k ≠ n → (∀ x ∈ s.dev.kiln.pending, x.1 = k → 1 ≤ x.2 ∧ x.2 ≤ 7) → u.dev.box k = s.dev.box k) := by
  obtain ⟨f, hf⟩ : ∃ f : Ready → Ready, f = fun r => { r with ready := false, kstate := 0 } := ⟨_, rfl⟩
  obtain ⟨e, he⟩ : ∃ e, e = s.dev.setReady (104 + n) f := ⟨_, rfl⟩
  obtain ⟨d, hd⟩ : ∃ d : Device, d = { e with boxes := e.boxes.setIfInBounds n Mailbox.zero } := ⟨_, rfl⟩
  have hnone : ∀ t ∈ s.core :: s.others, t.accs = [] := by
    rw [ho]
    exact fun t ht => (List.mem_singleton.mp ht) ▸ haccs
  have hexec : exec (.hostPortReset n) s = .next { s with dev := d.dropCommands n } := by
    show Host.Outcome.next (s.portReset n) = _
    have hgo : (!decide (n < 4)) = false := by simp [hn]
    rw [State.portReset, hgo, if_neg Bool.false_ne_true, State.linkDrop, State.dropTiles_of_no_accs hnone, if_pos hn, hd, he, hf]
    rfl
  have hsame : s.dev.SameBut e := he ▸ s.dev.setReady_sameBut _ _
  obtain ⟨h1, h2, h3⟩ := d.dropCommands_frame n
  have hkiln : d.kiln = s.dev.kiln := by rw [hd]; exact hsame.kiln
  rw [hkiln] at h1 h3
  have hbox : ∀ k, k ≠ n → d.box k = s.dev.box k := fun k hk => by
    rw [Device.box, hd]
    show ((e.boxes.setIfInBounds n Mailbox.zero)[k]?).getD Mailbox.zero = _
    rw [Vector.getElem?_setIfInBounds_ne (Ne.symm hk), hsame.boxes]
    rfl
  have hzero : d.box n = Mailbox.zero := by
    rw [Device.box, hd]
    show ((e.boxes.setIfInBounds n Mailbox.zero)[n]?).getD Mailbox.zero = _
    rw [Vector.getElem?_setIfInBounds_self_of_lt hn, Option.getD_some]
  have hdown : d.hostUp n = false := by
    have hr : (e.readyOf (104 + n)).ready = false := he ▸ Device.setReady_ready _ _ _ fun _ => by rw [hf]
    rw [hd]
    exact hr
  generalize d.dropCommands n = v at hexec h1 h2 h3
  refine ⟨_, hexec, ?_, (h3 n fun x hx hne hk => absurd hk hne).trans hzero, rfl, fun x hx => (h1 x hx).2,
    fun k hk hcodes => (h3 k fun x hx _ hxk => hcodes x hx hxk).trans (hbox k hk)⟩
  show v.hostUp n = false
  rw [Device.hostUp, Device.readyOf, h2]
  exact hdown

/-! Resets (R392, R396) and the wafer's name (R401). -/

theorem devrst_refused (v : DWord) (h : s.dev.rstok n = false) : exec (.devrst (.host n) v) s = .next (s.withDev Device.refuse) := by
  show Host.Outcome.next (if !s.dev.rstok n then s.withDev Device.refuse else if v.setWidth 32 = 0x5EED#32 then s.resetDevice else s) = _
  rw [h]
  rfl

theorem Device.resetAll_hosts (dv : Device) : dv.resetAll.hosts = dv.hosts := by
  unfold Device.resetAll
  dsimp only
  rw [dv.dropReady_sameBut.hosts]

theorem Device.resetAll_none (dv : Device) : dv.resetAll.nodes = [] ∧ dv.resetAll.queues = [] ∧
    dv.resetAll.ready = List.replicate 140 Ready.zero := by
  unfold Device.resetAll
  exact ⟨rfl, rfl, rfl⟩

theorem Tile.none_isAt (c : Coord) : Tile.none_.isAt c = false := by
  rw [Tile.isAt, Bool.and_comm]
  rfl

theorem devrst_resets (v : DWord) (h : s.dev.rstok n = true) (hv : v.setWidth 32 = 0x5EED#32) :
    ∃ u, exec (.devrst (.host n) v) s = .next u ∧ u.agenda = [.bringUp] ∧ u.others = [] ∧ (∀ c, u.tileAt c = none) ∧
      u.dev.kiln.keys = [] ∧ u.dev.nodes = [] ∧ u.dev.queues = [] ∧ u.dev.ready = List.replicate 140 Ready.zero ∧
      u.dev.hbm = s.dev.hbm ∧ u.dev.hosts = s.dev.hosts := by
  have hexec : exec (.devrst (.host n) v) s = .next s.resetDevice := by
    show Host.Outcome.next (if !s.dev.rstok n then s.withDev Device.refuse else if v.setWidth 32 = 0x5EED#32 then s.resetDevice else s) = _
    rw [h, Bool.not_true, if_neg Bool.false_ne_true, if_pos hv]
  have hkeys : s.dev.resetAll.kiln.keys = [] := by rw [Device.resetAll_kiln]
  obtain ⟨hnodes, hqueues, hready⟩ := s.dev.resetAll_none
  have hhbm := s.dev.resetAll_hbm
  have hhosts := s.dev.resetAll_hosts
  rw [State.resetDevice] at hexec
  generalize s.dev.resetAll = w at hexec hkeys hnodes hqueues hready hhbm hhosts
  refine ⟨_, hexec, rfl, rfl, fun c => ?_, hkeys, hnodes, hqueues, hready, hhbm, hhosts⟩
  show (if Tile.none_.isAt c then some Tile.none_ else none) = none
  rw [Tile.none_isAt]
  rfl

theorem region_reset_refused {v : DWord} (hv : bitOf v.toNat 8 = true) (h : s.dev.regionBusy (bitsOf v.toNat 0 6) = true) :
    ∃ u, exec (.rreset (.host n) v) s = .next u ∧ u.dev.bar0.seccnt = (s.dev.bar0.seccnt + 1) % 2 ^ 64 ∧ u.dev.regions = s.dev.regions ∧
      u.core = s.core := by
  have hexec : exec (.rreset (.host n) v) s = .next (s.withDev Device.refuse) := by
    show Host.Outcome.next (if bitOf v.toNat 8 then s.regionReset (bitsOf v.toNat 0 6) else s) = _
    rw [hv, if_pos rfl, State.regionReset, h, if_pos rfl]
  exact ⟨_, hexec, rfl, rfl, rfl⟩

theorem State.removeTiles_frame (s : State) (p : Tile → Bool) : (s.removeTiles p).agenda = s.agenda ∧
    (s.removeTiles p).dev.ready = s.dev.ready ∧ (s.removeTiles p).dev.regions.length = s.dev.regions.length := by
  have hall : ∀ (l : List Tile) (d : Device), (l.foldl Device.leave d).ready = d.ready ∧
      (l.foldl Device.leave d).regions.length = d.regions.length := by
    intro l
    induction l with
    | nil => exact fun _ => ⟨rfl, rfl⟩
    | cons t l ih =>
      intro d
      obtain ⟨h1, h2⟩ := ih (d.leave t)
      obtain ⟨k1, k2⟩ := d.withRegion_frame t.pos.region fun r => (r.harvest t.counts).setHealth t.pos t.leaving
      exact ⟨h1.trans k1, h2.trans k2⟩
  obtain ⟨hready, hlen⟩ := hall ((s.core :: s.others).filter fun t => p t && t.sch.status != .absent) s.dev
  unfold State.removeTiles
  dsimp only
  split
  · split <;> exact ⟨rfl, hready, hlen⟩
  · exact ⟨rfl, hready, hlen⟩

theorem region_reset {v : DWord} (hlen : s.dev.ready.length = 140) (hregs : s.dev.regions.length = 64) (hv : bitOf v.toNat 8 = true)
    (h : s.dev.regionBusy (bitsOf v.toNat 0 6) = false) : ∃ u, exec (.rreset (.host n) v) s = .next u ∧
      u.dev.readyOf (bitsOf v.toNat 0 6) = { Ready.zero with busy := true } ∧ (u.dev.region (bitsOf v.toNat 0 6)).holes = [] ∧
      (u.dev.region (bitsOf v.toNat 0 6)).retire = false ∧ (u.dev.region (bitsOf v.toNat 0 6)).quar = 0 ∧
      (u.dev.region (bitsOf v.toNat 0 6)).hstate = 0 ∧ u.agenda = s.agenda ++ [.regionBringUp (bitsOf v.toNat 0 6)] := by
  have hr : bitsOf v.toNat 0 6 < 64 := Nat.mod_lt _ (by norm_num)
  generalize hrv : bitsOf v.toNat 0 6 = r at hr h
  obtain ⟨t, ht⟩ : ∃ t, t = s.removeTiles fun t => t.pos.region == r && t.sch.status != .absent := ⟨_, rfl⟩
  obtain ⟨hagenda, hready, hrlen⟩ := s.removeTiles_frame fun t => t.pos.region == r && t.sch.status != .absent
  rw [← ht] at hagenda hready hrlen
  obtain ⟨g, hg⟩ : ∃ g : Region → Region, g = fun x => { x with
    holes := [], retire := false, quar := 0, hstate := 0, adopter := r, missed := 0, frame := 0, gen := 0
    rows := List.replicate 128 RowRec.zero, tested := false, passes := [], wanted := [], check := ⟨[], [], [], []⟩ } := ⟨_, rfl⟩
  obtain ⟨d, hd⟩ : ∃ d : Device, d = { t.dev.withRegion r g with migrations := (t.dev.withRegion r g).migrations.filter (·.region != r) } :=
    ⟨_, rfl⟩
  obtain ⟨e, he⟩ : ∃ e, e = d.windowReset r := ⟨_, rfl⟩
  have hrep : d.Reports e := he ▸ d.windowReset_reports r
  obtain ⟨hwready, hwlen⟩ := t.dev.withRegion_frame r g
  have hexec : exec (.rreset (.host n) v) s =
      .next (State.push { t with dev := e.setReady r fun _ => { Ready.zero with busy := true } } [.regionBringUp r]) := by
    show Host.Outcome.next (if bitOf v.toNat 8 then s.regionReset (bitsOf v.toNat 0 6) else s) = _
    rw [hv, if_pos rfl, hrv, State.regionReset, h, if_neg Bool.false_ne_true, ← ht]
    dsimp only
    rw [State.withDev, he, hd, hg]
  have hsame := e.setReady_sameBut r fun _ => { Ready.zero with busy := true }
  have hrec : (e.setReady r fun _ => { Ready.zero with busy := true }).readyOf r = { Ready.zero with busy := true } :=
    Device.setReady_at (by rw [hrep.ready, hd]; show r < (t.dev.withRegion r g).ready.length; rw [hwready, hready]; omega) _
  have hregion : (e.setReady r fun _ => { Ready.zero with busy := true }).region r = g (t.dev.region r) := by
    rw [Device.region, hsame.regions, hrep.regions, hd]
    exact Device.region_withRegion (dv := t.dev) (by omega) g
  generalize (e.setReady r fun _ => { Ready.zero with busy := true }) = w at hexec hrec hregion
  have hfields : (w.region r).holes = [] ∧ (w.region r).retire = false ∧ (w.region r).quar = 0 ∧ (w.region r).hstate = 0 := by
    rw [hregion, hg]
    exact ⟨rfl, rfl, rfl, rfl⟩
  obtain ⟨hholes, hretire, hquar, hstate⟩ := hfields
  exact ⟨_, hexec, hrec, hholes, hretire, hquar, hstate, congrArg (· ++ [Due.regionBringUp r]) hagenda⟩

theorem waferid_write (v : DWord) (h : ∀ p, p < 32 → (s.dev.readyOf (108 + p)).kstate % 2 = 0) :
    ∃ u, exec (.waferidWrite (.host n) v) s = .next u ∧ u.dev.bar0 = { s.dev.bar0 with waferid := bitsOf v.toNat 0 8 } ∧ u.core = s.core := by
  have hnone : ((upTo 32).any fun p => (s.dev.readyOf (108 + p)).kstate % 2 == 1) = false :=
    List.any_eq_false.mpr fun p hp => by rw [h p (List.mem_range.mp hp)]; decide
  refine ⟨s.setWafer (bitsOf v.toNat 0 8), rfl, ?_⟩
  rw [State.setWafer, hnone, if_neg Bool.false_ne_true]
  dsimp only
  split <;> exact ⟨rfl, rfl⟩

end

/-- Settles O57: each step by what it changes of ready records, regions, the map, links and the Kiln's order of commands. -/
theorem bootSteps : Obligations.BootSteps := by
  intro s n hlen hregs dv rec_ upOrBad
  refine ⟨fun hon he hlms himg hroll => bring_up hlen hon ?_, fun hn h => port_comes_up hlen hn h,
    fun hn h ht => region_comes_up hlen hregs hn h ht, fun hn h ht hd hb => map_is_built hlen hregs hn h ht hd hb,
    fun hn h => host_link_up hlen hn h, fun hn h => optical_port_ready hlen hn h, fun hn hr hw hk => optical_link_train hlen hn hr hw hk,
    fun x hn hk => optical_attest hlen x hn hk, fun hn haccs ho => host_port_reset hn haccs ho,
    fun v => ⟨fun h => devrst_refused v h, fun h hv => devrst_resets v h hv⟩,
    fun v hv => ⟨fun h => region_reset_refused hv h, fun h => region_reset hlen hregs hv h⟩, fun v h => waferid_write v h⟩
  rw [verdictGood, he, hlms, himg, decide_eq_true hroll]
  rfl

end Sys2Proof.Machine
end

section
/-! SUPPORT. The packets of a submission queue (R350, R353 to R355, R362). -/

namespace Sys2Proof.Machine

section

variable {s : State} {x : Queue} {p : Packet} {dv : Device}

/-! A queue that is alone. -/

theorem Device.queue_alone (h : dv.queues = [x]) : dv.queue x.q = x := by
  rw [Device.queue, h]
  simp

theorem Device.setQueue_alone {y : Queue} (h : dv.queues = [x]) (hy : y.q = x.q) : dv.setQueue y = { dv with queues := [y] } := by
  rw [Device.setQueue, h]
  simp [hy]

theorem Device.withQueue_alone {f : Queue → Queue} (h : dv.queues = [x]) (hf : (f x).q = x.q) :
    dv.withQueue x.q f = { dv with queues := [f x] } := by
  rw [Device.withQueue, Device.queue_alone h, Device.setQueue_alone h hf]

theorem Device.withPacket_alone {f : Packet → Packet} (h : dv.queues = [x]) (hp : x.packets = [p]) :
    dv.withPacket x.q p.uid f = { dv with queues := [{ x with packets := [f p] }] } := by
  have hmap : x.packets.map (fun y => if y.uid = p.uid then f y else y) = [f p] := by rw [hp]; simp
  rw [Device.withPacket, Device.withQueue_alone h rfl, hmap]

theorem State.Submits.begun {ty : Nat} (h : s.Submits x p ty) : s.dev.begun x.q ty = some p := by
  have hmay : mayStart [] p (s.dev.queueFrame x.q) = true := by
    simp [mayStart, h.fresh, h.later]
  have hstart : x.starting (s.dev.queueFrame x.q) = some p := by
    rw [Queue.starting, h.single]
    simp [h.fresh, hmay]
  rw [Device.begun, Device.queue_alone h.alone, hstart]
  simp [h.kind]

/-! What follows the start of a packet. -/

/-- The completions of a queue's packets change only queues and messages. -/
theorem State.settleQueue_frame (q fuel : Nat) (s : State) : (State.settleQueue q fuel s).core = s.core ∧
    (State.settleQueue q fuel s).others = s.others ∧ (State.settleQueue q fuel s).dev.nodes = s.dev.nodes ∧
    (State.settleQueue q fuel s).dev.regions = s.dev.regions := by
  induction fuel generalizing s with
  | zero => exact ⟨rfl, rfl, rfl, rfl⟩
  | succ fuel ih =>
    rw [State.settleQueue]
    dsimp only
    split
    · exact ⟨rfl, rfl, rfl, rfl⟩
    · obtain ⟨h1, h2, h3, h4⟩ := ih _
      refine ⟨h1, h2, h3.trans ?_, h4.trans ?_⟩
      · dsimp only
        split
        · exact (Device.message_reports _ _ _).nodes
        · rfl
      · dsimp only
        split
        · exact (Device.message_reports _ _ _).regions
        · rfl

theorem State.settleQueues_frame (s : State) : s.settleQueues.core = s.core ∧ s.settleQueues.others = s.others ∧
    s.settleQueues.dev.nodes = s.dev.nodes ∧ s.settleQueues.dev.regions = s.dev.regions := by
  have hall : ∀ (l : List Nat) (u : State),
      (l.foldl (fun s q => State.settleQueue q (s.dev.queue q).packets.length s) u).core = u.core ∧
      (l.foldl (fun s q => State.settleQueue q (s.dev.queue q).packets.length s) u).others = u.others ∧
      (l.foldl (fun s q => State.settleQueue q (s.dev.queue q).packets.length s) u).dev.nodes = u.dev.nodes ∧
      (l.foldl (fun s q => State.settleQueue q (s.dev.queue q).packets.length s) u).dev.regions = u.dev.regions := by
    intro l
    induction l with
    | nil => exact fun _ => ⟨rfl, rfl, rfl, rfl⟩
    | cons q l ih =>
      intro u
      obtain ⟨h1, h2, h3, h4⟩ := ih (State.settleQueue q (u.dev.queue q).packets.length u)
      obtain ⟨k1, k2, k3, k4⟩ := State.settleQueue_frame q (u.dev.queue q).packets.length u
      exact ⟨h1.trans k1, h2.trans k2, h3.trans k3, h4.trans k4⟩
  exact hall _ _

theorem State.afterStart_frame (s : State) (q : Nat) : (s.afterStart q).core = s.core ∧ (s.afterStart q).others = s.others ∧
    (s.afterStart q).dev.nodes = s.dev.nodes ∧ (s.afterStart q).dev.regions = s.dev.regions := by
  obtain ⟨h1, h2, h3, h4⟩ := s.settleQueues_frame
  rw [State.afterStart]
  split <;> exact ⟨h1, h2, h3, h4⟩

theorem State.settleQueues_alone (h : s.dev.queues = [x]) :
    s.settleQueues = State.settleQueue x.q x.packets.length s := by
  rw [State.settleQueues, h]
  show State.settleQueue x.q (s.dev.queue x.q).packets.length s = _
  rw [Device.queue_alone h]

theorem Device.queueSteps_empty (h : dv.queues = [x]) (hp : x.packets = []) : dv.queueSteps x.q = [] := by
  rw [Device.queueSteps, Device.queue_alone h]
  simp [Queue.starting, hp]

/-- After the one packet of a queue has started and completed, the queue is empty. -/
theorem State.afterStart_done (h : s.dev.queues = [x]) (hp : x.packets = [p]) (hd : s.packetDone x p = true)
    (hquiet : bitOf p.bits 3 = false) :
    s.afterStart x.q = { s with dev := { s.dev with queues := [{ x with packets := [] }] } } := by
  have hempty : x.packets.filter (·.uid != p.uid) = [] := by rw [hp]; simp
  have hsettle : s.settleQueues = { s with dev := { s.dev with queues := [{ x with packets := [] }] } } := by
    have hfind : x.packets.find? (s.packetDone x) = some p := by rw [hp]; simp [hd]
    rw [State.settleQueues_alone h, hp]
    show State.settleQueue x.q 1 s = _
    rw [State.settleQueue, Device.queue_alone h]
    dsimp only
    rw [hfind]
    dsimp only
    rw [hquiet, if_neg Bool.false_ne_true, Device.withQueue_alone h rfl, hempty, State.settleQueue]
  rw [State.afterStart, hsettle]
  have hq := Device.queue_alone (dv := { s.dev with queues := [{ x with packets := [] }] }) (x := { x with packets := [] }) rfl
  have hsteps := Device.queueSteps_empty (dv := { s.dev with queues := [{ x with packets := [] }] }) (x := { x with packets := [] }) rfl rfl
  rw [hq, hsteps, State.push, List.append_nil]
  rfl

/-- After the one packet of a queue has started and goes on, nothing follows. -/
theorem State.afterStart_open (h : s.dev.queues = [x]) (hp : x.packets = [p]) (hstart : p.started = true)
    (hd : s.packetDone x p = false) : s.afterStart x.q = s := by
  have hsettle : s.settleQueues = s := by
    have hfind : x.packets.find? (s.packetDone x) = none := by rw [hp]; simp [hd]
    rw [State.settleQueues_alone h, hp]
    show State.settleQueue x.q 1 s = _
    rw [State.settleQueue, Device.queue_alone h]
    dsimp only
    rw [hfind]
  have hsteps : (x.packets.any fun p => p.started && pktType p.bits == 4) = false → s.dev.queueSteps x.q = [] := by
    intro hany
    rw [Device.queueSteps, Device.queue_alone h, hany, if_neg Bool.false_ne_true, Queue.starting, hp]
    simp [hstart]
  rw [State.afterStart, hsettle, Device.queue_alone h]
  split
  · rfl
  · next hany => rw [hsteps (Bool.eq_false_iff.mpr hany), State.push, List.append_nil]

theorem State.packetDone_of (y : Queue) {p : Packet} (h1 : p.started = true) (h2 : p.done = true) : s.packetDone y p = true := by
  rw [State.packetDone, h1, h2]
  rfl

/-- The one packet of a queue, completed, leaves the queue. -/
theorem State.completed (h : dv.queues = [x]) (hp : x.packets = [p]) (hquiet : bitOf p.bits 3 = false) :
    ({ s with dev := dv.completePacket x.q p.uid } : State).afterStart x.q =
      { s with dev := { dv with queues := [{ x with packets := [] }] } } := by
  rw [Device.completePacket, Device.withPacket_alone h hp]
  exact State.afterStart_done (x := { x with packets := [{ p with started := true, done := true }] }) (s := { s with dev := { dv with queues := [{ x with packets := [{ p with started := true, done := true }] }] } })
    rfl rfl (State.packetDone_of (p := { p with started := true, done := true }) _ rfl rfl) hquiet

/-! Halts (R350). -/

/-- A halted queue stands alone in state 3. -/
theorem Device.haltQueue_alone {cause : Cause} {utag : Option Nat} {fatal : Bool} (h : dv.queues = [x]) :
    (dv.haltQueue x.q cause utag fatal).queues = [{ x with state := 3 }] := by
  have hset : (dv.setQState x.q 3).queues = [{ x with state := 3 }] := by
    rw [Device.setQState]
    rw [(Device.putPhys_reports _ _ _ _).queues, Device.withQueue_alone h rfl]
  rw [Device.haltQueue]
  split
  · exact (Device.report_reports _ _).queues.trans hset
  · rw [Device.event]
    dsimp only
    have hm := (Device.message_reports { dv.setQState x.q 3 with free := (dv.setQState x.q 3).free + 2 }
      ((({ dv.setQState x.q 3 with free := (dv.setQState x.q 3).free + 2 } : Device).grantOf x.q).1) 0).queues
    split <;> exact hm.trans hset

/-- A queue whose one packet has completed and which is then halted. -/
theorem State.halted {cause : Cause} {utag : Option Nat} {fatal : Bool} (h : dv.queues = [x]) (hp : x.packets = [p])
    (hquiet : bitOf p.bits 3 = false) (u : State)
    (hu : u = State.afterStart { s with dev := (dv.completePacket x.q p.uid).haltQueue x.q cause utag fatal } x.q) :
    (u.dev.queue x.q).state = 3 ∧ (u.dev.queue x.q).packets = [] ∧ u.core = s.core := by
  obtain ⟨d, hd⟩ : ∃ d, d = (dv.completePacket x.q p.uid).haltQueue x.q cause utag fatal := ⟨_, rfl⟩
  obtain ⟨y, hy⟩ : ∃ y : Queue, y = { x with packets := [{ p with started := true, done := true }], state := 3 } := ⟨_, rfl⟩
  have hq : d.queues = [y] := by
    rw [hd, hy, Device.completePacket, Device.withPacket_alone h hp]
    exact Device.haltQueue_alone (x := { x with packets := [{ p with started := true, done := true }] }) rfl
  have hyq : y.q = x.q := by rw [hy]
  have hdone := State.afterStart_done (s := { s with dev := d }) (x := y) (p := { p with started := true, done := true }) hq (by rw [hy])
    (State.packetDone_of (p := { p with started := true, done := true }) y rfl rfl) hquiet
  rw [hyq] at hdone
  rw [hu, ← hd, hdone]
  have hfin := Device.queue_alone (dv := { d with queues := [{ y with packets := [] }] }) (x := { y with packets := [] }) rfl
  rw [← hyq]
  refine ⟨(congrArg Queue.state hfin).trans (by rw [hy]), congrArg Queue.packets hfin, rfl⟩

/-! NOP, IBCALL, SIGNAL, WAITV and COPY (R353, R355). -/

theorem nop_packet (h : s.Submits x p 0) :
    exec (.nopPacket x.q) s = .next { s with dev := { s.dev with queues := [{ x with packets := [] }] } } := by
  show execNopPacket x.q s = _
  rw [execNopPacket, h.begun]
  exact congrArg _ (State.completed h.alone h.single h.quiet)

theorem ibcall_packet (h : s.Submits x p 2) (hc : p.calls.length < 4) : exec (.ibcall x.q) s = .next { s with dev := { s.dev with
    queues := [{ x with packets := [{ p with started := true, rest := (bitsOf p.bits 64 64, bitsOf p.bits 128 16 + 1) }] }] } } := by
  obtain ⟨p', hp'⟩ : ∃ p' : Packet, p' = { p with started := true, rest := (bitsOf p.bits 64 64, bitsOf p.bits 128 16 + 1) } := ⟨_, rfl⟩
  have hopen : State.packetDone { s with dev := { s.dev with queues := [{ x with packets := [p'] }] } } { x with packets := [p'] } p' = false := by
    rw [State.packetDone, hp', h.open_, h.kind]
    simp
  show execIbcall x.q s = _
  rw [execIbcall, h.begun]
  dsimp only
  rw [if_neg (by omega), Device.withPacket_alone h.alone h.single, ← hp']
  exact congrArg _ (State.afterStart_open (x := { x with packets := [p'] }) rfl rfl (by rw [hp']) hopen)

theorem signal_packet (h : s.Submits x p 3)
    (hw : s.dev.hWrite x.ctx (bitsOf p.bits 64 64) (valBytes 8 (bitsOf p.bits 128 64)) = (none, dv)) (hq : dv.queues = [x]) :
    exec (.signal x.q) s = .next { s with dev := { dv with queues := [{ x with packets := [] }] } } := by
  show execSignal x.q s = _
  rw [execSignal, h.begun, Device.queue_alone h.alone]
  dsimp only
  rw [hw]
  exact congrArg _ (State.completed hq h.single h.quiet)

theorem signal_faults {c : Cause} (h : s.Submits x p 3)
    (hw : s.dev.hWrite x.ctx (bitsOf p.bits 64 64) (valBytes 8 (bitsOf p.bits 128 64)) = (some c, dv)) (hq : dv.queues = [x]) :
    ∃ u, exec (.signal x.q) s = .next u ∧ (u.dev.queue x.q).state = 3 ∧ (u.dev.queue x.q).packets = [] ∧ u.core = s.core := by
  have hexec : exec (.signal x.q) s =
      .next (State.afterStart { s with dev := (dv.completePacket x.q p.uid).haltQueue x.q c (some (pktTag p.bits)) false } x.q) := by
    show execSignal x.q s = _
    rw [execSignal, h.begun, Device.queue_alone h.alone]
    dsimp only
    rw [hw]
  exact ⟨_, hexec, State.halted hq h.single h.quiet _ rfl⟩

theorem copy_packet (h : s.Submits x p 5)
    (hc : Device.copyLines x.ctx (bitsOf p.bits 192 32 / 64) (bitsOf p.bits 64 64) (bitsOf p.bits 128 64) s.dev = (none, dv))
    (hq : dv.queues = [x]) : exec (.copy x.q) s = .next { s with dev := { dv with queues := [{ x with packets := [] }] } } := by
  show execCopy x.q s = _
  rw [execCopy, h.begun, Device.queue_alone h.alone]
  dsimp only
  rw [hc]
  exact congrArg _ (State.completed hq h.single h.quiet)

/-- The stalled WAITV is the packet that is looked at again. -/
theorem exec_waitv (hq : s.dev.queues = [x]) (hp : x.packets = [p]) (hst : p.started = true) (hty : pktType p.bits = 4) :
    exec (.waitv x.q) s = .next (s.waitvCheck x.q p) := by
  have hfind : (x.packets.find? fun p => p.started && pktType p.bits == 4) = some p := by rw [hp]; simp [hst, hty]
  show execWaitv x.q s = _
  rw [execWaitv, Device.queue_alone hq, hfind]

theorem waitv_met {bytes : List Byte} (hq : s.dev.queues = [x]) (hp : x.packets = [p]) (hst : p.started = true) (hty : pktType p.bits = 4)
    (hquiet : bitOf p.bits 3 = false) (hx : x.state = 2) (hr : s.dev.hRead x.ctx (bitsOf p.bits 64 64) 8 = (.ok bytes, dv))
    (hdq : dv.queues = [x]) (hmet : waitMet (bitsOf p.bits 192 2) (bytesVal bytes) (bitsOf p.bits 128 64) = true) :
    ∃ u, exec (.waitv x.q) s = .next u ∧ (u.dev.queue x.q).state = 1 ∧ (u.dev.queue x.q).packets = [] ∧ u.core = s.core := by
  obtain ⟨y, hy⟩ : ∃ y : Queue, y = { x with packets := [{ p with started := true, done := true }] } := ⟨_, rfl⟩
  obtain ⟨d, hd⟩ : ∃ d, d = dv.completePacket x.q p.uid := ⟨_, rfl⟩
  have hdq' : d.queues = [y] := by rw [hd, hy, Device.completePacket, Device.withPacket_alone hdq hp]
  have hyq : y.q = x.q := by rw [hy]
  have hstate : (d.queue x.q).state = 2 := by rw [← hyq, Device.queue_alone hdq', hy]; exact hx
  obtain ⟨e, he⟩ : ∃ e, e = d.setQState x.q 1 := ⟨_, rfl⟩
  have heq : e.queues = [{ y with state := 1 }] := by
    rw [he, Device.setQState]
    rw [(Device.putPhys_reports _ _ _ _).queues, ← hyq, Device.withQueue_alone hdq' rfl]
  have hexec : exec (.waitv x.q) s = .next (State.afterStart { s with dev := e } x.q) := by
    rw [exec_waitv hq hp hst hty, State.waitvCheck, Device.queue_alone hq]
    dsimp only
    rw [hr]
    dsimp only
    rw [if_pos hmet, ← hd, if_pos hstate, ← he]
  have hdone := State.afterStart_done (s := { s with dev := e }) (x := { y with state := 1 }) (p := { p with started := true, done := true })
    heq (by rw [hy]) (State.packetDone_of (p := { p with started := true, done := true }) _ rfl rfl) hquiet
  have hfin := Device.queue_alone (dv := { e with queues := [{ y with state := 1, packets := [] }] }) (x := { y with state := 1, packets := [] }) rfl
  have hqn : ({ y with state := 1 } : Queue).q = x.q := hyq
  rw [hqn] at hdone
  rw [hdone] at hexec
  refine ⟨_, hexec, ?_, ?_, rfl⟩
  · rw [← hyq]
    exact congrArg Queue.state hfin
  · rw [← hyq]
    exact congrArg Queue.packets hfin

theorem waitv_unmet {bytes : List Byte} (hq : s.dev.queues = [x]) (hp : x.packets = [p]) (hst : p.started = true) (hty : pktType p.bits = 4)
    (hr : s.dev.hRead x.ctx (bitsOf p.bits 64 64) 8 = (.ok bytes, dv))
    (hmet : ¬ waitMet (bitsOf p.bits 192 2) (bytesVal bytes) (bitsOf p.bits 128 64) = true) :
    exec (.waitv x.q) s = .next { s with dev := dv } := by
  rw [exec_waitv hq hp hst hty, State.waitvCheck, Device.queue_alone hq]
  dsimp only
  rw [hr]
  dsimp only
  rw [if_neg hmet]

/-! LAUNCH (R354). -/

/-- The nodes that a graph brings, those without predecessors ready. -/
theorem Device.takeGraph_nodes (dv : Device) (q ctx gseq va : Nat) (statva : Option Nat) (ladder : Option Word)
    {g : List Nat × List (List Nat)} (hg : g.2.length = g.1.length) :
    (dv.takeGraph q ctx gseq va statva ladder g).2.nodes.length = dv.nodes.length + g.1.length ∧
      ∀ i b, g.1[i]? = some b → ∃ n, (dv.takeGraph q ctx gseq va statva ladder g).2.nodes[dv.nodes.length + i]? = some n ∧ n.bits = b ∧
        n.index = i ∧ n.left = bitsOf b 424 12 ∧ n.st = (if n.left = 0 then .ready else .waiting) := by
  obtain ⟨nodes, hnodes⟩ : ∃ nodes, nodes = ((upTo g.1.length).zip (g.1.zip g.2)).map fun x =>
    newNode (dv.nextId + 1 + x.1) dv.nextId x.1 x.2.1 (va + 128 * x.1) x.2.2 := ⟨_, rfl⟩
  obtain ⟨d, hd⟩ : ∃ d : Device, (dv.takeGraph q ctx gseq va statva ladder g).2.nodes =
      dv.nodes ++ nodes.map fun (n : Node) => if n.left = 0 then d.readyNode n else n := ⟨_, by rw [hnodes]; rfl⟩
  have hlen : nodes.length = g.1.length := by simp [hnodes, upTo, hg]
  refine ⟨by rw [hd, List.length_append, List.length_map, hlen], fun i b hb => ?_⟩
  have hi : i < g.1.length := (List.getElem?_eq_some_iff.mp hb).1
  obtain ⟨succ, hsucc⟩ : ∃ succ, g.2[i]? = some succ := ⟨_, List.getElem?_eq_getElem (by omega)⟩
  obtain ⟨m, hm⟩ : ∃ m, m = newNode (dv.nextId + 1 + i) dv.nextId i b (va + 128 * i) succ := ⟨_, rfl⟩
  have hzip : ((upTo g.1.length).zip (g.1.zip g.2))[i]? = some (i, b, succ) := by
    rw [List.getElem?_zip_eq_some, List.getElem?_zip_eq_some, upTo, List.getElem?_range hi]
    exact ⟨rfl, hb, hsucc⟩
  have hnode : nodes[i]? = some m := by
    rw [hnodes, List.getElem?_map, hzip, Option.map_some, hm]
  have hwait : m.st = .waiting := by rw [hm]; rfl
  have hbits : m.bits = b := by rw [hm]; rfl
  have hindex : m.index = i := by rw [hm]; rfl
  have hleft : m.left = bitsOf b 424 12 := by rw [hm]; rfl
  rw [hd, List.getElem?_append_right (by omega), Nat.add_sub_cancel_left, List.getElem?_map, hnode, Option.map_some]
  refine ⟨_, rfl, ?_⟩
  split
  · next h0 => exact ⟨hbits, hindex, hleft, (if_pos h0).symm⟩
  · next h0 => exact ⟨hbits, hindex, hleft, hwait⟩

theorem launch_packet {g : List Nat × List (List Nat)} {d' : Device} (h : s.Submits x p 1) (hv : s.dev.ctxValid x.ctx = true)
    (hr : s.dev.readGraph x.ctx (bitsOf p.bits 64 64) (bitsOf p.bits 128 12 + 1) = (.ok g, dv))
    (hw : dv.writeStatus ⟨0, x.q, x.ctx, bitsOf p.bits 140 20, some (bitsOf p.bits 160 64), 0, 0, 0, 0xFFFF, false, none⟩ 0 = (none, d'))
    (hn : d'.nodes = s.dev.nodes) (hg : g.2.length = g.1.length) :
    ∃ u, exec (.launch x.q) s = .next u ∧ u.dev.nodes.length = s.dev.nodes.length + g.1.length ∧
      (∀ i b, g.1[i]? = some b → ∃ n, u.dev.nodes[s.dev.nodes.length + i]? = some n ∧ n.bits = b ∧ n.index = i ∧
        n.left = bitsOf b 424 12 ∧ n.st = (if n.left = 0 then .ready else .waiting)) ∧ u.core = s.core ∧ u.others = s.others := by
  obtain ⟨k, hk⟩ : ∃ k, k = d'.takeGraph x.q x.ctx (bitsOf p.bits 140 20) (bitsOf p.bits 64 64) (some (bitsOf p.bits 160 64)) none g :=
    ⟨_, rfl⟩
  have hexec : exec (.launch x.q) s = .next (State.afterStart { s with dev := k.2.startPacket x.q p.uid [k.1] } x.q) := by
    show execLaunch x.q s = _
    rw [execLaunch, h.begun]
    dsimp only
    rw [State.launchPacket, Device.queue_alone h.alone]
    dsimp only
    rw [hv, Bool.not_true, if_neg Bool.false_ne_true, hr]
    dsimp only
    rw [hw]
    dsimp only
    rw [← hk]
  obtain ⟨h1, h2, h3, -⟩ := State.afterStart_frame { s with dev := k.2.startPacket x.q p.uid [k.1] } x.q
  obtain ⟨hlen, hnodes⟩ := d'.takeGraph_nodes x.q x.ctx (bitsOf p.bits 140 20) (bitsOf p.bits 64 64) (some (bitsOf p.bits 160 64)) none hg
  rw [← hk, hn] at hlen hnodes
  have hkeep : (k.2.startPacket x.q p.uid [k.1]).nodes = k.2.nodes := rfl
  refine ⟨_, hexec, ?_, fun i b hb => ?_, h1, h2⟩
  · rw [h3, hkeep, hlen]
  · rw [h3, hkeep]
    exact hnodes i b hb

/-! PREEMPT, RESUME, LICHEN and MAPSYNC (R68, R353, R376). -/

theorem Node.inRect_none (n : Node) {b : Nat} (h : bitOf b 136 = false) : n.inRect (pktRect b) = true := by
  rw [pktRect, h]
  rfl

theorem preempt_packet {n : Node} {sl : Nat × Nat} (h : s.Submits x p 7) (hn : s.dev.nodes = [n]) (hst : n.st = .running)
    (hm : s.dev.migrations = []) (hctx : (s.dev.graphOf n).ctx = bitsOf p.bits 128 8) (hrect : bitOf p.bits 136 = false)
    (hpre : n.preempt = true) (hsl : s.dev.takeSlots n = (some sl, s.dev.draw)) :
    ∃ u, exec (.preemptPacket x.q) s = .next u ∧ u.core = s.core ∧ u.dev.nodes = [{ n with
      slots := some sl, stoppedRegions := [], held := true, st := .stopping, stopDue := false }] := by
  have hfilter : (s.dev.nodes.filter fun (n : Node) => (n.st == .running || n.st == .loading) &&
      (s.dev.graphOf n).ctx == bitsOf p.bits 128 8 && n.inRect (pktRect p.bits)) = [n] := by
    rw [hn]
    simp [hst, hctx, n.inRect_none hrect]
  have hnode : s.dev.node? n.id = some n := by
    rw [Device.node?, hn]
    simp
  obtain ⟨w, hw⟩ : ∃ w, w = s.beginStop n.id true := ⟨_, rfl⟩
  have hwn : w.dev.nodes = [{ n with slots := some sl, stoppedRegions := [], held := true, st := .stopping, stopDue := false }] ∧
      w.core = s.core := by
    have hmove : ∀ m, s.dev.draw.moving m = false := by
      intro m
      rw [Device.moving]
      show s.dev.migrations.any _ = false
      rw [hm]
      rfl
    rw [hw, State.beginStop, hnode]
    dsimp only
    rw [hsl]
    dsimp only
    rw [State.beginStopAt]
    dsimp only
    rw [hpre]
    simp only [hmove]
    refine ⟨?_, rfl⟩
    show s.dev.nodes.map _ = _
    rw [hn]
    simp [hst]
  have hexec : exec (.preemptPacket x.q) s = .next (State.afterStart { w with dev := w.dev.startPacket x.q p.uid [n.id] } x.q) := by
    show execPreemptPacket x.q s = _
    rw [execPreemptPacket, h.begun]
    dsimp only
    rw [State.preemptNodes]
    rw [hfilter, List.foldl_cons, List.foldl_nil, ← hw]
    rfl
  obtain ⟨h1, -, h3, -⟩ := State.afterStart_frame { w with dev := w.dev.startPacket x.q p.uid [n.id] } x.q
  exact ⟨_, hexec, h1.trans hwn.2, h3.trans hwn.1⟩

theorem resume_packet {n : Node} (h : s.Submits x p 8) (hn : s.dev.nodes = [n]) (hheld : n.held = true) (hst : n.st = .saved)
    (hctx : (s.dev.graphOf n).ctx = bitsOf p.bits 128 8) (hrect : bitOf p.bits 136 = false) :
    exec (.resume x.q) s = .next { s with dev := { s.dev with
      nodes := [{ n with held := false, st := .ready, agedAt := s.dev.now }], queues := [{ x with packets := [] }] } } := by
  obtain ⟨d, hd⟩ : ∃ d : Device, d = { s.dev with nodes := [{ n with held := false, st := .ready, agedAt := s.dev.now }] } := ⟨_, rfl⟩
  have hmap : (s.dev.nodes.map fun (m : Node) =>
      if m.held && (s.dev.graphOf m).ctx == bitsOf p.bits 128 8 && m.inRect (pktRect p.bits) then
        { m with held := false, st := if m.st == NodeSt.saved then NodeSt.ready else m.st
                 agedAt := if m.st == NodeSt.saved then s.dev.now else m.agedAt }
      else m) = [{ n with held := false, st := .ready, agedAt := s.dev.now }] := by
    rw [hn]
    simp [hheld, hctx, n.inRect_none hrect, hst]
  have hfree : d.freeReady = d := by
    rw [Device.freeReady, hd]
    simp
  have hdone := State.completed (s := s) (dv := d) (x := x) (p := p) (by rw [hd]; exact h.alone) h.single h.quiet
  show execResume x.q s = _
  rw [execResume, h.begun]
  dsimp only
  rw [hmap, ← hd, hfree, hdone, hd]

theorem lichen_packet {c : Coord} {y : Pos} {r : Region} (h : s.Submits x p 9) (hrect : pktRect p.bits = some ⟨c.row, c.row, c.col, c.col⟩)
    (hc : coordOk c = true) (ha : s.dev.absent c = false) (hy : s.dev.posOf c = some y) (hr : s.dev.regions[y.region]? = some r) :
    ∃ u, exec (.lichen x.q) s = .next u ∧ u.core = s.core ∧
      u.dev.regions[y.region]? = some { r with wanted := r.wanted ++ [(y, p.uid)] } := by
  have hcoords : (⟨c.row, c.row, c.col, c.col⟩ : Rect).coords = [c] := by simp [Rect.coords, upTo]
  obtain ⟨d, hd⟩ : ∃ d, d = s.dev.withRegion y.region fun r => { r with wanted := r.wanted ++ [(y, p.uid)] } := ⟨_, rfl⟩
  have hexec : exec (.lichen x.q) s = .next (State.afterStart { s with dev := d.startPacket x.q p.uid [] } x.q) := by
    have hps : ((((pktRect p.bits).getD wholeGrid).coords.filter fun c => coordOk c && !s.dev.absent c).filterMap s.dev.posOf) = [y] := by
      rw [hrect, Option.getD_some, hcoords]
      simp [hc, ha, hy]
    show execLichen x.q s = _
    rw [execLichen, h.begun]
    dsimp only
    rw [State.lichenPacket]
    rw [hps, List.foldl_cons, List.foldl_nil, ← hd]
  obtain ⟨h1, -, -, h4⟩ := State.afterStart_frame { s with dev := d.startPacket x.q p.uid [] } x.q
  refine ⟨_, hexec, h1, ?_⟩
  have hkeep : (d.startPacket x.q p.uid []).regions = d.regions := rfl
  rw [h4, hkeep, hd]
  exact Device.withRegion_at hr _

theorem Tile.emptyBuffer_of_no_accs {t : Tile} (h : t.accs = []) : t.emptyBuffer = t.withPad fun y => { y with buf := [] } := by
  rw [Tile.emptyBuffer, Tile.forgetLines, h]
  simp [Tile.withPad, h]

/-- A tile of a context that a MAPSYNC names has its read buffer emptied. -/
def Tile.unbuffered (ctxs : List Nat) (t : Tile) : Tile := if ctxs.elem t.ctx then t.withPad fun y => { y with buf := [] } else t

theorem mapsync_packet (h : s.Submits x p 10) (hidle : ∀ t ∈ s.core :: s.others, t.accs = [] ∧ t.guards = [] ∧ t.lockKeys = []) :
    exec (.mapsync x.q) s = .next { s with
      core := s.core.unbuffered (pktContexts p.bits), others := s.others.map (Tile.unbuffered (pktContexts p.bits)),
      dev := { s.dev with queues := [{ x with packets := [] }], cache := s.dev.cache.filter fun c => !(pktContexts p.bits).elem c.ctx } } := by
  obtain ⟨ctxs, hctxs⟩ : ∃ ctxs, ctxs = pktContexts p.bits := ⟨_, rfl⟩
  have hnone : s.translated ctxs = [] := by
    refine List.flatMap_eq_nil_iff.mpr fun t ht => ?_
    obtain ⟨haccs, hguards, hlocks⟩ := hidle t ht
    rw [haccs, hguards, hlocks]
    split <;> rfl
  have hclear : ∀ t ∈ s.core :: s.others, (if ctxs.elem t.ctx then t.emptyBuffer else t) = t.unbuffered ctxs := fun t ht => by
    rw [Tile.unbuffered, Tile.emptyBuffer_of_no_accs (hidle t ht).1]
  obtain ⟨p', hp'⟩ : ∃ p' : Packet, p' = { p with started := true, waits := [] } := ⟨_, rfl⟩
  obtain ⟨u, hu⟩ : ∃ u : State, u = { s with
    core := s.core.unbuffered ctxs, others := s.others.map (Tile.unbuffered ctxs),
    dev := { s.dev with queues := [{ x with packets := [p'] }], cache := s.dev.cache.filter fun c => !ctxs.elem c.ctx } } := ⟨_, rfl⟩
  have hdone : u.packetDone { x with packets := [p'] } p' = true := by
    have hst : p'.started = true := by rw [hp']
    have hw : p'.waits = [] := by rw [hp']
    have hty : pktType p'.bits = 10 := by rw [hp']; exact h.kind
    rw [State.packetDone, hst, hty, hw]
    simp
  have hafter := State.afterStart_done (s := u) (x := { x with packets := [p'] }) (p := p') (by rw [hu]) rfl hdone
    (by rw [hp']; exact h.quiet)
  have hexec : exec (.mapsync x.q) s = .next (u.afterStart x.q) := by
    show execMapsync x.q s = _
    rw [execMapsync, h.begun]
    dsimp only
    rw [← hctxs, hnone, Device.startPacket, Device.withPacket_alone h.alone h.single, ← hp', hclear s.core List.mem_cons_self,
      List.map_congr_left (fun t ht => hclear t (List.mem_cons_of_mem _ ht)), hu]
  rw [hexec]
  refine congrArg _ (hafter.trans ?_)
  rw [hu, hctxs]

/-! QBROKEN (R361, R362, R367). -/

theorem foldl_min_le (l : List Nat) (a : Nat) : l.foldl Nat.min a ≤ a ∧ ∀ i ∈ l, l.foldl Nat.min a ≤ i := by
  induction l generalizing a with
  | nil => exact ⟨le_rfl, fun i hi => absurd hi List.not_mem_nil⟩
  | cons j l ih =>
    obtain ⟨h1, h2⟩ := ih (Nat.min a j)
    rw [List.foldl_cons]
    refine ⟨h1.trans (Nat.min_le_left _ _), fun i hi => ?_⟩
    rcases List.mem_cons.mp hi with rfl | hi
    · exact h1.trans (Nat.min_le_right _ _)
    · exact h2 i hi

/-- Whether a packet stays in the table that is rebuilt from a checkpoint. -/
def Packet.stays (y : Packet) (c : Queue) (rdpub : Nat) : Prop :=
  y.started = true ∨ ((∃ k ∈ c.packets, k.uid = y.uid) ∧ ∀ i, y.ix = some i → i < rdpub)

/-- The packets that a rebuilt table admits beside those that have started: what was taken before RDPUB. -/
def Packet.published (rdpub : Nat) (y : Packet) : Bool := (y.ix.map fun i => decide (i < rdpub)).getD true

theorem Packet.published_iff (y : Packet) (n : Nat) : y.published n = true ↔ ∀ i, y.ix = some i → i < n := by
  rw [Packet.published]
  cases y.ix with
  | none => simp
  | some i => simp

theorem Packet.stays_iff (y : Packet) (c : Queue) (n : Nat) :
    (y.started || (y.published n && c.packets.any (·.uid == y.uid))) = true ↔ y.stays c n := by
  rw [Packet.stays, Bool.or_eq_true, Bool.and_eq_true, Packet.published_iff, List.any_eq_true]
  simp only [beq_iff_eq]
  rw [and_comm]

/-- A rebuilt table holds the packets that stay, each as it was but for where its indirect buffer is taken on. -/
theorem Queue.rebuilt_packets (x c : Queue) (base : Nat) (keep : Packet → Bool) : ∃ g : Packet → Packet,
    (∀ y, (g y).uid = y.uid ∧ (g y).bits = y.bits ∧ (g y).started = y.started) ∧
    (x.rebuilt c base keep).packets = (x.packets.filter fun p => p.started || (keep p && c.packets.any (·.uid == p.uid))).map g := by
  refine ⟨_, fun y => ?_, rfl⟩
  split
  · split <;> exact ⟨rfl, rfl, rfl⟩
  · exact ⟨rfl, rfl, rfl⟩

/-- What a rebuilt table holds, and how far back its queue goes. -/
theorem Queue.rebuilt_holds (x c : Queue) (n : Nat) : (x.rebuilt c n (Packet.published n)).rd ≤ n ∧
    (∀ y ∈ x.packets, y.started = true → ∃ z ∈ (x.rebuilt c n (Packet.published n)).packets, z.uid = y.uid ∧ z.started = true) ∧
    (∀ z ∈ (x.rebuilt c n (Packet.published n)).packets, ∃ y ∈ x.packets, y.uid = z.uid ∧ y.bits = z.bits ∧ y.stays c n) ∧
    (∀ y ∈ x.packets, ¬ y.stays c n → ∀ i, y.ix = some i → (x.rebuilt c n (Packet.published n)).rd ≤ i) := by
  obtain ⟨g, hg, hpackets⟩ := x.rebuilt_packets c n (Packet.published n)
  rw [hpackets]
  refine ⟨(foldl_min_le _ _).1.trans (Nat.min_le_left _ _), fun y hy hst => ?_, fun z hz => ?_, fun y hy hno i hi => ?_⟩
  · obtain ⟨huid, -, hstarted⟩ := hg y
    exact ⟨g y, List.mem_map_of_mem (List.mem_filter.mpr ⟨hy, by rw [hst]; rfl⟩), huid, hstarted.trans hst⟩
  · obtain ⟨y, hy, rfl⟩ := List.mem_map.mp hz
    obtain ⟨huid, hbits, -⟩ := hg y
    obtain ⟨hmem, hstay⟩ := List.mem_filter.mp hy
    exact ⟨y, hmem, huid.symm, hbits.symm, (y.stays_iff c n).mp hstay⟩
  · refine (foldl_min_le _ _).2 i (List.mem_filterMap.mpr ⟨y, List.mem_filter.mpr ⟨hy, ?_⟩, hi⟩)
    rw [Bool.not_eq_true', Bool.eq_false_iff]
    exact fun h => hno ((y.stays_iff c n).mp h)

/-- Counting an error in a region changes no checkpoint. -/
theorem Device.checkOf_count (dv : Device) (r q n : Nat) :
    (dv.withRegion r fun x => { x with uecnt := (x.uecnt + n) % 2 ^ 32 }).checkOf q = dv.checkOf q := by
  have hcheck : ((dv.withRegion r fun x => { x with uecnt := (x.uecnt + n) % 2 ^ 32 }).region (q / 64)).check = (dv.region (q / 64)).check := by
    unfold Device.withRegion
    split
    · next x hx =>
      rw [Device.region, Device.region]
      dsimp only
      by_cases hq : r = q / 64
      · subst hq
        rw [List.getElem?_set_self (List.getElem?_eq_some_iff.mp hx).1, hx]
        rfl
      · rw [List.getElem?_set_ne hq]
    · rfl
  rw [Device.checkOf, Device.checkOf, hcheck]

/-- What QBROKEN does to a queue whose checkpoint is readable or not. -/
def Device.brokenQueue (d : Device) (q : Nat) (o : Option Queue) : Device :=
  match o with
  | none => d.haltQueue q .qbroken none true
  | some c =>
    let dv := d.withQueue q fun x => x.rebuilt c x.rdpub (Packet.published x.rdpub)
    ({ dv with free := dv.free + 2 }).report (recordOf (dv.queue q).ctx 8 .qbroken false (q / 64) 0 q (dv.queueInfo none))

theorem Device.haltQueue_regions (d : Device) (q : Nat) (cause : Cause) (utag : Option Nat) (fatal : Bool) :
    (d.haltQueue q cause utag fatal).regions = d.regions := by
  have hset : (d.setQState q 3).regions = d.regions := (Device.putPhys_reports _ _ _ _).regions
  rw [Device.haltQueue]
  split
  · exact (Device.report_reports _ _).regions.trans hset
  · rw [Device.event]
    have hm := (Device.message_reports { d.setQState q 3 with free := (d.setQState q 3).free + 2 }
      ((({ d.setQState q 3 with free := (d.setQState q 3).free + 2 } : Device).grantOf q).1) 0).regions
    split <;> exact hm.trans hset

theorem Device.brokenQueue_regions (d : Device) (q : Nat) (o : Option Queue) : (d.brokenQueue q o).regions = d.regions := by
  cases o with
  | none => exact d.haltQueue_regions q _ _ _
  | some c =>
    rw [Device.brokenQueue]
    exact (Device.report_reports _ _).regions

theorem queue_broken (hq : s.dev.queues = [x]) : ∃ u, exec (.qbroken x.q) s = .next u ∧ u.core = s.core ∧ u.others = s.others ∧
    (∀ r, s.dev.regions[s.dev.server x.q]? = some r →
      (u.dev.regions[s.dev.server x.q]?).map (·.uecnt) = some ((r.uecnt + 1) % 2 ^ 32)) ∧
    ((u.dev.queue x.q).state = 3 ∨ ∃ c, s.dev.checkOf x.q = some c ∧
      u.dev.queue x.q = x.rebuilt c x.rdpub (Packet.published x.rdpub)) := by
  obtain ⟨d, hd⟩ : ∃ d, d = s.dev.draw.withRegion (s.dev.server x.q) fun x => { x with uecnt := (x.uecnt + 1) % 2 ^ 32 } := ⟨_, rfl⟩
  have hdq : d.queues = [x] := by
    rw [hd]
    unfold Device.withRegion
    split <;> exact hq
  have hcount : ∀ (u : Device), u.regions = d.regions → ∀ r, s.dev.regions[s.dev.server x.q]? = some r →
      (u.regions[s.dev.server x.q]?).map (·.uecnt) = some ((r.uecnt + 1) % 2 ^ 32) := by
    intro u hu r hr
    rw [hu, hd, Device.withRegion_at (dv := s.dev.draw) hr, Option.map_some]
  have hcheck : d.checkOf x.q = s.dev.checkOf x.q := by
    rw [hd]
    exact s.dev.draw.checkOf_count _ _ 1
  obtain ⟨o, ho⟩ : ∃ o, o = (if Config.freeBit s.dev.free then none else d.checkOf x.q) := ⟨_, rfl⟩
  have hexec : exec (.qbroken x.q) s = .next { s with dev := d.brokenQueue x.q o } := by
    show execQbroken x.q s = _
    rw [execQbroken, ho, hd]
    rfl
  refine ⟨_, hexec, rfl, rfl, hcount _ (d.brokenQueue_regions x.q o), ?_⟩
  cases hoc : o with
  | none => exact .inl (congrArg Queue.state (Device.queue_alone (x := { x with state := 3 }) (Device.haltQueue_alone hdq)))
  | some c =>
    have hsome : s.dev.checkOf x.q = some c := by
      rw [← hcheck]
      rw [ho] at hoc
      split at hoc
      · exact absurd hoc (by simp)
      · exact hoc
    refine .inr ⟨c, hsome, ?_⟩
    have hwith : (d.withQueue x.q fun x => x.rebuilt c x.rdpub (Packet.published x.rdpub)).queues =
        [x.rebuilt c x.rdpub (Packet.published x.rdpub)] := by rw [Device.withQueue_alone hdq rfl]
    have hrep := (Device.report_reports { d.withQueue x.q fun x => x.rebuilt c x.rdpub (Packet.published x.rdpub) with
      free := (d.withQueue x.q fun x => x.rebuilt c x.rdpub (Packet.published x.rdpub)).free + 2 }
      (recordOf ((d.withQueue x.q fun x => x.rebuilt c x.rdpub (Packet.published x.rdpub)).queue x.q).ctx 8 .qbroken false (x.q / 64) 0 x.q
        ((d.withQueue x.q fun x => x.rebuilt c x.rdpub (Packet.published x.rdpub)).queueInfo none))).queues
    exact Device.queue_alone (x := x.rebuilt c x.rdpub (Packet.published x.rdpub)) (hrep.trans hwith)

end

/-- Settles O53: each packet by what its start does to a queue that stands alone, QBROKEN by what the rebuilt table holds. -/
theorem packetSteps : Obligations.PacketSteps := by
  intro s x p dv q done field ctxs clear
  refine ⟨nop_packet, fun h g d' hv hr hw _ hn hg => launch_packet h hv hr hw hn hg, ibcall_packet, signal_packet,
    fun c h hw hq => signal_faults h hw hq, fun bytes hq hp hst _ hty hquiet hx hr hdq => ?_, copy_packet,
    fun n sl h hn hst hm hctx hrect hpre hsl hdv => preempt_packet h hn hst hm hctx hrect hpre (hdv ▸ hsl),
    fun n h hn hheld hst hctx hrect => resume_packet h hn hheld hst hctx hrect,
    fun c y r h hrect hc ha hy hr => lichen_packet h hrect hc ha hy hr, mapsync_packet, fun hq => ?_⟩
  · split
    · next hmet => exact waitv_met hq hp hst hty hquiet hx hr hdq hmet
    · next hmet => exact waitv_unmet hq hp hst hty hr hmet
  · obtain ⟨u, he, hcore, hothers, hcount, hend⟩ := queue_broken hq
    refine ⟨u, he, hcore, hothers, hcount, hend.imp_right ?_⟩
    rintro ⟨c, hc, hqu⟩
    obtain ⟨h1, h2, h3, h4⟩ := x.rebuilt_holds c x.rdpub
    rw [← hqu] at h1 h2 h3 h4
    refine ⟨c, hc, h1, h2, h3, fun y hy hst hno => h4 y hy ?_⟩
    rintro (h | ⟨hk, hi⟩)
    · rw [hst] at h
      exact Bool.false_ne_true h
    · rcases hno with hno | ⟨i, hix, hle⟩
      · exact hno hk
      · exact absurd (hi i hix) (by omega)

end Sys2Proof.Machine
end

section
/-! SUPPORT. What an access to memory leaves of the device (R59 to R78). -/

namespace Sys2Proof.Machine

/-- A device that differs from another only in what an access to memory changes: memories and their marks, caches, locks, ready
records, events, free values. -/
structure Device.Serves (dv u : Device) : Prop where
  kiln : u.kiln = dv.kiln
  net : u.net = dv.net
  queues : u.queues = dv.queues
  graphs : u.graphs = dv.graphs
  nodes : u.nodes = dv.nodes
  loops : u.loops = dv.loops
  migrations : u.migrations = dv.migrations
  regions : u.regions = dv.regions
  power : u.power = dv.power
  waits : u.waits = dv.waits
  bar0 : u.bar0 = dv.bar0
  boxes : u.boxes = dv.boxes
  ports : u.ports = dv.ports
  exposures : u.exposures = dv.exposures

theorem Device.Serves.refl (dv : Device) : dv.Serves dv := ⟨rfl, rfl, rfl, rfl, rfl, rfl, rfl, rfl, rfl, rfl, rfl, rfl, rfl, rfl⟩

theorem Device.Serves.trans {a b c : Device} (h : a.Serves b) (k : b.Serves c) : a.Serves c where
  kiln := k.kiln.trans h.kiln
  net := k.net.trans h.net
  queues := k.queues.trans h.queues
  graphs := k.graphs.trans h.graphs
  nodes := k.nodes.trans h.nodes
  loops := k.loops.trans h.loops
  migrations := k.migrations.trans h.migrations
  regions := k.regions.trans h.regions
  power := k.power.trans h.power
  waits := k.waits.trans h.waits
  bar0 := k.bar0.trans h.bar0
  boxes := k.boxes.trans h.boxes
  ports := k.ports.trans h.ports
  exposures := k.exposures.trans h.exposures

theorem Device.Serves.foldl {α : Type} {f : Device → α → Device} (h : ∀ dv x, Device.Serves dv (f dv x)) (l : List α) (dv : Device) :
    dv.Serves (l.foldl f dv) := by
  induction l generalizing dv with
  | nil => exact .refl dv
  | cons x l ih => exact (h dv x).trans (ih (f dv x))

theorem Device.Reports.serves {dv u : Device} (h : dv.Reports u) : dv.Serves u :=
  ⟨h.kiln, h.net, h.queues, h.graphs, h.nodes, h.loops, h.migrations, h.regions, h.power, h.waits, h.bar0, h.boxes, h.ports, h.exposures⟩

theorem Device.free_serves (dv : Device) (n : Nat) : dv.Serves { dv with free := n } :=
  ⟨rfl, rfl, rfl, rfl, rfl, rfl, rfl, rfl, rfl, rfl, rfl, rfl, rfl, rfl⟩

theorem Device.draw_serves (dv : Device) : dv.Serves dv.draw := dv.free_serves _

theorem Device.cache_serves (dv : Device) (l : List Cached) : dv.Serves { dv with cache := l } :=
  ⟨rfl, rfl, rfl, rfl, rfl, rfl, rfl, rfl, rfl, rfl, rfl, rfl, rfl, rfl⟩

theorem Device.lines_serves (dv : Device) (m : Memory) (l : List (Nat × Nat)) (p b s : NatSet) :
    dv.Serves { dv with hbm := m, soft := s, seals := l, bad := b, poison := p } :=
  ⟨rfl, rfl, rfl, rfl, rfl, rfl, rfl, rfl, rfl, rfl, rfl, rfl, rfl, rfl⟩

/-! Ready records. -/

theorem Device.setReady_serves (dv : Device) (n : Nat) (f : Ready → Ready) : dv.Serves (dv.setReady n f) := by
  unfold Device.setReady
  split
  · exact .refl dv
  · exact ⟨rfl, rfl, rfl, rfl, rfl, rfl, rfl, rfl, rfl, rfl, rfl, rfl, rfl, rfl⟩

theorem Device.setEntries_serves (dv : Device) : dv.Serves dv.setEntries := by
  refine .foldl (fun d r => ?_) _ _
  rw [Device.setEntry]
  exact d.setReady_serves _ _

theorem Device.clearStack_serves (dv : Device) (p : Nat) : dv.Serves (dv.clearStack p) := dv.lines_serves _ _ _ _ _

theorem Device.portBringUp_serves (dv : Device) (p : Nat) : dv.Serves (dv.portBringUp p) := by
  unfold Device.portBringUp
  split
  · exact .refl dv
  · split
    · exact (dv.draw_serves.trans (Device.setReady_serves _ _ _)).trans (Device.setEntries_serves _)
    · exact ((dv.draw_serves.trans (Device.clearStack_serves _ _)).trans (Device.setReady_serves _ _ _)).trans
        (Device.setEntries_serves _)

theorem Device.waited_serves (dv : Device) (x : Xlat) : dv.Serves (dv.waited x) := by
  unfold Device.waited
  split
  · exact .foldl (fun d a => d.portBringUp_serves _) _ _
  · exact .refl dv

theorem Device.countPort_serves (dv : Device) (p : Nat) : dv.Serves (dv.countPort p) := dv.setReady_serves _ _

/-! Lines. -/

theorem Device.correct_serves (dv : Device) (line : Nat) : dv.Serves (dv.correct line) := by
  unfold Device.correct
  split
  · exact .refl dv
  · exact (dv.lines_serves dv.hbm dv.seals dv.poison dv.bad _).trans (Device.setReady_serves _ _ _)

theorem Device.meetLine_serves (dv : Device) (line : Nat) : dv.Serves (dv.meetLine line) := by
  unfold Device.meetLine
  split
  · exact dv.countPort_serves _
  · exact dv.correct_serves line

theorem Device.meet_serves (dv : Device) (a n : Nat) : dv.Serves (dv.meet a n) := by
  unfold Device.meet
  split
  · exact .foldl Device.meetLine_serves _ _
  · exact .refl dv

theorem Device.writeLine_serves (dv : Device) (line off : Nat) (bytes : List Byte) (key : Option Nat) (pz : Bool) :
    dv.Serves (dv.writeLine line off bytes key pz) := by
  have hread (b w : Bool) : dv.Serves (if b then dv.countPort (stackOf line) else if w then dv else dv.correct line) := by
    split
    · exact dv.countPort_serves _
    · split
      · exact .refl dv
      · exact dv.correct_serves line
  unfold Device.writeLine
  exact (hread _ _).trans (Device.lines_serves _ _ _ _ _ _)

/-! Translation. -/

theorem Device.table_serves (dv : Device) (port ctx a n : Nat) : dv.Serves (dv.table port ctx a n).2 := by
  unfold Device.table
  dsimp only
  generalize (if dv.tableLost a n = true then _ else _) = m
  split
  · split
    · exact .refl dv
    · split
      · exact dv.draw_serves
      · exact (dv.draw_serves.trans (Device.cache_serves _ _)).trans (Device.meet_serves _ _ _)
  · exact (dv.cache_serves _).trans (Device.meet_serves _ _ _)

theorem Device.findRange_serves (port ctx rt va fuel e : Nat) (dv : Device) :
    dv.Serves (Device.findRange port ctx rt va fuel e dv).2 := by
  induction fuel generalizing e dv with
  | zero => exact .refl dv
  | succ fuel ih =>
    rw [Device.findRange]
    split
    · exact dv.table_serves _ _ _ _
    · exact (dv.table_serves _ _ _ _).trans (ih _ _)

theorem Device.spanPick_serves (dv : Device) (port ctx t idx pte : Nat) : dv.Serves (dv.spanPick port ctx t idx pte).2 := by
  unfold Device.spanPick
  dsimp only
  split
  · exact (dv.table_serves _ _ _ _).trans (Device.draw_serves _)
  · exact .refl dv

theorem Device.walk_serves (port ctx va : Nat) (write : Bool) (hport lvl t : Nat) (dv : Device) :
    dv.Serves (Device.walk port ctx va write hport lvl t dv).2 := by
  induction lvl generalizing t dv with
  | zero => exact .refl dv
  | succ lvl ih =>
    have htable := dv.table_serves port ctx (t + 8 * bitsOf va (12 + 8 * lvl) 8) 8
    rw [Device.walk]
    dsimp only
    generalize dv.table port ctx (t + 8 * bitsOf va (12 + 8 * lvl) 8) 8 = r at htable
    split
    · exact htable
    split
    · exact htable
    split
    · repeat' split
      · exact htable
      · exact htable
      · exact htable.trans (ih _ _)
    have hspan := htable.trans (r.2.spanPick_serves port ctx t (bitsOf va (12 + 8 * lvl) 8) r.1)
    generalize r.2.spanPick port ctx t (bitsOf va (12 + 8 * lvl) 8) r.1 = q at hspan
    repeat' split
    all_goals exact hspan

theorem Device.translate_serves (dv : Device) (port ctx va : Nat) (write : Bool) : dv.Serves (dv.translate port ctx va write).2 := by
  have hfind := (dv.table_serves port ctx (dv.descAt ctx) 128).trans
    (Device.findRange_serves port ctx (bitsOf (dv.table port ctx (dv.descAt ctx) 128).1 0 64) va 64 0 _)
  unfold Device.translate
  dsimp only
  split
  · exact hfind
  · split
    · exact hfind.trans (Device.draw_serves _)
    · exact hfind.trans (Device.walk_serves _ _ _ _ _ _ _ _)

/-! Targets. -/

theorem Device.readNearest_serves (port : Nat) (key : Option Nat) (rep : Bool) (fuel : Nat) (l : List Nat) (c : Cause) (dv : Device) :
    dv.Serves (Device.readNearest port key rep fuel l c dv).2 := by
  induction fuel generalizing l c dv with
  | zero => exact .refl dv
  | succ fuel ih =>
    rw [Device.readNearest]
    split
    · exact .refl dv
    · split
      · exact .refl dv
      · dsimp only
        split
        · exact dv.correct_serves _
        · refine .trans ?_ (ih _ _ _)
          split
          · exact (dv.countPort_serves _).trans (Device.lines_serves _ _ _ _ _ _)
          · exact dv.countPort_serves _

theorem Device.readTarget_serves (dv : Device) (port ctx : Nat) (x : Xlat) : dv.Serves (dv.readTarget port ctx x).2 := by
  unfold Device.readTarget
  split
  · exact .refl dv
  · split
    · exact Device.readNearest_serves _ _ _ _ _ _ _
    · split
      · exact .refl dv
      · split
        · exact .refl dv
        · split
          · exact dv.draw_serves
          · exact dv.free_serves _

theorem Device.writeTarget_serves (dv : Device) (ctx : Nat) (x : Xlat) (bytes : List Byte) (pz : Bool) :
    dv.Serves (dv.writeTarget ctx x bytes pz).2 := by
  unfold Device.writeTarget
  split
  · exact .refl dv
  · split
    · split
      · exact .refl dv
      · exact dv.writeLine_serves _ _ _ _ _
    · split
      · split
        · exact (dv.hostWrite_reports _ _ _ _).serves
        · exact .refl dv
      · split
        · exact .refl dv
        · exact dv.draw_serves

theorem Device.commit_serves (dv : Device) (ctx : Nat) (x : Xlat) (bytes : List Byte) (pz : Bool) :
    dv.Serves (dv.commit ctx x bytes pz).2 := by
  unfold Device.commit
  split
  · exact .refl dv
  · split
    · exact .refl dv
    · exact .foldl (fun d a => d.writeLine_serves _ _ _ _ _) _ _

theorem Device.storeTarget_serves (dv : Device) (ctx : Nat) (x : Xlat) (bytes : List Byte) (pz : Bool) :
    dv.Serves (dv.storeTarget ctx x bytes pz).2 := by
  unfold Device.storeTarget
  split
  · exact dv.writeTarget_serves _ _ _ _
  · exact dv.commit_serves _ _ _ _

theorem Device.unlocked_serves (dv : Device) (x : Xlat) : dv.Serves (dv.unlocked x) :=
  ⟨rfl, rfl, rfl, rfl, rfl, rfl, rfl, rfl, rfl, rfl, rfl, rfl, rfl, rfl⟩

theorem Device.lastRead_serves (dv : Device) (ctx : Nat) (x : Xlat) : dv.Serves (dv.lastRead ctx x).2 := by
  have hread := dv.readTarget_serves (stackOf x.pa) ctx x
  unfold Device.lastRead
  dsimp only
  split
  · exact hread
  · split
    · exact hread.trans (Device.draw_serves _)
    · exact ((hread.trans (Device.draw_serves _)).trans (Device.unlocked_serves _ x)).trans (Device.readTarget_serves _ _ _ _)

/-! The accesses of a Hearth. -/

theorem Device.hearthRead_serves (ctx : Nat) (l : List (Nat × Nat)) (dv : Device) : dv.Serves (Device.hearthRead ctx l dv).2 := by
  induction l generalizing dv with
  | nil => exact .refl dv
  | cons y l ih =>
    obtain ⟨a, n⟩ := y
    have htr := dv.translate_serves 40 ctx a false
    rw [Device.hearthRead]
    dsimp only
    split
    · exact htr
    · have hread := (htr.trans (Device.waited_serves _ ‹Xlat›)).trans (Device.lastRead_serves _ ctx ‹Xlat›)
      split
      · exact hread
      · exact hread.trans (ih _)

theorem Device.hRead_serves (dv : Device) (ctx a n : Nat) : dv.Serves (dv.hRead ctx a n).2 := Device.hearthRead_serves _ _ _

theorem Device.hWrite_serves (dv : Device) (ctx a : Nat) (bytes : List Byte) : dv.Serves (dv.hWrite ctx a bytes).2 := by
  have htr := dv.translate_serves 40 ctx a true
  unfold Device.hWrite
  dsimp only
  split
  · exact htr
  · refine .trans ?_ (Device.storeTarget_serves _ _ _ _ _)
    split
    · exact (htr.trans (Device.waited_serves _ _)).trans (Device.unlocked_serves _ _)
    · exact htr.trans (Device.waited_serves _ _)

end Sys2Proof.Machine
end

section
/-! SUPPORT. The life of a node: launch, start, completion, failure, records that waited (R133 to R139, R335). -/

namespace Sys2Proof.Machine

/-! What queues that halt or settle leave of the device. -/

/-- A device that differs from another only in its queues and in what an access to memory or an event changes. -/
structure Device.Settles (dv u : Device) : Prop where
  kiln : u.kiln = dv.kiln
  net : u.net = dv.net
  graphs : u.graphs = dv.graphs
  nodes : u.nodes = dv.nodes
  loops : u.loops = dv.loops
  migrations : u.migrations = dv.migrations
  regions : u.regions = dv.regions
  power : u.power = dv.power
  waits : u.waits = dv.waits
  bar0 : u.bar0 = dv.bar0
  boxes : u.boxes = dv.boxes
  ports : u.ports = dv.ports
  exposures : u.exposures = dv.exposures

theorem Device.Settles.refl (dv : Device) : dv.Settles dv := ⟨rfl, rfl, rfl, rfl, rfl, rfl, rfl, rfl, rfl, rfl, rfl, rfl, rfl⟩

theorem Device.Settles.trans {a b c : Device} (h : a.Settles b) (k : b.Settles c) : a.Settles c where
  kiln := k.kiln.trans h.kiln
  net := k.net.trans h.net
  graphs := k.graphs.trans h.graphs
  nodes := k.nodes.trans h.nodes
  loops := k.loops.trans h.loops
  migrations := k.migrations.trans h.migrations
  regions := k.regions.trans h.regions
  power := k.power.trans h.power
  waits := k.waits.trans h.waits
  bar0 := k.bar0.trans h.bar0
  boxes := k.boxes.trans h.boxes
  ports := k.ports.trans h.ports
  exposures := k.exposures.trans h.exposures

theorem Device.Serves.settles {dv u : Device} (h : dv.Serves u) : dv.Settles u :=
  ⟨h.kiln, h.net, h.graphs, h.nodes, h.loops, h.migrations, h.regions, h.power, h.waits, h.bar0, h.boxes, h.ports, h.exposures⟩

theorem Device.Reports.settles {dv u : Device} (h : dv.Reports u) : dv.Settles u := h.serves.settles

theorem Device.setQueue_settles (dv : Device) (x : Queue) : dv.Settles (dv.setQueue x) :=
  ⟨rfl, rfl, rfl, rfl, rfl, rfl, rfl, rfl, rfl, rfl, rfl, rfl, rfl⟩

theorem Device.event_settles (dv : Device) (port : Nat) (byte : Byte) : dv.Settles (dv.event port byte) := by
  unfold Device.event
  dsimp only
  split
  · exact (dv.message_reports _ _).settles.trans ⟨rfl, rfl, rfl, rfl, rfl, rfl, rfl, rfl, rfl, rfl, rfl, rfl, rfl⟩
  · exact (dv.message_reports _ _).settles

theorem Device.setQState_settles (dv : Device) (q st : Nat) : dv.Settles (dv.setQState q st) :=
  (dv.setQueue_settles _).trans (Device.putPhys_reports _ _ _ _).settles

theorem Device.haltQueue_settles (dv : Device) (q : Nat) (cause : Cause) (utag : Option Nat) (fatal : Bool) :
    dv.Settles (dv.haltQueue q cause utag fatal) := by
  have hset := (dv.setQState_settles q 3).trans (Device.free_reports _ ((dv.setQState q 3).free + 2)).settles
  rw [Device.haltQueue]
  split
  · exact hset.trans (Device.report_reports _ _).settles
  · exact hset.trans (Device.event_settles _ _ _)

theorem State.settleQueue_settles (q fuel : Nat) (s : State) : s.dev.Settles (State.settleQueue q fuel s).dev := by
  induction fuel generalizing s with
  | zero => exact .refl _
  | succ fuel ih =>
    rw [State.settleQueue]
    dsimp only
    split
    · exact .refl _
    · refine .trans ?_ (ih _)
      dsimp only
      split
      · exact (Device.setQueue_settles _ _).trans (Device.message_reports _ _ _).settles
      · exact Device.setQueue_settles _ _

theorem State.settleQueues_settles (s : State) : s.dev.Settles s.settleQueues.dev := by
  have hall : ∀ (l : List Nat) (u : State),
      u.dev.Settles (l.foldl (fun s q => State.settleQueue q (s.dev.queue q).packets.length s) u).dev := by
    intro l
    induction l with
    | nil => exact fun _ => .refl _
    | cons q l ih => exact fun u => (State.settleQueue_settles _ _ u).trans (ih _)
  exact hall _ _

/-! The end of a graph (R354). -/

theorem Device.writeStatus_serves (dv : Device) (g : Graph) (st : Nat) : dv.Serves (dv.writeStatus g st).2 := by
  unfold Device.writeStatus
  split
  · exact dv.hWrite_serves _ _ _
  · exact .refl dv

theorem Device.withGraph_graphs {dv : Device} {g : Graph} {f : Graph → Graph} (h : dv.graphs = [g]) :
    (dv.withGraph g.id f).graphs = [f g] := by
  simp [Device.withGraph, h]

/-- A graph ends once none of its nodes is live and no record of its context waits; no node changes. -/
theorem Device.endGraph_ends {dv : Device} {g : Graph} (hg : dv.graphs = [g]) (he : g.ended = false)
    (hlive : (dv.nodes.any fun n => n.graph == g.id && n.st.live) = false) (hheld : (dv.ringOf g.ctx).held = []) :
    (dv.endGraph g.id).graphs = [{ g with ended := true }] ∧ (dv.endGraph g.id).nodes = dv.nodes ∧ (dv.endGraph g.id).loops = dv.loops := by
  have hfind : dv.graph? g.id = some g := by simp [Device.graph?, hg]
  have hgo : (g.ended || dv.nodes.any (fun n => n.graph == g.id && n.st.live) || (decide (0 < g.nfail) && !(dv.ringOf g.ctx).held.isEmpty))
      = false := by simp [he, hlive, hheld]
  have hserves := dv.writeStatus_serves g (if 0 < g.nfail then 2 else 1)
  have hwith := Device.withGraph_graphs (f := fun g => { g with ended := true }) (hserves.graphs.trans hg)
  unfold Device.endGraph
  rw [hfind]
  dsimp only
  rw [hgo, if_neg Bool.false_ne_true]
  split
  · have hhalt := ((dv.writeStatus g (if 0 < g.nfail then 2 else 1)).2.withGraph g.id fun g => { g with ended := true }).haltQueue_settles
      g.queue ‹Cause› (dv.launchTag g) false
    exact ⟨hhalt.graphs.trans hwith, hhalt.nodes.trans hserves.nodes, hhalt.loops.trans hserves.loops⟩
  · exact ⟨hwith, hserves.nodes, hserves.loops⟩

/-- A graph with a live node goes on. -/
theorem Device.endGraph_goes {dv : Device} {g : Nat} (hlive : (dv.nodes.any fun n => n.graph == g && n.st.live) = true) :
    dv.endGraph g = dv := by
  unfold Device.endGraph
  split
  · rfl
  · rw [hlive, Bool.or_true, Bool.true_or, if_pos rfl]

/-- Without loops, a graph that goes on ends where it may, and the queues settle. -/
theorem State.graphGoes_eq {s : State} {g : Nat} (hl : (s.dev.endGraph g).loops = []) :
    s.graphGoes g = (s.withDev fun dv => dv.endGraph g).settleQueues := by
  have hloops : (s.withDev fun dv => dv.endGraph g).settleQueues.dev.loops = [] :=
    (State.settleQueues_settles _).loops.trans hl
  unfold State.graphGoes
  dsimp only
  rw [hloops]
  rfl

/-! Launch (R134). -/

section

variable {s : State} {n : Node} {c : Coord} {im : Images} {ctl : Ctl} {g : Graph}

/-- Registers that a list of indices sets hold what it gives. -/
theorem foldl_setIfInBounds {m : Nat} (f : Nat → Word) {k : Nat} (hk : k + 1 < m) (l : List Nat) (v : Vector Word m)
    (h : k ∈ l ∨ v[k + 1]? = some (f (k + 1))) :
    (l.foldl (fun (v : Vector Word m) k => v.setIfInBounds (k + 1) (f (k + 1))) v)[k + 1]? = some (f (k + 1)) := by
  induction l generalizing v with
  | nil => exact h.resolve_left List.not_mem_nil
  | cons j l ih =>
    refine ih _ ?_
    by_cases hj : j = k
    · subst hj
      exact .inr (by simp [hk])
    · refine h.imp (fun h => (List.mem_cons.mp h).resolve_left (Ne.symm hj)) fun h => ?_
      rw [Vector.getElem?_setIfInBounds_ne (by omega)]
      exact h

theorem loadTile_args {k : Nat} (hk : k < 8) : (loadTile g n im ctl c).files.s[k + 1]? = some (n.arg (k + 1)) :=
  foldl_setIfInBounds n.arg (by omega) _ _ (.inl (List.mem_range.mpr hk))

theorem loadTile_code {k : Nat} {b : Byte} (h : im.code[k]? = some b) : (loadTile g n im ctl c).pad.code.read k = b := by
  have := Memory.read_put_inside (m := []) rfl (a := 0) h
  rwa [Nat.zero_add] at this

theorem loadTile_data {k : Nat} {b : Byte} (h : im.data[k]? = some b) :
    (loadTile g n im ctl c).pad.mem.read (16 * n.field 396 14 + k) = b :=
  Memory.read_put_inside (m := []) rfl h

theorem loadTile_data_at {k : Nat} (h : k < 16) : (loadTile g n im ctl c).files.a[k]? = if k = 15 then
    some (BitVec.ofNat 32 (16 * n.field 357 14)) else (Tile.zero c ⟨0, 0, 0⟩).files.a[k]? := by
  show ((Tile.zero c ⟨0, 0, 0⟩).files.a.setIfInBounds 15 _)[k]? = _
  split
  · next hk => subst hk; simp
  · next hk => rw [Vector.getElem?_setIfInBounds_ne (Ne.symm hk)]

theorem Ctl.place_fmt (x : Ctl) (n : Node) (c : Coord) : (x.place n c).fmt = x.fmt := by
  rw [Ctl.place]

theorem Ctl.launched_fmt (z : Ctl) (x y : Word) : ({ z with nodeid := x, ctxid := y } : Ctl).fmt = z.fmt := rfl

theorem loadTile_ctl (g : Graph) (n : Node) (im : Images) (ctl : Ctl) (c : Coord) :
    (loadTile g n im ctl c).ctl = { ctl.place n c with nodeid := nodeidOf g n, ctxid := BitVec.ofNat 32 g.ctx } := by
  rw [loadTile]

/-- A tile that takes its position keeps its task. -/
theorem Tile.settle_keeps (t : Tile) (dv : Device) (p : Pos) (frame : Nat) : ((t.settle dv p).beginStint frame).coord = t.coord ∧
    ((t.settle dv p).beginStint frame).sch = t.sch ∧ ((t.settle dv p).beginStint frame).pos = p ∧
    ((t.settle dv p).beginStint frame).files = t.files ∧ ((t.settle dv p).beginStint frame).pad.code = t.pad.code ∧
    ((t.settle dv p).beginStint frame).pad.mem = t.pad.mem ∧ ((t.settle dv p).beginStint frame).ctl = t.ctl ∧
    ((t.settle dv p).beginStint frame).outs = t.outs := ⟨rfl, rfl, rfl, rfl, rfl, rfl, rfl, rfl⟩

theorem Rect.rank_one (c : Coord) : (⟨c.row, c.row, c.col, c.col⟩ : Rect).rank c = 0 := by simp [Rect.rank]

theorem Node.primaryOf_one (hp : n.place = ⟨c.row, c.row, c.col, c.col⟩) : n.primaryOf c = c := by
  have : n.place.has c = true := by rw [hp]; simp [Rect.has]
  rw [Node.primaryOf, this, if_pos rfl]

theorem loadTile_entry (hp : n.place = ⟨c.row, c.row, c.col, c.col⟩) {k : Nat} (hk : k < 32) :
    ((loadTile g n im ctl c).outCh k).entry = im.route_ 0 k := by
  have hrank : n.place.rank (n.primaryOf c) = 0 := by rw [Node.primaryOf_one hp, hp, Rect.rank_one]
  unfold loadTile Tile.outCh
  simp [hk, hrank]

/-- A tile that takes a free place in turn. -/
theorem State.addTile_free {t : Tile} (h : s.core.sch.status = .idle) : s.addTile t = { s with core := t, bundle := none } := by
  unfold State.addTile
  exact if_pos (by simp [h])

theorem Device.withNode_one {dv : Device} {n : Node} (h : dv.nodes = [n]) (f : Node → Node) :
    dv.withNode n.id f = { dv with nodes := [f n] } := by
  simp [Device.withNode, h]

theorem Device.nodes_self {dv : Device} {l : List Node} (h : dv.nodes = l) : { dv with nodes := l } = dv := by
  subst h
  rfl

theorem launch_node {pos : Pos} {dv d0 : Device} {bytes : List Byte} (hn : s.dev.nodes = [n]) (hst : n.st = .claimed) (himg : n.image = [])
    (hcoords : n.coords = [c]) (hidle : s.core.sch.status = .idle) (ho : s.others = []) (hok : s.dev.placesOk n = true)
    (hr : s.dev.hRead (s.dev.graphOf n).ctx n.va 128 = (.ok bytes, d0)) (hb : bytesVal bytes = n.bits) (hd0 : d0.nodes = [n])
    (href : recRefusal n = none) (him : d0.readImages (s.dev.graphOf n).ctx n = (.ok im, dv))
    (hj : dv.judge (s.dev.graphOf n) n im = .ok ctl) (hdv : dv.nodes = [n]) (hpos : dv.posOf c = some pos) :
    exec (.launchNode n.id) s = .next { s with
      core := ((loadTile (s.dev.graphOf n) n im ctl c).settle dv pos).beginStint (dv.frameOf c)
      bundle := none
      dev := { dv with nodes := [{ n with st := .loading }] } } := by
  have hfind : s.dev.node? n.id = some n := by simp [Device.node?, hn]
  have hocc : s.dev.occupants n = [] := by simp [Device.occupants, hn]
  have hleft : s.leftover n = false := by simp [State.leftover, ho, hidle]
  have hwait : (n.st != .claimed || !n.image.isEmpty || !(s.dev.occupants n).isEmpty || s.leftover n) = false := by
    simp [hst, himg, hocc, hleft]
  have hbits : n.withBits bytes = n := by rw [Node.withBits, hb]
  have hsame : d0.withNode n.id (fun _ => n) = d0 := (Device.withNode_one hd0 _).trans (Device.nodes_self hd0)
  show Host.Outcome.next (s.launchNode n.id) = _
  rw [State.launchNode, hfind]
  dsimp only
  rw [hwait, if_neg Bool.false_ne_true, hok]
  rw [if_neg (by simp : ¬ (!true) = true), hr]
  dsimp only
  rw [hbits, State.withDev]
  dsimp only
  rw [hsame, href]
  dsimp only
  rw [him]
  dsimp only
  rw [hj]
  dsimp only
  have hplace : State.placeTile { s with dev := dv } (loadTile (s.dev.graphOf n) n im ctl c) = { s with
      core := ((loadTile (s.dev.graphOf n) n im ctl c).settle dv pos).beginStint (dv.frameOf c), bundle := none, dev := dv } := by
    have hpos' : dv.posOf (loadTile (s.dev.graphOf n) n im ctl c).coord = some pos := hpos
    rw [State.placeTile]
    dsimp only
    rw [hpos']
    exact State.addTile_free (s := { s with dev := dv }) hidle
  rw [hcoords, List.foldl_cons, List.foldl_nil, hplace, State.withDev]
  dsimp only
  rw [Device.withNode_one hdv]

end

/-! Start (R134). -/

section

variable {s : State} {n : Node} {c : Coord} {t : Tile}

theorem start_multicast (hn : s.dev.nodes = [n]) (hst : n.st = .loading) (hm : s.dev.migrations = []) (hd : n.stopDue = false) :
    exec (.startMulticast n.id) s = .next (s.withDev fun dv => { dv with nodes := [{ n with st := .running }] }) := by
  have hfind : s.dev.node? n.id = some n := by simp [Device.node?, hn]
  have hgo : (n.st != .loading || s.dev.migrating n) = false := by simp [hst, Device.migrating, hm]
  show Host.Outcome.next (s.startNode n.id) = _
  rw [State.startNode, hfind]
  dsimp only
  rw [hgo, if_neg Bool.false_ne_true, if_neg (by rw [hd]; exact Bool.false_ne_true), State.withDev, Device.withNode_one hn]
  rfl

theorem tile_start (hn : s.dev.nodeAt c = some n) (hst : n.st = .running) (ht : s.tileAt c = some t) (hr : t.recs = [])
    (hl : t.sch.status = .loaded) : Becomes (.tileStart c) s c (t.withSch fun x => { x with status := .running }) := by
  have hstart : (if t.sch.status = .loaded then t.withSch (fun x => { x with status := .running }) else t)
      = t.withSch fun x => { x with status := .running } := if_pos hl
  have hexec : exec (.tileStart c) s = .next (s.onTile c fun t =>
      if t.sch.status = .loaded then t.withSch (fun x => { x with status := .running }) else t) := by
    show Host.Outcome.next _ = _
    rw [hn]
    dsimp only
    rw [if_pos hst]
  have hat := (State.tileAt_isAt ht)
  have := Becomes.onTile _ ht hexec (by
    rw [hstart]
    simp only [Tile.isAt, Bool.and_eq_true] at hat
    simp [Tile.isAt, Tile.withSch, hat.1]) (by rw [hstart]; exact hr)
  rwa [hstart] at this

/-! Completion (R138). -/

theorem Device.leave_frame (dv : Device) (t : Tile) : (dv.leave t).nodes = dv.nodes ∧ (dv.leave t).graphs = dv.graphs ∧
    (dv.leave t).queues = dv.queues ∧ (dv.leave t).loops = dv.loops ∧ (dv.leave t).migrations = dv.migrations := by
  unfold Device.leave Device.withRegion
  split <;> exact ⟨rfl, rfl, rfl, rfl, rfl⟩

/-- The only tile of the machine that holds a task is taken out: none stands in turn. -/
theorem State.removeTiles_one {p : Tile → Bool} (ho : s.others = []) (hp : p s.core = true) (hst : s.core.sch.status ≠ .absent) :
    s.removeTiles p = { s with core := Tile.none_, others := [], bundle := none, dev := s.dev.leave s.core } := by
  have hgone : (s.core :: s.others).filter (fun t => p t && t.sch.status != .absent) = [s.core] := by simp [ho, hp, hst]
  rw [State.removeTiles, hgone, if_pos hp, ho]
  rfl

theorem Tile.finished_of {dv : Device} (hst : t.sch.status = .ended) (ha : t.accs = []) (hq : t.pad.queue = [])
    (hc : ∀ k, k < 8 → (t.copyCh k).jobs = []) (hh : t.holds = []) (ho : t.out = []) (hs : t.sends = []) (hp : t.pair = none)
    (hnet : dv.net = []) : t.finished dv = true := by
  have hch : ∀ x ∈ t.copy.ch.toList, x.outBusy = false := by
    intro x hx
    obtain ⟨k, hk, rfl⟩ := List.getElem_of_mem hx
    have hk8 : k < 8 := by simpa using hk
    have hjobs := hc k hk8
    have : t.copyCh k = t.copy.ch.toList[k] := by simp [Tile.copyCh, hk8]
    rw [this] at hjobs
    rw [CopyCh.outBusy, hjobs]
    rfl
  have hall : t.copy.ch.toList.all (fun c => !c.outBusy) = true :=
    List.all_eq_true.mpr fun x hx => by rw [hch x hx]; rfl
  rw [Tile.finished, hall, hst, ha, hq, hh, ho, hs, hnet, Tile.comparing, hp]
  rfl

theorem node_complete {m : Node} {g : Graph} (hn : s.dev.nodes = [n, m]) (hcore : s.core = t) (ho : s.others = [])
    (hcoords : n.coords = [t.coord]) (hcov : n.covers t.coord = true) (hl : s.dev.loops = [])
    (hst : n.st = .running) (hend : t.sch.status = .ended) (hfin : t.finished s.dev = true) (hg : s.dev.graphs = [g])
    (hgn : g.id = n.graph) (hgm : m.graph = n.graph) (hid : m.id ≠ n.id) (hw : m.st = .waiting) (hleft : m.left = 1)
    (hsucc : n.succ = [m.index]) (hix : n.index ≠ m.index) :
    ∃ u n' m', exec (.nodeComplete n.id) s = .next u ∧ u.tileAt t.coord = none ∧ u.dev.nodes = [n', m'] ∧ n'.st = .complete ∧
      m'.st = .ready ∧ m'.left = 0 ∧ u.dev.graphs = [{ g with ndone := g.ndone + 1 }] := by
  subst hcore
  have hfind : s.dev.node? n.id = some n := by simp [Device.node?, hn]
  have hat : s.tileAt s.core.coord = some s.core := by simp [State.tileAt, Tile.isAt, hend]
  have hdone : s.nodeFinished n = true := by simp [State.nodeFinished, hst, hcoords, hat, hfin]
  have hrem := State.removeTiles_one (s := s) (p := fun t => n.covers t.coord) ho hcov (by rw [hend]; decide)
  obtain ⟨hln, hlg, hlq, hll, -⟩ := s.dev.leave_frame s.core
  obtain ⟨d, hd⟩ : ∃ d : Device, d = (((n.coords.foldl Device.forget (s.dev.leave s.core)).withNode n.id fun n =>
      { n with st := .complete, slots := none }).withGraph n.graph fun g => { g with ndone := g.ndone + 1 }) := ⟨_, rfl⟩
  have hdn : d.nodes = [{ n with st := .complete, slots := none }, m] := by
    rw [hd, hcoords]
    show ((s.dev.leave s.core).nodes.map _) = _
    rw [hln, hn]
    simp [hid]
  have hdg : d.graphs = [{ g with ndone := g.ndone + 1 }] := by
    rw [hd, hcoords]
    show ((s.dev.leave s.core).graphs.map _) = _
    rw [hlg, hg]
    simp [hgn]
  have hdl : d.loops = [] := by rw [hd, hcoords]; exact hll.trans hl
  obtain ⟨e, he⟩ : ∃ e, e = d.countDependants n := ⟨_, rfl⟩
  obtain ⟨n', m', hen, hn', hm', hml⟩ : ∃ n' m', e.nodes = [n', m'] ∧ n'.st = .complete ∧ (m'.st = .ready ∧ m'.graph = n.graph) ∧ m'.left = 0 := by
    rw [he, Device.countDependants, hdn]
    refine ⟨_, _, rfl, ?_, ?_, ?_⟩
    · simp [hsucc, hix.symm]
    · simp [hsucc, hgm, hleft, hw, Device.readyNode]
    · simp [hsucc, hgm, hleft, hw, Device.readyNode]
  have hgoes : e.endGraph n.graph = e := Device.endGraph_goes (by rw [hen]; simp [hm'.1, hm'.2, NodeSt.live])
  have hel : e.loops = [] := by rw [he]; exact hdl
  have hexec : exec (.nodeComplete n.id) s = .next
      (State.nodeGone { (s.removeTiles fun t => n.covers t.coord) with dev := e } n) := by
    show Host.Outcome.next (s.nodeCompletes n.id) = _
    rw [State.nodeCompletes, hfind]
    dsimp only
    rw [hdone, if_neg (by simp), hrem, he, hd]
    rfl
  obtain ⟨v, hv⟩ : ∃ v : State, v = { (s.removeTiles fun t => n.covers t.coord) with dev := e } := ⟨_, rfl⟩
  have hvd : v.dev = e := by rw [hv]
  have hgone : v.nodeGone n = v.settleQueues := by
    rw [State.nodeGone, State.graphGoes_eq (by rw [hvd, hgoes]; exact hel), State.withDev, hvd, hgoes, ← hvd]
  have hset := v.settleQueues_settles
  obtain ⟨hc, hoth, -, -⟩ := v.settleQueues_frame
  refine ⟨v.settleQueues, n', m', by rw [hexec, ← hv, hgone], ?_, ?_, hn', hm'.1, hml, ?_⟩
  · rw [State.tileAt, hc, hoth, hv, hrem, if_neg (by rw [Tile.none_isAt]; exact Bool.false_ne_true)]
    rfl
  · rw [hset.nodes, hvd, hen]
  · rw [hset.graphs, hvd, he]
    exact hdg

/-! Failure (R139). -/

/-- What a tile of a failing node keeps, where no guard request and no send of it is under way. -/
theorem Tile.failStop_keeps {frame : Nat} (hg : t.guards = []) (hs : t.sends = []) : (t.failStop frame).sch.status = .halted ∧
    (t.failStop frame).files = t.files ∧ (t.failStop frame).holds = t.holds ∧ (t.failStop frame).guards = [] ∧
    (t.failStop frame).out = t.out.filter fun m => match m with
      | .portw _ _ _ => false
      | _ => true := by
  have hguards : (t.endStint frame 3).guards = [] := hg
  have hsends : Tile.finishSends { t.endStint frame 3 with blocks := [] } = { t.endStint frame 3 with blocks := [], sends := [] } := by
    have hnone : ({ t.endStint frame 3 with blocks := [] } : Tile).sends = [] := hs
    rw [Tile.finishSends, hnone]
    rfl
  rw [Tile.failStop, hguards]
  dsimp only [List.foldl_nil]
  rw [hsends]
  exact ⟨rfl, rfl, rfl, by show t.guards.filter _ = []; rw [hg]; rfl, rfl⟩

theorem node_fail {g : Graph} (h : s.OneNode n t) (hst : n.st = .running) (hrun : t.sch.status = .running) (hgs : s.dev.graphs = [g])
    (hid : g.id = n.graph) (hend : g.ended = false)
    (hheld : (s.dev.ringOf g.ctx).held = []) :
    ∃ u n' g', exec (.nodeFail n.id) s = .next u ∧ u.dev.nodes = [n'] ∧ n'.st = .failed ∧ u.core = t.failStop (s.dev.frameOf t.coord) ∧
      u.dev.graphs = [g'] ∧ g'.nfail = g.nfail + 1 ∧ g'.ended = true ∧ (g.nfail = 0 → g'.fcause = n.cause - 1 ∧ g'.fnode = n.index) := by
  obtain ⟨hn, htile, ho, hcoords, hcov, -, -, -, hloop⟩ := h
  have hfind : s.dev.node? n.id = some n := by simp [Device.node?, hn]
  have hmine : (true && n.covers t.coord && t.sch.status != .absent && t.sch.status != .idle) = true := by
    rw [hcov, hrun]
    rfl
  obtain ⟨m, hm⟩ : ∃ m : Node, m = { n with st := .failed, image := [], kept := [], slots := none, stopDue := false, held := false } := ⟨_, rfl⟩
  obtain ⟨x, hx⟩ : ∃ x : Graph, x = { g with
    nfail := g.nfail + 1
    fcause := if g.nfail = 0 then n.cause - 1 else g.fcause
    fnode := if g.nfail = 0 then n.index else g.fnode } := ⟨_, rfl⟩
  obtain ⟨d, hd⟩ : ∃ d : Device, d = { s.dev.forget t.coord with nodes := [m], graphs := [x] } := ⟨_, rfl⟩
  have hexec : exec (.nodeFail n.id) s = .next (State.nodeGone { s with
      core := t.failStop (s.dev.frameOf t.coord), others := [], bundle := none, dev := d } n) := by
    show Host.Outcome.next (s.nodeFails n.id) = _
    rw [State.nodeFails, hfind]
    dsimp only
    rw [if_neg (by simp [hst])]
    have hon : (n.st == .loading || n.st == .running || n.st == .stopping || n.st == .saving) = true := by rw [hst]; rfl
    rw [hon]
    simp only [ho, List.filter_cons, List.filter_nil, List.map_nil, hmine, if_true, htile, List.map_cons, List.foldl_cons, List.foldl_nil]
    have hforget : (s.dev.forget t.coord).nodes = [n] := hn
    rw [State.withDev]
    dsimp only
    rw [Device.withNode_one hforget, Device.withGraph, hd, hm, hx]
    simp [Device.forget, hgs, hid]
  have hdn : d.nodes = [m] := by rw [hd]
  have hdg : d.graphs = [x] := by rw [hd]
  have hdl : d.loops = [] := by rw [hd]; exact hloop
  have hxid : x.id = n.graph := by rw [hx]; exact hid
  obtain ⟨hgraphs, hnodes, hloops⟩ := Device.endGraph_ends hdg (by rw [hx]; exact hend)
    (by rw [hdn, hm]; simp [NodeSt.live]) (by rw [hx, hd]; exact hheld)
  rw [hxid] at hgraphs hnodes hloops
  obtain ⟨v, hv⟩ : ∃ v : State, v = { s with core := t.failStop (s.dev.frameOf t.coord), others := [], bundle := none, dev := d } := ⟨_, rfl⟩
  have hvd : v.dev = d := by rw [hv]
  obtain ⟨w, hw⟩ : ∃ w : State, w = v.withDev fun dv => dv.endGraph n.graph := ⟨_, rfl⟩
  have hgone : v.nodeGone n = w.settleQueues := by
    rw [State.nodeGone, State.graphGoes_eq (by rw [hvd, hloops, hdl]), hw]
  have hwd : w.dev = d.endGraph n.graph := by rw [hw, ← hvd]; rfl
  have hset := w.settleQueues_settles
  obtain ⟨hc, -, -, -⟩ := w.settleQueues_frame
  refine ⟨w.settleQueues, m, { x with ended := true }, by rw [hexec, ← hv, hgone], ?_, by rw [hm], ?_, ?_, by rw [hx], rfl, fun h0 => ?_⟩
  · rw [hset.nodes, hwd, hnodes, hdn]
  · rw [hc, hw, hv]
    rfl
  · rw [hset.graphs, hwd, hgraphs, hxid]
  · rw [hx]
    simp [h0]

end

/-! Records that waited (R335). -/

theorem held_record_written {s : State} {ctx : BitVec 8} {r : TrapRec} (hr : (s.dev.ringOf ctx.toNat).held = [r])
    (hf : trapFull (s.dev.desc ctx.toNat) = false) (hg : ∀ g ∈ s.dev.graphs, g.ended = true ∨ g.ctx ≠ ctx.toNat) :
    exec (.trapRecordRelease ctx) s = .next (s.withDev fun dv =>
      ((dv.setRing { dv.ringOf ctx.toNat with held := [] }).putTrap
        (recordOf ctx.toNat 10 .ringlost false 0 0 0 1#64)).report r) := by
  obtain ⟨d, hd⟩ : ∃ d, d = ((s.dev.setRing { s.dev.ringOf ctx.toNat with held := [] }).putTrap
    (recordOf ctx.toNat 10 .ringlost false 0 0 0 1#64)).report r := ⟨_, rfl⟩
  have hrel : s.dev.releaseHeld ctx.toNat = d := by
    have hone : BitVec.ofNat 64 [r].length = 1#64 := rfl
    rw [Device.releaseHeld]
    dsimp only
    rw [hr, hf, hone, if_neg (by simp), List.foldl_cons, List.foldl_nil, ← hd]
  have hgraphs : d.graphs = s.dev.graphs := by
    rw [hd]
    exact (((s.dev.setRing_reports _).trans (Device.putTrap_reports _ _)).trans (Device.report_reports _ _)).graphs
  have hnone : s.dev.graphs.filter (fun g => !g.ended && g.ctx == ctx.toNat) = [] := by
    refine List.filter_eq_nil_iff.mpr fun g hm => ?_
    rcases hg g hm with h | h <;> simp [h]
  show execTrapRecordRelease ctx s = _
  rw [execTrapRecordRelease, State.withDev, hrel]
  dsimp only
  rw [hgraphs, hnone, State.withDev, ← hd, List.foldl_nil]

/-- Settles O54: launch, start, completion, failure and held records, each by what its step leaves of a machine with the one node. -/
theorem nodeSteps : Obligations.NodeSteps := by
  refine ⟨fun s n c pos im ctl dv d0 bytes hn hst himg hcoords hplace _ hidle ho hok hr hb hd0 href him hj hdv hpos _ => ?_,
    fun s n hn hst hm hd => start_multicast hn hst hm hd,
    fun s c n t hn hst ht hr hl => tile_start hn hst ht hr hl,
    fun s n m t g hn hcore ho hcoords hcov _ hl hst hend ha hq hc hh hout hs hp hnet hg hgn hgm hid hw hleft hsucc hix =>
      node_complete hn hcore ho hcoords hcov hl hst hend (Tile.finished_of hend ha hq hc hh hout hs hp hnet) hg hgn hgm hid hw hleft hsucc hix,
    fun s n t g h hst hrun hgs hid hend hguards hsends hheld => ?_,
    fun s ctx r hr hf hg => held_record_written hr hf hg⟩
  · obtain ⟨hcoord, hsch, hp, hfiles, hcode, hmem, hctl, houts⟩ :=
      (loadTile (s.dev.graphOf n) n im ctl c).settle_keeps dv pos (dv.frameOf c)
    have hexec := launch_node hn hst himg hcoords hidle ho hok hr hb hd0 href him hj hdv hpos
    generalize ((loadTile (s.dev.graphOf n) n im ctl c).settle dv pos).beginStint (dv.frameOf c) = v at *
    have hsts : v.sch.status = .loaded := by rw [hsch]; rfl
    have hent : ∀ k, k < 32 → (v.outCh k).entry = im.route_ 0 k := fun k hk => by
      rw [Tile.outCh, houts]
      exact loadTile_entry hplace hk
    refine ⟨_, v, hexec, rfl, ?_, hsts, by rw [hsch]; rfl, hp, fun k hk => by rw [hfiles]; exact loadTile_args hk, ?_,
      fun k b hk => by rw [hcode]; exact loadTile_code hk, fun k b hk => by rw [hmem]; exact loadTile_data hk, by rw [hctl, loadTile_ctl],
      by rw [hctl, loadTile_ctl], by rw [hctl, loadTile_ctl]; exact (Ctl.launched_fmt _ _ _).trans (ctl.place_fmt n c), hent⟩
    · have hat : v.isAt c = true := by
        rw [Tile.isAt, hcoord, hsts]
        show (c == c && _) = true
        simp
      rw [State.tileAt]
      exact if_pos hat
    · rw [hfiles, loadTile_data_at (by norm_num), if_pos rfl]
  · obtain ⟨u, n', g', he, hnodes, hfail, hcore, hgraphs, hnf, hended, hfirst⟩ := node_fail h hst hrun hgs hid hend hheld
    obtain ⟨h1, h2, h3, h4, h5⟩ := t.failStop_keeps (frame := s.dev.frameOf t.coord) hguards hsends
    rw [← hcore] at h1 h2 h3 h4 h5
    exact ⟨u, n', g', he, hnodes, hfail, h1, h2, h3, h4, h5, hgraphs, hnf, hended, hfirst⟩

end Sys2Proof.Machine
end

section
/-! SUPPORT. Pre-emption, restore and migration (R20 to R24, R337 to R341). -/

namespace Sys2Proof.Machine

/-! Bits of a mask. -/

theorem bitOf_testBit (m i : Nat) : bitOf m i = m.testBit i := by
  rw [bitOf, Nat.testBit_eq_decide_div_mod_eq, Bool.beq_eq_decide_eq]

theorem testBit_add_pow {m i : Nat} (h : m.testBit i = false) (j : Nat) : (m + 2 ^ i).testBit j = if j = i then true else m.testBit j := by
  have hlow : m % 2 ^ (i + 1) < 2 ^ i := by
    by_contra hge
    have hbit : (m % 2 ^ (i + 1)).testBit i = true :=
      Nat.testBit_of_two_pow_le_and_two_pow_add_one_gt (Nat.le_of_not_lt hge) (Nat.mod_lt _ (by positivity))
    rw [Nat.testBit_mod_two_pow, h] at hbit
    simp at hbit
  have hm := Nat.div_add_mod m (2 ^ (i + 1))
  have hsum : m + 2 ^ i = 2 ^ (i + 1) * (m / 2 ^ (i + 1)) + (2 ^ i + m % 2 ^ (i + 1)) := by omega
  have hlt : 2 ^ i + m % 2 ^ (i + 1) < 2 ^ (i + 1) := by rw [pow_succ] at *; omega
  rw [hsum, Nat.testBit_two_pow_mul_add _ hlt]
  conv_rhs => rw [← hm, Nat.testBit_two_pow_mul_add _ (Nat.mod_lt _ (by positivity : 0 < 2 ^ (i + 1)))]
  rcases Nat.lt_trichotomy j i with hj | rfl | hj
  · rw [if_pos (by omega), if_neg (by omega), if_pos (by omega), Nat.testBit_two_pow_add_gt hj]
  · rw [if_pos (by omega), if_pos rfl, Nat.testBit_two_pow_add_eq, Nat.testBit_lt_two_pow hlow]
    rfl
  · rw [if_neg (by omega), if_neg (by omega), if_neg (by omega)]

theorem testBit_sub_pow {m i : Nat} (h : m.testBit i = true) (j : Nat) : (m - 2 ^ i).testBit j = if j = i then false else m.testBit j := by
  have hle : 2 ^ i ≤ m := Nat.ge_two_pow_of_testBit h
  have hsum : m - 2 ^ i + 2 ^ i = m := Nat.sub_add_cancel hle
  have hbit : (m - 2 ^ i).testBit i = false := by
    have := Nat.testBit_two_pow_add_eq (m - 2 ^ i) i
    rw [Nat.add_comm, hsum, h] at this
    simpa using this
  have hadd := testBit_add_pow hbit j
  rw [hsum] at hadd
  split
  · next hj => rw [hj]; exact hbit
  · next hj => rw [hadd, if_neg hj]

theorem bitOf_putBit (m i j : Nat) (v : Bool) : bitOf (putBit m i v) j = if j = i then v else bitOf m j := by
  rw [putBit]
  split
  · next h =>
    split
    · next hj => rw [hj, h]
    · rfl
  · next h =>
    cases v with
    | true =>
      rw [if_pos rfl, bitOf_testBit, bitOf_testBit]
      exact testBit_add_pow (by rw [← bitOf_testBit]; simpa using h) j
    | false =>
      rw [if_neg Bool.false_ne_true, bitOf_testBit, bitOf_testBit]
      exact testBit_sub_pow (by rw [← bitOf_testBit]; simpa using h) j

/-! A stop reaches a tile (R337). -/

section

variable {s : State} {c : Coord} {n : Node} {t : Tile}

theorem Tile.HandsOn.goes {t u : Tile} (h : t.HandsOn u) : t.Goes u := by
  obtain ⟨_, _, _, _, rfl⟩ := h
  exact ⟨rfl, rfl, rfl, .inl ⟨rfl, rfl⟩⟩

theorem Tile.Goes.readOn (fuel : Nat) (t : Tile) (o : SendOp) : t.Goes (Tile.readOn fuel t o).1 := by
  induction fuel generalizing t o with
  | zero => exact refl t
  | succ fuel ih =>
    rw [Tile.readOn]
    split
    · refine trans ?_ (ih _ _)
      rw [Tile.readSome]
      have hread (u : Tile) (l : List Nat) : u.Goes (if o.take then (u.findErrors l).setEmpty l else u.findErrors l) :=
        ite ((Tile.Acts.findErrors u l).trans (Tile.Acts.setEmpty _ l)).goes (Tile.Acts.findErrors u l).goes
      exact trans (ite (Tile.Acts.beforeB t _).goes (refl t)) (hread _ _)
    · exact refl t

theorem Tile.Goes.runSends (l : List SendOp) (t : Tile) : t.Goes (Tile.runSends l t) := by
  induction l generalizing t with
  | nil => exact refl t
  | cons o l ih =>
    rw [Tile.runSends]
    refine trans ?_ (ih _)
    have hon : t.Goes (if !(Tile.readOn 33 t o).2.gone && (Tile.readOn 33 t o).2.data.length == (Tile.readOn 33 t o).2.len &&
        !(Tile.readOn 33 t o).1.reading (Tile.readOn 33 t o).2.ch then (Tile.readOn 33 t o).1.handOn (Tile.readOn 33 t o).2
        else (Tile.readOn 33 t o).1) :=
      trans (readOn 33 t o) (ite (Tile.HandsOn.handOn _ _).goes (refl _))
    exact ite hon (trans hon ⟨rfl, rfl, rfl, .inl ⟨rfl, rfl⟩⟩)

theorem Tile.Goes.finishSends (t : Tile) : t.Goes t.finishSends := by
  rw [Tile.finishSends]
  exact trans (u := { t with sends := [] }) ⟨rfl, rfl, rfl, .inl ⟨rfl, rfl⟩⟩ (runSends _ _)

/-- A tile that stops stays where it is, and holds its task. -/
theorem Tile.stopCore_isAt {t : Tile} (h : t.sch.status = .running) :
    t.stopCore.hushParked.coord = t.coord ∧ t.stopCore.hushParked.sch.status ≠ .absent ∧ t.stopCore.hushParked.pad.buf = [] := by
  have hgo : t.Goes ((t.settleForTrap.1.withSch fun s => { s with cycle := t.settleForTrap.2 }).finishSends) :=
    ((Tile.Goes.settleForTrap t).trans (Tile.Acts.withSch _ (fun s => { s with cycle := t.settleForTrap.2 })
      fun _ => rfl).goes).trans (Tile.Goes.finishSends _)
  obtain ⟨v, hv⟩ : ∃ v, v = (t.settleForTrap.1.withSch fun s => { s with cycle := t.settleForTrap.2 }).finishSends := ⟨_, rfl⟩
  rw [← hv] at hgo
  have hst : v.sch.status = .running ∨ v.sch.status = .halted := hgo.stays.imp (fun x => x.1.trans h) fun x => x.1
  have hstop : t.stopHere = Tile.emptyBuffer (v.withSch fun s =>
      { s with status := if s.status = .running then .stopped else s.status, stall := none, waited := 0 }) := by
    rw [Tile.stopHere, hv]
  refine ⟨?_, ?_, ?_⟩
  · rw [← hgo.coord, Tile.hushParked, Tile.stopCore, hstop]
    rfl
  · rw [Tile.hushParked, Tile.stopCore, hstop]
    show (if v.sch.status = .running then TStatus.stopped else v.sch.status) ≠ .absent
    rcases hst with h | h <;> simp [h]
  · rw [Tile.hushParked, Tile.stopCore, hstop]
    show v.pad.buf.filter (fun b => !true) = []
    exact List.filter_eq_nil_iff.mpr fun _ _ => Bool.false_ne_true

/-- Where nothing is in progress nothing settles. -/
theorem Tile.settleForTrap_quiet (hq : t.pad.queue = []) (hf : t.sch.flights = []) (hv : t.sch.vops = []) :
    t.settleForTrap = (t, t.sch.cycle) := by
  have hcycle : t.settleCycle = t.sch.cycle := by
    simp only [Tile.settleCycle, hq, hf, hv, List.filter_nil, List.foldl_nil]
  have hdrain : t.drainAll t.pad.queue.length = t := by rw [hq]; rfl
  have hcome : Tile.comeIn (t.sch.flights.length + t.sch.vops.length) t = t := by rw [hf, hv]; rfl
  rw [Tile.settleForTrap, hdrain, hcycle, show Nat.max t.sch.cycle t.sch.cycle = t.sch.cycle from Nat.max_self _, Nat.sub_self, Tile.runOn, hcome]
  rfl

theorem Tile.stopCore_quiet (hq : t.pad.queue = []) (hf : t.sch.flights = []) (hv : t.sch.vops = []) (hs : t.sends = [])
    (hst : t.sch.status = .running) : t.stopCore.hushParked.sch.status = .stopped ∧ t.stopCore.hushParked.files = t.files ∧
      t.stopCore.hushParked.pad.mem = t.pad.mem ∧ t.stopCore.hushParked.sch.pc = t.sch.pc ∧ t.stopCore.hushParked.ctl = t.ctl := by
  have hfin : (t.withSch fun s => { s with cycle := t.sch.cycle }).finishSends = { t with sends := [] } := by
    have hnone : (t.withSch fun s => { s with cycle := t.sch.cycle }).sends = [] := hs
    rw [Tile.finishSends, hnone]
    rfl
  have hstop : t.stopHere = Tile.emptyBuffer (Tile.withSch { t with sends := [] } fun s =>
      { s with status := if s.status = .running then .stopped else s.status, stall := none, waited := 0 }) := by
    rw [Tile.stopHere, Tile.settleForTrap_quiet hq hf hv]
    dsimp only
    rw [hfin]
  rw [Tile.hushParked, Tile.stopCore, hstop]
  exact ⟨if_pos hst, rfl, rfl, rfl, rfl⟩

theorem Device.stopTold_of (hn : s.dev.nodeAt c = some n) (hst : n.st = .stopping) (hm : s.dev.migrations = []) :
    s.dev.stopTold c = true := by
  simp [Device.stopTold, hn, hst, Device.migrating, hm]

theorem preempt_stop (hn : s.dev.nodeAt c = some n) (hst : n.st = .stopping) (hm : s.dev.migrations = []) (ht : s.tileAt c = some t)
    (hrun : t.sch.status = .running) (hpend : t.sch.pend = []) (hb : s.bundle = none) (hg : ∀ g ∈ t.guards, g.rel = false) :
    BecomesWith (.preemptStop c) s c t.stopCore.hushParked (s.dev.forget c) := by
  have htold := Device.stopTold_of hn hst hm
  have hgo : (!s.dev.stopTold c || s.core.isAt c && s.bundle.isSome || !t.sch.tm && !t.sch.pend.isEmpty && t.sch.status == .running) = false := by
    rw [htold, hb, hpend]
    simp
  have hmove : (s.dev.moves c && ((s.dev.nodeAt c).map fun n => n.st == .running).getD false) = false := by
    simp [Device.moves, hm]
  have hrel : t.releasing = false := List.any_eq_false.mpr fun g hmem => by rw [hg g hmem]; exact Bool.false_ne_true
  have hexec : exec (.preemptStop c) s = .next ((s.withDev fun dv => dv.forget c).setTile t.stopCore.hushParked) := by
    show Host.Outcome.next (s.preemptStop c) = _
    rw [State.preemptStop, ht]
    dsimp only
    rw [hgo, if_neg Bool.false_ne_true, if_neg (by rw [hrun]; decide), if_neg (by rw [hrun]; decide), hmove, if_neg Bool.false_ne_true, hrel,
      if_neg Bool.false_ne_true]
  obtain ⟨hcoord, hne, -⟩ := t.stopCore_isAt hrun
  refine BecomesWith.setTile (u := s.withDev fun dv => dv.forget c) ⟨fun _ => rfl, rfl, rfl⟩ ht hexec ?_
  have hat := State.tileAt_isAt ht
  simp only [Tile.isAt, Bool.and_eq_true] at hat ⊢
  exact ⟨by rw [hcoord]; exact hat.1, by simpa using hne⟩

/-! Acknowledgements (R338). -/

theorem State.setTile_withDev (s : State) (w : Tile) (f : Device → Device) : (s.setTile w).withDev f = (s.withDev f).setTile w := by
  unfold State.setTile State.withDev
  split <;> rfl

theorem stop_ack {u : TUnit} (h : s.OneNode n t) (hst : n.st = .stopping) (hs : t.sch.status = .stopped) (hu : u ∉ t.acks)
    (hstop : t.unitStopped s.dev u = true) :
    (t.acks.length < 7 → BecomesWith (.stopAck t.coord u) s t.coord { t with acks := t.acks ++ [u] } s.dev) ∧
    (t.acks.length = 7 → n.stoppedRegions = [] →
      BecomesWith (.stopAck t.coord u) s t.coord { t with acks := t.acks ++ [u] }
        { s.dev with nodes := [{ n with stoppedRegions := [regionOf t.coord] }] }) := by
  obtain ⟨hn, htile, ho, hcoords, hcov, hrecs, hm, -, -⟩ := h
  have hnode : s.dev.nodeAt t.coord = some n := by simp [Device.nodeAt, hn, hst, hcov]
  have hat : s.tileAt t.coord = some t := by rw [State.tileAt, htile, if_pos (by simp [Tile.isAt, hs])]
  have htold := Device.stopTold_of hnode hst hm
  have hgo : (!s.dev.stopTold t.coord || t.acks.elem u || !t.unitStopped s.dev u) = false := by
    rw [htold, hstop]
    simp [hu]
  obtain ⟨w, hw⟩ : ∃ w : Tile, w = { t with acks := t.acks ++ [u] } := ⟨_, rfl⟩
  have hwat : w.isAt t.coord = true := by rw [hw]; simp [Tile.isAt, hs]
  obtain ⟨v, hv⟩ : ∃ v, v = s.setTile w := ⟨_, rfl⟩
  have hvt : v.tileAt t.coord = some w := by rw [hv]; exact (State.tileAt_setTile hat hwat).1
  have hvd : v.dev = s.dev := by rw [hv, State.setTile_dev]
  have hregion : v.regionStopped n (regionOf t.coord) = decide (8 ≤ t.acks.length + 1) := by
    rw [State.regionStopped, hcoords, List.all_cons, hvt, hw]
    simp
  have hexec : exec (.stopAck t.coord u) s = .next (
      if n.st = .stopping && v.regionStopped n (regionOf t.coord) && !n.stoppedRegions.elem (regionOf t.coord) then
        v.withDev fun dv => dv.withNode n.id fun m => { m with stoppedRegions := n.stoppedRegions ++ [regionOf t.coord] }
      else v) := by
    show Host.Outcome.next (s.stopAck t.coord u) = _
    rw [State.stopAck, hat]
    dsimp only
    rw [hgo, if_neg Bool.false_ne_true, ← hw, ← hv, hvd, hnode]
  rw [hst, hregion] at hexec
  rw [← hw]
  refine ⟨fun hlt => ?_, fun heq hnone => ?_⟩
  · rw [if_neg (by simp [show ¬ 8 ≤ t.acks.length + 1 by omega]), hv] at hexec
    exact BecomesWith.setTile ⟨fun _ => rfl, rfl, rfl⟩ hat hexec hwat
  · rw [if_pos (by simp [heq, hnone]), hnone, hv, State.setTile_withDev, List.nil_append] at hexec
    have hnodes : s.dev.withNode n.id (fun m => { m with stoppedRegions := [regionOf t.coord] }) =
        { s.dev with nodes := [{ n with stoppedRegions := [regionOf t.coord] }] } := Device.withNode_one hn _
    rw [← hnodes]
    exact BecomesWith.setTile (u := s.withDev fun dv => dv.withNode n.id fun m => { m with stoppedRegions := [regionOf t.coord] })
      ⟨fun _ => rfl, rfl, rfl⟩ hat hexec hwat

/-! The save (R338 to R340). -/

theorem Device.enter_nodes (dv : Device) (a : Coord) (e : Option DWord) (m : Msg) : (dv.enter a e m).nodes = dv.nodes := by
  unfold Device.enter
  split
  · rfl
  · split
    · rfl
    · split <;> rfl

/-- What a tile alone in the machine has handed on enters the fabric. -/
theorem State.inject_one (htile : s.core = t) (ho : s.others = []) (hst : t.sch.status ≠ .absent) :
    ∃ d out, s.inject = { s with core := { t with out := out }, dev := d } ∧ d.nodes = s.dev.nodes := by
  have hisat : s.core.isAt t.coord = true := by rw [htile]; simp [Tile.isAt, hst]
  have hat : s.tileAt t.coord = some t := by rw [State.tileAt, if_pos hisat, htile]
  have henter : ∀ (l : List Msg) (d : Device), (l.foldl (Device.inject t) d).nodes = d.nodes := by
    intro l
    induction l with
    | nil => exact fun _ => rfl
    | cons m l ih => exact fun d => (ih _).trans (d.enter_nodes _ _ _)
  rw [State.inject, ho, htile, List.foldl_cons, List.foldl_nil, State.injectTile, hat]
  dsimp only
  split
  · exact ⟨s.dev, t.out, by rw [← htile, ← ho], rfl⟩
  · refine ⟨_, t.out.filter Msg.waits, ?_, henter (t.out.filter fun m => !m.waits) s.dev⟩
    exact (if_pos hisat).trans (by rw [ho])

theorem Device.writeSlots_nodes {dv d : Device} {sl : Nat × Nat} (h : dv.writeSlots n sl = some d) : d.nodes = dv.nodes := by
  have hlines : ∀ (l : List Nat) (d : Device), (l.foldl (fun (dv : Device) a =>
      { dv with
        hbm := dv.hbm.put a ((upTo 64).map fun i => Config.freeByte dv.free i)
        free := dv.free + 1
        seals := putSeal a 0 dv.seals
        bad := NatSet.del dv.bad a
        poison := NatSet.del dv.poison a }) d).nodes = d.nodes := by
    intro l
    induction l with
    | nil => exact fun _ => rfl
    | cons a l ih => exact fun d => ih _
  rw [Device.writeSlots, Device.writeLines] at h
  split at h
  · exact absurd h (by simp)
  · cases h
    exact hlines _ _

theorem save_phase {sl : Nat × Nat} {dv : Device} (h : s.OneNode n t) (hst : n.st = .stopping) (hs : t.sch.status = .stopped)
    (hreg : n.stoppedRegions = [regionOf t.coord]) (hsl : n.slots = some sl) (hw : s.dev.writeSlots n sl = some dv) :
    ∃ u n' im, exec (.savePhase n.id) s = .next u ∧ u.dev.nodes = [n'] ∧ n'.st = .saving ∧ n'.image = [im] ∧ n'.home = n.place ∧
      im.files = t.files ∧ im.pad = t.pad ∧ im.ctl = t.ctl ∧ im.sch = t.sch ∧ im.eng = t.eng := by
  obtain ⟨hn, htile, ho, hcoords, hcov, -, hm, -, -⟩ := h
  have hfind : s.dev.node? n.id = some n := by simp [Device.node?, hn]
  have hgo : (n.st != .stopping || !n.regions.all n.stoppedRegions.elem || s.dev.moving n) = false := by
    simp [hst, Node.regions, hcoords, hreg, Device.moving, hm]
  obtain ⟨d, out, hinj, hdn⟩ := State.inject_one (s := { s with dev := dv }) htile ho (by rw [hs]; decide)
  have hd : d.nodes = [n] := hdn.trans ((Device.writeSlots_nodes hw).trans hn)
  have hmine : (n.covers t.coord && t.sch.status != .absent) = true := by rw [hcov, hs]; rfl
  obtain ⟨im, him⟩ : ∃ im : Tile, im = (Tile.endStint { t with out := out } (d.frameOf t.coord) 1).unparkAll := ⟨_, rfl⟩
  have himine : (n.covers im.coord && im.sch.status != .absent) = true := by rw [him]; exact hmine
  have hexec : exec (.savePhase n.id) s = .next (State.withDev { s with core := im, others := [], dev := d.forget t.coord } fun dv =>
      { dv.withNode n.id fun n =>
          { n with
            st := .saving, image := [im], home := n.place, homeShadow := n.shadow
            kept := dv.net.filter fun f => n.isFor f.msg } with
        net := dv.net.filter fun f => !n.isFor f.msg }) := by
    show Host.Outcome.next (s.savePhase n.id) = _
    rw [State.savePhase, hfind]
    dsimp only
    rw [hgo, if_neg Bool.false_ne_true, hsl, Option.bind_some, hw]
    dsimp only
    rw [hinj]
    simp only [ho, hmine, if_true, hcoords, List.map_nil, List.foldl_cons, List.foldl_nil, ← him, List.filter_cons, himine, List.filter_nil]
  refine ⟨_, { n with st := .saving, image := [im], home := n.place, homeShadow := n.shadow
                      kept := (d.forget t.coord).net.filter fun f => n.isFor f.msg }, im, hexec, ?_, rfl, rfl, rfl, ?_⟩
  · show (d.forget t.coord).nodes.map _ = _
    rw [show (d.forget t.coord).nodes = [n] from hd, List.map_cons, List.map_nil, if_pos rfl]
  · rw [him]
    exact ⟨rfl, rfl, rfl, rfl, rfl⟩

/-! The end of a pre-emption (R338). -/

theorem preempt_complete (h : s.OneNode n t) (hst : n.st = .saving) :
    ∃ u n', exec (.preemptComplete n.id) s = .next u ∧ u.tileAt t.coord = none ∧ u.dev.nodes = [n'] ∧ n'.image = n.image ∧
      n'.st = (if n.held = true then .saved else .ready) := by
  obtain ⟨hn, htile, ho, -, hcov, -, -, -, -⟩ := h
  have hfind : s.dev.node? n.id = some n := by simp [Device.node?, hn]
  obtain ⟨d, hrem, hdn⟩ : ∃ d, s.removeTiles (fun t => n.covers t.coord) = { s with core := Tile.none_, others := [], bundle := none, dev := d } ∧
      d.nodes = s.dev.nodes := by
    have hall : ∀ (l : List Tile) (d : Device), (l.foldl Device.leave d).nodes = d.nodes := by
      intro l
      induction l with
      | nil => exact fun _ => rfl
      | cons y l ih => exact fun d => (ih _).trans (d.leave_frame y).1
    refine ⟨_, ?_, hall ((s.core :: s.others).filter fun t => n.covers t.coord && t.sch.status != .absent) s.dev⟩
    rw [State.removeTiles, if_pos (by rw [htile]; exact hcov), ho]
    rfl
  obtain ⟨v, hv⟩ : ∃ v : State, v = State.withDev { s with core := Tile.none_, others := [], bundle := none, dev := d } fun dv =>
      dv.withNode n.id fun n => { n with st := if n.held then .saved else .ready, agedAt := dv.now } := ⟨_, rfl⟩
  have hexec : exec (.preemptComplete n.id) s = .next v.settleQueues := by
    show Host.Outcome.next (s.preemptCompletes n.id) = _
    rw [State.preemptCompletes, hfind]
    dsimp only
    rw [if_neg (by rw [hst]; decide), hrem, hv]
  have hvn : v.dev.nodes = [{ n with st := if n.held then .saved else .ready, agedAt := d.now }] := by
    rw [hv, State.withDev_dev, Device.withNode_one (hdn.trans hn)]
  obtain ⟨hc, hoth, -, -⟩ := v.settleQueues_frame
  refine ⟨v.settleQueues, _, hexec, ?_, v.settleQueues_settles.nodes.trans hvn, rfl, rfl⟩
  rw [State.tileAt, hc, hoth, hv, if_neg (by rw [State.withDev_core, Tile.none_isAt]; exact Bool.false_ne_true)]
  rfl

/-! The restore (R339, R341). -/

theorem coordRow_low (region : Nat) (pl : Rect) (row : Nat) : bitsOf (coordRow region pl row).toNat 0 10 = row % 1024 := by
  rw [coordRow, BitVec.toNat_ofNat, bitsOf, atBits, atBits, atBits]
  generalize region % 2 ^ 6 = a, (row - pl.rowlo) % 2 ^ 10 = b
  omega

theorem coordCol_low (pl : Rect) (col : Nat) : bitsOf (coordCol pl col).toNat 0 10 = col % 1024 := by
  rw [coordCol, BitVec.toNat_ofNat, bitsOf, atBits, atBits]
  generalize (col - pl.collo) % 2 ^ 10 = b
  omega

/-- A saved tile without a partner that comes back to the one place of its node. -/
theorem Tile.restoreAt_one {im : Tile} {code : List Byte} (hh : n.home = ⟨im.coord.row, im.coord.row, im.coord.col, im.coord.col⟩)
    (hf : im.sch.flights = []) (hs : im.sch.status = .stopped)
    (v : Tile) (hv : v = im.restoreAt { n with place := n.home, shadow := n.homeShadow } n code) :
    v.coord = ⟨n.place.rowlo, n.place.collo⟩ ∧ v.files = im.files ∧ v.pad.mem = im.pad.mem ∧ v.pad.full = im.pad.full ∧
      v.sch = { im.sch with status := .loaded } ∧ v.holds = im.holds ∧ v.ctl = im.ctl.place n ⟨n.place.rowlo, n.place.collo⟩ := by
  have hmove : Node.shift { n with place := n.home, shadow := n.homeShadow } n im.coord = ⟨n.place.rowlo, n.place.collo⟩ := by
    simp [Node.shift, hh, Rect.has]
  have hready : im.readyAfter.sch = im.sch := by
    simp only [Tile.readyAfter, hf, List.map_nil, List.filter_nil, List.foldl_nil]
    rw [← hf]
  have hsch : v.sch = { im.readyAfter.sch with status := if im.readyAfter.sch.status = .stopped then .loaded else im.readyAfter.sch.status } := by
    rw [hv]; rfl
  refine ⟨?_, by rw [hv]; rfl, by rw [hv]; rfl, by rw [hv]; rfl, ?_, by rw [hv]; rfl, ?_⟩
  · rw [hv, ← hmove]; rfl
  · rw [hsch, hready, if_pos hs]
  · rw [hv, ← hmove]; rfl

theorem restore_node {im : Tile} {sl : Nat × Nat} {pos : Pos} {code : List Byte} {dv : Device} (hn : s.dev.nodes = [n])
    (hst : n.st = .claimed) (himg : n.image = [im]) (hsl : n.slots = some sl) (hidle : s.core.sch.status = .idle) (ho : s.others = [])
    (hh : n.home = ⟨im.coord.row, im.coord.row, im.coord.col, im.coord.col⟩)
    (hok : s.dev.placesOk n = true)
    (hgood : s.dev.slotsGood n sl = true)
    (hread : s.dev.readImage (s.dev.graphOf n).ctx (n.field 704 64) (4 * n.field 383 13) = (.ok code, dv)) (hdv : dv.nodes = [n])
    (hholds : im.holds = []) (hf : im.sch.flights = []) (hs : im.sch.status = .stopped)
    (hpos : dv.posOf ⟨n.place.rowlo, n.place.collo⟩ = some pos) :
    ∃ u v, exec (.restore n.id) s = .next u ∧ u.tileAt ⟨n.place.rowlo, n.place.collo⟩ = some v ∧ v.files = im.files ∧
      v.pad.mem = im.pad.mem ∧ v.pad.full = im.pad.full ∧ v.sch = { im.sch with status := .loaded } ∧
      v.ctl = im.ctl.place n ⟨n.place.rowlo, n.place.collo⟩ ∧
      u.dev.nodes = [{ n with st := .loading, image := [], kept := [], slots := none }] := by
  have hfind : s.dev.node? n.id = some n := by simp [Device.node?, hn]
  have hwait : (n.st != .claimed || n.image.isEmpty || !(s.dev.occupants n).isEmpty || s.leftover n) = false := by
    simp [hst, himg, Device.occupants, hn, State.leftover, ho, hidle]
  obtain ⟨w, hw⟩ : ∃ w, w = im.restoreAt { n with place := n.home, shadow := n.homeShadow } n code := ⟨_, rfl⟩
  obtain ⟨hcoord, hfiles, hmem, hfull, hsch, hwh, hctl⟩ := Tile.restoreAt_one hh hf hs w hw
  obtain ⟨v, hv⟩ : ∃ v, v = (w.settle dv pos).beginStint (dv.frameOf w.coord) := ⟨_, rfl⟩
  have hplace : (State.moveHolds im.coord w { s with dev := dv }).placeTile w = { s with core := v, bundle := none, dev := dv } := by
    have hstay : State.moveHolds im.coord w { s with dev := dv } = { s with dev := dv } := by
      rw [State.moveHolds, hwh, hholds]
      split <;> rfl
    rw [hstay, State.placeTile, hcoord]
    dsimp only
    rw [hpos, hv, hcoord]
    exact State.addTile_free (s := { s with dev := dv }) hidle
  rw [himg, hsl] at hw
  obtain ⟨hcore, hnodes⟩ : (s.restoreNode n.id).core = v ∧
      (s.restoreNode n.id).dev.nodes = [{ n with st := .loading, image := [], kept := [], slots := none }] := by
    rw [State.restoreNode, hfind]
    dsimp only
    rw [hsl]
    dsimp only
    rw [hwait, if_neg Bool.false_ne_true, hok, if_neg (by simp), hgood, if_neg (by simp), hread]
    dsimp only
    rw [himg, List.foldl_cons, List.foldl_nil, ← hw, hplace]
    refine ⟨rfl, ?_⟩
    show dv.nodes.map _ = _
    rw [hdv, List.map_cons, List.map_nil, if_pos rfl]
  obtain ⟨kcoord, ksch, -, kfiles, -, kmem, kctl, -⟩ := w.settle_keeps dv pos (dv.frameOf w.coord)
  rw [← hv] at kcoord ksch kfiles kmem kctl
  refine ⟨s.restoreNode n.id, v, rfl, ?_, kfiles.trans hfiles, kmem.trans hmem, ?_, ksch.trans hsch, kctl.trans hctl, hnodes⟩
  · rw [State.tileAt, hcore]
    exact if_pos (by rw [Tile.isAt, kcoord, hcoord, ksch, hsch]; simp)
  · rw [← hfull, hv]
    rfl

end

/-! Quarantine and migration (R20 to R24, R378). -/

section

variable {s : State} {c : Coord} {p : Pos} {r : Region}

theorem Device.region_of {dv : Device} {k : Nat} (h : dv.regions[k]? = some r) : dv.region k = r := by rw [Device.region, h]; rfl

theorem Device.withRegion_eq {dv : Device} {k : Nat} (h : dv.regions[k]? = some r) (f : Region → Region) :
    dv.withRegion k f = { dv with regions := dv.regions.set k (f r) } := by rw [Device.withRegion, h]

/-- A region that is set is there. -/
theorem regions_set {l : List Region} {k : Nat} (h : l[k]? = some r) (x : Region) : (l.set k x)[k]? = some x := by
  have hlt : k < l.length := (List.getElem?_eq_some_iff.mp h).1
  rw [List.getElem?_set_self hlt]

/-- The tiles that move depend on the row alone. -/
theorem Device.movedTiles_congr {d d' : Device} {k prow : Nat} (h : (d.region k).row prow = (d'.region k).row prow) (f sp : Nat) :
    d.movedTiles k prow f sp = d'.movedTiles k prow f sp := by
  unfold Device.movedTiles Device.coordAt
  dsimp only
  rw [h]

/-- The migration of a quarantined position as it waits to start. -/
def newMigration (k : Nat) (p : Pos) : Migration := ⟨k, p.region, p.prow, p.pos, 0, [], false, 0, [], false⟩

/-- The device in which a position without a node has been quarantined alone. -/
def Device.quarantined (dv : Device) (p : Pos) (r : Region) : Device :=
  { dv with
    regions := dv.regions.set p.region { r with quar := (r.quar + 1) % 2 ^ 16 }
    migrations := [newMigration dv.nextId p]
    nextId := dv.nextId + 1 }

theorem Device.quarantine_eq {dv : Device} (hr : dv.regions[p.region]? = some r) (hm : dv.migrations = []) (hn : dv.nodeAt c = none) :
    dv.quarantine p c = dv.quarantined p r := by
  rw [Device.quarantine, Device.withRegion_eq hr]
  have hnode : ({ dv with regions := dv.regions.set p.region { r with quar := (r.quar + 1) % 2 ^ 16 } } : Device).nodeAt c = none := hn
  rw [hnode]
  dsimp only
  rw [hm]
  rfl

theorem shift_migration (hp : s.dev.posOf c = some p) (hr : s.dev.regions[p.region]? = some r) (hc : c ∉ r.holes)
    (hm : s.dev.migrations = []) (hn : s.dev.nodeAt c = none) :
    exec (.shiftMigration c) s =
      .next (State.startMigration { s with dev := s.dev.quarantined p r } (newMigration s.dev.nextId p) c) := by
  have hhole : (s.dev.region p.region).holes.elem c = false := by rw [Device.region_of hr]; simpa using hc
  have hnone : s.dev.migrationAt p = none := by rw [Device.migrationAt, hm]; rfl
  have hat : (s.dev.quarantined p r).migrationAt p = some (newMigration s.dev.nextId p) := by
    simp [Device.migrationAt, Device.quarantined, newMigration]
  have hfirst : (s.dev.quarantined p r).firstOf (newMigration s.dev.nextId p) = true := by
    simp [Device.firstOf, Device.quarantined, newMigration]
  show Host.Outcome.next (s.shiftMigration c) = _
  rw [State.shiftMigration, hp]
  dsimp only
  rw [hhole, if_neg Bool.false_ne_true, hnone, Option.isSome_none, if_neg Bool.false_ne_true, State.withDev, Device.quarantine_eq hr hm hn]
  dsimp only
  rw [hat]
  dsimp only
  rw [hfirst]
  rfl

/-- A migration that finds a spare. -/
theorem State.startMigration_eq {m : Migration} {sp : Nat} (hr : s.dev.regions[m.region]? = some r)
    (hsp : nearestSpare m.fail (r.row m.prow).spares = some sp) : s.startMigration m c = { s with dev := { s.dev with
      regions := s.dev.regions.set m.region { r with passes := r.passes.filter (· != ⟨m.region, m.prow, sp⟩) }
      migrations := s.dev.migrations.map fun (x : Migration) => if x.k = m.k then { x with
        spare := sp, moved := s.dev.movedTiles m.region m.prow m.fail sp, started := true, since := s.dev.now
        nodes := s.dev.movedNodes (s.dev.movedTiles m.region m.prow m.fail sp) } else x } } := by
  rw [State.startMigration, Device.region_of hr, hsp]
  dsimp only
  rw [State.withDev, Device.withRegion_eq hr]
  rfl

theorem migration_starts {sp : Nat} (hr : s.dev.regions[p.region]? = some r) (hsp : nearestSpare p.pos (r.row p.prow).spares = some sp) :
    ∃ u, State.startMigration { s with dev := s.dev.quarantined p r } (newMigration s.dev.nextId p) c = u ∧ u.dev.migrations =
        [⟨s.dev.nextId, p.region, p.prow, p.pos, sp, s.dev.movedTiles p.region p.prow p.pos sp, true, s.dev.now,
          s.dev.movedNodes (s.dev.movedTiles p.region p.prow p.pos sp), false⟩] ∧
      (∃ r', u.dev.regions[p.region]? = some r' ∧ r'.quar = (r.quar + 1) % 2 ^ 16 ∧ r'.rows = r.rows) ∧ u.core = s.core := by
  obtain ⟨r1, hr1⟩ : ∃ r1 : Region, r1 = { r with quar := (r.quar + 1) % 2 ^ 16 } := ⟨_, rfl⟩
  obtain ⟨d, hd⟩ : ∃ d, d = s.dev.quarantined p r := ⟨_, rfl⟩
  have hreg : d.regions[p.region]? = some r1 := by rw [hd, hr1]; exact regions_set hr _
  have hrow : (d.region p.region).row p.prow = r.row p.prow := by rw [Device.region_of hreg, hr1]; rfl
  have hmoved : d.movedTiles p.region p.prow p.pos sp = s.dev.movedTiles p.region p.prow p.pos sp :=
    Device.movedTiles_congr (by rw [hrow, Device.region_of hr]) _ _
  have hspare : nearestSpare (newMigration s.dev.nextId p).fail (r1.row (newMigration s.dev.nextId p).prow).spares = some sp := by
    rw [← hsp, hr1]
    rfl
  rw [← hd, State.startMigration_eq (s := { s with dev := d }) (m := newMigration s.dev.nextId p) hreg hspare]
  refine ⟨_, rfl, ?_, ⟨_, regions_set hreg _, by rw [hr1], by rw [hr1]⟩, rfl⟩
  rw [← hmoved, hd]
  show [if s.dev.nextId = s.dev.nextId then _ else _] = _
  rw [if_pos rfl]
  rfl

/-- A migration that finds no spare. -/
theorem migration_jogs (hr : s.dev.regions[p.region]? = some r) (hc : c ∉ r.holes) (hn : s.dev.nodeAt c = none)
    (hsp : (r.row p.prow).spares = []) :
    ∃ u, State.startMigration { s with dev := s.dev.quarantined p r } (newMigration s.dev.nextId p) c = u ∧ u.dev.migrations = [] ∧
      (∃ r', u.dev.regions[p.region]? = some r' ∧ r'.holes = r.holes ++ [c]) ∧ u.core = s.core := by
  obtain ⟨r1, hr1⟩ : ∃ r1 : Region, r1 = { r with quar := (r.quar + 1) % 2 ^ 16 } := ⟨_, rfl⟩
  have hreg : (s.dev.quarantined p r).regions[p.region]? = some r1 := by rw [hr1]; exact regions_set hr _
  have hspare : nearestSpare (newMigration s.dev.nextId p).fail (((s.dev.quarantined p r).region (newMigration s.dev.nextId p).region).row
      (newMigration s.dev.nextId p).prow).spares = none := by
    have hrow : ((s.dev.quarantined p r).region p.region).row p.prow = r.row p.prow := by rw [Device.region_of hreg, hr1]; rfl
    show nearestSpare p.pos (((s.dev.quarantined p r).region p.region).row p.prow).spares = none
    rw [hrow, hsp]
    rfl
  obtain ⟨d, hd⟩ : ∃ d : Device, d = { (s.dev.quarantined p r).withRegion p.region fun r => { r with holes := if r.holes.elem c then r.holes else r.holes ++ [c] } with
      migrations := (s.dev.quarantined p r).migrations.filter (·.k != s.dev.nextId) } := ⟨_, rfl⟩
  have hnode : d.nodeAt c = none := by rw [hd, Device.withRegion_eq hreg]; exact hn
  have hjog : State.startMigration { s with dev := s.dev.quarantined p r } (newMigration s.dev.nextId p) c = { s with dev := d } := by
    rw [State.startMigration, hspare]
    dsimp only
    rw [State.routeJog, State.withDev]
    dsimp only
    have hnode' := hnode
    rw [hd] at hnode'
    rw [show (newMigration s.dev.nextId p).region = p.region from rfl, show (newMigration s.dev.nextId p).k = s.dev.nextId from rfl, hnode', hd]
  refine ⟨_, hjog, ?_, ⟨{ r1 with holes := r.holes ++ [c] }, ?_, rfl⟩, rfl⟩
  · rw [hd]
    simp [Device.quarantined, newMigration]
  · have hin : r1.holes.elem c = false := by rw [hr1]; simpa using hc
    rw [hd, Device.withRegion_eq hreg]
    dsimp only
    rw [hin, if_neg Bool.false_ne_true, hr1]
    exact regions_set (regions_set hr _) _

/-- The map change of a migration whose moved tiles hold no task. -/
theorem State.remap_swaps {m : Migration} {x : RowRec} (hm : s.dev.migrations = [m]) (hr : s.dev.regions[m.region]? = some r)
    (hx : r.rows[m.prow]? = some x) (ht : ∀ c ∈ m.moved, s.tileAt c = none) (hne : m.fail ≠ m.spare) :
    ∃ r' y, (s.remap m).dev.migrations = [] ∧ (s.remap m).dev.regions[m.region]? = some r' ∧
      r'.rows[m.prow]? = some y ∧ r'.gen = (r.gen + 1) % 2 ^ 32 ∧ bitOf y.qmask m.fail = true ∧ bitOf y.posmap m.fail = false ∧
      bitOf y.posmap m.spare = true ∧ (∀ k, k ≠ m.fail → k ≠ m.spare → bitOf y.posmap k = bitOf x.posmap k) ∧ (s.remap m).core = s.core ∧
      (s.remap m).dev.nodes = s.dev.nodes := by
  obtain ⟨y, hy⟩ : ∃ y : RowRec, y = { x with
    qmask := putBit x.qmask m.fail true, posmap := putBit (putBit x.posmap m.fail false) m.spare true } := ⟨_, rfl⟩
  obtain ⟨d, hd⟩ : ∃ d, d = s.dev.writeRow m.region m.prow y := ⟨_, rfl⟩
  have hrow : (s.dev.region m.region).row m.prow = x := by rw [Device.region_of hr, Region.row, hx]; rfl
  obtain ⟨r', hr'⟩ : ∃ r' : Region, r' = { r with rows := setAt r.rows m.prow y, gen := (r.gen + 1) % 2 ^ 32 } := ⟨_, rfl⟩
  have hstore : Device.Reports { s.dev with regions := s.dev.regions.set m.region r' } d := by
    rw [hd, Device.writeRow, Device.withRegion_eq hr, hr']
    exact Device.storeMap_reports _ _
  have hstay : ∀ (l : List Coord), (∀ c ∈ l, s.tileAt c = none) → l.foldl State.movePos { s with dev := d } = { s with dev := d } := by
    intro l
    induction l with
    | nil => exact fun _ => rfl
    | cons c l ih =>
      intro h
      have hnone : State.tileAt { s with dev := d } c = none := h c List.mem_cons_self
      have hone : State.movePos { s with dev := d } c = { s with dev := d } := by rw [State.movePos, hnone]
      rw [List.foldl_cons, hone]
      exact ih fun c hc => h c (List.mem_cons_of_mem _ hc)
  have hremap : s.remap m = { s with dev := { d with migrations := d.migrations.filter (·.k != m.k) } } := by
    have hmap : (s.withDev fun dv => dv.writeRow m.region m.prow { (dv.region m.region).row m.prow with
        qmask := putBit ((dv.region m.region).row m.prow).qmask m.fail true
        posmap := putBit (putBit ((dv.region m.region).row m.prow).posmap m.fail false) m.spare true }) = { s with dev := d } := by
      rw [State.withDev, hrow, hd, hy]
    rw [State.remap]
    dsimp only
    rw [hmap, hstay _ (by split; exacts [fun c hc => ht c (List.mem_reverse.mp hc), ht])]
    rfl
  refine ⟨r', y, ?_, ?_, ?_, by rw [hr'], ?_, ?_, ?_, fun k hk hk' => ?_, by rw [hremap], by rw [hremap]; exact hstore.nodes⟩
  · rw [hremap]
    show d.migrations.filter _ = []
    rw [hstore.migrations, hm]
    simp
  · rw [hremap]
    show d.regions[m.region]? = _
    rw [hstore.regions]
    exact regions_set hr _
  · have hlt : m.prow < r.rows.length := (List.getElem?_eq_some_iff.mp hx).1
    rw [hr', setAt]
    exact List.getElem?_set_self hlt
  · rw [hy, bitOf_putBit, if_pos rfl]
  · rw [hy, bitOf_putBit, if_neg hne, bitOf_putBit, if_pos rfl]
  · rw [hy, bitOf_putBit, if_pos rfl]
  · rw [hy, bitOf_putBit, if_neg hk', bitOf_putBit, if_neg hk]

/-- Where there are no nodes, a migration that fails changes the map and no more. -/
theorem State.migFail_of_no_nodes {m : Migration} (hn : (s.remap m).dev.nodes = []) : s.migFail m = s.remap m := by
  have hnone : m.nodes.filterMap (s.remap m).dev.node? = [] :=
    List.filterMap_eq_nil_iff.mpr fun k _ => by rw [Device.node?, hn]; rfl
  rw [State.migFail]
  dsimp only
  rw [hnone]
  rfl

theorem migration_remap {m : Migration} (hm : s.dev.migrations = [m]) (hs : m.started = true) (hn : s.dev.nodes = [])
    (hrn : (s.remap m).dev.nodes = []) : exec (.migrationRemap m.k) s = .next (s.remap m) := by
  have hfind : s.dev.migrations.find? (·.k == m.k) = some m := by simp [hm]
  have hat (u : State) (h : u.dev.nodes = []) (c : Coord) : u.dev.nodeAt c = none := by rw [Device.nodeAt, h]; rfl
  have hstop : s.movedStopped m = true := List.all_eq_true.mpr fun c _ => by rw [hat s hn c]
  have hsave : ∀ l : List Nat, l.foldl (Device.saveMoved m) (true, s.dev) = (true, s.dev) := by
    intro l
    induction l with
    | nil => rfl
    | cons k l ih =>
      have hk : Device.saveMoved m (true, s.dev) k = (true, s.dev) := by rw [Device.saveMoved, Device.node?, hn]; rfl
      rw [List.foldl_cons, hk, ih]
  have hmoved : ∀ l : List Coord, l.foldl (State.resumeMoved m) (s.remap m) = s.remap m := by
    intro l
    induction l with
    | nil => rfl
    | cons c l ih =>
      have hc : State.resumeMoved m (s.remap m) c = s.remap m := by rw [State.resumeMoved, hat _ hrn c]
      rw [List.foldl_cons, hc, ih]
  have hstops : ∀ l : List Nat, l.foldl State.resumeStop (s.remap m) = s.remap m := by
    intro l
    induction l with
    | nil => rfl
    | cons k l ih =>
      have hk : State.resumeStop (s.remap m) k = s.remap m := by rw [State.resumeStop, Device.node?, hrn]; rfl
      rw [List.foldl_cons, hk, ih]
  show Host.Outcome.next (s.migrationRemap m.k) = _
  rw [State.migrationRemap, hfind]
  dsimp only
  rw [hs, hstop, hsave]
  dsimp only
  rw [hmoved, hstops, State.migFail_of_no_nodes hrn]
  split
  · next h => exact absurd h (by simp)
  · rw [ite_self]

theorem migration_timeout {m : Migration} (hm : s.dev.migrations = [m]) (hs : m.started = true) (hlate : m.since + 500 ≤ s.dev.now)
    (hrn : (s.remap m).dev.nodes = []) : exec (.migrationTimeout m.k) s = .next (s.remap m) := by
  have hfind : s.dev.migrations.find? (·.k == m.k) = some m := by simp [hm]
  show Host.Outcome.next (s.migrationTimeout m.k) = _
  rw [State.migrationTimeout, hfind]
  dsimp only
  rw [hs, decide_eq_true hlate, State.migFail_of_no_nodes hrn]
  rfl

end

/-- Settles O55: each step by what it leaves of a machine with the one node, tile or migration that the statement gives it. -/
theorem preemptionSteps : Obligations.PreemptionSteps := by
  refine ⟨fun s c n t hn hst hm ht _ hrun hpend hb hg => ⟨_, preempt_stop hn hst hm ht hrun hpend hb hg, (t.stopCore_isAt hrun).2.2,
      fun hq hf hv _ hs => Tile.stopCore_quiet hq hf hv hs hrun⟩,
    fun s n t u h hst hs hu hstop => stop_ack h hst hs hu hstop,
    fun s n t sl dv h hst hs hreg hsl hw => save_phase h hst hs hreg hsl hw,
    fun s n t h hst => preempt_complete h hst,
    fun s n im sl pos code dv hn hst himg hsl hidle ho _ _ hh hr hc hok hgood hread hdv hholds _ hf _ hs hpos => ?_,
    fun s c p r hp hr hc hm hn => ?_,
    fun s m r x hm hs hr hx hn _ ht hne => ?_⟩
  · obtain ⟨u, v, he, hat, hfiles, hmem, hfull, hsch, hctl, hnodes⟩ :=
      restore_node hn hst himg hsl hidle ho hh hok hgood hread hdv hholds hf hs hpos
    have hprim : n.primaryOf ⟨n.place.rowlo, n.place.collo⟩ = ⟨n.place.rowlo, n.place.collo⟩ := by
      have hhas : n.place.has ⟨n.place.rowlo, n.place.collo⟩ = true := by simp [Rect.has, hr, hc]
      rw [Node.primaryOf, hhas, if_pos rfl]
    refine ⟨u, v, he, hat, hfiles, hmem, hfull, hsch, ?_, ?_, ?_, by rw [hctl, Ctl.place_fmt], hnodes⟩
    · rw [hctl, Ctl.place, hprim]
      exact coordRow_low _ _ _
    · rw [hctl, Ctl.place, hprim]
      exact coordCol_low _ _
    · rw [hctl, Ctl.place, hprim]
      simp [Rect.rank]
  · rw [shift_migration hp hr hc hm hn]
    refine ⟨fun sp hsp => ?_, fun hsp => ?_⟩
    · obtain ⟨u, hu, h⟩ := migration_starts (s := s) (c := c) hr hsp
      exact ⟨u, congrArg _ hu, h⟩
    · obtain ⟨u, hu, h⟩ := migration_jogs (s := s) hr hc hn hsp
      exact ⟨u, congrArg _ hu, h⟩
  · obtain ⟨r', y, h1, h2, h3, h4, h5, h6, h7, h8, h9, hrn⟩ := State.remap_swaps hm hr hx ht hne
    exact ⟨⟨_, r', y, migration_remap hm hs hn (hrn.trans hn), h1, h2, h3, h4, h5, h6, h7, h8, h9⟩,
      fun hlate => ⟨_, r', y, migration_timeout hm hs hlate (hrn.trans hn), h1, h2, h3, h4, h5, h6, h7, h8, h9⟩⟩

end Sys2Proof.Machine
end

section
/-! SUPPORT. What the work of the Hearths leaves: the Kiln, and the number of frames that each has ended (R344, R345, R356 to R361). -/

namespace Sys2Proof.Machine

/-- A device with the Kiln of another, whose Hearths have ended as many frames. -/
structure Device.Lasts (dv u : Device) : Prop where
  kiln : u.kiln = dv.kiln
  frames : u.regions.map Region.frame = dv.regions.map Region.frame

theorem Device.Lasts.refl (dv : Device) : dv.Lasts dv := ⟨rfl, rfl⟩

theorem Device.Lasts.trans {a b c : Device} (h : a.Lasts b) (k : b.Lasts c) : a.Lasts c :=
  ⟨k.kiln.trans h.kiln, k.frames.trans h.frames⟩

theorem Device.Lasts.foldl {α : Type} {f : Device → α → Device} (h : ∀ dv x, Device.Lasts dv (f dv x)) (l : List α) (dv : Device) :
    dv.Lasts (l.foldl f dv) := by
  induction l generalizing dv with
  | nil => exact .refl dv
  | cons x l ih => exact (h dv x).trans (ih (f dv x))

theorem State.foldl_lasts {α : Type} {f : State → α → State} (h : ∀ (s : State) x, s.dev.Lasts (f s x).dev) (l : List α) (s : State) :
    s.dev.Lasts (l.foldl f s).dev := by
  induction l generalizing s with
  | nil => exact .refl _
  | cons x l ih => exact (h s x).trans (ih (f s x))

theorem Device.Settles.lasts {dv u : Device} (h : dv.Settles u) : dv.Lasts u := ⟨h.kiln, congrArg _ h.regions⟩

theorem Device.Reports.lasts {dv u : Device} (h : dv.Reports u) : dv.Lasts u := h.settles.lasts

theorem Device.Serves.lasts {dv u : Device} (h : dv.Serves u) : dv.Lasts u := h.settles.lasts

/-- The frame of a region lasts. -/
theorem Device.Lasts.frame {dv u : Device} (h : dv.Lasts u) {k : Nat} {r : Region} (hr : dv.regions[k]? = some r) :
    ∃ r', u.regions[k]? = some r' ∧ r'.frame = r.frame := by
  have hf := congrArg (·[k]?) h.frames
  simp only [List.getElem?_map, hr, Option.map_some] at hf
  cases hu : u.regions[k]? with
  | none => rw [hu] at hf; exact absurd hf (by simp)
  | some r' => rw [hu] at hf; exact ⟨r', rfl, by simpa using hf⟩

theorem Device.withRegion_lasts (dv : Device) (k : Nat) {f : Region → Region} (hf : ∀ x, (f x).frame = x.frame) :
    dv.Lasts (dv.withRegion k f) := by
  unfold Device.withRegion
  split
  · next x hx =>
    refine ⟨rfl, ?_⟩
    show (dv.regions.set k (f x)).map Region.frame = _
    rw [List.map_set, hf]
    refine List.ext_getElem? fun i => ?_
    by_cases hi : i = k
    · subst hi
      rw [List.getElem?_set_self (by simpa using (List.getElem?_eq_some_iff.mp hx).1), List.getElem?_map, hx]
      rfl
    · rw [List.getElem?_set_ne (Ne.symm hi)]
  · exact .refl dv

theorem Device.nodes_lasts (dv : Device) (l : List Node) : dv.Lasts { dv with nodes := l } := ⟨rfl, rfl⟩

theorem Device.withNode_lasts (dv : Device) (id : Nat) (f : Node → Node) : dv.Lasts (dv.withNode id f) := dv.nodes_lasts _

/-! Queues (R346 to R350). -/

theorem Device.withQueue_settles (dv : Device) (q : Nat) (f : Queue → Queue) : dv.Settles (dv.withQueue q f) := dv.setQueue_settles _

theorem Device.nextId_settles (dv : Device) (n : Nat) : dv.Settles { dv with nextId := n } :=
  ⟨rfl, rfl, rfl, rfl, rfl, rfl, rfl, rfl, rfl, rfl, rfl, rfl, rfl⟩

theorem Device.takePacket_settles (dv : Device) (q bits : Nat) (ix : Option Nat) (call : Option Packet) (frame : Nat) :
    dv.Settles (dv.takePacket q bits ix call frame) := by
  unfold Device.takePacket
  dsimp only
  split
  · exact dv.haltQueue_settles _ _ _ _
  · split
    · exact dv.haltQueue_settles _ _ _ _
    · exact (dv.nextId_settles _).trans (Device.setQueue_settles _ _)

theorem Device.takeOne_settles (dv : Device) (q frame : Nat) : dv.Settles (dv.takeOne q frame).2 := by
  unfold Device.takeOne
  dsimp only
  split
  · exact .refl dv
  · split
    · next c _ =>
      have hread := (dv.hRead_serves (dv.queue q).ctx c.rest.1 64).settles
      split
      · exact hread.trans (Device.haltQueue_settles _ _ _ _ _)
      · dsimp only
        exact (hread.trans (Device.withQueue_settles _ _ _)).trans (Device.takePacket_settles _ _ _ _ _ _)
    · split
      · dsimp only
        exact dv.withQueue_settles _ _
      · have hread := (dv.hRead_serves (dv.queue q).ctx ((dv.queue q).rbase + 64 * ((dv.queue q).rd % 2 ^ (dv.queue q).rlog)) 64).settles
        split
        · exact hread.trans (Device.haltQueue_settles _ _ _ _ _)
        · split
          · dsimp only
            exact hread.trans (Device.withQueue_settles _ _ _)
          · dsimp only
            exact (hread.trans (Device.withQueue_settles _ _ _)).trans (Device.takePacket_settles _ _ _ _ _ _)

theorem Device.takeMany_settles (q frame fuel : Nat) (dv : Device) : dv.Settles (Device.takeMany q frame fuel dv) := by
  induction fuel generalizing dv with
  | zero => exact .refl dv
  | succ fuel ih =>
    rw [Device.takeMany]
    split
    · exact (dv.takeOne_settles q frame).trans (ih _)
    · exact dv.takeOne_settles q frame

theorem Device.enableQueue_settles (dv : Device) (q d : Nat) (restart : Bool) : dv.Settles (dv.enableQueue q d restart) := by
  have hwith := dv.withQueue_settles q fun x => { x with desc := d, en := true, fresh := x.fresh || !restart }
  unfold Device.enableQueue
  dsimp only
  split
  · exact hwith.trans (Device.haltQueue_settles _ _ _ _ _)
  · split
    · exact hwith.trans (Device.setQState_settles _ _ _)
    · have hread := hwith.trans (Device.hRead_serves _ (bitsOf d 96 8) (bitsOf d 192 64 + 8) 8).settles
      split
      · exact hread.trans (Device.haltQueue_settles _ _ _ _ _)
      · exact (hread.trans (Device.withQueue_settles _ _ _)).trans (Device.setQState_settles _ _ _)

theorem Device.pollQueue_settles (dv : Device) (q frame : Nat) : dv.Settles (dv.pollQueue q frame) := by
  have hmeet := (dv.meet_serves (dv.queueAt q) 64).settles
  unfold Device.pollQueue
  dsimp only
  split
  · split
    · exact (hmeet.trans (Device.withQueue_settles _ _ _)).trans (Device.setQState_settles _ _ _)
    · exact hmeet
  · split
    · exact hmeet.trans (Device.enableQueue_settles _ _ _ _)
    · split
      · split
        · exact hmeet.trans (Device.enableQueue_settles _ _ _ _)
        · exact hmeet
      · exact (hmeet.trans (Device.withQueue_settles _ _ _)).trans (Device.takeMany_settles _ _ _ _)

theorem Device.publish_settles (dv : Device) (q : Nat) : dv.Settles (dv.publish q) := by
  unfold Device.publish
  dsimp only
  split
  · exact .refl dv
  · have hwrite := (dv.hWrite_serves (dv.queue q).ctx ((dv.queue q).ctl + 8) (valBytes 8 (dv.queue q).rd)).settles
    split
    · exact (hwrite.trans (Device.withQueue_settles _ _ _)).trans (Device.haltQueue_settles _ _ _ _ _)
    · exact (hwrite.trans (Device.withQueue_settles _ _ _)).trans (Device.withQueue_settles _ _ _)

/-! Tiles that go, and the Hearths' records of themselves (R345, R361). -/

theorem Region.harvest_frame (x : Region) (l : List (Option Cause × Nat)) : (x.harvest l).frame = x.frame := by
  unfold Region.harvest
  induction l generalizing x with
  | nil => rfl
  | cons c l ih =>
    rw [List.foldl_cons, ih]
    split <;> rfl

theorem Device.leave_lasts (dv : Device) (t : Tile) : dv.Lasts (dv.leave t) :=
  dv.withRegion_lasts _ fun x => x.harvest_frame _

theorem State.removeTiles_lasts (s : State) (p : Tile → Bool) : s.dev.Lasts (s.removeTiles p).dev := by
  have hall : s.dev.Lasts (((s.core :: s.others).filter fun t => p t && t.sch.status != .absent).foldl Device.leave s.dev) :=
    .foldl Device.leave_lasts _ _
  unfold State.removeTiles
  dsimp only
  split
  · split <;> exact hall
  · exact hall

theorem Device.heartbeat_lasts (dv : Device) (h : Nat) : dv.Lasts (dv.heartbeat h) := (dv.putPhys_reports _ _ _).lasts

theorem Device.checkpoint_lasts (dv : Device) (h : Nat) : dv.Lasts (dv.checkpoint h) :=
  .foldl (fun d _ => d.withRegion_lasts _ (by intro; rfl)) _ _

theorem Device.frameEnd_lasts (dv : Device) (h : Nat) : dv.Lasts (dv.frameEnd h) :=
  ((dv.heartbeat_lasts h).trans (Device.checkpoint_lasts _ h)).trans (.foldl (fun d q => (d.publish_settles q).lasts) _ _)

theorem State.relaunch_lasts (s : State) (r : Nat) : s.dev.Lasts (s.relaunch r).dev :=
  State.foldl_lasts (fun s _ => (s.removeTiles_lasts _).trans (Device.withNode_lasts _ _ _)) _ _

theorem Device.queues_lasts (dv : Device) (l : List Queue) : dv.Lasts { dv with queues := l } := ⟨rfl, rfl⟩

theorem State.adopt_lasts (s : State) (h : Nat) : s.dev.Lasts (s.adopt h).dev := by
  unfold State.adopt
  split
  · refine State.foldl_lasts (fun s r => ?_) _ _
    refine .trans ?_ (State.relaunch_lasts _ r)
    refine .trans ?_ (.foldl (fun d c => (d.report_reports _).lasts) _ _)
    exact ((s.dev.withRegion_lasts r (by intro; rfl)).trans (Device.heartbeat_lasts _ r)).trans (Device.queues_lasts _ _)
  · exact .foldl (fun d x => ((d.setQState_settles _ _).trans (Device.event_settles _ _ _)).lasts) _ _

theorem State.watch_lasts (s : State) : s.dev.Lasts s.watch.dev := by
  refine State.foldl_lasts (fun s r => ?_) _ _
  split
  · exact .refl _
  · have hmiss : s.dev.Lasts (s.withDev fun dv => dv.withRegion r fun x => { x with missed := x.missed + 1 }).dev :=
      s.dev.withRegion_lasts r (by intro; rfl)
    dsimp only
    split
    · exact hmiss.trans (State.adopt_lasts _ r)
    · exact hmiss

theorem State.lastStop_lasts (s : State) : s.dev.Lasts s.lastStop.dev := by
  unfold State.lastStop
  split
  · exact .refl _
  · refine State.foldl_lasts (fun s r => ?_) _ _
    refine .trans ?_ (State.adopt_lasts _ r)
    exact s.dev.withRegion_lasts r (by intro; rfl)

/-! The scheduling cycle (R356 to R359). -/

theorem State.beginStopAt_lasts (s : State) (n : Node) (packet : Bool) (sl : Nat × Nat) : s.dev.Lasts (s.beginStopAt n packet sl).dev := by
  unfold State.beginStopAt
  refine .trans ?_ (Device.withNode_lasts _ _ _)
  split
  · exact (s.dev.say_reports _ _ _ _ _ _ _ _).lasts
  · exact .refl _

theorem Device.draw_lasts (dv : Device) : dv.Lasts dv.draw := dv.draw_serves.lasts

theorem Device.takeSlots_lasts (dv : Device) (n : Node) : dv.Lasts (dv.takeSlots n).2 := by
  unfold Device.takeSlots
  dsimp only
  split
  · exact dv.draw_lasts
  · exact .refl dv

theorem State.beginStop_lasts (s : State) (id : Nat) (packet : Bool) : s.dev.Lasts (s.beginStop id packet).dev := by
  unfold State.beginStop
  split
  · exact .refl _
  · dsimp only
    split
    · exact .refl _
    · exact (s.dev.takeSlots_lasts _).trans (State.beginStopAt_lasts { s with dev := (s.dev.takeSlots _).2 } _ _ _)

theorem State.displace_lasts (l : List Node) (s : State) : s.dev.Lasts (State.displace l s).dev := by
  induction l generalizing s with
  | nil => exact .refl _
  | cons m l ih =>
    rw [State.displace]
    split
    · refine .trans ?_ (ih _)
      exact s.dev.draw_lasts.trans (State.beginStopAt_lasts (s.withDev Device.draw) _ _ _)
    · exact ih s

theorem State.claim_lasts (s : State) (n : Node) : s.dev.Lasts (s.claim n).dev := by
  unfold State.claim
  refine .trans ?_ (State.displace_lasts _ _)
  refine ⟨rfl, ?_⟩
  show (s.dev.regions.map _).map Region.frame = _
  rw [List.map_map]
  rfl

theorem State.choosePlace_lasts (s : State) (n : Node) (lvl : Nat) : s.dev.Lasts (s.choosePlace n lvl).2.dev := by
  unfold State.choosePlace
  dsimp only
  split
  · exact .refl _
  · split
    · exact s.dev.draw_lasts
    · exact (s.dev.draw_lasts.trans (Device.draw_lasts _)).trans (Device.draw_lasts _)

theorem Device.ptr_lasts (dv : Device) (l : List Nat) : dv.Lasts { dv with ptr := l } := ⟨rfl, rfl⟩

theorem State.tryQueues_lasts (lvl : Nat) (l : List Nat) (s : State) : s.dev.Lasts (State.tryQueues lvl l s).dev := by
  induction l generalizing s with
  | nil => exact .refl _
  | cons q l ih =>
    rw [State.tryQueues]
    split
    · exact ih s
    · dsimp only
      split
      · refine .trans ?_ (ih _)
        exact ((s.choosePlace_lasts _ lvl).trans (State.claim_lasts _ _)).trans (Device.ptr_lasts _ _)
      · refine .trans ?_ (ih _)
        exact s.choosePlace_lasts _ lvl

theorem State.scheduleCycle_lasts (s : State) : s.dev.Lasts s.scheduleCycle.dev :=
  State.foldl_lasts (fun s lvl => s.tryQueues_lasts lvl _) _ _

theorem Device.lend_lasts (fuel : Nat) (dv : Device) : dv.Lasts (Device.lend fuel dv) := by
  induction fuel generalizing dv with
  | zero => exact .refl dv
  | succ fuel ih => exact (dv.nodes_lasts _).trans (ih _)

theorem Device.relend_lasts (dv : Device) : dv.Lasts dv.relend := (dv.nodes_lasts _).trans (Device.lend_lasts _ _)

theorem Device.now_lasts (dv : Device) (n : Nat) : dv.Lasts { dv with now := n } := ⟨rfl, rfl⟩

theorem State.sharedFrame_lasts (s : State) : s.dev.Lasts s.sharedFrame.dev := by
  obtain ⟨a, ha⟩ : ∃ a : State, a = s.withDev fun dv => { dv with now := dv.now + 2 } := ⟨_, rfl⟩
  obtain ⟨b, hb⟩ : ∃ b : State, b = a.watch.withDev fun dv => { dv with nodes := dv.nodes.map dv.ageNode } := ⟨_, rfl⟩
  obtain ⟨c, hc⟩ : ∃ c : State, c = b.withDev Device.relend := ⟨_, rfl⟩
  have hnow : s.dev.Lasts a.dev := by rw [ha]; exact s.dev.now_lasts _
  have hage : a.watch.dev.Lasts b.dev := by rw [hb]; exact a.watch.dev.nodes_lasts _
  have hlend : b.dev.Lasts c.dev := by rw [hc]; exact b.dev.relend_lasts
  have hcycle : s.dev.Lasts c.scheduleCycle.dev :=
    (((hnow.trans a.watch_lasts).trans hage).trans hlend).trans c.scheduleCycle_lasts
  unfold State.sharedFrame
  rw [← ha]
  dsimp only
  rw [← hb, ← hc]
  generalize c.scheduleCycle = d at hcycle
  split <;> split <;> exact hcycle

/-! The frame (R344, R376). -/

theorem State.lichenFrame_lasts (s : State) (r : Nat) : s.dev.Lasts (s.lichenFrame r).dev := by
  have hfree : s.dev.Lasts { s.dev with free := s.dev.free + 2 ^ 20 + 1 } := (s.dev.free_reports _).lasts
  unfold State.lichenFrame
  dsimp only
  split
  · split
    · exact hfree.trans (Device.withRegion_lasts _ _ (by intro; rfl))
    · exact hfree
  · exact hfree

end Sys2Proof.Machine
end

section
/-! SUPPORT. The frames of the Hearths, the reliability functions and the refinement loop (R344, R361 to R382). -/

namespace Sys2Proof.Machine

section

variable {s : State} {h : Nat} {r : Region}

/-! A frame (R344). -/

theorem hearth_frame (hr : s.dev.regions[h]? = some r) (hrun : s.dev.runs h = true) :
    ∃ u r', exec (.hearthFrame h) s = .next u ∧ u.dev.regions[h]? = some r' ∧ r'.frame = r.frame + 1 := by
  obtain ⟨d, hd⟩ : ∃ d, d = s.dev.frameEnd h := ⟨_, rfl⟩
  obtain ⟨x, hx, hxf⟩ := (hd ▸ s.dev.frameEnd_lasts h : s.dev.Lasts d).frame hr
  obtain ⟨a, ha⟩ : ∃ a : State, a = s.withDev fun dv =>
      { (dv.frameEnd h).withRegion h fun x =>
          { x with frame := x.frame + 1, cecnt := (x.cecnt + x.hearthSoft) % 2 ^ 32, hearthSoft := 0, req := (dv.frameEnd h).freeBits 8 } with
        free := (dv.frameEnd h).free + 1 } := ⟨_, rfl⟩
  obtain ⟨y, hy, hyf⟩ : ∃ y, a.dev.regions[h]? = some y ∧ y.frame = r.frame + 1 := by
    refine ⟨{ x with frame := x.frame + 1, cecnt := (x.cecnt + x.hearthSoft) % 2 ^ 32, hearthSoft := 0, req := d.freeBits 8 }, ?_, by rw [← hxf]⟩
    rw [ha, State.withDev, ← hd]
    dsimp only
    rw [Device.withRegion_at hx]
  obtain ⟨b, hb⟩ : ∃ b : State, b = (a.withDev fun dv => (dv.served h (a.dev.region h).frame).foldl
      (fun (dv : Device) q => dv.pollQueue q (a.dev.region h).frame) dv).settleQueues := ⟨_, rfl⟩
  have hpoll : a.dev.Lasts b.dev := by
    rw [hb]
    refine .trans ?_ (State.settleQueues_settles _).lasts
    exact .foldl (fun d q => (d.pollQueue_settles q _).lasts) _ _
  obtain ⟨c, hc⟩ : ∃ c : State, c = if b.dev.lead = some h then b.sharedFrame else b := ⟨_, rfl⟩
  have hshared : a.dev.Lasts c.dev := by
    rw [hc]
    split
    · exact hpoll.trans b.sharedFrame_lasts
    · exact hpoll
  have hlast : a.dev.Lasts ((c.push ((c.dev.keeps h).flatMap c.dev.queueSteps)).lichenFrame h).dev :=
    hshared.trans (State.lichenFrame_lasts (c.push ((c.dev.keeps h).flatMap c.dev.queueSteps)) h)
  obtain ⟨z, hz, hzf⟩ := hlast.frame hy
  refine ⟨_, z, ?_, hz, hzf.trans hyf⟩
  show Host.Outcome.next (s.hearthFrame h) = _
  rw [State.hearthFrame, hrun, if_neg (by simp)]
  dsimp only
  rw [← ha, ← hb, ← hc]

/-! A Hearth that stops (R361). -/

theorem Device.region_withRegion_ne {dv : Device} {k : Nat} (hk : k ≠ h) (f : Region → Region) : (dv.withRegion h f).region k = dv.region k := by
  unfold Device.withRegion
  split
  · rw [Device.region, Device.region, List.getElem?_set_ne (Ne.symm hk)]
  · rfl

theorem Device.runs_congr {dv u : Device} {k : Nat} (hready : u.ready = dv.ready) (hreg : u.region k = dv.region k) : u.runs k = dv.runs k := by
  rw [Device.runs, Device.runs, hreg, Device.readyOf, Device.readyOf, hready]

theorem Device.heartbeat_reports (dv : Device) (k : Nat) : dv.Reports (dv.heartbeat k) := dv.putPhys_reports _ _ _

theorem hearth_stop (hr : s.dev.regions[h]? = some r) (hrun : s.dev.runs h = true) {k : Nat} (hk : k ≠ h) (hlt : k < 64) (hkrun : s.dev.runs k = true) :
    ∃ u, exec (.hearthStop h) s = .next u ∧
      u.dev.regions[h]? = some { r with hstate := 1, missed := 0, uecnt := (r.uecnt + 1) % 2 ^ 32 } ∧ u.core = s.core := by
  obtain ⟨d, hd⟩ : ∃ d : Device, d = s.dev.withRegion h fun x => { x with hstate := 1, missed := 0, uecnt := (x.uecnt + 1) % 2 ^ 32 } := ⟨_, rfl⟩
  obtain ⟨e, he⟩ : ∃ e, e = d.heartbeat h := ⟨_, rfl⟩
  have hbeat : d.Reports e := he ▸ d.heartbeat_reports h
  have hready : e.ready = s.dev.ready := hbeat.ready.trans (by rw [hd]; exact (s.dev.withRegion_frame _ _).1)
  have hreg : e.region k = s.dev.region k := by
    rw [Device.region, hbeat.regions, ← Device.region, hd, Device.region_withRegion_ne hk]
  have hlead : e.lead.isSome = true := by
    rw [Device.lead, List.find?_isSome]
    exact ⟨k, List.mem_range.mpr hlt, by rw [Device.runs_congr hready hreg, hkrun]⟩
  refine ⟨s.withDev fun _ => e, ?_, ?_, rfl⟩
  · show execHearthStop h s = _
    rw [execHearthStop, if_pos hrun, State.withDev]
    rw [← hd, ← he, State.lastStop]
    dsimp only
    rw [hlead]
    rfl
  · rw [State.withDev_dev, hbeat.regions, hd, Device.withRegion_at hr]

/-! The RAS window (R371, R372). -/

theorem ras_window (hr : s.dev.regions[h]? = some r) (hlt : h < 64) (hready : (s.dev.readyOf h).ready = true) (hc : s.core.counts = [])
    (ho : s.others = []) : ∃ u, exec (.rasWindow h) s = .next u ∧
      u.dev.regions[h]? = some { r.evaluate r.windowRate with pft := r.pftset } := by
  have hreg : s.dev.region h = r := Device.region_of hr
  have hcounts : s.regionCounts h = [] := by
    rw [State.regionCounts, ho, List.filter_cons]
    split
    · rw [List.flatMap_cons, hc]; rfl
    · rfl
  refine ⟨s.rasWindow h, rfl, ?_⟩
  have hgo : (!(decide (h < 64)) || !(s.dev.readyOf h).ready) = false := by rw [hready, decide_eq_true hlt]; rfl
  rw [State.rasWindow, hgo, if_neg Bool.false_ne_true, hcounts]
  dsimp only
  rw [hreg, Region.harvest, List.foldl_nil, State.withDev_dev]
  generalize Region.rasLine _ = line
  have hset : ∀ d : Device, Device.Reports ((s.dev.withRegion h fun _ => { r.evaluate r.windowRate with pft := r.pftset })) d →
      d.regions[h]? = some { r.evaluate r.windowRate with pft := r.pftset } := fun d hd => by
    rw [hd.regions]
    exact Device.withRegion_at hr _
  dsimp only
  split
  · exact hset _ ((Device.putPhys_reports _ _ _ _).trans (.foldl (fun d c => d.say_reports _ _ _ _ _ _ _ _) _ _))
  · exact hset _ (Device.putPhys_reports _ _ _ _)

/-! A replay (R370). -/

theorem shadow_replay {c : Coord} {t : Tile} {e : Engine} (hr : s.dev.regions[h]? = some r) (ht : s.tileAt c = some t) (hrecs : t.recs = [])
    (hc : regionOf c = h) (hlt : t.health.replays.length < 64) :
    ∃ u v, exec (.shadowReplay c e) s = .next u ∧ u.tileAt c = some v ∧ v.sch.ready = Nat.max t.sch.ready t.sch.cycle + 2 ∧
      v.files = t.files ∧ v.pad = t.pad ∧ u.dev.regions[h]? = some { r with shrepl := (r.shrepl + 1) % 2 ^ 32 } := by
  have hlen : ¬ 64 < t.replaysNow.length := by
    have := List.length_filter_le (fun c => decide (t.sch.cycle < c)) t.health.replays
    rw [Tile.replaysNow, List.length_cons]
    omega
  generalize hl : t.replaysNow = l at hlen
  obtain ⟨v, hv⟩ : ∃ v : Tile, v = { t.stall2 with health := { t.health with replays := l } } := ⟨_, rfl⟩
  have hat : v.isAt c = true := by
    have := State.tileAt_isAt ht
    rw [hv]
    exact this
  have hon : s.onTile c (fun t => { t.stall2 with health := { t.health with replays := l } }) = s.setTile v := by
    rw [hv]
    exact State.onTile_quiet _ ht hrecs
  obtain ⟨f, hf⟩ : ∃ f : Region → Region, f = fun x => { x with shrepl := (x.shrepl + 1) % 2 ^ 32 } := ⟨_, rfl⟩
  refine ⟨(s.setTile v).withDev fun dv => dv.withRegion h f, v, ?_, (State.tileAt_setTile ht hat).1, by rw [hv]; rfl, by rw [hv]; rfl,
    by rw [hv]; rfl, ?_⟩
  · show Host.Outcome.next (s.shadowReplay c) = _
    rw [State.shadowReplay, ht]
    dsimp only
    rw [hl, hon, if_neg hlen, hc, ← hf]
  · rw [State.withDev_dev, State.setTile_dev, Device.withRegion_at hr, hf]

/-! Lichen passes (R376 to R378). -/

theorem State.settleQueues_none (hq : s.dev.queues = []) : s.settleQueues = s := by
  rw [State.settleQueues, hq]
  rfl

theorem State.passStart_eq {p : Pos} (hr : s.dev.regions[p.region]? = some r) (hq : s.dev.queues = []) (hidle : s.idleAt p = true)
    (hp : p ∉ r.passes) : (s.passStart p).core = s.core ∧ (s.passStart p).dev.regions[p.region]? = some { r with
      passes := r.passes ++ [p], wanted := r.wanted.eraseP (·.1 == p) } := by
  have hgo : (!s.idleAt p || (s.dev.region p.region).passes.elem p) = false := by
    rw [hidle, Device.region_of hr]
    simpa using hp
  have hdq : (s.dev.withRegion p.region fun r => { r with passes := r.passes ++ [p], wanted := r.wanted.eraseP (·.1 == p) }).queues = [] := by
    rw [Device.withRegion_eq hr]
    exact hq
  rw [State.passStart, hgo, if_neg Bool.false_ne_true, State.settleQueues_none hdq, State.withDev_core, State.withDev_dev, Device.withRegion_at hr]
  exact ⟨rfl, rfl⟩

/-- What a region's passes become when a migration starts or fails to. -/
theorem Device.withRegion_get (dv : Device) (j k : Nat) (f : Region → Region) :
    (dv.withRegion j f).regions[k]? = if k = j then (dv.regions[k]?).map f else dv.regions[k]? := by
  unfold Device.withRegion
  split
  · next x hx =>
    show (dv.regions.set j (f x))[k]? = _
    split
    · next hk => rw [hk, hx, regions_set hx]; rfl
    · next hk => rw [List.getElem?_set_ne (Ne.symm hk)]
  · next hx =>
    split
    · next hk => rw [hk, hx]; rfl
    · rfl

theorem Device.withRegion_migrations (dv : Device) (j : Nat) (f : Region → Region) : (dv.withRegion j f).migrations = dv.migrations := by
  unfold Device.withRegion
  split <;> rfl

/-- A device in whose regions the same passes run. -/
def Device.SamePasses (dv u : Device) : Prop :=
  ∀ (k : Nat) (r : Region), dv.regions[k]? = some r → ∃ r' : Region, u.regions[k]? = some r' ∧ r'.passes = r.passes

/-- A device in whose regions no pass has come, and only passes on spares that a migration has taken have ended. -/
def Device.DropsPasses (dv u : Device) : Prop :=
  ∀ (k : Nat) (r : Region), dv.regions[k]? = some r → ∃ r' : Region, u.regions[k]? = some r' ∧ (∀ x ∈ r'.passes, x ∈ r.passes) ∧
    ∀ x ∈ r.passes, x ∈ r'.passes ∨ u.chosenSpare x = true

theorem Device.SamePasses.of_regions {dv u : Device} (h : u.regions = dv.regions) : dv.SamePasses u :=
  fun _ r hr => ⟨r, h ▸ hr, rfl⟩

theorem Device.SamePasses.trans {a b c : Device} (h : a.SamePasses b) (h' : b.SamePasses c) : a.SamePasses c := fun k r hr => by
  obtain ⟨x, hx, hxp⟩ := h k r hr
  obtain ⟨y, hy, hyp⟩ := h' k x hx
  exact ⟨y, hy, hyp.trans hxp⟩

theorem Device.SamePasses.drops {a b c : Device} (h : a.SamePasses b) (h' : b.DropsPasses c) : a.DropsPasses c := fun k r hr => by
  obtain ⟨x, hx, hxp⟩ := h k r hr
  obtain ⟨y, hy, hin, hout⟩ := h' k x hx
  exact ⟨y, hy, fun z hz => hxp ▸ hin z hz, fun z hz => hout z (hxp.symm ▸ hz)⟩

theorem Device.SamePasses.dropped {a b : Device} (h : a.SamePasses b) : a.DropsPasses b := fun k r hr => by
  obtain ⟨x, hx, hxp⟩ := h k r hr
  exact ⟨x, hx, fun z hz => hxp ▸ hz, fun z hz => .inl (hxp.symm ▸ hz)⟩

theorem Device.withRegion_samePasses (dv : Device) (j : Nat) {f : Region → Region} (hf : ∀ x, (f x).passes = x.passes) :
    dv.SamePasses (dv.withRegion j f) := fun k r hr => by
  rw [dv.withRegion_get, hr]
  split
  · exact ⟨f r, rfl, hf r⟩
  · exact ⟨r, rfl, rfl⟩

theorem Device.sayAt_regions (dv : Device) (ctx src : Nat) (cause : Cause) (fatal : Bool) (c : Coord) (nodeid : Nat) :
    (dv.sayAt ctx src cause fatal c nodeid).regions = dv.regions := by
  rw [Device.sayAt]
  dsimp only
  rw [(Device.report_reports _ _).regions]

theorem Device.quarantine_samePasses (dv : Device) (p : Pos) (c : Coord) : dv.SamePasses (dv.quarantine p c) := by
  have hcount : dv.SamePasses (dv.withRegion p.region fun r => { r with quar := (r.quar + 1) % 2 ^ 16 }) :=
    dv.withRegion_samePasses _ (by intro; rfl)
  unfold Device.quarantine
  generalize dv.withRegion p.region _ = d at *
  dsimp only
  split
  · exact (hcount.trans (.of_regions (d.sayAt_regions _ _ _ _ _ _))).trans (.of_regions rfl)
  · exact hcount.trans (.of_regions rfl)

/-- A pre-emption that begins changes no region. -/
theorem State.beginStop_frame (s : State) (id : Nat) (packet : Bool) : (s.beginStop id packet).dev.regions = s.dev.regions ∧
    (s.beginStop id packet).core = s.core := by
  unfold State.beginStop
  split
  · exact ⟨rfl, rfl⟩
  · next n _ =>
    have hslots : (s.dev.takeSlots n).2.regions = s.dev.regions := by
      unfold Device.takeSlots
      dsimp only
      split <;> rfl
    dsimp only
    split
    · exact ⟨rfl, rfl⟩
    · refine ⟨?_, rfl⟩
      rw [State.beginStopAt, State.withDev_dev]
      dsimp only
      split
      · exact (Device.say_reports _ _ _ _ _ _ _ _ _).regions.trans hslots
      · exact hslots

theorem State.routeJog_passes (s : State) (m : Migration) (c : Coord) : s.dev.SamePasses (s.routeJog m c).dev ∧ (s.routeJog m c).core = s.core := by
  have hhole : s.dev.SamePasses { s.dev.withRegion m.region fun r => { r with holes := if r.holes.elem c then r.holes else r.holes ++ [c] } with
      migrations := s.dev.migrations.filter (·.k != m.k) } :=
    .trans (s.dev.withRegion_samePasses m.region (by intro; rfl)) (.of_regions rfl)
  unfold State.routeJog
  rw [State.withDev]
  dsimp only
  generalize ({ s.dev.withRegion m.region fun r => { r with holes := if r.holes.elem c then r.holes else r.holes ++ [c] } with
      migrations := s.dev.migrations.filter (·.k != m.k) } : Device) = d at *
  split
  · exact ⟨hhole, rfl⟩
  · next n hn =>
    rw [State.withDev]
    dsimp only
    obtain ⟨e, he⟩ : ∃ e, e = d.sayAt (d.graphOf n).ctx 5 .routejog (!n.preempt) c (nodeidOf (d.graphOf n) n).toNat := ⟨_, rfl⟩
    have hsay : s.dev.SamePasses e := hhole.trans (.of_regions (by rw [he, d.sayAt_regions]))
    rw [← he]
    split
    · exact ⟨hsay.trans (.of_regions rfl), rfl⟩
    · split
      · have hstop := State.beginStop_frame { s with dev := e } n.id false
        exact ⟨hsay.trans (.of_regions hstop.1), hstop.2⟩
      · exact ⟨hsay, rfl⟩

/-- A migration that starts ends the test of the spare that it takes, and no other. -/
theorem State.startMigration_passes (s : State) {m : Migration} (hm : m ∈ s.dev.migrations) (c : Coord) :
    s.dev.DropsPasses (s.startMigration m c).dev ∧ (s.startMigration m c).core = s.core := by
  unfold State.startMigration
  split
  · exact ⟨(s.routeJog_passes m c).1.dropped, (s.routeJog_passes m c).2⟩
  · next sp _ =>
    refine ⟨fun k r hr => ?_, rfl⟩
    rw [State.withDev_dev]
    dsimp only
    rw [s.dev.withRegion_get, hr]
    split
    · next hk =>
      refine ⟨_, rfl, fun x hx => List.mem_of_mem_filter hx, fun x hx => ?_⟩
      by_cases hsp : x = ⟨m.region, m.prow, sp⟩
      · have hmigs : (s.dev.withRegion m.region fun r => { r with passes := r.passes.filter (· != ⟨m.region, m.prow, sp⟩) }).migrations =
            s.dev.migrations := Device.withRegion_migrations _ _ _
        refine .inr (List.any_eq_true.mpr ⟨_, List.mem_map.mpr ⟨m, hmigs ▸ hm, rfl⟩, ?_⟩)
        rw [if_pos rfl, hsp]
        simp
      · exact .inl (List.mem_filter.mpr ⟨hx, by simpa using hsp⟩)
    · exact ⟨r, rfl, fun _ hx => hx, fun _ hx => .inl hx⟩

theorem State.shiftMigration_passes (s : State) (c : Coord) :
    s.dev.DropsPasses (s.shiftMigration c).dev ∧ (s.shiftMigration c).core = s.core := by
  unfold State.shiftMigration
  split
  · exact ⟨(Device.SamePasses.of_regions rfl).dropped, rfl⟩
  · next p _ =>
    split
    · exact ⟨(Device.SamePasses.of_regions rfl).dropped, rfl⟩
    · dsimp only
      obtain ⟨a, ha⟩ : ∃ a : State, a = if (s.dev.migrationAt p).isSome then s else s.withDev fun dv => dv.quarantine p c := ⟨_, rfl⟩
      have hq : s.dev.SamePasses a.dev ∧ a.core = s.core := by
        rw [ha]
        split
        · exact ⟨.of_regions rfl, rfl⟩
        · exact ⟨s.dev.quarantine_samePasses p c, rfl⟩
      rw [← ha]
      split
      · exact ⟨hq.1.dropped, hq.2⟩
      · next m hm =>
        split
        · exact ⟨hq.1.dropped, hq.2⟩
        · have hstart := a.startMigration_passes (List.mem_of_find?_eq_some hm) c
          exact ⟨hq.1.drops hstart.1, hstart.2.trans hq.2⟩

theorem Device.setHealth_samePasses (dv : Device) (j : Nat) (p : Pos) (x : Health) : dv.SamePasses (dv.withRegion j fun r => r.setHealth p x) :=
  dv.withRegion_samePasses j (by intro; rfl)

theorem Device.writeRow_samePasses (dv : Device) (j prow : Nat) (x : RowRec) : dv.SamePasses (dv.writeRow j prow x) := by
  unfold Device.writeRow
  exact .trans (dv.withRegion_samePasses j (by intro; rfl)) (.of_regions (Device.storeMap_reports _ _).regions)

/-- A pass that ends leaves its region, and of the other passes ends only those on spares that a migration takes. -/
theorem State.passEnd_drops {p : Pos} (hr : s.dev.regions[p.region]? = some r) (hp : p ∈ r.passes) : ∃ d : Device,
    d.regions[p.region]? = some { r with passes := r.passes.filter (· != p) } ∧ d.DropsPasses (s.passEnd p).dev ∧ (s.passEnd p).core = s.core := by
  obtain ⟨a, ha⟩ : ∃ a : State, a = s.withDev fun dv =>
      { dv with free := dv.free + 2 }.withRegion p.region fun r => { r with passes := r.passes.filter (· != p) } := ⟨_, rfl⟩
  have hcore : a.core = s.core := by rw [ha]; rfl
  refine ⟨a.dev, by rw [ha, State.withDev_dev]; exact Device.withRegion_at (dv := { s.dev with free := s.dev.free + 2 }) hr _, ?_⟩
  have hin : (!(s.dev.region p.region).passes.elem p) = false := by
    rw [Device.region_of hr]
    simpa using hp
  rw [State.passEnd, hin, if_neg Bool.false_ne_true]
  dsimp only
  rw [← ha, ← hcore]
  generalize Config.freeBit s.dev.free = row
  generalize s.dev.draw.freeBits 8 = found
  generalize (s.dev.region p.region).healthAt p = x
  generalize (if (row && x.spareUsed && !bitOf found 1) = true then found + 2 else found) = units
  generalize (if row = true then { x with rowsFailed := x.spareUsed, spareUsed := true } else x) = x'
  split
  · exact ⟨(a.dev.withRegion_samePasses p.region (by intro; rfl)).dropped, rfl⟩
  · split
    · exact ⟨(Device.SamePasses.of_regions rfl).dropped, rfl⟩
    · split
      · have hshift := State.shiftMigration_passes
        refine ⟨Device.SamePasses.drops ?_ (hshift _ _).1, (hshift _ _).2⟩
        exact .trans (a.dev.setHealth_samePasses _ _ _) (.of_regions rfl)
      · have hhealth := a.dev.setHealth_samePasses p.region p x'
        have hrow := Device.writeRow_samePasses (a.dev.withRegion p.region fun r => r.setHealth p x') p.region p.prow
        rw [State.withDev]
        generalize (a.dev.withRegion p.region fun r => r.setHealth p x') = d at *
        dsimp only
        generalize ({ (a.dev.region p.region).row p.prow with
          qmask := putBit ((a.dev.region p.region).row p.prow).qmask p.pos true } : RowRec) = y
        exact ⟨(hhealth.trans (hrow y)).dropped, rfl⟩

/-! An exposure report is written (R381). -/

theorem Device.putPhys_exposures (dv : Device) (a len v : Nat) : (dv.putPhys a len v).exposures = dv.exposures := (dv.putPhys_reports a len v).exposures

theorem exposure_written {e : Exposure} {i : Nat} (he : s.dev.exposures = [e]) (hreg : e.region = h) (hfree : s.dev.freeReport h = some i) :
    ∃ u, exec (.exposureReportWrite h) s = .next u ∧ u.dev.exposures = [] ∧ u.core = s.core ∧
      (e.ctxs = [] → u.dev = { s.dev with exposures := [] }.putPhys (reportSlot h i) e.bytes.length (bytesVal e.bytes)) := by
  have hfind : s.dev.exposures.find? (·.region == h) = some e := by
    rw [he, List.find?_cons_of_pos (by simp [hreg])]
  have herase : s.dev.exposures.erase e = [] := by rw [he, List.erase_cons_head]
  have hw : s.dev.writeReport h = e.ctxs.foldl (fun (dv : Device) c => dv.report (recordOf c 7 .lichenfail false h 0 0
      (BitVec.ofNat 64 (reportSlot h i)))) ({ s.dev with exposures := [] }.putPhys (reportSlot h i) e.bytes.length (bytesVal e.bytes)) := by
    rw [Device.writeReport, hfind, hfree]
    dsimp only
    rw [herase]
  refine ⟨s.withDev fun dv => dv.writeReport h, rfl, ?_, rfl, fun hctx => ?_⟩
  · rw [State.withDev_dev, hw, (Device.Reports.foldl (fun d c => d.report_reports _) _ _).exposures, Device.putPhys_exposures]
  · rw [State.withDev_dev, hw, hctx, List.foldl_nil]

/-! The injection register (R374). -/

theorem injFields_lt (v : Nat) : injFields v < 2 ^ 64 := by
  simp only [injFields, atBits, bitsOf]
  omega

theorem bitsOf_within {x y lo len : Nat} (h : bitsOf x lo len = bitsOf y lo len) {i k : Nat} (hik : i + k ≤ len) :
    bitsOf x (lo + i) k = bitsOf y (lo + i) k := by
  rw [← bitsOf_bitsOf x lo hik, ← bitsOf_bitsOf y lo hik, h]

theorem injFields_bits (v : Nat) : bitsOf (injFields v) 0 10 = bitsOf v 0 10 ∧ bitOf (injFields v) 30 = bitOf v 30 ∧
    bitOf (injFields v) 31 = bitOf v 31 ∧ bitsOf (injFields v) 44 10 = bitsOf v 44 10 ∧ bitsOf (injFields v) 54 10 = bitsOf v 54 10 := by
  have hlow : bitsOf (injFields v) 0 10 = bitsOf v 0 10 := by
    simp only [injFields, atBits, bitsOf]
    omega
  have hflags : bitsOf (injFields v) 30 2 = bitsOf v 30 2 := by
    rw [injFields, atBits, atBits, atBits]
    generalize ha : bitsOf v 30 2 = a
    generalize bitsOf v 44 20 = b
    have : a < 2 ^ 2 := ha ▸ Nat.mod_lt _ (by decide)
    rw [bitsOf]
    omega
  have hcoord : bitsOf (injFields v) 44 20 = bitsOf v 44 20 := by
    rw [injFields, atBits, atBits, atBits]
    generalize bitsOf v 30 2 = a
    generalize hb : bitsOf v 44 20 = b
    have : b < 2 ^ 20 := hb ▸ Nat.mod_lt _ (by decide)
    rw [bitsOf]
    omega
  refine ⟨hlow, ?_, ?_, bitsOf_within (i := 0) hcoord (by decide), bitsOf_within (i := 10) hcoord (by decide)⟩
  · rw [bitOf_eq, bitOf_eq]
    exact congrArg (· == 1) (bitsOf_within (i := 0) hflags (by decide))
  · rw [bitOf_eq, bitOf_eq]
    exact congrArg (· == 1) (bitsOf_within (i := 1) hflags (by decide))

theorem Device.bar0Read_injctl (dv : Device) (p : Nat) {a : Nat} (ha : a = 0x30000 + 8 * h) (hlt : h < 64) :
    dv.bar0Read p a = (dv.region h).injctl := by
  have hidx : (a - 0x30000) / 8 = h := by omega
  have haligned : (a % 8 != 0) = false := by rw [bne_eq_false_iff_eq]; omega
  rw [Device.bar0Read]
  dsimp only
  rw [haligned, if_neg Bool.false_ne_true, if_neg (by omega), if_neg (by omega), if_neg (by omega), if_neg (by omega), if_neg (by omega),
    if_neg (by omega), if_neg (by omega), if_neg (by omega), if_neg (by omega), if_neg (by omega), if_pos (by omega), hidx, Option.none_or,
    Option.some_or, Option.getD_some, BitVec.ofNat_toNat, BitVec.setWidth_eq]

theorem injctl_written {req : Requester} {v : DWord} {c : Coord} {t : Tile} (hr : s.dev.regions[h]? = some r) (hlt : h < 64) (p : Nat)
    (hreq : req = .host p ∨ req = .kiln) (hc : c = ⟨bitsOf v.toNat 54 10, bitsOf v.toNat 44 10⟩) (hok : coordOk c = true) (hreg : regionOf c = h)
    (habs : s.dev.absent c = false) (ht : s.core = t) (htc : t.coord = c) (hon : bitOf v.toNat 31 = true) :
    ∃ u, exec (.injctlWrite req h v) s = .next u ∧ u.core.inj.armed = 4 * bitsOf v.toNat 2 8 ∧
      u.core.pad.inj.armed = bitsOf v.toNat 0 2 ∧ u.core.inj.again = bitOf v.toNat 30 ∧ u.core.files = t.files ∧
      let x := u.dev.bar0Read p (0x30000 + 8 * h)
      bitsOf x.toNat 0 10 = bitsOf v.toNat 0 10 ∧ bitOf x.toNat 30 = bitOf v.toNat 30 ∧ bitOf x.toNat 31 = true ∧
        bitsOf x.toNat 44 10 = c.col ∧ bitsOf x.toNat 54 10 = c.row := by
  have htarget : injTarget v.toNat = c := by rw [hc]; rfl
  have hgo : (!(decide (h < 64)) || !coordOk (injTarget v.toNat) || regionOf (injTarget v.toNat) != h || s.dev.absent (injTarget v.toNat)) = false := by
    rw [htarget, hok, hreg, habs, decide_eq_true hlt]
    simp
  have hexec : exec (.injctlWrite req h v) s = .next (s.injctlWrite h v.toNat) := by
    rcases hreq with rfl | rfl <;> rfl
  have harm : (bitOf v.toNat 31 && injTarget v.toNat == t.coord) = true := by rw [hon, htarget, htc]; simp
  have hcore : (s.injctlWrite h v.toNat).core = t.arm v.toNat := by
    rw [State.injctlWrite, hgo, if_neg Bool.false_ne_true]
    dsimp only
    rw [ht, htc, if_pos hreg]
  have hread : ((s.injctlWrite h v.toNat).dev.bar0Read p (0x30000 + 8 * h)).toNat = injFields v.toNat := by
    rw [Device.bar0Read_injctl _ _ rfl hlt, State.injctlWrite, hgo, if_neg Bool.false_ne_true]
    dsimp only
    rw [Device.region_of (Device.withRegion_at hr _)]
    rw [BitVec.toNat_ofNat, Nat.mod_eq_of_lt (injFields_lt _)]
  obtain ⟨hlow, hagain, hset, hcol, hrow⟩ := injFields_bits v.toNat
  refine ⟨_, hexec, ?_, ?_, ?_, ?_, ?_⟩
  · rw [hcore, Tile.arm]
    dsimp only
    rw [harm, if_pos rfl, Nat.mul_comm]
  · rw [hcore, Tile.arm]
    dsimp only
    rw [harm, if_pos rfl]
  · rw [hcore, Tile.arm]
    dsimp only
    rw [harm, Bool.true_and]
  · rw [hcore, Tile.arm]
  · dsimp only
    rw [hread, hlow, hagain, hset, hcol, hrow, hc]
    exact ⟨rfl, rfl, hon, rfl, rfl⟩

/-! The refinement loop (R363 to R365). -/

/-- RUN of a graph that reads well: it is taken, and the loop stands at it. -/
theorem State.runLoop_ok {l : LoopCtl} {at_ : LoopAt} {g : List Nat × List (List Nat)} {d : Device} (hctx : s.dev.ctxValid l.ctx = true)
    (hg : s.dev.readGraph l.ctx (l.graphAt at_).1 (l.graphAt at_).2.1 = (.ok g, d)) : ∃ k : Nat × Device,
      k = d.takeGraph l.queue l.ctx (bitsOf l.blk 768 20) (l.graphAt at_).1 none (l.graphAt at_).2.2 g ∧
      s.runLoop l at_ = { s with dev := k.2.setLoop { l with graph := k.1, at_ := at_ } } := by
  refine ⟨_, rfl, ?_⟩
  rw [State.runLoop, hctx, if_neg (by simp)]
  dsimp only
  rw [hg]

theorem refine_starts {x : Queue} {p : Packet} {bytes : List Byte} {d1 d2 d3 : Device} {g : List Nat × List (List Nat)} (hx : s.Submits x p 6)
    (hblk : (s.dev.startPacket x.q p.uid []).hRead x.ctx (bitsOf p.bits 64 64) 128 = (.ok bytes, d1)) (hgood : blkBad (bytesVal bytes) = false)
    (hnorm : d1.normTreeBad x.ctx (bytesVal bytes) = (.ok false, d2)) (hctx : d2.ctxValid x.ctx = true)
    (hg : d2.readGraph x.ctx (bitsOf (bytesVal bytes) 0 64) (bitsOf (bytesVal bytes) 256 12 + 1) = (.ok g, d3)) (hlen : g.2.length = g.1.length) :
    ∃ u l, exec (.refine x.q) s = .next u ∧ l ∈ u.dev.loops ∧ l.at_ = .fact ∧
      l.blk = bytesVal bytes ∧ l.lvl = 0 ∧ l.graph = d3.nextId ∧ u.dev.nodes.length = d3.nodes.length + g.1.length := by
  obtain ⟨l, hl⟩ : ∃ l : LoopCtl, l = ⟨x.q, p.uid, x.ctx, bitsOf p.bits 64 64, bytesVal bytes, 0, .fact, 0, 0, 0, none, 0,
    bitsOf (bytesVal bytes) 800 8⟩ := ⟨_, rfl⟩
  have hlb : l.blk = bytesVal bytes := by rw [hl]
  have hlc : l.ctx = x.ctx := by rw [hl]
  have hlv : l.lvl = 0 := by rw [hl]
  obtain ⟨k, hk, hrun⟩ := State.runLoop_ok (s := { s with dev := d2 }) (l := l) (at_ := .fact) (g := g) (d := d3) (by rw [hlc]; exact hctx)
    (by rw [LoopCtl.graphAt, hlb, hlc]; exact hg)
  obtain ⟨hnodes, -⟩ := d3.takeGraph_nodes l.queue l.ctx (bitsOf l.blk 768 20) (l.graphAt .fact).1 none (l.graphAt .fact).2.2 hlen
  have hexec : exec (.refine x.q) s = .next (({ s with dev := k.2.setLoop { l with graph := k.1, at_ := .fact } } : State).afterStart x.q) := by
    show execRefine x.q s = _
    rw [execRefine, hx.begun]
    dsimp only
    rw [State.refineStart, Device.queue_alone hx.alone]
    dsimp only
    rw [hblk]
    dsimp only
    rw [hgood, if_neg Bool.false_ne_true, hnorm]
    dsimp only
    rw [← hl, hrun]
  obtain ⟨u, hu⟩ : ∃ u : State, u = { s with dev := k.2.setLoop { l with graph := k.1, at_ := .fact } } := ⟨_, rfl⟩
  have hloops : (u.afterStart x.q).dev.loops = u.dev.loops := by
    have hset := u.settleQueues_settles
    rw [State.afterStart]
    split
    · exact hset.loops
    · exact hset.loops
  refine ⟨_, { l with graph := k.1, at_ := .fact }, hexec, ?_, rfl, hlb, hlv, by rw [hk]; rfl, ?_⟩
  · rw [← hu, hloops, hu]
    exact List.mem_cons_self
  · rw [← hu, (u.afterStart_frame x.q).2.2.1, hu]
    show k.2.nodes.length = _
    rw [hk, hnodes]

theorem refine_solves {l : LoopCtl} {g : Graph} {gg : List Nat × List (List Nat)} {d1 : Device} (hl : s.dev.loops = [l]) (hgs : s.dev.graphs = [g])
    (hid : g.id = l.graph) (hend : g.ended = true) (hok : g.nfail = 0) (hat : l.at_ = .fact) (hctx : s.dev.ctxValid l.ctx = true)
    (hg : s.dev.readGraph l.ctx (bitsOf l.blk 64 64) (bitsOf l.blk 268 12 + 1) = (.ok gg, d1)) (hd : d1.loops = [l]) :
    ∃ u, exec (.refineStep l.queue) s = .next u ∧ u.dev.loops = [{ l with graph := d1.nextId, at_ := .solv }] ∧ u.core = s.core := by
  have hgraph : s.dev.graph? l.graph = some g := by
    rw [Device.graph?, hgs, List.find?_cons_of_pos (by simp [hid])]
  obtain ⟨k, hk, hrun⟩ := State.runLoop_ok (at_ := .solv) hctx hg
  refine ⟨{ s with dev := k.2.setLoop { l with graph := k.1, at_ := .solv } }, ?_, ?_, rfl⟩
  · show Host.Outcome.next (s.refineStep l.queue) = _
    have hfind : (s.dev.loops.find? fun x => x.queue == l.queue && ((s.dev.graph? x.graph).map (·.ended)).getD false) = some l := by
      rw [hl, List.find?_cons_of_pos (by simp [hgraph, hend])]
    rw [State.refineStep, hfind]
    dsimp only
    rw [hgraph]
    dsimp only
    rw [hok, if_neg (by decide), hat]
    dsimp only
    rw [hrun]
  · have hkl : k.2.loops = [l] := by rw [hk]; exact hd
    rw [Device.setLoop, hkl, hk]
    simp [Device.takeGraph]

/-! What the end of a window decides (R372). -/

theorem Region.over_iff (x : Region) (rate : Nat) : x.over rate = true ↔ x.pft ≠ 0 ∧ x.pft < rate := by
  rw [Region.over, Bool.and_eq_true, bne_iff_ne, decide_eq_true_iff]

theorem Region.evaluate_hot {x : Region} {rate : Nat} (hot : x.pft ≠ 0 ∧ x.pft < rate) :
    (x.under = false → x.above = true → (x.evaluate rate).retire = true) ∧ (x.under = true → (x.evaluate rate).forcenom = true) := by
  have hover := (x.over_iff rate).mpr hot
  constructor
  · intro hu ha
    simp [Region.evaluate, hover, hu, ha]
  · intro hu
    simp [Region.evaluate, hover, hu]

theorem Region.evaluate_cool {x : Region} {rate : Nat} (hot : ¬ (x.pft ≠ 0 ∧ x.pft < rate)) :
    (x.evaluate rate).retire = x.retire ∧ (x.evaluate rate).above = false := by
  have hover : x.over rate = false := by rw [← Bool.not_eq_true, x.over_iff]; exact hot
  simp [Region.evaluate, hover]

end

/-- Settles O56: each step's frame says what its later parts keep of the region, and the step itself changes the rest. -/
theorem frameSteps : Obligations.FrameSteps := by
  intro s h r hr hlt
  refine ⟨hearth_frame hr, ?_, ?_, ?_, ?_, ?_, ?_, ?_, ?_⟩
  · rintro hrun ⟨k, hk, hk64, hkrun⟩
    exact hearth_stop hr hrun hk hk64 hkrun
  · intro hready hc ho rate hot
    obtain ⟨u, hu, hreg⟩ := ras_window hr hlt hready hc ho
    exact ⟨u, _, hu, hreg, rfl, rfl, fun h => (Region.evaluate_hot h).1, fun h => (Region.evaluate_hot h).2, Region.evaluate_cool⟩
  · exact fun c t ht hrecs hc hreplays _ => shadow_replay hr ht hrecs hc hreplays
  · rintro c rfl hq
    refine ⟨fun hidle hp => ?_, fun hp => ?_⟩
    · obtain ⟨hcore, hreg⟩ := State.passStart_eq hr hq hidle hp
      exact ⟨_, rfl, hreg, hcore⟩
    · obtain ⟨d, hd, hdrops, hcore⟩ := State.passEnd_drops hr hp
      obtain ⟨r', hr', hin, hout⟩ := hdrops _ _ hd
      have hmem : ∀ x, x ∈ r.passes.filter (· != physPos c) ↔ x ∈ r.passes ∧ x ≠ physPos c := fun x => by
        rw [List.mem_filter, bne_iff_ne]
      exact ⟨_, r', rfl, hr', fun hx => ((hmem _).mp (hin _ hx)).2 rfl, fun x hx => ((hmem x).mp (hin x hx)).1,
        fun x hx hne => hout x ((hmem x).mpr ⟨hx, hne⟩), congrArg Tile.files hcore⟩
  · exact fun e i he hreg hfree => exposure_written he hreg hfree
  · exact fun req p v c t hreq hc hok hreg habs ht htc hon => injctl_written hr hlt p hreq hc hok hreg habs ht htc hon
  · exact fun x p bytes d1 d2 d3 g hx hblk hgood hnorm hctx hg hlen => refine_starts hx hblk hgood hnorm hctx hg hlen
  · exact fun l g gg d1 hl hgs hid hend hok hat hctx hg hd => refine_solves hl hgs hid hend hok hat hctx hg hd

end Sys2Proof.Machine
end

section
/-! SUPPORT. The lines of a copy's row and its completion (R47, R50, R64). -/

namespace Sys2Proof.Machine

section

variable {s : State} {c : Coord} {t : Tile} {ch : BitVec 3} {j : CopyJob}

theorem Tile.copyCh_setCopyCh (t : Tile) (ch : BitVec 3) (k : CopyCh) : (t.setCopyCh ch.toNat k).copyCh ch.toNat = k := by
  have hlt : ch.toNat < 8 := ch.isLt
  have hsize : ch.toNat < (t.copy.ch.setIfInBounds ch.toNat k).toList.length := by simpa using hlt
  rw [Tile.copyCh, Tile.setCopyCh]
  simp [hlt]

theorem Tile.putJob_inbound {old : CopyJob} (t : Tile) (n : Nat) (new : CopyJob) (h : old.tpl.out = false) :
    t.putJob n old new = t.setCopyCh n ((t.copyCh n).setJob new) := by
  rw [Tile.putJob, h, Bool.false_and, if_neg Bool.false_ne_true]

/-! The next line of an inbound row is performed, or parks. -/

/-- COPY_ROW of an inbound copy runs the lines of its row. -/
theorem copyRow_runs (ht : s.tileAt c = some t) (hmove : t.frozen = false) (hstop : s.copyStop t = false) (hack : t.acks.elem .copy = false)
    (hrun : (t.copyCh ch.toNat).runnable = some j) (hin : j.tpl.out = false) :
    exec (.copyRow c ch) s = .next (State.copyLines false c ch.toNat ((j.tpl.rowLines j.row).length + 1) j s) := by
  show Host.Outcome.next (s.copyRow c ch.toNat) = _
  rw [State.copyRow, ht]
  dsimp only
  rw [hstop, hmove, hack, Tile.copyNext, if_neg Bool.false_ne_true, hrun]
  dsimp only
  rw [hin]
  rfl

theorem copyLines_done {l : Nat × Nat × Nat} {n fuel : Nat} {u : State} (ht : s.tileAt c = some t) (hl : (j.tpl.rowLines j.row)[j.line]? = some l)
    (hline : s.copyLine t n j l = (.done, u)) : State.copyLines false c n (fuel + 1) j s =
      if j.nextLine.row = j.row then State.copyLines false c n fuel j.nextLine (u.onTile c fun t => t.putJob n j j.nextLine)
      else u.onTile c fun t => t.putJob n j j.nextLine := by
  rw [State.copyLines, ht, hl]
  dsimp only
  rw [Bool.false_and, if_neg Bool.false_ne_true, hline]

theorem CopyJob.nextLine_last (h : j.line + 1 = (j.tpl.rowLines j.row).length) : j.nextLine = j.nextRow := by
  rw [CopyJob.nextLine, if_neg (by omega)]

theorem CopyJob.nextLine_more (h : j.line + 1 < (j.tpl.rowLines j.row).length) : j.nextLine = { j with line := j.line + 1, lock := none } := by
  rw [CopyJob.nextLine, if_pos h]

theorem copyLines_last {l : Nat × Nat × Nat} {n fuel : Nat} {u : State} {v : Tile} (ht : s.tileAt c = some t)
    (hl : (j.tpl.rowLines j.row)[j.line]? = some l) (hline : s.copyLine t n j l = (.done, u)) (hin : j.tpl.out = false)
    (hlast : j.line + 1 = (j.tpl.rowLines j.row).length) (hv : u.tileAt c = some v) (hrecs : v.recs = []) :
    State.copyLines false c n (fuel + 1) j s = u.setTile (v.setCopyCh n ((v.copyCh n).setJob j.nextRow)) := by
  have hrow : ¬ j.nextRow.row = j.row := Nat.succ_ne_self _
  have hput := v.putJob_inbound n j.nextRow hin
  rw [copyLines_done ht hl hline, CopyJob.nextLine_last hlast, if_neg hrow, State.onTile_quiet _ hv (by rw [hput]; exact hrecs), hput]

theorem copyLines_more {l : Nat × Nat × Nat} {n fuel : Nat} {u : State} {v : Tile} (ht : s.tileAt c = some t)
    (hl : (j.tpl.rowLines j.row)[j.line]? = some l) (hline : s.copyLine t n j l = (.done, u)) (hin : j.tpl.out = false)
    (hmore : j.line + 1 < (j.tpl.rowLines j.row).length) (hv : u.tileAt c = some v) (hrecs : v.recs = []) :
    State.copyLines false c n (fuel + 1) j s = State.copyLines false c n fuel j.nextLine
      (u.setTile (v.setCopyCh n ((v.copyCh n).setJob { j with line := j.line + 1, lock := none }))) := by
  have hput := v.putJob_inbound n { j with line := j.line + 1, lock := none } hin
  rw [copyLines_done ht hl hline, CopyJob.nextLine_more hmore, if_pos rfl, State.onTile_quiet _ hv (by rw [hput]; exact hrecs), hput]

theorem copyLines_parked {l : Nat × Nat × Nat} {n fuel p i q : Nat} {u : State} {v : Tile} (ht : s.tileAt c = some t)
    (hl : (j.tpl.rowLines j.row)[j.line]? = some l) (hline : s.copyLine t n j l = (.parked p i q, u)) (hin : j.tpl.out = false)
    (hv : u.tileAt c = some v) (hrecs : v.recs = []) :
    State.copyLines false c n (fuel + 1) j s = u.setTile (v.setCopyCh n ((v.copyCh n).setJob { j with parked := some (p, i, q) })) := by
  have hput := v.putJob_inbound n { j with parked := some (p, i, q) } hin
  rw [State.copyLines, ht, hl]
  dsimp only
  rw [Bool.false_and, if_neg Bool.false_ne_true, hline]
  dsimp only
  rw [State.onTile_quiet _ hv (by rw [hput]; exact hrecs), hput]

theorem setCopyCh_tileAt {u : State} {v : Tile} {n : Nat} (hv : u.tileAt c = some v) (k : CopyCh) :
    (u.setTile (v.setCopyCh n k)).dev = u.dev ∧ (u.setTile (v.setCopyCh n k)).tileAt c = some (v.setCopyCh n k) ∧
      ∀ d, d ≠ c → (u.setTile (v.setCopyCh n k)).tileAt d = u.tileAt d := by
  have hat : v.isAt c = true := State.tileAt_isAt hv
  exact ⟨State.setTile_dev _ _, State.tileAt_setTile (v := v.setCopyCh n k) hv hat⟩

/-! A line of HBM that can be read is written into scratchpad. -/

/-- The bytes of a line with their places in scratchpad. -/
def CopyJob.cells (j : CopyJob) (off : Nat) (data : List Byte) : List (Nat × Byte) :=
  ((upTo data.length).zip data).map fun y => (j.tpl.spAt j.row (off + y.1), y.2)

theorem CopyJob.cells_places (off : Nat) (data : List Byte) :
    (j.cells off data).map (·.1) = (upTo data.length).map fun i => j.tpl.spAt j.row (off + i) := by
  have hlen : (upTo data.length).length ≤ data.length := by simp [upTo]
  rw [CopyJob.cells, List.map_map]
  conv_rhs => rw [← List.map_fst_zip hlen, List.map_map]
  rfl

theorem CopyJob.mem_cells {off i : Nat} {data : List Byte} {b : Byte} (h : data[i]? = some b) :
    (j.tpl.spAt j.row (off + i), b) ∈ j.cells off data := by
  obtain ⟨hi, rfl⟩ := List.getElem?_eq_some_iff.mp h
  refine List.mem_map.mpr ⟨(i, data[i]), ?_, rfl⟩
  refine List.mem_iff_getElem.mpr ⟨i, by simpa [upTo] using hi, ?_⟩
  simp [upTo]

theorem lineIn_opens {x : Xlat} {m off len : Nat} (ho : s.dev.Opens t.ctx x m) (hlen : x.pa % 64 + len ≤ 64) (hset : j.tpl.setf = false) :
    ∃ v, s.lineIn t j x off len = (.done, s.setTile v) ∧
      v.pad.mem = (j.cells off (((s.dev.hbm.bytes (x.pa / 64 * 64) 64).drop (x.pa % 64)).take len)).foldl (fun m c => m.write c.1 c.2) t.pad.mem ∧
      v.copy = t.copy ∧ v.files = t.files ∧ v.sch = t.sch ∧ v.coord = t.coord ∧ v.recs = t.recs := by
  obtain ⟨line, hline⟩ : ∃ line, line = s.dev.hbm.bytes (x.pa / 64 * 64) 64 := ⟨_, rfl⟩
  have hlen64 : line.length = 64 := by rw [hline, Memory.bytes_length]
  have hdata : ((line.drop (x.pa % 64)).take len).length = len := by
    rw [List.length_take, List.length_drop, hlen64]
    omega
  have hfull : (line.drop (x.pa % 64)).take len ++ List.replicate (len - ((line.drop (x.pa % 64)).take len).length) 0#8 =
      (line.drop (x.pa % 64)).take len := by
    rw [hdata, Nat.sub_self, List.replicate_zero, List.append_nil]
  rw [State.lineIn, ho.readTarget]
  dsimp only
  rw [← hline]
  rw [Option.isNone_none, Bool.and_true]
  cases htag : t.inj.has 9
  · rw [if_neg Bool.false_ne_true, if_neg Bool.false_ne_true]
    dsimp only [Option.filter]
    rw [hfull, hset, if_neg Bool.false_ne_true, if_neg Bool.false_ne_true]
    refine ⟨_, rfl, ?_, rfl, rfl, rfl, rfl, rfl⟩
    rw [CopyJob.cells, hdata]
    rfl
  · rw [if_pos rfl, if_pos rfl]
    have hbad : (some Cause.bxtag == some .bxecc || some Cause.bxtag == some .bxtag) = true := rfl
    dsimp only
    rw [hbad]
    dsimp only [Option.filter]
    rw [hfull, hset]
    refine ⟨_, rfl, ?_, rfl, rfl, rfl, rfl, rfl⟩
    rw [CopyJob.cells, hdata]
    rfl

/-- The line of a row that translates to a line of HBM that opens is performed as it is issued. -/
theorem copyLine_opens {l : Nat × Nat × Nat} {n m : Nat} {x : Xlat} {dv : Device} (hlock : j.lock = none) (hin : j.tpl.out = false)
    (hbusy : t.lineBusy j.seq l.1 = false) (hx : s.dev.translate (s.dev.entryPort t.coord) t.ctx l.1 false = (.ok x, dv))
    (hkey : dv.keyLeaves t.ctx x = false) (ho : dv.Opens t.ctx x m)
    (hfull : s.portFull (s.dev.targetPort (s.dev.entryPort t.coord) false x) = false) :
    s.copyLine t n j l = State.lineIn { s with dev := dv } t j x l.2.1 l.2.2 := by
  rw [State.copyLine]
  dsimp only
  rw [hbusy, if_neg Bool.false_ne_true, hlock]
  dsimp only
  rw [hin, hx, State.takeIn]
  dsimp only
  rw [if_neg Bool.false_ne_true, Device.takeIn]
  dsimp only
  rw [hkey, if_neg Bool.false_ne_true, hfull, ho.awaits, ho.readLocked]
  simp

theorem line_copied {l : Nat × Nat × Nat} {m : Nat} {x : Xlat} {dv : Device} (ht : s.tileAt c = some t) (hlive : t.Live)
    (hstop : s.copyStop t = false) (hack : t.acks.elem .copy = false) (hrun : (t.copyCh ch.toNat).runnable = some j) (hin : j.tpl.out = false)
    (hl : (j.tpl.rowLines j.row)[j.line]? = some l) (hlast : j.line + 1 = (j.tpl.rowLines j.row).length) (hlock : j.lock = none)
    (hset : j.tpl.setf = false) (hbusy : t.lineBusy j.seq l.1 = false)
    (hx : s.dev.translate (s.dev.entryPort t.coord) t.ctx l.1 false = (.ok x, dv)) (hkey : dv.keyLeaves t.ctx x = false)
    (ho : dv.Opens t.ctx x m) (hfull : s.portFull (s.dev.targetPort (s.dev.entryPort t.coord) false x) = false)
    (hlen : x.pa % 64 + l.2.2 ≤ 64) (hnodup : ((upTo l.2.2).map fun i => j.tpl.spAt j.row (l.2.1 + i)).Nodup) (hwf : Memory.wf t.pad.mem = true) :
    ∃ v, BecomesWith (.copyRow c ch) s c v dv ∧
      (∀ i, i < l.2.2 → v.pad.mem.read (j.tpl.spAt j.row (l.2.1 + i)) = dv.hbm.read (x.pa + i)) ∧
      (∀ a, (∀ i, i < l.2.2 → j.tpl.spAt j.row (l.2.1 + i) ≠ a) → v.pad.mem.read a = t.pad.mem.read a) ∧
      v.copyCh ch.toNat = (t.copyCh ch.toNat).setJob j.nextRow ∧ v.files = t.files ∧ v.sch = t.sch := by
  obtain ⟨data, hdata⟩ : ∃ data, data = ((dv.hbm.bytes (x.pa / 64 * 64) 64).drop (x.pa % 64)).take l.2.2 := ⟨_, rfl⟩
  have hbyte : ∀ i, i < l.2.2 → data[i]? = some (dv.hbm.read (x.pa + i)) := fun i hi => by
    rw [hdata, List.getElem?_take_of_lt hi, List.getElem?_drop, Memory.bytes_getElem? _ _ (by omega)]
    congr 2
    omega
  have hdlen : data.length = l.2.2 := by
    rw [hdata, List.length_take, List.length_drop, Memory.bytes_length]
    omega
  obtain ⟨v, hv, hmem, hcopy, hfiles, hsch, hcoord, hrecs⟩ := lineIn_opens (s := { s with dev := dv }) ho hlen hset
  rw [← hdata] at hmem
  have hline := (copyLine_opens (n := ch.toNat) hlock hin hbusy hx hkey ho hfull).trans hv
  have hat : v.isAt c = true := by
    have := State.tileAt_isAt ht
    rwa [Tile.isAt, hcoord, hsch]
  obtain ⟨hvc, hothers⟩ := State.tileAt_setTile (s := { s with dev := dv }) (v := v) ht hat
  have hexec := copyRow_runs ht hlive.moving hstop hack hrun hin
  rw [copyLines_last ht hl hline hin hlast hvc (hrecs.trans hlive.noReports)] at hexec
  obtain ⟨k, hk⟩ : ∃ k, k = (v.copyCh ch.toNat).setJob j.nextRow := ⟨_, rfl⟩
  rw [← hk] at hexec
  obtain ⟨hdev, htile, hrest⟩ := setCopyCh_tileAt (n := ch.toNat) hvc k
  refine ⟨v.setCopyCh ch.toNat k, ⟨_, hexec, htile, fun d hd => (hrest d hd).trans (hothers d hd), hdev.trans (State.setTile_dev _ _),
    (State.setTile_agenda _ _).trans (State.setTile_agenda _ _), (State.setTile_bundle _ _).trans (State.setTile_bundle _ _)⟩, fun i hi => ?_,
    fun a ha => ?_, ?_, hfiles, hsch⟩
  · show v.pad.mem.read _ = _
    have hplaces : ((j.cells l.2.1 data).map (·.1)).Nodup := by rw [CopyJob.cells_places, hdlen]; exact hnodup
    rw [hmem]
    exact Memory.read_foldl_write_mem hwf hplaces (CopyJob.mem_cells (hbyte i hi))
  · show v.pad.mem.read _ = _
    rw [hmem]
    refine Memory.read_foldl_write hwf _ fun y hy hya => ?_
    have hplace : y.1 ∈ (j.cells l.2.1 data).map (·.1) := List.mem_map_of_mem hy
    rw [CopyJob.cells_places, hdlen] at hplace
    obtain ⟨i, hi, hiy⟩ := List.mem_map.mp hplace
    exact ha i (by simpa [upTo] using hi) (hiy.trans hya)
  · rw [Tile.copyCh_setCopyCh, hk, Tile.copyCh, hcopy, ← Tile.copyCh]

/-! A copy completes (R47). -/

theorem copy_completes (ht : s.tileAt c = some t) (hlive : t.Live) (hjobs : (t.copyCh ch.toNat).jobs = [j])
    (hdone : (t.copyCh ch.toNat).done = j.id) (hrows : j.rowsDone = true) (hopen : j.complete = false) (hin : j.tpl.out = false)
    (hbar : j.tpl.bar = false) : ∃ v, Becomes (.copyComplete c ch) s c v ∧ (v.copyCh ch.toNat).done = j.id + 1#32 ∧
      (v.copyCh ch.toNat).jobs = [] ∧ v.files = t.files ∧ v.pad = t.pad := by
  obtain ⟨k, hk⟩ : ∃ k, k = t.copyCh ch.toNat := ⟨_, rfl⟩
  rw [← hk] at hjobs hdone
  have hfind : k.jobs.find? (fun j => j.rowsDone && !j.complete) = some j := by
    rw [hjobs, List.find?_cons_of_pos (by simp [hrows, hopen])]
  have hset : k.setJob { j with complete := true } = { k with jobs := [{ j with complete := true }] } := by
    rw [CopyCh.setJob, hjobs]
    simp
  have hadv : CopyCh.advance 2 (k.setJob { j with complete := true }) = { k with done := j.id + 1#32, jobs := [] } := by
    have hjob : CopyCh.job { k with jobs := [{ j with complete := true }] } k.done = some { j with complete := true } := by
      rw [CopyCh.job, List.find?_cons_of_pos (by simp [hdone])]
    rw [hset, CopyCh.advance, hjob]
    dsimp only
    rw [if_pos rfl, List.erase_cons_head, CopyCh.advance, CopyCh.job, hdone]
    rfl
  have hc : t.copyComplete ch.toNat = t.setCopyCh ch.toNat { k with done := j.id + 1#32, jobs := [] } := by
    rw [Tile.copyComplete, ← hk]
    dsimp only
    rw [hfind]
    dsimp only
    rw [hjobs]
    show (if j.tpl.bar = true then _ else _) = _
    rw [hbar, if_neg Bool.false_ne_true, hin, if_neg Bool.false_ne_true]
    exact congrArg _ hadv
  have hat : (t.copyComplete ch.toNat).isAt c = true := by
    have htc : t.isAt c = true := State.tileAt_isAt ht
    rw [hc]
    exact htc
  have hrecs : (t.copyComplete ch.toNat).recs = [] := by rw [hc]; exact hlive.noReports
  refine ⟨_, Becomes.onTile (fun t => t.copyComplete ch.toNat) ht rfl hat hrecs, ?_, ?_, ?_, ?_⟩
  · rw [hc, Tile.copyCh_setCopyCh]
  · rw [hc, Tile.copyCh_setCopyCh]
  · rw [hc]; rfl
  · rw [hc]; rfl

end

/-- Settles O43: the next line of an inbound row is one step of `State.copyLines`, whose outcome decides how the row goes on. -/
theorem copyLines : Obligations.CopyLines := by
  intro s c t ch j ht hlive k ls
  refine ⟨fun l hstop hack hrun hin hl => ?_, fun hjobs hdone hrows hopen hin hbar => copy_completes ht hlive hjobs hdone hrows hopen hin hbar⟩
  intro place
  have hexec := copyRow_runs ht hlive.moving hstop hack hrun hin
  refine ⟨fun s' t' hline ht' hrecs _ => ⟨fun hlast => ?_, fun hmore => ?_⟩, fun s' t' p i q hline ht' hrecs _ => ?_, ?_⟩
  · obtain ⟨hdev, htile, -⟩ := setCopyCh_tileAt (n := ch.toNat) ht' ((t'.copyCh ch.toNat).setJob j.nextRow)
    exact ⟨_, hexec.trans (congrArg _ (copyLines_last ht hl hline hin hlast ht' hrecs)), hdev, htile⟩
  · exact hexec.trans (congrArg _ (copyLines_more ht hl hline hin hmore ht' hrecs))
  · obtain ⟨hdev, htile, -⟩ := setCopyCh_tileAt (n := ch.toNat) ht' ((t'.copyCh ch.toNat).setJob { j with parked := some (p, i, q) })
    exact ⟨_, hexec.trans (congrArg _ (copyLines_parked ht hl hline hin ht' hrecs)), hdev, htile⟩
  · exact fun x dv m hlast hlock hset hbusy hx hkey ho hfull hlen hnodup hwf =>
      line_copied ht hlive hstop hack hrun hin hl hlast hlock hset hbusy hx hkey ho hfull hlen hnodup hwf

end Sys2Proof.Machine
end

section
/-! SUPPORT. What a step runs (R191, R199, R208): exec answers a next state in every state, the head of the words at pc is the head of the
bundle there, and the turn passes. An open bundle that started at another tile than the one in turn. -/

namespace Sys2Proof.Machine

/-- The reset state with a bundle open that started at another tile, and that waits. -/
def strayBundle : State :=
  { State.reset with bundle := some ⟨{ State.reset.core with coord := ⟨1, 1⟩ }, 0, some [], none, none⟩ }

/-- The last slot of the bundle. -/
def strayAdd : Instr := .add ⟨true, 0#3⟩ 0#5 0#5 0#5

theorem strayBundle_moves : ∃ u, exec strayAdd strayBundle = .next u ∧ u.core.coord = ⟨1, 1⟩ := by
  have hexec : exec strayAdd strayBundle = .next (State.flush (State.noteEnd { strayBundle with
      core := { State.reset.core with coord := ⟨1, 1⟩ }, bundle := none })) := rfl
  refine ⟨_, hexec, ?_⟩
  rw [(State.flush_frame _).1]
  rfl

/-- Refutes O8: the last slot of a bundle that waits leaves the tile as the bundle started on it, and the statement, which speaks of every
state, has one whose open bundle started at another place than the tile in turn. -/
theorem not_slotsStayInTheirTile : ¬ Obligations.SlotsStayInTheirTile := by
  intro h
  obtain ⟨u, hu, hcoord⟩ := strayBundle_moves
  obtain ⟨v, hv, -, hstay, -⟩ := h strayAdd ⟨true, 0#3⟩ strayBundle rfl
  rw [hu] at hv
  cases hv
  rw [hcoord] at hstay
  exact absurd hstay (by decide)

section

variable {s : State} {t : Tile}

/-- exec answers a next state for every instruction in every state. -/
theorem exec_next (i : Instr) (s : State) : ∃ u, exec i s = .next u := by
  cases hi : i.hdr with
  | some h =>
    obtain ⟨sem, hexec, -, -⟩ := runsAsSlot hi
    exact ⟨_, hexec s⟩
  | none =>
    cases i <;> cases hi
    all_goals exact ⟨_, rfl⟩

theorem issued_turn (i : Instr) (s : State) : ∃ u, exec i s = .next u ∧ issued i s = .next u.turn := by
  obtain ⟨u, hu⟩ := exec_next i s
  exact ⟨u, hu, by rw [issued, hu]⟩

/-! What the fetch meets (R366, R367). -/

theorem addCount_zero (c : Option Cause) (l : List (Option Cause × Nat)) : addCount c 0 l = l := by
  induction l with
  | nil => rfl
  | cons x l ih =>
    rw [addCount, ih]
    split <;> rfl

/-- A tile whose registers, memory and pc are those of another. -/
def Tile.SameCore (t u : Tile) : Prop := u.files = t.files ∧ u.pad = t.pad ∧ u.ctl = t.ctl ∧ u.sch.pc = t.sch.pc

theorem Tile.SameCore.ite {u v : Tile} {c : Prop} [Decidable c] (hu : t.SameCore u) (hv : t.SameCore v) : t.SameCore (if c then u else v) := by
  split
  · exact hu
  · exact hv

theorem Tile.doubleTrap_sameCore (t : Tile) (c : Cause) : t.SameCore (t.doubleTrap c) := ⟨rfl, rfl, rfl, rfl⟩

theorem Tile.await_sameCore (t : Tile) (c : Cause) (seq : Option Nat) (unit : Nat) (faddr info : DWord) :
    t.SameCore (t.await c seq unit faddr info) :=
  .ite (t.doubleTrap_sameCore c) (.ite (t.doubleTrap_sameCore c) ⟨rfl, rfl, rfl, rfl⟩)

theorem Tile.raise_sameCore (t : Tile) (c : Cause) (seq : Option Nat) (unit : Nat) (faddr info : DWord) :
    t.SameCore (t.raise c seq unit faddr info) := by
  obtain ⟨counts, health, hd⟩ := t.detect_counts c
  rw [Tile.raise, hd]
  exact Tile.await_sameCore _ c seq unit faddr info

theorem Tile.fetchMeet_sameCore (t : Tile) : t.SameCore t.fetchMeet := by
  unfold Tile.fetchMeet
  split
  · exact ⟨rfl, rfl, rfl, rfl⟩
  · dsimp only
    split
    · exact Tile.raise_sameCore _ _ _ _ _ _
    · split
      · exact Tile.await_sameCore _ _ _ _ _ _
      · exact ⟨rfl, rfl, rfl, rfl⟩

theorem Tile.fetchMeet_sound (hc : t.pad.codeSoft = []) (hs : t.fileSoft = 0) (hb : t.fileBad = false) (hi : t.inj.armed = 0) :
    t.fetchMeet = t := by
  have hcounts : ({ t with counts := addCount none (0 + t.fileSoft) t.counts, fileSoft := 0 } : Tile) = t := by
    rw [hs, addCount_zero, ← hs]
  unfold Tile.fetchMeet
  split
  · rfl
  · dsimp only
    rw [hc, hb, Inject.has_unarmed hi, if_neg Bool.false_ne_true, if_neg Bool.false_ne_true, ← hb]
    exact hcounts

/-! The head of the bundle at pc (R199). -/

/-- The Y slot that the word at pc takes. -/
def Tile.headY (t : Tile) : Option Word :=
  if slotLast (t.pad.code.word t.sch.pc.toNat) || !acceptsY (t.pad.code.word t.sch.pc.toNat) then none else t.yAfter t.sch.pc.toNat

/-- Whether the head of the bundle at pc ends it. -/
def Tile.headLast (t : Tile) : Bool := slotLast (t.headY.getD (t.pad.code.word t.sch.pc.toNat))

theorem Tile.ahead_eq (hp : t.sch.pc.toNat < 0x4000) : ∃ l, t.ahead = t.pad.code.word t.sch.pc.toNat :: l ∧
    l.head? = if t.sch.pc.toNat + 4 < 0x4000 then some (t.pad.code.word (t.sch.pc.toNat + 4)) else none := by
  have hrange : upTo 8 = 0 :: 1 :: [2, 3, 4, 5, 6, 7] := rfl
  rw [Tile.ahead, hrange, List.filter_cons_of_pos (by simpa using hp)]
  refine ⟨_, rfl, ?_⟩
  split
  · next h =>
    rw [List.filter_cons_of_pos (by simpa using h)]
    rfl
  · next h =>
    have hnil : [1, 2, 3, 4, 5, 6, 7].filter (fun k => decide (t.sch.pc.toNat + 4 * k < 0x4000)) = [] := by
      rw [List.filter_eq_nil_iff]
      intro k hk
      have : 1 ≤ k := by
        simp only [List.mem_cons, List.not_mem_nil, or_false] at hk
        omega
      rw [decide_eq_true_iff]
      omega
    rw [hnil]
    rfl

theorem Tile.decodeHead_ahead (hp : t.sch.pc.toNat < 0x4000) (hs : t.pad.codeFails (t.sch.pc.toNat + 4) = false) : ∃ r,
    decodeHead t.ahead = (decodeSlot (t.pad.code.word t.sch.pc.toNat) t.headLast (t.headY.map yImm)).map fun i => (i, r) := by
  obtain ⟨l, hl, hhead⟩ := Tile.ahead_eq hp
  rw [hl]
  rw [Tile.headLast, Tile.headY, Tile.yAfter]
  generalize t.pad.code.word t.sch.pc.toNat = w at *
  generalize t.pad.code.word (t.sch.pc.toNat + 4) = y at *
  rw [hs]
  cases l with
  | nil =>
    have hout : ¬ t.sch.pc.toNat + 4 < 0x4000 := fun h => by rw [if_pos h] at hhead; cases hhead
    refine ⟨[], ?_⟩
    rw [decide_eq_false hout]
    simp [decodeHead]
  | cons x r =>
    split at hhead
    · next hin =>
      obtain rfl : x = y := Option.some.inj hhead
      rw [decide_eq_true hin]
      cases hlast : slotLast w
      · cases hacc : acceptsY w
        · exact ⟨x :: r, by simp [decodeHead, hlast, hacc]⟩
        · cases hy : isY x
          · exact ⟨x :: r, by simp [decodeHead, hlast, hy]⟩
          · exact ⟨r, by simp [decodeHead, hlast, hacc, hy]⟩
      · exact ⟨x :: r, by simp [decodeHead, hlast]⟩
    · cases hhead

/-- The scan of a bundle whose head is a slot decodes it as the words ahead do. -/
theorem Tile.scan_head (ha : t.sch.pc.toNat % 4 = 0) (hp : t.sch.pc.toNat < 0x4000) (hs : t.pad.codeFails t.sch.pc.toNat = false)
    (hy : isY (t.pad.code.word t.sch.pc.toNat) = false) :
    (∀ c, decodeSlot (t.pad.code.word t.sch.pc.toNat) t.headLast (t.headY.map yImm) = .error c → t.scan 8 0 false = .error (0, c)) ∧
    (∀ i, decodeSlot (t.pad.code.word t.sch.pc.toNat) t.headLast (t.headY.map yImm) = .ok i → vEncOk t.ctl.fmt i = true →
      t.headLast = true → t.scan 8 0 false = .ok [i]) := by
  have haddr : t.sch.pc.toNat + 4 * 0 = t.sch.pc.toNat := rfl
  have hfetch : (decide (t.sch.pc.toNat ≥ 0x4000) || t.sch.pc.toNat % 4 != 0) = false := by
    rw [ha, decide_eq_false (by omega)]
    rfl
  have hhead : (if slotLast (t.pad.code.word t.sch.pc.toNat) || !acceptsY (t.pad.code.word t.sch.pc.toNat) || (7 : Nat) == 0 then none
      else t.yAfter t.sch.pc.toNat) = t.headY := by rw [Tile.headY, show ((7 : Nat) == 0) = false from rfl, Bool.or_false]
  rw [Tile.scan]
  dsimp only
  rw [haddr, hfetch, if_neg Bool.false_ne_true, hs, if_neg Bool.false_ne_true, hy, if_neg Bool.false_ne_true, hhead]
  rw [Tile.headLast]
  cases t.headY with
  | none => exact ⟨fun c hd => by rw [Option.getD_none] at hd; rw [hd], fun i hd hv hl => by
      rw [Option.getD_none] at hd hl
      rw [hd]
      simp [hv, hl]⟩
  | some v => exact ⟨fun c hd => by rw [Option.getD_some] at hd; rw [hd], fun i hd hv hl => by
      rw [Option.getD_some] at hd hl
      rw [hd]
      simp [hv, hl]⟩

/-- The words ahead that decode to nothing are an invalid bundle's, with their cause. -/
theorem Tile.fetchBundle_error (ha : t.sch.pc.toNat % 4 = 0) (hp : t.sch.pc.toNat < 0x4000)
    (hs : ∀ k, k < 8 → t.pad.codeFails (t.sch.pc.toNat + 4 * k) = false) {c : Cause} (hd : decodeHead t.ahead = .error c) :
    t.fetchBundle = .error (0, c) := by
  obtain ⟨r, hr⟩ := Tile.decodeHead_ahead hp (hs 1 (by decide))
  rw [hr] at hd
  have hscan : t.scan 8 0 false = .error (0, c) := by
    cases hy : isY (t.pad.code.word t.sch.pc.toNat)
    · cases hslot : decodeSlot (t.pad.code.word t.sch.pc.toNat) t.headLast (t.headY.map yImm) with
      | ok i => rw [hslot] at hd; cases hd
      | error d =>
        rw [hslot] at hd
        cases hd
        exact (Tile.scan_head ha hp (hs 0 (by decide)) hy).1 c hslot
    · have hclass : slotClass (t.pad.code.word t.sch.pc.toNat) = 7 := by rwa [isY, beq_iff_eq] at hy
      rw [decodeSlot, hclass] at hd
      cases hd
      have hs0 : t.pad.codeFails t.sch.pc.toNat = false := hs 0 (by decide)
      have hfetch : (decide (t.sch.pc.toNat ≥ 0x4000) || t.sch.pc.toNat % 4 != 0) = false := by
        rw [ha, decide_eq_false (by omega)]
        rfl
      rw [Tile.scan]
      dsimp only
      rw [Nat.mul_zero, Nat.add_zero, hfetch, if_neg Bool.false_ne_true, hs0, if_neg Bool.false_ne_true, hy, if_pos rfl]
  rw [Tile.fetchBundle, hscan]

theorem instrTag_length (i : Instr) : (instrTag i).length ≤ 1 := by
  cases i <;> simp [instrTag]

/-- A bundle of one slot has no conflicts. -/
theorem Tile.bundleOk_single (t : Tile) (i : Instr) : t.bundleOk [i] = true := by
  have hclass : (upTo 6).all (fun c => decide (([i].filter (instrClass · == c)).length ≤ classMost c)) = true := by
    rw [List.all_eq_true]
    intro c _
    have hle : ([i].filter (instrClass · == c)).length ≤ 1 := List.length_filter_le _ _
    have hmost : 1 ≤ classMost c := by
      rw [classMost]
      split <;> decide
    exact decide_eq_true (hle.trans hmost)
  have hone : ∀ l : List Nat, l.Nodup → apartAll [l] = true := fun l hl => by
    rw [apartAll, List.flatMap_singleton]
    exact decide_eq_true hl
  have htag : ((instrTag i).filter (· != 0)).Nodup := by
    refine List.Nodup.filter _ ?_
    have hlen := instrTag_length i
    cases hl : instrTag i with
    | nil => exact List.nodup_nil
    | cons n l =>
      rw [hl, List.length_cons] at hlen
      have hnil : l.length = 0 := by omega
      rw [List.length_eq_zero_iff.mp hnil]
      exact List.nodup_singleton n
  rw [Tile.bundleOk, hclass, List.map_singleton, List.map_singleton, List.map_singleton, hone _ (List.nodup_dedup _), hone _ htag,
    hone _ (List.nodup_dedup _)]
  rfl

/-- A slot ahead that ends its bundle is the bundle. -/
theorem Tile.fetchBundle_single (ha : t.sch.pc.toNat % 4 = 0) (hp : t.sch.pc.toNat < 0x4000)
    (hs : ∀ k, k < 8 → t.pad.codeFails (t.sch.pc.toNat + 4 * k) = false) {i : Instr} {h : Hdr} {l : List Word}
    (hd : decodeHead t.ahead = .ok (i, l)) (hh : i.hdr = some h) (hlast : h.last = true) (hv : vEncOk t.ctl.fmt i = true) :
    t.fetchBundle = .ok [i] := by
  obtain ⟨r, hr⟩ := Tile.decodeHead_ahead hp (hs 1 (by decide))
  rw [hr] at hd
  cases hslot : decodeSlot (t.pad.code.word t.sch.pc.toNat) t.headLast (t.headY.map yImm) with
  | error c => rw [hslot] at hd; cases hd
  | ok j =>
    rw [hslot] at hd
    cases hd
    have hacc : (t.headY.map yImm).isSome = true → acceptsY (t.pad.code.word t.sch.pc.toNat) = true := fun hsome => by
      rw [Tile.headY] at hsome
      cases hacc : acceptsY (t.pad.code.word t.sch.pc.toNat)
      · rw [hacc] at hsome
        simp at hsome
      · rfl
    have hread := reads_of_decodeSlot hacc hslot
    have hend : t.headLast = true := by
      have hhdr := hread.hdr
      rw [hh] at hhdr
      rw [Option.some.inj hhdr] at hlast
      exact hlast
    have hy : isY (t.pad.code.word t.sch.pc.toNat) = false := by
      cases hy : isY (t.pad.code.word t.sch.pc.toNat)
      · rfl
      · have hclass : slotClass (t.pad.code.word t.sch.pc.toNat) = 7 := by rwa [isY, beq_iff_eq] at hy
        rw [decodeSlot, hclass] at hslot
        cases hslot
    rw [Tile.fetchBundle, (Tile.scan_head ha hp (hs 0 (by decide)) hy).2 i hslot hv hend]
    dsimp only
    rw [t.bundleOk_single, if_pos rfl]

/-! What a step runs. -/

theorem State.Fetches.runs (h : s.Fetches) : (s.core.fetchMeet.sch.status != .running) = false := by
  rw [bne_eq_false_iff_eq]
  exact h.unhurt

/-- The errors that the fetch has met leave the words at pc. -/
theorem State.Fetches.met (h : s.Fetches) : s.core.fetchMeet.sch.pc.toNat % 4 = 0 ∧ s.core.fetchMeet.sch.pc.toNat < 0x4000 ∧
    (∀ k, k < 8 → s.core.fetchMeet.pad.codeFails (s.core.fetchMeet.sch.pc.toNat + 4 * k) = false) ∧
    s.core.fetchMeet.ahead = s.core.ahead ∧ s.core.fetchMeet.ctl = s.core.ctl := by
  obtain ⟨-, hpad, hctl, hpc⟩ := s.core.fetchMeet_sameCore
  rw [hpc, hpad, Tile.ahead, Tile.ahead, hpad, hpc]
  exact ⟨h.aligned, h.inside, h.sound, rfl, hctl⟩

theorem step_fetches (h : s.Fetches) : step s = issueBundle s := by
  rw [step, h.noSteps]
  dsimp only
  rw [h.powered, if_neg Bool.false_ne_true, h.alone]
  dsimp only
  rw [h.noEvent]
  dsimp only
  rw [h.ready, if_pos rfl]

theorem step_invalid (h : s.Fetches) {c : Cause} (hf : s.core.fetchMeet.fetchBundle = .error (0, c)) :
    step s = issued (.invalidBundle c 0#3) s.met := by
  rw [step_fetches h, issueBundle, h.noReplay]
  dsimp only
  rw [h.runs, if_neg Bool.false_ne_true, hf]
  rfl

theorem step_single (h : s.Fetches) {i : Instr} (hf : s.core.fetchMeet.fetchBundle = .ok [i]) : step s = issued i s.met := by
  rw [step_fetches h, issueBundle, h.noReplay]
  dsimp only
  rw [h.runs, if_neg Bool.false_ne_true, hf]
  rfl

theorem step_several (h : s.Fetches) {i j : Instr} {l : List Instr} (hf : s.core.fetchMeet.fetchBundle = .ok (i :: j :: l)) :
    step s = issued i { s.met with bundle := some ⟨s.met.core, 0, none, none, none⟩ } := by
  rw [step_fetches h, issueBundle, h.noReplay]
  dsimp only
  rw [h.runs, if_neg Bool.false_ne_true, hf]
  rfl

theorem step_replays (ha : s.agenda = []) (hp : s.dev.power.shutdown = false) (hb : s.bundle = none) (he : s.core.dueEvent = none)
    (hi : s.core.mayIssue = true) (hr : s.core.replayFirst = some t) : step s = .next (s.withCore t).turn := by
  rw [step, ha]
  dsimp only
  rw [hp, if_neg Bool.false_ne_true, hb]
  dsimp only
  rw [he]
  dsimp only
  rw [hi, if_pos rfl, issueBundle, hr]
  rfl

theorem replayFirst_keeps {u : Tile} (hr : t.replayFirst = some u) : u.files = t.files ∧ u.pad = t.pad ∧ u.sch.pc = t.sch.pc ∧
    u.sch.ready = Nat.max t.sch.ready t.sch.cycle + 2 := by
  rw [Tile.replayFirst] at hr
  split at hr
  · cases hr
    exact ⟨rfl, rfl, rfl, rfl⟩
  · cases hr

/-! The turn passes. -/

theorem turn_passes {l : List Tile} (hb : s.bundle = none) (ho : s.others = t :: l)
    (hh : ∀ x ∈ s.core.progressSends :: s.others, x.hits.isEmpty = true) :
    s.turn.core = t ∧ s.turn.others = l ++ [s.core.progressSends] ∧ s.turn.dev.hbm = s.dev.hbm ∧ ∃ m, s.turn.agenda = s.agenda ++ m := by
  have hcount : State.countInjected { s with core := s.core.progressSends } = { s with core := s.core.progressSends } := by
    rw [State.countInjected, if_pos (List.all_eq_true.mpr hh)]
  have halone : s.bundle.isSome = false := by rw [hb]; rfl
  rw [State.turn, halone, if_neg Bool.false_ne_true, hcount]
  dsimp only
  rw [ho]
  dsimp only
  split
  · exact ⟨rfl, rfl, rfl, _, rfl⟩
  · exact ⟨rfl, rfl, rfl, _, List.append_assoc _ _ _⟩

/-- Settles O1: what a step runs follows its conditions in their order, and the scan of the bundle decodes its head as the words ahead do. -/
theorem stepRunsDecoded : Obligations.StepRunsDecoded := by
  refine ⟨exec_next, fun s i h r hf hd hh hv => ?_, fun s c hf hd => ?_, fun t => ?_, fun s t ha hp hb he hi hr => ?_, fun s b i l ha hp hb hs => ?_,
    fun s e l ha => ?_, fun s e ha hp hb he => ?_, fun s t l hb ho hh => turn_passes hb ho hh⟩
  · obtain ⟨hal, hin, hok, hahead, hctl⟩ := hf.met
    refine ⟨fun hlast => ?_, fun j l _ hb => ?_⟩
    · obtain ⟨u, hu, hiss⟩ := issued_turn i s.met
      exact ⟨u, hu, (step_single hf (Tile.fetchBundle_single hal hin hok (hahead.symm ▸ hd) hh hlast (hctl.symm ▸ hv))).trans hiss⟩
    · obtain ⟨u, hu, hiss⟩ := issued_turn i { s.met with bundle := some ⟨s.met.core, 0, none, none, none⟩ }
      exact ⟨u, hu, (step_several hf hb).trans hiss⟩
  · obtain ⟨u, hu, hiss⟩ := issued_turn (.invalidBundle c 0#3) s.met
    obtain ⟨hal, hin, hok, hahead, -⟩ := hf.met
    exact ⟨u, hu, (step_invalid hf (Tile.fetchBundle_error hal hin hok (hahead.symm ▸ hd))).trans hiss⟩
  · obtain ⟨h1, h2, h3, h4⟩ := t.fetchMeet_sameCore
    exact ⟨h1, h2, h3, h4, Tile.fetchMeet_sound⟩
  · exact ⟨step_replays ha hp hb he hi hr, replayFirst_keeps hr⟩
  · obtain ⟨u, hu, hiss⟩ := issued_turn i s
    refine ⟨u, hu, ?_⟩
    rw [step, ha]
    dsimp only
    rw [hp, if_neg Bool.false_ne_true, hb]
    dsimp only
    rw [Bundle.next, hs]
    exact hiss
  · rw [step, ha]
  · rw [step, ha]
    dsimp only
    rw [hp, if_neg Bool.false_ne_true, hb]
    dsimp only
    rw [he]

end

end Sys2Proof.Machine
end

section
/-! SUPPORT. What each function of the model leaves of the Kiln: all of it, for every function of the fabric, the tiles, the queues, the nodes and the
Hearths. One rule for each, in the order of the definitions. -/

namespace Sys2Proof.Machine

@[simp] theorem State.withDev_kiln (s : State) (f : Device → Device) : (s.withDev f).dev.kiln = (f s.dev).kiln := rfl

@[simp] theorem kiln_ite_device (c : Prop) [Decidable c] (a b : Device) :
    (if c then a else b).kiln = if c then a.kiln else b.kiln := by split <;> rfl

@[simp] theorem kiln_ite_state (c : Prop) [Decidable c] (a b : State) :
    (if c then a else b).dev.kiln = if c then a.dev.kiln else b.dev.kiln := by split <;> rfl

theorem Device.foldl_kiln {α : Type} {f : Device → α → Device} (hf : ∀ d x, (f d x).kiln = d.kiln) (l : List α) (d : Device) :
    (l.foldl f d).kiln = d.kiln := by
  induction l generalizing d with
  | nil => rfl
  | cons x l ih => exact (ih _).trans (hf _ _)

theorem State.foldl_kiln {α : Type} {f : State → α → State} (hf : ∀ d x, (f d x).dev.kiln = d.dev.kiln) (l : List α) (d : State) :
    (l.foldl f d).dev.kiln = d.dev.kiln := by
  induction l generalizing d with
  | nil => rfl
  | cons x l ih => exact (ih _).trans (hf _ _)

@[simp] theorem Device.draw_kiln (dv : Device) : (Device.draw dv).kiln = dv.kiln :=
  (Device.draw_serves ..).kiln

@[simp] theorem Device.putPhys_kiln (dv : Device) (a n v : Nat) : (Device.putPhys dv a n v).kiln = dv.kiln :=
  (Device.putPhys_reports ..).kiln

@[simp] theorem Device.eventAll_kiln (dv : Device) (byte : Byte) : (Device.eventAll dv byte).kiln = dv.kiln := rfl

@[simp] theorem Device.setReady_kiln (dv : Device) (n : Nat) (f : Ready → Ready) : (Device.setReady dv n f).kiln = dv.kiln :=
  (Device.setReady_serves ..).kiln

@[simp] theorem Device.dropReady_kiln (dv : Device) : (Device.dropReady dv).kiln = dv.kiln :=
  (Device.dropReady_sameBut ..).kiln

@[simp] theorem Device.holdAll_kiln (dv : Device) : (Device.holdAll dv).kiln = dv.kiln :=
  (Device.holdAll_sameHost ..).kiln

@[simp] theorem Device.countPort_kiln (dv : Device) (p : Nat) : (Device.countPort dv p).kiln = dv.kiln :=
  (Device.countPort_serves ..).kiln

@[simp] theorem Device.correct_kiln (dv : Device) (line : Nat) : (Device.correct dv line).kiln = dv.kiln :=
  (Device.correct_serves ..).kiln

@[simp] theorem Device.setEntry_kiln (dv : Device) (r : Nat) : (Device.setEntry dv r).kiln = dv.kiln :=
  (Device.setEntry_sameHost ..).kiln

@[simp] theorem Device.setEntries_kiln (dv : Device) : (Device.setEntries dv).kiln = dv.kiln :=
  (Device.setEntries_serves ..).kiln

@[simp] theorem Device.clearStack_kiln (dv : Device) (p : Nat) : (Device.clearStack dv p).kiln = dv.kiln :=
  (Device.clearStack_serves ..).kiln

@[simp] theorem Device.portBringUp_kiln (dv : Device) (p : Nat) : (Device.portBringUp dv p).kiln = dv.kiln :=
  (Device.portBringUp_serves ..).kiln

@[simp] theorem Device.meetLine_kiln (dv : Device) (line : Nat) : (Device.meetLine dv line).kiln = dv.kiln :=
  (Device.meetLine_serves ..).kiln

@[simp] theorem Device.meet_kiln (dv : Device) (a n : Nat) : (Device.meet dv a n).kiln = dv.kiln :=
  (Device.meet_serves ..).kiln

@[simp] theorem Device.table_kiln (dv : Device) (port ctx a n : Nat) : (Device.table dv port ctx a n).2.kiln = dv.kiln :=
  (Device.table_serves ..).kiln

@[simp] theorem Device.findRange_kiln (port ctx rt va : Nat) (xa : Nat) (xb : Nat) (dv : Device) :
    (Device.findRange port ctx rt va xa xb dv).2.kiln = dv.kiln :=
  (Device.findRange_serves ..).kiln

@[simp] theorem Device.spanPick_kiln (dv : Device) (port ctx t idx pte : Nat) : (Device.spanPick dv port ctx t idx pte).2.kiln = dv.kiln :=
  (Device.spanPick_serves ..).kiln

@[simp] theorem Device.walk_kiln (port ctx va : Nat) (write : Bool) (hport : Nat) (xa : Nat) (xb : Nat) (dv : Device) :
    (Device.walk port ctx va write hport xa xb dv).2.kiln = dv.kiln :=
  (Device.walk_serves ..).kiln

@[simp] theorem Device.translate_kiln (dv : Device) (port ctx va : Nat) (write : Bool) :
    (Device.translate dv port ctx va write).2.kiln = dv.kiln :=
  (Device.translate_serves ..).kiln

@[simp] theorem Device.waited_kiln (dv : Device) (x : Xlat) : (Device.waited dv x).kiln = dv.kiln :=
  (Device.waited_serves ..).kiln

@[simp] theorem Device.writeLine_kiln (dv : Device) (line off : Nat) (bytes : List Byte) (key : Option Nat) (pz : Bool) :
    (Device.writeLine dv line off bytes key pz).kiln = dv.kiln :=
  (Device.writeLine_serves ..).kiln

@[simp] theorem Device.hostWrite_kiln (dv : Device) (p a : Nat) (bytes : List Byte) (key : Option Nat) :
    (Device.hostWrite dv p a bytes key).kiln = dv.kiln :=
  (Device.hostWrite_reports ..).kiln

@[simp] theorem Device.readTarget_kiln (dv : Device) (port ctx : Nat) (x : Xlat) : (dv.readTarget port ctx x).2.kiln = dv.kiln :=
  (dv.readTarget_serves ..).kiln

@[simp] theorem Device.lastRead_kiln (dv : Device) (ctx : Nat) (x : Xlat) : (dv.lastRead ctx x).2.kiln = dv.kiln :=
  (dv.lastRead_serves ..).kiln

@[simp] theorem Device.hRead_kiln (dv : Device) (ctx a n : Nat) : (dv.hRead ctx a n).2.kiln = dv.kiln := (dv.hRead_serves ..).kiln

@[simp] theorem Device.readImage_kiln (dv : Device) (ctx a n : Nat) : (dv.readImage ctx a n).2.kiln = dv.kiln := by
  unfold Device.readImage
  split <;> simp

@[simp] theorem Device.writeTarget_kiln (dv : Device) (ctx : Nat) (x : Xlat) (bytes : List Byte) (pz : Bool) :
    (Device.writeTarget dv ctx x bytes pz).2.kiln = dv.kiln :=
  (Device.writeTarget_serves ..).kiln

@[simp] theorem Device.commit_kiln (dv : Device) (ctx : Nat) (x : Xlat) (bytes : List Byte) (pz : Bool) :
    (Device.commit dv ctx x bytes pz).2.kiln = dv.kiln :=
  (Device.commit_serves ..).kiln

@[simp] theorem Device.storeTarget_kiln (dv : Device) (ctx : Nat) (x : Xlat) (bytes : List Byte) (pz : Bool) :
    (Device.storeTarget dv ctx x bytes pz).2.kiln = dv.kiln :=
  (Device.storeTarget_serves ..).kiln

@[simp] theorem Device.unlocked_kiln (dv : Device) (x : Xlat) : (Device.unlocked dv x).kiln = dv.kiln :=
  (Device.unlocked_serves ..).kiln

@[simp] theorem Device.hWrite_kiln (dv : Device) (ctx a : Nat) (bytes : List Byte) : (Device.hWrite dv ctx a bytes).2.kiln = dv.kiln :=
  (Device.hWrite_serves ..).kiln

@[simp] theorem Device.message_kiln (dv : Device) (port vec : Nat) : (Device.message dv port vec).kiln = dv.kiln :=
  (Device.message_reports ..).kiln

@[simp] theorem Device.event_kiln (dv : Device) (port : Nat) (byte : Byte) : (Device.event dv port byte).kiln = dv.kiln :=
  (Device.event_settles ..).kiln

@[simp] theorem Device.refuse_kiln (dv : Device) : (Device.refuse dv).kiln = dv.kiln := rfl

@[simp] theorem Device.withRegion_kiln (dv : Device) (r : Nat) (f : Region → Region) : (Device.withRegion dv r f).kiln = dv.kiln := by
  unfold Device.withRegion
  split <;> rfl

@[simp] theorem Device.ringStore_kiln (dv : Device) (host : Bool) (port a bits : Nat) :
    (Device.ringStore dv host port a bits).kiln = dv.kiln :=
  (Device.ringStore_reports ..).kiln

@[simp] theorem Device.setRing_kiln (dv : Device) (r : TrapRing) : (Device.setRing dv r).kiln = dv.kiln :=
  (Device.setRing_reports ..).kiln

@[simp] theorem Device.setDescBit_kiln (dv : Device) (ctx i : Nat) : (Device.setDescBit dv ctx i).kiln = dv.kiln :=
  (Device.setDescBit_reports ..).kiln

@[simp] theorem Device.putTrap_kiln (dv : Device) (r : TrapRec) : (Device.putTrap dv r).kiln = dv.kiln :=
  (Device.putTrap_reports ..).kiln

@[simp] theorem Device.report_kiln (dv : Device) (r : TrapRec) : (Device.report dv r).kiln = dv.kiln :=
  (Device.report_reports ..).kiln

@[simp] theorem Device.releaseHeld_kiln (dv : Device) (ctx : Nat) : (Device.releaseHeld dv ctx).kiln = dv.kiln := by
  simp [Device.releaseHeld, Device.foldl_kiln]

@[simp] theorem Device.reportFault_kiln (dv : Device) (ctx port bits : Nat) : (Device.reportFault dv ctx port bits).kiln = dv.kiln := by
  simp [Device.reportFault]

@[simp] theorem State.setTile_kiln (s : State) (t : Tile) : (State.setTile s t).dev.kiln = s.dev.kiln := by
  simp [State.setTile]

@[simp] theorem State.push_kiln (s : State) (l : List Due) : (State.push s l).dev.kiln = s.dev.kiln := rfl

@[simp] theorem State.pushFirst_kiln (s : State) (d : Due) : (State.pushFirst s d).dev.kiln = s.dev.kiln := rfl

@[simp] theorem Device.withNode_kiln (dv : Device) (id : Nat) (f : Node → Node) : (Device.withNode dv id f).kiln = dv.kiln :=
  (Device.withNode_lasts ..).kiln

@[simp] theorem State.failNodeAs_kiln (s : State) (id : Nat) (code : Nat) : (State.failNodeAs s id code).dev.kiln = s.dev.kiln := rfl

@[simp] theorem State.failNode_kiln (s : State) (id : Nat) (c : Cause) : (State.failNode s id c).dev.kiln = s.dev.kiln := rfl

@[simp] theorem Device.failMoved_kiln (dv : Device) (c : Coord) : (Device.failMoved dv c).kiln = dv.kiln := rfl

@[simp] theorem State.flushOne_kiln (t : Tile) (s : State) (r : TRec) : (State.flushOne t s r).dev.kiln = s.dev.kiln := by
  unfold State.flushOne
  dsimp only
  (repeat' split) <;> simp

@[simp] theorem State.flush_kiln (s : State) : (State.flush s).dev.kiln = s.dev.kiln := by
  unfold State.flush
  split <;> simp [State.foldl_kiln]

@[simp] theorem State.onTile_kiln (s : State) (c : Coord) (f : Tile → Tile) : (State.onTile s c f).dev.kiln = s.dev.kiln := by
  unfold State.onTile
  split <;> simp [State.foldl_kiln]

@[simp] theorem Device.storeMap_kiln (dv : Device) (r : Nat) : (Device.storeMap dv r).kiln = dv.kiln :=
  (Device.storeMap_reports ..).kiln

@[simp] theorem Device.writeRow_kiln (dv : Device) (r prow : Nat) (x : RowRec) : (Device.writeRow dv r prow x).kiln = dv.kiln := by
  simp [Device.writeRow]

@[simp] theorem State.noteEnd_kiln (s : State) : (State.noteEnd s).dev.kiln = s.dev.kiln := by
  simp [State.noteEnd]

@[simp] theorem Device.leave_kiln (dv : Device) (t : Tile) : (Device.leave dv t).kiln = dv.kiln :=
  (Device.leave_lasts ..).kiln

@[simp] theorem State.removeTiles_kiln (s : State) (p : Tile → Bool) : (State.removeTiles s p).dev.kiln = s.dev.kiln :=
  (State.removeTiles_lasts ..).kiln

@[simp] theorem State.addTile_kiln (s : State) (t : Tile) : (State.addTile s t).dev.kiln = s.dev.kiln := by
  simp [State.addTile]

@[simp] theorem Device.say_kiln (dv : Device) (ctx src : Nat) (cause : Cause) (fatal : Bool) (region nodeid queue : Nat) (info : Option DWord) :
    (Device.say dv ctx src cause fatal region nodeid queue info).kiln = dv.kiln :=
  (Device.say_reports ..).kiln

@[simp] theorem Device.sayCode_kiln (dv : Device) (ctx src code : Nat) (fatal : Bool) (region nodeid queue : Nat) :
    (Device.sayCode dv ctx src code fatal region nodeid queue).kiln = dv.kiln := by
  simp [Device.sayCode]

@[simp] theorem Device.sayAt_kiln (dv : Device) (ctx src : Nat) (cause : Cause) (fatal : Bool) (c : Coord) (nodeid : Nat) :
    (Device.sayAt dv ctx src cause fatal c nodeid).kiln = dv.kiln := by
  simp [Device.sayAt]

@[simp] theorem Device.setPort_kiln (dv : Device) (p : Nat) (x : FluePort) : (Device.setPort dv p x).kiln = dv.kiln := rfl

@[simp] theorem Device.park_kiln (dv : Device) (p : Nat) (a : Asker) (f : XFault) : (Device.park dv p a f).2.2.kiln = dv.kiln := by
  unfold Device.park
  dsimp only
  split <;> simp

@[simp] theorem Device.unpark_kiln (dv : Device) (p idx seqn : Nat) : (Device.unpark dv p idx seqn).kiln = dv.kiln := rfl

theorem Device.takeIn_kiln {dv d : Device} {p : Nat} {a : Asker} {r : Except XFault Xlat × Device}
    {x : Except (Option Nat × Nat × Cause) Xlat} (h : dv.takeIn p a r = some (x, d)) : d.kiln = r.2.kiln := by
  rw [Device.takeIn] at h
  dsimp only at h
  split at h
  · cases h
    rfl
  · split at h
    · cases h
      rfl
    · split at h
      · cases h
      · cases h
        simp

theorem State.takeIn_kiln_of {s : State} {d : Device} {p : Nat} {a : Asker} {r : Except XFault Xlat × Device}
    {x : Except (Option Nat × Nat × Cause) Xlat} (h : s.takeIn p a r = some (x, d)) : d.kiln = r.2.kiln := by
  obtain ⟨y, e⟩ := r
  cases y with
  | ok y => exact Device.takeIn_kiln (dv := s.dev) (p := p) (a := a) h
  | error f =>
    rw [State.takeIn] at h
    dsimp only at h
    split at h
    · cases h
    · exact Device.takeIn_kiln h

/-- What comes of a translation at an entry port keeps the Kiln. -/

theorem State.takeIn_kiln {s : State} {d : Device} {p port ctx va : Nat} {write : Bool} {a : Asker} {x : Except (Option Nat × Nat × Cause) Xlat}
    (h : s.takeIn p a (s.dev.translate port ctx va write) = some (x, d)) : d.kiln = s.dev.kiln :=
  (State.takeIn_kiln_of h).trans (Device.translate_kiln ..)

@[simp] theorem bulkRequestAcc_kiln (s : State) (t : Tile) (a : BulkAcc) : (bulkRequestAcc s t a).dev.kiln = s.dev.kiln := by
  unfold bulkRequestAcc
  dsimp only
  generalize (if (a.kind.isStore || a.kind == .spill) = true then t.pairGate a.pairKey a.pairBytes else (t, true)) = g
  (repeat' split) <;> simp
  all_goals exact State.takeIn_kiln (by assumption)

@[simp] theorem bulkRequestAcq_kiln (s : State) (t : Tile) (g : GuardReq) : (bulkRequestAcq s t g).dev.kiln = s.dev.kiln := by
  unfold bulkRequestAcq
  dsimp only
  split
  · rfl
  · split
    · (repeat' split) <;> simp
    · split
      · simp
      · have hk : ∀ p ctx va, (match (s.dev.translate p ctx va false).1 with
            | .ok _ => (((s.dev.translate p ctx va false).2.translate p ctx va true), true)
            | .error _ => (s.dev.translate p ctx va false, false)).1.2.kiln = s.dev.kiln := fun p ctx va => by split <;> simp
        split
        · rfl
        all_goals
          next h =>
          have hd := (State.takeIn_kiln_of h).trans (hk ..)
          (repeat' split) <;> simp [hd]

theorem State.withAcc_kiln {s : State} (id : Nat) {f : Tile → BulkAcc → State} (hf : ∀ t a, (f t a).dev.kiln = s.dev.kiln) :
    (s.withAcc id f).dev.kiln = s.dev.kiln := by
  unfold State.withAcc
  (repeat' split) <;> simp [hf]

theorem State.withGuard_kiln {s : State} (id : Nat) {f : Tile → GuardReq → State} (hf : ∀ t g, (f t g).dev.kiln = s.dev.kiln) :
    (s.withGuard id f).dev.kiln = s.dev.kiln := by
  unfold State.withGuard
  (repeat' split) <;> simp [hf]

@[simp] theorem State.bulkRequest_kiln (s : State) (id : Nat) : (State.bulkRequest s id).dev.kiln = s.dev.kiln := by
  unfold State.bulkRequest
  split
  · split
    · rfl
    · split
      · rw [bulkRequestAcc_kiln]
      · exact State.withGuard_kiln id fun t g => bulkRequestAcq_kiln s t g
  · rfl

@[simp] theorem Device.faultRelease_kiln (dv : Device) (ctx : Nat) : (Device.faultRelease dv ctx).kiln = dv.kiln := by
  unfold Device.faultRelease
  dsimp only
  split <;> simp

@[simp] theorem State.readAcc_kiln (s : State) (t : Tile) (a : BulkAcc) (x : Xlat) : (State.readAcc s t a x).dev.kiln = s.dev.kiln := by
  unfold State.readAcc
  simp

@[simp] theorem State.bulkPerform_kiln (s : State) (id : Nat) : (State.bulkPerform s id).dev.kiln = s.dev.kiln := by
  unfold State.bulkPerform
  refine State.withAcc_kiln id fun t a => ?_
  dsimp only
  (repeat' split) <;> simp

@[simp] theorem State.replicaCommit_kiln (s : State) (id : Nat) : (State.replicaCommit s id).dev.kiln = s.dev.kiln := by
  unfold State.replicaCommit
  refine State.withAcc_kiln id fun t a => ?_
  dsimp only
  (repeat' split) <;> simp

@[simp] theorem State.lockedResume_kiln (s : State) (id : Nat) : (State.lockedResume s id).dev.kiln = s.dev.kiln := by
  unfold State.lockedResume
  refine State.withAcc_kiln id fun t a => ?_
  (repeat' split) <;> simp

@[simp] theorem State.failOut_kiln (s : State) (t : Tile) (a : BulkAcc) (x : Xlat) (c : Cause) :
    (State.failOut s t a x c).dev.kiln = s.dev.kiln := by
  simp [State.failOut]

@[simp] theorem State.dropTile_kiln (l : ExtLink) (c : Cause) (s : State) (co : Coord) :
    (State.dropTile l c s co).dev.kiln = s.dev.kiln := by
  unfold State.dropTile
  split
  · refine State.foldl_kiln (fun s seq => State.withAcc_kiln _ fun t a => ?_) _ _
    (repeat' split) <;> simp
  · rfl

@[simp] theorem State.linkDrop_kiln (s : State) (l : ExtLink) : (State.linkDrop s l).dev.kiln = s.dev.kiln := by
  unfold State.linkDrop
  split <;> simp [State.foldl_kiln]

@[simp] theorem State.retry_kiln (s : State) (port : Nat) (w : DWord) (fail : Bool) :
    (State.retry s port w fail).dev.kiln = s.dev.kiln := by
  unfold State.retry
  split <;> simp

@[simp] theorem State.retryReplay_kiln (s : State) (port : Nat) (w : DWord) : (State.retryReplay s port w).dev.kiln = s.dev.kiln := by
  unfold State.retryReplay
  split <;> simp

@[simp] theorem State.portwAtPort_kiln (s : State) (id : Nat) : (State.portwAtPort s id).dev.kiln = s.dev.kiln := by
  unfold State.portwAtPort
  dsimp only
  (repeat' split) <;> simp

@[simp] theorem State.clearDropped_kiln (s : State) (id : Nat) : (State.clearDropped s id).dev.kiln = s.dev.kiln := by
  unfold State.clearDropped
  refine State.withAcc_kiln id fun t a => ?_
  (repeat' split) <;> simp

@[simp] theorem State.lineIn_kiln (s : State) (t : Tile) (j : CopyJob) (x : Xlat) (off len : Nat) :
    (State.lineIn s t j x off len).2.dev.kiln = s.dev.kiln := by
  rw [State.lineIn]
  dsimp only
  split
  · simp
  · next x _ =>
    generalize (if (t.inj.has 9 && x.1.isNone) = true then (some Cause.bxtag, x.2) else x) = y
    split <;> simp

@[simp] theorem State.lineOut_kiln (s : State) (t : Tile) (j : CopyJob) (x : Xlat) (off len : Nat) :
    (State.lineOut s t j x off len).2.dev.kiln = s.dev.kiln := by
  simp [State.lineOut]

@[simp] theorem State.copyLine_kiln (s : State) (t : Tile) (n : Nat) (j : CopyJob) (l : Nat × Nat × Nat) :
    (State.copyLine s t n j l).2.dev.kiln = s.dev.kiln := by
  unfold State.copyLine
  dsimp only
  split
  · rfl
  · split
    · split <;> simp
    · (repeat' split) <;> simp
      all_goals exact State.takeIn_kiln (by assumption)

@[simp] theorem State.copyLines_kiln (stop : Bool) (c : Coord) (n : Nat) (xa : Nat) (xb : CopyJob) (st : State) :
    (State.copyLines stop c n xa xb st).dev.kiln = st.dev.kiln := by
  induction xa generalizing xb st with
  | zero => rfl
  | succ n ih =>
    unfold State.copyLines
    dsimp only
    (repeat' split) <;> simp [ih]

@[simp] theorem State.copyRow_kiln (s : State) (c : Coord) (n : Nat) : (State.copyRow s c n).dev.kiln = s.dev.kiln := by
  unfold State.copyRow
  dsimp only
  (repeat' split) <;> simp

/-- What is done to a copy that an event names. -/

theorem State.withCopy_cases (s : State) (id : Nat) (f : State → Tile → Nat → CopyJob → State) :
    s.withCopy id f = s ∨ ∃ t n j, s.withCopy id f = f s t n j := by
  obtain ⟨n, hn⟩ : ∃ n, n = evSeq id - (2 ^ 32 - 8) := ⟨_, rfl⟩
  obtain ⟨tile, ht⟩ : ∃ tile, tile = s.tileAt (evCoord id) := ⟨_, rfl⟩
  unfold State.withCopy
  split
  · exact .inl rfl
  · rw [← hn, ← ht]
    cases tile with
    | none => exact .inl rfl
    | some t =>
      generalize hj : (t.copyCh n).runnable = job
      cases job with
      | none => exact .inl (by simp [hj])
      | some j => exact .inr ⟨t, n, j, by simp [hj]⟩

theorem State.withCopy_kiln {s : State} (id : Nat) {f : State → Tile → Nat → CopyJob → State}
    (hf : ∀ s t n j, (f s t n j).dev.kiln = s.dev.kiln) : (s.withCopy id f).dev.kiln = s.dev.kiln := by
  rcases s.withCopy_cases id f with h | ⟨t, n, j, h⟩
  · rw [h]
  · rw [h, hf]

theorem State.withLine_kiln {s : State} (id : Nat) {f : State → Tile → Nat → CopyJob → Nat × Nat × Nat → Xlat → State}
    (hf : ∀ s t n j l x, (f s t n j l x).dev.kiln = s.dev.kiln) : (s.withLine id f).dev.kiln = s.dev.kiln := by
  refine State.withCopy_kiln id fun s t n j => ?_
  dsimp only
  (repeat' split) <;> simp [hf]

@[simp] theorem State.failLine_kiln (s : State) (t : Tile) (n : Nat) (j : CopyJob) (l : Nat × Nat × Nat) (x : Xlat) (c : Cause) :
    (State.failLine s t n j l x c).dev.kiln = s.dev.kiln := by
  simp [State.failLine]

@[simp] theorem State.lockedTimeout_kiln (s : State) (id : Nat) : (State.lockedTimeout s id).dev.kiln = s.dev.kiln := by
  unfold State.lockedTimeout
  refine (State.withCopy_kiln id fun s t n j => ?_).trans (State.withAcc_kiln id fun t a => ?_)
  all_goals (repeat' split) <;> simp

@[simp] theorem State.hostTimeout_kiln (s : State) (id : Nat) : (State.hostTimeout s id).dev.kiln = s.dev.kiln := by
  unfold State.hostTimeout
  refine (State.withLine_kiln id fun s t n j l x => ?_).trans (State.withAcc_kiln id fun t a => ?_)
  all_goals (repeat' split) <;> simp

@[simp] theorem State.acceptTimeout_kiln (s : State) (id : Nat) : (State.acceptTimeout s id).dev.kiln = s.dev.kiln := by
  unfold State.acceptTimeout
  refine (State.withLine_kiln id fun s t n j l x => ?_).trans (State.withAcc_kiln id fun t a => ?_)
  all_goals (repeat' split) <;> simp

@[simp] theorem Device.metGuard_kiln (dv : Device) (ctx : Nat) (x : Xlat) : (Device.metGuard dv ctx x).kiln = dv.kiln := by
  unfold Device.metGuard
  split <;> simp

@[simp] theorem Device.writeGuard_kiln (dv : Device) (ctx : Nat) (x : Xlat) (o : Nat) : (Device.writeGuard dv ctx x o).kiln = dv.kiln := by
  unfold Device.writeGuard
  split <;> simp

@[simp] theorem State.answerGuard_kiln (s : State) (c : Coord) (seq : Nat) (cause : Option Cause) (x : Option Xlat) :
    (State.answerGuard s c seq cause x).dev.kiln = s.dev.kiln := by
  unfold State.answerGuard
  (repeat' split) <;> simp

@[simp] theorem State.unqueue_kiln (s : State) (w : GuardWait) : (State.unqueue s w).dev.kiln = s.dev.kiln := rfl

@[simp] theorem State.grantWaiters_kiln (x : Xlat) (xa : Nat) (st : State) : (State.grantWaiters x xa st).dev.kiln = st.dev.kiln := by
  induction xa generalizing x st with
  | zero => rfl
  | succ n ih =>
    rw [State.grantWaiters]
    split
    · rfl
    · dsimp only
      (repeat' split) <;> simp [ih]

@[simp] theorem State.acqAtHome_kiln (s : State) (id : Nat) : (State.acqAtHome s id).dev.kiln = s.dev.kiln := by
  unfold State.acqAtHome
  refine State.withGuard_kiln id fun t g => ?_
  dsimp only
  (repeat' split) <;> simp

@[simp] theorem State.guardTimeout_kiln (s : State) (id : Nat) : (State.guardTimeout s id).dev.kiln = s.dev.kiln := by
  unfold State.guardTimeout
  refine State.withGuard_kiln id fun t g => ?_
  split
  · split
    · rw [State.grantWaiters_kiln]
      split <;> simp
    · rfl
  · rfl

@[simp] theorem State.relDepart_kiln (s : State) (id : Nat) : (State.relDepart s id).dev.kiln = s.dev.kiln := by
  unfold State.relDepart
  refine State.withGuard_kiln id fun t g => ?_
  dsimp only
  (repeat' split) <;> simp

@[simp] theorem State.relAtHome_kiln (s : State) (id : Nat) : (State.relAtHome s id).dev.kiln = s.dev.kiln := by
  unfold State.relAtHome
  refine State.withGuard_kiln id fun t g => ?_
  dsimp only
  (repeat' split) <;> simp

@[simp] theorem State.forwardGuard_kiln (s : State) (id : Nat) : (State.forwardGuard s id).dev.kiln = s.dev.kiln := by
  unfold State.forwardGuard
  (repeat' split) <;> simp

@[simp] theorem State.endHold_kiln (t : Tile) (s : State) (h : Hold) : (State.endHold t s h).dev.kiln = s.dev.kiln := by
  unfold State.endHold
  dsimp only
  (repeat' split) <;> simp

@[simp] theorem Device.forget_kiln (dv : Device) (c : Coord) : (Device.forget dv c).kiln = dv.kiln := by
  simp [Device.forget]

@[simp] theorem State.hearthRelease_kiln (s : State) (node : Nat) : (State.hearthRelease s node).dev.kiln = s.dev.kiln := by
  unfold State.hearthRelease
  (repeat' split) <;> simp [Device.foldl_kiln, State.foldl_kiln]

@[simp] theorem Device.enter_kiln (dv : Device) (at_ : Coord) (entry : Option DWord) (m : Msg) :
    (Device.enter dv at_ entry m).kiln = dv.kiln := by
  unfold Device.enter
  (repeat' split) <;> simp

@[simp] theorem Device.inject_kiln (t : Tile) (dv : Device) (m : Msg) : (Device.inject t dv m).kiln = dv.kiln := by
  simp [Device.inject]

@[simp] theorem State.injectTile_kiln (s : State) (t : Tile) : (State.injectTile s t).dev.kiln = s.dev.kiln := by
  unfold State.injectTile
  split <;> simp [Device.foldl_kiln]

@[simp] theorem State.inject_kiln (s : State) : (State.inject s).dev.kiln = s.dev.kiln := by
  simp [State.inject, State.foldl_kiln]

@[simp] theorem Device.took_kiln (dv : Device) (c : Coord) (d : Dir) (vc : Nat) : (Device.took dv c d vc).kiln = dv.kiln := by
  simp [Device.took]

@[simp] theorem Device.meetBuffer_kiln (dv : Device) (f : Flit) : (Device.meetBuffer dv f).2.kiln = dv.kiln := by
  unfold Device.meetBuffer
  dsimp only
  (repeat' split) <;> simp

@[simp] theorem Device.routeFlit_kiln (dv : Device) (k : Nat) : (Device.routeFlit dv k).kiln = dv.kiln := by
  unfold Device.routeFlit
  (repeat' split) <;> simp [Device.foldl_kiln]

@[simp] theorem State.routeFlit_kiln (s : State) (k : Nat) : (State.routeFlit s k).dev.kiln = s.dev.kiln := by
  unfold State.routeFlit
  dsimp only
  split <;> simp

@[simp] theorem State.linkResend_kiln (s : State) (c : Coord) (d : Dir) : (State.linkResend s c d).dev.kiln = s.dev.kiln := by
  simp [State.linkResend]

@[simp] theorem State.frameResend_kiln (s : State) (p : Nat) : (State.frameResend s p).dev.kiln = s.dev.kiln := by
  simp [State.frameResend]

@[simp] theorem State.linkDown_kiln (s : State) (c : Coord) (d : Dir) : (State.linkDown s c d).dev.kiln = s.dev.kiln := by
  simp [State.linkDown]

@[simp] theorem State.opticalDown_kiln (s : State) (p : Nat) : (State.opticalDown s p).dev.kiln = s.dev.kiln := by
  simp [State.opticalDown]

@[simp] theorem State.takeFlit_kiln (s : State) (f : Flit) : (State.takeFlit s f).dev.kiln = s.dev.kiln := rfl

@[simp] theorem State.sendFrom_kiln (s : State) (c : Coord) (m : Msg) : (State.sendFrom s c m).dev.kiln = s.dev.kiln := by
  simp [State.sendFrom]

@[simp] theorem State.notify_kiln (s : State) (c : Coord) (m : Msg) (cause : Cause) : (State.notify s c m cause).dev.kiln = s.dev.kiln := by
  unfold State.notify
  split <;> simp

@[simp] theorem State.giveBack_kiln (s : State) (c : Coord) (h : PHead) : (State.giveBack s c h).dev.kiln = s.dev.kiln := by
  simp [State.giveBack]

@[simp] theorem State.clearSlot_kiln (s : State) (c : Coord) (n : Nat) : (State.clearSlot s c n).dev.kiln = s.dev.kiln := by
  simp [State.clearSlot]

@[simp] theorem State.receive_kiln (s : State) (c : Coord) (n : Nat) : (State.receive s c n).dev.kiln = s.dev.kiln := by
  unfold State.receive
  dsimp only
  (repeat' split) <;> simp

@[simp] theorem State.forward_kiln (s : State) (c : Coord) (m : Coord → Msg) : (State.forward s c m).dev.kiln = s.dev.kiln := by
  unfold State.forward
  (repeat' split) <;> simp

theorem State.answer_kiln {s : State} (c : Coord) (n : Nat) (p : Msg → Bool) {act : State → Msg → State}
    (ha : ∀ s m, (act s m).dev.kiln = s.dev.kiln) : (s.answer c n p act).dev.kiln = s.dev.kiln := by
  unfold State.answer
  (repeat' split) <;> simp [ha]

@[simp] theorem State.creditArrive_kiln (s : State) (c : Coord) (n : Nat) : (State.creditArrive s c n).dev.kiln = s.dev.kiln := by
  refine State.answer_kiln c n _ fun s m => ?_
  split <;> simp

@[simp] theorem State.sendFault_kiln (s : State) (c : Coord) (n : Nat) : (State.sendFault s c n).dev.kiln = s.dev.kiln := by
  refine State.answer_kiln c n _ fun s m => ?_
  split <;> simp

@[simp] theorem State.remoteArrival_kiln (s : State) (c : Coord) (n : Nat) : (State.remoteArrival s c n).dev.kiln = s.dev.kiln := by
  unfold State.remoteArrival
  dsimp only
  (repeat' split) <;> simp

@[simp] theorem State.arrivalResult_kiln (s : State) (c : Coord) (n : Nat) : (State.arrivalResult s c n).dev.kiln = s.dev.kiln := by
  refine State.answer_kiln c n _ fun s m => ?_
  split <;> simp

@[simp] theorem State.deliver_kiln (s : State) (t : Tile) (j : Nat) (x : List Word) : (State.deliver s t j x).dev.kiln = s.dev.kiln := by
  unfold State.deliver
  dsimp only
  (repeat' split) <;> simp

@[simp] theorem State.combine_kiln (s : State) (c : Coord) (j : Nat) : (State.combine s c j).dev.kiln = s.dev.kiln := by
  unfold State.combine
  split <;> simp

@[simp] theorem State.reductionInput_kiln (s : State) (c : Coord) (j : Nat) (p : Port) :
    (State.reductionInput s c j p).dev.kiln = s.dev.kiln := by
  unfold State.reductionInput
  (repeat' split) <;> simp

@[simp] theorem State.heldDeliver_kiln (s : State) (c : Coord) (j : Nat) : (State.heldDeliver s c j).dev.kiln = s.dev.kiln := by
  unfold State.heldDeliver
  (repeat' split) <;> simp

@[simp] theorem State.abandonRound_kiln (s : State) (c : Coord) (j r : Nat) (from_ : Option Port) :
    (State.abandonRound s c j r from_).dev.kiln = s.dev.kiln := by
  unfold State.abandonRound
  split
  · rfl
  · dsimp only
    split
    · rfl
    · split
      · rw [State.onTile_kiln]
        exact (State.foldl_kiln (fun s p => by split <;> simp) _ _).trans (State.setTile_kiln ..)
      · exact (State.foldl_kiln (fun s p => by split <;> simp) _ _).trans (State.setTile_kiln ..)

@[simp] theorem State.roundAbandon_kiln (s : State) (c : Coord) (j : Nat) : (State.roundAbandon s c j).dev.kiln = s.dev.kiln := by
  unfold State.roundAbandon
  split <;> simp

@[simp] theorem State.abandonNotice_kiln (s : State) (c : Coord) (j : Nat) : (State.abandonNotice s c j).dev.kiln = s.dev.kiln := by
  unfold State.abandonNotice
  (repeat' split) <;> simp

@[simp] theorem State.pairFails_kiln (s : State) (c : Coord) (p : Pair) (key : Nat) (real : Bool) :
    (State.pairFails s c p key real).dev.kiln = s.dev.kiln := by
  simp [State.pairFails]

@[simp] theorem State.releaseGroup_kiln (s : State) (c : Coord) : (State.releaseGroup s c).dev.kiln = s.dev.kiln := by
  unfold State.releaseGroup
  (repeat' split) <;> simp

@[simp] theorem State.pairMatch_kiln (s : State) (t : Tile) (p : Pair) (key : Nat) (crc : Word) :
    (State.pairMatch s t p key crc).dev.kiln = s.dev.kiln := by
  unfold State.pairMatch
  (repeat' split) <;> simp

@[simp] theorem State.pairCompare_kiln (s : State) (c : Coord) : (State.pairCompare s c).dev.kiln = s.dev.kiln := by
  unfold State.pairCompare
  (repeat' split) <;> simp

@[simp] theorem State.pairTimeout_kiln (s : State) (c : Coord) : (State.pairTimeout s c).dev.kiln = s.dev.kiln := by
  unfold State.pairTimeout
  (repeat' split) <;> simp

@[simp] theorem Device.setQueue_kiln (dv : Device) (x : Queue) : (Device.setQueue dv x).kiln = dv.kiln :=
  (Device.setQueue_settles ..).kiln

@[simp] theorem Device.withQueue_kiln (dv : Device) (q : Nat) (f : Queue → Queue) : (Device.withQueue dv q f).kiln = dv.kiln :=
  (Device.withQueue_settles ..).kiln

@[simp] theorem Device.setQState_kiln (dv : Device) (q st : Nat) : (Device.setQState dv q st).kiln = dv.kiln :=
  (Device.setQState_settles ..).kiln

@[simp] theorem Device.haltQueue_kiln (dv : Device) (q : Nat) (cause : Cause) (utag : Option Nat) (fatal : Bool) :
    (Device.haltQueue dv q cause utag fatal).kiln = dv.kiln :=
  (Device.haltQueue_settles ..).kiln

@[simp] theorem Device.takePacket_kiln (dv : Device) (q bits : Nat) (ix : Option Nat) (call : Option Packet) (frame : Nat) :
    (Device.takePacket dv q bits ix call frame).kiln = dv.kiln :=
  (Device.takePacket_settles ..).kiln

@[simp] theorem Device.takeOne_kiln (dv : Device) (q frame : Nat) : (Device.takeOne dv q frame).2.kiln = dv.kiln :=
  (Device.takeOne_settles ..).kiln

@[simp] theorem Device.takeMany_kiln (q frame : Nat) (xa : Nat) (dv : Device) : (Device.takeMany q frame xa dv).kiln = dv.kiln :=
  (Device.takeMany_settles ..).kiln

@[simp] theorem Device.enableQueue_kiln (dv : Device) (q d : Nat) (restart : Bool) : (Device.enableQueue dv q d restart).kiln = dv.kiln :=
  (Device.enableQueue_settles ..).kiln

@[simp] theorem Device.pollQueue_kiln (dv : Device) (q frame : Nat) : (Device.pollQueue dv q frame).kiln = dv.kiln :=
  (Device.pollQueue_settles ..).kiln

@[simp] theorem Device.publish_kiln (dv : Device) (q : Nat) : (Device.publish dv q).kiln = dv.kiln :=
  (Device.publish_settles ..).kiln

@[simp] theorem Device.withPacket_kiln (dv : Device) (q uid : Nat) (f : Packet → Packet) :
    (Device.withPacket dv q uid f).kiln = dv.kiln := rfl

@[simp] theorem Device.startPacket_kiln (dv : Device) (q uid : Nat) (waits : List Nat) :
    (Device.startPacket dv q uid waits).kiln = dv.kiln := rfl

@[simp] theorem Device.completePacket_kiln (dv : Device) (q uid : Nat) : (Device.completePacket dv q uid).kiln = dv.kiln := rfl

@[simp] theorem State.settleQueue_kiln (q : Nat) (xa : Nat) (st : State) : (State.settleQueue q xa st).dev.kiln = st.dev.kiln :=
  (State.settleQueue_settles ..).kiln

@[simp] theorem State.settleQueues_kiln (s : State) : (State.settleQueues s).dev.kiln = s.dev.kiln :=
  (State.settleQueues_settles ..).kiln

@[simp] theorem State.afterStart_kiln (s : State) (q : Nat) : (State.afterStart s q).dev.kiln = s.dev.kiln := by
  simp [State.afterStart]

@[simp] theorem State.waitvCheck_kiln (s : State) (q : Nat) (p : Packet) : (State.waitvCheck s q p).dev.kiln = s.dev.kiln := by
  unfold State.waitvCheck
  dsimp only
  split
  · simp
  · split
    · rw [State.afterStart_kiln]
      split <;> simp
    · simp

@[simp] theorem Device.copyLines_kiln (ctx : Nat) (xa : Nat) (xb : Nat) (xc : Nat) (dv : Device) :
    (Device.copyLines ctx xa xb xc dv).2.kiln = dv.kiln := by
  induction xa generalizing xb xc dv with
  | zero => rfl
  | succ n ih =>
    unfold Device.copyLines
    dsimp only
    (repeat' split) <;> simp [ih]

@[simp] theorem Device.readImages_kiln (dv : Device) (ctx : Nat) (n : Node) : (Device.readImages dv ctx n).2.kiln = dv.kiln := by
  unfold Device.readImages
  dsimp only
  split <;> simp

@[simp] theorem Device.withGraph_kiln (dv : Device) (g : Nat) (f : Graph → Graph) : (Device.withGraph dv g f).kiln = dv.kiln := rfl

@[simp] theorem Device.writeStatus_kiln (dv : Device) (g : Graph) (st : Nat) : (Device.writeStatus dv g st).2.kiln = dv.kiln :=
  (Device.writeStatus_serves ..).kiln

@[simp] theorem Device.endGraph_kiln (dv : Device) (gid : Nat) : (Device.endGraph dv gid).kiln = dv.kiln := by
  unfold Device.endGraph
  dsimp only
  (repeat' split) <;> simp

@[simp] theorem Device.countDependants_kiln (dv : Device) (n : Node) : (Device.countDependants dv n).kiln = dv.kiln := rfl

@[simp] theorem State.graphGoes_kiln (s : State) (gid : Nat) : (State.graphGoes s gid).dev.kiln = s.dev.kiln := by
  unfold State.graphGoes
  dsimp only
  split <;> simp

@[simp] theorem State.nodeGone_kiln (s : State) (n : Node) : (State.nodeGone s n).dev.kiln = s.dev.kiln := by
  simp [State.nodeGone]

@[simp] theorem State.nodeFails_kiln (s : State) (id : Nat) : (State.nodeFails s id).dev.kiln = s.dev.kiln := by
  unfold State.nodeFails
  (repeat' split) <;> simp [Device.foldl_kiln]

@[simp] theorem State.refuseNode_kiln (s : State) (n : Node) (c : Cause) : (State.refuseNode s n c).dev.kiln = s.dev.kiln := by
  simp [State.refuseNode]

@[simp] theorem State.placeTile_kiln (s : State) (t : Tile) : (State.placeTile s t).dev.kiln = s.dev.kiln := by
  unfold State.placeTile
  split <;> simp

@[simp] theorem State.launchNode_kiln (s : State) (id : Nat) : (State.launchNode s id).dev.kiln = s.dev.kiln := by
  unfold State.launchNode
  split
  · rfl
  · dsimp only
    (repeat' split) <;> simp [State.foldl_kiln]

@[simp] theorem State.startNode_kiln (s : State) (id : Nat) : (State.startNode s id).dev.kiln = s.dev.kiln := by
  unfold State.startNode
  split <;> simp

@[simp] theorem State.nodeCompletes_kiln (s : State) (id : Nat) : (State.nodeCompletes s id).dev.kiln = s.dev.kiln := by
  unfold State.nodeCompletes
  (repeat' split) <;> simp [Device.foldl_kiln]

@[simp] theorem State.beginStopAt_kiln (s : State) (n : Node) (packet : Bool) (sl : Nat × Nat) :
    (State.beginStopAt s n packet sl).dev.kiln = s.dev.kiln :=
  (State.beginStopAt_lasts ..).kiln

@[simp] theorem State.beginStop_kiln (s : State) (id : Nat) (packet : Bool) : (State.beginStop s id packet).dev.kiln = s.dev.kiln :=
  (State.beginStop_lasts ..).kiln

@[simp] theorem State.preemptStop_kiln (s : State) (c : Coord) : (State.preemptStop s c).dev.kiln = s.dev.kiln := by
  unfold State.preemptStop
  split <;> simp

@[simp] theorem State.stopAck_kiln (s : State) (c : Coord) (u : TUnit) : (State.stopAck s c u).dev.kiln = s.dev.kiln := by
  unfold State.stopAck
  dsimp only
  (repeat' split) <;> simp

@[simp] theorem State.saveErr_kiln (s : State) (n : Node) : (State.saveErr s n).dev.kiln = s.dev.kiln := by
  simp [State.saveErr]

theorem Device.writeLines_kiln {dv d : Device} {ls : List Nat} (h : dv.writeLines ls = some d) : d.kiln = dv.kiln := by
  unfold Device.writeLines at h
  split at h
  · cases h
  · cases h
    exact Device.foldl_kiln (by intros; rfl) _ _

theorem Device.writeSlots_kiln {dv d : Device} {n : Node} {sl : Nat × Nat} (h : dv.writeSlots n sl = some d) : d.kiln = dv.kiln :=
  Device.writeLines_kiln h

@[simp] theorem State.savePhase_kiln (s : State) (id : Nat) : (State.savePhase s id).dev.kiln = s.dev.kiln := by
  unfold State.savePhase
  split
  · rfl
  · next n _ =>
    split
    · rfl
    · split
      · simp
      · next d hd =>
        obtain ⟨sl, -, hw⟩ := Option.bind_eq_some_iff.mp hd
        have hk := Device.writeSlots_kiln hw
        simp [Device.foldl_kiln, hk]

@[simp] theorem State.preemptCompletes_kiln (s : State) (id : Nat) : (State.preemptCompletes s id).dev.kiln = s.dev.kiln := by
  unfold State.preemptCompletes
  split <;> simp

@[simp] theorem State.moveHolds_kiln (old : Coord) (t : Tile) (s : State) : (State.moveHolds old t s).dev.kiln = s.dev.kiln := by
  unfold State.moveHolds
  split
  · rfl
  · refine State.foldl_kiln (fun s h => ?_) _ _
    dsimp only
    (repeat' split) <;> simp

@[simp] theorem State.restoreNode_kiln (s : State) (id : Nat) : (State.restoreNode s id).dev.kiln = s.dev.kiln := by
  unfold State.restoreNode
  split
  · rfl
  · split
    · rfl
    · dsimp only
      (repeat' split) <;> simp [State.foldl_kiln]

@[simp] theorem Device.quarantine_kiln (dv : Device) (p : Pos) (c : Coord) : (Device.quarantine dv p c).kiln = dv.kiln := by
  unfold Device.quarantine
  dsimp only
  split <;> simp

@[simp] theorem State.routeJog_kiln (s : State) (m : Migration) (c : Coord) : (State.routeJog s m c).dev.kiln = s.dev.kiln := by
  unfold State.routeJog
  dsimp only
  split <;> simp

@[simp] theorem State.startMigration_kiln (s : State) (m : Migration) (c : Coord) : (State.startMigration s m c).dev.kiln = s.dev.kiln := by
  unfold State.startMigration
  split <;> simp

@[simp] theorem State.shiftMigration_kiln (s : State) (c : Coord) : (State.shiftMigration s c).dev.kiln = s.dev.kiln := by
  unfold State.shiftMigration
  dsimp only
  (repeat' split) <;> simp

@[simp] theorem State.movePos_kiln (s : State) (c : Coord) : (State.movePos s c).dev.kiln = s.dev.kiln := by
  unfold State.movePos
  split <;> simp

@[simp] theorem State.remap_kiln (s : State) (m : Migration) : (State.remap s m).dev.kiln = s.dev.kiln := by
  unfold State.remap
  simp [State.foldl_kiln]

@[simp] theorem State.migFail_kiln (s : State) (m : Migration) : (State.migFail s m).dev.kiln = s.dev.kiln := by
  simp [State.migFail, State.foldl_kiln]

@[simp] theorem State.resumeMoved_kiln (m : Migration) (s : State) (c : Coord) : (State.resumeMoved m s c).dev.kiln = s.dev.kiln := by
  unfold State.resumeMoved
  split <;> simp

@[simp] theorem State.resumeStop_kiln (s : State) (id : Nat) : (State.resumeStop s id).dev.kiln = s.dev.kiln := by
  unfold State.resumeStop
  split <;> simp

@[simp] theorem Device.takeSlots_kiln (dv : Device) (n : Node) : (dv.takeSlots n).2.kiln = dv.kiln := (dv.takeSlots_lasts n).kiln

@[simp] theorem Device.saveMoved_kiln (m : Migration) (r : Bool × Device) (id : Nat) : (Device.saveMoved m r id).2.kiln = r.2.kiln := by
  unfold Device.saveMoved
  split
  · rfl
  · next n _ =>
    cases n.slots with
    | some sl =>
      dsimp only
      split
      · next d hd =>
        rw [Device.writeLines_kiln hd]
        simp
      · simp
    | none =>
      dsimp only
      split
      · simp
      · split
        · next d hd =>
          rw [Device.writeLines_kiln hd]
          simp
        · simp

@[simp] theorem State.migrationRemap_kiln (s : State) (k : Nat) : (State.migrationRemap s k).dev.kiln = s.dev.kiln := by
  unfold State.migrationRemap
  split
  · rfl
  · next m _ =>
    split
    · rfl
    · dsimp only
      have hsave : ∀ (l : List Nat) (r : Bool × Device), (l.foldl (Device.saveMoved m) r).2.kiln = r.2.kiln := fun l => by
        induction l with
        | nil => exact fun _ => rfl
        | cons x l ih => exact fun r => (ih _).trans (Device.saveMoved_kiln m r x)
      split
      · simp [hsave]
      · simp [State.foldl_kiln, hsave]

@[simp] theorem State.migrationTimeout_kiln (s : State) (k : Nat) : (State.migrationTimeout s k).dev.kiln = s.dev.kiln := by
  unfold State.migrationTimeout
  split <;> simp

@[simp] theorem Device.readSuccs_kiln (ctx : Nat) (l : List Nat) (dv : Device) : (Device.readSuccs ctx l dv).2.kiln = dv.kiln := by
  induction l generalizing dv with
  | nil => rfl
  | cons b l ih =>
    rw [Device.readSuccs]
    dsimp only
    split <;> simp [ih]

@[simp] theorem Device.readGraph_kiln (dv : Device) (ctx va n : Nat) : (dv.readGraph ctx va n).2.kiln = dv.kiln := by
  unfold Device.readGraph
  dsimp only
  (repeat' split) <;> simp

@[simp] theorem Device.takeGraph_kiln (dv : Device) (q ctx gseq va : Nat) (statva : Option Nat) (ladder : Option Word) (g : List Nat × List (List Nat)) :
    (Device.takeGraph dv q ctx gseq va statva ladder g).2.kiln = dv.kiln := rfl

@[simp] theorem Device.refuseGraph_kiln (dv : Device) (q ctx gseq tag : Nat) (statva : Option Nat) (c : Cause) :
    (Device.refuseGraph dv q ctx gseq tag statva c).kiln = dv.kiln := by
  unfold Device.refuseGraph
  dsimp only
  (repeat' split) <;> simp

@[simp] theorem State.launchPacket_kiln (s : State) (q : Nat) (p : Packet) : (State.launchPacket s q p).dev.kiln = s.dev.kiln := by
  unfold State.launchPacket
  dsimp only
  (repeat' split) <;> simp

@[simp] theorem State.preemptNodes_kiln (s : State) (q : Nat) (p : Packet) : (State.preemptNodes s q p).dev.kiln = s.dev.kiln := by
  simp [State.preemptNodes, State.foldl_kiln]

@[simp] theorem Device.freeReady_kiln (dv : Device) : (Device.freeReady dv).kiln = dv.kiln := rfl

@[simp] theorem State.lichenPacket_kiln (s : State) (q : Nat) (p : Packet) : (State.lichenPacket s q p).dev.kiln = s.dev.kiln := by
  simp [State.lichenPacket, Device.foldl_kiln]

@[simp] theorem State.passStart_kiln (s : State) (p : Pos) : (State.passStart s p).dev.kiln = s.dev.kiln := by
  simp [State.passStart]

@[simp] theorem State.passEnd_kiln (s : State) (p : Pos) : (State.passEnd s p).dev.kiln = s.dev.kiln := by
  unfold State.passEnd
  dsimp only
  (repeat' split) <;> simp

@[simp] theorem Device.writeReport_kiln (dv : Device) (r : Nat) : (Device.writeReport dv r).kiln = dv.kiln := by
  unfold Device.writeReport
  split <;> simp [Device.foldl_kiln]

@[simp] theorem State.lichenFrame_kiln (s : State) (r : Nat) : (State.lichenFrame s r).dev.kiln = s.dev.kiln :=
  (State.lichenFrame_lasts ..).kiln

@[simp] theorem Device.lend_kiln (xa : Nat) (dv : Device) : (Device.lend xa dv).kiln = dv.kiln :=
  (Device.lend_lasts ..).kiln

@[simp] theorem Device.relend_kiln (dv : Device) : (Device.relend dv).kiln = dv.kiln :=
  (Device.relend_lasts ..).kiln

@[simp] theorem State.displace_kiln (xa : List Node) (st : State) : (State.displace xa st).dev.kiln = st.dev.kiln :=
  (State.displace_lasts ..).kiln

@[simp] theorem State.claim_kiln (s : State) (n : Node) : (State.claim s n).dev.kiln = s.dev.kiln :=
  (State.claim_lasts ..).kiln

@[simp] theorem State.choosePlace_kiln (s : State) (n : Node) (lvl : Nat) : (State.choosePlace s n lvl).2.dev.kiln = s.dev.kiln :=
  (State.choosePlace_lasts ..).kiln

@[simp] theorem State.tryQueues_kiln (lvl : Nat) (xa : List Nat) (st : State) : (State.tryQueues lvl xa st).dev.kiln = st.dev.kiln :=
  (State.tryQueues_lasts ..).kiln

@[simp] theorem State.scheduleCycle_kiln (s : State) : (State.scheduleCycle s).dev.kiln = s.dev.kiln :=
  (State.scheduleCycle_lasts ..).kiln

@[simp] theorem Device.heartbeat_kiln (dv : Device) (r : Nat) : (Device.heartbeat dv r).kiln = dv.kiln :=
  (Device.heartbeat_reports ..).kiln

@[simp] theorem Device.checkpoint_kiln (dv : Device) (h : Nat) : (Device.checkpoint dv h).kiln = dv.kiln :=
  (Device.checkpoint_lasts ..).kiln

@[simp] theorem State.relaunch_kiln (s : State) (r : Nat) : (State.relaunch s r).dev.kiln = s.dev.kiln :=
  (State.relaunch_lasts ..).kiln

@[simp] theorem State.adopt_kiln (s : State) (h : Nat) : (State.adopt s h).dev.kiln = s.dev.kiln :=
  (State.adopt_lasts ..).kiln

@[simp] theorem State.watch_kiln (s : State) : (State.watch s).dev.kiln = s.dev.kiln :=
  (State.watch_lasts ..).kiln

@[simp] theorem State.lastStop_kiln (s : State) : (State.lastStop s).dev.kiln = s.dev.kiln :=
  (State.lastStop_lasts ..).kiln

@[simp] theorem Device.frameEnd_kiln (dv : Device) (h : Nat) : (Device.frameEnd dv h).kiln = dv.kiln :=
  (Device.frameEnd_lasts ..).kiln

@[simp] theorem State.sharedFrame_kiln (s : State) : (State.sharedFrame s).dev.kiln = s.dev.kiln :=
  (State.sharedFrame_lasts ..).kiln

@[simp] theorem State.hearthFrame_kiln (s : State) (h : Nat) : (State.hearthFrame s h).dev.kiln = s.dev.kiln := by
  obtain ⟨d, hd⟩ : ∃ d, d = s.dev.frameEnd h := ⟨_, rfl⟩
  have hdk : d.kiln = s.dev.kiln := hd ▸ Device.frameEnd_kiln ..
  obtain ⟨a, ha⟩ : ∃ a : State, a = s.withDev fun dv =>
      { (dv.frameEnd h).withRegion h fun x =>
          { x with frame := x.frame + 1, cecnt := (x.cecnt + x.hearthSoft) % 2 ^ 32, hearthSoft := 0, req := (dv.frameEnd h).freeBits 8 } with
        free := (dv.frameEnd h).free + 1 } := ⟨_, rfl⟩
  obtain ⟨b, hb⟩ : ∃ b : State, b = (a.withDev fun dv => (dv.served h (a.dev.region h).frame).foldl
      (fun (dv : Device) q => dv.pollQueue q (a.dev.region h).frame) dv).settleQueues := ⟨_, rfl⟩
  have hk : a.dev.kiln = s.dev.kiln := by
    rw [ha, State.withDev, ← hd, ← hdk]
    exact Device.withRegion_kiln ..
  have hpoll : b.dev.kiln = a.dev.kiln := by
    rw [hb, State.settleQueues_kiln, State.withDev]
    exact Device.foldl_kiln (fun d q => Device.pollQueue_kiln ..) _ _
  rw [State.hearthFrame]
  split
  · rfl
  · dsimp only
    rw [← ha, ← hb, State.lichenFrame_kiln, State.push_kiln, ← hk, ← hpoll]
    split
    · exact State.sharedFrame_kiln ..
    · rfl

@[simp] theorem State.rasWindow_kiln (s : State) (r : Nat) : (State.rasWindow s r).dev.kiln = s.dev.kiln := by
  simp [State.rasWindow, Device.foldl_kiln]

@[simp] theorem State.shadowRep_kiln (s : State) (t : Tile) : (State.shadowRep s t).dev.kiln = s.dev.kiln := by
  unfold State.shadowRep
  dsimp only
  split
  · rw [State.shiftMigration_kiln, State.withDev_kiln]
    split <;> simp
  · rw [State.withDev_kiln]
    split <;> simp

@[simp] theorem State.shadowReplay_kiln (s : State) (c : Coord) : (State.shadowReplay s c).dev.kiln = s.dev.kiln := by
  unfold State.shadowReplay
  split <;> simp

@[simp] theorem State.injctlWrite_kiln (s : State) (r : Nat) (v : Nat) : (State.injctlWrite s r v).dev.kiln = s.dev.kiln := by
  simp [State.injctlWrite]

@[simp] theorem Device.injected_kiln (dv : Device) (t : Tile) : (Device.injected dv t).kiln = dv.kiln := by
  unfold Device.injected
  dsimp only
  (repeat' split) <;> simp [Device.foldl_kiln]

@[simp] theorem State.countInjected_kiln (s : State) : (State.countInjected s).dev.kiln = s.dev.kiln := by
  simp [State.countInjected, Device.foldl_kiln]

@[simp] theorem Device.security_kiln (dv : Device) : (Device.security dv).kiln = dv.kiln :=
  (Device.security_reports ..).kiln

@[simp] theorem Device.powerUp_kiln (dv : Device) : (Device.powerUp dv).kiln = dv.kiln := by
  simp [Device.powerUp]

@[simp] theorem Device.windowReset_kiln (dv : Device) (r : Nat) : (Device.windowReset dv r).kiln = dv.kiln :=
  (Device.windowReset_reports ..).kiln

@[simp] theorem State.regionBringUp_kiln (s : State) (r : Nat) : (State.regionBringUp s r).dev.kiln = s.dev.kiln := by
  obtain ⟨a, ha⟩ : ∃ a : State, a = s.withDev fun dv => dv.windowReset r := ⟨_, rfl⟩
  have hk : a.dev.kiln = s.dev.kiln := by
    rw [ha, State.withDev]
    exact Device.windowReset_kiln ..
  rw [State.regionBringUp]
  split
  · rfl
  · rw [← ha]
    dsimp only
    split
    · rw [State.withDev_kiln, Device.setReady_kiln, ← hk]
      rfl
    · rw [State.push_kiln, ← hk]
      exact Device.withRegion_kiln ..

@[simp] theorem Device.mapBuild_kiln (dv : Device) (r : Nat) : (Device.mapBuild dv r).kiln = dv.kiln := by
  simp [Device.mapBuild]

@[simp] theorem Device.linkUp_kiln (dv : Device) (p : Nat) : (Device.linkUp dv p).kiln = dv.kiln := by
  simp [Device.linkUp]

@[simp] theorem State.opticalReady_kiln (s : State) (p : Nat) : (State.opticalReady s p).dev.kiln = s.dev.kiln := by
  unfold State.opticalReady
  dsimp only
  (repeat' split) <;> simp

@[simp] theorem Device.opticalTrain_kiln (dv : Device) (p : Nat) : (Device.opticalTrain dv p).kiln = dv.kiln := by
  simp [Device.opticalTrain]

@[simp] theorem Device.attestPeer_kiln (dv : Device) (p : Nat) (x : PeerReport) : (Device.attestPeer dv p x).kiln = dv.kiln := by
  simp [Device.attestPeer]

@[simp] theorem State.regionReset_kiln (s : State) (r : Nat) : (State.regionReset s r).dev.kiln = s.dev.kiln := by
  simp [State.regionReset]

@[simp] theorem State.setWafer_kiln (s : State) (w : Nat) : (State.setWafer s w).dev.kiln = s.dev.kiln := by
  simp [State.setWafer]

@[simp] theorem Device.setModcap_kiln (dv : Device) (v : Nat) : (Device.setModcap dv v).kiln = dv.kiln := rfl

@[simp] theorem Device.setCeil_kiln (dv : Device) (r v : Nat) : (Device.setCeil dv r v).kiln = dv.kiln := by
  simp [Device.setCeil]

@[simp] theorem Device.setPft_kiln (dv : Device) (r v : Nat) : (Device.setPft dv r v).kiln = dv.kiln := by
  simp [Device.setPft]

@[simp] theorem Device.withBox_kiln (dv : Device) (p : Nat) (f : Mailbox → Mailbox) : (Device.withBox dv p f).kiln = dv.kiln := rfl

@[simp] theorem Device.setKstat_kiln (dv : Device) (p st : Nat) (resp : Option (List Byte)) :
    (Device.setKstat dv p st resp).kiln = dv.kiln := by
  simp [Device.setKstat]

@[simp] theorem Device.barStore_kiln (dv : Device) (a : Nat) (bytes : List Byte) : (Device.barStore dv a bytes).kiln = dv.kiln := by
  unfold Device.barStore
  split <;> simp

@[simp] theorem Device.barStores_kiln (dv : Device) (xa : List (Nat × Nat)) (xb : List Byte) :
    (Device.barStores dv xa xb).kiln = dv.kiln := by
  induction xa generalizing xb dv with
  | nil => rfl
  | cons x l ih =>
    rw [Device.barStores, ih, Device.barStore_kiln]

@[simp] theorem Device.barWait_kiln (dv : Device) (port a n : Nat) : (Device.barWait dv port a n).kiln = dv.kiln := by
  unfold Device.barWait
  refine Device.foldl_kiln (fun d i => ?_) _ _
  split <;> simp

@[simp] theorem Device.barMeet_kiln (dv : Device) (a n : Nat) : (Device.barMeet dv a n).kiln = dv.kiln :=
  (Device.barMeet_sameHost ..).kiln

@[simp] theorem Device.barAccess_kiln (dv : Device) (port a : Nat) (op : Bar2Op) : (Device.barAccess dv port a op).kiln = dv.kiln := by
  unfold Device.barAccess
  (repeat' split) <;> simp

@[simp] theorem Device.withMgmt_kiln (dv : Device) (f : Mgmt → Mgmt) : (Device.withMgmt dv f).kiln = dv.kiln := rfl

@[simp] theorem Device.voltageNow_kiln (dv : Device) : (Device.voltageNow dv).kiln = dv.kiln := by
  simp [Device.voltageNow]

@[simp] theorem Device.damperStep_kiln (dv : Device) : (Device.damperStep dv).kiln = dv.kiln := by
  simp [Device.damperStep]

@[simp] theorem Device.voltageWarning_kiln (dv : Device) : (Device.voltageWarning dv).kiln = dv.kiln := rfl

@[simp] theorem State.failWaiters_kiln (s : State) (p : Nat) : (State.failWaiters s p).dev.kiln = s.dev.kiln := by
  simp [State.failWaiters, State.foldl_kiln]

@[simp] theorem State.halfCommit_kiln (s : State) (p : Nat) (t : Tile) (a : BulkAcc) (x : Xlat) :
    (State.halfCommit s p t a x).dev.kiln = s.dev.kiln := by
  unfold State.halfCommit
  (repeat' split) <;> simp [Device.foldl_kiln]

@[simp] theorem State.caughtCommit_kiln (s : State) (p : Nat) (t : Tile) (a : BulkAcc) :
    (State.caughtCommit s p t a).dev.kiln = s.dev.kiln := by
  unfold State.caughtCommit
  split <;> simp

@[simp] theorem State.portFails_kiln (s : State) (p : Nat) : (State.portFails s p).dev.kiln = s.dev.kiln := by
  unfold State.portFails
  split
  · rfl
  · dsimp only
    have hcaught : ∀ (l : List Nat) (s : State), (l.foldl (fun (s : State) id => s.withAcc id fun t a => s.caughtCommit p t a) s).dev.kiln =
        s.dev.kiln := State.foldl_kiln fun s id => State.withAcc_kiln id fun t a => by simp
    split <;> simp [hcaught]

@[simp] theorem Device.normTreeBad_kiln (dv : Device) (ctx b : Nat) : (Device.normTreeBad dv ctx b).2.kiln = dv.kiln := by
  unfold Device.normTreeBad
  dsimp only
  (repeat' split) <;> simp

@[simp] theorem Device.setLoop_kiln (dv : Device) (l : LoopCtl) : (Device.setLoop dv l).kiln = dv.kiln := rfl

@[simp] theorem Device.dropLoop_kiln (dv : Device) (l : LoopCtl) : (Device.dropLoop dv l).kiln = dv.kiln := rfl

@[simp] theorem State.loopFault_kiln (s : State) (l : LoopCtl) (c : Cause) : (State.loopFault s l c).dev.kiln = s.dev.kiln := by
  simp [State.loopFault]

@[simp] theorem State.finishLoop_kiln (s : State) (l : LoopCtl) (e : Nat) : (State.finishLoop s l e).dev.kiln = s.dev.kiln := by
  unfold State.finishLoop
  dsimp only
  (repeat' split) <;> simp

@[simp] theorem State.failLoopAs_kiln (s : State) (l : LoopCtl) (code nodeid : Nat) :
    (State.failLoopAs s l code nodeid).dev.kiln = s.dev.kiln := by
  simp [State.failLoopAs]

@[simp] theorem State.failLoop_kiln (s : State) (l : LoopCtl) (c : Cause) (nodeid : Nat) :
    (State.failLoop s l c nodeid).dev.kiln = s.dev.kiln := by
  simp [State.failLoop]

@[simp] theorem State.runLoop_kiln (s : State) (l : LoopCtl) (a : LoopAt) : (State.runLoop s l a).dev.kiln = s.dev.kiln := by
  unfold State.runLoop
  dsimp only
  (repeat' split) <;> simp

@[simp] theorem State.refineStart_kiln (s : State) (q : Nat) (p : Packet) : (State.refineStart s q p).dev.kiln = s.dev.kiln := by
  unfold State.refineStart
  dsimp only
  (repeat' split) <;> simp

@[simp] theorem State.loopExit_kiln (s : State) (l : LoopCtl) (e : Nat) : (State.loopExit s l e).dev.kiln = s.dev.kiln := by
  simp [State.loopExit]

@[simp] theorem State.loopNorm_kiln (s : State) (l : LoopCtl) : (State.loopNorm s l).dev.kiln = s.dev.kiln := by
  unfold State.loopNorm
  dsimp only
  (repeat' split) <;> simp

@[simp] theorem State.refineStep_kiln (s : State) (q : Nat) : (State.refineStep s q).dev.kiln = s.dev.kiln := by
  unfold State.refineStep
  (repeat' split) <;> simp

end Sys2Proof.Machine
end

section
/-! SUPPORT. What the Kiln holds in fuses (R397, R398, R400): the functions of the host's registers, the management port, the resets and the Kiln's own
commands keep it, but for those that raise a counter. -/

namespace Sys2Proof.Machine

/-- What the Kiln holds in fuses. -/
def Kiln.fuses (k : Kiln) : Nat × Nat × Nat := (k.rollback, k.enrolCount, k.leaf)

theorem Device.foldl_fuses {α : Type} {f : Device → α → Device} (hf : ∀ d x, (f d x).kiln.fuses = d.kiln.fuses) (l : List α) (d : Device) :
    (l.foldl f d).kiln.fuses = d.kiln.fuses := by
  induction l generalizing d with
  | nil => rfl
  | cons x l ih => exact (ih _).trans (hf _ _)

@[simp] theorem Device.kilnEnd_fuses (dv : Device) (p st : Nat) (resp : Option (List Byte)) :
    (dv.kilnEnd p st resp).kiln.fuses = dv.kiln.fuses := by
  obtain ⟨a, ha⟩ : ∃ a, a = dv.setKstat p st resp := ⟨_, rfl⟩
  have hk : a.kiln = dv.kiln := by rw [ha, Device.setKstat_kiln]
  obtain ⟨b, hb⟩ : ∃ b : Device, b = { a with kiln := { a.kiln with pending := a.kiln.pending.drop 1 } } := ⟨_, rfl⟩
  have hbf : b.kiln.fuses = dv.kiln.fuses := by rw [hb, ← hk]; rfl
  unfold Device.kilnEnd
  dsimp only
  rw [← ha, ← hb, ← hbf]
  (repeat' split) <;> simp

@[simp] theorem Device.skipUnknown_fuses (fuel : Nat) (dv : Device) : (Device.skipUnknown fuel dv).kiln.fuses = dv.kiln.fuses := by
  induction fuel generalizing dv with
  | zero => rfl
  | succ n ih =>
    rw [Device.skipUnknown]
    split
    · split
      · rw [ih, Device.kilnEnd_fuses]
      · rfl
    · rfl

@[simp] theorem Device.kilnDone_fuses (dv : Device) (p st : Nat) (resp : Option (List Byte)) :
    (dv.kilnDone p st resp).kiln.fuses = dv.kiln.fuses := by
  rw [Device.kilnDone, Device.skipUnknown_fuses, Device.kilnEnd_fuses]

@[simp] theorem Device.dropCommands_fuses (dv : Device) (p : Nat) : (dv.dropCommands p).kiln.fuses = dv.kiln.fuses :=
  Device.skipUnknown_fuses ..

@[simp] theorem State.portReset_fuses (s : State) (p : Nat) : (s.portReset p).dev.kiln.fuses = s.dev.kiln.fuses := by
  unfold State.portReset
  split
  · rfl
  · rw [State.withDev_kiln, Device.dropCommands_fuses]
    exact congrArg Kiln.fuses (State.linkDrop_kiln ..)

@[simp] theorem Device.doorbell_fuses (dv : Device) (p code : Nat) : (dv.doorbell p code).kiln.fuses = dv.kiln.fuses := by
  obtain ⟨a, ha⟩ : ∃ a, a = dv.setKstat p 0xFF none := ⟨_, rfl⟩
  have hk : a.kiln = dv.kiln := by rw [ha, Device.setKstat_kiln]
  unfold Device.doorbell
  dsimp only
  rw [← ha, ← hk]
  split
  · rw [hk]
  · split
    · exact Device.skipUnknown_fuses ..
    · rfl

theorem State.withDev_fuses {s : State} {f : Device → Device} (h : (f s.dev).kiln.fuses = s.dev.kiln.fuses) :
    (s.withDev f).dev.kiln.fuses = s.dev.kiln.fuses := h

theorem fuses_ite {c : Prop} [Decidable c] {a b : State} {k : Nat × Nat × Nat} (ha : a.dev.kiln.fuses = k) (hb : b.dev.kiln.fuses = k) :
    (if c then a else b).dev.kiln.fuses = k := by
  split
  · exact ha
  · exact hb

@[simp] theorem State.bar0Write_fuses (s : State) (p a : Nat) (v : DWord) : (s.bar0Write p a v).dev.kiln.fuses = s.dev.kiln.fuses := by
  unfold State.bar0Write
  refine fuses_ite rfl ?_
  iterate 11 refine fuses_ite (by simp) ?_
  exact fuses_ite (State.withDev_fuses (Device.doorbell_fuses ..)) (fuses_ite (by simp) rfl)

@[simp] theorem State.mgmtWrite_fuses (s : State) (a : Nat) (v : DWord) : (s.mgmtWrite a v).dev.kiln.fuses = s.dev.kiln.fuses := by
  unfold State.mgmtWrite
  dsimp only
  (repeat' split) <;> simp

@[simp] theorem State.mgmtAnswer_kiln (s : State) (a : Option (List Byte)) : (s.mgmtAnswer a).dev.kiln = s.dev.kiln := rfl

@[simp] theorem State.mgmtData_fuses (s : State) (idx : Nat) (bytes : List Byte) :
    (s.mgmtData idx bytes).dev.kiln.fuses = s.dev.kiln.fuses := by
  have hall : ∀ (l : List (Nat × List (Nat × Byte))) (s : State), (l.foldl (fun (s : State) x =>
      s.mgmtWrite x.1 (BitVec.ofNat 64 (mergeItem (s.dev.mgmtOld x.1) x.2))) s).dev.kiln.fuses = s.dev.kiln.fuses := fun l => by
    induction l with
    | nil => exact fun _ => rfl
    | cons x l ih => exact fun s => (ih _).trans (State.mgmtWrite_fuses ..)
  exact hall _ _

@[simp] theorem State.privateWrite_fuses (s : State) (bytes : List Byte) : (s.privateWrite bytes).dev.kiln.fuses = s.dev.kiln.fuses := by
  unfold State.privateWrite
  split
  · rw [State.mgmtAnswer_kiln, State.mgmtData_fuses]
    rfl
  · rfl

@[simp] theorem State.privateRead_kiln (s : State) (n : Nat) : (s.privateRead n).dev.kiln = s.dev.kiln := rfl

@[simp] theorem Device.loadKey_fuses (dv : Device) (p slot ctx material : Nat) :
    (dv.loadKey p slot ctx material).kiln.fuses = dv.kiln.fuses := by
  unfold Device.loadKey
  split
  · simp
  · exact Device.kilnDone_fuses ..

@[simp] theorem Device.kgen_fuses (dv : Device) (p : Nat) : (dv.kgen p).kiln.fuses = dv.kiln.fuses := by
  unfold Device.kgen
  split
  · rfl
  · dsimp only
    split
    · exact Device.kilnDone_fuses ..
    · exact Device.loadKey_fuses ..

@[simp] theorem Device.kunwrap_fuses (dv : Device) (p : Nat) : (dv.kunwrap p).kiln.fuses = dv.kiln.fuses := by
  unfold Device.kunwrap
  dsimp only
  (repeat' split) <;> simp

@[simp] theorem Device.kunload_fuses (dv : Device) (p : Nat) : (dv.kunload p).kiln.fuses = dv.kiln.fuses := by
  unfold Device.kunload
  dsimp only
  split
  · rfl
  · split
    · simp
    · split
      · rfl
      · simp

@[simp] theorem State.keySlotClear_fuses (s : State) (slot : Nat) : (s.keySlotClear slot).dev.kiln.fuses = s.dev.kiln.fuses := by
  unfold State.keySlotClear
  split
  · rfl
  · rw [State.withDev]
    dsimp only
    split
    · exact Device.kilnDone_fuses ..
    · rfl

@[simp] theorem Device.applyConfig_fuses (dv : Device) (c : KConfig) : (dv.applyConfig c).kiln.fuses = dv.kiln.fuses :=
  Device.foldl_fuses (fun d q => by split <;> simp) _ _

@[simp] theorem Device.resetAll_fuses (dv : Device) : dv.resetAll.kiln.fuses = dv.kiln.fuses := by
  obtain ⟨d, hd⟩ : ∃ d, d = dv.dropReady := ⟨_, rfl⟩
  have hk : d.kiln = dv.kiln := by rw [hd, Device.dropReady_kiln]
  rw [Device.resetAll, ← hd, ← hk]
  rfl

@[simp] theorem Device.powerOff_fuses (dv : Device) (mv : Nat) : (dv.powerOff mv).kiln.fuses = dv.kiln.fuses := by
  obtain ⟨d, hd⟩ : ∃ d, d = dv.dropReady := ⟨_, rfl⟩
  have hk : d.kiln = dv.kiln := by rw [hd, Device.dropReady_kiln]
  rw [Device.powerOff, ← hd, ← hk]
  rfl

@[simp] theorem State.shutdown_fuses (s : State) (mv : Nat) : (s.shutdown mv).dev.kiln.fuses = s.dev.kiln.fuses := Device.powerOff_fuses ..

@[simp] theorem State.resetDevice_fuses (s : State) : s.resetDevice.dev.kiln.fuses = s.dev.kiln.fuses := Device.resetAll_fuses ..

@[simp] theorem State.bringUp_fuses (s : State) : s.bringUp.dev.kiln.fuses = s.dev.kiln.fuses := by
  obtain ⟨d, hd⟩ : ∃ d, d = s.dev.powerUp := ⟨_, rfl⟩
  have hk : d.kiln = s.dev.kiln := by rw [hd, Device.powerUp_kiln]
  unfold State.bringUp
  split
  · rfl
  · rw [← hd]
    dsimp only
    split
    · rw [State.push_kiln]
      dsimp only
      rw [Device.foldl_fuses (fun d n => by simp), ← hk]
      rfl
    · exact congrArg Kiln.fuses ((Device.security_kiln d).trans hk)

@[simp] theorem State.thermalLimit_fuses (s : State) (r : Nat) : (s.thermalLimit r).dev.kiln.fuses = s.dev.kiln.fuses := by
  unfold State.thermalLimit
  split
  · rfl
  · dsimp only
    split <;> simp

/-- The counters of the Kiln, where they are in range, are kept or raised, and stay in range. -/
def Kiln.Grows (k k' : Kiln) : Prop :=
  k.enrolCount ≤ 15 → k.leaf ≤ 2 ^ 20 →
    k.rollback ≤ k'.rollback ∧ k.enrolCount ≤ k'.enrolCount ∧ k'.enrolCount ≤ 15 ∧ k.leaf ≤ k'.leaf ∧ k'.leaf ≤ 2 ^ 20

theorem Kiln.Grows.of_fuses {k k' : Kiln} (h : k'.fuses = k.fuses) : k.Grows k' := by
  obtain ⟨hr, he, hl⟩ : k'.rollback = k.rollback ∧ k'.enrolCount = k.enrolCount ∧ k'.leaf = k.leaf := by
    simpa only [Kiln.fuses, Prod.mk.injEq] using h
  exact fun hcount hleaf => ⟨hr.ge, he.ge, he.symm ▸ hcount, hl.ge, hl.symm ▸ hleaf⟩

theorem Kiln.Grows.of_eq {k k' : Kiln} (h : k' = k) : k.Grows k' := .of_fuses (congrArg Kiln.fuses h)

theorem Kiln.Grows.trans {a b c : Kiln} (h : a.Grows b) (k : b.Grows c) : a.Grows c := by
  intro hcount hleaf
  obtain ⟨hr, he, he15, hl, hl20⟩ := h hcount hleaf
  obtain ⟨hr', he', he15', hl', hl20'⟩ := k he15 hl20
  exact ⟨hr.trans hr', he.trans he', he15', hl.trans hl', hl20'⟩

theorem Kiln.Grows.fuses {a b c : Kiln} (h : a.Grows b) (k : c.fuses = b.fuses) : a.Grows c := h.trans (.of_fuses k)

theorem Device.attest_grows (dv : Device) (p : Nat) (nonce : List Byte) : dv.kiln.Grows (dv.attest p nonce).kiln := by
  unfold Device.attest
  split
  · exact .of_fuses (Device.kilnDone_fuses ..)
  next hroom =>
    refine Kiln.Grows.fuses (b := { dv.kiln with leaf := dv.kiln.leaf + 1 }) (fun hcount hleaf => ?_) (Device.kilnDone_fuses ..)
    have hnext : dv.kiln.leaf + 1 ≤ 2 ^ 20 := by omega
    exact ⟨le_rfl, le_rfl, hcount, Nat.le_succ _, hnext⟩

theorem Device.kattest_grows (dv : Device) (p : Nat) : dv.kiln.Grows (dv.kattest p).kiln := by
  unfold Device.kattest
  split
  · exact .of_eq rfl
  · split
    · exact .of_fuses (Device.kilnDone_fuses ..)
    · exact dv.attest_grows p _

theorem enrolGood_count {k : Kiln} {e : Enrol} (h : enrolGood k e = true) : k.enrolCount < e.count ∧ e.count ≤ 15 := by
  simp only [enrolGood, Bool.and_eq_true, decide_eq_true_eq] at h
  obtain ⟨⟨⟨⟨-, hmore⟩, -⟩, hmost⟩, -⟩ := h
  exact ⟨hmore, hmost⟩

theorem Device.enrolled_grows (dv : Device) {e : Enrol} (h : enrolGood dv.kiln e = true) :
    dv.kiln.Grows { dv.kiln with operator := some e.keyDigest, enrolCount := e.count } := by
  obtain ⟨hmore, hmost⟩ := enrolGood_count h
  exact fun _ hleaf => ⟨le_rfl, hmore.le, hmost, le_rfl, hleaf⟩

theorem Device.configure_grows (dv : Device) (p : Nat) (bytes : List Byte) : dv.kiln.Grows (dv.configure p bytes).kiln := by
  have hrefused (d : Device) (st : Nat) : (d.security.kilnDone p st none).kiln.fuses = d.kiln.fuses := by
    rw [Device.kilnDone_fuses, Device.security_kiln]
  have htaken (d : Device) (c : KConfig) : ((d.applyConfig c).kilnDone p 0 none).kiln.fuses = d.kiln.fuses := by
    rw [Device.kilnDone_fuses, Device.applyConfig_fuses]
  unfold Device.configure
  split
  next e _ =>
    dsimp only
    split
    next hgood =>
      simp only [Bool.and_eq_true] at hgood
      obtain ⟨⟨hgood, -⟩, -⟩ := hgood
      exact (dv.enrolled_grows hgood).fuses (htaken ..)
    next => exact .of_fuses (hrefused ..)
  next key _ =>
    dsimp only
    split
    · exact .of_fuses (htaken ..)
    · exact .of_fuses (hrefused ..)
  next => exact .of_fuses (hrefused ..)

theorem Device.kcfg_grows (dv : Device) (p : Nat) : dv.kiln.Grows (dv.kcfg p).kiln := by
  unfold Device.kcfg
  split
  · exact .of_eq rfl
  · dsimp only
    split
    · exact .of_fuses (Device.kilnDone_fuses ..)
    · obtain ⟨r, hr⟩ : ∃ r, r = dv.barBytes (bytesVal ((dv.kreq p).take 8)) (bytesVal (((dv.kreq p).drop 8).take 4)) := ⟨_, rfl⟩
      have hk : r.2.kiln = dv.kiln := by rw [hr, (Device.barBytes_sameHost ..).kiln]
      rw [← hr, ← hk]
      cases r.1 with
      | some bytes => exact r.2.configure_grows p bytes
      | none => exact .of_fuses (Device.kilnDone_fuses ..)

theorem Device.kcommit_grows (dv : Device) (p : Nat) : dv.kiln.Grows (dv.kcommit p).kiln := by
  unfold Device.kcommit
  split
  · exact .of_eq rfl
  · split
    · exact .of_fuses (Device.kilnDone_fuses ..)
    · refine Kiln.Grows.fuses (b := { dv.kiln with rollback := Nat.max dv.kiln.rollback dv.kiln.svn }) (fun hcount hleaf => ?_)
        (Device.kilnDone_fuses ..)
      exact ⟨Nat.le_max_left .., le_rfl, hcount, le_rfl, hleaf⟩

theorem Device.withBoot_fuses (dv : Device) (v : Verdict) :
    Kiln.fuses (Device.kiln { dv with kiln := { dv.kiln with boot := v } }) = dv.kiln.fuses := rfl

theorem State.rebooted_fuses (s : State) (p : Nat) (v : Verdict) :
    ((s.withDev fun dv => dv.kilnDone p 0 none).withDev fun dv =>
      { dv with kiln := { dv.kiln with boot := v } }).resetDevice.dev.kiln.fuses = s.dev.kiln.fuses := by
  rw [State.resetDevice_fuses, State.withDev_kiln, Device.withBoot_fuses, State.withDev_kiln, Device.kilnDone_fuses]

theorem State.unverified_fuses (s : State) (p st : Nat) :
    (s.withDev fun dv =>
      let dv := (dv.security).kilnDone p st none
      { dv with kiln := { dv.kiln with firmwareOk := false } }.holdAll).dev.kiln.fuses = s.dev.kiln.fuses := by
  obtain ⟨d, hd⟩ : ∃ d, d = s.dev.security.kilnDone p st none := ⟨_, rfl⟩
  have hdk : d.kiln.fuses = s.dev.kiln.fuses := by rw [hd, Device.kilnDone_fuses, Device.security_kiln]
  rw [State.withDev_kiln, ← hd, ← hdk, Device.holdAll_kiln]
  rfl

@[simp] theorem State.kfwload_fuses (s : State) (p : Nat) : (s.kfwload p).dev.kiln.fuses = s.dev.kiln.fuses := by
  unfold State.kfwload
  dsimp only
  split
  · rfl
  · obtain ⟨r, hr⟩ : ∃ r, r = s.dev.barBytes (bytesVal ((s.dev.kreq p).take 8)) 1 := ⟨_, rfl⟩
    have hk : r.2.kiln = s.dev.kiln := by rw [hr, (Device.barBytes_sameHost ..).kiln]
    rw [← hr]
    split
    · exact State.withDev_fuses (Device.kilnDone_fuses ..)
    · rw [← hk]
      split
      · generalize Config.containerVerdict _ _ = v
        split
        · rw [State.rebooted_fuses]
        · generalize (if v.ecdsa && v.lms && v.imageOk then 3 else 2) = st
          rw [State.unverified_fuses]
      · exact Device.kilnDone_fuses ..

end Sys2Proof.Machine
end

section
/-! SUPPORT. Every step keeps the fused and attested counters of the Kiln from falling: the device's steps, the slots of a bundle, and the turn. -/

namespace Sys2Proof.Machine

section
variable {s u : State}

theorem kiln_ite {c : Prop} [Decidable c] {a b : State} {k : Kiln} (ha : a.dev.kiln = k) (hb : b.dev.kiln = k) :
    (if c then a else b).dev.kiln = k := by
  split
  · exact ha
  · exact hb

theorem execEngineFire_kiln {c : Coord} {e : Engine} (h : execEngineFire c e s = .next u) : u.dev.kiln = s.dev.kiln := by
  cases h
  exact kiln_ite (by simp) (by simp)

theorem execLinkResend_kiln {c : LinkEnd} {d : Dir} (h : execLinkResend c d s = .next u) : u.dev.kiln = s.dev.kiln := by
  cases c <;> cases h <;> simp

theorem execLinkDown_kiln {c : LinkEnd} {d : Dir} (h : execLinkDown c d s = .next u) : u.dev.kiln = s.dev.kiln := by
  cases c <;> cases h <;> simp

theorem execTrapRecordRelease_kiln {ctx : BitVec 8} (h : execTrapRecordRelease ctx s = .next u) : u.dev.kiln = s.dev.kiln := by
  cases h
  exact (State.foldl_kiln (fun s (g : Graph) => State.graphGoes_kiln s g.id) ..).trans (Device.releaseHeld_kiln ..)

theorem execTileStart_kiln {c : Coord} (h : execTileStart c s = .next u) : u.dev.kiln = s.dev.kiln := by
  cases h
  split
  · exact kiln_ite (by simp) rfl
  · rfl

theorem execHearthStop_kiln {k : Nat} (h : execHearthStop k s = .next u) : u.dev.kiln = s.dev.kiln := by
  cases h
  refine kiln_ite ?_ rfl
  rw [State.lastStop_kiln, State.withDev]
  exact (Device.heartbeat_kiln ..).trans (Device.withRegion_kiln ..)

theorem execQbroken_kiln {q : Nat} (h : execQbroken q s = .next u) : u.dev.kiln = s.dev.kiln := by
  cases h
  dsimp only
  split
  · simp
  · simp

theorem execNopPacket_kiln {q : Nat} (h : execNopPacket q s = .next u) : u.dev.kiln = s.dev.kiln := by
  cases h
  split
  · simp
  · rfl

theorem execLaunch_kiln {q : Nat} (h : execLaunch q s = .next u) : u.dev.kiln = s.dev.kiln := by
  cases h
  split
  · simp
  · rfl

theorem execIbcall_kiln {q : Nat} (h : execIbcall q s = .next u) : u.dev.kiln = s.dev.kiln := by
  cases h
  split
  · exact kiln_ite (by simp) (by simp)
  · rfl

theorem Device.halted_kiln (dv d : Device) (h : d.kiln = dv.kiln) (q : Nat) (r : Option Cause) (tag : Option Nat) :
    (match r with
      | some c => d.haltQueue q c tag false
      | none => d).kiln = dv.kiln := by
  cases r
  · exact h
  · exact (Device.haltQueue_kiln ..).trans h

theorem execSignal_kiln {q : Nat} (h : execSignal q s = .next u) : u.dev.kiln = s.dev.kiln := by
  cases h
  split
  · rw [State.afterStart_kiln]
    exact Device.halted_kiln _ _ (by simp) ..
  · rfl

theorem execWaitv_kiln {q : Nat} (h : execWaitv q s = .next u) : u.dev.kiln = s.dev.kiln := by
  cases h
  split
  · simp
  · split
    · rw [State.waitvCheck_kiln]
      dsimp only
      split <;> simp
    · rfl

theorem execCopy_kiln {q : Nat} (h : execCopy q s = .next u) : u.dev.kiln = s.dev.kiln := by
  cases h
  split
  · rw [State.afterStart_kiln]
    exact Device.halted_kiln _ _ (by simp) ..
  · rfl

theorem execRefine_kiln {q : Nat} (h : execRefine q s = .next u) : u.dev.kiln = s.dev.kiln := by
  cases h
  split
  · simp
  · rfl

theorem execPreemptPacket_kiln {q : Nat} (h : execPreemptPacket q s = .next u) : u.dev.kiln = s.dev.kiln := by
  cases h
  split
  · simp
  · rfl

theorem execResume_kiln {q : Nat} (h : execResume q s = .next u) : u.dev.kiln = s.dev.kiln := by
  cases h
  split
  · simp
  · rfl

theorem execLichen_kiln {q : Nat} (h : execLichen q s = .next u) : u.dev.kiln = s.dev.kiln := by
  cases h
  split
  · simp
  · rfl

theorem execMapsync_kiln {q : Nat} (h : execMapsync q s = .next u) : u.dev.kiln = s.dev.kiln := by
  cases h
  split
  · simp
  · rfl

theorem execInjctlWrite_kiln {req : Requester} {r : Nat} {v : DWord} (h : execInjctlWrite req r v s = .next u) :
    u.dev.kiln = s.dev.kiln := by
  cases req <;> cases h <;> simp

theorem execRreset_kiln {req : Requester} {v : DWord} (h : execRreset req v s = .next u) : u.dev.kiln = s.dev.kiln := by
  cases req <;> cases h
  · exact kiln_ite (by simp) rfl
  · rfl
  · rfl

theorem execWaferidWrite_kiln {req : Requester} {v : DWord} (h : execWaferidWrite req v s = .next u) : u.dev.kiln = s.dev.kiln := by
  cases req <;> cases h <;> simp

theorem execDevrst_fuses {req : Requester} {v : DWord} (h : execDevrst req v s = .next u) : u.dev.kiln.fuses = s.dev.kiln.fuses := by
  cases req <;> cases h
  · exact fuses_ite (by simp) (fuses_ite (by simp) rfl)
  · rfl
  · rfl

theorem execRegisterWrite_fuses {req : Requester} {addr : Nat} {v : DWord} (h : execRegisterWrite req addr v s = .next u) :
    u.dev.kiln.fuses = s.dev.kiln.fuses := by
  cases req <;> cases h
  · exact fuses_ite (by simp) rfl
  · exact fuses_ite (by simp) rfl
  · rfl

theorem execMgmtKattest_grows (h : execMgmtKattest s = .next u) : s.dev.kiln.Grows u.dev.kiln := by
  cases h
  rw [State.withDev_kiln]
  split
  · exact s.dev.attest_grows 4 _
  · exact .of_eq rfl

theorem execPowerRemoval_fuses (h : execPowerRemoval s = .next u) : u.dev.kiln.fuses = s.dev.kiln.fuses := by
  cases h
  exact fuses_ite (by simp) rfl

theorem execCoolantFlowShutdown_fuses (h : execCoolantFlowShutdown s = .next u) : u.dev.kiln.fuses = s.dev.kiln.fuses := by
  cases h
  exact fuses_ite (by simp) rfl

theorem execDamperStep_kiln (h : execDamperStep s = .next u) : u.dev.kiln = s.dev.kiln := by
  cases h
  exact kiln_ite (by simp) rfl

theorem execVoltageWarning_kiln (h : execVoltageWarning s = .next u) : u.dev.kiln = s.dev.kiln := by
  cases h
  exact kiln_ite (by simp) rfl

theorem onMgmt_fuses {f : State → State} (hf : (f s).dev.kiln.fuses = s.dev.kiln.fuses) (h : s.onMgmt f = .next u) :
    u.dev.kiln.fuses = s.dev.kiln.fuses := by
  cases h
  exact fuses_ite hf rfl

end

theorem runDue_grows {e : Due} {s u : State} (h : runDue e s = .next u) : s.dev.kiln.Grows u.dev.kiln := by
  cases e
  case engineFire => exact .of_eq (execEngineFire_kiln h)
  case linkResend => exact .of_eq (execLinkResend_kiln h)
  case linkDown => exact .of_eq (execLinkDown_kiln h)
  case trapRecordRelease => exact .of_eq (execTrapRecordRelease_kiln h)
  case tileStart => exact .of_eq (execTileStart_kiln h)
  case hearthStop => exact .of_eq (execHearthStop_kiln h)
  case qbroken => exact .of_eq (execQbroken_kiln h)
  case nopPacket => exact .of_eq (execNopPacket_kiln h)
  case launch => exact .of_eq (execLaunch_kiln h)
  case ibcall => exact .of_eq (execIbcall_kiln h)
  case signal => exact .of_eq (execSignal_kiln h)
  case waitv => exact .of_eq (execWaitv_kiln h)
  case copy => exact .of_eq (execCopy_kiln h)
  case refine => exact .of_eq (execRefine_kiln h)
  case preemptPacket => exact .of_eq (execPreemptPacket_kiln h)
  case resume => exact .of_eq (execResume_kiln h)
  case lichen => exact .of_eq (execLichen_kiln h)
  case mapsync => exact .of_eq (execMapsync_kiln h)
  case injctlWrite => exact .of_eq (execInjctlWrite_kiln h)
  case rreset => exact .of_eq (execRreset_kiln h)
  case waferidWrite => exact .of_eq (execWaferidWrite_kiln h)
  case damperStep => exact .of_eq (execDamperStep_kiln h)
  case voltageWarning => exact .of_eq (execVoltageWarning_kiln h)
  case devrst => exact .of_fuses (execDevrst_fuses h)
  case registerWrite => exact .of_fuses (execRegisterWrite_fuses h)
  case powerRemoval => exact .of_fuses (execPowerRemoval_fuses h)
  case coolantFlowShutdown => exact .of_fuses (execCoolantFlowShutdown_fuses h)
  case kattest p => cases h; exact s.dev.kattest_grows p
  case mgmtKattest => exact execMgmtKattest_grows h
  case kcfg p => cases h; exact s.dev.kcfg_grows p
  case kcommit p => cases h; exact s.dev.kcommit_grows p
  case entdaa | setdasa =>
    cases h
    exact .of_fuses (fuses_ite (fuses_ite (by simp) (by simp)) rfl)
  case unsupportedCcc =>
    cases h
    exact .of_fuses (fuses_ite (fuses_ite rfl (by simp)) rfl)
  case i3cPrivateWrite | i3cPrivateRead | rstdaa | enec | disec | getpid | getbcr | getdcr | getstatus | getmwl | getmrl =>
    cases h
    exact .of_fuses (fuses_ite (by simp) rfl)
  case preemptStop c =>
    rw [runDue] at h
    split at h
    · cases h
      exact .of_eq rfl
    · cases h
      exact .of_eq (State.preemptStop_kiln ..)
  all_goals
    cases h
    exact .of_fuses (by simp)

theorem State.turn_kiln (s : State) : s.turn.dev.kiln = s.dev.kiln := by
  unfold State.turn
  split
  · rfl
  · obtain ⟨a, ha⟩ : ∃ a, a = State.countInjected { s with core := s.core.progressSends } := ⟨_, rfl⟩
    have hk : a.dev.kiln = s.dev.kiln := by rw [ha, State.countInjected_kiln]
    dsimp only
    rw [← ha, ← hk]
    split
    · exact kiln_ite rfl (by simp)
    · exact kiln_ite rfl (by simp)

theorem exec_slot_kiln {i : Instr} {h : Hdr} (hi : i.hdr = some h) {s u : State} (he : exec i s = .next u) : u.dev.kiln = s.dev.kiln := by
  obtain ⟨sem, hexec, -, -⟩ := runsAsSlot hi
  rw [hexec, runSlot] at he
  cases he
  rw [State.flush_kiln, State.noteEnd_kiln]

theorem issued_slot_kiln {i : Instr} {h : Hdr} (hi : i.hdr = some h) {s u : State} (he : issued i s = .next u) :
    u.dev.kiln = s.dev.kiln := by
  obtain ⟨v, hv, hturn⟩ := issued_turn i s
  rw [hturn] at he
  cases he
  rw [State.turn_kiln, exec_slot_kiln hi hv]

theorem issued_invalid_kiln {c : Cause} {k : BitVec 3} {s u : State} (he : issued (.invalidBundle c k) s = .next u) :
    u.dev.kiln = s.dev.kiln := by
  cases he
  rw [State.turn_kiln, State.flush_kiln]

/-- The scan of a bundle decodes slots. -/
theorem Tile.scan_slots (t : Tile) (fuel k : Nat) (b : Bool) {l : List Instr} (h : t.scan fuel k b = .ok l) {i : Instr} (hi : i ∈ l) :
    ∃ hd, i.hdr = some hd := by
  induction fuel generalizing k b l with
  | zero => cases h
  | succ n ih =>
    cases b with
    | true => exact ih (k + 1) false h hi
    | false =>
      rw [Tile.scan] at h
      dsimp only at h
      obtain ⟨y, hy⟩ : ∃ y, y = (if slotLast (t.pad.code.word (t.sch.pc.toNat + 4 * k)) || !acceptsY (t.pad.code.word (t.sch.pc.toNat + 4 * k))
        || n == 0 then none else t.yAfter (t.sch.pc.toNat + 4 * k)) := ⟨_, rfl⟩
      have hacc : (y.map yImm).isSome = true → acceptsY (t.pad.code.word (t.sch.pc.toNat + 4 * k)) = true := fun hs => by
        by_contra hn
        rw [Bool.not_eq_true] at hn
        simp [hy, hn] at hs
      rw [← hy] at h
      cases y <;> dsimp only at h
      all_goals
        split at h
        · cases h
        · split at h
          · cases h
          · split at h
            · cases h
            · split at h
              · cases h
              next j hj =>
                have hslot := (reads_of_decodeSlot hacc hj).hdr
                split at h
                · cases h
                · split at h
                  · cases h
                    exact ⟨_, List.mem_singleton.mp hi ▸ hslot⟩
                  · split at h
                    next l' hl =>
                      cases h
                      cases hi with
                      | head => exact ⟨_, hslot⟩
                      | tail _ hm => exact ih _ _ hl hm
                    · cases h

theorem Bundle.next_slot {b : Bundle} {i : Instr} (h : b.next = some i) : ∃ hd, i.hdr = some hd := by
  unfold Bundle.next at h
  split at h
  next i' l hl =>
    cases h
    exact Tile.scan_slots _ _ _ _ hl List.mem_cons_self
  next => cases h

theorem Tile.fetchBundle_slots {t : Tile} {l : List Instr} (h : t.fetchBundle = .ok l) {i : Instr} (hi : i ∈ l) :
    ∃ hd, i.hdr = some hd := by
  unfold Tile.fetchBundle at h
  split at h
  · cases h
  next l' hl =>
    split at h
    · cases h
      exact Tile.scan_slots _ _ _ _ hl hi
    · cases h

theorem issueBundle_kiln {s u : State} (h : issueBundle s = .next u) : u.dev.kiln = s.dev.kiln := by
  unfold issueBundle at h
  split at h
  · cases h
    exact State.turn_kiln _
  · generalize s.core.fetchMeet = t at h
    dsimp only at h
    split at h
    · cases h
      rw [State.turn_kiln, State.flush_kiln]
    · split at h
      · exact issued_invalid_kiln (s := { s with core := t }) h
      · cases h
        rfl
      next hl =>
        obtain ⟨hd, hi⟩ := Tile.fetchBundle_slots hl List.mem_cons_self
        exact issued_slot_kiln hi (s := { s with core := t }) h
      next hl =>
        obtain ⟨hd, hi⟩ := Tile.fetchBundle_slots hl List.mem_cons_self
        exact issued_slot_kiln hi (s := { s with core := t, bundle := some ⟨t, 0, none, none, none⟩ }) h

theorem step_grows {s u : State} (h : step s = .next u) : s.dev.kiln.Grows u.dev.kiln := by
  unfold step at h
  split at h
  next e rest _ => exact runDue_grows (s := { s with agenda := rest }) h
  · split at h
    · cases h
    · split at h
      · split at h
        next i hi =>
          obtain ⟨hd, hslot⟩ := Bundle.next_slot hi
          exact .of_eq (issued_slot_kiln hslot h)
        next =>
          cases h
          exact .of_eq rfl
      · split at h
        · exact runDue_grows h
        · split at h
          · exact .of_eq (issueBundle_kiln h)
          · cases h
            exact .of_eq (State.turn_kiln _)

/-- Settles O9: by the step that runs, of the device, a slot or a bundle, with one rule for each function of what it leaves of the Kiln. -/
theorem kilnCountersNeverFall : Obligations.KilnCountersNeverFall :=
  fun _ _ h => step_grows h

end Sys2Proof.Machine
end

section
/-! SUPPORT. Rounding to a grid (R171, R182): what `roundAt` leaves of a magnitude, which numbers stand near it on a grid, and that the
mode picks the one that `roundAt` finds. -/

namespace Sys2Proof.Machine

/-- The magnitude that a significand, an exponent and a sticky bit stand for. -/
structure Stands (m : ℕ) (e : ℤ) (sticky : Bool) (a : ℚ) : Prop where
  least : m * 2 ^ e ≤ a
  below : a < (m + 1) * 2 ^ e
  exact : sticky = false ↔ a = m * 2 ^ e

theorem stands_exact (m : ℕ) (e : ℤ) : Stands m e false (m * 2 ^ e) :=
  ⟨le_rfl, mul_lt_mul_of_pos_right (lt_add_one _) (by positivity), iff_of_true rfl rfl⟩

/-- A magnitude lies between two neighbours of a quantum, and is the lesser, above their middle or at it, as three bits say. -/
structure Between (a : ℚ) (f : ℕ) (q : ℤ) (exact above half : Bool) : Prop where
  least : f * 2 ^ q ≤ a
  below : a < (f + 1) * 2 ^ q
  exact : exact = true ↔ a = f * 2 ^ q
  above : above = true ↔ (f + 1 / 2) * 2 ^ q < a
  half : half = true ↔ a = (f + 1 / 2) * 2 ^ q

theorem zpow_toNat_mul {e q : ℤ} (h : e ≤ q) : (2 : ℚ) ^ q = 2 ^ (q - e).toNat * 2 ^ e := by
  rw [← zpow_natCast, ← zpow_add₀ two_ne_zero]
  congr 1
  omega

/-- A significand's part above a quantum, and what is left of it, against half of the quantum. -/
theorem between_shifted {m : ℕ} {e q : ℤ} {sticky : Bool} {a : ℚ} (h : Stands m e sticky a) (hq : e < q) :
    Between a (m / 2 ^ (q - e).toNat) q (m % 2 ^ (q - e).toNat == 0 && !sticky)
      (decide (m % 2 ^ (q - e).toNat > 2 ^ ((q - e).toNat - 1)) || (m % 2 ^ (q - e).toNat == 2 ^ ((q - e).toNat - 1) && sticky))
      (m % 2 ^ (q - e).toNat == 2 ^ ((q - e).toNat - 1) && !sticky) := by
  obtain ⟨k, hk⟩ : ∃ k, (q - e).toNat = k + 1 := ⟨(q - e).toNat - 1, by omega⟩
  have hz : (2 : ℚ) ^ q = 2 * 2 ^ k * 2 ^ e := by rw [zpow_toNat_mul hq.le, hk, pow_succ']
  rw [hk, Nat.add_sub_cancel]
  obtain ⟨n, r, hr, hm⟩ : ∃ n r, r < 2 ^ (k + 1) ∧ m = 2 ^ (k + 1) * n + r :=
    ⟨_, _, Nat.mod_lt _ (by positivity), (Nat.div_add_mod m _).symm⟩
  have hdiv : m / 2 ^ (k + 1) = n := by rw [hm, Nat.mul_add_div (by positivity), Nat.div_eq_of_lt hr, Nat.add_zero]
  have hmod : m % 2 ^ (k + 1) = r := by rw [hm, Nat.mul_add_mod, Nat.mod_eq_of_lt hr]
  rw [hdiv, hmod]
  have hpos : (0 : ℚ) < 2 ^ e := by positivity
  obtain ⟨d, hd⟩ : ∃ d, a = (m + d) * 2 ^ e := ⟨a / 2 ^ e - m, by field_simp; ring⟩
  have hd0 : 0 ≤ d := by
    have := h.least
    rw [hd, mul_le_mul_iff_of_pos_right hpos] at this
    linarith
  have hd1 : d < 1 := by
    have := h.below
    rw [hd, mul_lt_mul_iff_of_pos_right hpos] at this
    linarith
  have hst : sticky = false ↔ d = 0 := by
    rw [h.exact, hd, mul_left_inj' hpos.ne']
    constructor <;> intro h <;> linarith
  have hmq : (m : ℚ) = 2 * 2 ^ k * n + r := by
    rw [hm]
    push_cast
    ring
  have hrq : (r : ℚ) + 1 ≤ 2 * 2 ^ k := by exact_mod_cast (pow_succ' 2 k ▸ hr : r < 2 * 2 ^ k)
  have hreal (c : ℚ) : c * 2 ^ q = (2 * 2 ^ k * c) * 2 ^ e := by rw [hz]; ring
  have hhalf : ((2 ^ k : ℕ) : ℚ) = 2 ^ k := by push_cast; rfl
  have hr0 : (0 : ℚ) ≤ r := Nat.cast_nonneg r
  have hst1 : sticky = true ↔ 0 < d := by
    rw [← Bool.not_eq_false, hst, hd0.lt_iff_ne']
  have hlow : r < 2 ^ k → (r : ℚ) + 1 ≤ 2 ^ k := fun h => by exact_mod_cast h
  have hhigh : 2 ^ k < r → (2 ^ k : ℚ) + 1 ≤ r := fun h => by exact_mod_cast h
  have hat : r = 2 ^ k → (r : ℚ) = 2 ^ k := fun h => by exact_mod_cast h
  constructor
  · rw [hreal, hd, mul_le_mul_iff_of_pos_right hpos]
    linarith
  · rw [hreal, hd, mul_lt_mul_iff_of_pos_right hpos]
    linarith
  · rw [hreal, hd, mul_left_inj' hpos.ne', Bool.and_eq_true, Bool.not_eq_true', hst, beq_iff_eq]
    refine ⟨fun ⟨hr, hd⟩ => by rw [hmq, hd, hr]; simp, fun h => ?_⟩
    have hrz : (r : ℚ) = 0 := by linarith
    exact ⟨by exact_mod_cast hrz, by linarith⟩
  · rw [hreal, hd, mul_lt_mul_iff_of_pos_right hpos, Bool.or_eq_true, decide_eq_true_eq, Bool.and_eq_true, beq_iff_eq, hst1]
    rcases lt_trichotomy r (2 ^ k) with h | h | h
    · have := hlow h
      exact iff_of_false (by omega) (by linarith)
    · have := hat h
      exact ⟨fun hx => by linarith [(hx.resolve_left (by omega)).2], fun _ => .inr ⟨h, by linarith⟩⟩
    · have := hhigh h
      exact iff_of_true (.inl h) (by linarith)
  · rw [hreal, hd, mul_left_inj' hpos.ne', Bool.and_eq_true, Bool.not_eq_true', hst, beq_iff_eq]
    rcases lt_trichotomy r (2 ^ k) with h | h | h
    · have := hlow h
      exact iff_of_false (by omega) fun h => by linarith
    · have := hat h
      exact ⟨fun ⟨_, hd⟩ => by linarith, fun _ => ⟨h, by linarith⟩⟩
    · have := hhigh h
      exact iff_of_false (by omega) fun h => by linarith

theorem between_scaled {m : ℕ} {e q : ℤ} {a : ℚ} (h : Stands m e false a) (hq : q ≤ e) :
    Between a (m * 2 ^ (e - q).toNat) q true false false := by
  have ha : a = (m * 2 ^ (e - q).toNat : ℕ) * 2 ^ q := by
    rw [h.exact.mp rfl, zpow_toNat_mul hq]
    push_cast
    ring
  have hpos : (0 : ℚ) < 2 ^ q := by positivity
  constructor
  · exact ha.ge
  · rw [ha, mul_lt_mul_iff_of_pos_right hpos]
    linarith
  · exact iff_of_true rfl ha
  · rw [ha, mul_lt_mul_iff_of_pos_right hpos]
    exact iff_of_false Bool.false_ne_true (by linarith)
  · rw [ha, mul_left_inj' hpos.ne']
    exact iff_of_false Bool.false_ne_true (by linarith)

/-- What `roundAt` leaves: the lesser neighbour, or the greater where the mode goes up. -/
theorem roundAt_between (mode : Rnd) (neg : Bool) {m : ℕ} {e q : ℤ} {sticky : Bool} {a : ℚ} (h : Stands m e sticky a)
    (hq : sticky = true → e < q) : ∃ f exact above half, Between a f q exact above half ∧
      roundAt mode neg m e sticky q = (if roundUp mode neg (f % 2 == 1) exact above half then f + 1 else f, exact) := by
  unfold roundAt
  split
  next hle =>
    cases sticky with
    | true => exact absurd (hq rfl) (by omega)
    | false => exact ⟨_, true, false, false, between_scaled h hle, by simp [roundUp]⟩
  next hlt => exact ⟨_, _, _, _, between_shifted h (by omega), rfl⟩

/-! The mode's choice between two neighbours on a grid. -/

/-- A grid's two neighbours of a magnitude, a quantum apart. -/
structure Neighbours (grid : ℚ → Prop) (a : ℚ) (f : ℕ) (q : ℤ) : Prop where
  lesser : grid (f * 2 ^ q)
  greater : grid ((f + 1) * 2 ^ q)
  apart : ∀ z, grid z → z ≤ f * 2 ^ q ∨ (f + 1) * 2 ^ q ≤ z

theorem Between.middle {a : ℚ} {f : ℕ} {q : ℤ} {exact above half : Bool} (hb : Between a f q exact above half) :
    (above = true → (f + 1) * 2 ^ q - a < a - f * 2 ^ q) ∧ (half = true → (f + 1) * 2 ^ q - a = a - f * 2 ^ q) ∧
      (above = false → half = false → a - f * 2 ^ q < (f + 1) * 2 ^ q - a) := by
  refine ⟨fun h => ?_, fun h => ?_, fun h k => ?_⟩
  · linarith [hb.above.mp h]
  · linarith [hb.half.mp h]
  · have hle : a ≤ (f + 1 / 2) * 2 ^ q := not_lt.mp fun hlt => Bool.false_ne_true (h ▸ hb.above.mpr hlt)
    have hlt := hle.lt_of_ne fun heq => Bool.false_ne_true (k ▸ hb.half.mpr heq)
    linarith

theorem even_multiple {n : ℕ} (h : n % 2 = 0) (q : ℤ) : ∃ k : ℤ, (n : ℚ) * 2 ^ q = 2 * k * 2 ^ q := by
  obtain ⟨k, rfl⟩ := Nat.dvd_of_mod_eq_zero h
  exact ⟨k, by push_cast; rfl⟩

section

variable {grid : ℚ → Prop} {a : ℚ} {f : ℕ} {q : ℤ} {exact above half : Bool} {mode : Rnd}

theorem picks_lesser (hn : Neighbours grid a f q) (hb : Between a f q exact above half)
    (hup : roundUp mode false (f % 2 == 1) exact above half = false) : mode.Picks grid a (f * 2 ^ q) := by
  have hpos : (0 : ℚ) < 2 ^ q := by positivity
  have hlow : (0 : ℚ) ≤ f * 2 ^ q := by positivity
  have hle := hb.least
  have hbelow := hb.below
  obtain ⟨habove, hhalf, hneither⟩ := hb.middle
  refine ⟨hn.lesser, ?_⟩
  cases mode with
  | rne =>
    have hnear : a - f * 2 ^ q ≤ (f + 1) * 2 ^ q - a := by
      cases exact with
      | true => linarith [hb.exact.mp rfl]
      | false =>
        cases above with
        | true => simp [roundUp] at hup
        | false =>
          cases half with
          | true => exact (hhalf rfl).ge
          | false => exact (hneither rfl rfl).le
    have hdist : |a - f * 2 ^ q| = a - f * 2 ^ q := abs_of_nonneg (by linarith)
    refine ⟨fun z hz => ?_, fun z hz hne hd => ?_⟩
    · rw [hdist]
      rcases hn.apart z hz with h | h
      · exact (by linarith : a - f * 2 ^ q ≤ a - z).trans (le_abs_self _)
      · exact (by linarith : a - f * 2 ^ q ≤ -(a - z)).trans (neg_le_abs _)
    · have hgreater : (f + 1) * 2 ^ q ≤ z := (hn.apart z hz).resolve_left fun h => hne <| by
        rw [hdist, abs_of_nonneg (by linarith)] at hd
        linarith
      rw [hdist, abs_of_nonpos (by linarith)] at hd
      have heven : f % 2 = 0 := by
        cases exact with
        | true => linarith [hb.exact.mp rfl]
        | false =>
          cases half with
          | true =>
            have : (f % 2 == 1) = false := by simpa [roundUp] using (Bool.or_eq_false_iff.mp hup).2
            rw [beq_eq_false_iff_ne] at this
            omega
          | false =>
            cases above with
            | true => simp [roundUp] at hup
            | false => linarith [hneither rfl rfl]
      obtain ⟨k, hk⟩ := even_multiple heven q
      refine ⟨k, q, hk, ?_⟩
      rw [abs_of_nonneg (by linarith)]
      linarith
  | rtz =>
    refine ⟨by rw [abs_of_nonneg hlow, abs_of_nonneg (by linarith)]; exact hle, mul_nonneg (by linarith) hlow, fun z hz hza hsame => ?_⟩
    rw [abs_of_nonneg hlow]
    rw [abs_of_nonneg (hlow.trans hle)] at hza
    refine abs_le.mpr ⟨?_, ?_⟩
    · by_contra hz
      have hneg : z < 0 := by linarith
      have ha : a ≤ 0 := by
        by_contra h
        exact absurd hsame (not_le.mpr (mul_neg_of_pos_of_neg (not_le.mp h) hneg))
      linarith [neg_le_abs z]
    · exact (hn.apart z hz).resolve_right fun h => by linarith [le_abs_self z]
  | rup =>
    have hexact : a = f * 2 ^ q := hb.exact.mp (by simpa [roundUp] using hup)
    exact ⟨hexact.le, fun z _ hz => by linarith⟩
  | rdn => exact ⟨hle, fun z hz hza => (hn.apart z hz).resolve_right fun h => by linarith⟩

theorem picks_greater (hn : Neighbours grid a f q) (hb : Between a f q exact above half)
    (hup : roundUp mode false (f % 2 == 1) exact above half = true) : mode.Picks grid a ((f + 1) * 2 ^ q) := by
  have hpos : (0 : ℚ) < 2 ^ q := by positivity
  have hle := hb.least
  have hbelow := hb.below
  obtain ⟨habove, hhalf, hneither⟩ := hb.middle
  refine ⟨hn.greater, ?_⟩
  cases exact with
  | true => simp [roundUp] at hup
  | false =>
  cases mode with
  | rne =>
    have hnear : (f + 1) * 2 ^ q - a ≤ a - f * 2 ^ q := by
      cases above with
      | true => exact (habove rfl).le
      | false =>
        cases half with
        | true => exact (hhalf rfl).le
        | false => simp [roundUp] at hup
    have hdist : |a - (f + 1) * 2 ^ q| = (f + 1) * 2 ^ q - a := by rw [abs_of_nonpos (by linarith), neg_sub]
    refine ⟨fun z hz => ?_, fun z hz hne hd => ?_⟩
    · rw [hdist]
      rcases hn.apart z hz with h | h
      · exact (by linarith : (f + 1) * 2 ^ q - a ≤ a - z).trans (le_abs_self _)
      · exact (by linarith : (f + 1) * 2 ^ q - a ≤ -(a - z)).trans (neg_le_abs _)
    · have hlesser : z ≤ f * 2 ^ q := (hn.apart z hz).resolve_right fun h => hne <| by
        rw [hdist, abs_of_nonpos (by linarith)] at hd
        linarith
      rw [hdist, abs_of_nonneg (by linarith)] at hd
      have heven : (f + 1) % 2 = 0 := by
        cases above with
        | true => linarith [habove rfl]
        | false =>
          have : f % 2 = 1 := by simpa [roundUp] using (Bool.and_eq_true_iff.mp hup).2
          omega
      obtain ⟨k, hk⟩ := even_multiple heven q
      refine ⟨k, q, by rw [← hk]; push_cast; rfl, ?_⟩
      rw [abs_of_nonpos (by linarith)]
      linarith
  | rtz => simp [roundUp] at hup
  | rup => exact ⟨hbelow.le, fun z hz hza => (hn.apart z hz).resolve_left fun h => by
      have hne := mt hb.exact.mpr Bool.false_ne_true
      exact hne (le_antisymm (hza.trans h) hle)⟩
  | rdn => simp [roundUp] at hup

end

/-! A number below zero: the magnitude's grid, and the mode that rounds the other way. -/

/-- The mode that a rounding of the opposite number has. -/
def Rnd.opposite : Rnd → Rnd
  | .rup => .rdn
  | .rdn => .rup
  | r => r

theorem roundUp_opposite (mode : Rnd) (odd exact above half : Bool) :
    roundUp mode true odd exact above half = roundUp mode.opposite false odd exact above half := by
  cases mode <;> rfl

theorem picks_neg {grid : ℚ → Prop} (hg : ∀ z, grid z → grid (-z)) {mode : Rnd} {x y : ℚ} (h : mode.opposite.Picks grid x y) :
    mode.Picks grid (-x) (-y) := by
  obtain ⟨hy, h⟩ := h
  refine ⟨hg y hy, ?_⟩
  have hdist (z : ℚ) : |-x - z| = |x - -z| := by rw [← abs_neg]; congr 1; ring
  cases mode with
  | rne =>
    obtain ⟨hnear, htie⟩ := h
    refine ⟨fun z hz => ?_, fun z hz hne hd => ?_⟩
    · rw [hdist, hdist, neg_neg]
      exact hnear _ (hg z hz)
    · rw [hdist, hdist, neg_neg] at hd
      obtain ⟨k, q, hk, hz'⟩ := htie _ (hg z hz) (fun h => hne (by rw [← h, neg_neg])) hd
      refine ⟨-k, q, by rw [hk]; push_cast; ring, ?_⟩
      rw [← hz', ← abs_neg]
      congr 1
      ring
  | rtz =>
    obtain ⟨hle, hsame, hmost⟩ := h
    refine ⟨by rwa [abs_neg, abs_neg], by rwa [neg_mul_neg], fun z hz hza hz0 => ?_⟩
    rw [abs_neg] at hza ⊢
    rw [← abs_neg z] at hza ⊢
    exact hmost _ (hg z hz) hza (by rwa [mul_neg, ← neg_mul])
  | rup =>
    obtain ⟨hle, hmost⟩ := h
    exact ⟨neg_le_neg hle, fun z hz hza => neg_le.mp (hmost _ (hg z hz) (neg_le.mp hza) |> fun h => by linarith)⟩
  | rdn =>
    obtain ⟨hle, hmost⟩ := h
    exact ⟨neg_le_neg hle, fun z hz hza => by linarith [hmost _ (hg z hz) (by linarith)]⟩

/-- A number of a sign and a magnitude. -/
def signed (neg : Bool) (a : ℚ) : ℚ := if neg then -a else a

theorem picks_signed {grid : ℚ → Prop} (hg : ∀ z, grid z → grid (-z)) {a : ℚ} {f : ℕ} {q : ℤ} {exact above half : Bool}
    (hn : Neighbours grid a f q) (hb : Between a f q exact above half) (mode : Rnd) (neg : Bool) :
    mode.Picks grid (signed neg a)
      (signed neg ((if roundUp mode neg (f % 2 == 1) exact above half then f + 1 else f : ℕ) * 2 ^ q)) := by
  have hpos (mode : Rnd) : mode.Picks grid a ((if roundUp mode false (f % 2 == 1) exact above half then f + 1 else f : ℕ) * 2 ^ q) := by
    split
    next h =>
      push_cast
      exact picks_greater hn hb h
    next h => exact picks_lesser hn hb (Bool.not_eq_true _ ▸ h)
  cases neg with
  | false => exact hpos mode
  | true =>
    rw [roundUp_opposite]
    exact picks_neg hg (hpos _)

/-! The numbers of a precision. -/

theorem onGrid_neg {p : ℕ} {least : Option ℤ} {z : ℚ} (h : OnGrid p least z) : OnGrid p least (-z) := by
  obtain ⟨n, q, hn, hq, rfl⟩ := h
  exact ⟨-n, q, by rwa [Int.natAbs_neg], hq, by push_cast; ring⟩

theorem onGrid_of_le {p : ℕ} (hp : 1 ≤ p) {least : Option ℤ} {n : ℕ} {q : ℤ} (hn : n ≤ 2 ^ p) (hq : ∀ k ∈ least, k ≤ q) :
    OnGrid p least (n * 2 ^ q) := by
  rcases hn.lt_or_eq with h | h
  · exact ⟨n, q, h, hq, by push_cast; rfl⟩
  · refine ⟨1, q + p, Nat.one_lt_two_pow (by omega), fun k hk => (hq k hk).trans (by omega), ?_⟩
    rw [h, zpow_add₀ two_ne_zero, zpow_natCast]
    push_cast
    ring

/-- The quantum of a magnitude of some binade: its last place at a precision, or a least quantum. -/
structure Quantum (p : ℕ) (least : Option ℤ) (top q : ℤ) : Prop where
  floor : ∀ k ∈ least, k ≤ q
  place : top - p + 1 ≤ q
  tight : q = top - p + 1 ∨ least = some q

theorem Quantum.neighbours {p : ℕ} (hp : 1 ≤ p) {least : Option ℤ} {top q : ℤ} (h : Quantum p least top q) {a : ℚ} {f : ℕ}
    (htop : 2 ^ top ≤ a) (hbelow : a < 2 ^ (top + 1)) (hf : f * 2 ^ q ≤ a) (hf1 : a < (f + 1) * 2 ^ q) :
    Neighbours (OnGrid p least) a f q := by
  have hpos : (0 : ℚ) < 2 ^ q := by positivity
  have hfp : f < 2 ^ p := by
    have hmost : (2 : ℚ) ^ (top + 1) ≤ 2 ^ p * 2 ^ q := by
      rw [← zpow_natCast, ← zpow_add₀ two_ne_zero]
      exact zpow_le_zpow_right₀ one_le_two (by linarith [h.place])
    have : (f : ℚ) < 2 ^ p := lt_of_mul_lt_mul_right (hf.trans_lt (hbelow.trans_le hmost)) hpos.le
    exact_mod_cast this
  refine ⟨onGrid_of_le hp hfp.le h.floor, ?_, ?_⟩
  · have := onGrid_of_le hp (n := f + 1) (by omega) h.floor
    rwa [Nat.cast_add, Nat.cast_one] at this
  rintro z ⟨n, r, hn, hr, rfl⟩
  rcases le_or_gt q r with hle | hlt
  · obtain ⟨N, hN⟩ : ∃ N : ℤ, (n : ℚ) * 2 ^ r = N * 2 ^ q := ⟨n * 2 ^ (r - q).toNat, by
      rw [zpow_toNat_mul hle]
      push_cast
      ring⟩
    rw [hN]
    rcases le_or_gt N f with hc | hc
    · left
      exact mul_le_mul_of_nonneg_right (by exact_mod_cast hc) hpos.le
    · right
      have : (f : ℤ) + 1 ≤ N := hc
      exact mul_le_mul_of_nonneg_right (by exact_mod_cast this) hpos.le
  · left
    have hq : q = top - p + 1 := h.tight.resolve_right fun hs => absurd (hr q hs) (by omega)
    have hz : (n : ℚ) * 2 ^ r ≤ 2 ^ top := by
      have hnp : (n : ℚ) ≤ 2 ^ p := by
        have : n ≤ 2 ^ p := by
          have := n.le_natAbs
          have h2 : (n.natAbs : ℤ) < 2 ^ p := by exact_mod_cast hn
          omega
        exact_mod_cast this
      calc (n : ℚ) * 2 ^ r ≤ 2 ^ p * 2 ^ r := mul_le_mul_of_nonneg_right hnp (by positivity)
        _ = 2 ^ (p + r) := by rw [zpow_add₀ two_ne_zero, zpow_natCast]
        _ ≤ 2 ^ top := zpow_le_zpow_right₀ one_le_two (by omega)
    have hbinade : (2 : ℚ) ^ top = 2 ^ (p - 1) * 2 ^ q := by
      rw [← zpow_natCast, ← zpow_add₀ two_ne_zero]
      congr 1
      omega
    have hfbig : 2 ^ (p - 1) < f + 1 := by
      have : ((2 ^ (p - 1) : ℕ) : ℚ) < f + 1 := by
        push_cast
        exact lt_of_mul_lt_mul_right (hbinade ▸ htop.trans_lt hf1) hpos.le
      exact_mod_cast this
    refine hz.trans (hbinade ▸ mul_le_mul_of_nonneg_right ?_ hpos.le)
    exact_mod_cast Nat.lt_succ_iff.mp hfbig

/-- `roundAt` finds the number that the mode picks from those of a precision, and says whether it is the exact one. -/
theorem roundAt_picks {p : ℕ} (hp : 1 ≤ p) {least : Option ℤ} {top q : ℤ} (hq : Quantum p least top q) {m : ℕ} {e : ℤ} {sticky : Bool}
    {a : ℚ} (h : Stands m e sticky a) (hs : sticky = true → e < q) (htop : 2 ^ top ≤ a) (hbelow : a < 2 ^ (top + 1)) (mode : Rnd) (neg : Bool) :
    mode.Picks (OnGrid p least) (signed neg a) (signed neg ((roundAt mode neg m e sticky q).1 * 2 ^ q)) ∧
      ((roundAt mode neg m e sticky q).2 = true ↔ (roundAt mode neg m e sticky q).1 * 2 ^ q = a) := by
  obtain ⟨f, exact, above, half, hb, hr⟩ := roundAt_between mode neg h hs
  rw [hr]
  refine ⟨picks_signed (fun z (hz : OnGrid p least z) => onGrid_neg hz) (hq.neighbours hp htop hbelow hb.least hb.below) hb mode neg, ?_⟩
  cases exact with
  | true => exact iff_of_true rfl (by simpa [roundUp] using (hb.exact.mp rfl).symm)
  | false =>
    have hne := mt hb.exact.mpr Bool.false_ne_true
    refine iff_of_false Bool.false_ne_true ?_
    split
    · push_cast
      exact hb.below.ne'
    · exact fun h => hne h.symm

end Sys2Proof.Machine
end

section
/-! SUPPORT. The words of a format (R169), and a magnitude rounded once to a word of it (R171, R182). -/

namespace Sys2Proof.Machine

/-- The parts of a format fit each other: its precision has one bit more than its fraction, and its largest exponent is that of its
greatest exponent field but one. -/
structure FFmt.Fits (f : FFmt) : Prop where
  prec : f.p = f.fw + 1
  fraction : 1 ≤ f.fw
  exponent : 2 ≤ f.ew
  largest : f.qmin + 2 ^ f.ew + f.fw = f.emax + 3

theorem fits_f32 : f32.Fits := by constructor <;> decide

theorem fits_f64 : f64.Fits := by constructor <;> decide

theorem fits_bf16 : bf16.Fits := by constructor <;> decide

section

variable {f : FFmt} (neg : Bool) {E M : ℕ}

/-- A word of a format from its sign, its exponent field and its fraction. -/
def FFmt.word (f : FFmt) (neg : Bool) (E M : ℕ) : ℕ := b2n neg * 2 ^ (f.ew + f.fw) + E * 2 ^ f.fw + M

theorem word_low_lt (hE : E < 2 ^ f.ew) (hM : M < 2 ^ f.fw) : E * 2 ^ f.fw + M < 2 ^ (f.ew + f.fw) := by
  rw [pow_add]
  calc E * 2 ^ f.fw + M < E * 2 ^ f.fw + 2 ^ f.fw := by omega
    _ = (E + 1) * 2 ^ f.fw := by ring
    _ ≤ 2 ^ f.ew * 2 ^ f.fw := Nat.mul_le_mul_right _ hE

theorem bitOf_word (hE : E < 2 ^ f.ew) (hM : M < 2 ^ f.fw) : bitOf (f.word neg E M) (f.ew + f.fw) = neg := by
  rw [bitOf, FFmt.word, add_assoc, Nat.mul_comm (b2n neg), Nat.mul_add_div (by positivity), Nat.div_eq_of_lt (word_low_lt hE hM)]
  cases neg <;> rfl

theorem bitsOf_word_exponent (hE : E < 2 ^ f.ew) (hM : M < 2 ^ f.fw) : bitsOf (f.word neg E M) f.fw f.ew = E := by
  have hword : f.word neg E M = 2 ^ f.fw * (2 ^ f.ew * b2n neg + E) + M := by
    rw [FFmt.word, pow_add]
    ring
  rw [bitsOf, hword, Nat.mul_add_div (by positivity), Nat.div_eq_of_lt hM, Nat.add_zero, Nat.mul_add_mod, Nat.mod_eq_of_lt hE]

theorem bitsOf_word_fraction (hM : M < 2 ^ f.fw) : bitsOf (f.word neg E M) 0 f.fw = M := by
  have hword : f.word neg E M = 2 ^ f.fw * (2 ^ f.ew * b2n neg + E) + M := by
    rw [FFmt.word, pow_add]
    ring
  rw [bitsOf, hword, pow_zero, Nat.div_one, Nat.mul_add_mod, Nat.mod_eq_of_lt hM]

theorem unpack_zeroBits (hf : f.Fits) : f.unpack (f.zeroBits neg) = .zero neg := by
  have hz : f.zeroBits neg = f.word neg 0 0 := by simp [FFmt.zeroBits, FFmt.word]
  have he : (0 : ℕ) ≠ 2 ^ f.ew - 1 := by
    have := Nat.one_lt_two_pow (show f.ew ≠ 0 by have := hf.exponent; omega)
    omega
  rw [FFmt.unpack, hz, bitOf_word neg (by positivity) (by positivity), bitsOf_word_exponent neg (by positivity) (by positivity),
    bitsOf_word_fraction neg (by positivity)]
  rw [if_neg he, if_pos rfl, if_pos rfl]

theorem unpack_subnormal (hf : f.Fits) (hM : M < 2 ^ f.fw) (h0 : M ≠ 0) : f.unpack (f.word neg 0 M) = .fin neg M f.qmin := by
  have he : (0 : ℕ) ≠ 2 ^ f.ew - 1 := by
    have := Nat.one_lt_two_pow (show f.ew ≠ 0 by have := hf.exponent; omega)
    omega
  rw [FFmt.unpack, bitOf_word neg (by positivity) hM, bitsOf_word_exponent neg (by positivity) hM, bitsOf_word_fraction neg hM]
  rw [if_neg he, if_pos rfl, if_neg h0]

theorem unpack_normal (hM : M < 2 ^ f.fw) (h0 : E ≠ 0) (hE : E + 1 < 2 ^ f.ew) :
    f.unpack (f.word neg E M) = .fin neg (2 ^ f.fw + M) (f.qmin + E - 1) := by
  rw [FFmt.unpack, bitOf_word neg (by omega) hM, bitsOf_word_exponent neg (by omega) hM, bitsOf_word_fraction neg hM]
  rw [if_neg (by omega), if_neg h0]

end

/-- A number of a precision with all its bits: what a carry has made one bit too many ends in a zero. -/
theorem significand_full {f : FFmt} (hf : f.Fits) {n : ℕ} (h0 : n ≠ 0) (hn : n ≤ 2 ^ f.p) (q : ℤ) :
    ∃ sig : ℕ, (if n.log2 + 1 ≤ f.p then n * 2 ^ (f.p - (n.log2 + 1)) else n / 2 ^ (n.log2 + 1 - f.p)) = sig ∧
      2 ^ f.fw ≤ sig ∧ sig < 2 * 2 ^ f.fw ∧ (sig : ℚ) * 2 ^ (q + (n.log2 + 1 : ℤ) - f.p) = n * 2 ^ q := by
  have hprec := hf.prec
  have hlow := Nat.log2_self_le h0
  have hhigh : n < 2 ^ (n.log2 + 1) := Nat.lt_log2_self
  split
  next hlen =>
    obtain ⟨k, hk⟩ : ∃ k, f.fw = n.log2 + k := ⟨f.fw - n.log2, by omega⟩
    have hsub : f.p - (n.log2 + 1) = k := by omega
    rw [hsub]
    refine ⟨_, rfl, ?_, ?_, ?_⟩
    · rw [hk, pow_add]
      exact Nat.mul_le_mul_right _ hlow
    · rw [hk, ← pow_succ', add_right_comm, pow_add]
      exact Nat.mul_lt_mul_of_pos_right hhigh (by positivity)
    · push_cast
      rw [mul_assoc, ← zpow_natCast, ← zpow_add₀ two_ne_zero]
      congr 2
      omega
  next hlen =>
    have hlog : n.log2 = f.p := by
      refine le_antisymm ?_ (by omega)
      exact (Nat.pow_le_pow_iff_right (by decide)).mp (hlow.trans hn)
    have hpow : n = 2 ^ f.p := le_antisymm hn (hlog ▸ hlow)
    have hhalf : n / 2 ^ (n.log2 + 1 - f.p) = 2 ^ f.fw := by
      rw [hlog, Nat.add_sub_cancel_left, pow_one, hpow, hprec, pow_succ, Nat.mul_div_cancel _ (by decide)]
    refine ⟨_, hhalf, le_rfl, by have := Nat.two_pow_pos f.fw; omega, ?_⟩
    rw [hlog, hpow]
    push_cast
    rw [← zpow_natCast, ← zpow_natCast, ← zpow_add₀ two_ne_zero, ← zpow_add₀ two_ne_zero]
    congr 1
    omega

/-- The words of a format hold a number of its precision that is no finer than its least quantum and that does not overflow. -/
theorem unpack_pack {f : FFmt} (hf : f.Fits) (neg : Bool) {n : ℕ} {q : ℤ} (h0 : n ≠ 0) (hq : f.qmin ≤ q) (hn : n ≤ 2 ^ f.p)
    (hmost : q + (Nat.log2 n : ℤ) ≤ f.emax) : ∃ (m : ℕ) (e : ℤ), f.unpack (f.pack neg n q) = .fin neg m e ∧ (m : ℚ) * 2 ^ e = n * 2 ^ q := by
  have hlarge := hf.largest
  have hprec := hf.prec
  obtain ⟨k, hk⟩ : ∃ k : ℕ, q = f.qmin + k := ⟨(q - f.qmin).toNat, by omega⟩
  have hkq : (q - f.qmin).toNat = k := by omega
  have hlow := Nat.log2_self_le h0
  have hhigh : n < 2 ^ (n.log2 + 1) := Nat.lt_log2_self
  have hew : (4 : ℕ) ≤ 2 ^ f.ew := Nat.pow_le_pow_right (n := 2) (by decide) hf.exponent
  have hewz : ((2 ^ f.ew : ℕ) : ℤ) = 2 ^ f.ew := by push_cast; rfl
  unfold FFmt.pack
  dsimp only
  rw [hkq]
  split
  next hlen =>
    have hval : n * 2 ^ k < 2 * 2 ^ f.fw := by
      rw [← pow_succ', ← hprec]
      calc n * 2 ^ k < 2 ^ (n.log2 + 1) * 2 ^ k := Nat.mul_lt_mul_of_pos_right hhigh (by positivity)
        _ = 2 ^ (k + (n.log2 + 1)) := by rw [← pow_add]; congr 1; omega
        _ ≤ 2 ^ f.p := Nat.pow_le_pow_right (by decide) hlen
    have hne : n * 2 ^ k ≠ 0 := by positivity
    rcases lt_or_ge (n * 2 ^ k) (2 ^ f.fw) with hsub | hnorm
    · refine ⟨n * 2 ^ k, f.qmin, ?_, ?_⟩
      · rw [← unpack_subnormal neg hf hsub hne]
        simp [FFmt.word]
      · rw [hk, zpow_add₀ two_ne_zero, zpow_natCast]
        push_cast
        ring
    · refine ⟨n * 2 ^ k, f.qmin, ?_, ?_⟩
      · have hfrac : n * 2 ^ k - 2 ^ f.fw < 2 ^ f.fw := by omega
        have := unpack_normal (f := f) neg hfrac one_ne_zero (by omega)
        rw [Nat.add_sub_cancel' hnorm, Nat.cast_one, add_sub_cancel_right] at this
        rw [← this, FFmt.word, one_mul, add_assoc, Nat.add_sub_cancel' hnorm]
      · rw [hk, zpow_add₀ two_ne_zero, zpow_natCast]
        push_cast
        ring
  next hlen =>
    obtain ⟨sig, hsig, hge, hlt, hval⟩ := significand_full hf h0 hn q
    rw [hsig]
    have hfrac : sig - 2 ^ f.fw < 2 ^ f.fw := by omega
    have hE : k + (n.log2 + 1) - f.p + 1 + 1 < 2 ^ f.ew := by omega
    refine ⟨sig, q + (n.log2 + 1 : ℤ) - f.p, ?_, hval⟩
    have := unpack_normal (f := f) neg hfrac (Nat.succ_ne_zero (k + (n.log2 + 1) - f.p)) hE
    rw [Nat.add_sub_cancel' hge] at this
    rw [← FFmt.word, this]
    congr 1
    omega

end Sys2Proof.Machine
end

section
/-! SUPPORT. A magnitude rounded once to a word of a format (R171, R182). -/

namespace Sys2Proof.Machine

section

variable {mode : Rnd} {neg : Bool} {m : ℕ} {e q : ℤ} {sticky : Bool} {a : ℚ}

theorem Stands.pos (h : Stands m e sticky a) (hm : m ≠ 0) : 0 < a :=
  lt_of_lt_of_le (by positivity) h.least

theorem Stands.binade (h : Stands m e sticky a) (hm : m ≠ 0) : 2 ^ (e + (Nat.log2 m : ℤ)) ≤ a ∧ a < 2 ^ (e + (Nat.log2 m : ℤ) + 1) := by
  constructor
  · refine le_trans ?_ h.least
    rw [add_comm, zpow_add₀ two_ne_zero, zpow_natCast]
    exact mul_le_mul_of_nonneg_right (by exact_mod_cast Nat.log2_self_le hm) (by positivity)
  · refine h.below.trans_le ?_
    have hpow : (2 : ℚ) ^ (e + (Nat.log2 m : ℤ) + 1) = 2 ^ (m.log2 + 1) * 2 ^ e := by
      rw [← zpow_natCast, ← zpow_add₀ two_ne_zero]
      congr 1
      push_cast
      ring
    rw [hpow]
    have hlt : m < 2 ^ (m.log2 + 1) := Nat.lt_log2_self
    exact mul_le_mul_of_nonneg_right (by exact_mod_cast hlt) (by positivity)

/-- `roundAt` keeps the order of the multiples of its quantum. -/
theorem le_roundAt (h : Stands m e sticky a) (hs : sticky = true → e < q) {n : ℕ} (hn : n * 2 ^ q ≤ a) :
    n ≤ (roundAt mode neg m e sticky q).1 := by
  obtain ⟨f, exact, above, half, hb, hr⟩ := roundAt_between mode neg h hs
  have hpos : (0 : ℚ) < 2 ^ q := by positivity
  have hnf : n < f + 1 := by
    have := lt_of_mul_lt_mul_right (hn.trans_lt hb.below) hpos.le
    exact_mod_cast this
  rw [hr]
  dsimp only
  split <;> omega

theorem roundAt_le (h : Stands m e sticky a) (hs : sticky = true → e < q) {n : ℕ} (hn : a < n * 2 ^ q) :
    (roundAt mode neg m e sticky q).1 ≤ n := by
  obtain ⟨f, exact, above, half, hb, hr⟩ := roundAt_between mode neg h hs
  have hpos : (0 : ℚ) < 2 ^ q := by positivity
  have hnf : f < n := by
    have := lt_of_mul_lt_mul_right (hb.least.trans_lt hn) hpos.le
    exact_mod_cast this
  rw [hr]
  dsimp only
  split <;> omega

end

theorem signed_mul (neg : Bool) (a b : ℚ) : signed neg (a * b) = (if neg then -a else a) * b := by
  cases neg
  · rfl
  · exact (neg_mul a b).symm

theorem rat_fin (neg : Bool) (m : ℕ) (e : ℤ) : (FVal.fin neg m e).rat = signed neg (m * 2 ^ e) := (signed_mul ..).symm

theorem abs_signed (neg : Bool) {a : ℚ} (h : 0 ≤ a) : |signed neg a| = a := by
  cases neg
  · exact abs_of_nonneg h
  · exact (abs_neg a).trans (abs_of_nonneg h)

theorem signed_inj {neg : Bool} {a b : ℚ} : signed neg a = signed neg b ↔ a = b := by
  cases neg
  · exact Iff.rfl
  · exact neg_inj

theorem signed_neg_iff {neg : Bool} {a : ℚ} (h : 0 < a) : decide (signed neg a < 0) = neg := by
  cases neg
  · exact decide_eq_false (not_lt.mpr h.le)
  · exact decide_eq_true (neg_lt_zero.mpr h)

theorem exponent_iff {n : ℕ} (h : n ≠ 0) (q top : ℤ) : q + (Nat.log2 n : ℤ) > top ↔ (2 : ℚ) ^ (top + 1) ≤ n * 2 ^ q := by
  obtain ⟨hlow, hhigh⟩ := (stands_exact n q).binade h
  constructor
  · intro hgt
    exact (zpow_le_zpow_right₀ one_le_two (by omega)).trans hlow
  · intro hle
    have := (zpow_lt_zpow_iff_right₀ (one_lt_two (α := ℚ))).mp (hle.trans_lt hhigh)
    omega

/-- Where a rounding without a least quantum is tiny. -/
theorem tiny_iff {p n : ℕ} (hp : 1 ≤ p) (top emin : ℤ) (hlow : 2 ^ (p - 1) ≤ n) (hhigh : n ≤ 2 ^ p) :
    (decide (top < emin) && !(top == emin - 1 && n == 2 ^ p)) = true ↔ (n : ℚ) * 2 ^ (top - (p : ℤ) + 1) < 2 ^ emin := by
  have hleast : (2 : ℚ) ^ top ≤ n * 2 ^ (top - (p : ℤ) + 1) := by
    have : (2 : ℚ) ^ top = (2 ^ (p - 1) : ℕ) * 2 ^ (top - (p : ℤ) + 1) := by
      push_cast
      rw [← zpow_natCast, ← zpow_add₀ two_ne_zero]
      congr 1
      omega
    rw [this]
    exact mul_le_mul_of_nonneg_right (by exact_mod_cast hlow) (by positivity)
  have hfull : ((2 ^ p : ℕ) : ℚ) * 2 ^ (top - (p : ℤ) + 1) = 2 ^ (top + 1) := by
    push_cast
    rw [← zpow_natCast, ← zpow_add₀ two_ne_zero]
    congr 1
    ring
  have hmost : (n : ℚ) * 2 ^ (top - (p : ℤ) + 1) ≤ 2 ^ (top + 1) :=
    hfull ▸ mul_le_mul_of_nonneg_right (by exact_mod_cast hhigh) (by positivity)
  rw [Bool.and_eq_true, decide_eq_true_eq, Bool.not_eq_true', Bool.and_eq_false_iff, beq_eq_false_iff_ne, beq_eq_false_iff_ne]
  constructor
  · rintro ⟨hlt, hne⟩
    rcases eq_or_ne top (emin - 1) with heq | hlt'
    · have hn : n < 2 ^ p := lt_of_le_of_ne hhigh (hne.resolve_left (not_not.mpr heq))
      have : (n : ℚ) * 2 ^ (top - (p : ℤ) + 1) < (2 ^ p : ℕ) * 2 ^ (top - (p : ℤ) + 1) :=
        mul_lt_mul_of_pos_right (by exact_mod_cast hn) (by positivity)
      rw [hfull, heq, sub_add_cancel] at this
      rwa [heq]
    · exact hmost.trans_lt (zpow_lt_zpow_right₀ one_lt_two (by omega))
  · intro h
    have hlt : top < emin := (zpow_lt_zpow_iff_right₀ (one_lt_two (α := ℚ))).mp (hleast.trans_lt h)
    refine ⟨hlt, ?_⟩
    by_contra hboth
    rw [not_or, not_not, not_not] at hboth
    obtain ⟨heq, hn⟩ := hboth
    rw [hn, hfull, heq, sub_add_cancel] at h
    exact lt_irrefl _ h

section

variable {c : RCtx} {neg : Bool} {a : ℚ} {n k : ℕ} {q qfree : ℤ}

/-- What the roundings with and without a least quantum have found of a magnitude. -/
structure Roundings (c : RCtx) (neg : Bool) (a : ℚ) (n k : ℕ) (q qfree : ℤ) : Prop where
  pos : 0 < a
  picks : c.mode.Picks (OnGrid c.prec (some c.f.qmin)) (signed neg a) (signed neg (n * 2 ^ q))
  picksFree : c.mode.Picks (OnGrid c.prec none) (signed neg a) (signed neg (k * 2 ^ qfree))

theorem Roundings.rounds_zero (h : Roundings c neg a 0 k q qfree) (hf : c.f.Fits) (ht : (k : ℚ) * 2 ^ qfree < 2 ^ (c.f.qmin + c.f.p - 1)) :
    c.Rounds (signed neg a) (c.f.zeroBits neg, flUnderflow) := by
  have hy : signed neg ((0 : ℕ) * 2 ^ q) = 0 := by cases neg <;> simp [signed]
  have hx : (0 : ℚ) ≠ signed neg a := fun heq => by
    have := signed_neg_iff (neg := neg) h.pos
    have hz := abs_signed neg h.pos.le
    rw [← heq, abs_zero] at hz
    exact h.pos.ne hz
  refine ⟨_, _, h.picks, h.picksFree, fun _ => ?_, fun hover => ?_⟩
  · rw [hy, if_neg hx, abs_signed neg (by positivity), if_pos ht, unpack_zeroBits neg hf, signed_neg_iff h.pos]
    exact ⟨rfl, rfl, rfl, rfl⟩
  · rw [hy, abs_zero] at hover
    exact absurd hover (not_le.mpr (by positivity))

/-- The word of a number too great (R171). -/
def FFmt.overflow (f : FFmt) (mode : Rnd) (neg : Bool) : ℕ :=
  match mode with
  | .rne => f.infBits neg
  | .rtz => f.maxBits neg
  | .rup => if neg then f.maxBits neg else f.infBits neg
  | .rdn => if neg then f.infBits neg else f.maxBits neg

theorem Roundings.rounds_overflow (h : Roundings c neg a n k q qfree) (hover : (2 : ℚ) ^ (c.f.emax + 1) ≤ n * 2 ^ q) :
    c.Rounds (signed neg a) (c.f.overflow c.mode neg, flOverflow) := by
  refine ⟨_, _, h.picks, h.picksFree, fun hlt => ?_, fun _ => ?_⟩
  · rw [abs_signed neg (by positivity)] at hlt
    exact absurd hover (not_le.mpr hlt)
  · rw [signed_neg_iff h.pos]
    exact ⟨rfl, rfl⟩

theorem Roundings.rounds_within (h : Roundings c neg a n k q qfree) (hf : c.f.Fits) (h0 : n ≠ 0) (hq : c.f.qmin ≤ q) (hn : n ≤ 2 ^ c.f.p)
    (hover : q + (Nat.log2 n : ℤ) ≤ c.f.emax) {exact tiny : Bool} (hexact : exact = true ↔ (n : ℚ) * 2 ^ q = a)
    (htiny : tiny = true ↔ (k : ℚ) * 2 ^ qfree < 2 ^ (c.f.qmin + c.f.p - 1)) :
    c.Rounds (signed neg a) (c.f.pack neg n q, if exact then 0#5 else if tiny then flUnderflow else flInexact) := by
  obtain ⟨m, e, hunpack, hval⟩ := unpack_pack hf neg h0 hq hn hover
  refine ⟨_, _, h.picks, h.picksFree, fun _ => ?_, fun hle => ?_⟩
  · rw [hunpack, rat_fin, hval, signed_neg_iff h.pos, abs_signed neg (by positivity)]
    refine ⟨rfl, rfl, rfl, ?_⟩
    dsimp only
    simp only [signed_inj, hexact, htiny]
  · rw [abs_signed neg (by positivity), ← exponent_iff h0] at hle
    omega

end

/-- A magnitude that is not zero, with a precision of the format, is rounded once. -/
theorem RCtx.rnd_rounds {c : RCtx} (hf : c.f.Fits) (hp1 : 1 ≤ c.prec) (hpp : c.prec ≤ c.f.p) (neg : Bool) {m : ℕ} {e : ℤ} {sticky : Bool}
    {a : ℚ} (h : Stands m e sticky a) (hm : m ≠ 0) (hs : sticky = true → 2 ^ c.prec ≤ m) :
    c.Rounds (signed neg a) (c.rnd neg m e sticky) := by
  have hfw := hf.fraction
  have hprec := hf.prec
  have ha := h.pos hm
  obtain ⟨htop, hbelow⟩ := h.binade hm
  obtain ⟨top, htopeq⟩ : ∃ top, top = e + (Nat.log2 m : ℤ) := ⟨_, rfl⟩
  obtain ⟨qfree, hqfree⟩ : ∃ q, q = top - (c.prec : ℤ) + 1 := ⟨_, rfl⟩
  obtain ⟨q, hq⟩ : ∃ q, q = if qfree < c.f.qmin then c.f.qmin else qfree := ⟨_, rfl⟩
  rw [← htopeq] at htop hbelow
  have hqmin : c.f.qmin ≤ q ∧ qfree ≤ q ∧ (q = qfree ∨ c.f.qmin = q) := by
    rw [hq]
    split <;> omega
  obtain ⟨hqleast, hqplace, hqtight⟩ := hqmin
  have hquantum : Quantum c.prec (some c.f.qmin) top q :=
    ⟨fun k hk => by cases hk; exact hqleast, hqfree ▸ hqplace, hqtight.imp (hqfree ▸ ·) (congrArg some)⟩
  have hquantum' : Quantum c.prec none top qfree := ⟨fun k hk => (Option.not_mem_none k hk).elim, hqfree.ge, .inl hqfree⟩
  have hsfree : sticky = true → e < qfree := fun hsticky => by
    have hle : c.prec ≤ m.log2 := (Nat.le_log2 hm).mpr (hs hsticky)
    omega
  have hsq : sticky = true → e < q := fun hsticky => (hsfree hsticky).trans_le hqplace
  obtain ⟨hpick, hexact⟩ := roundAt_picks hp1 hquantum h hsq htop hbelow c.mode neg
  obtain ⟨hpick', -⟩ := roundAt_picks hp1 hquantum' h hsfree htop hbelow c.mode neg
  have hbinade : (2 : ℚ) ^ (top + 1) = (2 ^ c.prec : ℕ) * 2 ^ qfree := by
    push_cast
    rw [← zpow_natCast, ← zpow_add₀ two_ne_zero, hqfree]
    congr 1
    ring
  have hfreemost : (roundAt c.mode neg m e sticky qfree).1 ≤ 2 ^ c.prec := roundAt_le h hsfree (hbinade ▸ hbelow)
  have hfreeleast : 2 ^ (c.prec - 1) ≤ (roundAt c.mode neg m e sticky qfree).1 := le_roundAt h hsfree <| le_trans (le_of_eq <| by
    push_cast
    rw [← zpow_natCast, ← zpow_add₀ two_ne_zero, hqfree]
    congr 1
    omega) htop
  have hmost : (roundAt c.mode neg m e sticky q).1 ≤ 2 ^ c.prec := roundAt_le h hsq <| hbelow.trans_le <| by
    rw [hbinade]
    exact mul_le_mul_of_nonneg_left (zpow_le_zpow_right₀ one_le_two hqplace) (by positivity)
  have hfound : Roundings c neg a (roundAt c.mode neg m e sticky q).1 (roundAt c.mode neg m e sticky qfree).1 q qfree := ⟨ha, hpick, hpick'⟩
  have htiny := tiny_iff hp1 top (c.f.qmin + c.f.p - 1) hfreeleast hfreemost
  rw [← hqfree] at htiny
  unfold RCtx.rnd FFmt.round
  dsimp only
  rw [← htopeq, ← hqfree, ← hq]
  split
  next hzero =>
    rw [hzero] at hfound
    refine hfound.rounds_zero hf ?_
    have hsmall : top < c.f.qmin := by
      by_contra hge
      have hle : (2 : ℚ) ^ q ≤ a := (zpow_le_zpow_right₀ one_le_two (by omega)).trans htop
      have := le_roundAt (mode := c.mode) (neg := neg) h hsq (n := 1) (by simpa using hle)
      omega
    calc _ ≤ ((2 ^ c.prec : ℕ) : ℚ) * 2 ^ qfree := mul_le_mul_of_nonneg_right (by exact_mod_cast hfreemost) (by positivity)
      _ = 2 ^ (top + 1) := hbinade.symm
      _ < _ := zpow_lt_zpow_right₀ one_lt_two (by omega)
  next h0 =>
    have hn : (roundAt c.mode neg m e sticky q).1 ≤ 2 ^ c.f.p := hmost.trans (Nat.pow_le_pow_right (by decide) hpp)
    split
    next hover => exact hfound.rounds_overflow ((exponent_iff h0 _ _).mp hover)
    next hover => exact hfound.rounds_within hf h0 hqleast hn (not_lt.mp hover) hexact htiny

end Sys2Proof.Machine
end

section
/-! SUPPORT. The exact arithmetic behind a rounding (R169 to R171, R184, R263, R264): exact numbers, the values of a format, and what each
operation rounds. -/

namespace Sys2Proof.Machine

/-! Exact numbers. -/

/-- The number that an exact sum or product is. -/
def Dyad.rat (x : Dyad) : ℚ := x.m * 2 ^ x.e

theorem Dyad.rat_eq_zero (x : Dyad) : x.rat = 0 ↔ x.m = 0 := by
  rw [Dyad.rat, mul_eq_zero, or_iff_left (by positivity), Int.cast_eq_zero]

theorem Dyad.rat_add (x y : Dyad) : (x.add y).rat = x.rat + y.rat := by
  unfold Dyad.add
  split
  next h =>
    simp only [Dyad.rat, zpow_toNat_mul h]
    push_cast
    ring
  next h =>
    simp only [Dyad.rat, zpow_toNat_mul (not_le.mp h).le]
    push_cast
    ring

theorem Dyad.rat_neg (x : Dyad) : x.neg.rat = -x.rat := by
  simp only [Dyad.rat, Dyad.neg]
  push_cast
  ring

theorem Dyad.lt_iff (x y : Dyad) : x.lt y = true ↔ x.rat < y.rat := by
  have hsub : (x.add y.neg).rat = x.rat - y.rat := by rw [Dyad.rat_add, Dyad.rat_neg, sub_eq_add_neg]
  have hpos : (0 : ℚ) < 2 ^ (x.add y.neg).e := by positivity
  have hsign := mul_lt_mul_iff_of_pos_right (b := ((x.add y.neg).m : ℚ)) (c := 0) hpos
  rw [zero_mul, Int.cast_lt_zero] at hsign
  rw [Dyad.lt, decide_eq_true_eq, ← sub_neg (a := x.rat) (b := y.rat), ← hsub, Dyad.rat, hsign]

theorem FVal.rat_dyad (v : FVal) : v.dyad.rat = v.rat := by
  cases v with
  | fin s m e => cases s <;> simp [FVal.dyad, FVal.rat, Dyad.rat]
  | _ => simp [FVal.dyad, FVal.rat, Dyad.rat]

theorem Dyad.rat_sum (l : List Dyad) : (sumDyad l).rat = (l.map Dyad.rat).sum := by
  have hfrom : ∀ d : Dyad, (l.foldl Dyad.add d).rat = d.rat + (l.map Dyad.rat).sum := by
    induction l with
    | nil => exact fun d => (add_zero _).symm
    | cons x l ih => exact fun d => by rw [List.foldl_cons, ih, Dyad.rat_add, List.map_cons, List.sum_cons, add_assoc]
  rw [sumDyad, hfrom]
  simp [Dyad.rat]

theorem signed_natAbs (m e : ℤ) : signed (decide (m < 0)) (m.natAbs * 2 ^ e) = m * 2 ^ e := by
  rw [signed_mul]
  congr 1
  rcases lt_or_ge m 0 with h | h
  · rw [decide_eq_true h, if_pos rfl, ← Int.cast_natCast, Int.ofNat_natAbs_of_nonpos h.le]
    push_cast
    ring
  · rw [decide_eq_false (not_lt.mpr h), if_neg Bool.false_ne_true, ← Int.cast_natCast, Int.natAbs_of_nonneg h]

section

variable {c : RCtx} (hf : c.f.Fits) (hp1 : 1 ≤ c.prec) (hpp : c.prec ≤ c.f.p)

include hf hp1 hpp

theorem RCtx.rounds_fin (neg : Bool) {m : ℕ} (e : ℤ) (hm : m ≠ 0) : c.Rounds (FVal.fin neg m e).rat (c.rnd neg m e) := by
  rw [rat_fin]
  exact RCtx.rnd_rounds hf hp1 hpp neg (stands_exact m e) hm fun h => absurd h Bool.false_ne_true

theorem RCtx.rounds_dyad {x : Dyad} (hx : x.rat ≠ 0) : c.Rounds x.rat (c.dyad x) := by
  have hm : x.m ≠ 0 := mt (Dyad.rat_eq_zero x).mpr hx
  rw [RCtx.dyad, if_neg hm, Dyad.rat, ← signed_natAbs]
  exact RCtx.rnd_rounds hf hp1 hpp _ (stands_exact _ _) (Int.natAbs_ne_zero.mpr hm) fun h => absurd h Bool.false_ne_true

end

/-! The values of a format. -/

/-- A number whose significand is not zero. -/
def FVal.Genuine (v : FVal) : Prop := v.finite = true ∧ (v.rat = 0 → v = .zero v.neg)

theorem genuine_zero (s : Bool) : (FVal.zero s).Genuine := ⟨rfl, fun _ => rfl⟩

theorem genuine_fin {s : Bool} {m : ℕ} {e : ℤ} (hm : m ≠ 0) : (FVal.fin s m e).Genuine := by
  refine ⟨rfl, fun h => ?_⟩
  have := abs_signed s (show (0 : ℚ) ≤ m * 2 ^ e by positivity)
  rw [← rat_fin, h, abs_zero] at this
  exact absurd this (by positivity)

theorem FVal.Genuine.significand {s : Bool} {m : ℕ} {e : ℤ} (h : (FVal.fin s m e).Genuine) : m ≠ 0 := by
  rintro rfl
  obtain ⟨-, hz⟩ := h
  have := hz (by simp [FVal.rat])
  cases this

/-- A value that a format's words hold: its significand fills the precision, but for what is subnormal. -/
structure Held (f : FFmt) (m : ℕ) (e : ℤ) : Prop where
  pos : m ≠ 0
  most : m < 2 ^ f.p
  least : f.qmin ≤ e
  full : e = f.qmin ∨ 2 ^ f.fw ≤ m
  range : e + f.fw ≤ f.emax

theorem unpack_held {f : FFmt} (hf : f.Fits) {w : ℕ} {s : Bool} {m : ℕ} {e : ℤ} (h : f.unpack w = .fin s m e) : Held f m e := by
  have hlarge := hf.largest
  have hew : (4 : ℕ) ≤ 2 ^ f.ew := Nat.pow_le_pow_right (n := 2) (by decide) hf.exponent
  have hewz : ((2 ^ f.ew : ℕ) : ℤ) = 2 ^ f.ew := by push_cast; rfl
  have hE : bitsOf w f.fw f.ew < 2 ^ f.ew := Nat.mod_lt _ (by positivity)
  have hM : bitsOf w 0 f.fw < 2 ^ f.fw := Nat.mod_lt _ (by positivity)
  have hp : 2 ^ f.p = 2 * 2 ^ f.fw := by rw [hf.prec, pow_succ']
  rw [FFmt.unpack] at h
  split at h
  · split at h <;> cases h
  · split at h
    · split at h
      · cases h
      · cases h
        exact ⟨by assumption, by omega, le_rfl, .inl rfl, by omega⟩
    · cases h
      exact ⟨by positivity, by omega, by omega, .inr (by omega), by omega⟩

theorem unpack_genuine {f : FFmt} (hf : f.Fits) {w : ℕ} (h : (f.unpack w).finite = true) : (f.unpack w).Genuine := by
  cases hv : f.unpack w with
  | nan | inf s => rw [hv] at h; cases h
  | zero s => exact genuine_zero s
  | fin s m e => exact genuine_fin (unpack_held hf hv).pos

/-- A number has one significand and one exponent in a format. -/
theorem Held.unique {f : FFmt} (hf : f.Fits) {m m' : ℕ} {e e' : ℤ} (h : Held f m e) (h' : Held f m' e') (heq : (m : ℚ) * 2 ^ e = m' * 2 ^ e') :
    m = m' ∧ e = e' := by
  have hp : 2 ^ f.p = 2 ^ f.fw * 2 := by rw [hf.prec, pow_succ]
  have hno {m m' : ℕ} {e e' : ℤ} (h : Held f m e) (h' : Held f m' e') (heq : (m : ℚ) * 2 ^ e = m' * 2 ^ e') : ¬ e < e' := by
    intro hlt
    obtain ⟨k, hk⟩ : ∃ k : ℕ, (e' - e).toNat = k + 1 := ⟨(e' - e).toNat - 1, by omega⟩
    rw [zpow_toNat_mul hlt.le, ← mul_assoc, mul_left_inj' (by positivity), hk] at heq
    have hm : m = m' * (2 ^ k * 2) := by
      rw [← pow_succ]
      exact_mod_cast heq
    have hfull : 2 ^ f.fw ≤ m' := h'.full.resolve_left (by have := h.least; omega)
    have hge : 2 ^ f.fw * 2 ≤ m := by
      rw [hm, ← mul_assoc]
      exact Nat.mul_le_mul_right 2 (hfull.trans (Nat.le_mul_of_pos_right _ (by positivity)))
    have := h.most
    omega
  have he : e = e' := le_antisymm (not_lt.mp (hno h' h heq.symm)) (not_lt.mp (hno h h' heq))
  subst he
  rw [mul_left_inj' (by positivity)] at heq
  exact ⟨by exact_mod_cast heq, rfl⟩

/-- A value of a format rounds at full precision to itself. -/
theorem RCtx.val_exact {c : RCtx} (hf : c.f.Fits) (hp : c.prec = c.f.p) {w : ℕ} (hw : (c.f.unpack w).finite = true) :
    ∃ v, c.val (c.f.unpack w) = (v, 0#5) ∧ c.f.unpack v = c.f.unpack w := by
  cases hv : c.f.unpack w with
  | nan | inf s => rw [hv] at hw; cases hw
  | zero s => exact ⟨_, rfl, unpack_zeroBits s hf⟩
  | fin s m e =>
    have h := unpack_held hf hv
    have hprec := hf.prec
    have hlow := Nat.log2_self_le h.pos
    have hlog : m.log2 ≤ c.f.fw := by
      have := (Nat.log2_lt h.pos).mpr h.most
      omega
    have hfulllog : 2 ^ c.f.fw ≤ m → m.log2 = c.f.fw := fun hm => le_antisymm hlog ((Nat.le_log2 h.pos).mpr hm)
    have hq : (if e + (m.log2 : ℤ) - (c.prec : ℤ) + 1 < c.f.qmin then c.f.qmin else e + (m.log2 : ℤ) - (c.prec : ℤ) + 1) = e := by
      have := h.least
      rcases h.full with he | hm
      · split <;> omega
      · have := hfulllog hm
        split <;> omega
    have hround : roundAt c.mode s m e false e = (m, true) := by
      rw [roundAt, if_pos le_rfl, sub_self]
      simp
    have hrange := h.range
    obtain ⟨m', e', hunpack, hval⟩ := unpack_pack hf s h.pos h.least h.most.le (by omega)
    refine ⟨c.f.pack s m e, ?_, ?_⟩
    · unfold RCtx.val RCtx.rnd FFmt.round
      dsimp only
      rw [hq, hround]
      dsimp only
      rw [if_neg h.pos, if_neg (by omega), if_pos rfl]
    · obtain ⟨rfl, rfl⟩ := (unpack_held hf hunpack).unique hf h hval
      exact hunpack

/-! What each operation rounds. -/

section

variable {c : RCtx} (hf : c.f.Fits) (hp1 : 1 ≤ c.prec) (hpp : c.prec ≤ c.f.p) {x y z : FVal}

theorem FVal.Genuine.cases {v : FVal} (h : v.Genuine) :
    (∃ s, v = .zero s ∧ v.rat = 0) ∨ ∃ s m e, v = .fin s m e ∧ m ≠ 0 ∧ v.rat ≠ 0 := by
  cases v with
  | nan | inf s => cases h.1
  | zero s => exact .inl ⟨s, rfl, rfl⟩
  | fin s m e => exact .inr ⟨s, m, e, rfl, h.significand, fun hz => by cases h.2 hz⟩

include hf hp1 hpp in
theorem RCtx.add_rounds (hx : x.Genuine) (hy : y.Genuine) (h : x.rat + y.rat ≠ 0) : c.Rounds (x.rat + y.rat) (c.add x y) := by
  obtain ⟨s, rfl, hx0⟩ | ⟨s, m, e, rfl, hm, -⟩ := hx.cases <;> obtain ⟨s', rfl, hy0⟩ | ⟨s', m', e', rfl, hm', -⟩ := hy.cases
  · exact absurd (by rw [hx0, hy0, add_zero]) h
  · rw [hx0, zero_add]
    exact RCtx.rounds_fin hf hp1 hpp s' e' hm'
  · rw [hy0, add_zero]
    exact RCtx.rounds_fin hf hp1 hpp s e hm
  · rw [← FVal.rat_dyad, ← FVal.rat_dyad (.fin s' m' e'), ← Dyad.rat_add] at h ⊢
    exact RCtx.rounds_dyad hf hp1 hpp h

theorem signed_pos {s : Bool} {a : ℚ} (h : 0 < a) : (s = false ↔ 0 < signed s a) ∧ (s = true ↔ signed s a < 0) := by
  cases s
  · exact ⟨iff_of_true rfl h, iff_of_false Bool.false_ne_true (not_lt.mpr h.le)⟩
  · exact ⟨iff_of_false Bool.noConfusion (not_lt.mpr (neg_neg_of_pos h).le), iff_of_true rfl (neg_neg_of_pos h)⟩

theorem RCtx.add_cancels (hx : x.Genuine) (hy : y.Genuine) (h : x.rat + y.rat = 0) :
    c.add x y = (c.f.zeroBits (if x.neg = y.neg then x.neg else c.zneg), 0#5) := by
  obtain ⟨s, rfl, hx0⟩ | ⟨s, m, e, rfl, hm, hx0⟩ := hx.cases <;> obtain ⟨s', rfl, hy0⟩ | ⟨s', m', e', rfl, hm', hy0⟩ := hy.cases
  · rfl
  · exact absurd (by rwa [hx0, zero_add] at h) hy0
  · exact absurd (by rwa [hy0, add_zero] at h) hx0
  · have hsign : s ≠ s' := by
      rintro rfl
      rw [rat_fin, rat_fin] at h
      have ha : (0 : ℚ) < m * 2 ^ e := by positivity
      have hb : (0 : ℚ) < m' * 2 ^ e' := by positivity
      cases s
      · exact absurd h (add_pos ha hb).ne'
      · exact absurd h (add_neg (neg_neg_of_pos ha) (neg_neg_of_pos hb)).ne
    rw [← FVal.rat_dyad, ← FVal.rat_dyad (.fin s' m' e'), ← Dyad.rat_add, Dyad.rat_eq_zero] at h
    have hneg : (FVal.fin s m e).neg ≠ (FVal.fin s' m' e').neg := hsign
    rw [if_neg hneg]
    show c.dyad _ = _
    rw [RCtx.dyad, if_pos h]

/-- The product of two numbers that are not zero. -/
theorem rat_mul_fin (s s' : Bool) (m m' : ℕ) (e e' : ℤ) :
    (FVal.fin s m e).rat * (FVal.fin s' m' e').rat = (FVal.fin (s != s') (m * m') (e + e')).rat := by
  have hz : (2 : ℚ) ^ (e + e') = 2 ^ e * 2 ^ e' := zpow_add₀ two_ne_zero _ _
  cases s <;> cases s' <;> simp [FVal.rat, hz] <;> ring

include hf hp1 hpp in
theorem RCtx.mul_rounds (hx : x.Genuine) (hy : y.Genuine) (h : x.rat * y.rat ≠ 0) : c.Rounds (x.rat * y.rat) (c.mul x y) := by
  obtain ⟨s, rfl, hx0⟩ | ⟨s, m, e, rfl, hm, -⟩ := hx.cases
  · exact absurd (by rw [hx0, zero_mul]) h
  obtain ⟨s', rfl, hy0⟩ | ⟨s', m', e', rfl, hm', -⟩ := hy.cases
  · exact absurd (by rw [hy0, mul_zero]) h
  · rw [rat_mul_fin]
    exact RCtx.rounds_fin hf hp1 hpp _ _ (mul_ne_zero hm hm')

theorem RCtx.mul_zeroes (hx : x.Genuine) (hy : y.Genuine) (h : x.rat * y.rat = 0) : c.mul x y = (c.f.zeroBits (x.neg != y.neg), 0#5) := by
  obtain ⟨s, rfl, hx0⟩ | ⟨s, m, e, rfl, hm, hx0⟩ := hx.cases <;> obtain ⟨s', rfl, hy0⟩ | ⟨s', m', e', rfl, hm', hy0⟩ := hy.cases
  · rfl
  · rfl
  · rfl
  · exact absurd h (mul_ne_zero hx0 hy0)

/-- The product of two numbers as `RCtx.fma` adds it: exact, with its sign. -/
theorem RCtx.fma_eq (hx : x.Genuine) (hy : y.Genuine) : ∃ v : FVal, v.Genuine ∧ v.rat = x.rat * y.rat ∧ v.neg = (x.neg != y.neg) ∧
    c.fma x y z = c.add v z := by
  obtain ⟨s, rfl, hx0⟩ | ⟨s, m, e, rfl, hm, hx0⟩ := hx.cases <;> obtain ⟨s', rfl, hy0⟩ | ⟨s', m', e', rfl, hm', hy0⟩ := hy.cases
  · exact ⟨_, genuine_zero _, by rw [hx0, zero_mul]; rfl, rfl, rfl⟩
  · exact ⟨_, genuine_zero _, by rw [hx0, zero_mul]; rfl, rfl, rfl⟩
  · exact ⟨_, genuine_zero _, by rw [hy0, mul_zero]; rfl, rfl, rfl⟩
  · exact ⟨_, genuine_fin (mul_ne_zero hm hm'), (rat_mul_fin ..).symm, rfl, rfl⟩

/-- A quotient cut off below, with a sticky bit for what is left of it. -/
theorem stands_quotient {m m' : ℕ} (hm' : m' ≠ 0) (e e' : ℤ) :
    Stands (m * 2 ^ guardBits / m') (e - e' - guardBits) (m * 2 ^ guardBits % m' != 0) (m * 2 ^ e / (m' * 2 ^ e')) := by
  have hdiv := Nat.div_add_mod (m * 2 ^ guardBits) m'
  have hmod := Nat.mod_lt (m * 2 ^ guardBits) (Nat.pos_of_ne_zero hm')
  have hpos : (0 : ℚ) < m' := by positivity
  obtain ⟨n, hn⟩ : ∃ n, n = m * 2 ^ guardBits / m' := ⟨_, rfl⟩
  obtain ⟨r, hr⟩ : ∃ r, r = m * 2 ^ guardBits % m' := ⟨_, rfl⟩
  rw [← hn, ← hr] at hdiv
  rw [← hr] at hmod
  rw [← hn, ← hr]
  have hval : (m : ℚ) * 2 ^ e / (m' * 2 ^ e') = (n + r / m') * 2 ^ (e - e' - (guardBits : ℤ)) := by
    have hq : ((m : ℚ) * 2 ^ guardBits) = m' * n + r := by exact_mod_cast hdiv.symm
    have hz : (2 : ℚ) ^ (e - e' - (guardBits : ℤ)) = 2 ^ e / 2 ^ e' / 2 ^ guardBits := by
      rw [zpow_sub₀ two_ne_zero, zpow_sub₀ two_ne_zero, zpow_natCast]
    rw [hz]
    field_simp
    linarith
  have hfrac : (r : ℚ) / m' < 1 := (div_lt_one hpos).mpr (by exact_mod_cast hmod)
  have hfrac0 : (0 : ℚ) ≤ r / m' := by positivity
  have hz : (0 : ℚ) < 2 ^ (e - e' - (guardBits : ℤ)) := by positivity
  constructor
  · rw [hval]
    exact mul_le_mul_of_nonneg_right (by linarith) hz.le
  · rw [hval]
    exact mul_lt_mul_of_pos_right (by linarith) hz
  · rw [hval, mul_left_inj' hz.ne', add_eq_left, div_eq_zero_iff, or_iff_left hpos.ne']
    simp

end

end Sys2Proof.Machine
end

section
/-! SUPPORT. Quotients, sums, the greater of two numbers, and the results of what is no number (R171, R262, R264). -/

namespace Sys2Proof.Machine

section

variable {c : RCtx} {x y : FVal}

theorem signed_div (s s' : Bool) (a b : ℚ) : signed s a / signed s' b = signed (s != s') (a / b) := by
  cases s <;> cases s' <;> simp [signed, neg_div, div_neg]

/-- A quotient of values of a format has more digits than its precision. -/
theorem quotient_digits {m m' k : ℕ} (hm : m ≠ 0) (hm' : m' ≠ 0) (hmost : m' < 2 ^ 53) (hk : k ≤ 53) : 2 ^ k ≤ m * 2 ^ guardBits / m' := by
  rw [Nat.le_div_iff_mul_le (Nat.pos_of_ne_zero hm')]
  calc 2 ^ k * m' ≤ 2 ^ 53 * 2 ^ 53 := Nat.mul_le_mul (Nat.pow_le_pow_right (by decide) hk) hmost.le
    _ ≤ 2 ^ guardBits := by decide
    _ ≤ m * 2 ^ guardBits := Nat.le_mul_of_pos_left _ (Nat.pos_of_ne_zero hm)

theorem RCtx.div_rounds (hf : c.f.Fits) (hp1 : 1 ≤ c.prec) (hpp : c.prec ≤ c.f.p) (hp : c.f.p ≤ 53) (hx : x.Genuine) {w : ℕ}
    (hy : (c.f.unpack w).Genuine) (hx0 : x.rat ≠ 0) (hy0 : (c.f.unpack w).rat ≠ 0) :
    c.Rounds (x.rat / (c.f.unpack w).rat) (c.div x (c.f.unpack w)) := by
  obtain ⟨s, rfl, hz⟩ | ⟨s, m, e, rfl, hm, -⟩ := hx.cases
  · exact absurd hz hx0
  obtain ⟨s', hv, hz⟩ | ⟨s', m', e', hv, hm', -⟩ := hy.cases
  · exact absurd hz hy0
  · have hmost : m' < 2 ^ 53 := (unpack_held hf hv).most.trans_le (Nat.pow_le_pow_right (by decide) hp)
    have hdigits := quotient_digits hm hm' hmost (hpp.trans hp)
    rw [hv, rat_fin, rat_fin, signed_div]
    exact RCtx.rnd_rounds hf hp1 hpp (s != s') (stands_quotient hm' e e') (by have := Nat.two_pow_pos c.prec; omega) fun _ => hdigits

theorem RCtx.div_zero (hx : x.Genuine) (hy : y.Genuine) :
    (x.rat ≠ 0 → y.rat = 0 → c.div x y = (c.f.infBits (x.neg != y.neg), flDivZero)) ∧
      (x.rat = 0 → y.rat ≠ 0 → c.div x y = (c.f.zeroBits (x.neg != y.neg), 0#5)) := by
  obtain ⟨s, rfl, hx0⟩ | ⟨s, m, e, rfl, hm, hx0⟩ := hx.cases <;> obtain ⟨s', rfl, hy0⟩ | ⟨s', m', e', rfl, hm', hy0⟩ := hy.cases
  · exact ⟨fun h => absurd hx0 h, fun _ h => absurd hy0 h⟩
  · exact ⟨fun h => absurd hx0 h, fun _ _ => rfl⟩
  · exact ⟨fun _ _ => rfl, fun h => absurd h hx0⟩
  · exact ⟨fun _ h => absurd h hy0, fun h => absurd h hx0⟩

/-! The greater and the lesser. -/

theorem FVal.before_le (hx : x.Genuine) (hy : y.Genuine) :
    (x.before y = true → x.rat ≤ y.rat) ∧ (x.before y = false → y.rat ≤ x.rat) := by
  have hlt : x.dyad.lt y.dyad = true ↔ x.rat < y.rat := by rw [Dyad.lt_iff, FVal.rat_dyad, FVal.rat_dyad]
  have hnumbers (h : x.before y = x.dyad.lt y.dyad) : (x.before y = true → x.rat ≤ y.rat) ∧ (x.before y = false → y.rat ≤ x.rat) := by
    rw [h, ← Bool.not_eq_true, hlt]
    exact ⟨le_of_lt, not_lt.mp⟩
  obtain ⟨s, rfl, hx0⟩ | ⟨s, m, e, rfl, hm, hx0⟩ := hx.cases <;> obtain ⟨s', rfl, hy0⟩ | ⟨s', m', e', rfl, hm', hy0⟩ := hy.cases
  · rw [hx0, hy0]
    exact ⟨fun _ => le_rfl, fun _ => le_rfl⟩
  · exact hnumbers rfl
  · exact hnumbers rfl
  · exact hnumbers rfl

theorem FVal.isNan_of_finite (h : x.finite = true) : x.isNan = false := by
  cases x
  · cases h
  · cases h
  · rfl
  · rfl

theorem RCtx.max_exact (hf : c.f.Fits) (hp : c.prec = c.f.p) {a b : ℕ} (hx : (c.f.unpack a).finite = true) (hy : (c.f.unpack b).finite = true) :
    ∃ w, c.max (c.f.unpack a) (c.f.unpack b) = (w, 0#5) ∧ (c.f.unpack w = c.f.unpack a ∨ c.f.unpack w = c.f.unpack b) ∧
      (c.f.unpack a).rat ≤ (c.f.unpack w).rat ∧ (c.f.unpack b).rat ≤ (c.f.unpack w).rat := by
  obtain ⟨hlt, hge⟩ := FVal.before_le (unpack_genuine hf hx) (unpack_genuine hf hy)
  rw [RCtx.max, FVal.isNan_of_finite hx, FVal.isNan_of_finite hy, Bool.or_self, if_neg Bool.false_ne_true]
  split
  next h =>
    obtain ⟨w, hw, hv⟩ := RCtx.val_exact hf hp hy
    exact ⟨w, hw, .inr hv, by rw [hv]; exact hlt h, by rw [hv]⟩
  next h =>
    obtain ⟨w, hw, hv⟩ := RCtx.val_exact hf hp hx
    exact ⟨w, hw, .inl hv, by rw [hv], by rw [hv]; exact hge (Bool.not_eq_true _ ▸ h)⟩

theorem RCtx.min_exact (hf : c.f.Fits) (hp : c.prec = c.f.p) {a b : ℕ} (hx : (c.f.unpack a).finite = true) (hy : (c.f.unpack b).finite = true) :
    ∃ w, c.min (c.f.unpack a) (c.f.unpack b) = (w, 0#5) ∧ (c.f.unpack w = c.f.unpack a ∨ c.f.unpack w = c.f.unpack b) ∧
      (c.f.unpack w).rat ≤ (c.f.unpack a).rat ∧ (c.f.unpack w).rat ≤ (c.f.unpack b).rat := by
  obtain ⟨hlt, hge⟩ := FVal.before_le (unpack_genuine hf hy) (unpack_genuine hf hx)
  rw [RCtx.min, FVal.isNan_of_finite hx, FVal.isNan_of_finite hy, Bool.or_self, if_neg Bool.false_ne_true]
  split
  next h =>
    obtain ⟨w, hw, hv⟩ := RCtx.val_exact hf hp hy
    exact ⟨w, hw, .inr hv, by rw [hv]; exact hlt h, by rw [hv]⟩
  next h =>
    obtain ⟨w, hw, hv⟩ := RCtx.val_exact hf hp hx
    exact ⟨w, hw, .inl hv, by rw [hv], by rw [hv]; exact hge (Bool.not_eq_true _ ▸ h)⟩

/-! What is no number. -/

theorem RCtx.nan_operand (h : x.isNan = true ∨ y.isNan = true) : c.add x y = (c.f.nanBits, 0#5) ∧ c.mul x y = (c.f.nanBits, 0#5) ∧
    c.div x y = (c.f.nanBits, 0#5) ∧ c.max x y = (c.f.nanBits, 0#5) ∧ c.min x y = (c.f.nanBits, 0#5) := by
  have hor : (x.isNan || y.isNan) = true := by rwa [Bool.or_eq_true]
  have hmax : c.max x y = (c.f.nanBits, 0#5) := by
    rw [RCtx.max, if_pos hor]
    rfl
  have hmin : c.min x y = (c.f.nanBits, 0#5) := by
    rw [RCtx.min, if_pos hor]
    rfl
  rcases h with h | h
  · cases x <;> cases h
    exact ⟨rfl, rfl, rfl, hmax, hmin⟩
  · cases y <;> cases h
    cases x <;> exact ⟨rfl, rfl, rfl, hmax, hmin⟩

theorem RCtx.inf_number (n : Bool) (hy : y.Genuine) : c.add (.inf n) y = (c.f.infBits n, 0#5) ∧ c.add y (.inf n) = (c.f.infBits n, 0#5) ∧
    c.div (.inf n) y = (c.f.infBits (n != y.neg), 0#5) ∧ c.div y (.inf n) = (c.f.zeroBits (y.neg != n), 0#5) ∧
    c.mul (.inf n) y = if y.rat = 0 then (c.f.nanBits, flInvalid) else (c.f.infBits (n != y.neg), 0#5) := by
  obtain ⟨s, rfl, hy0⟩ | ⟨s, m, e, rfl, hm, hy0⟩ := hy.cases
  · rw [if_pos hy0]
    exact ⟨rfl, rfl, rfl, rfl, rfl⟩
  · rw [if_neg hy0]
    exact ⟨rfl, rfl, rfl, rfl, rfl⟩

/-! The sum of a list. -/

theorem RCtx.sum_rounds (hf : c.f.Fits) (hp1 : 1 ≤ c.prec) (hpp : c.prec ≤ c.f.p) {l : List FVal} (hl : ∀ v ∈ l, v.Genuine)
    (h : (l.map FVal.rat).sum ≠ 0) : c.Rounds (l.map FVal.rat).sum (c.sum l) := by
  have hno (v : FVal) (hv : v.finite = false) : v ∉ l := fun hm => by
    have := (hl v hm).1
    rw [hv] at this
    cases this
  have hnan : l.any FVal.isNan = false := by
    rw [List.any_eq_false]
    exact fun v hv => Bool.not_eq_true _ ▸ FVal.isNan_of_finite (hl v hv).1
  have hinf (s : Bool) : (l.any fun v => v == .inf s) = false := by
    rw [List.any_eq_false]
    intro v hv
    rw [beq_iff_eq]
    rintro rfl
    exact hno _ rfl hv
  have hzero (s : Bool) : (l.all fun v => v == .zero s) = false := by
    rw [Bool.eq_false_iff]
    intro hall
    rw [List.all_eq_true] at hall
    refine h (List.sum_eq_zero fun r hr => ?_)
    obtain ⟨v, hv, rfl⟩ := List.mem_map.mp hr
    rw [beq_iff_eq.mp (hall v hv)]
    rfl
  have hsum : (sumDyad (l.map FVal.dyad)).rat = (l.map FVal.rat).sum := by
    rw [Dyad.rat_sum, List.map_map]
    exact congrArg List.sum (List.map_congr_left fun v _ => v.rat_dyad)
  unfold RCtx.sum
  dsimp only
  rw [hnan, hinf, hinf, hzero, hzero]
  rw [← hsum] at h ⊢
  exact RCtx.rounds_dyad hf hp1 hpp h

end

theorem fits_of_format {f : FFmt} (h : f = f32 ∨ f = f64) : f.Fits ∧ f.p ≤ 53 := by
  obtain rfl | rfl := h
  · exact ⟨fits_f32, by decide⟩
  · exact ⟨fits_f64, by decide⟩

/-- A binary32 word narrowed to BF16. -/
theorem cvtBf16_rounds {a : ℕ} (ha : (f32.unpack a).finite = true) (h0 : (f32.unpack a).rat ≠ 0) :
    ∃ fl, (RCtx.full bf16 .rne).Rounds (f32.unpack a).rat (cvtBf16 a, fl) := by
  rw [cvtBf16]
  obtain ⟨s, -, hz⟩ | ⟨s, m, e, hv, hm, -⟩ := (unpack_genuine fits_f32 ha).cases
  · exact absurd hz h0
  · rw [hv]
    exact ⟨_, RCtx.rounds_fin (c := RCtx.full bf16 .rne) fits_bf16 (by decide) le_rfl s e hm⟩

/-- Settles O35: by the neighbours of a magnitude on the grid of a precision, between which `roundAt` chooses as the mode does, and by the
words of a format, which hold what is chosen; each operation rounds one exact number so. -/
theorem roundedArithmetic : Obligations.RoundedArithmetic := by
  refine ⟨fun c a b d hformat hp1 hpp => ?_, fun c l hformat hp1 hpp hl h => ?_, fun a b => ⟨rfl, rfl, fun h => ?_, cvtBf16_rounds⟩⟩
  · obtain ⟨hf, hp⟩ := fits_of_format hformat
    refine ⟨fun hx hy => ?_, RCtx.nan_operand, fun n hn => ⟨fun hy => ?_, fun m hm => ?_⟩⟩
    · have gx := unpack_genuine hf hx
      have gy := unpack_genuine hf hy
      obtain ⟨hdz, hzd⟩ := RCtx.div_zero (c := c) gx gy
      obtain ⟨v, gv, hv, hneg, hfma⟩ := RCtx.fma_eq (c := c) (z := c.f.unpack d) gx gy
      refine ⟨RCtx.add_rounds hf hp1 hpp gx gy, RCtx.add_cancels gx gy, RCtx.mul_rounds hf hp1 hpp gx gy, RCtx.mul_zeroes gx gy,
        RCtx.div_rounds hf hp1 hpp hp gx gy, hdz, hzd, fun hz h => ?_, fun hz h => ?_, fun hfull => RCtx.max_exact hf hfull hx hy,
        fun hfull => RCtx.min_exact hf hfull hx hy⟩
      · rw [hfma]
        rw [← hv] at h ⊢
        exact RCtx.add_rounds hf hp1 hpp gv (unpack_genuine hf hz) h
      · rw [hfma, ← hneg]
        rw [← hv] at h
        rw [RCtx.add_cancels gv (unpack_genuine hf hz) h]
        exact congrArg (fun s => (c.f.zeroBits s, 0#5)) (ite_congr rfl (fun heq => heq) fun _ => rfl)
    · rw [hn]
      exact RCtx.inf_number n (unpack_genuine hf hy)
    · rw [hn, hm]
      exact ⟨rfl, rfl, rfl⟩
  · obtain ⟨hf, -⟩ := fits_of_format hformat
    have hmap : (l.map fun a => (c.f.unpack a).rat) = (l.map c.f.unpack).map FVal.rat := by
      rw [List.map_map]
      rfl
    rw [hmap] at h ⊢
    refine RCtx.sum_rounds hf hp1 hpp (fun v hv => ?_) h
    obtain ⟨a, ha, rfl⟩ := List.mem_map.mp hv
    exact unpack_genuine hf (hl a ha)
  · rw [cvtBf16]
    cases hv : f32.unpack a with
    | nan => rfl
    | _ => rw [hv] at h; cases h

end Sys2Proof.Machine
end

section
/-! SUPPORT. A queue of the matrix array with an instruction at its head that no engine has: the last arm of the statement about the
operations of the engines says False of it. -/

namespace Sys2Proof.Machine

/-- A NOP as an operation of an engine. -/
def strayOp : EOp :=
  ⟨0, 0, .nop ⟨true, 0#3⟩, 0#3, 0#32, State.reset.core.ctl.tsh, vzero, 0#32, 0#32, State.reset.core.ctl.hy, [], ⟨0#32, none, 0, 0⟩⟩

/-- The tile in turn at reset, one cycle on, with that operation in the queue of the matrix array. -/
def strayTile : Tile :=
  { State.reset.core with
    sch := { State.reset.core.sch with cycle := 1 }
    eng := { State.reset.core.eng with mx := ⟨[strayOp], []⟩ } }

/-- It meets every condition of firing: it reads and writes nothing, and what is no other engine's is the array's. -/
theorem strayTile_mayFire : strayTile.MayFire .mx strayOp [] where
  live := ⟨rfl, rfl⟩
  going := by decide
  queue := rfl
  unit := rfl
  may := rfl
  valid := fun _ hx => absurd hx List.not_mem_nil
  fits := rfl
  array := trivial
  rows := rfl
  unarmed := rfl
  sound := rfl

/-- Refutes O42: the statement ranges over every tile, also over one whose queue holds an instruction that is no engine operation, which
the model fires as one of the array that does nothing; the statement asks False of it. -/
theorem not_engineOperations : ¬ Obligations.EngineOperations := by
  rintro ⟨hfire, -⟩
  obtain ⟨v, f, -, -, -, -, -, -, -, -, -, himpossible⟩ :=
    hfire { State.reset with core := strayTile } strayTile.coord strayTile .mx strayOp [] rfl strayTile_mayFire
  exact himpossible

end Sys2Proof.Machine
end
